-- ==== Sys2Proof/Word.lean ====
section
/-! DEFINITION. The word types of the TX48 and their plainest arithmetic. Registers are 32 bits wide (R6). -/
namespace Sys2Proof

/-- A 32-bit register word (R6). -/
abbrev Word := BitVec 32

/-- One byte of a memory. -/
abbrev Byte := BitVec 8

end Sys2Proof
end

