-- ==== Sys2Proof/Syntax.lean ====
section
/-! DEFINITION. The commands of the TX48: one constructor per row of the opcode table, in the table's order, with its operands; and the
types of the operands. A row that an access to a register brings about names its requester `who` (R9, R11). -/
namespace Sys2Proof

/-- Who accesses a register (R9, R11): the host, a Sepia thread, a DMA channel, a lane's control channel, another unit of the part. -/
inductive Requester where
  | host
  | core (c t : Nat)
  | dma (ch : Nat)
  | lane (n : Nat)
  | unit
deriving DecidableEq, Repr

/-- What ECC finds in the words that a command reads from a memory: nothing, single-bit errors that it corrects, an error that it
cannot correct. -/
inductive Upset where
  | none
  | corrected
  | damaged
deriving DecidableEq, Repr

/-- A crossing frame as its flits are received, corrected and descrambled (R94, R97): the flits where it stands, the first where its
HEAD stands (a v1 flit in the low 128 bits); codewords overlapping the frame that are uncorrectable, and symbols corrected in it. -/
structure RxFrame where
  flits : List (BitVec 256)
  uncorr : Nat
  /-- of these, the ones that no frame before has overlapped -/
  newUncorr : Nat
  corr : Nat
deriving DecidableEq, Repr

/-- A codeword as the receiver looks for it (R92): SYNC, CWSEQ, and whether it is uncorrectable. -/
structure Codeword where
  sync : BitVec 10
  seq : BitVec 4
  bad : Bool
deriving DecidableEq, Repr

/-- A candidate as an engine emits it (R181, R184), with the full sums. -/
structure Cand where
  cls : Nat
  row : Nat
  col : Nat
  core : Nat
  ring : Nat
  vcore : Bool
  vring : Bool
  sat : Bool
  veto : Bool
  iso : Bool
  coll : Bool
  shape : Nat
deriving DecidableEq, Repr

/-- A word that a pair member emits (R189). -/
inductive EWord where
  | cand (c : Cand)
  /-- the end word: candidate count and CRC -/
  | fin (count crc : Nat)
deriving DecidableEq, Repr

/-- What goes wrong in one of DEC's three copies as it evaluates a crossing (R212, R213): bits of the decision word and of TAV that come out
wrong, prescale accumulators (line, value) that its state takes instead, and whether the cause is an uncorrectable table word. -/
structure DecFault where
  copy : Fin 3
  word : BitVec 64
  tav : BitVec 256
  accs : List (Nat × Nat)
  uncorr : Bool
deriving DecidableEq, Repr

/-- A block whose words ECC corrects as a command goes on (R238, R256, R307, R318, R392). -/
inductive EccUnit where
  | qm
  | dram (c : Fin 4)
  | cvl
  | vox
  | irq
deriving DecidableEq, Repr

/-- How a phase of DisplayPort link training comes out (R281): the clock is recovered, the link is trained, or training fails. -/
inductive TrainResult where
  | clock
  | success
  | failure
deriving DecidableEq, Repr

/-- The commands. -/
inductive Instr where
  /-- REGISTER_WRITE (R6). A write to a register that has no row of its own updates it, or is discarded when fewer than four byte enables are set. -/
  | registerWrite (who : Requester) (off : Nat) (be : BitVec 4) (v : Word)
  /-- READ_CLEAR (R8). A read of an RC field returns its value and then clears it, keeping any event of the same cycle. -/
  | readClear (who : Requester) (off : Nat)
  /-- ECC_WINDOW_READ (R485). A register-window read of an uncorrectable SECDED word returns all ones and counts once in the owning block. -/
  | eccWindowRead (who : Requester) (off : Nat) (fixed : Bool)
  /-- SLOT_START (R17). A slot-clock rising edge begins a new slot, to which every slot-timed action of the rim is tied. -/
  | slotStart (dt : Nat) (fix : List (EccUnit × Nat))
  /-- ORBIT_MARKER (R484). An orbit marker seen on ORB or in lane 0's frames is sampled in a slot and judged against the slip window. -/
  | orbitMarker (dt : Nat) (fix : List (EccUnit × Nat))
  /-- HOLDOVER_ENTRY (R22). With no BCLK edge or crossing mark for 4 slot periods, TB enters holdover and raises the clock-monitor line. -/
  | holdoverEntry
  /-- SOURCE_RETURN (R22). The return of the clock source starts a re-lock that slews the slot clock at most 1 ns per slot. -/
  | sourceReturn
  /-- RELOCK_DONE (R22). The end of the re-lock slew returns TB_STAT.STATE to locked. -/
  | relockDone
  /-- GENERATOR_LOCK (R24). The internal generator produces its first slot-clock edge after a start. -/
  | generatorLock
  /-- ORBIT_LOAD_REQUEST (R25). Setting TB_CTL.LOAD makes the orbit number in TB_ORBLOAD apply at the next boundary. -/
  | orbitLoadRequest (who : Requester)
  /-- TB_XID_READ (R43). A read of TB_XID_LO returns the current XID low word and latches TB_XID_HI. -/
  | tbXidRead (who : Requester)
  /-- TB_RTIME_READ (R43). A read of TB_RTIME_LO returns the reference time low word and latches TB_RTIME_HI. -/
  | tbRtimeRead (who : Requester)
  /-- FLIP_REQUEST (R35). A GBL_FLIP write with REQ = 1 makes a pending flip request, replacing any pending one. -/
  | flipRequest (who : Requester) (journal : Bool) (aten : Bool) (at_ : BitVec 16)
  /-- FLIP_CANCEL (R36). A GBL_FLIP write with CANCEL = 1 removes a pending request. -/
  | flipCancel (who : Requester)
  /-- BANK_COPY_DONE (R38). The end of the bank copy clears GBL_FLIPSTAT.BUSY. -/
  | bankCopyDone
  /-- STAGED_WRITE (R39). A write to a banked register's staged offset sets the staged value, or is discarded with WDROP while LOCKED or BUSY. -/
  | stagedWrite (who : Requester) (off : Nat) (v : Word)
  /-- FLIPSTAMP_READ (R42). A read of GBL_FLIPSTAMP[0] latches the other three stamp words. -/
  | flipstampRead (who : Requester)
  /-- RESULT_ARRIVAL (R51). The release register completes the input handshake for a crossing's word, or discards a late result. -/
  | resultArrival (st : Fin 16) (back : Nat) (ph : Nat)
  /-- SENTINEL_READ (R60). A read of REL_SENT[s] latches REL_SENTX[s]. -/
  | sentinelRead (who : Requester) (st : Fin 16)
  /-- SENTINEL_CLEAR (R67). REL_CTL.SMCLR sets every sticky minimum to 0xFFFF. -/
  | sentinelClear (who : Requester)
  /-- AVS_STATUS_RESPONSE (R62). The Status read after a voltage write completes, or finds no response or an alert. -/
  | avsStatusResponse (resp : Option (BitVec 16)) (alert : Bool)
  /-- AVS_SETTLE_END (R62). The SETTLE time after a request runs out and further requests are allowed. -/
  | avsSettleEnd
  /-- ENGINE_OUTPUT_WORD (R189). A pair member emits a candidate or end word that the checker compares with its twin's. -/
  | engineOutputWord (p : Fin 288) (mb : Bool) (back : Nat) (upset : Option EWord) (uncorr : Bool) (corr : Nat)
  /-- CHECKER_TIMEOUT (R189). CHKTO FCLK cycles pass after one member's end word without the other's. -/
  | checkerTimeout (p : Fin 288) (back : Nat)
  /-- REPLAY_VOTE (R64). The spare's words are voted against the members' and the majority goes to the sorter. -/
  | replayVote (p : Fin 288) (back : Nat)
  /-- COLLECT (R186). With every end word in, the collector orders and keeps the first 1,024 candidates. -/
  | collect (back : Nat)
  /-- SORT_DONE (R187). The voted sorter output of class headers and ranked object words is complete. -/
  | sortDone (back : Nat) (dissent : Fin 3)
  /-- PLL_LOCK (R74). A lane PLL locks after domain release or a rate change. -/
  | pllLock (n : Fin 48)
  /-- PLL_LOCK_TIMEOUT (R78). A PLL that does not lock within 2,000 cycles sets PLLERR and retries. -/
  | pllLockTimeout (n : Fin 48)
  /-- CALIBRATION_DONE (R74). Impedance and offset calibration ends and the lane enters IDLE. -/
  | calibrationDone (n : Fin 48)
  /-- CALIBRATION_FAIL (R78). A third consecutive failed calibration puts the lane into FAULT. -/
  | calibrationFail (n : Fin 48)
  /-- SIGNAL_DETECT (R74). Signal detect in IDLE starts CDR acquisition. -/
  | signalDetect (n : Fin 48)
  /-- CDR_LOCK (R74). CDR lock and adaptation complete, the lane is READY and MDR is notified. -/
  | cdrLock (n : Fin 48) (ctle : BitVec 5) (vga : BitVec 5) (dfe : List (BitVec 8))
  /-- RATE_CHANGE (R75). An MDR rate-change command re-locks the PLL and re-enters ACQ. -/
  | rateChange (n : Fin 48)
  /-- LOSS_OF_SIGNAL (R76). Amplitude below 65 mV for 1 us in READY returns the lane to ACQ and notifies MDR. -/
  | lossOfSignal (n : Fin 48)
  /-- LOSS_OF_LOCK (R76). The CDR reports loss of lock in READY and the lane returns to ACQ. -/
  | lossOfLock (n : Fin 48)
  /-- CLOCK_GROUP_MEASURE (R71). Every 10 us each LREFCLK is compared with REFCLK and LNK_GRPSTAT updated. -/
  | clockGroupMeasure (g : Fin 4) (ppm : BitVec 16)
  /-- GROUP_CLOCK_RECOVERY (R72). After 100 us back within limits the group's lanes return through bring-up. -/
  | groupClockRecovery (g : Fin 4)
  /-- TXPRE_WRITE (R81). A write to LNK_TXPRE is held until the next LNK_TXMAIN write. -/
  | txpreWrite (who : Requester) (n : Fin 48) (v : Word)
  /-- TXMAIN_WRITE (R81). A write to LNK_TXMAIN combines the held pre-cursors into a tap set, refused if invalid. -/
  | txmainWrite (who : Requester) (n : Fin 48) (v : Word)
  /-- TAP_SET_APPLY (R81). In READY a new tap set applies at the next crossing-frame boundary of the lane. -/
  | tapSetApply (n : Fin 48)
  /-- READAPT (R82). LNK_CTL.READAPT restarts initial adaptation in place in READY. -/
  | readapt (who : Requester) (n : Fin 48) (ctle : BitVec 5) (vga : BitVec 5) (dfe : List (BitVec 8))
  /-- EYE_UPDATE (R83). Every 10 us in READY the eye monitor updates LNK_EYE. -/
  | eyeUpdate (n : Fin 48) (h : BitVec 8) (w : BitVec 8) (eye : BitVec 2) (snr : BitVec 10) (ctle : BitVec 5) (vga : BitVec 5) (dfe : List (BitVec 8))
  /-- TEST_MODE_ENTER (R84). A LNK_TEST write setting LOOP, GEN or CHK moves a Madder lane into TEST. -/
  | testModeEnter (who : Requester) (n : Fin 48) (v : Word)
  /-- TEST_MODE_EXIT (R84). Clearing LOOP, GEN and CHK returns the lane to IDLE at 10.3125 Gb/s. -/
  | testModeExit (who : Requester) (n : Fin 48) (v : Word)
  /-- AC_EXTEST (R86). An IEEE 1149.6 AC EXTEST runs on the lane nets and stops functional data. -/
  | acExtest (n : Fin 48) (on : Bool)
  /-- DP_DRIVE_WRITE (R88). A LNK_DP write sets swing and pre-emphasis, discarded during SRV link training. -/
  | dpDriveWrite (who : Requester) (n : Fin 48) (v : Word)
  /-- DP_RATE_RELOCK (R88). A DisplayPort rate change completes its PLL re-lock. -/
  | dpRateRelock (n : Fin 48)
  /-- CODEWORD_LOCK (R92). A receiver gains or drops codeword lock from SYNC and CWSEQ. -/
  | codewordLock (n : Fin 48) (cws : List Codeword)
  /-- BLOCK_LOCK (R93). A receiver gains or drops block lock from sync headers. -/
  | blockLock (n : Fin 48) (hs : List (BitVec 2))
  /-- FRAME_LAUNCH (R100). A sender launches the crossing frame of a slot, carrying at most one fast command. -/
  | frameLaunch (n : Fin 48)
  /-- FRAME_RECEIVE (R99). A whole crossing frame is received, checked for failure and handed to ingress or DEC. -/
  | frameReceive (n : Fin 48) (r : RxFrame)
  /-- FAST_COMMAND_REQUEST (R122). A MDR_FCREQ write requests TESTPULSE or a USER command in a chosen slot. -/
  | fastCommandRequest (who : Requester) (code : BitVec 5) (sl : BitVec 16)
  /-- HELLO_SEND (R107). The lane sends a HELLO message every 10 us, or every 1 ms when ABSENT. -/
  | helloSend (n : Fin 48)
  /-- HELLO_RECEIVE (R105). A valid HELLO is taken, identity checked, and a restart of the partner recognised. -/
  | helloReceive (n : Fin 48) (fs : List (BitVec 256))
  /-- PROOF_RECEIVE (R111). A PROOF message's tag and epoch are verified. -/
  | proofReceive (n : Fin 48) (fs : List (BitVec 256))
  /-- COMMIT_RECEIVE (R106). A COMMIT or its echo is received and the chosen mode taken. -/
  | commitReceive (n : Fin 48) (fs : List (BitVec 256))
  /-- REJECT_RECEIVE (R105). A REJECT message from the partner is received. -/
  | rejectReceive (n : Fin 48) (fs : List (BitVec 256))
  /-- TRAIN_START (R107). 2 us after the last COMMIT or echo the lane changes rate through LNK. -/
  | trainStart (n : Fin 48)
  /-- ABSENT_TIMEOUT (R108). 100 ms in HELLO without a valid partner HELLO puts the lane in ABSENT. -/
  | absentTimeout (n : Fin 48)
  /-- PROOF_TIMEOUT (R108). 200 us in PROOF is a proof failure and returns to HELLO. -/
  | proofTimeout (n : Fin 48)
  /-- COMMIT_TIMEOUT (R108). 200 us without an echo returns to HELLO. -/
  | commitTimeout (n : Fin 48)
  /-- TRAIN_TIMEOUT (R108). 4 ms from COMMIT without RUN returns to HELLO and may exclude the rate. -/
  | trainTimeout (n : Fin 48)
  /-- HOLDOFF_EXPIRY (R108). HOLDOFF ms after FAILED the lane resumes HELLO. -/
  | holdoffExpiry (n : Fin 48)
  /-- QUARANTINE_REJECT (R120). In quarantine a REJECT is sent every 1 ms. -/
  | quarantineReject (n : Fin 48)
  /-- RENEGOTIATE (R122). MDR_LCTL.RENEG renegotiates from the next boundary, leaving quarantine and FAILED. -/
  | renegotiate (who : Requester) (n : Fin 48)
  /-- CONTROL_MESSAGE_RECEIVE (R113). A whole control message is policed, checked, tag-verified and sequenced. -/
  | controlMessageReceive (n : Fin 48) (fs : List (BitVec 256)) (fix : List (EccUnit × Nat))
  /-- REMOTE_WRITE (R114). A remote WRITE message is executed against BAR0 and acknowledged. -/
  | remoteWrite (n : Fin 48)
  /-- REMOTE_READ (R114). A remote READ message is executed and answered with READRSP. -/
  | remoteRead (n : Fin 48)
  /-- CONTROL_MESSAGE_SEND (R112). A message from the transmit queue is sent in CTRL segments with SEQ and tag. -/
  | controlMessageSend (n : Fin 48) (fix : List (EccUnit × Nat))
  /-- POLICE_TOKEN (R113). The policing bucket gains one token every 1/RATE ms. -/
  | policeToken (n : Fin 48)
  /-- PARTNER_ID_READ (R122). A read of MDR_PID_LO latches MDR_PID_HI. -/
  | partnerIdRead (who : Requester) (n : Fin 48)
  /-- FRAME_MAP_DONE (R127). The mapping of a frame completes, on time or late. -/
  | frameMapDone (n : Fin 48) (ph : Nat) (corr : Nat)
  /-- CONDITION_DONE (R139). CND completes a crossing's conditioned cells and passes them to PF and the ring. -/
  | conditionDone (corr : Nat) (pedBad : List Nat)
  /-- PEDESTAL_RESET_REQUEST (R148). A write of CND_CTL.PEDRST requests a pedestal reset of a layer. -/
  | pedestalResetRequest (who : Requester) (layers : BitVec 4)
  /-- ROW_BROADCAST (R168). PF delivers one swept row to the engines, replay buffer, survey and capture units. -/
  | rowBroadcast (taken : Nat) (corr : Nat)
  /-- CAPTURE_ARM (R170). PF_WMCTL.ARM arms a capture unit. -/
  | captureArm (who : Requester) (k : Fin 8) (v : Word)
  /-- PLANE_WRITE (R161). A staged static-plane write marks the Lake layers that name it stale. -/
  | planeWrite (who : Requester) (off : Nat) (v : Word)
  /-- REFLATTEN_DONE (R161). The re-flatten of a stale staged Lake layer ends and clears its STALE bit. -/
  | reflattenDone (corr : Nat)
  /-- LAKE_REWRITE_DONE (R162). The rewrite of a live Lake layer after an uncorrectable cell ends. -/
  | lakeRewriteDone (j : Fin 32) (corr : Nat)
  /-- DECISION_EVALUATE (R206). DEC evaluates a crossing into the decision word, trigger record and global accept. -/
  | decisionEvaluate (back : Nat) (faults : List DecFault) (corr : Nat)
  /-- PRESCALE_RESET_REQUEST (R205). DEC_CTL.PSRST resets every prescale accumulator at the next boundary. -/
  | prescaleResetRequest (who : Requester)
  /-- FRAGMENT_COPY_DONE (R223). The copy of a fragment ends and the element becomes visible. -/
  | fragmentCopyDone (corr : Nat) (fix : List (EccUnit × Nat))
  /-- RO_CUR_READ (R221). A read of RO_CUR_IDX latches RO_CUR_XID. -/
  | roCurRead (who : Requester)
  /-- QUEUE_PUSH (R234). A write of QM_PUSH submits an element written at TAIL for admission. -/
  | queuePush (who : Requester) (a : Fin 33) (q : BitVec 14) (fix : List (EccUnit × Nat))
  /-- QUEUE_POP (R234). A write of QM_POP advances HEAD past the consumed element. -/
  | queuePop (who : Requester) (a : Fin 33) (q : BitVec 14) (fix : List (EccUnit × Nat))
  /-- QUEUE_RESET (R238). QM_QRESET with GO clears a queue and discards its elements. -/
  | queueReset (who : Requester) (q : BitVec 14)
  /-- ELEMENT_DELIVERED (R237). An output completes delivery of an element, late or on time. -/
  | elementDelivered (n : Fin 48) (corr : Nat)
  /-- DMA_KICK (R244). DMA_CHCTL.KICK re-fetches the current descriptor. -/
  | dmaKick (who : Requester) (ch : Fin 64)
  /-- DMA_POLL (R244). Every POLL cycles an idle channel re-fetches its descriptor. -/
  | dmaPoll (ch : Fin 64)
  /-- DMA_ENABLE (R250). Setting DMA_CHCTL.EN starts the channel at DMA_RING. -/
  | dmaEnable (who : Requester) (ch : Fin 64)
  /-- DMA_DISABLE (R250). Clearing DMA_CHCTL.EN drops all the channel's work at once. -/
  | dmaDisable (who : Requester) (ch : Fin 64)
  /-- DESCRIPTOR_FETCH (R244). A descriptor is read whole and its transfer starts, or the channel idles on OWN = 0. -/
  | descriptorFetch (ch : Fin 64) (host : List Word) (fix : List (EccUnit × Nat))
  /-- DMA_ELEMENT_READY (R246). An element arrives for a channel waiting on its queues. -/
  | dmaElementReady (ch : Fin 64) (fix : List (EccUnit × Nat))
  /-- DMA_ADMIT_RETRY (R246). A channel in RETRY asks QM again for admission each REFCLK cycle. -/
  | dmaAdmitRetry (ch : Fin 64) (fix : List (EccUnit × Nat))
  /-- DESCRIPTOR_COMPLETE (R247). A transfer ends and the channel writes back status and OWN. -/
  | descriptorComplete (ch : Fin 64) (host : List Byte) (fix : List (EccUnit × Nat))
  /-- BARRIER_DONE (R248). The global-visibility wait of a BAR descriptor completes. -/
  | barrierDone (ch : Fin 64)
  /-- DMA_ERROR (R249). A failed transfer writes back its CODE and halts the channel. -/
  | dmaError (ch : Fin 64) (dest : Bool) (count : Nat) (host : List Byte)
  /-- HOST_READ_TIMEOUT (R249). A host read without completion for 50 ms fails the transfer. -/
  | hostReadTimeout (ch : Fin 64) (count : Nat) (host : List Byte)
  /-- DRAM_TRAINING_DONE (R254). A DRAM channel completes training and becomes ready. -/
  | dramTrainingDone (c : Fin 4)
  /-- DRAM_TRAINING_FAIL (R254). A third training failure marks the channel failed. -/
  | dramTrainingFail (c : Fin 4)
  /-- DRAM_REFRESH (R252). The controller refreshes a bank at its refresh interval. -/
  | dramRefresh (c : Fin 4) (bank : Fin 16)
  /-- ZQ_CALIBRATION (R252). Every 100 ms a short ZQ calibration runs. -/
  | zqCalibration (c : Fin 4)
  /-- READ_RECENTER (R255). Every 100 ms read re-centering holds the channel for at most 2 us. -/
  | readRecenter (c : Fin 4)
  /-- MEM_RETRAIN (R261). MEM_CTL.RETRAIN re-centres every ready channel. -/
  | memRetrain (who : Requester)
  /-- PATROL_SCRUB (R256). The patrol scrubber reads memory in the background and corrects errors. -/
  | patrolScrub (a : Nat) (corr : Bool) (bad : Bool)
  /-- BAR2_ACCESS (R259). A host access through BAR2 reads or writes DRAM data space. -/
  | bar2Access (off : Nat) (n : Nat) (wr : Option (List (Option Byte))) (corr : List Nat)
  /-- RATE_MAP_CLEAR (R265). SRV_CTL.RMCLR clears both pages and restarts counting at the next boundary. -/
  | rateMapClear (who : Requester)
  /-- SRV_PAGE_READ (R284). A read of SRV_PAGE latches SRV_PAGEX. -/
  | srvPageRead (who : Requester)
  /-- COMPOSITION_GO (R267). SRV_CCTL.GO requests a composition, pending while one runs. -/
  | compositionGo (who : Requester)
  /-- COMPOSITION_DONE (R270). The last pass ends and a frame swap is requested. -/
  | compositionDone (fix : List (EccUnit × Nat))
  /-- VERTICAL_BLANKING (R278). Scan-out reaches vertical blanking and FRAMECNT increments. -/
  | verticalBlanking
  /-- LASTSWAP_READ (R271). A read of SRV_LASTSWAP[0] latches words 1 to 3. -/
  | lastswapRead (who : Requester)
  /-- SCANOUT_UNDERRUN (R278). A pixel missing from the fetch FIFO fills the rest of the line with background. -/
  | scanoutUnderrun (x : BitVec 12) (y : BitVec 12)
  /-- BLIT_GO (R274). SRV_BCTL.GO checks and starts a blit, or refuses it. -/
  | blitGo (who : Requester) (op : BitVec 3) (wm : BitVec 12)
  /-- BLIT_ROW_DONE (R277). The blitter finishes a destination row and may raise the row event. -/
  | blitRowDone (fix : List (EccUnit × Nat))
  /-- BLIT_DONE (R277). The last row is finished and the blit completes. -/
  | blitDone (fix : List (EccUnit × Nat))
  /-- BLIT_ERROR (R277). An error completion or uncorrectable word stops the blit with code 5. -/
  | blitError
  /-- DISPLAY_ENABLE (R278). Setting SRV_DCTL.EN starts the timing generator and link bring-up. -/
  | displayEnable (who : Requester) (v : Word)
  /-- HOT_PLUG (R281). HPD high starts capability reads and link training. -/
  | hotPlug (caps : Word) (edid : List Word) (fast : Bool)
  /-- UNPLUG (R281). HPD low for 2 ms stops the main link and waits for HPD. -/
  | unplug
  /-- IRQ_HPD (R281). A short HPD pulse reads link status and retrains when lock is lost. -/
  | irqHpd (lost : Bool)
  /-- LINK_TRAINING_DONE (R281). DisplayPort link training succeeds or steps down the mode. -/
  | linkTrainingDone (r : TrainResult) (drive : BitVec 8)
  /-- CONVERSION_TRIGGER (R286). A trigger samples a converter cell, or is dropped while a conversion runs. -/
  | conversionTrigger (n : Fin 48) (code : BitVec 14)
  /-- CONVERSION_DONE (R286). A conversion delivers its code to CVL_CRES and to its loop. -/
  | conversionDone (n : Fin 48)
  /-- ECHO_CONVERSION (R285). An echo cell reads back its driven code every 100 ns. -/
  | echoConversion (n : Fin 48)
  /-- COMPARATOR_TRIP (R290). An enabled comparator becoming active outside blanking trips its group. -/
  | comparatorTrip (k : Fin 96) (uv : BitVec 21)
  /-- BLANK_WINDOW_END (R289). A blanking window ends and a still-active comparator acts. -/
  | blankWindowEnd (k : Fin 96)
  /-- COMPARATOR_RELEASE (R291). A comparator going inactive ends a cycle trip and may release its group. -/
  | comparatorRelease (k : Fin 96) (uv : BitVec 21)
  /-- TRIP_CLEAR (R291). A CVL_TRIPCLR write ends latched trips of inactive comparators. -/
  | tripClear (who : Requester) (hi : Bool) (mask : Word)
  /-- PWM_PERIOD_END (R292). A PWM period ends, the counter reloads and the duty account updates. -/
  | pwmPeriodEnd (m : Fin 64) (fix : List (EccUnit × Nat))
  /-- PWM_UPDATE_POINT (R295). Pending PWM values become current at the pair's update point. -/
  | pwmUpdatePoint (m : Fin 64)
  /-- LOOP_SAMPLE (R301). A loop samples its cell and computes a new output through its biquads. -/
  | loopSample (lp : Fin 64) (code : BitVec 14) (corr : Nat) (bad : Bool)
  /-- LOOP_OUTPUT (R301). The loop's output becomes pending at its target. -/
  | loopOutput (lp : Fin 64) (cyc : Nat)
  /-- TEMP_UPDATE (R300). Every 10 us CVL_TEMP takes a new on-die temperature. -/
  | tempUpdate (t : BitVec 16)
  /-- BUS_SAMPLE (R313). A voice bus computes and meters its output sample from voices and inputs. -/
  | busSample (b : Fin 16) (corr : Nat)
  /-- BUS_SAMPLE_DELIVER (R311). 25 ns after the sample instant the bus sample reaches cells and loops. -/
  | busSampleDeliver (b : Fin 16)
  /-- VOICE_START (R315). VOX_VCTL.START starts or restarts a voice after TDEL samples. -/
  | voiceStart (who : Requester) (v : Fin 64)
  /-- VOICE_STOP (R315). VOX_VCTL.STOP makes the voice contribute 0 from the next sample. -/
  | voiceStop (who : Requester) (v : Fin 64)
  /-- PEAK_CLEAR (R314). VOX_BMCFG.PKCLR clears a bus meter's peak and hold. -/
  | peakClear (who : Requester) (b : Fin 16)
  /-- TIMER_RUN (R322). Setting TMR_CTL.RUN starts a timer. -/
  | timerRun (who : Requester) (n : Fin 128)
  /-- TIMER_TICK (R323). A prescaler tick advances the count and may raise period, overflow and match events. -/
  | timerTick (n : Fin 128) (rise : Bool) (partner : Option Bool)
  /-- COMPARE_WRITE (R324). A TMR_CMP write re-arms the match and tests it at once. -/
  | compareWrite (who : Requester) (n : Fin 128) (v : Word)
  /-- COUNT_WRITE (R324). A TMR_CNT write sets the count, re-arms the match and tests it at once. -/
  | countWrite (who : Requester) (n : Fin 128) (v : Word)
  /-- TIMER_COUNT_READ (R329). A read of a pair's low count latches the high half. -/
  | timerCountRead (who : Requester) (n : Fin 128)
  /-- TIMER_CAPTURE (R330). A capture trigger stores the count in the queue or sets CAPOVF. -/
  | timerCapture (n : Fin 128) (rise : Bool)
  /-- CAPTURE_READ (R330). A read of TMR_CAP returns and removes the oldest capture. -/
  | captureRead (who : Requester) (n : Fin 128)
  /-- EVENT_COUNTER_CLEAR (R335). TMR_ESEL.CLR sets one count to that cycle's contribution. -/
  | eventCounterClear (who : Requester) (k : Fin 512)
  /-- EVENT_COUNTER_CLEAR_ALL (R335). TMR_EVCTL.CLRALL clears every event counter. -/
  | eventCounterClearAll (who : Requester)
  /-- EVENT_SNAPSHOT (R335). TMR_EVCTL.SNAP copies all counts and the reference time. -/
  | eventSnapshot (who : Requester) (clr : Bool)
  /-- EVENT_COUNT_READ (R334). A read of TMR_ECNT_LO latches TMR_ECNT_HI. -/
  | eventCountRead (who : Requester) (k : Fin 512)
  /-- SNAPSHOT_TIME_READ (R336). A read of TMR_SNAPT_LO latches TMR_SNAPT_HI. -/
  | snapshotTimeRead (who : Requester)
  /-- ADD (R368). rd := ra + rb. -/
  | opAdd (c : Fin 32) (t : Fin 4)
  /-- SUB (R368). rd := ra - rb. -/
  | opSub (c : Fin 32) (t : Fin 4)
  /-- AND (R368). rd := ra and rb. -/
  | opAnd (c : Fin 32) (t : Fin 4)
  /-- OR (R368). rd := ra or rb. -/
  | opOr (c : Fin 32) (t : Fin 4)
  /-- XOR (R368). rd := ra xor rb. -/
  | opXor (c : Fin 32) (t : Fin 4)
  /-- ANDN (R368). rd := ra and not rb. -/
  | opAndn (c : Fin 32) (t : Fin 4)
  /-- SHL (R368). Shifts ra left by rb[4:0]. -/
  | opShl (c : Fin 32) (t : Fin 4)
  /-- SHR (R368). Shifts ra logically right by rb[4:0]. -/
  | opShr (c : Fin 32) (t : Fin 4)
  /-- SAR (R368). Shifts ra arithmetically right by rb[4:0]. -/
  | opSar (c : Fin 32) (t : Fin 4)
  /-- CMP (R368). Sets the flags of ra - rb. -/
  | opCmp (c : Fin 32) (t : Fin 4)
  /-- MIN (R368). rd := signed minimum of ra and rb. -/
  | opMin (c : Fin 32) (t : Fin 4)
  /-- MAX (R368). rd := signed maximum of ra and rb. -/
  | opMax (c : Fin 32) (t : Fin 4)
  /-- MINU (R368). rd := unsigned minimum of ra and rb. -/
  | opMinu (c : Fin 32) (t : Fin 4)
  /-- MAXU (R368). rd := unsigned maximum of ra and rb. -/
  | opMaxu (c : Fin 32) (t : Fin 4)
  /-- MUL (R368). (MH, ML) := signed 64-bit product of ra and rb. -/
  | opMul (c : Fin 32) (t : Fin 4)
  /-- MULU (R368). (MH, ML) := unsigned 64-bit product of ra and rb. -/
  | opMulu (c : Fin 32) (t : Fin 4)
  /-- DIV (R368). Starts a signed divide as a long operation. -/
  | opDiv (c : Fin 32) (t : Fin 4)
  /-- DIVU (R368). Starts an unsigned divide as a long operation. -/
  | opDivu (c : Fin 32) (t : Fin 4)
  /-- SQRT (R368). Starts an integer square root as a long operation. -/
  | opSqrt (c : Fin 32) (t : Fin 4)
  /-- FADD (R378). rd := ra + rb in binary32 on a full core. -/
  | opFadd (c : Fin 32) (t : Fin 4)
  /-- FSUB (R378). rd := ra - rb in binary32 on a full core. -/
  | opFsub (c : Fin 32) (t : Fin 4)
  /-- FMUL (R378). rd := ra x rb in binary32 on a full core. -/
  | opFmul (c : Fin 32) (t : Fin 4)
  /-- FDIV (R378). Starts a binary32 divide as a long operation. -/
  | opFdiv (c : Fin 32) (t : Fin 4)
  /-- FSQRT (R378). Starts a binary32 square root as a long operation. -/
  | opFsqrt (c : Fin 32) (t : Fin 4)
  /-- FCMP (R379). Sets the flags from a binary32 comparison. -/
  | opFcmp (c : Fin 32) (t : Fin 4)
  /-- FTOI (R378). Converts binary32 to a saturated signed integer. -/
  | opFtoi (c : Fin 32) (t : Fin 4)
  /-- ITOF (R378). Converts a signed integer to binary32. -/
  | opItof (c : Fin 32) (t : Fin 4)
  /-- ADDI (R368). rd := ra + sign-extended immediate. -/
  | opAddi (c : Fin 32) (t : Fin 4)
  /-- ANDI (R368). rd := ra and zero-extended immediate. -/
  | opAndi (c : Fin 32) (t : Fin 4)
  /-- ORI (R368). rd := ra or zero-extended immediate. -/
  | opOri (c : Fin 32) (t : Fin 4)
  /-- XORI (R368). rd := ra xor zero-extended immediate. -/
  | opXori (c : Fin 32) (t : Fin 4)
  /-- CMPI (R368). Sets the flags of ra - immediate. -/
  | opCmpi (c : Fin 32) (t : Fin 4)
  /-- LUI (R368). rd := immediate shifted left 16. -/
  | opLui (c : Fin 32) (t : Fin 4)
  /-- SHI (R368). Shifts ra by an immediate count in the selected direction. -/
  | opShi (c : Fin 32) (t : Fin 4)
  /-- LD (R368). Loads a data word, as a long operation in the DRAM window. -/
  | opLd (c : Fin 32) (t : Fin 4) (e : Upset)
  /-- LDH (R368). Loads a sign-extended half-word. -/
  | opLdh (c : Fin 32) (t : Fin 4) (e : Upset)
  /-- LDHU (R368). Loads a zero-extended half-word. -/
  | opLdhu (c : Fin 32) (t : Fin 4) (e : Upset)
  /-- LDB (R368). Loads a sign-extended byte. -/
  | opLdb (c : Fin 32) (t : Fin 4) (e : Upset)
  /-- LDBU (R368). Loads a zero-extended byte. -/
  | opLdbu (c : Fin 32) (t : Fin 4) (e : Upset)
  /-- ST (R342). Stores a word through the store buffer. -/
  | opSt (c : Fin 32) (t : Fin 4)
  /-- STH (R342). Stores a half-word through the store buffer. -/
  | opSth (c : Fin 32) (t : Fin 4)
  /-- STB (R342). Stores a byte through the store buffer. -/
  | opStb (c : Fin 32) (t : Fin 4)
  /-- LDI (R371). Loads a word from instruction space. -/
  | opLdi (c : Fin 32) (t : Fin 4) (e : Upset)
  /-- STI (R341). Writes a word directly to instruction memory. -/
  | opSti (c : Fin 32) (t : Fin 4)
  /-- IN (R343). Reads an I/O register after the store buffer drains. -/
  | opIn (c : Fin 32) (t : Fin 4)
  /-- OUT (R343). Writes an I/O register after the store buffer drains. -/
  | opOut (c : Fin 32) (t : Fin 4)
  /-- B (R367). Branches when COND holds on the flags. -/
  | opB (c : Fin 32) (t : Fin 4)
  /-- J (R368). Jumps by a word displacement. -/
  | opJ (c : Fin 32) (t : Fin 4)
  /-- JR (R368). Jumps to the address in ra. -/
  | opJr (c : Fin 32) (t : Fin 4)
  /-- CALL (R369). Pushes the return address and jumps, on full cores. -/
  | opCall (c : Fin 32) (t : Fin 4)
  /-- CALLR (R369). As CALL with the target in ra. -/
  | opCallr (c : Fin 32) (t : Fin 4)
  /-- RET (R369). Pops the return address into PC. -/
  | opRet (c : Fin 32) (t : Fin 4) (e : Upset)
  /-- CALLM (R370). Saves the masked registers and return address and jumps to ra. -/
  | opCallm (c : Fin 32) (t : Fin 4)
  /-- RETM (R370). Restores the masked registers and returns. -/
  | opRetm (c : Fin 32) (t : Fin 4) (e : Upset)
  /-- MFS (R366). Reads a special register. -/
  | opMfs (c : Fin 32) (t : Fin 4)
  /-- MTS (R380). Writes a special register, effective from the next instruction. -/
  | opMts (c : Fin 32) (t : Fin 4)
  /-- TRAP (R351). Enters vector 0x0A. -/
  | opTrap (c : Fin 32) (t : Fin 4)
  /-- RETX (R354). Returns from an exception using the privilege shadow, or from escalation. -/
  | opRetx (c : Fin 32) (t : Fin 4) (e : Upset)
  /-- WFE (R372). Waits until a masked event bit is set. -/
  | opWfe (c : Fin 32) (t : Fin 4)
  /-- WFE_WAKE (R372). A waiting WFE completes on an event or a due interrupt. -/
  | wfeWake (c : Fin 32) (t : Fin 4)
  /-- SEV (R373). Sets an event bit in the threads its scope names after draining stores. -/
  | opSev (c : Fin 32) (t : Fin 4)
  /-- WAITT (R374). Waits until a timer count is reached or a masked event arrives. -/
  | opWaitt (c : Fin 32) (t : Fin 4)
  /-- WAITT_WAKE (R374). A waiting WAITT completes on the count or an event. -/
  | waittWake (c : Fin 32) (t : Fin 4)
  /-- IFLUSH (R340). Flushes the thread's prefetch queue. -/
  | opIflush (c : Fin 32) (t : Fin 4)
  /-- BARX (R343). Waits until long operations retire and the store buffer drains. -/
  | opBarx (c : Fin 32) (t : Fin 4)
  /-- BRK (R359). Halts the thread when BRKEN is 1. -/
  | opBrk (c : Fin 32) (t : Fin 4)
  /-- REPB (R376). Prefixes a string instruction into a repeat pair. -/
  | opRepb (c : Fin 32) (t : Fin 4) (e : Upset)
  /-- BCPY (R375). Copies one element from g12 to g13. -/
  | opBcpy (c : Fin 32) (t : Fin 4) (e : Upset)
  /-- BSET (R375). Stores ra's low bytes at g13. -/
  | opBset (c : Fin 32) (t : Fin 4)
  /-- BCMP (R375). Tests data at g12 against data at g13 under a mask. -/
  | opBcmp (c : Fin 32) (t : Fin 4) (e : Upset)
  /-- BFND (R375). Tests data at g13 against ra under a mask. -/
  | opBfnd (c : Fin 32) (t : Fin 4) (e : Upset)
  /-- REPEAT_ELEMENT (R376). A repeat pair issues one further element and decrements g11. -/
  | repeatElement (c : Fin 32) (t : Fin 4) (e : Upset)
  /-- LONG_OP_RETIRE (R345). A long operation retires, or faults and makes an imprecise exception due. -/
  | longOpRetire (c : Fin 32) (t : Fin 4) (fid : Nat) (e : Upset)
  /-- STORE_DRAIN (R342). A buffered store drains to memory. -/
  | storeDrain (c : Fin 32) (t : Fin 4)
  /-- INTERRUPT_ENTRY (R351). A due interrupt is taken between instructions of the ITHR thread. -/
  | interruptEntry (c : Fin 32)
  /-- THREAD_HALT (R359). SEP_DCTL.HALT requests a halt of a thread. -/
  | threadHalt (who : Requester) (c : Fin 32) (mask : BitVec 4) (all : Bool)
  /-- HALT_EFFECT (R359). The halt takes effect at the thread's next instruction boundary. -/
  | haltEffect (c : Fin 32) (t : Fin 4)
  /-- THREAD_RESUME (R359). SEP_DCTL.RESUME resumes a halted thread. -/
  | threadResume (who : Requester) (c : Fin 32) (mask : BitVec 4) (all : Bool)
  /-- THREAD_STEP (R359). SEP_DCTL.STEP issues one instruction and halts again. -/
  | threadStep (who : Requester) (c : Fin 32) (mask : BitVec 4) (all : Bool)
  /-- DEBUG_REGISTER_ACCESS (R360). SEP_DDATA reaches a halted thread's selected register, or sets NOTHALT. -/
  | debugRegisterAccess (who : Requester) (c : Fin 32) (wr : Option Word)
  /-- DEBUG_MEMORY_ACCESS (R360). SEP_MEMD reads or writes core memory and advances the address. -/
  | debugMemoryAccess (who : Requester) (c : Fin 32) (wr : Option Word) (e : Upset)
  /-- THREAD_RESTART (R361). SEP_TCTL.RESTART restarts a not started, halted or stopped thread. -/
  | threadRestart (who : Requester) (c : Fin 32) (t : Fin 4) (pc : BitVec 30)
  /-- COALESCE_TIMEOUT (R386). A source's TIME runs out and it is presented. -/
  | coalesceTimeout (c : Fin 32) (id : Fin 160)
  /-- INTERRUPT_CLAIM (R388). A read of IRQ_CLAIM pushes the highest eligible source or returns NONE. -/
  | interruptClaim (who : Requester) (c : Fin 32) (e : Upset)
  /-- END_OF_INTERRUPT (R389). A write of IRQ_EOI pops the stack or reports ORDER. -/
  | endOfInterrupt (who : Requester) (c : Fin 32) (id : BitVec 8) (e : Upset)
  /-- SOFTWARE_SOURCE_SET (R385). IRQ_SWSET sets software sources of a core. -/
  | softwareSourceSet (who : Requester) (c : Fin 32) (mask : BitVec 16)
  /-- SOFTWARE_SOURCE_CLEAR (R385). IRQ_SWCLR clears software sources of a core. -/
  | softwareSourceClear (who : Requester) (c : Fin 32) (mask : BitVec 16)
  /-- MAILBOX_DATA_WRITE (R390). A payload write is stored while FULL is 0, else discarded with COLL. -/
  | mailboxDataWrite (who : Requester) (m : Fin 512) (j : Fin 16) (v : Word)
  /-- MAILBOX_SEND (R390). IRQ_MBSEND with GO marks the mailbox full, or sets COLL. -/
  | mailboxSend (who : Requester) (m : Fin 512) (agent : BitVec 6)
  /-- MAILBOX_ACK (R390). IRQ_MBACK with GO clears FULL. -/
  | mailboxAck (who : Requester) (m : Fin 512)
  /-- MSIX_SPACING_END (R425). 1 us after a message to a vector, merged requests send the next message. -/
  | msixSpacingEnd (v : Fin 64)
  /-- MSIX_UNMASK (R425). Unmasking a vector with its pending bit set sends one message. -/
  | msixUnmask (who : Requester) (v : Fin 64)
  /-- OUTPUT_WRITE (R399). A PIN_OUT write sets a bank's software outputs. -/
  | outputWrite (who : Requester) (b : Fin 6) (v : Word)
  /-- OUTPUT_SET (R399). PIN_OSET sets output bits. -/
  | outputSet (who : Requester) (b : Fin 6) (v : Word)
  /-- OUTPUT_CLEAR (R399). PIN_OCLR clears output bits. -/
  | outputClear (who : Requester) (b : Fin 6) (v : Word)
  /-- OUTPUT_TOGGLE (R399). PIN_OTGL inverts output bits. -/
  | outputToggle (who : Requester) (b : Fin 6) (v : Word)
  /-- PIN_TAKEOVER (R400). Setting a PIN_GPOV bit takes the pin over as a software output. -/
  | pinTakeover (who : Requester) (b : Fin 6) (mask : Word)
  /-- PIN_HANDBACK (R400). Clearing a PIN_GPOV bit hands the pin back to its OSEL. -/
  | pinHandback (who : Requester) (b : Fin 6) (mask : Word)
  /-- PIN_EDGE (R403). An edge of a watched pin counts toward chatter and may end a stuck mask. -/
  | pinEdge (p : Fin 192) (lvl : Bool)
  /-- CHATTER_TICK (R403). At each 1 us tick the chatter window and suppression are re-judged. -/
  | chatterTick
  /-- STUCK_TIMEOUT (R404). A pin active for STK ms is masked. -/
  | stuckTimeout (p : Fin 192)
  /-- IMAGE_WRITE_WORD (R417). An IMG_WDATA write stores a word at IMG_WADDR, or is discarded with WPERR. -/
  | imageWriteWord (who : Requester) (v : Word)
  /-- IMAGE_READ_WORD (R427). An IMG_RDATA read returns the word at IMG_WADDR and advances it. -/
  | imageReadWord (who : Requester) (bad : Bool)
  /-- IMAGE_VERIFY (R417). IMG_CTL.VERIFY starts the check of a slot. -/
  | imageVerify (who : Requester) (sl : Fin 4)
  /-- IMAGE_CHECK_DONE (R411). The checks of an image end with a RESULT code. -/
  | imageCheckDone (bad : List (BitVec 22))
  /-- IMAGE_ACTIVATE (R418). IMG_CTL.ACTIVATE requests activation of a valid slot at the next boundary. -/
  | imageActivate (who : Requester) (sl : Fin 4)
  /-- GOLDEN_LOCK (R427). IMG_CTL.GLOCK blows the golden lock fuse, or sets CMDERR. -/
  | goldenLock (who : Requester) (sl : Fin 4)
  /-- IMAGE_START (R414). The TX48 restores the journal and starts an image according to STRAP_BOOT. -/
  | imageStart (flash : List Byte) (fail : Bool) (bad : List (BitVec 22))
  /-- IMAGE_RUN (R419). APPLY completes and the image reaches RUN. -/
  | imageRun (bad : List (BitVec 22))
  /-- START_OK (R420). GBL_STARTOK with 0x5A17 marks the start successful and commits a candidate. -/
  | startOk (who : Requester) (code : BitVec 16)
  /-- STARTOK_TIMEOUT (R439). 10 s after RUN without GBL_STARTOK sets NOSTARTOK. -/
  | startokTimeout
  /-- JOURNAL_COMMIT_DONE (R422). A bank or image commit writes its record, or fails. -/
  | journalCommitDone (ok : Bool)
  /-- FUNCTION_LEVEL_RESET (R424). FLR or D3hot resets only the endpoint configuration and MSI-X table. -/
  | functionLevelReset
  /-- POWER_ON_RESET (R428). The supply monitor sees the supplies within limits and resets everything. -/
  | powerOnReset (straps : BitVec 5)
  /-- RESET_PIN (R428). RESET_N low for 1 us resets all domains. -/
  | resetPin
  /-- DEVICE_RESET (R428). RST_CMD OP 0b01 resets all domains. -/
  | deviceReset (who : Requester) (code : BitVec 16)
  /-- RESTART_COMMAND (R428). RST_CMD OP 0b10 resets PD05-PD95 and starts an image. -/
  | restartCommand (who : Requester) (code : BitVec 16)
  /-- PERST (R428). PERST_N restarts the PCI Express endpoint and its link. -/
  | perst
  /-- TRIM_LOAD_DONE (R432). A trim copy is checked and loaded, or both fail and recovery follows. -/
  | trimLoadDone (aGood : Bool) (bGood : Bool)
  /-- DOMAIN_RELEASE (R435). The next step of the release order releases its domains. -/
  | domainRelease (vdet : BitVec 6)
  /-- RAIL_TIMEOUT (R437). A rail not at level 2,048 cycles after release keeps the domain isolated. -/
  | railTimeout (pd : Fin 96)
  /-- DOMAIN_RESET (R441). RST_PDCMD OP 0b01 resets one switchable domain. -/
  | domainReset (who : Requester) (code : BitVec 16) (pd : BitVec 7)
  /-- DOMAIN_OFF (R441). RST_PDCMD OP 0b10 isolates a domain and switches it off. -/
  | domainOff (who : Requester) (code : BitVec 16) (pd : BitVec 7)
  /-- DOMAIN_ON (R441). RST_PDCMD OP 0b11 releases and reloads a domain. -/
  | domainOn (who : Requester) (code : BitVec 16) (pd : BitVec 7)
  /-- DOMAIN_OP_START (R441). A waiting domain operation starts once LOCKED and BUSY are both 0. -/
  | domainOpStart (vdet : BitVec 6)
  /-- DOMAIN_RELOAD_DONE (R443). A reloaded domain has its sections and bank applied and returns to RUN. -/
  | domainReloadDone (bad : List (BitVec 22))
  /-- FAULT_CLEAR (R483). A W1C write to FLT_STATUS clears bits whose lines are low. -/
  | faultClear (who : Requester) (hi : Bool) (mask : Word)
  /-- FAULT_STATUS_READ (R449). A read of FLT_STATUS_LO latches FLT_STATUS_HI. -/
  | faultStatusRead (who : Requester)
  /-- FIRST_TIME_READ (R466). A read of FLT_FIRSTT_LO latches FLT_FIRSTT_HI. -/
  | firstTimeRead (who : Requester)
  /-- FIRST_SOURCE_CLEAR (R451). FLT_CTL.FCLR clears FLT_FIRST. -/
  | firstSourceClear (who : Requester)
  /-- COLLECTOR_SELF_FAULT (R452). A parity error in Mordant enters the safe state for good. -/
  | collectorSelfFault
  /-- SAFE_ENTER (R453). FLT_CTL.ENTER with CODE enters the safe state. -/
  | safeEnter (who : Requester) (code : BitVec 16) (exitToo : Bool)
  /-- SAFE_EXIT_REQUEST (R455). FLT_CTL.EXIT with CODE requests an exit at the next boundary. -/
  | safeExitRequest (who : Requester) (code : BitVec 16)
  /-- SAFE_ESCALATION (R456). MS ms in the safe state performs the escalation reset. -/
  | safeEscalation
  /-- SUPPLY_EXCURSION (R459). A monitored supply out of range for 1 us sets bit 52. -/
  | supplyExcursion (rail : Fin 5)
  /-- TEMPERATURE_EXCURSION (R459). The on-die temperature above FLT_TLIM.HI sets bit 53. -/
  | temperatureExcursion (t : BitVec 16)
  /-- REFCLK_DEVIATION (R459). REFCLK off by more than 500 ppm for 10 us sets bit 54. -/
  | refclkDeviation
  /-- WATCHDOG_ENABLE (R462). FLT_WDCFG.EN starts the watchdog. -/
  | watchdogEnable (who : Requester) (timeout : BitVec 16)
  /-- WATCHDOG_KICK (R462). FLT_WDKICK with 0x6B1D restarts stage 0. -/
  | watchdogKick (who : Requester)
  /-- FALSE_KICK (R462). FLT_WDKICK with another key ends the current stage at once. -/
  | falseKick (who : Requester) (key : BitVec 16)
  /-- WATCHDOG_STAGE_END (R463). A watchdog stage runs out, setting bit 55 or causing the watchdog reset. -/
  | watchdogStageEnd
  /-- LREFCLK_EDGE_TIMEOUT (R72). No LREFCLKn edge arrives for 1 us, so a group clock fault is declared and the group's lanes move to CAL. -/
  | lrefclkEdgeTimeout (g : Fin 4)
  /-- PWM_EDGE (R294). The PWM counter reaches a rise or fall position of W, A or B and the output changes, opening blanking windows and accruing on-time. -/
  | pwmEdge (m : Fin 64)
  /-- PATTERN_CHECKER_SYNC (R85). The PRBS checker locks to or loses the received pattern, setting or clearing LNK_PRBSCNT.SYNC, which gates error counting. -/
  | patternCheckerSync (n : Fin 48) (sync : Bool) (errs : Nat)
  /-- SUPPLY_LOSS (R423). VDDA0, VDDC or VDDM falls below its power-on threshold, the monitor trips and it prevents or completes the journal record write on hold-up. -/
  | supplyLoss (rail : Fin 3) (begun : Bool)
  /-- SUPPLY_IN_RANGE (R483). A monitored supply returns within its operating range and the lasting condition on FLT_STATUS bit 52 ends, so a clear of the bit sticks. -/
  | supplyInRange (rail : Fin 5)
  /-- TEMPERATURE_BELOW_LIMIT (R483). The on-die temperature falls back to or below FLT_TLIM.HI and the lasting condition on bit 53 ends. -/
  | temperatureBelowLimit (t : BitVec 16)
  /-- REFCLK_WITHIN_LIMIT (R483). REFCLK returns to within 500 ppm of the on-die reference and that cause of the lasting condition on bit 54 ends. -/
  | refclkWithinLimit
  /-- MANAGEMENT_LINK_TRAINED (R445). The PCI Express link of the management port trains again after a reset that reached PD04, and the endpoint starts answering accesses. -/
  | managementLinkTrained (bme : Bool) (msixEn : Bool) (fmask : Bool)
  /-- FIRST_SLOT_CLOCK_EDGE (R24). In BCLK or recovered mode the clock source first gives TB edges after reset, and TB_STAT.STATE leaves 0b00 no clock for 0b01 seeking the first marker. -/
  | firstSlotClockEdge
deriving DecidableEq, Repr

end Sys2Proof
end

