-- ==== Sys2Proof/WellFormed.lean ====
section
/-! DEFINITION. Which commands the TX48 can be given: operands within the ranges of the spec that their types do not already give. The
meanings are total; for an ill-formed command they answer some next state, of which nothing is claimed. -/
namespace Sys2Proof

/-- There are 32 cores of 4 threads, 64 DMA channels and 48 lanes (R3). -/
def Requester.wellFormed : Requester → Bool
  | .host => true
  | .core c t => decide (c < 32) && decide (t < 4)
  | .dma ch => decide (ch < 64)
  | .lane n => decide (n < 48)
  | .unit => true

/-- A word of BAR0, which has 64 MiB (R2, R6). -/
def offsetOk (off : Nat) : Bool := decide (off % 4 = 0) && decide (off < 0x4000000)

/-- The requester of a command that accesses a register. -/
def Instr.requester : Instr → Option Requester
  | .registerWrite w _ _ _ | .readClear w _ | .eccWindowRead w _ _ | .stagedWrite w _ _ | .planeWrite w _ _ | .orbitLoadRequest w
  | .tbXidRead w | .tbRtimeRead w | .flipRequest w _ _ _ | .flipCancel w | .flipstampRead w | .sentinelRead w _ | .sentinelClear w
  | .txpreWrite w _ _ | .txmainWrite w _ _ | .readapt w _ _ _ _ | .testModeEnter w _ _ | .testModeExit w _ _ | .dpDriveWrite w _ _
  | .fastCommandRequest w _ _ | .renegotiate w _ | .partnerIdRead w _ | .pedestalResetRequest w _ | .captureArm w _ _
  | .prescaleResetRequest w | .roCurRead w | .queuePush w _ _ _ | .queuePop w _ _ _ | .queueReset w _ | .dmaKick w _ | .dmaEnable w _
  | .dmaDisable w _ | .memRetrain w | .rateMapClear w | .srvPageRead w | .compositionGo w | .lastswapRead w | .blitGo w _ _
  | .displayEnable w _ | .tripClear w _ _ | .voiceStart w _ | .voiceStop w _ | .peakClear w _ | .timerRun w _ | .compareWrite w _ _
  | .countWrite w _ _ | .timerCountRead w _ | .captureRead w _ | .eventCounterClear w _ | .eventCounterClearAll w
  | .eventSnapshot w _ | .eventCountRead w _ | .snapshotTimeRead w | .threadHalt w _ _ _ | .threadResume w _ _ _
  | .threadStep w _ _ _ | .debugRegisterAccess w _ _ | .debugMemoryAccess w _ _ _ | .threadRestart w _ _ _ | .interruptClaim w _ _
  | .endOfInterrupt w _ _ _ | .softwareSourceSet w _ _ | .softwareSourceClear w _ _ | .mailboxDataWrite w _ _ _ | .mailboxSend w _ _
  | .mailboxAck w _ | .msixUnmask w _ | .outputWrite w _ _ | .outputSet w _ _ | .outputClear w _ _ | .outputToggle w _ _
  | .pinTakeover w _ _ | .pinHandback w _ _ | .imageWriteWord w _ | .imageReadWord w _ | .imageVerify w _ | .imageActivate w _
  | .goldenLock w _ | .startOk w _ | .deviceReset w _ | .restartCommand w _ | .domainReset w _ _ | .domainOff w _ _ | .domainOn w _ _
  | .faultClear w _ _ | .faultStatusRead w | .firstTimeRead w | .firstSourceClear w | .safeEnter w _ _ | .safeExitRequest w _
  | .watchdogEnable w _ | .watchdogKick w | .falseKick w _ => some w
  | _ => none

/-- The other operands of a command. -/
def Instr.operandsOk : Instr → Bool
  | .registerWrite _ off _ _ => offsetOk off
  | .readClear _ off => offsetOk off
  | .eccWindowRead _ off _ => offsetOk off
  | .stagedWrite _ off _ => offsetOk off
  | .planeWrite _ off _ => offsetOk off && decide (0x2000000 ≤ off)
  -- BAR2 is 1 GiB (R253)
  | .bar2Access off n (some bs) _ => decide (bs.length = n) && decide (off + n ≤ 2 ^ 30)
  | .bar2Access off n none _ => decide (off + n ≤ 2 ^ 30)
  -- a slot takes time
  | .slotStart dt _ => decide (0 < dt)
  | .orbitMarker dt _ => decide (0 < dt)
  -- of the codewords that overlap a frame, at most the first overlaps the frame before
  | .frameReceive _ r => decide (r.newUncorr ≤ r.uncorr) && decide (r.uncorr ≤ r.newUncorr + 1)
  -- a receiver has 12 DFE taps (R89)
  | .cdrLock _ _ _ dfe => decide (dfe.length = 12)
  | .readapt _ _ _ _ dfe => decide (dfe.length = 12)
  | .eyeUpdate _ _ _ _ _ _ _ dfe => decide (dfe.length = 12)
  -- a descriptor has 8 words (R241)
  | .descriptorFetch _ host _ => decide (host.length = 8)
  | .patrolScrub a _ _ => decide (a < 2 ^ 30)
  -- 0x6B1D is the key of a kick (R462)
  | .falseKick _ key => decide (key ≠ 0x6B1D#16)
  | _ => true

/-- A well-formed command. -/
def Instr.wellFormed (i : Instr) : Bool := (i.requester.all Requester.wellFormed) && i.operandsOk

end Sys2Proof
end

