-- ==== Sys2Proof/Decode.lean ====
section
/-! DEFINITION. The TX48 has no instruction decoder: the opcode table lists its commands and gives no row any bits. The instruction words of
its Sepia cores are decoded in Machine/Operands.lean. -/
namespace Sys2Proof

/-- The command that a word spells by the bits of the opcode table: no row has bits, so no word spells one. -/
def decodeTableWord (_nbits _w : Nat) : Option Instr := none

end Sys2Proof
end

