-- ==== Sys2Proof/Config.lean ====
section
/-! DEFINITION. What an implementation or an installation fixes, and the free values: constants without a body, so that no
proof can see what they are (R9's host words do not name them; each is in the assumption log). -/
namespace Sys2Proof

/-- A value that the spec leaves undefined or does not state: the step applies it to a counter of the state (log 24). -/
opaque Config.freeValue : Nat → BitVec 64

/-- The level of the slot clock between its edges, by slot and REFCLK cycle: the spec gives its edges alone (R397; log 14). -/
opaque Config.slotClock : Nat → Nat → Bool

/-- A nonce of the on-die random source (R105; log 24). -/
opaque Config.nonce : Nat → BitVec 64

/-- The fused identity (R122), and whether the device key is present and its check passed (R110; log 8). -/
opaque Config.identity : BitVec 64
opaque Config.deviceKeyOk : Bool
opaque Config.deviceKey : BitVec 256

/-- The fuses (R411, R427; log 8): whether a key hash is fused and the hash, least SEQ, PCI Express identifiers, the golden lock fuse as
delivered. -/
opaque Config.keyFused : Bool
opaque Config.keyHash : BitVec 384
opaque Config.minSeq : BitVec 32
opaque Config.pciId : BitVec 32
opaque Config.goldLocked : Bool

end Sys2Proof
end

