-- ==== Sys2Proof/Machine/Prim.lean ====
section
/-! DEFINITION. Sparse maps in one canonical form, bit fields of words, and the plain arithmetic (sign extension,
saturation, rounding shifts, CRC-32) that the meanings share. -/
namespace Sys2Proof.Machine

/-! ### Sparse maps: a list of keys and values, keys strictly rising, no value equal to what an unlisted key reads as -/

/-- The value at key `k`; an unlisted key reads as `d`. -/
def smGet {α : Type} (d : α) : List (Nat × α) → Nat → α
  | [], _ => d
  | (k', v) :: r, k => if k' = k then v else smGet d r k

/-- The list without key `k`. -/
def smErase {α : Type} : List (Nat × α) → Nat → List (Nat × α)
  | [], _ => []
  | (k', v) :: r, k => if k' = k then smErase r k else (k', v) :: smErase r k

/-- Insert `(k, v)` before the first larger key. -/
def smInsert {α : Type} : List (Nat × α) → Nat → α → List (Nat × α)
  | [], k, v => [(k, v)]
  | (k', v') :: r, k, v => if k < k' then (k, v) :: (k', v') :: r else (k', v') :: smInsert r k v

/-- Write `v` at `k`, keeping the canonical form: a value equal to `d` is not listed. -/
def smSet {α : Type} [DecidableEq α] (d : α) (m : List (Nat × α)) (k : Nat) (v : α) : List (Nat × α) :=
  if v = d then smErase m k else smInsert (smErase m k) k v

/-- The list with every key removed for which `p` holds (a reset of the storage that `p` names). -/
def smDrop {α : Type} (p : Nat → Bool) (m : List (Nat × α)) : List (Nat × α) :=
  m.filter fun e => !p e.1

/-- Keys strictly rising. -/
def smSorted {α : Type} : List (Nat × α) → Bool
  | [] => true
  | [_] => true
  | (k, _) :: (k', v') :: r => decide (k < k') && smSorted ((k', v') :: r)

/-- The canonical form. `d k` is what key `k` reads as when it is not listed. -/
def smWf {α : Type} [DecidableEq α] (d : Nat → α) (m : List (Nat × α)) : Bool :=
  smSorted m && m.all fun e => !decide (e.2 = d e.1)

/-! ### Sets of numbers, as strictly rising lists -/

/-- Add `k` to a rising list. -/
def nsAdd : List Nat → Nat → List Nat
  | [], k => [k]
  | a :: r, k => if k < a then k :: a :: r else if k = a then a :: r else a :: nsAdd r k

/-- Take `k` out. -/
def nsDel (l : List Nat) (k : Nat) : List Nat := l.filter fun a => !decide (a = k)

/-- Put `k` in or take it out. -/
def nsPut (l : List Nat) (k : Nat) (b : Bool) : List Nat := if b then nsAdd l k else nsDel l k

/-! ### Bit fields -/

/-- Bits `[hi:lo]` of `n`. -/
def bitsOf (n hi lo : Nat) : Nat := (n >>> lo) % 2 ^ (hi + 1 - lo)

/-- `n` (below 2^32) with bits `[hi:lo]` replaced by the low bits of `v`. -/
def setBitsOf (n hi lo v : Nat) : Nat :=
  n - (bitsOf n hi lo) * 2 ^ lo + (v % 2 ^ (hi + 1 - lo)) * 2 ^ lo

/-- Field of a register word. -/
def wField (w : Word) (hi lo : Nat) : Nat := bitsOf w.toNat hi lo

/-- A register word with one field replaced. -/
def wSetField (w : Word) (hi lo v : Nat) : Word := BitVec.ofNat 32 (setBitsOf w.toNat hi lo v)

/-- Bit `i` of a number. -/
def bit (n i : Nat) : Bool := Nat.testBit n i

/-- 0 or 1. -/
def b2n (b : Bool) : Nat := if b then 1 else 0

/-! ### Signed numbers and narrowing -/

/-- The two's complement reading of the low `w` bits of `n`. -/
def sext (w n : Nat) : Int :=
  let m := n % 2 ^ w
  if m < 2 ^ (w - 1) then (m : Int) else (m : Int) - (2 ^ w : Nat)

/-- The low `w` bits of an integer, as two's complement. -/
def wrapN (w : Nat) (i : Int) : Nat := (i % ((2 ^ w : Nat) : Int)).toNat

/-- `i` clamped to `[lo, hi]`. -/
def clampI (lo hi i : Int) : Int := if i < lo then lo else if hi < i then hi else i

/-- `i` clamped to the signed range of `w` bits. -/
def satS (w : Nat) (i : Int) : Int := clampI (-((2 ^ (w - 1) : Nat) : Int)) (((2 ^ (w - 1) : Nat) : Int) - 1) i

/-- `i` clamped to the unsigned range of `w` bits. -/
def satU (w : Nat) (i : Int) : Nat := (clampI 0 (((2 ^ w : Nat) : Int) - 1) i).toNat

/-- The floor of `i / 2^n` (arithmetic shift right). -/
def sarI (i : Int) (n : Nat) : Int := Int.fdiv i ((2 ^ n : Nat) : Int)

/-- A saturating counter of `w` bits advanced by `n`. -/
def satAdd (w a n : Nat) : Nat := if 2 ^ w ≤ a + n then 2 ^ w - 1 else a + n

/-! ### Bytes and words -/

/-- The four bytes of a word, lowest address first. -/
def wordBytes (w : Nat) : List Nat := [w % 256, w / 256 % 256, w / 65536 % 256, w / 16777216 % 256]

/-- The number that bytes spell, lowest address first. -/
def leNat : List Nat → Nat
  | [] => 0
  | b :: r => b % 256 + 256 * leNat r

/-- The low `n` bytes of a number, lowest first. -/
def leBytes : Nat → Nat → List Nat
  | 0, _ => []
  | n + 1, v => v % 256 :: leBytes n (v / 256)

/-- One bit of the CRC-32 of R98: polynomial 0x04C1_1DB7 in transmission order, least significant bit first, so that the register is
shifted towards its least significant bit and the polynomial stands reflected. -/
def crcBit (c : Nat) : Nat := if c % 2 = 1 then c / 2 ^^^ 0xEDB88320 else c / 2

/-- One byte. -/
def crcByte (c b : Nat) : Nat := crcBit (crcBit (crcBit (crcBit (crcBit (crcBit (crcBit (crcBit (c ^^^ b % 256))))))))

/-- CRC-32 of a byte string (R98): initial value all ones, result complemented. DEDUCED (log 10): bits in transmission order, the least
significant bit of each byte first (R93, R129), and so in the result. -/
def crc32 (bs : List Nat) : Nat := (bs.foldl crcByte 0xFFFFFFFF) ^^^ 0xFFFFFFFF

/-- `a, a+1, ..., a+n-1`. -/
def rangeFrom (a n : Nat) : List Nat := (List.range n).map (a + ·)

end Sys2Proof.Machine
end

