-- ==== Sys2Proof/Machine/Crypto.lean ====
section
/-! DEFINITION. The ciphers, the digest and the signature that the spec names by their standards: AES-256, AES-256-CMAC and the
AES-256-GCM tag of an empty plaintext (R110 to R112), SHA-384 and ECDSA P-384 (R410, R411). The standards' own constants are PRESUMED
(log 9). -/
namespace Sys2Proof.Machine

/-! ### AES-256 -/

/-- Two bytes added in GF(2^8), bit by bit. -/
def xorBytes (a b : List Nat) : List Nat := List.zipWith (· ^^^ ·) a b

/-- Multiplication by x in GF(2^8). -/
def aesX (b : Nat) : Nat := if b < 128 then 2 * b else (2 * b) ^^^ 0x11B

/-- The product of two bytes in GF(2^8), over the low `k` bits of the second. -/
def aesMulFrom : Nat → Nat → Nat → Nat
  | 0, _, _ => 0
  | k + 1, a, b => (if b % 2 = 1 then a else 0) ^^^ aesMulFrom k (aesX a) (b / 2)

def aesMul (a b : Nat) : Nat := aesMulFrom 8 a b

/-- The inverse of a byte, its 254th power; 0 for 0. -/
def aesInv (a : Nat) : Nat :=
  let a2 := aesMul a a
  let a4 := aesMul a2 a2
  let a8 := aesMul a4 a4
  let a16 := aesMul a8 a8
  let a32 := aesMul a16 a16
  let a64 := aesMul a32 a32
  aesMul (aesMul (aesMul a2 a4) (aesMul a8 a16)) (aesMul (aesMul a32 a64) (aesMul a64 a64))

/-- A byte turned left by `k` bits. -/
def rotByte (k b : Nat) : Nat := (b * 2 ^ k) % 256 + b / 2 ^ (8 - k)

/-- SubBytes of one byte. -/
def aesSub (b : Nat) : Nat :=
  let v := aesInv b
  v ^^^ rotByte 1 v ^^^ rotByte 2 v ^^^ rotByte 3 v ^^^ rotByte 4 v ^^^ 0x63

/-- The round constants of the key schedule: powers of x. -/
def aesRcon : Nat → Nat
  | 0 => 1
  | k + 1 => aesX (aesRcon k)

/-- The next word of the key schedule, `ws` the words so far with the newest first. -/
def aesNextKey (ws : List (List Nat)) : List Nat :=
  let i := ws.length
  let t := ws.headD []
  let t := if i % 8 = 0 then xorBytes (((t.drop 1) ++ t.take 1).map aesSub) [aesRcon (i / 8 - 1), 0, 0, 0]
    else if i % 8 = 4 then t.map aesSub else t
  xorBytes (ws.getD 7 []) t

/-- `n` more words of the key schedule. -/
def aesGrow : Nat → List (List Nat) → List (List Nat)
  | 0, ws => ws
  | n + 1, ws => aesGrow n (aesNextKey ws :: ws)

/-- `n` as `k` bytes, most significant first. -/
def beNat (n : Nat) : Nat → List Nat
  | 0 => []
  | k + 1 => n / 256 ^ k % 256 :: beNat n k

/-- The number that bytes spell, most significant first. -/
def ofBe (bs : List Nat) : Nat := bs.foldl (fun a b => a * 256 + b % 256) 0

/-- The fifteen round keys of a 256-bit key, 16 bytes each. -/
def aesKeys (key : BitVec 256) : List (List Nat) :=
  let b := beNat key.toNat 32
  let ws := (aesGrow 52 (((List.range 8).map fun i => (b.drop (4 * i)).take 4).reverse)).reverse
  (List.range 15).map fun r => ((ws.drop (4 * r)).take 4).flatten

/-- ShiftRows over the 16 bytes of a block, column by column. -/
def aesShift (b : List Nat) : List Nat := (List.range 16).map fun i => b.getD ((i + 4 * (i % 4)) % 16) 0

/-- MixColumns of one column. -/
def aesMixCol : List Nat → List Nat
  | [a, b, c, d] =>
    [aesX a ^^^ aesX b ^^^ b ^^^ c ^^^ d, a ^^^ aesX b ^^^ aesX c ^^^ c ^^^ d,
     a ^^^ b ^^^ aesX c ^^^ aesX d ^^^ d, aesX a ^^^ a ^^^ b ^^^ c ^^^ aesX d]
  | l => l

def aesMix (b : List Nat) : List Nat := ((List.range 4).map fun i => aesMixCol ((b.drop (4 * i)).take 4)).flatten

/-- The rounds after the first key addition; the last one mixes no columns. -/
def aesRounds : List (List Nat) → List Nat → List Nat
  | [], b => b
  | [k], b => xorBytes (aesShift (b.map aesSub)) k
  | k :: r, b => aesRounds r (xorBytes (aesMix (aesShift (b.map aesSub))) k)

/-- AES-256 of one block of 16 bytes. -/
def aesBlock (key : BitVec 256) (b : List Nat) : List Nat :=
  match aesKeys key with
  | k :: r => aesRounds r (xorBytes b k)
  | [] => b

/-! ### AES-256-CMAC (R110) -/

/-- A block doubled in GF(2^128), its first byte highest. -/
def cmacDouble (n : Nat) : Nat := if n < 2 ^ 127 then 2 * n else (2 * n) % 2 ^ 128 ^^^ 0x87

/-- Bytes in pieces of 16, at least one piece; `n` bounds their number. -/
def blocks16 : Nat → List Nat → List (List Nat)
  | 0, bs => [bs]
  | n + 1, bs => if bs.length ≤ 16 then [bs] else bs.take 16 :: blocks16 n (bs.drop 16)

/-- The chain of CMAC: `k1` closes a whole last block and `k2` a padded one. -/
def cmacChain (key : BitVec 256) (k1 k2 : List Nat) : List Nat → List (List Nat) → List Nat
  | x, [] => x
  | x, [b] =>
    let l := if b.length = 16 then xorBytes b k1 else xorBytes ((b ++ [0x80] ++ List.replicate 16 0).take 16) k2
    aesBlock key (xorBytes x l)
  | x, b :: r => cmacChain key k1 k2 (aesBlock key (xorBytes x b)) r

/-- AES-256-CMAC of a byte string. -/
def cmac (key : BitVec 256) (bs : List Nat) : BitVec 128 :=
  let l := ofBe (aesBlock key (List.replicate 16 0))
  let k1 := cmacDouble l
  let k2 := cmacDouble k1
  BitVec.ofNat 128 (ofBe (cmacChain key (beNat k1 16) (beNat k2 16) (List.replicate 16 0) (blocks16 bs.length bs)))

/-! ### The AES-256-GCM tag of an empty plaintext (R111, R112) -/

/-- The product of two blocks in GHASH's field, over the low `k` bits of `x`, highest first: bit 127 stands for x^0. -/
def ghashMul (x : Nat) : Nat → Nat → Nat → Nat
  | 0, _, z => z
  | k + 1, v, z =>
    ghashMul x k (if v % 2 = 1 then v / 2 ^^^ (0xE1 * 2 ^ 120) else v / 2) (if x / 2 ^ k % 2 = 1 then z ^^^ v else z)

/-- GHASH over blocks, each as a number. -/
def ghash (h : Nat) (bs : List Nat) : Nat := bs.foldl (fun y b => ghashMul (y ^^^ b) 128 h 0) 0

/-- The leftmost 64 bits of the tag of an AAD with no plaintext; the IV has 12 bytes. -/
def gcmTag (key : BitVec 256) (iv aad : List Nat) : BitVec 64 :=
  let h := ofBe (aesBlock key (List.replicate 16 0))
  let pieces := (blocks16 aad.length aad).map fun b => ofBe ((b ++ List.replicate 16 0).take 16)
  let s := ghash h ((if aad = [] then [] else pieces) ++ [8 * aad.length * 2 ^ 64])
  BitVec.ofNat 64 ((ofBe (aesBlock key (iv ++ [0, 0, 0, 1])) ^^^ s) / 2 ^ 64)

/-! ### SHA-384 (R410, R411) -/

/-- The round constants of SHA-512 and SHA-384. -/
def shaK1 : List Nat :=
  [0x428a2f98d728ae22, 0x7137449123ef65cd, 0xb5c0fbcfec4d3b2f, 0xe9b5dba58189dbbc,
   0x3956c25bf348b538, 0x59f111f1b605d019, 0x923f82a4af194f9b, 0xab1c5ed5da6d8118,
   0xd807aa98a3030242, 0x12835b0145706fbe, 0x243185be4ee4b28c, 0x550c7dc3d5ffb4e2,
   0x72be5d74f27b896f, 0x80deb1fe3b1696b1, 0x9bdc06a725c71235, 0xc19bf174cf692694,
   0xe49b69c19ef14ad2, 0xefbe4786384f25e3, 0x0fc19dc68b8cd5b5, 0x240ca1cc77ac9c65,
   0x2de92c6f592b0275, 0x4a7484aa6ea6e483, 0x5cb0a9dcbd41fbd4, 0x76f988da831153b5,
   0x983e5152ee66dfab, 0xa831c66d2db43210, 0xb00327c898fb213f, 0xbf597fc7beef0ee4,
   0xc6e00bf33da88fc2, 0xd5a79147930aa725, 0x06ca6351e003826f, 0x142929670a0e6e70,
   0x27b70a8546d22ffc, 0x2e1b21385c26c926, 0x4d2c6dfc5ac42aed, 0x53380d139d95b3df,
   0x650a73548baf63de, 0x766a0abb3c77b2a8, 0x81c2c92e47edaee6, 0x92722c851482353b]

def shaK2 : List Nat :=
  [0xa2bfe8a14cf10364, 0xa81a664bbc423001, 0xc24b8b70d0f89791, 0xc76c51a30654be30,
   0xd192e819d6ef5218, 0xd69906245565a910, 0xf40e35855771202a, 0x106aa07032bbd1b8,
   0x19a4c116b8d2d0c8, 0x1e376c085141ab53, 0x2748774cdf8eeb99, 0x34b0bcb5e19b48a8,
   0x391c0cb3c5c95a63, 0x4ed8aa4ae3418acb, 0x5b9cca4f7763e373, 0x682e6ff3d6b2b8a3,
   0x748f82ee5defb2fc, 0x78a5636f43172f60, 0x84c87814a1f0ab72, 0x8cc702081a6439ec,
   0x90befffa23631e28, 0xa4506cebde82bde9, 0xbef9a3f7b2c67915, 0xc67178f2e372532b,
   0xca273eceea26619c, 0xd186b8c721c0c207, 0xeada7dd6cde0eb1e, 0xf57d4f7fee6ed178,
   0x06f067aa72176fba, 0x0a637dc5a2c898a6, 0x113f9804bef90dae, 0x1b710b35131c471b,
   0x28db77f523047d84, 0x32caab7b40c72493, 0x3c9ebe0a15c9bebc, 0x431d67c49c100d4c,
   0x4cc5d4becb3e42b6, 0x597f299cfc657e2a, 0x5fcb6fab3ad6faec, 0x6c44198c4a475817]

/-- The initial hash value of SHA-384. -/
def shaInit : List Nat :=
  [0xcbbb9d5dc1059ed8, 0x629a292a367cd507, 0x9159015a3070dd17, 0x152fecd8f70e5939,
   0x67332667ffc00b31, 0x8eb44a8768581511, 0xdb0c2e0d64f98fa7, 0x47b5481dbefa4fa4]

/-- A 64-bit word turned right by `k` bits. -/
def ror64 (k w : Nat) : Nat := w / 2 ^ k + (w * 2 ^ (64 - k)) % 2 ^ 64

/-- `n` more words of the message schedule, `ws` with the newest first. -/
def shaGrow : Nat → List Nat → List Nat
  | 0, ws => ws
  | n + 1, ws =>
    let a := ws.getD 14 0
    let b := ws.getD 1 0
    let s0 := ror64 1 a ^^^ ror64 8 a ^^^ a / 2 ^ 7
    let s1 := ror64 19 b ^^^ ror64 61 b ^^^ b / 2 ^ 6
    shaGrow n ((ws.getD 15 0 + s0 + ws.getD 6 0 + s1) % 2 ^ 64 :: ws)

/-- One round: the eight working words, a round constant and a schedule word. -/
def shaRound (v : List Nat) (k : Nat × Nat) : List Nat :=
  match v with
  | [a, b, c, d, e, f, g, h] =>
    let s1 := ror64 14 e ^^^ ror64 18 e ^^^ ror64 41 e
    let ch := (e &&& f) ^^^ ((e ^^^ (2 ^ 64 - 1)) &&& g)
    let t1 := (h + s1 + ch + k.1 + k.2) % 2 ^ 64
    let s0 := ror64 28 a ^^^ ror64 34 a ^^^ ror64 39 a
    let maj := (a &&& b) ^^^ (a &&& c) ^^^ (b &&& c)
    [(t1 + s0 + maj) % 2 ^ 64, a, b, c, (d + t1) % 2 ^ 64, e, f, g]
  | l => l

/-- One block of 128 bytes taken into the hash value. -/
def shaBlock (h : List Nat) (b : List Nat) : List Nat :=
  let ws := (shaGrow 64 (((List.range 16).map fun i => ofBe ((b.drop (8 * i)).take 8)).reverse)).reverse
  List.zipWith (fun x y => (x + y) % 2 ^ 64) h (((shaK1 ++ shaK2).zip ws).foldl shaRound h)

/-- `n` blocks of a padded message. -/
def shaBlocks : Nat → List Nat → List Nat → List Nat
  | 0, h, _ => h
  | n + 1, h, bs => shaBlocks n (shaBlock h (bs.take 128)) (bs.drop 128)

/-- The SHA-384 digest of a byte string, as a number whose first byte is highest. -/
def sha384 (bs : List Nat) : Nat :=
  let z := (128 - (bs.length + 17) % 128) % 128
  let m := bs ++ [0x80] ++ List.replicate z 0 ++ beNat (8 * bs.length) 16
  ((shaBlocks (m.length / 128) shaInit m).take 6).foldl (fun a w => a * 2 ^ 64 + w) 0

/-! ### ECDSA P-384 (R410) -/

/-- The prime, the coefficient b, the order and the base point of P-384. -/
def p384 : Nat := 2 ^ 384 - 2 ^ 128 - 2 ^ 96 + 2 ^ 32 - 1
def p384b : Nat := 0xb3312fa7e23ee7e4988e056be3f82d19181d9c6efe8141120314088f5013875ac656398d8a2ed19d2a85c8edd3ec2aef
def p384n : Nat := 0xffffffffffffffffffffffffffffffffffffffffffffffffc7634d81f4372ddf581a0db248b0a77aecec196accc52973
def p384g : Nat × Nat :=
  (0xaa87ca22be8b05378eb1c71ef320ad746e1d3b628ba79b9859f741e082542a385502f25dbf55296c3a545e3872760ab7,
   0x3617de4a96262c6f5d9e98bf9292dc29f8f41dbd289a147ce9da3113b5f0b8c00a60b1ce1d7e819d7a431d7c90ea0e5f)

/-- `b` to a power modulo `m`, over the low `k` bits of `e`. -/
def powMod (m : Nat) : Nat → Nat → Nat → Nat
  | 0, _, _ => 1 % m
  | k + 1, b, e => (if e % 2 = 1 then b else 1) * powMod m k (b * b % m) (e / 2) % m

/-- The inverse modulo a prime of 384 bits. -/
def invMod (m a : Nat) : Nat := powMod m 384 (a % m) (m - 2)

/-- The sum of two points of the curve; none is the point at infinity. -/
def ecAdd : Option (Nat × Nat) → Option (Nat × Nat) → Option (Nat × Nat)
  | none, q => q
  | p, none => p
  | some (x1, y1), some (x2, y2) =>
    if x1 = x2 ∧ (y1 + y2) % p384 = 0 then none
    else
      let l := if x1 = x2 then (3 * x1 * x1 + (p384 - 3)) * invMod p384 (2 * y1) % p384
        else (y2 + p384 - y1) * invMod p384 (x2 + p384 - x1) % p384
      let x := (l * l + 2 * p384 - x1 - x2) % p384
      some (x, (l * (x1 + p384 - x) + p384 - y1) % p384)

/-- A multiple of a point, over the low `k` bits of the factor. -/
def ecMul : Nat → Nat → Option (Nat × Nat) → Option (Nat × Nat)
  | 0, _, _ => none
  | k + 1, n, p => ecAdd (if n % 2 = 1 then p else none) (ecMul k (n / 2) (ecAdd p p))

/-- A point lies on the curve. -/
def onCurve (x y : Nat) : Bool :=
  decide (x < p384) && decide (y < p384) && decide ((y * y + 3 * x) % p384 = (x * x * x + p384b) % p384)

/-- The signature (r, s) of a message of `bs` verifies under a public key of 97 bytes: 0x04, X, Y (R410). -/
def sigOk (key bs rs : List Nat) : Bool :=
  let x := ofBe ((key.drop 1).take 48)
  let y := ofBe ((key.drop 49).take 48)
  let r := ofBe (rs.take 48)
  let s := ofBe ((rs.drop 48).take 48)
  if key.headD 0 ≠ 4 || !(onCurve x y) || decide (r = 0) || decide (p384n ≤ r) || decide (s = 0) || decide (p384n ≤ s) then false
  else
    let w := invMod p384n s
    match ecAdd (ecMul 384 (sha384 bs * w % p384n) (some p384g)) (ecMul 384 (r * w % p384n) (some (x, y))) with
    | some q => decide (q.1 % p384n = r)
    | none => false

end Sys2Proof.Machine
end

