-- ==== Sys2Proof/Machine/State.lean ====
section
/-! DEFINITION. The state of the TX48: everything the spec gives it, as plain data; the stops of a step; and the state after
power-on reset (R428, R430). What the registers of the map hold is kept in `regs` and `staged` (a register that nothing has written since its
reset is not listed and reads as the Reset column says, R10); everything else stands in one record per block. -/
namespace Sys2Proof.Machine

/-! ### What one REFCLK cycle remembers (R9, R334, R335, R390, R399, R449) -/

/-- A register word at the start of this cycle, and this cycle's events counted from 0 (R9). -/
structure RegEvent where
  before : Word
  fresh : Word
deriving DecidableEq, Repr

/-- What must be remembered until the REFCLK cycle ends; what ends it is `State.eventCycle`, `State.accessCycle` and an idle step (log 1). -/
structure Cycle where
  /-- who has accessed registers in this cycle (log 1) -/
  users : List Requester
  /-- something other than an access has come about in this cycle (log 1) -/
  ev : Bool
  /-- registers in which a hardware event set a bit or advanced a count in this cycle -/
  regEv : List (Nat × RegEvent)
  /-- event-counter sources that have occurred in this cycle (R334) -/
  evSeen : List Nat
  /-- device sources, and private sources (key 32c + i), that have occurred in this cycle (R383) -/
  occDev : List Nat
  occPriv : List Nat
  /-- event counters that have taken a contribution in this cycle (R335) -/
  evContrib : List Nat
  /-- TMR_ESEL words as they stood before a write of this cycle (R334) -/
  eselOld : List (Nat × Word)
  /-- error lines that were 1 in this cycle (R449, R483) -/
  lines : BitVec 64
  /-- FLT_STATUS at the end of the cycle before (R450) -/
  fltPrev : BitVec 64
  /-- FLT_FIRST was latched in this cycle (R451) -/
  firstNow : Bool
  /-- the safe state was entered in this cycle (R453) -/
  safeNow : Bool
  /-- PIN_OUT words at the start of the cycle, and the writes of the cycle: bank, kind (0 OSET, 1 OCLR, 2 OTGL, 3 OUT), word (R399) -/
  pinBase : List (Nat × Word)
  pinWrites : List (Nat × Nat × Word)
  /-- mailbox sends of this cycle: mailbox, agent, accepted, COLL before (R390) -/
  mbSends : List (Nat × Nat × Bool × Bool)
  /-- captures discarded in this cycle for want of room: timer, low word, high word, CAPOVF before (R330) -/
  capDrops : List (Nat × Word × Word × Bool)
  /-- pushes refused in this cycle (R235): agent, queue, REASON, and that the agent has pushed again since -/
  qmRefused : List (Nat × Nat × Nat × Bool)
  /-- before the first of them: QM_LASTREF, the event counters that had overflowed, EVOVF (R235, R333) -/
  qmBefore : Word × List Nat × Bool
deriving DecidableEq, Repr

/-- The start of a cycle. -/
def Cycle.clear (prev : BitVec 64) : Cycle :=
  { users := [], ev := false, regEv := [], evSeen := [], occDev := [], occPriv := [], evContrib := [], eselOld := [], lines := 0,
    fltPrev := prev, firstNow := false, safeNow := false, pinBase := [], pinWrites := [], mbSends := [], capDrops := [], qmRefused := [], qmBefore := (0, [], false) }

/-! ### Chapter 18: interrupts and mailboxes -/

/-- Coalescing state of one private or shared source (R386). -/
structure IrqSrc where
  occ : Nat
  /-- tick (microsecond) of the first occurrence -/
  t0 : Nat
  presented : Bool
  inService : Bool
deriving DecidableEq, Repr

def IrqSrc.idle : IrqSrc := { occ := 0, t0 := 0, presented := false, inService := false }

/-- A core's priority stack and its shadow, top entry first: priority and ID (R387, R389). -/
structure IrqCore where
  stack : List (Nat × Nat)
  shadow : List (Nat × Nat)
deriving DecidableEq, Repr

def IrqCore.empty : IrqCore := { stack := [], shadow := [] }

structure IrqState where
  /-- DMA channels whose completion latch is set (R383, sources 128 to 191) -/
  dmaLatch : List Nat
  /-- private sources, key 32c + i -/
  priv : List (Nat × IrqSrc)
  /-- shared slots, key 128k + s -/
  shared : List (Nat × IrqSrc)
  cores : List (Nat × IrqCore)
deriving DecidableEq, Repr

def IrqState.reset : IrqState :=
  { dmaLatch := [], priv := [], shared := [], cores := [] }

/-! ### Chapter 15: timers -/

/-- What a timer holds beside its registers. -/
structure TimerX where
  /-- prescaler accumulator (R321) -/
  acc : Nat
  /-- writes to the low half of a linked pair, held for the high half (R328): CNT, CMP, PER -/
  heldCnt : Option Word
  heldCmp : Option Word
  heldPer : Option Word
  /-- the capture queue, oldest first (R330) -/
  caps : List Word
  /-- latched high half of the count (R329) and of the last capture read (R330) -/
  cntHi : Word
  capHi : Option Word
deriving DecidableEq, Repr

def TimerX.idle : TimerX :=
  { acc := 0, heldCnt := none, heldCmp := none, heldPer := none, caps := [], cntHi := 0, capHi := none }

structure TmrState where
  timers : List (Nat × TimerX)
  /-- the 48-bit event counts (R334) -/
  evCnt : List (Nat × Nat)
  /-- TB_RTIME at the last snapshot (R335) -/
  snapT : Nat
deriving DecidableEq, Repr

def TmrState.reset : TmrState :=
  { timers := [], evCnt := [], snapT := 0 }

/-! ### Chapter 19: pins -/

/-- What pad p holds beside the registers. -/
structure PinX where
  /-- pad level at the end of the last REFCLK cycle and of the one before it (R401) -/
  level : Bool
  level1 : Bool
  /-- the TX48 drove the pad in the last cycle -/
  drove : Bool
  /-- the level applied from outside -/
  ext : Bool
  /-- in the switch cycle: the level that the keeper holds, or that the pad is left undriven (R402) -/
  keeper : Option (Option Bool)
  /-- cycles left in which the signals routed from the pin read IDLE (R402) -/
  idleLeft : Nat
  /-- chatter detector (R403): edges counted, REFCLK cycle of the first and of the last edge -/
  cnt : Nat
  t0 : Nat
  last : Nat
  suppressed : Bool
  /-- masked as stuck (R404) -/
  masked : Bool
deriving DecidableEq, Repr

def PinX.idle : PinX :=
  { level := false, level1 := false, drove := false, ext := false, keeper := none, idleLeft := 0, cnt := 0, t0 := 0,
    last := 0, suppressed := false, masked := false }

structure PinState where
  pins : List (Nat × PinX)
deriving DecidableEq, Repr

def PinState.reset : PinState :=
  { pins := [] }

/-! ### Chapter 20: images, retained store, management port -/

/-- The saved live bank of a bank commit: the banked registers and the banked SRAM bytes (R422). -/
structure BankImage where
  regs : List (Nat × Word)
  sram : List Host.Cell
deriving DecidableEq, Repr

/-- A commit waiting or running (R423). -/
inductive Commit where
  /-- bank commit: the live bank at the swap, IMGID, orbit number -/
  | bank (b : BankImage) (imgid : Nat) (orbit : Nat)
  /-- image commit: the slot to become committed -/
  | image (slot : Nat)
deriving DecidableEq, Repr

/-- The operation that IMG is running. -/
inductive ImgOp where
  | none
  /-- VERIFY of a slot -/
  | check (slot : Nat)
  /-- the checks of a start (LOAD): the slot, whether it starts as a candidate, the slots still to try (R415) -/
  | load (slot : Nat) (cand : Bool) (rest : List (Nat × Bool))
  /-- APPLY of the slot -/
  | apply (slot : Nat) (cand : Bool) (rest : List (Nat × Bool))
deriving DecidableEq, Repr

/-- An SRAM window region that the image lays out (R4, R5): base, size, whether it is blitter-writable (R275). -/
structure Window where
  base : Nat
  size : Nat
  blit : Bool
deriving DecidableEq, Repr

/-- A release stream as the image wires it (R45 to R48): its source (a DEC stream carries the strobe, an object exchange does not), its
target lanes as a mask, and whether it targets RO (log 25). -/
structure StreamCfg where
  dec : Bool
  lanes : Nat
  ro : Bool
deriving DecidableEq, Repr

structure ImgState where
  /-- the SRAM layout and the streams of the running image -/
  windows : List Window
  streams : List StreamCfg
  /-- the 16 MiB retained store (R412); an unlisted byte reads 0 -/
  store : List Host.Cell
  /-- store words that hold an uncorrectable error, by byte offset -/
  storeBad : List Nat
  /-- what bank areas 0 and 1 hold; none: nothing whole -/
  area0 : Option BankImage
  area1 : Option BankImage
  /-- index of the next record of the log (0 to 4,095) and the RSEQ it will carry (R421) -/
  recPos : Nat
  rseq : Nat
  op : ImgOp
  /-- an ACTIVATE waiting for its boundary (R418) -/
  activate : Option Nat
  commits : List Commit
  /-- the golden lock fuse is blown (R427) -/
  goldLocked : Bool
  /-- the candidate's first start has begun (R415) -/
  candStarted : Bool
  /-- 10 s have passed since RUN (R439) -/
  okWindowOver : Bool
deriving DecidableEq, Repr

def ImgState.reset : ImgState :=
  { windows := [], streams := [], store := [], storeBad := [], area0 := none, area1 := none, recPos := 0, rseq := 1, op := .none, activate := none,
    commits := [], goldLocked := false, candStarted := false, okWindowOver := false }

/-- The PCI Express function as far as it decides what the TX48 does (R424, R425). -/
structure PcieState where
  linkUp : Bool
  busMaster : Bool
  msixEnable : Bool
  funcMask : Bool
  /-- vectors that sent a message less than 1 us ago, and those of them with a merged request -/
  spacing : List Nat
  merged : List Nat
  /-- messages sent, by vector -/
  sent : List (Nat × Nat)
deriving DecidableEq, Repr

def PcieState.reset : PcieState :=
  { linkUp := false, busMaster := false, msixEnable := false, funcMask := false, spacing := [], merged := [], sent := [] }

/-! ### Chapter 21: resets and domains -/

/-- A domain operation taken and not yet started, or running (R441). -/
structure DomainOp where
  /-- 1 reset, 2 off, 3 on -/
  op : Nat
  pd : Nat
  started : Bool
deriving DecidableEq, Repr

structure RstState where
  /-- STRAP_BOOT, STRAP_CLK, STRAP_MST as sampled (R431) -/
  strapBoot : Nat
  strapClk : Nat
  strapMst : Nat
  /-- domains of the release order still to be released, step by step (R435) -/
  plan : List (Nat × List Nat)
  /-- domains whose rail failed (R437) -/
  railFailed : List Nat
  domainOp : Option DomainOp
  /-- the trim load of this reset has ended (R432) -/
  trimDone : Bool
deriving DecidableEq, Repr

def RstState.reset : RstState :=
  { strapBoot := 0, strapClk := 0, strapMst := 0, plan := [(2, [1]), (3, [2]), (4, [3]), (5, [4])], railFailed := [], domainOp := none, trimDone := false }

/-! ### Chapter 22: Mordant -/

structure FltState where
  /-- FLT_STATUS -/
  status : BitVec 64
  /-- FLT_FIRSTT, bits [63:32] as held -/
  firstT : Nat
  /-- a monitored supply is out of range, by rail number (R459) -/
  supplyOut : List Nat
  /-- on-die temperature that the sensor last gave, in 0.125 degC (R459) -/
  temp : Int
  refclkBad : Bool
  /-- REFCLK cycle in which the watchdog stage began (R463) -/
  wdStart : Nat
  /-- REFCLK cycle of the safe-state entry (R456) -/
  safeStart : Nat
  /-- crossings before this one still get the late pattern after an exit (R455) -/
  exitOrbit : Option Nat
  /-- pairs marked for the next boundary: pair and mark (R457) -/
  marks : List (Nat × Nat)
  /-- for a pair: the spare that ran its first replay with a minority verdict in this orbit (R457) -/
  firstReplay : List (Nat × Nat)
deriving DecidableEq, Repr

def FltState.reset : FltState :=
  { status := 0, firstT := 0, supplyOut := [], temp := 0, refclkBad := false, wdStart := 0, safeStart := 0,
    exitOrbit := none, marks := [], firstReplay := [] }

/-! ### Chapter 1: time base and flip -/

/-- What TB holds beside its registers. Slots are counted from power-on in actual slots (R17). -/
structure TbState where
  /-- number of the current slot, counted in actual slots -/
  n : Nat
  orbit : Nat
  slot : Nat
  /-- number of the slot that began the current orbit -/
  orbStart : Nat
  /-- length of the orbit before (R27) -/
  prevLen : Nat
  /-- the first alignment has taken place (R24) -/
  aligned : Bool
  /-- a marker has been seen in the slip window of the boundary that began this orbit, and of the next one (R27, R31) -/
  seen : Bool
  seenNext : Bool
  /-- the window of the boundary that began this orbit has been judged (R30) -/
  judged : Bool
  /-- consecutive missed markers (R30) -/
  misses : Nat
  /-- the deviation of a marker seen in the tail, for the next orbit's length (R27) -/
  nextDev : Int
  /-- a lane 0 orbit mark waits for the next slot-clock edge (R18), and a RESYNC of lane 0 for its mark (R21) -/
  laneMark : Bool
  awaitMark : Bool
  /-- the source is back and the re-lock slew runs (R22) -/
  slewing : Bool
  /-- RESYNC goes in the crossing frame of this slot, or of slot 0 of the next orbit (R32) -/
  resyncNow : Bool
  resyncNext : Bool
  /-- void period (R32): running, orbits still to be voided, first crossing after it when known -/
  voiding : Bool
  voidLeft : Nat
  voidEnd : Option Nat
  /-- time of the current slot-clock edge and of the edge that began the orbit, in ps -/
  ps : Nat
  orbPs : Nat
  /-- length of the last slot, which the oscillator expects to go on (R20, R297) -/
  per : Nat
  /-- the REFCLK cycle of the current slot-clock edge (log 1) -/
  edgeCycle : Nat
  /-- first slots and numbers of recent orbits, newest first -/
  history : List (Nat × Nat)
deriving DecidableEq, Repr

def TbState.reset : TbState :=
  { n := 0, orbit := 0, slot := 0, orbStart := 0, prevLen := 0, aligned := false, seen := false, seenNext := false,
    judged := false, misses := 0, nextDev := 0, laneMark := false, awaitMark := false, slewing := false,
    resyncNow := false, resyncNext := false, voiding := false, voidLeft := 0, voidEnd := none, ps := 0, orbPs := 0, per := 32000, edgeCycle := 0,
    history := [] }

/-- A flip request (R35). -/
structure FlipReq where
  journal : Bool
  aten : Bool
  at_ : Nat
deriving DecidableEq, Repr

structure FlipState where
  pending : Option FlipReq
  locked : Option FlipReq
  /-- first crossing that uses the live bank (R37), and whether the other bank still holds the one before (R38) -/
  since : Nat
  oldBank : Bool
  /-- slot at which the bank copy starts -/
  copyAt : Option Nat
  copying : Bool
  /-- stamp of the last swap, bits [127:32] as held until a read latches them (R42) -/
  stampOrbit : Nat
  stampTime : Nat
deriving DecidableEq, Repr

def FlipState.reset : FlipState :=
  { pending := none, locked := none, since := 0, oldBank := false, copyAt := none, copying := false, stampOrbit := 0,
    stampTime := 0 }

/-! ### Chapter 2: release -/

/-- An entry of a stream's ring (R50). -/
structure RelEntry where
  x : Nat
  word : BitVec 64
  strobe : Bool
  /-- FCLK edge of arrival -/
  arrival : Nat
  present : Bool
  replay : Bool
  /-- deferred to the replay deadline (R53) -/
  deferred : Bool
  late : Bool
deriving DecidableEq, Repr

/-- A stream's records of the current orbit (R59). -/
structure SentRec where
  prim : Nat
  dlSlot : Nat
  rep : Nat
deriving DecidableEq, Repr

def SentRec.none : SentRec := { prim := 0xFFFF, dlSlot := 0, rep := 0xFFFF }

/-- What a stream presented at its last release instant (R49). -/
structure Released where
  x : Nat
  word : BitVec 64
  strobe : Bool
  /-- the word is the late pattern -/
  late : Bool
deriving DecidableEq, Repr

/-- A spare pair in use for replay (R65). -/
structure ReplayUse where
  spare : Nat
  region : Nat
  /-- crossings in flight, each with the pair whose mismatch it replays -/
  crossings : List (Nat × Nat)
deriving DecidableEq, Repr

structure RelState where
  /-- ring entries, key 1024s + x mod 1024 -/
  ring : List (Nat × RelEntry)
  sent : List (Nat × SentRec)
  /-- orbit of the published records, and their replay slack, until a read latches them (R60) -/
  pubOrbit : Nat
  pubRep : List (Nat × Nat)
  released : List (Nat × Released)
  /-- first crossing that the running image takes part in (log 20) -/
  firstX : Nat
  /-- a LATE occurred in this orbit; consecutive orbits above CEIL (R62) -/
  lateSeen : Bool
  dwell : Nat
  replays : List ReplayUse
  /-- decision words made: crossing, word, strobe (R208, R209) -/
  results : List (Nat × Nat × Bool)
deriving DecidableEq, Repr

def RelState.reset : RelState :=
  { ring := [], sent := [], pubOrbit := 0, pubRep := [], released := [], firstX := 0, lateSeen := false, dwell := 0,
    replays := [], results := [] }

/-! ### Chapter 3: lane array -/

/-- What lane n holds beside its LNK registers. -/
structure LaneX where
  /-- calibrations failed in a row (R78) -/
  calFails : Nat
  /-- the PLL is locking (R74, R75, R88) -/
  pllBusy : Bool
  /-- the transmit tap set in use: pre-cursors and main, as LNK_TXPRE and LNK_TXMAIN words -/
  pre : Word
  main : Word
  /-- a set that waits for the next crossing-frame boundary (R81) -/
  next : Option (Word × Word)
  /-- an AC EXTEST runs (R86) -/
  extest : Bool
  /-- Madder negotiation starts when the lane next enters READY (R84, R107) -/
  restart : Bool
deriving DecidableEq, Repr

def LaneX.idle : LaneX :=
  { calFails := 0, pllBusy := false, pre := 0, main := 0xA000007F, next := none, extest := false, restart := true }

structure LnkState where
  lanes : List (Nat × LaneX)
  /-- groups with a clock fault that has not ended (R72) -/
  grpFault : List Nat
deriving DecidableEq, Repr

def LnkState.reset : LnkState :=
  { lanes := [], grpFault := [] }

/-! ### Chapter 4: Madder -/

/-- A crossing frame as a receiver reads it (R97, R98). -/
structure Frame where
  /-- the HEAD flit is where R100 places it -/
  head : Bool
  /-- the CRC matches -/
  crcOk : Bool
  /-- every flit after the HEAD is a DATA flit -/
  typesOk : Bool
  /-- codewords overlapping the frame that are uncorrectable, those of them that overlapped no frame before, and symbols corrected in it -/
  uncorr : Nat
  newUncorr : Nat
  corr : Nat
  om : Bool
  fv : Bool
  stat : Nat
  slot : Nat
  orbit : Nat
  fcmd : Nat
  nfcmd : Nat
  fcx : Nat
  cccred : Nat
  /-- the data area: bit i of the area is bit i of the number -/
  data : Nat
deriving DecidableEq, Repr

/-- A control message (R112). -/
structure CcMsg where
  /-- FIRST stands in the first segment and LAST in the last -/
  first : Bool
  segs : Nat
  mtype : Nat
  len : Nat
  seq : Nat
  payload : List Nat
  tag : BitVec 64
deriving DecidableEq, Repr

/-- A frame as the TX48 launched it. -/
structure SentFrame where
  om : Bool
  fv : Bool
  stat : Nat
  slot : Nat
  orbit : Nat
  fcmd : Nat
  fcx : Nat
  cccred : Nat
  data : Nat
deriving DecidableEq, Repr

/-- A mode of R106: version, rate as R68 codes it, FEC, flits per frame. -/
structure Mode where
  ver : Nat
  rate : Nat
  fec : Bool
  k : Nat
deriving DecidableEq, Repr

/-- What lane n holds beside its MDR registers. -/
structure MdrX where
  ownNonce : Nat
  partNonce : Nat
  /-- W0 to W14 of the last HELLO sent and received -/
  ownHello : List Nat
  partHello : List Nat
  partId : Nat
  /-- the mode that the source chose, and whether the COMMIT exchange is complete -/
  mode : Option Mode
  committed : Bool
  /-- consecutive proof failures (R118) -/
  proofFails : Nat
  /-- rate of the last train failure and how many in a row (R108); excluded rates -/
  trainRate : Nat
  trainFails : Nat
  excluded : List Nat
  /-- version and rate of the last negotiated mode (R109) -/
  prevVer : Nat
  prevRate : Nat
  /-- REFCLK cycles of the link-downs that may still count (R119) -/
  downs : List Nat
  /-- consecutive failed frames in RUN, consecutive good frames in TRAIN -/
  badRun : Nat
  goodRun : Nat
  /-- block or codeword lock -/
  lock : Bool
  /-- SLOT of the frame before (R99) -/
  prevSlot : Option Nat
  /-- the reason of the REJECT that is sent, and the last reason received -/
  reason : Nat
  partReject : Nat
  /-- SEQ of the next message sent; last SEQ accepted (R113) -/
  txSeq : Nat
  rxSeq : Nat
  tokens : Nat
  /-- CCCRED of the last HEAD sent and the messages received since; CCCRED left from the last HEAD received -/
  credGiven : Nat
  credUsed : Nat
  partCred : Nat
  /-- messages that the receive queue has refused; remote accesses to execute; replies to send -/
  held : List CcMsg
  remote : List CcMsg
  outbox : List CcMsg
  /-- the slot whose frame was launched last -/
  sentAt : Option Nat
  /-- the last frame launched, the last negotiation message and the last control message sent -/
  sent : Option SentFrame
  sentNeg : Option (List Nat)
  sentCc : Option CcMsg
  /-- the flits of what the lane sent last: frame, negotiation message or control message -/
  wire : List (BitVec 256)
deriving DecidableEq, Repr

def MdrX.idle : MdrX :=
  { ownNonce := 0, partNonce := 0, ownHello := [], partHello := [], partId := 0, mode := none, committed := false,
    proofFails := 0, trainRate := 0, trainFails := 0, excluded := [], prevVer := 0, prevRate := 0, downs := [],
    badRun := 0, goodRun := 0, lock := false, prevSlot := none, reason := 0, partReject := 0, txSeq := 1, rxSeq := 0,
    tokens := 16, credGiven := 4, credUsed := 0, partCred := 0, held := [], remote := [], outbox := [], sentAt := none, sent := none,
    sentNeg := none, sentCc := none, wire := [] }

structure MdrState where
  lanes : List (Nat × MdrX)
  /-- a waiting request of MDR_FCREQ: code and slot -/
  fcreq : Option (Nat × Nat)
  /-- TESTPULSE and USER commands due in the frames of the present slot -/
  due : List Nat
deriving DecidableEq, Repr

def MdrState.reset : MdrState :=
  { lanes := [], fcreq := none, due := [] }

/-! ### Chapter 5: ingress -/

/-- A frame that ING has placed in crossing `x` (R125 to R127). -/
structure PendFrame where
  x : Nat
  frame : Frame
  /-- slot in which it was received whole -/
  recv : Nat
  /-- FCLK edge at which its mapping was complete -/
  done : Option Nat
  /-- the lane had gone down before it was received, and counts only for later crossings: its cells are VOID (R134, R136) -/
  dead : Bool
deriving DecidableEq, Repr

structure IngLane where
  frames : List PendFrame
  /-- crossings with a frame placed, and crossings with a failed frame assigned (R128) -/
  placed : List Nat
  failed : List Nat
  /-- the last crossing placed or assigned since the lane entered RUN -/
  last : Option Nat
  /-- least slack and longest wait of the current orbit (R138) -/
  minSlack : Nat
  maxWait : Nat
  /-- the lane has entered RUN and waits for the boundary at which RXVALID becomes 1; the first crossing that counts since its last
  return (R136) -/
  back : Bool
  countFrom : Nat
deriving DecidableEq, Repr

def IngLane.idle : IngLane :=
  { frames := [], placed := [], failed := [], last := none, minSlack := 0xFFFF, maxWait := 0, back := false, countFrom := 0 }

/-- A cell as ING hands it over (R132): raw value and flags. -/
structure RawCell where
  raw : Int
  void : Bool
  sat : Bool
  tag : Bool
  mask : Bool
deriving DecidableEq, Repr

structure IngState where
  lanes : List (Nat × IngLane)
  /-- for recent orbits, newest first: number of the first slot, and the lanes that had RXVALID at that boundary (R134) -/
  rxHist : List (Nat × List Nat)
  /-- most VOID cells in a crossing of the current orbit -/
  maxVoid : Nat
deriving DecidableEq, Repr

def IngState.reset : IngState :=
  { lanes := [], rxHist := [], maxVoid := 0 }

/-! ### Chapter 6: conditioning -/

structure CndState where
  /-- raw history, newest first: crossing, its mapped cells by key 8192l + c (R141) -/
  hist : List (Nat × List (Nat × RawCell))
  /-- crossings started and not completed, oldest first -/
  started : List Nat
  /-- seeded pedestal estimates, 16 fractional bits, by key 8192l + c (R146) -/
  ped : List (Nat × Int)
  /-- pedestal resets that apply from a crossing on: layer, crossing (R148) -/
  pedRst : List (Nat × Nat)
  /-- estimates that hold an uncorrectable error, by key (R153, R485) -/
  bad : List Nat
deriving DecidableEq, Repr

def CndState.reset : CndState :=
  { hist := [], started := [], ped := [], pedRst := [], bad := [] }

/-! ### Chapter 7: playfield -/

/-- A crossing in PF: conditioned cells by key 8192l + c as cell words (R155), and the rows broadcast so far of each
broadcast channel. -/
structure PfCross where
  x : Nat
  cells : List (Nat × Nat)
  /-- rows delivered -/
  rows : Nat
  chans : List (List (List Nat))
deriving DecidableEq, Repr

/-- A capture unit (R170). -/
structure Capture where
  /-- first crossing that an armed capture may take -/
  from_ : Nat
  /-- what it sampled when the capture began: crossing, source, row -/
  run : Option (Nat × Nat × Nat)
deriving DecidableEq, Repr

def Capture.idle : Capture := { from_ := 0, run := none }

structure PfState where
  /-- crossings that CND has passed on and the engines still need, oldest first -/
  cross : List PfCross
  /-- the Lake layer being re-flattened (R161), and live layers being rewritten (R162) -/
  flattening : Option Nat
  rewriting : List Nat
  captures : List (Nat × Capture)
deriving DecidableEq, Repr

def PfState.reset : PfState :=
  { cross := [], flattening := none, rewriting := [], captures := [] }

/-! ### Chapter 8: object engines -/

/-- A pair's work on one crossing. -/
structure ObjWork where
  pair : Nat
  x : Nat
  /-- words of members A and B so far -/
  a : List EWord
  b : List EWord
  mism : Bool
  /-- the region's words for the sorter, when decided -/
  result : Option (List Cand)
deriving DecidableEq, Repr

/-- A class's collected objects after the sorter (R187). -/
structure ClassList where
  cls : Nat
  ncand : Nat
  objs : List (Cand × Bool)
deriving DecidableEq, Repr

/-- What the collector and the sorter made of a crossing. -/
structure ObjResult where
  x : Nat
  ovf : Bool
  /-- collected objects in sweep order, with OCOLL -/
  objs : List (Cand × Bool)
  /-- the voted sorter output, when complete -/
  lists : Option (List ClassList)
deriving DecidableEq, Repr

/-- A region assignment that ended at a crossing (R191): before crossing `until`, pair `pair` held region `owner` with
these OBJ_PREG and OBJ_PCLS words. -/
structure OldRegion where
  until_ : Nat
  pair : Nat
  held : Bool
  owner : Nat
  preg : Word
  clsLo : Word
  clsHi : Word
deriving DecidableEq, Repr

structure ObjState where
  work : List ObjWork
  /-- crossings collected -/
  results : List ObjResult
  old : List OldRegion
  /-- regions dropped: anchor rectangle as OBJ_PREG holds it, and the first crossing without it (R461) -/
  drops : List (Word × Nat)
deriving DecidableEq, Repr

def ObjState.reset : ObjState :=
  { work := [], results := [], old := [], drops := [] }

/-! ### Chapter 9: decision unit -/

/-- What the handover of a crossing brings to DEC: the VOID lanes, and of each other front-end lane its STAT and the first 64
bits of its data area (R195). -/
structure DecIn where
  x : Nat
  void : List Nat
  front : List (Nat × Nat × Nat)
  /-- throttle level, ACCEN and THREN sampled at the edge that begins X + DSKT -/
  throttle : Bool
  accen : Bool
  thren : Bool
deriving DecidableEq, Repr

/-- The state of one copy of DEC (R212): prescale accumulators of the lines, 33 bits (R205); position of the last accept, and the accepts
that a window can still see, newest first (R206). -/
structure DecCopy where
  acc : List (Nat × Nat)
  last : Option Nat
  accepts : List Nat
deriving DecidableEq, Repr

structure DecState where
  inputs : List DecIn
  /-- levels of DEC_IN0 to DEC_IN31 sampled for a crossing (R196) -/
  pins : List (Nat × Nat)
  /-- frames of upward and peer lanes that belong to a crossing: lane, crossing, frame (R197) -/
  frames : List (Nat × Nat × Frame)
  /-- the state that the copies share -/
  copy : DecCopy
  /-- copies whose state differs from it (R212) -/
  strays : List (Nat × DecCopy)
  /-- resets of accumulators that apply from a crossing on: lines, crossing (R205) -/
  rst : List (List Nat × Nat)
  /-- the last crossing evaluated -/
  lastX : Option Nat
  /-- what the frames of a crossing's release carry (R211), newest first: crossing, throttle level, OVF, class lists -/
  kept : List (Nat × Bool × Bool × List ClassList)
deriving DecidableEq, Repr

def DecState.reset : DecState :=
  { inputs := [], pins := [], frames := [], copy := { acc := [], last := none, accepts := [] }, strays := [], rst := [],
    lastX := none, kept := [] }

/-- A trigger record (R210). -/
structure TrigRec where
  x : Nat
  word : Nat
  tav : Nat
  tap : Nat
  /-- throttle level sampled for the crossing -/
  throttle : Bool
deriving DecidableEq, Repr

/-! ### Chapter 10: readout and queues -/

/-- A readout request (R222, R223). -/
structure RoReq where
  x : Nat
  dword : BitVec 64
  accno : Nat
  rtime : Nat
deriving DecidableEq, Repr

structure RoState where
  /-- the request FIFO, oldest first; the first is being served -/
  reqs : List RoReq
  /-- byte offset in the fragment queue's ring of the space admitted for the request being served -/
  space : Option Nat
  /-- number of the next request (R224) -/
  accno : Nat
  /-- the crossing most recently handed over (R221) -/
  cur : Option Nat
deriving DecidableEq, Repr

def RoState.reset : RoState := { reqs := [], space := none, accno := 0, cur := none }

structure QmState where
  /-- admitted elements not yet visible (R223, R246): queue, ring offset -/
  hidden : List (Nat × Nat)
  /-- outputs with an element started: output, queue (R236) -/
  started : List (Nat × Nat)
deriving DecidableEq, Repr

def QmState.reset : QmState := { hidden := [], started := [] }

/-! ### Chapter 11: DMA and DRAM -/

/-- What DMA channel `ch` holds beside its registers. -/
structure DmaX where
  /-- the descriptor as fetched: its eight words -/
  desc : List Nat
  /-- its transfer has ended and it waits for global visibility (R248), with its CODE and COUNT -/
  barrier : Option (Nat × Nat)
  /-- it went idle after a descriptor with STOP (R242) -/
  stopped : Bool
  /-- the element being read: queue, and bytes of it moved by earlier descriptors (R246) -/
  elem : Option (Nat × Nat)
  /-- the admitted element being written: queue, ring offset -/
  space : Option (Nat × Nat)
deriving DecidableEq, Repr

def DmaX.idle : DmaX := { desc := [], barrier := none, stopped := false, elem := none, space := none }

structure DmaState where
  chans : List (Nat × DmaX)
  /-- posted writes to host memory, oldest first: address, bytes -/
  posted : List (Nat × List Nat)
  /-- credit of the channels, in bytes with 8 fractional bits, and the channel granted last (R251) -/
  credit : List (Nat × Int)
  granted : Nat
deriving DecidableEq, Repr

def DmaState.reset : DmaState := { chans := [], posted := [], credit := [], granted := 63 }

structure DramState where
  /-- data bytes by BAR2 offset (R259) -/
  mem : List Host.Cell
  /-- damaged 8-byte words, by BAR2 offset (R256) -/
  bad : List Nat
  /-- training attempts failed, by channel (R254) -/
  fails : List (Nat × Nat)
  /-- channels that a requested re-centering still has to do (R261) -/
  recenter : List Nat
deriving DecidableEq, Repr

def DramState.reset : DramState := { mem := [], bad := [], fails := [], recenter := [] }

/-- What the last access returned to its requester: the bytes read, and how it completed. -/
structure Resp where
  data : List Nat
  /-- the error completion (R5, R446), and the poisoned bit (R256) -/
  err : Bool
  poison : Bool
deriving DecidableEq, Repr

def Resp.reset : Resp := { data := [], err := false, poison := false }

/-! ### Chapter 12: survey, blitter, scan-out -/

/-- The crossing whose rows SRV is taking: each row as the cells of the four survey channels (R262, R263). -/
structure SrvCross where
  x : Nat
  cut : Bool
  rows : List (List (List Nat))
deriving DecidableEq, Repr

/-- What a composition sampled at its start (R267). -/
structure Comp where
  seq : Nat
  clear : Bool
  /-- banked SRV registers that do not read their reset value -/
  regs : List (Nat × Word)
  /-- the completed page: its base, its bytes, and whether it is valid -/
  page : Nat
  counts : List Host.Cell
  valid : Bool
  snap : List (List (List Nat))
deriving DecidableEq, Repr

/-- A running blit: its registers as sampled at GO (R274). -/
structure Blit where
  src : Nat
  srcF : Word
  dst : Nat
  dstF : Word
  w : Nat
  h : Nat
  clip0 : Word
  clip1 : Word
  fill : Word
  op : Nat
  wm : Nat
deriving DecidableEq, Repr

structure SrvState where
  cur : Option SrvCross
  /-- rows in the row buffer, 0 to 128 (R169) -/
  waiting : Nat
  /-- the latest-crossing snapshot: XID bits [31:0], rows (R266) -/
  snap : Option (Nat × List (List (List Nat)))
  /-- the period: number of its first orbit, NORB (R264) -/
  period : Option (Nat × Nat)
  /-- a new period begins with the first orbit that begins after this slot (R265) -/
  waitFrom : Nat
  /-- CUT count of the filling page -/
  cut : Nat
  /-- the completed page's first orbit and NORB, until a read latches them (R264) -/
  pageX : Nat × Nat
  comp : Option Comp
  /-- a frame swap waits; SEQ that its composition used (R271) -/
  swapSeq : Option Nat
  front : Nat
  /-- SEQ and TB_RTIME of the last frame swap, until a read latches them -/
  lastSwap : Nat × Nat
  /-- swaps since the last clone (R279) -/
  divCount : Nat
  /-- freeze detector (R283): CRC of the previous frame, unchanged frames, a sum changed in this run, fired in this run, last sum -/
  prevCrc : Nat
  frzRun : Nat
  frzDiff : Bool
  frzFired : Bool
  prevSum : Option Nat
  /-- vertical blankings without a swap (R282) -/
  noSwap : Nat
  /-- the timing in use: HT0, HT1, VT0, VT1, PCLK as sampled when EN was set (R278) -/
  timing : List Word
  /-- lines of the current frame whose fetch fell short: line, first pixel that shows SRV_BGCOLOR (R278) -/
  short : List (Nat × Nat)
  /-- the sink reports a fast-training method (R282) -/
  fastLink : Bool
  /-- lane count and rate (as SRV_DCTL codes them) that training tries (R281) -/
  tryLanes : Nat
  tryRate : Nat
  blit : Option Blit
  /-- DRAM words that the blitter has written while the composition runs (R272) -/
  raced : List Nat
deriving DecidableEq, Repr

def SrvState.reset : SrvState :=
  { cur := none, waiting := 0, snap := none, period := none, waitFrom := 0, cut := 0, pageX := (0, 0), comp := none, swapSeq := none,
    front := 0, lastSwap := (0, 0), divCount := 0, prevCrc := 0, frzRun := 0, frzDiff := false, frzFired := false,
    prevSum := none, noSwap := 0, timing := [], short := [], fastLink := false, tryLanes := 0, tryRate := 0, blit := none, raced := [] }

/-! ### Chapter 13: converter loops -/

/-- The values of a PWM pair that R295 takes over together. -/
structure PwmVals where
  per : Nat
  dutyA : Nat
  dutyB : Nat
  dta : Nat
  dtb : Nat
  align : Nat
deriving DecidableEq, Repr

/-- What a pair's waveforms do (R294): the reference waveform rises or falls (`second`: that of output B in independent mode), or a
delayed rise of A or B. -/
inductive PwmEv where
  | rise (second : Bool)
  | fall (second : Bool)
  | aRise
  | bRise
deriving DecidableEq, Repr

/-- An edge not yet produced, and its time in eighths of a picosecond on the axis of `TbState.ps`. -/
structure PwmEdge where
  t : Nat
  ev : PwmEv
deriving DecidableEq, Repr

structure PwmX where
  /-- the counter runs (R304) -/
  run : Bool
  /-- start of the period, and the REFCLK cycle in which it fell -/
  start : Nat
  startCyc : Nat
  /-- length of the period in fine units, and whether it was cut by R296 -/
  fin : Nat
  short : Bool
  cur : PwmVals
  pend : PwmVals
  /-- reference waveforms, and the outputs before any forcing -/
  w : Bool
  w2 : Bool
  a : Bool
  b : Bool
  edges : List PwmEdge
  /-- edges deferred until a run of sensitive slots ends (R297) -/
  waits : List PwmEv
  /-- duty account; fine units that W was high in this period; since when W is high (R298) -/
  acct : Int
  high : Nat
  since : Nat
  /-- at its safe levels until the next period start (R291, R306) -/
  forced : Bool
  /-- tripped at some time in this period, so that the account stands (R298) -/
  hit : Bool
  /-- by how much deferral has moved the rise of this period's waveform, and of B's own one (R297) -/
  shift : Nat
  shift2 : Nat
  /-- the waveform has risen in this period (R295); when W last changed -/
  risen : Bool
  risen2 : Bool
  wAt : Nat
deriving DecidableEq, Repr

def PwmX.idle : PwmX :=
  { run := false, start := 0, startCyc := 0, fin := 0, short := false,
    cur := { per := 1024, dutyA := 0, dutyB := 0, dta := 0, dtb := 0, align := 0 },
    pend := { per := 1024, dutyA := 0, dutyB := 0, dta := 0, dtb := 0, align := 0 },
    w := false, w2 := false, a := false, b := false, edges := [], waits := [], acct := 0, high := 0, since := 0,
    forced := false, hit := false, shift := 0, shift2 := 0, risen := false, risen2 := false, wAt := 0 }

/-- The history of one biquad section (R300, R313). -/
structure Biquad where
  in1 : Int
  in2 : Int
  y1 : Int
  y2 : Int
deriving DecidableEq, Repr

def Biquad.zero : Biquad := { in1 := 0, in2 := 0, y1 := 0, y2 := 0 }

structure LoopX where
  s0 : Biquad
  s1 : Biquad
  sp : Int
  /-- sp has been seeded (R304) -/
  seeded : Bool
  /-- periods of SGEN until the next one in which the loop samples; it samples in this one (R301) -/
  left : Nat
  due : Bool
  out : Int
  /-- an output waits to become pending at the target, and when its sample was taken -/
  ready : Option Nat
  /-- held since its last sample (R302) -/
  held : Bool
deriving DecidableEq, Repr

def LoopX.idle : LoopX :=
  { s0 := Biquad.zero, s1 := Biquad.zero, sp := 0, seeded := false, left := 0, due := false, out := 0, ready := none, held := false }

structure CvlState where
  pairs : List (Nat × PwmX)
  loops : List (Nat × LoopX)
  /-- conversions running: cell, code (R286) -/
  conv : List (Nat × Nat)
  /-- codes that loops (by loop) and voice buses (by cell) give to cells (R287) -/
  loopCode : List (Nat × Nat)
  busCode : List (Nat × Nat)
  /-- the input of a comparator in microvolts, where it has been given (R288) -/
  ain : List (Nat × Nat)
  /-- comparators in a blanking window (R289) -/
  blank : List Nat
  /-- latched and cycle trips: comparator, group; 1000 where a damaged item tripped (R290, R291, R307) -/
  latched : List (Nat × Nat)
  cycle : List (Nat × Nat)
  /-- periods of PAIR0 since the last step of a microstep unit (R303) -/
  msCount : List (Nat × Nat)
deriving DecidableEq, Repr

def CvlState.reset : CvlState :=
  { pairs := [], loops := [], conv := [], loopCode := [], busCode := [], ain := [], blank := [], latched := [], cycle := [], msCount := [] }

/-! ### Chapter 14: voices -/

structure Voice where
  run : Bool
  phase : Nat
  cyc : Nat
  lfsr : Nat
  /-- starts that wait: bus samples still to pass (R315) -/
  starts : List Nat
  /-- samples still to pass before the start that a write asked for is applied: VOX_VCTL.START reads 1 (R319) -/
  asked : Option Nat
deriving DecidableEq, Repr

def Voice.idle : Voice := { run := false, phase := 0, cyc := 0, lfsr := 0, starts := [], asked := none }

structure Bus where
  sections : List (Nat × Biquad)
  /-- estimates of the inputs, once seeded: input, e (R313) -/
  est : List (Nat × Int)
  peak : Nat
  hold : Nat
  ms : Nat
  /-- samples not yet delivered, oldest first, and the last one delivered: s16 and DAC code (R311) -/
  flight : List (Int × Nat)
  out : Int
  code : Nat
deriving DecidableEq, Repr

def Bus.idle : Bus := { sections := [], est := [], peak := 0, hold := 0, ms := 0, flight := [], out := 0, code := 0 }

structure VoxState where
  voices : List (Nat × Voice)
  buses : List (Nat × Bus)
deriving DecidableEq, Repr

def VoxState.reset : VoxState := { voices := [], buses := [] }

/-! ### Chapters 16 and 17: Sepia cores -/

/-- The state of a thread (R362). -/
inductive ThrState where
  | notStarted
  | running
  | halted
  | stopped
deriving DecidableEq, Repr

/-- What a long operation will give (R345, R346). -/
inductive LongKind where
  /-- this value -/
  | value (v : Word)
  /-- a divide by zero with SW.DZE = 1 -/
  | divZero
  /-- a load of the DRAM window: address, bytes, sign-extended; the rights were there when it issued; the bytes as they stood then -/
  | load (addr size : Nat) (signed rights : Bool) (val : Nat)
deriving DecidableEq, Repr

/-- A long operation outstanding: destination (0: none left), its own address, its place in program order. -/
structure LongOp where
  rd : Nat
  pc : Word
  seq : Nat
  kind : LongKind
deriving DecidableEq, Repr

/-- A fault of a long operation, detected and not yet taken: place in program order, vector, address of the operation, address of
the access (R346). -/
structure DueFault where
  seq : Nat
  vec : Nat
  pc : Word
  addr : Nat
deriving DecidableEq, Repr

/-- A buffered store: data address, bytes, value (R342). -/
structure SbEntry where
  addr : Nat
  size : Nat
  val : Nat
deriving DecidableEq, Repr

/-- A WFE or WAITT in progress (R372, R374). -/
inductive Waiting where
  | wfe (rd mask : Nat)
  | timer (rd : Nat) (target : Word) (n mask : Nat)
deriving DecidableEq, Repr

/-- One hardware thread (R338 to R361). -/
structure Thread where
  state : ThrState
  /-- g1 to g15 (R366) -/
  g : List (Nat × Word)
  pc : Word
  sw : Word
  epc : Word
  esw : Word
  xsp : Word
  splo : Word
  sphi : Word
  ml : Word
  mh : Word
  /-- event bits (R372) -/
  ev : Nat
  vbr : Word
  /-- prefetch queue from pc on: a word, or none where the fetch faults (R340) -/
  queue : List (Option Word)
  /-- the register that the last instruction loaded, and its value before, which the next one still reads (R339, open mode) -/
  old : Option (Nat × Word)
  /-- products on their way to ML and MH: instructions left, values (R339) -/
  mul : List (Nat × Option Word × Option Word)
  /-- long operations outstanding, in program order, their count so far, and the faults detected -/
  longs : List LongOp
  nlong : Nat
  due : List DueFault
  /-- store buffer, oldest first -/
  sb : List SbEntry
  /-- privilege shadow, top first (R353) -/
  shadow : List Nat
  /-- private I/O (R357) -/
  fcause : Word
  fpc : Word
  faddr : Word
  xg15 : Word
  wait : Option Waiting
  /-- a repeat pair has done an element and is not at its end (R376, R377) -/
  mid : Bool
deriving DecidableEq, Repr

/-- A thread that has not started. -/
def Thread.idle : Thread :=
  { state := .notStarted, g := [], pc := 0, sw := 0x01000000, epc := 0, esw := 0, xsp := 0, splo := 0, sphi := 0, ml := 0, mh := 0,
    ev := 0, vbr := 0, queue := [], old := none, mul := [], longs := [], nlong := 0, due := [], sb := [], shadow := [],
    fcause := 0, fpc := 0, faddr := 0, xg15 := 0, wait := none, mid := false }

structure SepState where
  /-- threads that are not as `Thread.idle`: key 4c + t -/
  threads : List (Nat × Thread)
  /-- bytes of the core memories, by `imemKey` and `dmemKey` -/
  mem : List Host.Cell
  /-- damaged words of them -/
  bad : List Nat
  /-- the thread of a core whose turn comes next, 0 where not listed (R338) -/
  turn : List (Nat × Nat)
deriving DecidableEq, Repr

def SepState.reset : SepState := { threads := [], mem := [], bad := [], turn := [] }

/-! ### The whole state -/

structure State where
  /-- commands that wait, first in, first out -/
  pending : List Instr
  /-- REFCLK cycles since power-on (R43) -/
  cycle : Nat
  /-- what the present REFCLK cycle remembers -/
  cyc : Cycle
  /-- registers that do not read their reset value, by BAR0 offset: live values -/
  regs : List (Nat × Word)
  /-- staged values of banked registers, by BAR0 offset (R34) -/
  staged : List (Nat × Word)
  /-- BAR0 offsets of words with an uncorrectable error (R485, log 11) -/
  ecc : List Nat
  /-- cores whose private interrupt source 20 is active (R385) -/
  irqEcc : List Nat
  /-- the model's own counter: free values and nonces taken so far (log 24) -/
  freeCtr : Nat
  /-- bytes of the BAR0 SRAM windows, by BAR0 offset (R3) -/
  sram : List Host.Cell
  /-- interrupts and mailboxes -/
  irq : IrqState
  /-- timers and event counters -/
  tmr : TmrState
  /-- pins -/
  pin : PinState
  /-- images, retained store, journal -/
  img : ImgState
  /-- management port -/
  pcie : PcieState
  /-- resets and domains -/
  rst : RstState
  /-- Mordant -/
  flt : FltState
  /-- time base -/
  tb : TbState
  /-- flip -/
  flip : FlipState
  /-- release -/
  rel : RelState
  /-- lane array -/
  lnk : LnkState
  /-- Madder -/
  mdr : MdrState
  /-- ingress -/
  ing : IngState
  /-- conditioning -/
  cnd : CndState
  /-- playfield -/
  pf : PfState
  /-- object engines -/
  obj : ObjState
  /-- decision unit -/
  dec : DecState
  /-- readout -/
  ro : RoState
  /-- queues -/
  qm : QmState
  /-- DMA channels -/
  dma : DmaState
  /-- reduced-latency DRAM -/
  dram : DramState
  /-- what the last access returned -/
  resp : Resp
  /-- survey, blitter, scan-out -/
  srv : SrvState
  /-- converter loops -/
  cvl : CvlState
  /-- voices -/
  vox : VoxState
  /-- Sepia cores -/
  sep : SepState
deriving DecidableEq, Repr

/-- Why a step stops although the spec gives the command an effect: no command of this model raises one (safe). -/
inductive Fault where
  /-- never raised: the TX48's own errors are error lines and status bits, which are state (safe) -/
  | none
deriving DecidableEq, Repr

/-- Why a command is refused. -/
inductive Refusal where
  /-- raised by Dispatch.lean alone, for a command that has no meaning yet; none is left (safe) -/
  | notModelled (mnemonic : String)
deriving DecidableEq, Repr

/-- The TX48 at REFCLK cycle 0 of its power-on reset (R428, R430): only PD00 is up, every register reads its Reset column, and no
memory holds anything (log 3, log 4, log 6). -/
def State.reset : State where
  pending := []
  cycle := 0
  cyc := Cycle.clear 0
  regs := []
  staged := []
  ecc := []
  irqEcc := []
  freeCtr := 0
  sram := []
  irq := IrqState.reset
  tmr := TmrState.reset
  pin := PinState.reset
  img := ImgState.reset
  pcie := PcieState.reset
  rst := RstState.reset
  flt := FltState.reset
  tb := TbState.reset
  flip := FlipState.reset
  rel := RelState.reset
  lnk := LnkState.reset
  mdr := MdrState.reset
  ing := IngState.reset
  cnd := CndState.reset
  pf := PfState.reset
  obj := ObjState.reset
  dec := DecState.reset
  ro := RoState.reset
  qm := QmState.reset
  dma := DmaState.reset
  dram := DramState.reset
  resp := Resp.reset
  srv := SrvState.reset
  cvl := CvlState.reset
  vox := VoxState.reset
  sep := SepState.reset

end Sys2Proof.Machine
end

