-- ==== Sys2Proof/Machine/Flit.lean ====
section
/-! DEFINITION. Flits (R94, R95, R97, R98, R105, R112, R129): crossing frames, negotiation messages and control messages as the flits
that carry them; codeword and block lock (R92, R93). What lies below the flit, the line code, is in log 42. -/
namespace Sys2Proof.Machine

/-! ### Flits (R94) -/

/-- Bits of a flit's body: 120 at v1, 248 otherwise. -/
def bodyBits (ver : Nat) : Nat := if ver = 1 then 120 else 248

/-- A flit of type `ft` with header field `fh`; a v1 flit takes the low 128 bits. -/
def mkFlit (ver ft fh body : Nat) : BitVec 256 :=
  BitVec.ofNat 256 (body % 2 ^ bodyBits ver + 2 ^ bodyBits ver * (ft % 16 * 16 + fh % 16))

def flitType (ver : Nat) (f : BitVec 256) : Nat := f.toNat / 2 ^ (bodyBits ver + 4) % 16

def flitHead (ver : Nat) (f : BitVec 256) : Nat := f.toNat / 2 ^ bodyBits ver % 16

def flitBody (ver : Nat) (f : BitVec 256) : Nat := f.toNat % 2 ^ bodyBits ver

/-- The number that bodies spell together, the first one lowest, as R129 numbers bits in transmission order. -/
def joinBodies (w : Nat) : List Nat → Nat
  | [] => 0
  | b :: r => b % 2 ^ w + 2 ^ w * joinBodies w r

/-- `n` bodies of `w` bits that spell a number. -/
def cutBodies (w : Nat) : Nat → Nat → List Nat
  | 0, _ => []
  | n + 1, v => v % 2 ^ w :: cutBodies w n (v / 2 ^ w)

/-! ### Crossing frames (R97, R98) -/

/-- Bits of DATA0 in a HEAD body. -/
def headBits (ver : Nat) : Nat := if ver = 1 then 48 else 128

/-- The body of a HEAD flit. -/
def headBody (ver : Nat) (f : SentFrame) : Nat :=
  let d := f.data % 2 ^ headBits ver
  if ver = 1 then
    b2n f.om * 2 ^ 119 + b2n f.fv * 2 ^ 118 + f.stat % 16 * 2 ^ 112 + f.slot % 65536 * 2 ^ 96 + f.orbit % 256 * 2 ^ 88 +
      f.fcmd % 256 * 2 ^ 80 + (255 - f.fcmd % 256) * 2 ^ 72 + f.fcx % 65536 * 2 ^ 56 + f.cccred % 256 * 2 ^ 48 + d
  else
    b2n f.om * 2 ^ 247 + b2n f.fv * 2 ^ 246 + f.stat % 16 * 2 ^ 240 + f.slot % 65536 * 2 ^ 224 + f.orbit % 65536 * 2 ^ 208 +
      f.fcmd % 256 * 2 ^ 200 + (255 - f.fcmd % 256) * 2 ^ 192 + f.fcx % 65536 * 2 ^ 176 + f.cccred % 256 * 2 ^ 168 + d

/-- The CRC of a frame: over the HEAD body and the DATA bodies, which spell `d` less their last 32 bits. -/
def frameCrc (ver k head d : Nat) : Nat :=
  crc32 (leBytes (bodyBits ver / 8) head ++ leBytes (bodyBits ver / 8 * (k - 1) - 4) d)

/-- The K flits of a frame: HEAD, then K - 1 DATA flits that carry their index. -/
def frameFlits (ver k : Nat) (f : SentFrame) : List (BitVec 256) :=
  let w := bodyBits ver
  let h := headBody ver f
  let room := w * (k - 1) - 32
  let d := f.data / 2 ^ headBits ver % 2 ^ room
  mkFlit ver 1 0 h :: ((cutBodies w (k - 1) (d + 2 ^ room * frameCrc ver k h d)).zipIdx 1).map fun p => mkFlit ver 2 p.2 p.1

/-- What a receiver reads from the K flits that stand where a frame stands, the first where its HEAD stands. -/
def readFrame (ver k : Nat) (r : RxFrame) : Frame :=
  let w := bodyBits ver
  let h := flitBody ver (r.flits.headD 0)
  let t := joinBodies w (r.flits.tail.map (flitBody ver))
  let room := w * (k - 1) - 32
  let at_ := fun lo n => h / 2 ^ (if ver = 1 then lo else lo + 128) % 2 ^ n
  { head := decide (r.flits ≠ []) && decide (flitType ver (r.flits.headD 0) = 1),
    typesOk := decide (r.flits.length = k) && r.flits.tail.all fun f => decide (flitType ver f = 2),
    crcOk := decide (t / 2 ^ room = frameCrc ver k h (t % 2 ^ room)),
    uncorr := r.uncorr, newUncorr := r.newUncorr, corr := r.corr,
    om := decide (at_ 119 1 = 1), fv := decide (at_ 118 1 = 1), stat := at_ 112 4, slot := at_ 96 16,
    orbit := if ver = 1 then at_ 88 8 else at_ 80 16,
    fcmd := if ver = 1 then at_ 80 8 else at_ 72 8,
    nfcmd := if ver = 1 then at_ 72 8 else at_ 64 8,
    fcx := if ver = 1 then at_ 56 16 else at_ 48 16,
    cccred := if ver = 1 then at_ 48 8 else at_ 40 8,
    data := h % 2 ^ headBits ver + 2 ^ headBits ver * (t % 2 ^ room) }

/-! ### Negotiation messages (R105) -/

/-- The eight HELLO flits of a message: flit i carries its index, MTYPE, and words 2i (high) and 2i + 1. -/
def msgFlits (ver mtype : Nat) (ws : List Nat) : List (BitVec 256) :=
  (List.range 8).map fun i =>
    mkFlit ver 4 i (i * 2 ^ 116 + mtype % 16 * 2 ^ 112 + ws.getD (2 * i) 0 % 2 ^ 32 * 2 ^ 32 + ws.getD (2 * i + 1) 0 % 2 ^ 32)

/-- The 16 words of a message of type `mtype`; none where flits are missing, or of another type or MTYPE. -/
def readMsg (ver mtype : Nat) (fs : List (BitVec 256)) : List Nat :=
  if fs.length = 8 ∧ (fs.zipIdx.all fun p => decide (flitType ver p.1 = 4) && decide (flitBody ver p.1 / 2 ^ 116 % 16 = p.2) &&
      decide (flitBody ver p.1 / 2 ^ 112 % 16 = mtype)) = true then
    fs.flatMap fun f => [flitBody ver f / 2 ^ 32 % 2 ^ 32, flitBody ver f % 2 ^ 32]
  else []

/-! ### Control messages (R112) -/

/-- MH as a number. -/
def ccHeader (m : CcMsg) : Nat := m.mtype * 2 ^ 56 + m.len * 2 ^ 48 + m.seq

/-- The payload words of a message, LEN of them. -/
def ccWords (m : CcMsg) : List Nat := ((m.payload.map (· % 2 ^ 32)) ++ List.replicate m.len 0).take m.len

/-- The segments that a message of `len` words takes at a version. -/
def ccSegs (ver len : Nat) : Nat := (128 + 32 * len + bodyBits ver - 1) / bodyBits ver

/-- The CTRL flits of a message: FIRST and LAST mark its ends; the bodies spell MH, payload, TAG and zeros. -/
def ccFlits (ver : Nat) (m : CcMsg) : List (BitVec 256) :=
  let n := ccSegs ver m.len
  let v := ccHeader m % 2 ^ 64 + 2 ^ 64 * joinBodies 32 (ccWords m) + 2 ^ (64 + 32 * m.len) * m.tag.toNat
  (cutBodies (bodyBits ver) n v).zipIdx.map fun p =>
    mkFlit ver 3 (b2n (decide (p.2 = 0)) * 8 + b2n (decide (p.2 + 1 = n)) * 4) p.1

/-- A message as its CTRL flits spell it. -/
def readCc (ver : Nat) (fs : List (BitVec 256)) : CcMsg :=
  let v := joinBodies (bodyBits ver) (fs.map (flitBody ver))
  let len := v / 2 ^ 48 % 256
  { first := (fs.zipIdx.all fun p => decide (flitType ver p.1 = 3) &&
      decide (flitHead ver p.1 / 8 % 2 = b2n (decide (p.2 = 0))) &&
      decide (flitHead ver p.1 / 4 % 2 = b2n (decide (p.2 + 1 = fs.length)))),
    segs := fs.length, mtype := v / 2 ^ 56 % 256, len := len, seq := v % 2 ^ 48,
    payload := cutBodies 32 len (v / 2 ^ 64),
    tag := BitVec.ofNat 64 (v / 2 ^ (64 + 32 * len)) }

/-! ### Lock (R92, R93) -/

/-- Each counter is one more than the one before it, modulo 16. -/
def seqRun : List Codeword → Bool
  | a :: b :: r => decide (b.seq = a.seq + 1) && seqRun (b :: r)
  | _ => true

/-- Codeword lock after the last codewords, oldest first: gained by 8 with correct SYNC and CWSEQ, lost by 4 that are uncorrectable or
carry a wrong SYNC. -/
def codewordLockOf (cws : List Codeword) (lock : Bool) : Bool :=
  if lock then !(decide (cws.length = 4) && cws.all fun c => c.bad || decide (c.sync ≠ 0x359#10))
  else decide (cws.length = 8) && (cws.all fun c => decide (c.sync = 0x359#10)) && seqRun cws

/-- A sync header is valid. -/
def syncOk (h : BitVec 2) : Bool := decide (h = 1#2) || decide (h = 2#2)

/-- Block lock after the last sync headers: gained by 64 valid ones, lost by 16 invalid ones within 64. -/
def blockLockOf (hs : List (BitVec 2)) (lock : Bool) : Bool :=
  if lock then !(decide (hs.length ≤ 64) && decide (16 ≤ (hs.filter fun h => !syncOk h).length))
  else decide (hs.length = 64) && hs.all syncOk

end Sys2Proof.Machine
end

