-- ==== Sys2Proof/Machine/RegNames.lean ====
section
/-! DEFINITION. The offsets of the registers and the places of their fields, from the register maps and the field
tables of the chapters of spec/ (one offset per row of a register map, one field per row of a field table).
`Fld` is a field of a register word; an indexed register is a function of its indices. -/
namespace Sys2Proof.Machine

/-- A field of a 32-bit register: the BAR0 byte offset of the register, the field's highest and lowest bit. -/
structure Fld where
  off : Nat
  hi : Nat
  lo : Nat
deriving DecidableEq, Repr

namespace Reg

/-! ### GBL -/

/-- GBL_FLIP (R44): Request or cancel a flip. -/
abbrev GBL_FLIP : Nat := 0x00000100
abbrev GBL_FLIP_REQ : Fld := ⟨GBL_FLIP, 31, 31⟩
abbrev GBL_FLIP_CANCEL : Fld := ⟨GBL_FLIP, 30, 30⟩
abbrev GBL_FLIP_JOURNAL : Fld := ⟨GBL_FLIP, 29, 29⟩
abbrev GBL_FLIP_ATEN : Fld := ⟨GBL_FLIP, 28, 28⟩
abbrev GBL_FLIP_AT : Fld := ⟨GBL_FLIP, 15, 0⟩
/-- GBL_FLIPSTAT (R44): Flip and journal state. -/
abbrev GBL_FLIPSTAT : Nat := 0x00000104
abbrev GBL_FLIPSTAT_COUNT : Fld := ⟨GBL_FLIPSTAT, 31, 16⟩
abbrev GBL_FLIPSTAT_JERR : Fld := ⟨GBL_FLIPSTAT, 7, 7⟩
abbrev GBL_FLIPSTAT_JBUSY : Fld := ⟨GBL_FLIPSTAT, 6, 6⟩
abbrev GBL_FLIPSTAT_WDROP : Fld := ⟨GBL_FLIPSTAT, 5, 5⟩
abbrev GBL_FLIPSTAT_BUSY : Fld := ⟨GBL_FLIPSTAT, 3, 3⟩
abbrev GBL_FLIPSTAT_LOCKED : Fld := ⟨GBL_FLIPSTAT, 2, 2⟩
abbrev GBL_FLIPSTAT_PEND : Fld := ⟨GBL_FLIPSTAT, 1, 1⟩
/-- GBL_FLIPSTAMP[0] (R42): Orbit number of the last swap, bits [31:0]; a read latches [1] to [3]. -/
abbrev GBL_FLIPSTAMP0 : Nat := 0x00000110
abbrev GBL_FLIPSTAMP0_ORB_L : Fld := ⟨GBL_FLIPSTAMP0, 31, 0⟩
/-- GBL_FLIPSTAMP[1] (R42): Orbit number of the last swap, bits [47:32]. -/
abbrev GBL_FLIPSTAMP1 : Nat := 0x00000114
abbrev GBL_FLIPSTAMP1_ORB_H : Fld := ⟨GBL_FLIPSTAMP1, 15, 0⟩
/-- GBL_FLIPSTAMP[2] (R42): Reference time of the last swap, bits [31:0]. -/
abbrev GBL_FLIPSTAMP2 : Nat := 0x00000118
abbrev GBL_FLIPSTAMP2_TIME_L : Fld := ⟨GBL_FLIPSTAMP2, 31, 0⟩
/-- GBL_FLIPSTAMP[3] (R42): Reference time of the last swap, bits [63:32]. -/
abbrev GBL_FLIPSTAMP3 : Nat := 0x0000011C
abbrev GBL_FLIPSTAMP3_TIME_H : Fld := ⟨GBL_FLIPSTAMP3, 31, 0⟩
/-- GBL_ID (R426): Part and stepping. -/
abbrev GBL_ID : Nat := 0x00000000
abbrev GBL_ID_PART : Fld := ⟨GBL_ID, 31, 16⟩
abbrev GBL_ID_STEP : Fld := ⟨GBL_ID, 15, 8⟩
/-- GBL_STRAP (R426): Straps sampled at power-on reset. -/
abbrev GBL_STRAP : Nat := 0x00000004
abbrev GBL_STRAP_BOOT : Fld := ⟨GBL_STRAP, 4, 3⟩
abbrev GBL_STRAP_CLK : Fld := ⟨GBL_STRAP, 2, 1⟩
abbrev GBL_STRAP_MST : Fld := ⟨GBL_STRAP, 0, 0⟩
/-- GBL_CTL (R426): Remote control channel enable. -/
abbrev GBL_CTL : Nat := 0x00000008
abbrev GBL_CTL_REMOTE_EN : Fld := ⟨GBL_CTL, 0, 0⟩
/-- GBL_STATE (R426): Image state. -/
abbrev GBL_STATE : Nat := 0x0000000C
abbrev GBL_STATE_STATE : Fld := ⟨GBL_STATE, 11, 8⟩
abbrev GBL_STATE_SLOT : Fld := ⟨GBL_STATE, 5, 4⟩
abbrev GBL_STATE_CAND : Fld := ⟨GBL_STATE, 3, 3⟩
abbrev GBL_STATE_RECOV : Fld := ⟨GBL_STATE, 2, 2⟩
abbrev GBL_STATE_OKSEEN : Fld := ⟨GBL_STATE, 1, 1⟩
/-- GBL_STARTOK (R426): Successful start (R420). -/
abbrev GBL_STARTOK : Nat := 0x00000010
abbrev GBL_STARTOK_CODE : Fld := ⟨GBL_STARTOK, 31, 16⟩
/-- GBL_IMGID_LO (R426): Running image IMGID, bits [31:0]. -/
abbrev GBL_IMGID_LO : Nat := 0x00000014
abbrev GBL_IMGID_LO_ID : Fld := ⟨GBL_IMGID_LO, 31, 0⟩
/-- GBL_IMGID_HI (R426): Running image IMGID, bits [63:32]. -/
abbrev GBL_IMGID_HI : Nat := 0x00000018
abbrev GBL_IMGID_HI_ID : Fld := ⟨GBL_IMGID_HI, 31, 0⟩
/-- GBL_IMGSEQ (R426): Running image SEQ. -/
abbrev GBL_IMGSEQ : Nat := 0x0000001C
abbrev GBL_IMGSEQ_SEQ : Fld := ⟨GBL_IMGSEQ, 31, 0⟩

/-! ### TB -/

/-- TB_CTL (R43): Marker ignore, RESYNC enable, orbit-number load. -/
abbrev TB_CTL : Nat := 0x00100000
abbrev TB_CTL_LOAD : Fld := ⟨TB_CTL, 2, 2⟩
abbrev TB_CTL_RESYNCEN : Fld := ⟨TB_CTL, 1, 1⟩
abbrev TB_CTL_MKIGN : Fld := ⟨TB_CTL, 0, 0⟩
/-- TB_STAT (R43): Lock state, source and events. -/
abbrev TB_STAT : Nat := 0x00100004
abbrev TB_STAT_STRAPERR : Fld := ⟨TB_STAT, 10, 10⟩
abbrev TB_STAT_VOIDING : Fld := ⟨TB_STAT, 9, 9⟩
abbrev TB_STAT_MISS : Fld := ⟨TB_STAT, 8, 8⟩
abbrev TB_STAT_LOSS : Fld := ⟨TB_STAT, 7, 7⟩
abbrev TB_STAT_SLIP : Fld := ⟨TB_STAT, 6, 6⟩
abbrev TB_STAT_SRC : Fld := ⟨TB_STAT, 3, 2⟩
abbrev TB_STAT_STATE : Fld := ⟨TB_STAT, 1, 0⟩
/-- TB_CFG (R43): Source, divider and marker source, from the image. -/
abbrev TB_CFG : Nat := 0x00100008
abbrev TB_CFG_MKEDGE : Fld := ⟨TB_CFG, 8, 8⟩
abbrev TB_CFG_DIV : Fld := ⟨TB_CFG, 7, 4⟩
abbrev TB_CFG_MKNONE : Fld := ⟨TB_CFG, 3, 3⟩
abbrev TB_CFG_MKSRC : Fld := ⟨TB_CFG, 2, 2⟩
abbrev TB_CFG_SRC : Fld := ⟨TB_CFG, 1, 0⟩
/-- TB_ORBLEN (R43): Nominal orbit length, from the image. -/
abbrev TB_ORBLEN : Nat := 0x0010000C
abbrev TB_ORBLEN_ORBLEN : Fld := ⟨TB_ORBLEN, 16, 0⟩
/-- TB_INTGEN (R43): Internal generator increment, from the image. -/
abbrev TB_INTGEN : Nat := 0x00100010
abbrev TB_INTGEN_INC : Fld := ⟨TB_INTGEN, 23, 0⟩
/-- TB_SLIPMAX (R43): Slip window (banked). -/
abbrev TB_SLIPMAX : Nat := 0x00100014
abbrev TB_SLIPMAX_SLIPMAX : Fld := ⟨TB_SLIPMAX, 6, 0⟩
/-- TB_LOSS (R43): Missed-marker limit and void orbits (banked). -/
abbrev TB_LOSS : Nat := 0x00100018
abbrev TB_LOSS_MISSMAX : Fld := ⟨TB_LOSS, 19, 16⟩
abbrev TB_LOSS_VOIDORB : Fld := ⟨TB_LOSS, 7, 0⟩
/-- TB_CURLEN (R43): Length of the current orbit. -/
abbrev TB_CURLEN : Nat := 0x0010001C
abbrev TB_CURLEN_LEN : Fld := ⟨TB_CURLEN, 16, 0⟩
/-- TB_XID_LO (R43): Current XID, low word. -/
abbrev TB_XID_LO : Nat := 0x00100020
abbrev TB_XID_LO_ORBIT_L : Fld := ⟨TB_XID_LO, 31, 16⟩
abbrev TB_XID_LO_SLOT : Fld := ⟨TB_XID_LO, 15, 0⟩
/-- TB_XID_HI (R43): Current XID, high word. -/
abbrev TB_XID_HI : Nat := 0x00100024
abbrev TB_XID_HI_ORBIT_H : Fld := ⟨TB_XID_HI, 31, 0⟩
/-- TB_ORBLOAD_LO (R43): Orbit number to load, bits [31:0]. -/
abbrev TB_ORBLOAD_LO : Nat := 0x00100028
abbrev TB_ORBLOAD_LO_ORB_L : Fld := ⟨TB_ORBLOAD_LO, 31, 0⟩
/-- TB_ORBLOAD_HI (R43): Orbit number to load, bits [47:32]. -/
abbrev TB_ORBLOAD_HI : Nat := 0x0010002C
abbrev TB_ORBLOAD_HI_ORB_H : Fld := ⟨TB_ORBLOAD_HI, 15, 0⟩
/-- TB_RTIME_LO (R43): Reference time, low word. -/
abbrev TB_RTIME_LO : Nat := 0x00100030
abbrev TB_RTIME_LO_TIME_L : Fld := ⟨TB_RTIME_LO, 31, 0⟩
/-- TB_RTIME_HI (R43): Reference time, high word. -/
abbrev TB_RTIME_HI : Nat := 0x00100034
abbrev TB_RTIME_HI_TIME_H : Fld := ⟨TB_RTIME_HI, 31, 0⟩
/-- TB_LASTSLIP (R43): Last applied slip. -/
abbrev TB_LASTSLIP : Nat := 0x00100038
abbrev TB_LASTSLIP_ORBIT_L : Fld := ⟨TB_LASTSLIP, 31, 16⟩
abbrev TB_LASTSLIP_D : Fld := ⟨TB_LASTSLIP, 7, 0⟩
/-- TB_EVCNT (R43): Slip, miss and loss counts. -/
abbrev TB_EVCNT : Nat := 0x0010003C
abbrev TB_EVCNT_LOSS : Fld := ⟨TB_EVCNT, 31, 24⟩
abbrev TB_EVCNT_MISS : Fld := ⟨TB_EVCNT, 23, 16⟩
abbrev TB_EVCNT_SLIP : Fld := ⟨TB_EVCNT, 15, 0⟩

/-! ### REL -/

/-- REL_CTL (R67): Sentinel sticky clear. -/
abbrev REL_CTL : Nat := 0x00200000
abbrev REL_CTL_SMCLR : Fld := ⟨REL_CTL, 0, 0⟩
/-- REL_CFG (R67): Redundancy, broadcast layers, replay depth, stream count, from the image. -/
abbrev REL_CFG : Nat := 0x00200004
abbrev REL_CFG_REDUN : Fld := ⟨REL_CFG, 31, 31⟩
abbrev REL_CFG_BCAST : Fld := ⟨REL_CFG, 19, 16⟩
abbrev REL_CFG_RDEPTH : Fld := ⟨REL_CFG, 15, 8⟩
abbrev REL_CFG_NSTREAM : Fld := ⟨REL_CFG, 4, 0⟩
/-- REL_STAT (R67): Late, replay and supply status. -/
abbrev REL_STAT : Nat := 0x00200008
abbrev REL_STAT_LONG : Fld := ⟨REL_STAT, 8, 8⟩
abbrev REL_STAT_AVSERR : Fld := ⟨REL_STAT, 7, 7⟩
abbrev REL_STAT_AVSMAX : Fld := ⟨REL_STAT, 6, 6⟩
abbrev REL_STAT_FAST : Fld := ⟨REL_STAT, 5, 5⟩
abbrev REL_STAT_RPLFULL : Fld := ⟨REL_STAT, 4, 4⟩
abbrev REL_STAT_LATE : Fld := ⟨REL_STAT, 3, 3⟩
abbrev REL_STAT_RPLACT : Fld := ⟨REL_STAT, 2, 2⟩
/-- REL_CERTPER (R67): Certified slot period T. -/
abbrev REL_CERTPER : Nat := 0x0020000C
abbrev REL_CERTPER_T : Fld := ⟨REL_CERTPER, 23, 0⟩
/-- REL_MEASPER (R67): Measured slot period, last orbit. -/
abbrev REL_MEASPER : Nat := 0x00200010
abbrev REL_MEASPER_PER : Fld := ⟨REL_MEASPER, 23, 0⟩
/-- REL_AVSCTL (R67): Supply adaptation enable, dwell, settle, step (banked). -/
abbrev REL_AVSCTL : Nat := 0x00200014
abbrev REL_AVSCTL_EN : Fld := ⟨REL_AVSCTL, 31, 31⟩
abbrev REL_AVSCTL_DWELL : Fld := ⟨REL_AVSCTL, 23, 16⟩
abbrev REL_AVSCTL_SETTLE : Fld := ⟨REL_AVSCTL, 15, 8⟩
abbrev REL_AVSCTL_STEP : Fld := ⟨REL_AVSCTL, 7, 0⟩
/-- REL_AVSTHR (R67): Slack ceiling and floor (banked). -/
abbrev REL_AVSTHR : Nat := 0x00200018
abbrev REL_AVSTHR_CEIL : Fld := ⟨REL_AVSTHR, 31, 16⟩
abbrev REL_AVSTHR_FLOOR : Fld := ⟨REL_AVSTHR, 15, 0⟩
/-- REL_AVSLIM (R67): Rail and voltage limits (banked). -/
abbrev REL_AVSLIM : Nat := 0x0020001C
abbrev REL_AVSLIM_RAIL : Fld := ⟨REL_AVSLIM, 31, 28⟩
abbrev REL_AVSLIM_VMAX : Fld := ⟨REL_AVSLIM, 25, 16⟩
abbrev REL_AVSLIM_VMIN : Fld := ⟨REL_AVSLIM, 9, 0⟩
/-- REL_AVSSTAT (R67): Supply request state. -/
abbrev REL_AVSSTAT : Nat := 0x00200020
abbrev REL_AVSSTAT_BUSY : Fld := ⟨REL_AVSSTAT, 31, 31⟩
abbrev REL_AVSSTAT_NORESP : Fld := ⟨REL_AVSSTAT, 30, 30⟩
abbrev REL_AVSSTAT_LASTSTAT : Fld := ⟨REL_AVSSTAT, 23, 16⟩
abbrev REL_AVSSTAT_VREQ : Fld := ⟨REL_AVSSTAT, 9, 0⟩
/-- REL_RPLSTAT (R67): Replays in flight. -/
abbrev REL_RPLSTAT : Nat := 0x00200024
abbrev REL_RPLSTAT_INFLIGHT : Fld := ⟨REL_RPLSTAT, 2, 0⟩
/-- REL_RPLCNT (R67): Replay counts. -/
abbrev REL_RPLCNT : Nat := 0x00200028
abbrev REL_RPLCNT_FULL : Fld := ⟨REL_RPLCNT, 31, 24⟩
abbrev REL_RPLCNT_REPLAYS : Fld := ⟨REL_RPLCNT, 23, 0⟩
/-- REL_LAT[s] (R67): L, G and enable of stream s. -/
abbrev REL_LAT (s : Nat) : Nat := 0x00200100 + 0x40 * s
abbrev REL_LAT_EN (s : Nat) : Fld := ⟨REL_LAT s, 31, 31⟩
abbrev REL_LAT_G (s : Nat) : Fld := ⟨REL_LAT s, 23, 16⟩
abbrev REL_LAT_L (s : Nat) : Fld := ⟨REL_LAT s, 10, 0⟩
/-- REL_CERT[s] (R67): Certified B_p and Δ. -/
abbrev REL_CERT (s : Nat) : Nat := 0x00200104 + 0x40 * s
abbrev REL_CERT_BP (s : Nat) : Fld := ⟨REL_CERT s, 31, 16⟩
abbrev REL_CERT_DELTA (s : Nat) : Fld := ⟨REL_CERT s, 15, 0⟩
/-- REL_LATEPAT_LO[s] (R67): Late pattern, bits [31:0] (banked). -/
abbrev REL_LATEPAT_LO (s : Nat) : Nat := 0x00200108 + 0x40 * s
abbrev REL_LATEPAT_LO_PAT_L (s : Nat) : Fld := ⟨REL_LATEPAT_LO s, 31, 0⟩
/-- REL_LATEPAT_HI[s] (R67): Late pattern, bits [63:32] (banked). -/
abbrev REL_LATEPAT_HI (s : Nat) : Nat := 0x0020010C + 0x40 * s
abbrev REL_LATEPAT_HI_VOID (s : Nat) : Fld := ⟨REL_LATEPAT_HI s, 31, 31⟩
abbrev REL_LATEPAT_HI_PAT_H (s : Nat) : Fld := ⟨REL_LATEPAT_HI s, 30, 0⟩
/-- REL_SENT[s] (R67): Primary record of the last orbit; a read latches REL_SENTX[s]. -/
abbrev REL_SENT (s : Nat) : Nat := 0x00200110 + 0x40 * s
abbrev REL_SENT_DLSLOT (s : Nat) : Fld := ⟨REL_SENT s, 31, 16⟩
abbrev REL_SENT_SLACK (s : Nat) : Fld := ⟨REL_SENT s, 15, 0⟩
/-- REL_SENTX[s] (R67): Orbit and replay record, as latched. -/
abbrev REL_SENTX (s : Nat) : Nat := 0x00200114 + 0x40 * s
abbrev REL_SENTX_ORBIT_L (s : Nat) : Fld := ⟨REL_SENTX s, 31, 16⟩
abbrev REL_SENTX_RSLACK (s : Nat) : Fld := ⟨REL_SENTX s, 15, 0⟩
/-- REL_SENTMIN[s] (R67): Sticky minimum primary slack. -/
abbrev REL_SENTMIN (s : Nat) : Nat := 0x00200118 + 0x40 * s
abbrev REL_SENTMIN_MIN (s : Nat) : Fld := ⟨REL_SENTMIN s, 15, 0⟩
/-- REL_LATECNT[s] (R67): Late and dropped counts. -/
abbrev REL_LATECNT (s : Nat) : Nat := 0x0020011C + 0x40 * s
abbrev REL_LATECNT_LATE (s : Nat) : Fld := ⟨REL_LATECNT s, 31, 16⟩
abbrev REL_LATECNT_DROP (s : Nat) : Fld := ⟨REL_LATECNT s, 15, 0⟩

/-! ### LNK -/

/-- LNK_CTL[n] (R89): Error enable, squelch, re-adaptation. -/
abbrev LNK_CTL (n : Nat) : Nat := 0x00300000 + 0x1000 * n
abbrev LNK_CTL_READAPT (n : Nat) : Fld := ⟨LNK_CTL n, 2, 2⟩
abbrev LNK_CTL_LOSERR (n : Nat) : Fld := ⟨LNK_CTL n, 1, 1⟩
abbrev LNK_CTL_TXSQ (n : Nat) : Fld := ⟨LNK_CTL n, 0, 0⟩
/-- LNK_CFG[n] (R89): Mode, permitted rates and polarity, from the image. -/
abbrev LNK_CFG (n : Nat) : Nat := 0x00300004 + 0x1000 * n
abbrev LNK_CFG_RATES (n : Nat) : Fld := ⟨LNK_CFG n, 14, 10⟩
abbrev LNK_CFG_RXINV (n : Nat) : Fld := ⟨LNK_CFG n, 7, 7⟩
abbrev LNK_CFG_TXINV (n : Nat) : Fld := ⟨LNK_CFG n, 6, 6⟩
abbrev LNK_CFG_MODE (n : Nat) : Fld := ⟨LNK_CFG n, 3, 2⟩
/-- LNK_STAT[n] (R89): State, rate and events. -/
abbrev LNK_STAT (n : Nat) : Nat := 0x00300008 + 0x1000 * n
abbrev LNK_STAT_CALERR (n : Nat) : Fld := ⟨LNK_STAT n, 15, 15⟩
abbrev LNK_STAT_PLLERR (n : Nat) : Fld := ⟨LNK_STAT n, 14, 14⟩
abbrev LNK_STAT_FFEERR (n : Nat) : Fld := ⟨LNK_STAT n, 13, 13⟩
abbrev LNK_STAT_LOL (n : Nat) : Fld := ⟨LNK_STAT n, 12, 12⟩
abbrev LNK_STAT_LOS (n : Nat) : Fld := ⟨LNK_STAT n, 11, 11⟩
abbrev LNK_STAT_SIGDET (n : Nat) : Fld := ⟨LNK_STAT n, 10, 10⟩
abbrev LNK_STAT_RATE (n : Nat) : Fld := ⟨LNK_STAT n, 9, 7⟩
abbrev LNK_STAT_STATE (n : Nat) : Fld := ⟨LNK_STAT n, 2, 0⟩
/-- LNK_TXPRE[n] (R89): Pre-cursor taps. -/
abbrev LNK_TXPRE (n : Nat) : Nat := 0x0030000C + 0x1000 * n
abbrev LNK_TXPRE_CM3 (n : Nat) : Fld := ⟨LNK_TXPRE n, 23, 16⟩
abbrev LNK_TXPRE_CM2 (n : Nat) : Fld := ⟨LNK_TXPRE n, 15, 8⟩
abbrev LNK_TXPRE_CM1 (n : Nat) : Fld := ⟨LNK_TXPRE n, 7, 0⟩
/-- LNK_TXMAIN[n] (R89): Main and post-cursor taps, swing. -/
abbrev LNK_TXMAIN (n : Nat) : Nat := 0x00300010 + 0x1000 * n
abbrev LNK_TXMAIN_SWING (n : Nat) : Fld := ⟨LNK_TXMAIN n, 31, 24⟩
abbrev LNK_TXMAIN_C1 (n : Nat) : Fld := ⟨LNK_TXMAIN n, 15, 8⟩
abbrev LNK_TXMAIN_C0 (n : Nat) : Fld := ⟨LNK_TXMAIN n, 7, 0⟩
/-- LNK_RXEQ[n] (R89): Adaptation mode, manual CTLE and VGA. -/
abbrev LNK_RXEQ (n : Nat) : Nat := 0x00300014 + 0x1000 * n
abbrev LNK_RXEQ_ADAPT (n : Nat) : Fld := ⟨LNK_RXEQ n, 31, 30⟩
abbrev LNK_RXEQ_VGA_M (n : Nat) : Fld := ⟨LNK_RXEQ n, 12, 8⟩
abbrev LNK_RXEQ_CTLE_M (n : Nat) : Fld := ⟨LNK_RXEQ n, 4, 0⟩
/-- LNK_RXSTAT[n] (R89): CTLE and VGA in use. -/
abbrev LNK_RXSTAT (n : Nat) : Nat := 0x00300018 + 0x1000 * n
abbrev LNK_RXSTAT_VGA (n : Nat) : Fld := ⟨LNK_RXSTAT n, 12, 8⟩
abbrev LNK_RXSTAT_CTLE (n : Nat) : Fld := ⟨LNK_RXSTAT n, 4, 0⟩
/-- LNK_DFE0[n] (R89): DFE taps 1-4. -/
abbrev LNK_DFE0 (n : Nat) : Nat := 0x0030001C + 0x1000 * n
abbrev LNK_DFE0_TAP1 (n : Nat) : Fld := ⟨LNK_DFE0 n, 7, 0⟩
abbrev LNK_DFE0_TAP2 (n : Nat) : Fld := ⟨LNK_DFE0 n, 15, 8⟩
abbrev LNK_DFE0_TAP3 (n : Nat) : Fld := ⟨LNK_DFE0 n, 23, 16⟩
abbrev LNK_DFE0_TAP4 (n : Nat) : Fld := ⟨LNK_DFE0 n, 31, 24⟩
/-- LNK_DFE1[n] (R89): DFE taps 5-8. -/
abbrev LNK_DFE1 (n : Nat) : Nat := 0x00300020 + 0x1000 * n
abbrev LNK_DFE1_TAP5 (n : Nat) : Fld := ⟨LNK_DFE1 n, 7, 0⟩
abbrev LNK_DFE1_TAP6 (n : Nat) : Fld := ⟨LNK_DFE1 n, 15, 8⟩
abbrev LNK_DFE1_TAP7 (n : Nat) : Fld := ⟨LNK_DFE1 n, 23, 16⟩
abbrev LNK_DFE1_TAP8 (n : Nat) : Fld := ⟨LNK_DFE1 n, 31, 24⟩
/-- LNK_DFE2[n] (R89): DFE taps 9-12. -/
abbrev LNK_DFE2 (n : Nat) : Nat := 0x00300024 + 0x1000 * n
abbrev LNK_DFE2_TAP9 (n : Nat) : Fld := ⟨LNK_DFE2 n, 7, 0⟩
abbrev LNK_DFE2_TAP10 (n : Nat) : Fld := ⟨LNK_DFE2 n, 15, 8⟩
abbrev LNK_DFE2_TAP11 (n : Nat) : Fld := ⟨LNK_DFE2 n, 23, 16⟩
abbrev LNK_DFE2_TAP12 (n : Nat) : Fld := ⟨LNK_DFE2 n, 31, 24⟩
/-- LNK_EYE[n] (R89): Eye monitor. -/
abbrev LNK_EYE (n : Nat) : Nat := 0x00300028 + 0x1000 * n
abbrev LNK_EYE_HEIGHT (n : Nat) : Fld := ⟨LNK_EYE n, 31, 24⟩
abbrev LNK_EYE_WIDTH (n : Nat) : Fld := ⟨LNK_EYE n, 23, 16⟩
abbrev LNK_EYE_EYE (n : Nat) : Fld := ⟨LNK_EYE n, 15, 14⟩
abbrev LNK_EYE_SNR (n : Nat) : Fld := ⟨LNK_EYE n, 9, 0⟩
/-- LNK_TEST[n] (R89): Loopback and pattern control. -/
abbrev LNK_TEST (n : Nat) : Nat := 0x0030002C + 0x1000 * n
abbrev LNK_TEST_RATE (n : Nat) : Fld := ⟨LNK_TEST n, 10, 8⟩
abbrev LNK_TEST_LOOP (n : Nat) : Fld := ⟨LNK_TEST n, 7, 6⟩
abbrev LNK_TEST_GEN (n : Nat) : Fld := ⟨LNK_TEST n, 5, 5⟩
abbrev LNK_TEST_CHK (n : Nat) : Fld := ⟨LNK_TEST n, 4, 4⟩
abbrev LNK_TEST_PAT (n : Nat) : Fld := ⟨LNK_TEST n, 3, 0⟩
/-- LNK_PRBSCNT[n] (R89): Checker sync and error count. -/
abbrev LNK_PRBSCNT (n : Nat) : Nat := 0x00300030 + 0x1000 * n
abbrev LNK_PRBSCNT_SYNC (n : Nat) : Fld := ⟨LNK_PRBSCNT n, 31, 31⟩
abbrev LNK_PRBSCNT_ERR (n : Nat) : Fld := ⟨LNK_PRBSCNT n, 30, 0⟩
/-- LNK_DP[n] (R89): DisplayPort drive; lanes 46 and 47 only. -/
abbrev LNK_DP (n : Nat) : Nat := 0x00300034 + 0x1000 * n
abbrev LNK_DP_SWING (n : Nat) : Fld := ⟨LNK_DP n, 11, 10⟩
abbrev LNK_DP_PREEMPH (n : Nat) : Fld := ⟨LNK_DP n, 9, 8⟩
abbrev LNK_DP_SSC (n : Nat) : Fld := ⟨LNK_DP n, 7, 7⟩
abbrev LNK_DP_PAT (n : Nat) : Fld := ⟨LNK_DP n, 6, 4⟩
abbrev LNK_DP_TXEN (n : Nat) : Fld := ⟨LNK_DP n, 1, 1⟩
abbrev LNK_DP_RATE (n : Nat) : Fld := ⟨LNK_DP n, 0, 0⟩
/-- LNK_GRPSTAT[g] (R90): Clock group g, 0 to 3. -/
abbrev LNK_GRPSTAT (g : Nat) : Nat := 0x00330000 + 0x4 * g
abbrev LNK_GRPSTAT_PRESENT (g : Nat) : Fld := ⟨LNK_GRPSTAT g, 31, 31⟩
abbrev LNK_GRPSTAT_FAULT (g : Nat) : Fld := ⟨LNK_GRPSTAT g, 30, 30⟩
abbrev LNK_GRPSTAT_PPM (g : Nat) : Fld := ⟨LNK_GRPSTAT g, 15, 0⟩

/-! ### MDR -/

/-- MDR_CFG (R122): Flap limit and hold-off, from the image. -/
abbrev MDR_CFG : Nat := 0x00400000
abbrev MDR_CFG_FLAPMAX : Fld := ⟨MDR_CFG, 15, 8⟩
abbrev MDR_CFG_HOLDOFF : Fld := ⟨MDR_CFG, 7, 0⟩
/-- MDR_STAT (R122): Key status and summary. -/
abbrev MDR_STAT : Nat := 0x00400004
abbrev MDR_STAT_KEYOK : Fld := ⟨MDR_STAT, 31, 31⟩
abbrev MDR_STAT_ANYQ : Fld := ⟨MDR_STAT, 0, 0⟩
/-- MDR_ID_LO (R122): TX48 identity, bits [31:0], from fuses. -/
abbrev MDR_ID_LO : Nat := 0x00400008
abbrev MDR_ID_LO_ID_L : Fld := ⟨MDR_ID_LO, 31, 0⟩
/-- MDR_ID_HI (R122): TX48 identity, bits [63:32]. -/
abbrev MDR_ID_HI : Nat := 0x0040000C
abbrev MDR_ID_HI_ID_H : Fld := ⟨MDR_ID_HI, 31, 0⟩
/-- MDR_EPOCH (R122): Key epoch, from the image. -/
abbrev MDR_EPOCH : Nat := 0x00400010
abbrev MDR_EPOCH_EPOCH : Fld := ⟨MDR_EPOCH, 31, 0⟩
/-- MDR_FCREQ (R122): Request a TESTPULSE or USER command. -/
abbrev MDR_FCREQ : Nat := 0x00400014
abbrev MDR_FCREQ_CODE : Fld := ⟨MDR_FCREQ, 28, 24⟩
abbrev MDR_FCREQ_SLOT : Fld := ⟨MDR_FCREQ, 15, 0⟩
/-- MDR_LCTL[n] (R122): Renegotiate, quarantine reporting, control channel. -/
abbrev MDR_LCTL (n : Nat) : Nat := 0x00401000 + 0x80 * n
abbrev MDR_LCTL_CCEN (n : Nat) : Fld := ⟨MDR_LCTL n, 2, 2⟩
abbrev MDR_LCTL_QRPT (n : Nat) : Fld := ⟨MDR_LCTL n, 1, 1⟩
abbrev MDR_LCTL_RENEG (n : Nat) : Fld := ⟨MDR_LCTL n, 0, 0⟩
/-- MDR_LCFG[n] (R122): Role, versions, authentication, from the image. -/
abbrev MDR_LCFG (n : Nat) : Nat := 0x00401004 + 0x80 * n
abbrev MDR_LCFG_ROLE (n : Nat) : Fld := ⟨MDR_LCFG n, 31, 30⟩
abbrev MDR_LCFG_VERS (n : Nat) : Fld := ⟨MDR_LCFG n, 29, 27⟩
abbrev MDR_LCFG_V2FEC (n : Nat) : Fld := ⟨MDR_LCFG n, 26, 26⟩
abbrev MDR_LCFG_IDANY (n : Nat) : Fld := ⟨MDR_LCFG n, 25, 25⟩
abbrev MDR_LCFG_AUTH (n : Nat) : Fld := ⟨MDR_LCFG n, 24, 24⟩
/-- MDR_LSTAT[n] (R122): Link state and events. -/
abbrev MDR_LSTAT (n : Nat) : Nat := 0x00401008 + 0x80 * n
abbrev MDR_LSTAT_QUAR (n : Nat) : Fld := ⟨MDR_LSTAT n, 15, 15⟩
abbrev MDR_LSTAT_IDERR (n : Nat) : Fld := ⟨MDR_LSTAT n, 14, 14⟩
abbrev MDR_LSTAT_AUTHERR (n : Nat) : Fld := ⟨MDR_LSTAT n, 13, 13⟩
abbrev MDR_LSTAT_FLAP (n : Nat) : Fld := ⟨MDR_LSTAT n, 12, 12⟩
abbrev MDR_LSTAT_LINKDN (n : Nat) : Fld := ⟨MDR_LSTAT n, 11, 11⟩
abbrev MDR_LSTAT_DOWNGRADE (n : Nat) : Fld := ⟨MDR_LSTAT n, 10, 10⟩
abbrev MDR_LSTAT_NOCOMMON (n : Nat) : Fld := ⟨MDR_LSTAT n, 9, 9⟩
abbrev MDR_LSTAT_RXVALID (n : Nat) : Fld := ⟨MDR_LSTAT n, 8, 8⟩
abbrev MDR_LSTAT_LSTATE (n : Nat) : Fld := ⟨MDR_LSTAT n, 3, 0⟩
/-- MDR_NEG[n] (R122): Negotiated mode. -/
abbrev MDR_NEG (n : Nat) : Nat := 0x0040100C + 0x80 * n
abbrev MDR_NEG_VER (n : Nat) : Fld := ⟨MDR_NEG n, 31, 30⟩
abbrev MDR_NEG_FEC (n : Nat) : Fld := ⟨MDR_NEG n, 29, 29⟩
abbrev MDR_NEG_RATE (n : Nat) : Fld := ⟨MDR_NEG n, 28, 26⟩
abbrev MDR_NEG_K (n : Nat) : Fld := ⟨MDR_NEG n, 23, 16⟩
abbrev MDR_NEG_D (n : Nat) : Fld := ⟨MDR_NEG n, 15, 0⟩
/-- MDR_EXPID_LO[n] (R122): Expected partner identity, bits [31:0]. -/
abbrev MDR_EXPID_LO (n : Nat) : Nat := 0x00401010 + 0x80 * n
abbrev MDR_EXPID_LO_EXPID_L (n : Nat) : Fld := ⟨MDR_EXPID_LO n, 31, 0⟩
/-- MDR_EXPID_HI[n] (R122): Expected partner identity, bits [63:32]. -/
abbrev MDR_EXPID_HI (n : Nat) : Nat := 0x00401014 + 0x80 * n
abbrev MDR_EXPID_HI_EXPID_H (n : Nat) : Fld := ⟨MDR_EXPID_HI n, 31, 0⟩
/-- MDR_PID_LO[n] (R122): Partner identity received, bits [31:0]; a read latches MDR_PID_HI[n]. -/
abbrev MDR_PID_LO (n : Nat) : Nat := 0x00401018 + 0x80 * n
abbrev MDR_PID_LO_PID_L (n : Nat) : Fld := ⟨MDR_PID_LO n, 31, 0⟩
/-- MDR_PID_HI[n] (R122): Partner identity received, bits [63:32]. -/
abbrev MDR_PID_HI (n : Nat) : Nat := 0x0040101C + 0x80 * n
abbrev MDR_PID_HI_PID_H (n : Nat) : Fld := ⟨MDR_PID_HI n, 31, 0⟩
/-- MDR_POLICE[n] (R122): Control-channel policing (banked). -/
abbrev MDR_POLICE (n : Nat) : Nat := 0x00401020 + 0x80 * n
abbrev MDR_POLICE_DEPTH (n : Nat) : Fld := ⟨MDR_POLICE n, 31, 16⟩
abbrev MDR_POLICE_RATE (n : Nat) : Fld := ⟨MDR_POLICE n, 15, 0⟩
/-- MDR_CCQ[n] (R122): Control queues, from the image. -/
abbrev MDR_CCQ (n : Nat) : Nat := 0x00401024 + 0x80 * n
abbrev MDR_CCQ_TXEN (n : Nat) : Fld := ⟨MDR_CCQ n, 31, 31⟩
abbrev MDR_CCQ_TXQ (n : Nat) : Fld := ⟨MDR_CCQ n, 29, 16⟩
abbrev MDR_CCQ_RXEN (n : Nat) : Fld := ⟨MDR_CCQ n, 15, 15⟩
abbrev MDR_CCQ_RXQ (n : Nat) : Fld := ⟨MDR_CCQ n, 13, 0⟩
/-- MDR_ERRCNT[n] (R122): Frame errors. -/
abbrev MDR_ERRCNT (n : Nat) : Nat := 0x00401028 + 0x80 * n
abbrev MDR_ERRCNT_CRCERR (n : Nat) : Fld := ⟨MDR_ERRCNT n, 31, 16⟩
abbrev MDR_ERRCNT_UNCORR (n : Nat) : Fld := ⟨MDR_ERRCNT n, 15, 0⟩
/-- MDR_FECCNT[n] (R122): Corrected symbols. -/
abbrev MDR_FECCNT (n : Nat) : Nat := 0x0040102C + 0x80 * n
abbrev MDR_FECCNT_CORR (n : Nat) : Fld := ⟨MDR_FECCNT n, 31, 0⟩
/-- MDR_CCCNT[n] (R122): Control-channel drops. -/
abbrev MDR_CCCNT (n : Nat) : Nat := 0x00401030 + 0x80 * n
abbrev MDR_CCCNT_TAGFAIL (n : Nat) : Fld := ⟨MDR_CCCNT n, 31, 24⟩
abbrev MDR_CCCNT_REPLAY (n : Nat) : Fld := ⟨MDR_CCCNT n, 23, 16⟩
abbrev MDR_CCCNT_POLICED (n : Nat) : Fld := ⟨MDR_CCCNT n, 15, 8⟩
abbrev MDR_CCCNT_MALFORM (n : Nat) : Fld := ⟨MDR_CCCNT n, 7, 0⟩
/-- MDR_FCCNT[n] (R122): Fast-command errors and drops. -/
abbrev MDR_FCCNT (n : Nat) : Nat := 0x00401034 + 0x80 * n
abbrev MDR_FCCNT_FCERR (n : Nat) : Fld := ⟨MDR_FCCNT n, 31, 16⟩
abbrev MDR_FCCNT_FCDROP (n : Nat) : Fld := ⟨MDR_FCCNT n, 15, 0⟩
/-- MDR_NEGCNT[n] (R122): Negotiations and proof failures. -/
abbrev MDR_NEGCNT (n : Nat) : Nat := 0x00401038 + 0x80 * n
abbrev MDR_NEGCNT_NEGS (n : Nat) : Fld := ⟨MDR_NEGCNT n, 31, 16⟩
abbrev MDR_NEGCNT_PROOFFAIL (n : Nat) : Fld := ⟨MDR_NEGCNT n, 15, 0⟩

/-! ### ING -/

/-- ING_CFG (R138): Deskew target and entry count, from the image. -/
abbrev ING_CFG : Nat := 0x00500000
abbrev ING_CFG_NENT : Fld := ⟨ING_CFG, 31, 16⟩
abbrev ING_CFG_DSKT : Fld := ⟨ING_CFG, 7, 0⟩
/-- ING_STAT (R138): Summary events. -/
abbrev ING_STAT : Nat := 0x00500004
abbrev ING_STAT_ECCU : Fld := ⟨ING_STAT, 4, 4⟩
abbrev ING_STAT_MISAL : Fld := ⟨ING_STAT, 3, 3⟩
abbrev ING_STAT_LATE : Fld := ⟨ING_STAT, 2, 2⟩
abbrev ING_STAT_FAIL : Fld := ⟨ING_STAT, 1, 1⟩
abbrev ING_STAT_NOTIME : Fld := ⟨ING_STAT, 0, 0⟩
/-- ING_LAYCFG (R138): Ingress-fed layers, from the image. -/
abbrev ING_LAYCFG : Nat := 0x00500008
abbrev ING_LAYCFG_FED : Fld := ⟨ING_LAYCFG, 3, 0⟩
/-- ING_ECCCNT (R138): Tile-map ECC counts. -/
abbrev ING_ECCCNT : Nat := 0x0050000C
abbrev ING_ECCCNT_CORR : Fld := ⟨ING_ECCCNT, 31, 16⟩
abbrev ING_ECCCNT_UNCORR : Fld := ⟨ING_ECCCNT, 15, 0⟩
/-- ING_VOIDSTAT (R138): VOID cell counts. -/
abbrev ING_VOIDSTAT : Nat := 0x00500010
abbrev ING_VOIDSTAT_MAXVOID : Fld := ⟨ING_VOIDSTAT, 31, 16⟩
abbrev ING_VOIDSTAT_LASTVOID : Fld := ⟨ING_VOIDSTAT, 15, 0⟩
/-- ING_BG[l] (R138): Background value of layer l (banked). -/
abbrev ING_BG (l : Nat) : Nat := 0x00500020 + 0x4 * l
abbrev ING_BG_BG (l : Nat) : Fld := ⟨ING_BG l, 15, 0⟩
/-- ING_LCTL[n] (R138): Lane void controls (banked). -/
abbrev ING_LCTL (n : Nat) : Nat := 0x00501000 + 0x20 * n
abbrev ING_LCTL_ERRVOID (n : Nat) : Fld := ⟨ING_LCTL n, 1, 1⟩
abbrev ING_LCTL_FORCEVOID (n : Nat) : Fld := ⟨ING_LCTL n, 0, 0⟩
/-- ING_LSTAT[n] (R138): Lane state and events. -/
abbrev ING_LSTAT (n : Nat) : Nat := 0x00501004 + 0x20 * n
abbrev ING_LSTAT_FEED (n : Nat) : Fld := ⟨ING_LSTAT n, 8, 8⟩
abbrev ING_LSTAT_BEYOND (n : Nat) : Fld := ⟨ING_LSTAT n, 4, 4⟩
abbrev ING_LSTAT_MISAL (n : Nat) : Fld := ⟨ING_LSTAT n, 3, 3⟩
abbrev ING_LSTAT_LATE (n : Nat) : Fld := ⟨ING_LSTAT n, 2, 2⟩
abbrev ING_LSTAT_FAIL (n : Nat) : Fld := ⟨ING_LSTAT n, 1, 1⟩
/-- ING_LENT[n] (R138): Entries and highest bit addressed. -/
abbrev ING_LENT (n : Nat) : Nat := 0x00501008 + 0x20 * n
abbrev ING_LENT_TOPBIT (n : Nat) : Fld := ⟨ING_LENT n, 30, 16⟩
abbrev ING_LENT_COUNT (n : Nat) : Fld := ⟨ING_LENT n, 15, 0⟩
/-- ING_LSLACK[n] (R138): Ingress slack and FIFO wait, last orbit. -/
abbrev ING_LSLACK (n : Nat) : Nat := 0x0050100C + 0x20 * n
abbrev ING_LSLACK_MAXWAIT (n : Nat) : Fld := ⟨ING_LSLACK n, 31, 16⟩
abbrev ING_LSLACK_MINSLACK (n : Nat) : Fld := ⟨ING_LSLACK n, 15, 0⟩
/-- ING_LCNT[n] (R138): Late and failed frames. -/
abbrev ING_LCNT (n : Nat) : Nat := 0x00501010 + 0x20 * n
abbrev ING_LCNT_LATEFR (n : Nat) : Fld := ⟨ING_LCNT n, 31, 16⟩
abbrev ING_LCNT_FAILFR (n : Nat) : Fld := ⟨ING_LCNT n, 15, 0⟩
/-- ING_LCNT2[n] (R138): Misaligned frames and VOID crossings. -/
abbrev ING_LCNT2 (n : Nat) : Nat := 0x00501014 + 0x20 * n
abbrev ING_LCNT2_MISAL (n : Nat) : Fld := ⟨ING_LCNT2 n, 31, 16⟩
abbrev ING_LCNT2_VOIDX (n : Nat) : Fld := ⟨ING_LCNT2 n, 15, 0⟩
/-- ING_TMAP_LO[i] (R130): Entry i, bits [31:0]. -/
abbrev ING_TMAP_LO (i : Nat) : Nat := 0x00540000 + 0x8 * i
abbrev ING_TMAP_LO_W (i : Nat) : Fld := ⟨ING_TMAP_LO i, 31, 0⟩
/-- ING_TMAP_HI[i] (R130): Entry i, bits [63:32]. -/
abbrev ING_TMAP_HI (i : Nat) : Nat := 0x00540004 + 0x8 * i
abbrev ING_TMAP_HI_W (i : Nat) : Fld := ⟨ING_TMAP_HI i, 31, 0⟩

/-! ### CND -/

/-- CND_CFG (R154): Block look-ahead, from the image. -/
abbrev CND_CFG : Nat := 0x00600000
abbrev CND_CFG_LA : Fld := ⟨CND_CFG, 3, 0⟩
/-- CND_CTL (R154): Pedestal resets. -/
abbrev CND_CTL : Nat := 0x00600004
abbrev CND_CTL_PEDRST : Fld := ⟨CND_CTL, 3, 0⟩
/-- CND_STAT (R154): Events. -/
abbrev CND_STAT : Nat := 0x00600008
abbrev CND_STAT_ECCU : Fld := ⟨CND_STAT, 2, 2⟩
abbrev CND_STAT_FSAT : Fld := ⟨CND_STAT, 1, 1⟩
abbrev CND_STAT_VFILLED : Fld := ⟨CND_STAT, 0, 0⟩
/-- CND_ECCCNT (R154): ECC counts. -/
abbrev CND_ECCCNT : Nat := 0x0060000C
abbrev CND_ECCCNT_CORR : Fld := ⟨CND_ECCCNT, 31, 16⟩
abbrev CND_ECCCNT_UNCORR : Fld := ⟨CND_ECCCNT, 15, 0⟩
/-- CND_PEDSEL (R154): Select a pedestal estimate to read. -/
abbrev CND_PEDSEL : Nat := 0x00600010
abbrev CND_PEDSEL_LAYER : Fld := ⟨CND_PEDSEL, 14, 13⟩
abbrev CND_PEDSEL_CELL : Fld := ⟨CND_PEDSEL, 12, 0⟩
/-- CND_PEDVAL (R154): Selected pedestal estimate. -/
abbrev CND_PEDVAL : Nat := 0x00600014
abbrev CND_PEDVAL_SEEDED : Fld := ⟨CND_PEDVAL, 31, 31⟩
abbrev CND_PEDVAL_PED : Fld := ⟨CND_PEDVAL, 23, 0⟩
/-- CND_SATCNT (R154): Cells marked SAT. -/
abbrev CND_SATCNT : Nat := 0x00600018
abbrev CND_SATCNT_SATCELLS : Fld := ⟨CND_SATCNT, 31, 0⟩
/-- CND_LCFG[l] (R154): Layer enable, advance, peak finding, from the image. -/
abbrev CND_LCFG (l : Nat) : Nat := 0x00600100 + 0x20 * l
abbrev CND_LCFG_EN (l : Nat) : Fld := ⟨CND_LCFG l, 31, 31⟩
abbrev CND_LCFG_ADV (l : Nat) : Fld := ⟨CND_LCFG l, 6, 4⟩
abbrev CND_LCFG_PK (l : Nat) : Fld := ⟨CND_LCFG l, 0, 0⟩
/-- CND_LPED[l] (R154): Pedestal time constant and hold (banked). -/
abbrev CND_LPED (l : Nat) : Nat := 0x00600104 + 0x20 * l
abbrev CND_LPED_HOLD (l : Nat) : Fld := ⟨CND_LPED l, 8, 8⟩
abbrev CND_LPED_K (l : Nat) : Fld := ⟨CND_LPED l, 4, 0⟩
/-- CND_LGAIN[l] (R154): Layer gain (banked). -/
abbrev CND_LGAIN (l : Nat) : Nat := 0x00600108 + 0x20 * l
abbrev CND_LGAIN_GAIN (l : Nat) : Fld := ⟨CND_LGAIN l, 11, 0⟩
/-- CND_LOPT[l] (R154): Missing-sample policy and saturation level (banked). -/
abbrev CND_LOPT (l : Nat) : Nat := 0x0060010C + 0x20 * l
abbrev CND_LOPT_VFILL (l : Nat) : Fld := ⟨CND_LOPT l, 31, 31⟩
abbrev CND_LOPT_SATLVL (l : Nat) : Fld := ⟨CND_LOPT l, 15, 0⟩
/-- CND_CURVCFG[t] (R154): Domain of curve t (banked). -/
abbrev CND_CURVCFG (t : Nat) : Nat := 0x00600200 + 0x4 * t
abbrev CND_CURVCFG_SH (t : Nat) : Fld := ⟨CND_CURVCFG t, 28, 24⟩
abbrev CND_CURVCFG_XMIN (t : Nat) : Fld := ⟨CND_CURVCFG t, 23, 0⟩
/-- CND_COEF[l][p][j] (R154): Tap j of phase p (banked). -/
abbrev CND_COEF (l : Nat) (p : Nat) (j : Nat) : Nat := 0x00601000 + 0x200 * l + 0x20 * p + 0x4 * j
abbrev CND_COEF_COEF (l : Nat) (p : Nat) (j : Nat) : Fld := ⟨CND_COEF l p j, 17, 0⟩
/-- CND_CELL[l][c] (R154): Cell word (banked). -/
abbrev CND_CELL (l : Nat) (c : Nat) : Nat := 0x00610000 + 0x8000 * l + 0x4 * c
abbrev CND_CELL_EN (l : Nat) (c : Nat) : Fld := ⟨CND_CELL l c, 31, 31⟩
abbrev CND_CELL_FLT (l : Nat) (c : Nat) : Fld := ⟨CND_CELL l c, 30, 30⟩
abbrev CND_CELL_PHASE (l : Nat) (c : Nat) : Fld := ⟨CND_CELL l c, 29, 26⟩
abbrev CND_CELL_CURVE (l : Nat) (c : Nat) : Fld := ⟨CND_CELL l c, 25, 24⟩
abbrev CND_CELL_GAIN (l : Nat) (c : Nat) : Fld := ⟨CND_CELL l c, 23, 12⟩
abbrev CND_CELL_PK (l : Nat) (c : Nat) : Fld := ⟨CND_CELL l c, 11, 11⟩
/-- CND_CURVE[t][e] (R154): Entry e of curve t (banked). -/
abbrev CND_CURVE (t : Nat) (e : Nat) : Nat := 0x00630000 + 0x4000 * t + 0x4 * e
abbrev CND_CURVE_VAL (t : Nat) (e : Nat) : Fld := ⟨CND_CURVE t e, 15, 0⟩

/-! ### PF -/

/-- PF_CFG (R172): Geometry and counts, from the image. -/
abbrev PF_CFG : Nat := 0x00700000
abbrev PF_CFG_NLAKE : Fld := ⟨PF_CFG, 31, 26⟩
abbrev PF_CFG_NSP : Fld := ⟨PF_CFG, 25, 21⟩
abbrev PF_CFG_NK : Fld := ⟨PF_CFG, 20, 17⟩
abbrev PF_CFG_NCOLS : Fld := ⟨PF_CFG, 15, 8⟩
abbrev PF_CFG_NROWS : Fld := ⟨PF_CFG, 6, 0⟩
/-- PF_STAT (R172): Events. -/
abbrev PF_STAT : Nat := 0x00700004
abbrev PF_STAT_RLECC : Fld := ⟨PF_STAT, 4, 4⟩
abbrev PF_STAT_ECCU : Fld := ⟨PF_STAT, 3, 3⟩
abbrev PF_STAT_SRVDROP : Fld := ⟨PF_STAT, 2, 2⟩
abbrev PF_STAT_LAKEBUSY : Fld := ⟨PF_STAT, 1, 1⟩
/-- PF_ECCCNT (R172): ECC counts. -/
abbrev PF_ECCCNT : Nat := 0x00700008
abbrev PF_ECCCNT_CORR : Fld := ⟨PF_ECCCNT, 31, 16⟩
abbrev PF_ECCCNT_UNCORR : Fld := ⟨PF_ECCCNT, 15, 0⟩
/-- PF_SRVCNT (R172): Crossings cut short for the survey. -/
abbrev PF_SRVCNT : Nat := 0x0070000C
abbrev PF_SRVCNT_DROPS : Fld := ⟨PF_SRVCNT, 31, 0⟩
/-- PF_LAKESTAT (R172): Stale staged Lake layers. -/
abbrev PF_LAKESTAT : Nat := 0x00700010
abbrev PF_LAKESTAT_STALE : Fld := ⟨PF_LAKESTAT, 31, 0⟩
/-- PF_SPBASE (R172): Offset of static plane 0. -/
abbrev PF_SPBASE : Nat := 0x00700014
abbrev PF_SPBASE_BASE : Fld := ⟨PF_SPBASE, 31, 0⟩
/-- PF_LAKEBASE (R172): Offset of the Lake. -/
abbrev PF_LAKEBASE : Nat := 0x00700018
abbrev PF_LAKEBASE_BASE : Fld := ⟨PF_LAKEBASE, 31, 0⟩
/-- PF_RLCFG (R172): Raster-list size and largest match count. -/
abbrev PF_RLCFG : Nat := 0x0070001C
abbrev PF_RLCFG_NENT : Fld := ⟨PF_RLCFG, 28, 16⟩
abbrev PF_RLCFG_MAXACT : Fld := ⟨PF_RLCFG, 6, 0⟩
/-- PF_LCFG[l] (R172): Layer source. -/
abbrev PF_LCFG (l : Nat) : Nat := 0x00700020 + 0x4 * l
abbrev PF_LCFG_LAKE (l : Nat) : Fld := ⟨PF_LCFG l, 12, 8⟩
abbrev PF_LCFG_SRC (l : Nat) : Fld := ⟨PF_LCFG l, 1, 0⟩
/-- PF_BCAST (R172): Broadcast channel sources. -/
abbrev PF_BCAST : Nat := 0x00700030
abbrev PF_BCAST_EN0 : Fld := ⟨PF_BCAST, 7, 7⟩
abbrev PF_BCAST_EN1 : Fld := ⟨PF_BCAST, 15, 15⟩
abbrev PF_BCAST_EN2 : Fld := ⟨PF_BCAST, 23, 23⟩
abbrev PF_BCAST_EN3 : Fld := ⟨PF_BCAST, 31, 31⟩
abbrev PF_BCAST_SRC0 : Fld := ⟨PF_BCAST, 5, 0⟩
abbrev PF_BCAST_SRC1 : Fld := ⟨PF_BCAST, 13, 8⟩
abbrev PF_BCAST_SRC2 : Fld := ⟨PF_BCAST, 21, 16⟩
abbrev PF_BCAST_SRC3 : Fld := ⟨PF_BCAST, 29, 24⟩
/-- PF_SRVSEL (R172): Survey sources. -/
abbrev PF_SRVSEL : Nat := 0x00700034
abbrev PF_SRVSEL_EN0 : Fld := ⟨PF_SRVSEL, 7, 7⟩
abbrev PF_SRVSEL_EN1 : Fld := ⟨PF_SRVSEL, 15, 15⟩
abbrev PF_SRVSEL_EN2 : Fld := ⟨PF_SRVSEL, 23, 23⟩
abbrev PF_SRVSEL_EN3 : Fld := ⟨PF_SRVSEL, 31, 31⟩
abbrev PF_SRVSEL_SRC0 : Fld := ⟨PF_SRVSEL, 5, 0⟩
abbrev PF_SRVSEL_SRC1 : Fld := ⟨PF_SRVSEL, 13, 8⟩
abbrev PF_SRVSEL_SRC2 : Fld := ⟨PF_SRVSEL, 21, 16⟩
abbrev PF_SRVSEL_SRC3 : Fld := ⟨PF_SRVSEL, 29, 24⟩
/-- PF_KSRC[k] (R172): Composite operands. -/
abbrev PF_KSRC (k : Nat) : Nat := 0x00700100 + 0x8 * k
abbrev PF_KSRC_EN (k : Nat) : Fld := ⟨PF_KSRC k, 31, 31⟩
abbrev PF_KSRC_ASRC (k : Nat) : Fld := ⟨PF_KSRC k, 13, 8⟩
abbrev PF_KSRC_BSRC (k : Nat) : Fld := ⟨PF_KSRC k, 5, 0⟩
/-- PF_KDEF[k] (R172): Composite operator, policy, background (banked). -/
abbrev PF_KDEF (k : Nat) : Nat := 0x00700104 + 0x8 * k
abbrev PF_KDEF_BG (k : Nat) : Fld := ⟨PF_KDEF k, 31, 16⟩
abbrev PF_KDEF_VPOL (k : Nat) : Fld := ⟨PF_KDEF k, 4, 4⟩
abbrev PF_KDEF_OP (k : Nat) : Fld := ⟨PF_KDEF k, 2, 0⟩
/-- PF_LAKEDEF[j] (R172): Lake layer definition. -/
abbrev PF_LAKEDEF (j : Nat) : Nat := 0x00700200 + 0x4 * j
abbrev PF_LAKEDEF_OP3 (j : Nat) : Fld := ⟨PF_LAKEDEF j, 31, 29⟩
abbrev PF_LAKEDEF_OP2 (j : Nat) : Fld := ⟨PF_LAKEDEF j, 28, 26⟩
abbrev PF_LAKEDEF_OP1 (j : Nat) : Fld := ⟨PF_LAKEDEF j, 25, 23⟩
abbrev PF_LAKEDEF_NPL (j : Nat) : Fld := ⟨PF_LAKEDEF j, 22, 21⟩
abbrev PF_LAKEDEF_EN (j : Nat) : Fld := ⟨PF_LAKEDEF j, 20, 20⟩
abbrev PF_LAKEDEF_P3 (j : Nat) : Fld := ⟨PF_LAKEDEF j, 19, 15⟩
abbrev PF_LAKEDEF_P2 (j : Nat) : Fld := ⟨PF_LAKEDEF j, 14, 10⟩
abbrev PF_LAKEDEF_P1 (j : Nat) : Fld := ⟨PF_LAKEDEF j, 9, 5⟩
abbrev PF_LAKEDEF_P0 (j : Nat) : Fld := ⟨PF_LAKEDEF j, 4, 0⟩
/-- PF_WMCTL[k] (R172): Capture arm and selection. -/
abbrev PF_WMCTL (k : Nat) : Nat := 0x00700300 + 0x10 * k
abbrev PF_WMCTL_ARM (k : Nat) : Fld := ⟨PF_WMCTL k, 31, 31⟩
abbrev PF_WMCTL_ANYSLOT (k : Nat) : Fld := ⟨PF_WMCTL k, 30, 30⟩
abbrev PF_WMCTL_ROW (k : Nat) : Fld := ⟨PF_WMCTL k, 29, 24⟩
abbrev PF_WMCTL_SRC (k : Nat) : Fld := ⟨PF_WMCTL k, 21, 16⟩
abbrev PF_WMCTL_SLOT (k : Nat) : Fld := ⟨PF_WMCTL k, 15, 0⟩
/-- PF_WMSTAT[k] (R172): Capture state and events. -/
abbrev PF_WMSTAT (k : Nat) : Nat := 0x00700304 + 0x10 * k
abbrev PF_WMSTAT_BUSY (k : Nat) : Fld := ⟨PF_WMSTAT k, 2, 2⟩
abbrev PF_WMSTAT_DONE (k : Nat) : Fld := ⟨PF_WMSTAT k, 1, 1⟩
abbrev PF_WMSTAT_ROWEV (k : Nat) : Fld := ⟨PF_WMSTAT k, 0, 0⟩
/-- PF_WMXID[k] (R172): Captured crossing. -/
abbrev PF_WMXID (k : Nat) : Nat := 0x00700308 + 0x10 * k
abbrev PF_WMXID_ORBIT_L (k : Nat) : Fld := ⟨PF_WMXID k, 31, 16⟩
abbrev PF_WMXID_SLOT (k : Nat) : Fld := ⟨PF_WMXID k, 15, 0⟩
/-- PF_WMBASE[k] (R172): Offset of the capture page. -/
abbrev PF_WMBASE (k : Nat) : Nat := 0x0070030C + 0x10 * k
abbrev PF_WMBASE_BASE (k : Nat) : Fld := ⟨PF_WMBASE k, 31, 0⟩
/-- PF_RLW0[i] (R163): Raster-list entry i, word w (banked). -/
abbrev PF_RLW0 (i : Nat) : Nat := 0x00740000 + 0x10 * i
abbrev PF_RLW0_W (i : Nat) : Fld := ⟨PF_RLW0 i, 31, 0⟩
/-- PF_RLW1[i] (R163): Raster-list entry i, word w (banked). -/
abbrev PF_RLW1 (i : Nat) : Nat := 0x00740004 + 0x10 * i
abbrev PF_RLW1_W (i : Nat) : Fld := ⟨PF_RLW1 i, 31, 0⟩
/-- PF_RLW2[i] (R163): Raster-list entry i, word w (banked). -/
abbrev PF_RLW2 (i : Nat) : Nat := 0x00740008 + 0x10 * i
abbrev PF_RLW2_W (i : Nat) : Fld := ⟨PF_RLW2 i, 31, 0⟩
/-- PF_RLW3[i] (R163): Raster-list entry i, word w (banked). -/
abbrev PF_RLW3 (i : Nat) : Nat := 0x0074000C + 0x10 * i
abbrev PF_RLW3_W (i : Nat) : Fld := ⟨PF_RLW3 i, 31, 0⟩

/-! ### OBJ -/

/-- OBJ_CFG (R194): Class count, checker timeout, budget, from the image. -/
abbrev OBJ_CFG : Nat := 0x00800000
abbrev OBJ_CFG_NCLS : Fld := ⟨OBJ_CFG, 31, 25⟩
abbrev OBJ_CFG_CHKTO : Fld := ⟨OBJ_CFG, 24, 16⟩
abbrev OBJ_CFG_PSMAX : Fld := ⟨OBJ_CFG, 15, 0⟩
/-- OBJ_STAT (R194): Events. -/
abbrev OBJ_STAT : Nat := 0x00800004
abbrev OBJ_STAT_SVOTE : Fld := ⟨OBJ_STAT, 5, 5⟩
abbrev OBJ_STAT_OBJOVF : Fld := ⟨OBJ_STAT, 4, 4⟩
abbrev OBJ_STAT_ECCU : Fld := ⟨OBJ_STAT, 3, 3⟩
abbrev OBJ_STAT_MISM : Fld := ⟨OBJ_STAT, 2, 2⟩
abbrev OBJ_STAT_NOSPARE : Fld := ⟨OBJ_STAT, 1, 1⟩
/-- OBJ_SPARE (R194): Free spares and retired pairs. -/
abbrev OBJ_SPARE : Nat := 0x00800008
abbrev OBJ_SPARE_RETIRED : Fld := ⟨OBJ_SPARE, 24, 16⟩
abbrev OBJ_SPARE_FREE : Fld := ⟨OBJ_SPARE, 5, 0⟩
/-- OBJ_ECCCNT (R194): ECC counts. -/
abbrev OBJ_ECCCNT : Nat := 0x0080000C
abbrev OBJ_ECCCNT_CORR : Fld := ⟨OBJ_ECCCNT, 31, 16⟩
abbrev OBJ_ECCCNT_UNCORR : Fld := ⟨OBJ_ECCCNT, 15, 0⟩
/-- OBJ_MISCNT (R194): Mismatches. -/
abbrev OBJ_MISCNT : Nat := 0x00800010
abbrev OBJ_MISCNT_MISM : Fld := ⟨OBJ_MISCNT, 31, 0⟩
/-- OBJ_OVFCNT (R194): Crossings over 1,024 candidates. -/
abbrev OBJ_OVFCNT : Nat := 0x00800014
abbrev OBJ_OVFCNT_OVF : Fld := ⟨OBJ_OVFCNT, 31, 0⟩
/-- OBJ_LASTMIS (R194): Last mismatch. -/
abbrev OBJ_LASTMIS : Nat := 0x00800018
abbrev OBJ_LASTMIS_PAIR : Fld := ⟨OBJ_LASTMIS, 31, 23⟩
abbrev OBJ_LASTMIS_VERDICT : Fld := ⟨OBJ_LASTMIS, 22, 21⟩
abbrev OBJ_LASTMIS_SLOT : Fld := ⟨OBJ_LASTMIS, 15, 0⟩
/-- OBJ_NOBJ (R194): Objects in the last crossing. -/
abbrev OBJ_NOBJ : Nat := 0x0080001C
abbrev OBJ_NOBJ_SLOT : Fld := ⟨OBJ_NOBJ, 31, 16⟩
abbrev OBJ_NOBJ_OVF : Fld := ⟨OBJ_NOBJ, 15, 15⟩
abbrev OBJ_NOBJ_COUNT : Fld := ⟨OBJ_NOBJ, 10, 0⟩
/-- OBJ_CCFG[c] (R194): Box, anchor, panes, LMR, collision channel. -/
abbrev OBJ_CCFG (c : Nat) : Nat := 0x00801000 + 0x40 * c
abbrev OBJ_CCFG_EN (c : Nat) : Fld := ⟨OBJ_CCFG c, 31, 31⟩
abbrev OBJ_CCFG_SHM1 (c : Nat) : Fld := ⟨OBJ_CCFG c, 30, 27⟩
abbrev OBJ_CCFG_SWM1 (c : Nat) : Fld := ⟨OBJ_CCFG c, 26, 23⟩
abbrev OBJ_CCFG_AR (c : Nat) : Fld := ⟨OBJ_CCFG c, 22, 19⟩
abbrev OBJ_CCFG_AC (c : Nat) : Fld := ⟨OBJ_CCFG c, 18, 15⟩
abbrev OBJ_CCFG_LMR (c : Nat) : Fld := ⟨OBJ_CCFG c, 14, 13⟩
abbrev OBJ_CCFG_NPM1 (c : Nat) : Fld := ⟨OBJ_CCFG c, 10, 8⟩
abbrev OBJ_CCFG_CSHIFT (c : Nat) : Fld := ⟨OBJ_CCFG c, 7, 4⟩
abbrev OBJ_CCFG_COLCH (c : Nat) : Fld := ⟨OBJ_CCFG c, 3, 2⟩
abbrev OBJ_CCFG_COLSRC (c : Nat) : Fld := ⟨OBJ_CCFG c, 1, 0⟩
/-- OBJ_CAREA[c] (R194): Class area. -/
abbrev OBJ_CAREA (c : Nat) : Nat := 0x00801004 + 0x40 * c
abbrev OBJ_CAREA_RF (c : Nat) : Fld := ⟨OBJ_CAREA c, 31, 26⟩
abbrev OBJ_CAREA_RL (c : Nat) : Fld := ⟨OBJ_CAREA c, 25, 20⟩
abbrev OBJ_CAREA_CF (c : Nat) : Fld := ⟨OBJ_CAREA c, 19, 13⟩
abbrev OBJ_CAREA_CL (c : Nat) : Fld := ⟨OBJ_CAREA c, 12, 6⟩
/-- OBJ_CORETHR[c] (R194): Core threshold (banked). -/
abbrev OBJ_CORETHR (c : Nat) : Nat := 0x00801008 + 0x40 * c
abbrev OBJ_CORETHR_THR (c : Nat) : Fld := ⟨OBJ_CORETHR c, 31, 0⟩
/-- OBJ_VETOTHR[c] (R194): Veto threshold (banked). -/
abbrev OBJ_VETOTHR (c : Nat) : Nat := 0x0080100C + 0x40 * c
abbrev OBJ_VETOTHR_THR (c : Nat) : Fld := ⟨OBJ_VETOTHR c, 31, 0⟩
/-- OBJ_COPT[c] (R194): Key, policy, fractions, collision (banked). -/
abbrev OBJ_COPT (c : Nat) : Nat := 0x00801010 + 0x40 * c
abbrev OBJ_COPT_KEY (c : Nat) : Fld := ⟨OBJ_COPT c, 31, 30⟩
abbrev OBJ_COPT_VETODROP (c : Nat) : Fld := ⟨OBJ_COPT c, 29, 29⟩
abbrev OBJ_COPT_COLEN (c : Nat) : Fld := ⟨OBJ_COPT c, 28, 28⟩
abbrev OBJ_COPT_VPOL (c : Nat) : Fld := ⟨OBJ_COPT c, 27, 26⟩
abbrev OBJ_COPT_ISOFRAC (c : Nat) : Fld := ⟨OBJ_COPT c, 23, 20⟩
abbrev OBJ_COPT_SHFRAC (c : Nat) : Fld := ⟨OBJ_COPT c, 19, 16⟩
abbrev OBJ_COPT_COLTHR (c : Nat) : Fld := ⟨OBJ_COPT c, 15, 0⟩
/-- OBJ_WGT[c] (R194): Pane weights (banked). -/
abbrev OBJ_WGT (c : Nat) : Nat := 0x00801014 + 0x40 * c
abbrev OBJ_WGT_W0 (c : Nat) : Fld := ⟨OBJ_WGT c, 3, 0⟩
abbrev OBJ_WGT_W1 (c : Nat) : Fld := ⟨OBJ_WGT c, 7, 4⟩
abbrev OBJ_WGT_W2 (c : Nat) : Fld := ⟨OBJ_WGT c, 11, 8⟩
abbrev OBJ_WGT_W3 (c : Nat) : Fld := ⟨OBJ_WGT c, 15, 12⟩
abbrev OBJ_WGT_W4 (c : Nat) : Fld := ⟨OBJ_WGT c, 19, 16⟩
abbrev OBJ_WGT_W5 (c : Nat) : Fld := ⟨OBJ_WGT c, 23, 20⟩
abbrev OBJ_WGT_W6 (c : Nat) : Fld := ⟨OBJ_WGT c, 27, 24⟩
abbrev OBJ_WGT_W7 (c : Nat) : Fld := ⟨OBJ_WGT c, 31, 28⟩
/-- OBJ_OOMASK_LO[c] (R194): Collision partners, classes 0-31 (banked). -/
abbrev OBJ_OOMASK_LO (c : Nat) : Nat := 0x00801018 + 0x40 * c
abbrev OBJ_OOMASK_LO_MASK_L (c : Nat) : Fld := ⟨OBJ_OOMASK_LO c, 31, 0⟩
/-- OBJ_OOMASK_HI[c] (R194): Collision partners, classes 32-63 (banked). -/
abbrev OBJ_OOMASK_HI (c : Nat) : Nat := 0x0080101C + 0x40 * c
abbrev OBJ_OOMASK_HI_MASK_H (c : Nat) : Fld := ⟨OBJ_OOMASK_HI c, 31, 0⟩
/-- OBJ_PANE[c][j] (R177): Pane word j, 0 to 7. -/
abbrev OBJ_PANE (c : Nat) (j : Nat) : Nat := 0x00801020 + 0x40 * c + 0x4 * j
abbrev OBJ_PANE_W (c : Nat) (j : Nat) : Fld := ⟨OBJ_PANE c j, 31, 0⟩
/-- OBJ_PREG[p] (R194): Region held. -/
abbrev OBJ_PREG (p : Nat) : Nat := 0x00804000 + 0x10 * p
abbrev OBJ_PREG_RF (p : Nat) : Fld := ⟨OBJ_PREG p, 31, 26⟩
abbrev OBJ_PREG_RL (p : Nat) : Fld := ⟨OBJ_PREG p, 25, 20⟩
abbrev OBJ_PREG_CF (p : Nat) : Fld := ⟨OBJ_PREG p, 19, 13⟩
abbrev OBJ_PREG_CL (p : Nat) : Fld := ⟨OBJ_PREG p, 12, 6⟩
/-- OBJ_PCLS_LO[p] (R194): Class set, classes 0-31. -/
abbrev OBJ_PCLS_LO (p : Nat) : Nat := 0x00804004 + 0x10 * p
abbrev OBJ_PCLS_LO_CLS_L (p : Nat) : Fld := ⟨OBJ_PCLS_LO p, 31, 0⟩
/-- OBJ_PCLS_HI[p] (R194): Class set, classes 32-63. -/
abbrev OBJ_PCLS_HI (p : Nat) : Nat := 0x00804008 + 0x10 * p
abbrev OBJ_PCLS_HI_CLS_H (p : Nat) : Fld := ⟨OBJ_PCLS_HI p, 31, 0⟩
/-- OBJ_PSTAT[p] (R194): Pair state. -/
abbrev OBJ_PSTAT (p : Nat) : Nat := 0x0080400C + 0x10 * p
abbrev OBJ_PSTAT_STATE (p : Nat) : Fld := ⟨OBJ_PSTAT p, 31, 30⟩
abbrev OBJ_PSTAT_MISM (p : Nat) : Fld := ⟨OBJ_PSTAT p, 29, 29⟩
abbrev OBJ_PSTAT_RPL (p : Nat) : Fld := ⟨OBJ_PSTAT p, 28, 28⟩
abbrev OBJ_PSTAT_OWNER (p : Nat) : Fld := ⟨OBJ_PSTAT p, 8, 0⟩

/-! ### DEC -/

/-- DEC_CFG (R216): Input timing, from the image. -/
abbrev DEC_CFG : Nat := 0x00900000
abbrev DEC_CFG_EXTDL : Fld := ⟨DEC_CFG, 31, 24⟩
abbrev DEC_CFG_PINOFF : Fld := ⟨DEC_CFG, 23, 16⟩
/-- DEC_CTL (R216): Accept and throttle enables, prescale reset. -/
abbrev DEC_CTL : Nat := 0x00900004
abbrev DEC_CTL_PSRST : Fld := ⟨DEC_CTL, 3, 3⟩
abbrev DEC_CTL_THREN : Fld := ⟨DEC_CTL, 2, 2⟩
abbrev DEC_CTL_ACCEN : Fld := ⟨DEC_CTL, 1, 1⟩
/-- DEC_STAT (R216): Events. -/
abbrev DEC_STAT : Nat := 0x00900008
abbrev DEC_STAT_THRACT : Fld := ⟨DEC_STAT, 6, 6⟩
abbrev DEC_STAT_ECCU : Fld := ⟨DEC_STAT, 5, 5⟩
abbrev DEC_STAT_DVOTE : Fld := ⟨DEC_STAT, 4, 4⟩
abbrev DEC_STAT_VOIDDEC : Fld := ⟨DEC_STAT, 3, 3⟩
abbrev DEC_STAT_IMPVOID : Fld := ⟨DEC_STAT, 2, 2⟩
abbrev DEC_STAT_DBLK : Fld := ⟨DEC_STAT, 1, 1⟩
abbrev DEC_STAT_TBLK : Fld := ⟨DEC_STAT, 0, 0⟩
/-- DEC_SIZE (R216): Element and algorithm counts. -/
abbrev DEC_SIZE : Nat := 0x0090000C
abbrev DEC_SIZE_NELEM : Fld := ⟨DEC_SIZE, 27, 16⟩
abbrev DEC_SIZE_NALG : Fld := ⟨DEC_SIZE, 9, 0⟩
/-- DEC_DEAD (R216): Simple dead time (banked). -/
abbrev DEC_DEAD : Nat := 0x00900010
abbrev DEC_DEAD_DEAD : Fld := ⟨DEC_DEAD, 15, 0⟩
/-- DEC_ACCCNT (R216): Accepts. -/
abbrev DEC_ACCCNT : Nat := 0x00900014
abbrev DEC_ACCCNT_ACC : Fld := ⟨DEC_ACCCNT, 31, 0⟩
/-- DEC_BLKCNT (R216): Blocked candidates. -/
abbrev DEC_BLKCNT : Nat := 0x00900018
abbrev DEC_BLKCNT_TBLK : Fld := ⟨DEC_BLKCNT, 31, 16⟩
abbrev DEC_BLKCNT_DBLK : Fld := ⟨DEC_BLKCNT, 15, 0⟩
/-- DEC_ECCCNT (R216): ECC counts. -/
abbrev DEC_ECCCNT : Nat := 0x0090001C
abbrev DEC_ECCCNT_CORR : Fld := ⟨DEC_ECCCNT, 31, 16⟩
abbrev DEC_ECCCNT_UNCORR : Fld := ⟨DEC_ECCCNT, 15, 0⟩
/-- DEC_LASTACC (R216): Last accepted crossing. -/
abbrev DEC_LASTACC : Nat := 0x00900020
abbrev DEC_LASTACC_ORBIT_L : Fld := ⟨DEC_LASTACC, 31, 16⟩
abbrev DEC_LASTACC_SLOT : Fld := ⟨DEC_LASTACC, 15, 0⟩
/-- DEC_WIN[w] (R216): Rate window w, 0 to 7 (banked). -/
abbrev DEC_WIN (w : Nat) : Nat := 0x00900040 + 0x4 * w
abbrev DEC_WIN_EN (w : Nat) : Fld := ⟨DEC_WIN w, 31, 31⟩
abbrev DEC_WIN_NM1 (w : Nat) : Fld := ⟨DEC_WIN w, 19, 16⟩
abbrev DEC_WIN_M (w : Nat) : Fld := ⟨DEC_WIN w, 15, 0⟩
/-- DEC_VSRC[v] (R216): Veto source v, 0 to 15 (banked). -/
abbrev DEC_VSRC (v : Nat) : Nat := 0x00900080 + 0x4 * v
abbrev DEC_VSRC_EN (v : Nat) : Fld := ⟨DEC_VSRC v, 31, 31⟩
abbrev DEC_VSRC_KIND (v : Nat) : Fld := ⟨DEC_VSRC v, 30, 29⟩
abbrev DEC_VSRC_VVETO (v : Nat) : Fld := ⟨DEC_VSRC v, 28, 28⟩
abbrev DEC_VSRC_INDEX (v : Nat) : Fld := ⟨DEC_VSRC v, 8, 0⟩
/-- DEC_EXTSEL[k] (R216): External input k, 0 to 63. -/
abbrev DEC_EXTSEL (k : Nat) : Nat := 0x00900100 + 0x4 * k
abbrev DEC_EXTSEL_EN (k : Nat) : Fld := ⟨DEC_EXTSEL k, 31, 31⟩
abbrev DEC_EXTSEL_CODE (k : Nat) : Fld := ⟨DEC_EXTSEL k, 15, 0⟩
/-- DEC_XCFG[j] (R216): Exchange list j, 0 to 3. -/
abbrev DEC_XCFG (j : Nat) : Nat := 0x00900200 + 0x4 * j
abbrev DEC_XCFG_EN (j : Nat) : Fld := ⟨DEC_XCFG j, 31, 31⟩
abbrev DEC_XCFG_CLASS (j : Nat) : Fld := ⟨DEC_XCFG j, 21, 16⟩
abbrev DEC_XCFG_XK (j : Nat) : Fld := ⟨DEC_XCFG j, 6, 0⟩
/-- DEC_PEERMAP[m] (R216): Imported class 64 + m, 0 to 15. -/
abbrev DEC_PEERMAP (m : Nat) : Nat := 0x00900210 + 0x4 * m
abbrev DEC_PEERMAP_EN (m : Nat) : Fld := ⟨DEC_PEERMAP m, 31, 31⟩
abbrev DEC_PEERMAP_LANE (m : Nat) : Fld := ⟨DEC_PEERMAP m, 13, 8⟩
abbrev DEC_PEERMAP_LIST (m : Nat) : Fld := ⟨DEC_PEERMAP m, 1, 0⟩
/-- DEC_LCTL[k] (R216): Line enable and veto mask (banked). -/
abbrev DEC_LCTL (k : Nat) : Nat := 0x00910000 + 0x20 * k
abbrev DEC_LCTL_EN (k : Nat) : Fld := ⟨DEC_LCTL k, 31, 31⟩
abbrev DEC_LCTL_VMASK (k : Nat) : Fld := ⟨DEC_LCTL k, 15, 0⟩
/-- DEC_LPS[k] (R216): Prescale factor (banked). -/
abbrev DEC_LPS (k : Nat) : Nat := 0x00910004 + 0x20 * k
abbrev DEC_LPS_P (k : Nat) : Fld := ⟨DEC_LPS k, 31, 0⟩
/-- DEC_LACC[k] (R216): Prescale accumulator. -/
abbrev DEC_LACC (k : Nat) : Nat := 0x00910008 + 0x20 * k
abbrev DEC_LACC_ACC (k : Nat) : Fld := ⟨DEC_LACC k, 31, 0⟩
/-- DEC_LRAW[k] (R216): Raw count. -/
abbrev DEC_LRAW (k : Nat) : Nat := 0x0091000C + 0x20 * k
abbrev DEC_LRAW_COUNT (k : Nat) : Fld := ⟨DEC_LRAW k, 31, 0⟩
/-- DEC_LTAV[k] (R216): After-veto count. -/
abbrev DEC_LTAV (k : Nat) : Nat := 0x00910010 + 0x20 * k
abbrev DEC_LTAV_COUNT (k : Nat) : Fld := ⟨DEC_LTAV k, 31, 0⟩
/-- DEC_LTAP[k] (R216): After-prescale count. -/
abbrev DEC_LTAP (k : Nat) : Nat := 0x00910014 + 0x20 * k
abbrev DEC_LTAP_COUNT (k : Nat) : Fld := ⟨DEC_LTAP k, 31, 0⟩
/-- DEC_LTAC[k] (R216): Accepted count. -/
abbrev DEC_LTAC (k : Nat) : Nat := 0x00910018 + 0x20 * k
abbrev DEC_LTAC_COUNT (k : Nat) : Fld := ⟨DEC_LTAC k, 31, 0⟩
/-- DEC_ACFG[a] (R216): Enable, leaf count, line. -/
abbrev DEC_ACFG (a : Nat) : Nat := 0x00920000 + 0x40 * a
abbrev DEC_ACFG_EN (a : Nat) : Fld := ⟨DEC_ACFG a, 31, 31⟩
abbrev DEC_ACFG_LEN (a : Nat) : Fld := ⟨DEC_ACFG a, 30, 30⟩
abbrev DEC_ACFG_NLM1 (a : Nat) : Fld := ⟨DEC_ACFG a, 29, 27⟩
abbrev DEC_ACFG_LINE (a : Nat) : Fld := ⟨DEC_ACFG a, 7, 0⟩
/-- DEC_AOPT[a] (R216): VOID policy (banked). -/
abbrev DEC_AOPT (a : Nat) : Nat := 0x00920004 + 0x40 * a
abbrev DEC_AOPT_VPOL (a : Nat) : Fld := ⟨DEC_AOPT a, 1, 0⟩
/-- DEC_AVM_LO[a] (R216): Void lane mask, lanes 0-31 (banked). -/
abbrev DEC_AVM_LO (a : Nat) : Nat := 0x00920008 + 0x40 * a
abbrev DEC_AVM_LO_LANES_L (a : Nat) : Fld := ⟨DEC_AVM_LO a, 31, 0⟩
/-- DEC_AVM_HI[a] (R216): Void lane mask, lanes 32-47 (banked). -/
abbrev DEC_AVM_HI (a : Nat) : Nat := 0x0092000C + 0x40 * a
abbrev DEC_AVM_HI_LANES_H (a : Nat) : Fld := ⟨DEC_AVM_HI a, 15, 0⟩
/-- DEC_ALEAF[a][i] (R216): Leaves 2i and 2i + 1, i = 0 to 3. -/
abbrev DEC_ALEAF (a : Nat) (i : Nat) : Nat := 0x00920010 + 0x40 * a + 0x4 * i
abbrev DEC_ALEAF_LEAFH (a : Nat) (i : Nat) : Fld := ⟨DEC_ALEAF a i, 26, 16⟩
abbrev DEC_ALEAF_LEAFL (a : Nat) (i : Nat) : Fld := ⟨DEC_ALEAF a i, 10, 0⟩
/-- DEC_ATT[a][i] (R216): Truth table entries 32i to 32i + 31. -/
abbrev DEC_ATT (a : Nat) (i : Nat) : Nat := 0x00920020 + 0x40 * a + 0x4 * i
abbrev DEC_ATT_TT (a : Nat) (i : Nat) : Fld := ⟨DEC_ATT a i, 31, 0⟩
/-- DEC_ETYPE[e] (R216): Type and operands. -/
abbrev DEC_ETYPE (e : Nat) : Nat := 0x00930000 + 0x20 * e
abbrev DEC_ETYPE_TYPE (e : Nat) : Fld := ⟨DEC_ETYPE e, 31, 28⟩
abbrev DEC_ETYPE_CA (e : Nat) : Fld := ⟨DEC_ETYPE e, 27, 21⟩
abbrev DEC_ETYPE_CB (e : Nat) : Fld := ⟨DEC_ETYPE e, 20, 14⟩
abbrev DEC_ETYPE_EXIN (e : Nat) : Fld := ⟨DEC_ETYPE e, 5, 0⟩
/-- DEC_EFLG[e] (R216): Flag filter (banked). -/
abbrev DEC_EFLG (e : Nat) : Nat := 0x00930004 + 0x20 * e
abbrev DEC_EFLG_FMASK (e : Nat) : Fld := ⟨DEC_EFLG e, 26, 16⟩
abbrev DEC_EFLG_FMATCH (e : Nat) : Fld := ⟨DEC_EFLG e, 10, 0⟩
/-- DEC_ETHR[e] (R216): Threshold (banked). -/
abbrev DEC_ETHR (e : Nat) : Nat := 0x00930008 + 0x20 * e
abbrev DEC_ETHR_THR (e : Nat) : Fld := ⟨DEC_ETHR e, 31, 0⟩
/-- DEC_EOPT[e] (R216): Options (banked). -/
abbrev DEC_EOPT (e : Nat) : Nat := 0x0093000C + 0x20 * e
abbrev DEC_EOPT_INV (e : Nat) : Fld := ⟨DEC_EOPT e, 31, 31⟩
abbrev DEC_EOPT_WRAP (e : Nat) : Fld := ⟨DEC_EOPT e, 30, 30⟩
abbrev DEC_EOPT_SIDE (e : Nat) : Fld := ⟨DEC_EOPT e, 29, 28⟩
abbrev DEC_EOPT_METRIC (e : Nat) : Fld := ⟨DEC_EOPT e, 27, 27⟩
abbrev DEC_EOPT_PKM1 (e : Nat) : Fld := ⟨DEC_EOPT e, 26, 23⟩
abbrev DEC_EOPT_SPLIT (e : Nat) : Fld := ⟨DEC_EOPT e, 22, 16⟩
abbrev DEC_EOPT_N (e : Nat) : Fld := ⟨DEC_EOPT e, 6, 0⟩
/-- DEC_ESEP[e] (R216): Pair separations (banked). -/
abbrev DEC_ESEP (e : Nat) : Nat := 0x00930010 + 0x20 * e
abbrev DEC_ESEP_DRMIN (e : Nat) : Fld := ⟨DEC_ESEP e, 29, 24⟩
abbrev DEC_ESEP_DRMAX (e : Nat) : Fld := ⟨DEC_ESEP e, 21, 16⟩
abbrev DEC_ESEP_DCMIN (e : Nat) : Fld := ⟨DEC_ESEP e, 14, 8⟩
abbrev DEC_ESEP_DCMAX (e : Nat) : Fld := ⟨DEC_ESEP e, 6, 0⟩

/-! ### RO -/

/-- RO_CTL (R239): Readout enable, forced throttle. -/
abbrev RO_CTL : Nat := 0x00A00000
abbrev RO_CTL_FORCETHR : Fld := ⟨RO_CTL, 1, 1⟩
abbrev RO_CTL_RDEN : Fld := ⟨RO_CTL, 0, 0⟩
/-- RO_STAT (R239): Throttle level and events. -/
abbrev RO_STAT : Nat := 0x00A00004
abbrev RO_STAT_THR : Fld := ⟨RO_STAT, 5, 5⟩
abbrev RO_STAT_ECCU : Fld := ⟨RO_STAT, 4, 4⟩
abbrev RO_STAT_OVERRUN : Fld := ⟨RO_STAT, 3, 3⟩
abbrev RO_STAT_MISSING : Fld := ⟨RO_STAT, 2, 2⟩
abbrev RO_STAT_REFUSED : Fld := ⟨RO_STAT, 1, 1⟩
/-- RO_CFG (R239): Stored and read-out sections, window. -/
abbrev RO_CFG : Nat := 0x00A00008
abbrev RO_CFG_EN : Fld := ⟨RO_CFG, 31, 31⟩
abbrev RO_CFG_CLAY : Fld := ⟨RO_CFG, 30, 27⟩
abbrev RO_CFG_CSEL : Fld := ⟨RO_CFG, 26, 23⟩
abbrev RO_CFG_KB : Fld := ⟨RO_CFG, 22, 19⟩
abbrev RO_CFG_KA : Fld := ⟨RO_CFG, 18, 15⟩
abbrev RO_CFG_TREN : Fld := ⟨RO_CFG, 14, 14⟩
abbrev RO_CFG_OBEN : Fld := ⟨RO_CFG, 13, 13⟩
/-- RO_RDEP (R239): Ring depth in crossings. -/
abbrev RO_RDEP : Nat := 0x00A0000C
abbrev RO_RDEP_RDEP : Fld := ⟨RO_RDEP, 16, 0⟩
/-- RO_XBYTES (R239): Bytes per crossing entry. -/
abbrev RO_XBYTES : Nat := 0x00A00010
abbrev RO_XBYTES_XBYTES : Fld := ⟨RO_XBYTES, 23, 0⟩
/-- RO_RINGBASE (R239): BAR0 offset of entry 0. -/
abbrev RO_RINGBASE : Nat := 0x00A00014
abbrev RO_RINGBASE_BASE : Fld := ⟨RO_RINGBASE, 31, 0⟩
/-- RO_LSEL_LO (R239): Lanes read out, 0-31. -/
abbrev RO_LSEL_LO : Nat := 0x00A00018
abbrev RO_LSEL_LO_LANES_L : Fld := ⟨RO_LSEL_LO, 31, 0⟩
/-- RO_LSEL_HI (R239): Lanes read out, 32-47. -/
abbrev RO_LSEL_HI : Nat := 0x00A0001C
abbrev RO_LSEL_HI_LANES_H : Fld := ⟨RO_LSEL_HI, 15, 0⟩
/-- RO_OCLS_LO (R239): Object classes stored, 0-31. -/
abbrev RO_OCLS_LO : Nat := 0x00A00020
abbrev RO_OCLS_LO_CLS_L : Fld := ⟨RO_OCLS_LO, 31, 0⟩
/-- RO_OCLS_HI (R239): Object classes stored, 32-63. -/
abbrev RO_OCLS_HI : Nat := 0x00A00024
abbrev RO_OCLS_HI_CLS_H : Fld := ⟨RO_OCLS_HI, 31, 0⟩
/-- RO_FQ (R239): Fragment queue. -/
abbrev RO_FQ : Nat := 0x00A00028
abbrev RO_FQ_EN : Fld := ⟨RO_FQ, 31, 31⟩
abbrev RO_FQ_Q : Fld := ⟨RO_FQ, 13, 0⟩
/-- RO_FSIZE (R239): Fragment bytes. -/
abbrev RO_FSIZE : Nat := 0x00A0002C
abbrev RO_FSIZE_FSIZE : Fld := ⟨RO_FSIZE, 23, 0⟩
/-- RO_TIMING (R239): Copy bound and AMAX. -/
abbrev RO_TIMING : Nat := 0x00A00030
abbrev RO_TIMING_AMAX : Fld := ⟨RO_TIMING, 26, 16⟩
abbrev RO_TIMING_CPY : Fld := ⟨RO_TIMING, 7, 0⟩
/-- RO_THRLVL (R239): Throttle headroom level. -/
abbrev RO_THRLVL : Nat := 0x00A00034
abbrev RO_THRLVL_LVL : Fld := ⟨RO_THRLVL, 31, 0⟩
/-- RO_SECOFF (R239): Trigger record and object offsets in an entry. -/
abbrev RO_SECOFF : Nat := 0x00A00038
abbrev RO_SECOFF_TROFF : Fld := ⟨RO_SECOFF, 31, 16⟩
abbrev RO_SECOFF_OBJOFF : Fld := ⟨RO_SECOFF, 15, 0⟩
/-- RO_CUR_IDX (R239): Latest entry index; a read latches RO_CUR_XID. -/
abbrev RO_CUR_IDX : Nat := 0x00A0003C
abbrev RO_CUR_IDX_IDX : Fld := ⟨RO_CUR_IDX, 16, 0⟩
/-- RO_CUR_XID (R239): Latest entry's crossing. -/
abbrev RO_CUR_XID : Nat := 0x00A00040
abbrev RO_CUR_XID_ORBIT_L : Fld := ⟨RO_CUR_XID, 31, 16⟩
abbrev RO_CUR_XID_SLOT : Fld := ⟨RO_CUR_XID, 15, 0⟩
/-- RO_FRAGCNT (R239): Fragments produced. -/
abbrev RO_FRAGCNT : Nat := 0x00A00044
abbrev RO_FRAGCNT_FRAGS : Fld := ⟨RO_FRAGCNT, 31, 0⟩
/-- RO_ERRCNT (R239): Refused requests and flagged fragments. -/
abbrev RO_ERRCNT : Nat := 0x00A00048
abbrev RO_ERRCNT_REFUSED : Fld := ⟨RO_ERRCNT, 31, 16⟩
abbrev RO_ERRCNT_MISSING : Fld := ⟨RO_ERRCNT, 15, 0⟩
/-- RO_ECCCNT (R239): ECC counts. -/
abbrev RO_ECCCNT : Nat := 0x00A0004C
abbrev RO_ECCCNT_CORR : Fld := ⟨RO_ECCCNT, 31, 16⟩
abbrev RO_ECCCNT_UNCORR : Fld := ⟨RO_ECCCNT, 15, 0⟩
/-- RO_LSZ[n] (R239): Lane slot of lane n. -/
abbrev RO_LSZ (n : Nat) : Nat := 0x00A00100 + 0x4 * n
abbrev RO_LSZ_OFF (n : Nat) : Fld := ⟨RO_LSZ n, 31, 16⟩
abbrev RO_LSZ_SIZE (n : Nat) : Fld := ⟨RO_LSZ n, 7, 0⟩
/-- RO_COFF[l] (R239): Cell section of layer l. -/
abbrev RO_COFF (l : Nat) : Nat := 0x00A00200 + 0x4 * l
abbrev RO_COFF_OFF (l : Nat) : Fld := ⟨RO_COFF l, 15, 0⟩

/-! ### QM -/

/-- QM_CFG (R240): Queues defined. -/
abbrev QM_CFG : Nat := 0x00B00000
abbrev QM_CFG_NQ : Fld := ⟨QM_CFG, 14, 0⟩
/-- QM_STAT (R240): Events. -/
abbrev QM_STAT : Nat := 0x00B00004
abbrev QM_STAT_ECCU : Fld := ⟨QM_STAT, 3, 3⟩
abbrev QM_STAT_LATE : Fld := ⟨QM_STAT, 2, 2⟩
abbrev QM_STAT_POPERR : Fld := ⟨QM_STAT, 1, 1⟩
/-- QM_NOW (R240): Actual-slot count. -/
abbrev QM_NOW : Nat := 0x00B00008
abbrev QM_NOW_N : Fld := ⟨QM_NOW, 23, 0⟩
/-- QM_REFCNT (R240): Refusals. -/
abbrev QM_REFCNT : Nat := 0x00B0000C
abbrev QM_REFCNT_REF : Fld := ⟨QM_REFCNT, 31, 0⟩
/-- QM_LATECNT (R240): Late deliveries. -/
abbrev QM_LATECNT : Nat := 0x00B00010
abbrev QM_LATECNT_LATE : Fld := ⟨QM_LATECNT, 31, 0⟩
/-- QM_LASTREF (R240): Last refusal. -/
abbrev QM_LASTREF : Nat := 0x00B00014
abbrev QM_LASTREF_REASON : Fld := ⟨QM_LASTREF, 31, 30⟩
abbrev QM_LASTREF_Q : Fld := ⟨QM_LASTREF, 13, 0⟩
/-- QM_LASTLATE (R240): Last late delivery. -/
abbrev QM_LASTLATE : Nat := 0x00B00018
abbrev QM_LASTLATE_BY : Fld := ⟨QM_LASTLATE, 31, 16⟩
abbrev QM_LASTLATE_Q : Fld := ⟨QM_LASTLATE, 13, 0⟩
/-- QM_ECCCNT (R240): ECC counts. -/
abbrev QM_ECCCNT : Nat := 0x00B0001C
abbrev QM_ECCCNT_CORR : Fld := ⟨QM_ECCCNT, 31, 16⟩
abbrev QM_ECCCNT_UNCORR : Fld := ⟨QM_ECCCNT, 15, 0⟩
/-- QM_QRESET (R240): Clear a queue (R238). -/
abbrev QM_QRESET : Nat := 0x00B00020
abbrev QM_QRESET_GO : Fld := ⟨QM_QRESET, 31, 31⟩
abbrev QM_QRESET_Q : Fld := ⟨QM_QRESET, 13, 0⟩
/-- QM_CLASS[c] (R240): Delivery class c, 0 to 63. -/
abbrev QM_CLASS (c : Nat) : Nat := 0x00B00100 + 0x4 * c
abbrev QM_CLASS_EN (c : Nat) : Fld := ⟨QM_CLASS c, 31, 31⟩
abbrev QM_CLASS_B (c : Nat) : Fld := ⟨QM_CLASS c, 15, 0⟩
/-- QM_OCAP[o] (R240): Capacity of output o, 0 to 143. -/
abbrev QM_OCAP (o : Nat) : Nat := 0x00B01000 + 0x4 * o
abbrev QM_OCAP_CAP (o : Nat) : Fld := ⟨QM_OCAP o, 31, 0⟩
/-- QM_PUSH[a] (R240): Push for agent a, 0 to 32. -/
abbrev QM_PUSH (a : Nat) : Nat := 0x00B02000 + 0x8 * a
abbrev QM_PUSH_Q (a : Nat) : Fld := ⟨QM_PUSH a, 13, 0⟩
/-- QM_PUSHST[a] (R240): Outcome of agent a's last push. -/
abbrev QM_PUSHST (a : Nat) : Nat := 0x00B02004 + 0x8 * a
abbrev QM_PUSHST_DONE (a : Nat) : Fld := ⟨QM_PUSHST a, 31, 31⟩
abbrev QM_PUSHST_ADMIT (a : Nat) : Fld := ⟨QM_PUSHST a, 30, 30⟩
abbrev QM_PUSHST_REASON (a : Nat) : Fld := ⟨QM_PUSHST a, 29, 28⟩
abbrev QM_PUSHST_DEADLINE (a : Nat) : Fld := ⟨QM_PUSHST a, 23, 0⟩
/-- QM_POP[a] (R240): Pop for agent a. -/
abbrev QM_POP (a : Nat) : Nat := 0x00B02200 + 0x4 * a
abbrev QM_POP_Q (a : Nat) : Fld := ⟨QM_POP a, 13, 0⟩
/-- QM_QD[q][w] (R229): Descriptor word w of queue q (R229). -/
abbrev QM_QD (q : Nat) (w : Nat) : Nat := 0x00B80000 + 0x20 * q + 0x4 * w
abbrev QM_QD_W (q : Nat) (w : Nat) : Fld := ⟨QM_QD q w, 31, 0⟩

/-! ### DMA -/

/-- DMA_STAT (R260): Summary. -/
abbrev DMA_STAT : Nat := 0x00C00000
abbrev DMA_STAT_ERR : Fld := ⟨DMA_STAT, 1, 1⟩
abbrev DMA_STAT_ANYHALT : Fld := ⟨DMA_STAT, 0, 0⟩
/-- DMA_HOSTCAP (R260): Host bandwidth available to channels. -/
abbrev DMA_HOSTCAP : Nat := 0x00C00004
abbrev DMA_HOSTCAP_CAP : Fld := ⟨DMA_HOSTCAP, 31, 0⟩
/-- DMA_CHCTL[ch] (R260): Enable and kick. -/
abbrev DMA_CHCTL (ch : Nat) : Nat := 0x00C01000 + 0x40 * ch
abbrev DMA_CHCTL_EN (ch : Nat) : Fld := ⟨DMA_CHCTL ch, 31, 31⟩
abbrev DMA_CHCTL_KICK (ch : Nat) : Fld := ⟨DMA_CHCTL ch, 0, 0⟩
/-- DMA_CHCFG[ch] (R260): Priority, polling, ring space, queue roles. -/
abbrev DMA_CHCFG (ch : Nat) : Nat := 0x00C01004 + 0x40 * ch
abbrev DMA_CHCFG_PRIO (ch : Nat) : Fld := ⟨DMA_CHCFG ch, 31, 30⟩
abbrev DMA_CHCFG_RSP (ch : Nat) : Fld := ⟨DMA_CHCFG ch, 29, 28⟩
abbrev DMA_CHCFG_QOUT (ch : Nat) : Fld := ⟨DMA_CHCFG ch, 27, 27⟩
abbrev DMA_CHCFG_QIN (ch : Nat) : Fld := ⟨DMA_CHCFG ch, 26, 26⟩
abbrev DMA_CHCFG_POLL (ch : Nat) : Fld := ⟨DMA_CHCFG ch, 15, 0⟩
/-- DMA_RING[ch] (R260): First descriptor. -/
abbrev DMA_RING (ch : Nat) : Nat := 0x00C01008 + 0x40 * ch
abbrev DMA_RING_ADDR (ch : Nat) : Fld := ⟨DMA_RING ch, 31, 5⟩
/-- DMA_CUR[ch] (R260): Current descriptor. -/
abbrev DMA_CUR (ch : Nat) : Nat := 0x00C0100C + 0x40 * ch
abbrev DMA_CUR_ADDR (ch : Nat) : Fld := ⟨DMA_CUR ch, 31, 5⟩
/-- DMA_HOSTHI[ch] (R260): Host address bits [63:32]. -/
abbrev DMA_HOSTHI (ch : Nat) : Nat := 0x00C01010 + 0x40 * ch
abbrev DMA_HOSTHI_HI (ch : Nat) : Fld := ⟨DMA_HOSTHI ch, 31, 0⟩
/-- DMA_CHRSV[ch] (R260): Reserved rate. -/
abbrev DMA_CHRSV (ch : Nat) : Nat := 0x00C01014 + 0x40 * ch
abbrev DMA_CHRSV_RSV (ch : Nat) : Fld := ⟨DMA_CHRSV ch, 31, 0⟩
/-- DMA_CHSTAT[ch] (R260): State and events. -/
abbrev DMA_CHSTAT (ch : Nat) : Nat := 0x00C01018 + 0x40 * ch
abbrev DMA_CHSTAT_STATE (ch : Nat) : Fld := ⟨DMA_CHSTAT ch, 31, 29⟩
abbrev DMA_CHSTAT_LASTCODE (ch : Nat) : Fld := ⟨DMA_CHSTAT ch, 6, 4⟩
abbrev DMA_CHSTAT_WDRAW (ch : Nat) : Fld := ⟨DMA_CHSTAT ch, 2, 2⟩
abbrev DMA_CHSTAT_ERR (ch : Nat) : Fld := ⟨DMA_CHSTAT ch, 1, 1⟩
abbrev DMA_CHSTAT_DONE (ch : Nat) : Fld := ⟨DMA_CHSTAT ch, 0, 0⟩
/-- DMA_DONECNT[ch] (R260): Descriptors completed. -/
abbrev DMA_DONECNT (ch : Nat) : Nat := 0x00C0101C + 0x40 * ch
abbrev DMA_DONECNT_DONE (ch : Nat) : Fld := ⟨DMA_DONECNT ch, 31, 0⟩
/-- DMA_BYTECNT[ch] (R260): Bytes moved. -/
abbrev DMA_BYTECNT (ch : Nat) : Nat := 0x00C01020 + 0x40 * ch
abbrev DMA_BYTECNT_BYTES (ch : Nat) : Fld := ⟨DMA_BYTECNT ch, 31, 0⟩

/-! ### MEM -/

/-- MEM_CFG (R261): Device timing, from the image. -/
abbrev MEM_CFG : Nat := 0x00D00000
abbrev MEM_CFG_MTS : Fld := ⟨MEM_CFG, 31, 20⟩
abbrev MEM_CFG_RL : Fld := ⟨MEM_CFG, 19, 15⟩
abbrev MEM_CFG_TBC : Fld := ⟨MEM_CFG, 14, 10⟩
abbrev MEM_CFG_REF2X : Fld := ⟨MEM_CFG, 9, 9⟩
abbrev MEM_CFG_WLOFF : Fld := ⟨MEM_CFG, 8, 7⟩
/-- MEM_CTL (R261): Scrub and re-centering. -/
abbrev MEM_CTL : Nat := 0x00D00004
abbrev MEM_CTL_SCRUB : Fld := ⟨MEM_CTL, 1, 1⟩
abbrev MEM_CTL_RETRAIN : Fld := ⟨MEM_CTL, 0, 0⟩
/-- MEM_STAT (R261): Readiness and faults. -/
abbrev MEM_STAT : Nat := 0x00D00008
abbrev MEM_STAT_FAIL : Fld := ⟨MEM_STAT, 11, 8⟩
abbrev MEM_STAT_READY : Fld := ⟨MEM_STAT, 7, 4⟩
abbrev MEM_STAT_ECCU : Fld := ⟨MEM_STAT, 0, 0⟩
/-- MEM_GCAP (R261): Guaranteed capacity. -/
abbrev MEM_GCAP : Nat := 0x00D0000C
abbrev MEM_GCAP_CAP : Fld := ⟨MEM_GCAP, 31, 0⟩
/-- MEM_ERRADDR (R261): Last uncorrectable offset. -/
abbrev MEM_ERRADDR : Nat := 0x00D00010
abbrev MEM_ERRADDR_ADDR : Fld := ⟨MEM_ERRADDR, 29, 0⟩
/-- MEM_ECCCNT[c] (R261): ECC counts of channel c. -/
abbrev MEM_ECCCNT (c : Nat) : Nat := 0x00D00100 + 0x4 * c
abbrev MEM_ECCCNT_CORR (c : Nat) : Fld := ⟨MEM_ECCCNT c, 31, 16⟩
abbrev MEM_ECCCNT_UNCORR (c : Nat) : Fld := ⟨MEM_ECCCNT c, 15, 0⟩
/-- MEM_RSV[k] (R261): Reservation of client k, 0 to 7. -/
abbrev MEM_RSV (k : Nat) : Nat := 0x00D00200 + 0x4 * k
abbrev MEM_RSV_RSV (k : Nat) : Fld := ⟨MEM_RSV k, 31, 0⟩

/-! ### SRV -/

/-- SRV_CTL (R284): Rate-map enable and clear. -/
abbrev SRV_CTL : Nat := 0x00E00000
abbrev SRV_CTL_RMCLR : Fld := ⟨SRV_CTL, 1, 1⟩
abbrev SRV_CTL_RMEN : Fld := ⟨SRV_CTL, 0, 0⟩
/-- SRV_STAT (R284): Events. -/
abbrev SRV_STAT : Nat := 0x00E00004
abbrev SRV_STAT_FREEZE : Fld := ⟨SRV_STAT, 6, 6⟩
abbrev SRV_STAT_UNDER : Fld := ⟨SRV_STAT, 5, 5⟩
abbrev SRV_STAT_REPEAT : Fld := ⟨SRV_STAT, 4, 4⟩
abbrev SRV_STAT_ISKIP : Fld := ⟨SRV_STAT, 3, 3⟩
abbrev SRV_STAT_CUT : Fld := ⟨SRV_STAT, 2, 2⟩
abbrev SRV_STAT_CBUSY : Fld := ⟨SRV_STAT, 1, 1⟩
abbrev SRV_STAT_SWPEND : Fld := ⟨SRV_STAT, 0, 0⟩
/-- SRV_RCFG (R284): Period length (banked). -/
abbrev SRV_RCFG : Nat := 0x00E00008
abbrev SRV_RCFG_NORB : Fld := ⟨SRV_RCFG, 15, 0⟩
/-- SRV_PAGE (R284): Completed page; a read latches SRV_PAGEX. -/
abbrev SRV_PAGE : Nat := 0x00E0000C
abbrev SRV_PAGE_SEQ : Fld := ⟨SRV_PAGE, 31, 16⟩
abbrev SRV_PAGE_VALID : Fld := ⟨SRV_PAGE, 15, 15⟩
abbrev SRV_PAGE_IDX : Fld := ⟨SRV_PAGE, 14, 14⟩
abbrev SRV_PAGE_CUT : Fld := ⟨SRV_PAGE, 13, 0⟩
/-- SRV_PAGEX (R284): Period of the completed page. -/
abbrev SRV_PAGEX : Nat := 0x00E00010
abbrev SRV_PAGEX_ORBIT_L : Fld := ⟨SRV_PAGEX, 31, 16⟩
abbrev SRV_PAGEX_NORB : Fld := ⟨SRV_PAGEX, 15, 0⟩
/-- SRV_PAGEBASE (R284): Offset of page 0. -/
abbrev SRV_PAGEBASE : Nat := 0x00E00014
abbrev SRV_PAGEBASE_BASE : Fld := ⟨SRV_PAGEBASE, 31, 0⟩
/-- SRV_RTHR[j] (R284): Count threshold of channel j (banked). -/
abbrev SRV_RTHR (j : Nat) : Nat := 0x00E00018 + 0x4 * j
abbrev SRV_RTHR_THR (j : Nat) : Fld := ⟨SRV_RTHR j, 15, 0⟩
/-- SRV_CCTL (R284): Composition control. -/
abbrev SRV_CCTL : Nat := 0x00E00028
abbrev SRV_CCTL_GO : Fld := ⟨SRV_CCTL, 31, 31⟩
abbrev SRV_CCTL_AUTO : Fld := ⟨SRV_CCTL, 30, 30⟩
abbrev SRV_CCTL_CLEAR : Fld := ⟨SRV_CCTL, 29, 29⟩
/-- SRV_CSTAT (R284): Composition state. -/
abbrev SRV_CSTAT : Nat := 0x00E0002C
abbrev SRV_CSTAT_SEQ : Fld := ⟨SRV_CSTAT, 31, 16⟩
abbrev SRV_CSTAT_PEND : Fld := ⟨SRV_CSTAT, 1, 1⟩
abbrev SRV_CSTAT_BUSY : Fld := ⟨SRV_CSTAT, 0, 0⟩
/-- SRV_CXID (R284): Snapshot crossing of the last composition. -/
abbrev SRV_CXID : Nat := 0x00E00030
abbrev SRV_CXID_ORBIT_L : Fld := ⟨SRV_CXID, 31, 16⟩
abbrev SRV_CXID_SLOT : Fld := ⟨SRV_CXID, 15, 0⟩
/-- SRV_IMGBASE[b] (R284): Image buffer b, from the image. -/
abbrev SRV_IMGBASE (b : Nat) : Nat := 0x00E00034 + 0x4 * b
abbrev SRV_IMGBASE_BASE (b : Nat) : Fld := ⟨SRV_IMGBASE b, 29, 6⟩
/-- SRV_IMGGEOM (R284): Image size and pitch, from the image. -/
abbrev SRV_IMGGEOM : Nat := 0x00E0003C
abbrev SRV_IMGGEOM_IW : Fld := ⟨SRV_IMGGEOM, 31, 20⟩
abbrev SRV_IMGGEOM_IH : Fld := ⟨SRV_IMGGEOM, 19, 8⟩
abbrev SRV_IMGGEOM_PITCH : Fld := ⟨SRV_IMGGEOM, 7, 0⟩
/-- SRV_BGCOLOR (R284): Background colour (banked). -/
abbrev SRV_BGCOLOR : Nat := 0x00E00040
abbrev SRV_BGCOLOR_COLOR : Fld := ⟨SRV_BGCOLOR, 31, 0⟩
/-- SRV_VCOLOR (R284): Colour of VOID cells (banked). -/
abbrev SRV_VCOLOR : Nat := 0x00E00044
abbrev SRV_VCOLOR_COLOR : Fld := ⟨SRV_VCOLOR, 31, 0⟩
/-- SRV_IQ (R284): Image queue, from the image. -/
abbrev SRV_IQ : Nat := 0x00E00048
abbrev SRV_IQ_EN : Fld := ⟨SRV_IQ, 31, 31⟩
abbrev SRV_IQ_DIV : Fld := ⟨SRV_IQ, 21, 14⟩
abbrev SRV_IQ_Q : Fld := ⟨SRV_IQ, 13, 0⟩
/-- SRV_CNT (R284): Underrun, repeat and skip counts. -/
abbrev SRV_CNT : Nat := 0x00E0004C
abbrev SRV_CNT_UNDER : Fld := ⟨SRV_CNT, 31, 16⟩
abbrev SRV_CNT_REPEAT : Fld := ⟨SRV_CNT, 15, 8⟩
abbrev SRV_CNT_ISKIP : Fld := ⟨SRV_CNT, 7, 0⟩
/-- SRV_FRAMECNT (R284): Frames of the timing generator. -/
abbrev SRV_FRAMECNT : Nat := 0x00E00050
abbrev SRV_FRAMECNT_FRAMES : Fld := ⟨SRV_FRAMECNT, 31, 0⟩
/-- SRV_LASTSWAP[0] (R284): Last frame swap, w = 0 to 3. -/
abbrev SRV_LASTSWAP0 : Nat := 0x00E00060
abbrev SRV_LASTSWAP0_FRAME : Fld := ⟨SRV_LASTSWAP0, 31, 0⟩
/-- SRV_LASTSWAP[1] (R284): Last frame swap, w = 0 to 3. -/
abbrev SRV_LASTSWAP1 : Nat := 0x00E00064
abbrev SRV_LASTSWAP1_SEQ : Fld := ⟨SRV_LASTSWAP1, 31, 16⟩
/-- SRV_LASTSWAP[2] (R284): Last frame swap, w = 0 to 3. -/
abbrev SRV_LASTSWAP2 : Nat := 0x00E00068
abbrev SRV_LASTSWAP2_TIME_L : Fld := ⟨SRV_LASTSWAP2, 31, 0⟩
/-- SRV_LASTSWAP[3] (R284): Last frame swap, w = 0 to 3. -/
abbrev SRV_LASTSWAP3 : Nat := 0x00E0006C
abbrev SRV_LASTSWAP3_TIME_H : Fld := ⟨SRV_LASTSWAP3, 31, 0⟩
/-- SRV_FRZCFG (R284): Freeze detector. -/
abbrev SRV_FRZCFG : Nat := 0x00E00070
abbrev SRV_FRZCFG_EN : Fld := ⟨SRV_FRZCFG, 31, 31⟩
abbrev SRV_FRZCFG_CH : Fld := ⟨SRV_FRZCFG, 25, 24⟩
abbrev SRV_FRZCFG_N : Fld := ⟨SRV_FRZCFG, 15, 0⟩
/-- SRV_FRZPIX0 (R284): Freeze pixel region, first corner. -/
abbrev SRV_FRZPIX0 : Nat := 0x00E00074
abbrev SRV_FRZPIX0_Y : Fld := ⟨SRV_FRZPIX0, 27, 16⟩
abbrev SRV_FRZPIX0_X : Fld := ⟨SRV_FRZPIX0, 11, 0⟩
/-- SRV_FRZPIX1 (R284): Freeze pixel region, last corner. -/
abbrev SRV_FRZPIX1 : Nat := 0x00E00078
abbrev SRV_FRZPIX1_Y : Fld := ⟨SRV_FRZPIX1, 27, 16⟩
abbrev SRV_FRZPIX1_X : Fld := ⟨SRV_FRZPIX1, 11, 0⟩
/-- SRV_FRZREG (R284): Freeze cell region. -/
abbrev SRV_FRZREG : Nat := 0x00E0007C
abbrev SRV_FRZREG_RF : Fld := ⟨SRV_FRZREG, 31, 26⟩
abbrev SRV_FRZREG_RL : Fld := ⟨SRV_FRZREG, 25, 20⟩
abbrev SRV_FRZREG_CF : Fld := ⟨SRV_FRZREG, 19, 13⟩
abbrev SRV_FRZREG_CL : Fld := ⟨SRV_FRZREG, 12, 6⟩
/-- SRV_FRZCRC (R284): Region CRC of the current frame. -/
abbrev SRV_FRZCRC : Nat := 0x00E00080
abbrev SRV_FRZCRC_CRC : Fld := ⟨SRV_FRZCRC, 31, 0⟩
/-- SRV_DCTL (R284): Display link control. -/
abbrev SRV_DCTL : Nat := 0x00E00100
abbrev SRV_DCTL_EN : Fld := ⟨SRV_DCTL, 31, 31⟩
abbrev SRV_DCTL_LANES : Fld := ⟨SRV_DCTL, 30, 30⟩
abbrev SRV_DCTL_RATE : Fld := ⟨SRV_DCTL, 29, 29⟩
abbrev SRV_DCTL_BPC : Fld := ⟨SRV_DCTL, 28, 28⟩
abbrev SRV_DCTL_PSREN : Fld := ⟨SRV_DCTL, 27, 27⟩
abbrev SRV_DCTL_SSC : Fld := ⟨SRV_DCTL, 26, 26⟩
abbrev SRV_DCTL_PSRN : Fld := ⟨SRV_DCTL, 15, 8⟩
/-- SRV_DSTAT (R284): Display link state. -/
abbrev SRV_DSTAT : Nat := 0x00E00104
abbrev SRV_DSTAT_LSTATE : Fld := ⟨SRV_DSTAT, 31, 29⟩
abbrev SRV_DSTAT_HPD : Fld := ⟨SRV_DSTAT, 28, 28⟩
abbrev SRV_DSTAT_LANESUP : Fld := ⟨SRV_DSTAT, 27, 27⟩
abbrev SRV_DSTAT_RATEUP : Fld := ⟨SRV_DSTAT, 26, 26⟩
abbrev SRV_DSTAT_HPDIRQ : Fld := ⟨SRV_DSTAT, 2, 2⟩
abbrev SRV_DSTAT_UNPLUG : Fld := ⟨SRV_DSTAT, 1, 1⟩
abbrev SRV_DSTAT_TRFAIL : Fld := ⟨SRV_DSTAT, 0, 0⟩
/-- SRV_DPCAP (R284): Sink capabilities. -/
abbrev SRV_DPCAP : Nat := 0x00E00108
abbrev SRV_DPCAP_MAXRATE : Fld := ⟨SRV_DPCAP, 31, 24⟩
abbrev SRV_DPCAP_MAXLANES : Fld := ⟨SRV_DPCAP, 23, 20⟩
abbrev SRV_DPCAP_TPS3 : Fld := ⟨SRV_DPCAP, 19, 19⟩
abbrev SRV_DPCAP_TPS4 : Fld := ⟨SRV_DPCAP, 18, 18⟩
abbrev SRV_DPCAP_PSR : Fld := ⟨SRV_DPCAP, 17, 17⟩
abbrev SRV_DPCAP_EDIDOK : Fld := ⟨SRV_DPCAP, 16, 16⟩
/-- SRV_PCLK (R284): Pixel clock. -/
abbrev SRV_PCLK : Nat := 0x00E0010C
abbrev SRV_PCLK_KHZ : Fld := ⟨SRV_PCLK, 19, 0⟩
/-- SRV_HT0 (R284): Horizontal total and active. -/
abbrev SRV_HT0 : Nat := 0x00E00110
abbrev SRV_HT0_TOTAL : Fld := ⟨SRV_HT0, 31, 16⟩
abbrev SRV_HT0_ACTIVE : Fld := ⟨SRV_HT0, 15, 0⟩
/-- SRV_HT1 (R284): Horizontal sync. -/
abbrev SRV_HT1 : Nat := 0x00E00114
abbrev SRV_HT1_POL : Fld := ⟨SRV_HT1, 31, 31⟩
abbrev SRV_HT1_SW : Fld := ⟨SRV_HT1, 27, 16⟩
abbrev SRV_HT1_FP : Fld := ⟨SRV_HT1, 11, 0⟩
/-- SRV_VT0 (R284): Vertical total and active. -/
abbrev SRV_VT0 : Nat := 0x00E00118
abbrev SRV_VT0_TOTAL : Fld := ⟨SRV_VT0, 31, 16⟩
abbrev SRV_VT0_ACTIVE : Fld := ⟨SRV_VT0, 15, 0⟩
/-- SRV_VT1 (R284): Vertical sync. -/
abbrev SRV_VT1 : Nat := 0x00E0011C
abbrev SRV_VT1_POL : Fld := ⟨SRV_VT1, 31, 31⟩
abbrev SRV_VT1_SW : Fld := ⟨SRV_VT1, 27, 16⟩
abbrev SRV_VT1_FP : Fld := ⟨SRV_VT1, 11, 0⟩
/-- SRV_PSRC[k] (R284): Pass source and curve (banked). -/
abbrev SRV_PSRC (k : Nat) : Nat := 0x00E00200 + 0x20 * k
abbrev SRV_PSRC_EN (k : Nat) : Fld := ⟨SRV_PSRC k, 31, 31⟩
abbrev SRV_PSRC_SRC (k : Nat) : Fld := ⟨SRV_PSRC k, 30, 29⟩
abbrev SRV_PSRC_CH (k : Nat) : Fld := ⟨SRV_PSRC k, 25, 24⟩
abbrev SRV_PSRC_CURVE (k : Nat) : Fld := ⟨SRV_PSRC k, 18, 16⟩
/-- SRV_PDST[k] (R284): Pass position (banked). -/
abbrev SRV_PDST (k : Nat) : Nat := 0x00E00204 + 0x20 * k
abbrev SRV_PDST_DY (k : Nat) : Fld := ⟨SRV_PDST k, 27, 16⟩
abbrev SRV_PDST_DX (k : Nat) : Fld := ⟨SRV_PDST k, 11, 0⟩
/-- SRV_PSIZE[k] (R284): Pass size (banked). -/
abbrev SRV_PSIZE (k : Nat) : Nat := 0x00E00208 + 0x20 * k
abbrev SRV_PSIZE_DH (k : Nat) : Fld := ⟨SRV_PSIZE k, 27, 16⟩
abbrev SRV_PSIZE_DW (k : Nat) : Fld := ⟨SRV_PSIZE k, 11, 0⟩
/-- SRV_PHSTEP[k] (R284): Horizontal step (banked). -/
abbrev SRV_PHSTEP (k : Nat) : Nat := 0x00E0020C + 0x20 * k
abbrev SRV_PHSTEP_STEP (k : Nat) : Fld := ⟨SRV_PHSTEP k, 31, 0⟩
/-- SRV_PVSTEP[k] (R284): Vertical step (banked). -/
abbrev SRV_PVSTEP (k : Nat) : Nat := 0x00E00210 + 0x20 * k
abbrev SRV_PVSTEP_STEP (k : Nat) : Fld := ⟨SRV_PVSTEP k, 31, 0⟩
/-- SRV_PBLEND[k] (R284): Blend operator (banked). -/
abbrev SRV_PBLEND (k : Nat) : Nat := 0x00E00214 + 0x20 * k
abbrev SRV_PBLEND_OP (k : Nat) : Fld := ⟨SRV_PBLEND k, 1, 0⟩
/-- SRV_CURVCFG[t] (R284): Curve t, 0 to 7 (banked). -/
abbrev SRV_CURVCFG (t : Nat) : Nat := 0x00E00400 + 0x4 * t
abbrev SRV_CURVCFG_LOG (t : Nat) : Fld := ⟨SRV_CURVCFG t, 31, 31⟩
abbrev SRV_CURVCFG_SH (t : Nat) : Fld := ⟨SRV_CURVCFG t, 28, 24⟩
abbrev SRV_CURVCFG_XMIN (t : Nat) : Fld := ⟨SRV_CURVCFG t, 23, 0⟩
/-- SRV_BSRC (R284): Blit source base. -/
abbrev SRV_BSRC : Nat := 0x00E00500
abbrev SRV_BSRC_ADDR : Fld := ⟨SRV_BSRC, 31, 0⟩
/-- SRV_BSRCF (R284): Blit source space, format, pitch. -/
abbrev SRV_BSRCF : Nat := 0x00E00504
abbrev SRV_BSRCF_SPACE : Fld := ⟨SRV_BSRCF, 31, 31⟩
abbrev SRV_BSRCF_FMT : Fld := ⟨SRV_BSRCF, 26, 24⟩
abbrev SRV_BSRCF_PITCH : Fld := ⟨SRV_BSRCF, 9, 0⟩
/-- SRV_BDST (R284): Blit destination base. -/
abbrev SRV_BDST : Nat := 0x00E00508
abbrev SRV_BDST_ADDR : Fld := ⟨SRV_BDST, 31, 0⟩
/-- SRV_BDSTF (R284): Blit destination space, format, pitch. -/
abbrev SRV_BDSTF : Nat := 0x00E0050C
abbrev SRV_BDSTF_SPACE : Fld := ⟨SRV_BDSTF, 31, 31⟩
abbrev SRV_BDSTF_FMT : Fld := ⟨SRV_BDSTF, 26, 24⟩
abbrev SRV_BDSTF_PITCH : Fld := ⟨SRV_BDSTF, 9, 0⟩
/-- SRV_BSIZE (R284): Blit width and height. -/
abbrev SRV_BSIZE : Nat := 0x00E00510
abbrev SRV_BSIZE_H : Fld := ⟨SRV_BSIZE, 27, 16⟩
abbrev SRV_BSIZE_W : Fld := ⟨SRV_BSIZE, 11, 0⟩
/-- SRV_BCLIP0 (R284): Clip, first corner. -/
abbrev SRV_BCLIP0 : Nat := 0x00E00514
abbrev SRV_BCLIP0_Y0 : Fld := ⟨SRV_BCLIP0, 27, 16⟩
abbrev SRV_BCLIP0_X0 : Fld := ⟨SRV_BCLIP0, 11, 0⟩
/-- SRV_BCLIP1 (R284): Clip, last corner and enable. -/
abbrev SRV_BCLIP1 : Nat := 0x00E00518
abbrev SRV_BCLIP1_EN : Fld := ⟨SRV_BCLIP1, 31, 31⟩
abbrev SRV_BCLIP1_Y1 : Fld := ⟨SRV_BCLIP1, 27, 16⟩
abbrev SRV_BCLIP1_X1 : Fld := ⟨SRV_BCLIP1, 11, 0⟩
/-- SRV_BFILL (R284): Fill value. -/
abbrev SRV_BFILL : Nat := 0x00E0051C
abbrev SRV_BFILL_VALUE : Fld := ⟨SRV_BFILL, 31, 0⟩
/-- SRV_BCTL (R284): Blit start, operator, watermark. -/
abbrev SRV_BCTL : Nat := 0x00E00520
abbrev SRV_BCTL_GO : Fld := ⟨SRV_BCTL, 31, 31⟩
abbrev SRV_BCTL_OP : Fld := ⟨SRV_BCTL, 26, 24⟩
abbrev SRV_BCTL_WM : Fld := ⟨SRV_BCTL, 11, 0⟩
/-- SRV_BSTAT (R284): Blit state. -/
abbrev SRV_BSTAT : Nat := 0x00E00524
abbrev SRV_BSTAT_BUSY : Fld := ⟨SRV_BSTAT, 31, 31⟩
abbrev SRV_BSTAT_ERRCODE : Fld := ⟨SRV_BSTAT, 30, 28⟩
abbrev SRV_BSTAT_ROWS : Fld := ⟨SRV_BSTAT, 27, 16⟩
abbrev SRV_BSTAT_OVR : Fld := ⟨SRV_BSTAT, 3, 3⟩
abbrev SRV_BSTAT_ERR : Fld := ⟨SRV_BSTAT, 2, 2⟩
abbrev SRV_BSTAT_DONE : Fld := ⟨SRV_BSTAT, 1, 1⟩
abbrev SRV_BSTAT_ROWEV : Fld := ⟨SRV_BSTAT, 0, 0⟩
/-- SRV_EDID[i] (R284): EDID block 0, bytes 4i to 4i + 3. -/
abbrev SRV_EDID (i : Nat) : Nat := 0x00E01000 + 0x4 * i
abbrev SRV_EDID_BYTES (i : Nat) : Fld := ⟨SRV_EDID i, 31, 0⟩
/-- SRV_CURVE[t][e] (R284): Entry e of curve t (banked). -/
abbrev SRV_CURVE (t : Nat) (e : Nat) : Nat := 0x00E40000 + 0x1000 * t + 0x4 * e
abbrev SRV_CURVE_COLOR (t : Nat) (e : Nat) : Fld := ⟨SRV_CURVE t e, 31, 0⟩
/-- SRV_SCOEF[s][p][j] (R284): Scaler set s, phase p, tap j (banked). -/
abbrev SRV_SCOEF (s : Nat) (p : Nat) (j : Nat) : Nat := 0x00E50000 + 0x800 * s + 0x20 * p + 0x4 * j
abbrev SRV_SCOEF_COEF (s : Nat) (p : Nat) (j : Nat) : Fld := ⟨SRV_SCOEF s p j, 11, 0⟩

/-! ### CVL -/

/-- CVL_CFG (R308): Counts, from the image. -/
abbrev CVL_CFG : Nat := 0x00F00000
abbrev CVL_CFG_NLOOP : Fld := ⟨CVL_CFG, 30, 24⟩
abbrev CVL_CFG_NPAIR : Fld := ⟨CVL_CFG, 22, 16⟩
abbrev CVL_CFG_NCELL : Fld := ⟨CVL_CFG, 5, 0⟩
/-- CVL_STAT (R308): Events. -/
abbrev CVL_STAT : Nat := 0x00F00004
abbrev CVL_STAT_ECCU : Fld := ⟨CVL_STAT, 3, 3⟩
abbrev CVL_STAT_OVR : Fld := ⟨CVL_STAT, 2, 2⟩
abbrev CVL_STAT_TRIP : Fld := ⟨CVL_STAT, 1, 1⟩
abbrev CVL_STAT_ANYTRIP : Fld := ⟨CVL_STAT, 0, 0⟩
/-- CVL_TRIPST_LO (R308): Groups 0-31 tripped. -/
abbrev CVL_TRIPST_LO : Nat := 0x00F00008
abbrev CVL_TRIPST_LO_GRP : Fld := ⟨CVL_TRIPST_LO, 31, 0⟩
/-- CVL_TRIPST_HI (R308): Groups 32-63 tripped. -/
abbrev CVL_TRIPST_HI : Nat := 0x00F0000C
abbrev CVL_TRIPST_HI_GRP : Fld := ⟨CVL_TRIPST_HI, 31, 0⟩
/-- CVL_TRIPCLR_LO (R308): Clear latched trips, groups 0-31. -/
abbrev CVL_TRIPCLR_LO : Nat := 0x00F00010
abbrev CVL_TRIPCLR_LO_CLR : Fld := ⟨CVL_TRIPCLR_LO, 31, 0⟩
/-- CVL_TRIPCLR_HI (R308): Clear latched trips, groups 32-63. -/
abbrev CVL_TRIPCLR_HI : Nat := 0x00F00014
abbrev CVL_TRIPCLR_HI_CLR : Fld := ⟨CVL_TRIPCLR_HI, 31, 0⟩
/-- CVL_TEMP (R308): On-die temperature. -/
abbrev CVL_TEMP : Nat := 0x00F00018
abbrev CVL_TEMP_TJ : Fld := ⟨CVL_TEMP, 15, 0⟩
/-- CVL_ECCCNT (R308): ECC counts. -/
abbrev CVL_ECCCNT : Nat := 0x00F0001C
abbrev CVL_ECCCNT_CORR : Fld := ⟨CVL_ECCCNT, 31, 16⟩
abbrev CVL_ECCCNT_UNCORR : Fld := ⟨CVL_ECCCNT, 15, 0⟩
/-- CVL_CMPLVL[w] (R308): Comparator levels, w = 0 to 2. -/
abbrev CVL_CMPLVL (w : Nat) : Nat := 0x00F00020 + 0x4 * w
abbrev CVL_CMPLVL_LVL (w : Nat) : Fld := ⟨CVL_CMPLVL w, 31, 0⟩
/-- CVL_CCFG[n] (R308): Cell mode, source, group. -/
abbrev CVL_CCFG (n : Nat) : Nat := 0x00F00400 + 0x10 * n
abbrev CVL_CCFG_MODE (n : Nat) : Fld := ⟨CVL_CCFG n, 31, 30⟩
abbrev CVL_CCFG_DSRC (n : Nat) : Fld := ⟨CVL_CCFG n, 29, 28⟩
abbrev CVL_CCFG_DIDX (n : Nat) : Fld := ⟨CVL_CCFG n, 27, 22⟩
abbrev CVL_CCFG_GEN (n : Nat) : Fld := ⟨CVL_CCFG n, 21, 21⟩
abbrev CVL_CCFG_GRP (n : Nat) : Fld := ⟨CVL_CCFG n, 20, 15⟩
/-- CVL_CDAC[n] (R308): DAC code (banked). -/
abbrev CVL_CDAC (n : Nat) : Nat := 0x00F00404 + 0x10 * n
abbrev CVL_CDAC_CODE (n : Nat) : Fld := ⟨CVL_CDAC n, 13, 0⟩
/-- CVL_CRES[n] (R308): Last conversion. -/
abbrev CVL_CRES (n : Nat) : Nat := 0x00F00408 + 0x10 * n
abbrev CVL_CRES_OVR (n : Nat) : Fld := ⟨CVL_CRES n, 31, 31⟩
abbrev CVL_CRES_SEQ (n : Nat) : Fld := ⟨CVL_CRES n, 30, 16⟩
abbrev CVL_CRES_CODE (n : Nat) : Fld := ⟨CVL_CRES n, 13, 0⟩
/-- CVL_CMPCFG[k] (R308): Threshold and trip (banked). -/
abbrev CVL_CMPCFG (k : Nat) : Nat := 0x00F00800 + 0x8 * k
abbrev CVL_CMPCFG_TEN (k : Nat) : Fld := ⟨CVL_CMPCFG k, 31, 31⟩
abbrev CVL_CMPCFG_CYC (k : Nat) : Fld := ⟨CVL_CMPCFG k, 30, 30⟩
abbrev CVL_CMPCFG_GRP (k : Nat) : Fld := ⟨CVL_CMPCFG k, 29, 24⟩
abbrev CVL_CMPCFG_HYST (k : Nat) : Fld := ⟨CVL_CMPCFG k, 11, 10⟩
abbrev CVL_CMPCFG_THR (k : Nat) : Fld := ⟨CVL_CMPCFG k, 9, 0⟩
/-- CVL_CMPBLK[k] (R308): Blanking (banked). -/
abbrev CVL_CMPBLK (k : Nat) : Nat := 0x00F00804 + 0x8 * k
abbrev CVL_CMPBLK_BEDGE (k : Nat) : Fld := ⟨CVL_CMPBLK k, 31, 30⟩
abbrev CVL_CMPBLK_BPAIR (k : Nat) : Fld := ⟨CVL_CMPBLK k, 13, 8⟩
abbrev CVL_CMPBLK_BLANK (k : Nat) : Fld := ⟨CVL_CMPBLK k, 7, 0⟩
/-- CVL_PCFG[m] (R308): Mode, clock, sync, group, mask. -/
abbrev CVL_PCFG (m : Nat) : Nat := 0x00F01000 + 0x20 * m
abbrev CVL_PCFG_MODE (m : Nat) : Fld := ⟨CVL_PCFG m, 31, 30⟩
abbrev CVL_PCFG_DIV (m : Nat) : Fld := ⟨CVL_PCFG m, 29, 27⟩
abbrev CVL_PCFG_SYNCN (m : Nat) : Fld := ⟨CVL_PCFG m, 26, 18⟩
abbrev CVL_PCFG_GEN (m : Nat) : Fld := ⟨CVL_PCFG m, 17, 17⟩
abbrev CVL_PCFG_GRP (m : Nat) : Fld := ⟨CVL_PCFG m, 16, 11⟩
abbrev CVL_PCFG_SAFEA (m : Nat) : Fld := ⟨CVL_PCFG m, 10, 10⟩
abbrev CVL_PCFG_SAFEB (m : Nat) : Fld := ⟨CVL_PCFG m, 9, 9⟩
abbrev CVL_PCFG_QEN (m : Nat) : Fld := ⟨CVL_PCFG m, 8, 8⟩
abbrev CVL_PCFG_QSEL (m : Nat) : Fld := ⟨CVL_PCFG m, 7, 6⟩
/-- CVL_PPER[m] (R308): Period (banked). -/
abbrev CVL_PPER (m : Nat) : Nat := 0x00F01004 + 0x20 * m
abbrev CVL_PPER_PER (m : Nat) : Fld := ⟨CVL_PPER m, 15, 0⟩
/-- CVL_PDUTYA[m] (R308): Duty A (banked). -/
abbrev CVL_PDUTYA (m : Nat) : Nat := 0x00F01008 + 0x20 * m
abbrev CVL_PDUTYA_DUTY (m : Nat) : Fld := ⟨CVL_PDUTYA m, 19, 0⟩
/-- CVL_PDUTYB[m] (R308): Duty B (banked). -/
abbrev CVL_PDUTYB (m : Nat) : Nat := 0x00F0100C + 0x20 * m
abbrev CVL_PDUTYB_DUTY (m : Nat) : Fld := ⟨CVL_PDUTYB m, 19, 0⟩
/-- CVL_PDT[m] (R308): Dead times (banked). -/
abbrev CVL_PDT (m : Nat) : Nat := 0x00F01010 + 0x20 * m
abbrev CVL_PDT_DTA (m : Nat) : Fld := ⟨CVL_PDT m, 27, 16⟩
abbrev CVL_PDT_DTB (m : Nat) : Fld := ⟨CVL_PDT m, 11, 0⟩
/-- CVL_PCTL[m] (R308): Update point, alignment, guard (banked). -/
abbrev CVL_PCTL (m : Nat) : Nat := 0x00F01014 + 0x20 * m
abbrev CVL_PCTL_UPD (m : Nat) : Fld := ⟨CVL_PCTL m, 31, 30⟩
abbrev CVL_PCTL_ALIGN (m : Nat) : Fld := ⟨CVL_PCTL m, 29, 28⟩
abbrev CVL_PCTL_QGUARD (m : Nat) : Fld := ⟨CVL_PCTL m, 7, 0⟩
/-- CVL_PSTAT[m] (R308): Trip state and duty account. -/
abbrev CVL_PSTAT (m : Nat) : Nat := 0x00F01018 + 0x20 * m
abbrev CVL_PSTAT_TRIPPED (m : Nat) : Fld := ⟨CVL_PSTAT m, 31, 31⟩
abbrev CVL_PSTAT_ACCT (m : Nat) : Fld := ⟨CVL_PSTAT m, 20, 0⟩
/-- CVL_PCNT[m] (R308): Counter. -/
abbrev CVL_PCNT (m : Nat) : Nat := 0x00F0101C + 0x20 * m
abbrev CVL_PCNT_COUNT (m : Nat) : Fld := ⟨CVL_PCNT m, 15, 0⟩
/-- CVL_LCFG[i] (R308): Cell, sources, output. -/
abbrev CVL_LCFG (i : Nat) : Nat := 0x00F02000 + 0x80 * i
abbrev CVL_LCFG_EN (i : Nat) : Fld := ⟨CVL_LCFG i, 31, 31⟩
abbrev CVL_LCFG_CELL (i : Nat) : Fld := ⟨CVL_LCFG i, 30, 25⟩
abbrev CVL_LCFG_SSRC (i : Nat) : Fld := ⟨CVL_LCFG i, 24, 23⟩
abbrev CVL_LCFG_SIDX (i : Nat) : Fld := ⟨CVL_LCFG i, 22, 17⟩
abbrev CVL_LCFG_OMODE (i : Nat) : Fld := ⟨CVL_LCFG i, 16, 15⟩
abbrev CVL_LCFG_OIDX (i : Nat) : Fld := ⟨CVL_LCFG i, 14, 9⟩
abbrev CVL_LCFG_TSRC (i : Nat) : Fld := ⟨CVL_LCFG i, 8, 7⟩
abbrev CVL_LCFG_TIDX (i : Nat) : Fld := ⟨CVL_LCFG i, 6, 1⟩
abbrev CVL_LCFG_TRIPRST (i : Nat) : Fld := ⟨CVL_LCFG i, 0, 0⟩
/-- CVL_LSAMP[i] (R308): Sampling (banked). -/
abbrev CVL_LSAMP (i : Nat) : Nat := 0x00F02004 + 0x80 * i
abbrev CVL_LSAMP_DECIM (i : Nat) : Fld := ⟨CVL_LSAMP i, 31, 24⟩
abbrev CVL_LSAMP_SGEN (i : Nat) : Fld := ⟨CVL_LSAMP i, 21, 16⟩
abbrev CVL_LSAMP_SOFF (i : Nat) : Fld := ⟨CVL_LSAMP i, 15, 0⟩
/-- CVL_LSET[i] (R308): Setpoint and slew (banked). -/
abbrev CVL_LSET (i : Nat) : Nat := 0x00F02008 + 0x80 * i
abbrev CVL_LSET_SLEW (i : Nat) : Fld := ⟨CVL_LSET i, 31, 16⟩
abbrev CVL_LSET_SET (i : Nat) : Fld := ⟨CVL_LSET i, 13, 0⟩
/-- CVL_LTC[i] (R308): Temperature compensation (banked). -/
abbrev CVL_LTC (i : Nat) : Nat := 0x00F0200C + 0x80 * i
abbrev CVL_LTC_TC (i : Nat) : Fld := ⟨CVL_LTC i, 31, 16⟩
abbrev CVL_LTC_TREF (i : Nat) : Fld := ⟨CVL_LTC i, 15, 0⟩
/-- CVL_LOMAP[i] (R308): Output map (banked). -/
abbrev CVL_LOMAP (i : Nat) : Nat := 0x00F02010 + 0x80 * i
abbrev CVL_LOMAP_OSH (i : Nat) : Fld := ⟨CVL_LOMAP i, 31, 27⟩
abbrev CVL_LOMAP_OOFF (i : Nat) : Fld := ⟨CVL_LOMAP i, 20, 0⟩
/-- CVL_LUMIN[i] (R308): Clamp minimum (banked). -/
abbrev CVL_LUMIN (i : Nat) : Nat := 0x00F02014 + 0x80 * i
abbrev CVL_LUMIN_LIM (i : Nat) : Fld := ⟨CVL_LUMIN i, 31, 0⟩
/-- CVL_LUMAX[i] (R308): Clamp maximum (banked). -/
abbrev CVL_LUMAX (i : Nat) : Nat := 0x00F02018 + 0x80 * i
abbrev CVL_LUMAX_LIM (i : Nat) : Fld := ⟨CVL_LUMAX i, 31, 0⟩
/-- CVL_LCOEF[i][s][j] (R308): Section s, coefficient j: b0, b1, b2, a1, a2 (banked). -/
abbrev CVL_LCOEF (i : Nat) (s : Nat) (j : Nat) : Nat := 0x00F02020 + 0x80 * i + 0x14 * s + 0x4 * j
abbrev CVL_LCOEF_COEF (i : Nat) (s : Nat) (j : Nat) : Fld := ⟨CVL_LCOEF i s j, 31, 0⟩
/-- CVL_LSTAT[i] (R308): Loop state. -/
abbrev CVL_LSTAT (i : Nat) : Nat := 0x00F02048 + 0x80 * i
abbrev CVL_LSTAT_TRIPPED (i : Nat) : Fld := ⟨CVL_LSTAT i, 31, 31⟩
abbrev CVL_LSTAT_CLAMP (i : Nat) : Fld := ⟨CVL_LSTAT i, 30, 30⟩
abbrev CVL_LSTAT_SKIP (i : Nat) : Fld := ⟨CVL_LSTAT i, 29, 29⟩
abbrev CVL_LSTAT_X (i : Nat) : Fld := ⟨CVL_LSTAT i, 13, 0⟩
/-- CVL_LOUT[i] (R308): Last u. -/
abbrev CVL_LOUT (i : Nat) : Nat := 0x00F0204C + 0x80 * i
abbrev CVL_LOUT_U (i : Nat) : Fld := ⟨CVL_LOUT i, 31, 0⟩
/-- CVL_LSP[i] (R308): Effective setpoint sp. -/
abbrev CVL_LSP (i : Nat) : Nat := 0x00F02050 + 0x80 * i
abbrev CVL_LSP_SP (i : Nat) : Fld := ⟨CVL_LSP i, 15, 0⟩
/-- CVL_MSCFG[u] (R308): Pairs and table. -/
abbrev CVL_MSCFG (u : Nat) : Nat := 0x00F04000 + 0x10 * u
abbrev CVL_MSCFG_EN (u : Nat) : Fld := ⟨CVL_MSCFG u, 31, 31⟩
abbrev CVL_MSCFG_PAIR0 (u : Nat) : Fld := ⟨CVL_MSCFG u, 30, 25⟩
abbrev CVL_MSCFG_TBL (u : Nat) : Fld := ⟨CVL_MSCFG u, 24, 23⟩
/-- CVL_MSTGT[u] (R308): Target position. -/
abbrev CVL_MSTGT (u : Nat) : Nat := 0x00F04004 + 0x10 * u
abbrev CVL_MSTGT_TGT (u : Nat) : Fld := ⟨CVL_MSTGT u, 31, 0⟩
/-- CVL_MSRATE[u] (R308): Amplitude and stepping (banked). -/
abbrev CVL_MSRATE (u : Nat) : Nat := 0x00F04008 + 0x10 * u
abbrev CVL_MSRATE_AMP (u : Nat) : Fld := ⟨CVL_MSRATE u, 31, 16⟩
abbrev CVL_MSRATE_INC (u : Nat) : Fld := ⟨CVL_MSRATE u, 15, 8⟩
abbrev CVL_MSRATE_DIV (u : Nat) : Fld := ⟨CVL_MSRATE u, 7, 0⟩
/-- CVL_MSPOS[u] (R308): Position. -/
abbrev CVL_MSPOS (u : Nat) : Nat := 0x00F0400C + 0x10 * u
abbrev CVL_MSPOS_POS (u : Nat) : Fld := ⟨CVL_MSPOS u, 31, 0⟩
/-- CVL_MSTBL[t][e] (R308): Table t, entry e (banked). -/
abbrev CVL_MSTBL (t : Nat) (e : Nat) : Nat := 0x00F10000 + 0x1000 * t + 0x4 * e
abbrev CVL_MSTBL_VAL (t : Nat) (e : Nat) : Fld := ⟨CVL_MSTBL t e, 15, 0⟩
/-- CVL_QMASK[q][w] (R308): Mask q, slots 32w to 32w + 31 (banked). -/
abbrev CVL_QMASK (q : Nat) (w : Nat) : Nat := 0x00F20000 + 0x2000 * q + 0x4 * w
abbrev CVL_QMASK_SENS (q : Nat) (w : Nat) : Fld := ⟨CVL_QMASK q w, 31, 0⟩

/-! ### VOX -/

/-- VOX_CFG (R319): Counts, from the image. -/
abbrev VOX_CFG : Nat := 0x01000000
abbrev VOX_CFG_NVOICE : Fld := ⟨VOX_CFG, 22, 16⟩
abbrev VOX_CFG_NBUS : Fld := ⟨VOX_CFG, 4, 0⟩
/-- VOX_STAT (R319): Events. -/
abbrev VOX_STAT : Nat := 0x01000004
abbrev VOX_STAT_ECCU : Fld := ⟨VOX_STAT, 2, 2⟩
abbrev VOX_STAT_CLIP : Fld := ⟨VOX_STAT, 1, 1⟩
abbrev VOX_STAT_ANYRUN : Fld := ⟨VOX_STAT, 0, 0⟩
/-- VOX_ECCCNT (R319): ECC counts. -/
abbrev VOX_ECCCNT : Nat := 0x01000008
abbrev VOX_ECCCNT_CORR : Fld := ⟨VOX_ECCCNT, 31, 16⟩
abbrev VOX_ECCCNT_UNCORR : Fld := ⟨VOX_ECCCNT, 15, 0⟩
/-- VOX_BCFG[b] (R319): Rate and sections. -/
abbrev VOX_BCFG (b : Nat) : Nat := 0x01001000 + 0x100 * b
abbrev VOX_BCFG_RATE (b : Nat) : Fld := ⟨VOX_BCFG b, 31, 30⟩
abbrev VOX_BCFG_NBQ (b : Nat) : Fld := ⟨VOX_BCFG b, 29, 26⟩
/-- VOX_BIN[b] (R319): Input cells. -/
abbrev VOX_BIN (b : Nat) : Nat := 0x01001004 + 0x100 * b
abbrev VOX_BIN_EN0 (b : Nat) : Fld := ⟨VOX_BIN b, 7, 7⟩
abbrev VOX_BIN_EN1 (b : Nat) : Fld := ⟨VOX_BIN b, 15, 15⟩
abbrev VOX_BIN_EN2 (b : Nat) : Fld := ⟨VOX_BIN b, 23, 23⟩
abbrev VOX_BIN_EN3 (b : Nat) : Fld := ⟨VOX_BIN b, 31, 31⟩
abbrev VOX_BIN_CELL0 (b : Nat) : Fld := ⟨VOX_BIN b, 5, 0⟩
abbrev VOX_BIN_CELL1 (b : Nat) : Fld := ⟨VOX_BIN b, 13, 8⟩
abbrev VOX_BIN_CELL2 (b : Nat) : Fld := ⟨VOX_BIN b, 21, 16⟩
abbrev VOX_BIN_CELL3 (b : Nat) : Fld := ⟨VOX_BIN b, 29, 24⟩
/-- VOX_BHPF[b] (R319): Offset remover (banked). -/
abbrev VOX_BHPF (b : Nat) : Nat := 0x01001008 + 0x100 * b
abbrev VOX_BHPF_K (b : Nat) : Fld := ⟨VOX_BHPF b, 4, 0⟩
/-- VOX_BGAIN[b] (R319): Gain and limiter (banked). -/
abbrev VOX_BGAIN (b : Nat) : Nat := 0x0100100C + 0x100 * b
abbrev VOX_BGAIN_LIM (b : Nat) : Fld := ⟨VOX_BGAIN b, 31, 16⟩
abbrev VOX_BGAIN_GAIN (b : Nat) : Fld := ⟨VOX_BGAIN b, 15, 0⟩
/-- VOX_BOUT[b] (R319): DAC offset (banked). -/
abbrev VOX_BOUT (b : Nat) : Nat := 0x01001010 + 0x100 * b
abbrev VOX_BOUT_DACOFF (b : Nat) : Fld := ⟨VOX_BOUT b, 13, 0⟩
/-- VOX_BMCFG[b] (R319): Meter settings. -/
abbrev VOX_BMCFG (b : Nat) : Nat := 0x01001014 + 0x100 * b
abbrev VOX_BMCFG_HOLD (b : Nat) : Fld := ⟨VOX_BMCFG b, 31, 24⟩
abbrev VOX_BMCFG_PKCLR (b : Nat) : Fld := ⟨VOX_BMCFG b, 23, 23⟩
abbrev VOX_BMCFG_DEC (b : Nat) : Fld := ⟨VOX_BMCFG b, 12, 8⟩
abbrev VOX_BMCFG_RK (b : Nat) : Fld := ⟨VOX_BMCFG b, 4, 0⟩
/-- VOX_BMETER[b] (R319): RMS and peak. -/
abbrev VOX_BMETER (b : Nat) : Nat := 0x01001018 + 0x100 * b
abbrev VOX_BMETER_RMS (b : Nat) : Fld := ⟨VOX_BMETER b, 31, 16⟩
abbrev VOX_BMETER_PEAK (b : Nat) : Fld := ⟨VOX_BMETER b, 15, 0⟩
/-- VOX_BSTAT[b] (R319): Clip events. -/
abbrev VOX_BSTAT (b : Nat) : Nat := 0x0100101C + 0x100 * b
abbrev VOX_BSTAT_CLIPS (b : Nat) : Fld := ⟨VOX_BSTAT b, 31, 16⟩
abbrev VOX_BSTAT_CLIP (b : Nat) : Fld := ⟨VOX_BSTAT b, 0, 0⟩
/-- VOX_BSAMP[b] (R319): Last sample. -/
abbrev VOX_BSAMP (b : Nat) : Nat := 0x01001020 + 0x100 * b
abbrev VOX_BSAMP_S16 (b : Nat) : Fld := ⟨VOX_BSAMP b, 15, 0⟩
/-- VOX_BCOEF[b][s][j] (R319): Section s, coefficient j: b0, b1, b2, a1, a2 (banked). -/
abbrev VOX_BCOEF (b : Nat) (s : Nat) (j : Nat) : Nat := 0x01001040 + 0x100 * b + 0x14 * s + 0x4 * j
abbrev VOX_BCOEF_COEF (b : Nat) (s : Nat) (j : Nat) : Fld := ⟨VOX_BCOEF b s j, 31, 0⟩
/-- VOX_VCFG[v] (R319): Bus, type, trigger mode. -/
abbrev VOX_VCFG (v : Nat) : Nat := 0x01004000 + 0x40 * v
abbrev VOX_VCFG_EN (v : Nat) : Fld := ⟨VOX_VCFG v, 31, 31⟩
abbrev VOX_VCFG_BUS (v : Nat) : Fld := ⟨VOX_VCFG v, 30, 27⟩
abbrev VOX_VCFG_TYPE (v : Nat) : Fld := ⟨VOX_VCFG v, 26, 25⟩
abbrev VOX_VCFG_TMODE (v : Nat) : Fld := ⟨VOX_VCFG v, 24, 23⟩
/-- VOX_VFREQ[v] (R319): Phase increment (banked). -/
abbrev VOX_VFREQ (v : Nat) : Nat := 0x01004004 + 0x40 * v
abbrev VOX_VFREQ_INC (v : Nat) : Fld := ⟨VOX_VFREQ v, 31, 0⟩
/-- VOX_VAMP[v] (R319): Amplitude (banked). -/
abbrev VOX_VAMP (v : Nat) : Nat := 0x01004008 + 0x40 * v
abbrev VOX_VAMP_AMP (v : Nat) : Fld := ⟨VOX_VAMP v, 15, 0⟩
/-- VOX_VPW[v] (R319): Pulse width or noise seed (banked). -/
abbrev VOX_VPW (v : Nat) : Nat := 0x0100400C + 0x40 * v
abbrev VOX_VPW_PW (v : Nat) : Fld := ⟨VOX_VPW v, 31, 0⟩
/-- VOX_VWAVE[v] (R319): Wave window (banked). -/
abbrev VOX_VWAVE (v : Nat) : Nat := 0x01004010 + 0x40 * v
abbrev VOX_VWAVE_WLEN (v : Nat) : Fld := ⟨VOX_VWAVE v, 26, 22⟩
abbrev VOX_VWAVE_WSTART (v : Nat) : Fld := ⟨VOX_VWAVE v, 16, 0⟩
/-- VOX_VTRIG[v] (R319): Slot trigger (banked). -/
abbrev VOX_VTRIG (v : Nat) : Nat := 0x01004014 + 0x40 * v
abbrev VOX_VTRIG_FCMD (v : Nat) : Fld := ⟨VOX_VTRIG v, 31, 24⟩
abbrev VOX_VTRIG_ODIV (v : Nat) : Fld := ⟨VOX_VTRIG v, 23, 16⟩
abbrev VOX_VTRIG_TSLOT (v : Nat) : Fld := ⟨VOX_VTRIG v, 15, 0⟩
/-- VOX_VCNT[v] (R319): Start delay and cycle count (banked). -/
abbrev VOX_VCNT (v : Nat) : Nat := 0x01004018 + 0x40 * v
abbrev VOX_VCNT_TDEL (v : Nat) : Fld := ⟨VOX_VCNT v, 31, 16⟩
abbrev VOX_VCNT_COUNT (v : Nat) : Fld := ⟨VOX_VCNT v, 15, 0⟩
/-- VOX_VCTL[v] (R319): Start and stop. -/
abbrev VOX_VCTL (v : Nat) : Nat := 0x0100401C + 0x40 * v
abbrev VOX_VCTL_STOP (v : Nat) : Fld := ⟨VOX_VCTL v, 1, 1⟩
abbrev VOX_VCTL_START (v : Nat) : Fld := ⟨VOX_VCTL v, 0, 0⟩
/-- VOX_VSTAT[v] (R319): Run state. -/
abbrev VOX_VSTAT (v : Nat) : Nat := 0x01004020 + 0x40 * v
abbrev VOX_VSTAT_RUN (v : Nat) : Fld := ⟨VOX_VSTAT v, 31, 31⟩
abbrev VOX_VSTAT_CYC (v : Nat) : Fld := ⟨VOX_VSTAT v, 15, 0⟩
/-- VOX_WAVE[w] (R319): Wave memory, samples 2w and 2w + 1. -/
abbrev VOX_WAVE (w : Nat) : Nat := 0x01040000 + 0x4 * w
abbrev VOX_WAVE_SHI (w : Nat) : Fld := ⟨VOX_WAVE w, 31, 16⟩
abbrev VOX_WAVE_SLO (w : Nat) : Fld := ⟨VOX_WAVE w, 15, 0⟩

/-! ### TMR -/

/-- TMR_EVCTL (R336): Snapshot and clear all event counters. -/
abbrev TMR_EVCTL : Nat := 0x01100000
abbrev TMR_EVCTL_CLRALL : Fld := ⟨TMR_EVCTL, 1, 1⟩
abbrev TMR_EVCTL_SNAP : Fld := ⟨TMR_EVCTL, 0, 0⟩
/-- TMR_EVSTAT (R336): Event counter summary. -/
abbrev TMR_EVSTAT : Nat := 0x01100004
abbrev TMR_EVSTAT_SNAPCNT : Fld := ⟨TMR_EVSTAT, 31, 16⟩
abbrev TMR_EVSTAT_EVOVF : Fld := ⟨TMR_EVSTAT, 0, 0⟩
/-- TMR_SNAPT_LO (R336): Reference time of the last snapshot, bits [31:0]; a read latches TMR_SNAPT_HI. -/
abbrev TMR_SNAPT_LO : Nat := 0x01100008
abbrev TMR_SNAPT_LO_TIME_L : Fld := ⟨TMR_SNAPT_LO, 31, 0⟩
/-- TMR_SNAPT_HI (R336): Bits [63:32], as latched. -/
abbrev TMR_SNAPT_HI : Nat := 0x0110000C
abbrev TMR_SNAPT_HI_TIME_H : Fld := ⟨TMR_SNAPT_HI, 31, 0⟩
/-- TMR_CTL[n] (R336): Run, source, link, capture, actions, event mask. -/
abbrev TMR_CTL (n : Nat) : Nat := 0x01101000 + 0x20 * n
abbrev TMR_CTL_RUN (n : Nat) : Fld := ⟨TMR_CTL n, 31, 31⟩
abbrev TMR_CTL_LINK (n : Nat) : Fld := ⟨TMR_CTL n, 30, 30⟩
abbrev TMR_CTL_SRC (n : Nat) : Fld := ⟨TMR_CTL n, 29, 27⟩
abbrev TMR_CTL_EDGE (n : Nat) : Fld := ⟨TMR_CTL n, 26, 25⟩
abbrev TMR_CTL_CSEL (n : Nat) : Fld := ⟨TMR_CTL n, 24, 22⟩
abbrev TMR_CTL_CEDGE (n : Nat) : Fld := ⟨TMR_CTL n, 21, 20⟩
abbrev TMR_CTL_MACT (n : Nat) : Fld := ⟨TMR_CTL n, 19, 16⟩
abbrev TMR_CTL_OACT (n : Nat) : Fld := ⟨TMR_CTL n, 15, 12⟩
abbrev TMR_CTL_IEN (n : Nat) : Fld := ⟨TMR_CTL n, 11, 8⟩
/-- TMR_PRE[n] (R336): Prescaler factor. -/
abbrev TMR_PRE (n : Nat) : Nat := 0x01101004 + 0x20 * n
abbrev TMR_PRE_PINT (n : Nat) : Fld := ⟨TMR_PRE n, 23, 8⟩
abbrev TMR_PRE_PFRAC (n : Nat) : Fld := ⟨TMR_PRE n, 7, 0⟩
/-- TMR_CNT[n] (R336): Count. -/
abbrev TMR_CNT (n : Nat) : Nat := 0x01101008 + 0x20 * n
abbrev TMR_CNT_CNT (n : Nat) : Fld := ⟨TMR_CNT n, 31, 0⟩
/-- TMR_CMP[n] (R336): Compare value. -/
abbrev TMR_CMP (n : Nat) : Nat := 0x0110100C + 0x20 * n
abbrev TMR_CMP_CMP (n : Nat) : Fld := ⟨TMR_CMP n, 31, 0⟩
/-- TMR_PER[n] (R336): Period. -/
abbrev TMR_PER (n : Nat) : Nat := 0x01101010 + 0x20 * n
abbrev TMR_PER_PER (n : Nat) : Fld := ⟨TMR_PER n, 31, 0⟩
/-- TMR_STAT[n] (R336): Events and queue state. -/
abbrev TMR_STAT (n : Nat) : Nat := 0x01101014 + 0x20 * n
abbrev TMR_STAT_NUM (n : Nat) : Fld := ⟨TMR_STAT n, 11, 9⟩
abbrev TMR_STAT_SUPP (n : Nat) : Fld := ⟨TMR_STAT n, 8, 8⟩
abbrev TMR_STAT_WDROP (n : Nat) : Fld := ⟨TMR_STAT n, 7, 7⟩
abbrev TMR_STAT_ARMED (n : Nat) : Fld := ⟨TMR_STAT n, 5, 5⟩
abbrev TMR_STAT_CAPOVF (n : Nat) : Fld := ⟨TMR_STAT n, 4, 4⟩
abbrev TMR_STAT_CAP (n : Nat) : Fld := ⟨TMR_STAT n, 3, 3⟩
abbrev TMR_STAT_OVF (n : Nat) : Fld := ⟨TMR_STAT n, 2, 2⟩
abbrev TMR_STAT_PERIOD (n : Nat) : Fld := ⟨TMR_STAT n, 1, 1⟩
abbrev TMR_STAT_MATCH (n : Nat) : Fld := ⟨TMR_STAT n, 0, 0⟩
/-- TMR_CAP[n] (R336): Oldest capture; a read removes it. -/
abbrev TMR_CAP (n : Nat) : Nat := 0x01101018 + 0x20 * n
abbrev TMR_CAP_VALUE (n : Nat) : Fld := ⟨TMR_CAP n, 31, 0⟩
/-- TMR_ESEL[k] (R336): Source, enable, clear. -/
abbrev TMR_ESEL (k : Nat) : Nat := 0x01104000 + 0x20 * k
abbrev TMR_ESEL_EN (k : Nat) : Fld := ⟨TMR_ESEL k, 31, 31⟩
abbrev TMR_ESEL_CLR (k : Nat) : Fld := ⟨TMR_ESEL k, 30, 30⟩
abbrev TMR_ESEL_OVF (k : Nat) : Fld := ⟨TMR_ESEL k, 29, 29⟩
abbrev TMR_ESEL_SRC (k : Nat) : Fld := ⟨TMR_ESEL k, 9, 0⟩
/-- TMR_ECNT_LO[k] (R336): Count bits [31:0]; a read latches TMR_ECNT_HI[k]. -/
abbrev TMR_ECNT_LO (k : Nat) : Nat := 0x01104004 + 0x20 * k
abbrev TMR_ECNT_LO_CNT_L (k : Nat) : Fld := ⟨TMR_ECNT_LO k, 31, 0⟩
/-- TMR_ECNT_HI[k] (R336): Count bits [47:32], as latched. -/
abbrev TMR_ECNT_HI (k : Nat) : Nat := 0x01104008 + 0x20 * k
abbrev TMR_ECNT_HI_CNT_H (k : Nat) : Fld := ⟨TMR_ECNT_HI k, 15, 0⟩
/-- TMR_ESNAP_LO[k] (R336): Snapshot bits [31:0]. -/
abbrev TMR_ESNAP_LO (k : Nat) : Nat := 0x0110400C + 0x20 * k
abbrev TMR_ESNAP_LO_SNAP_L (k : Nat) : Fld := ⟨TMR_ESNAP_LO k, 31, 0⟩
/-- TMR_ESNAP_HI[k] (R336): Snapshot bits [47:32]. -/
abbrev TMR_ESNAP_HI (k : Nat) : Nat := 0x01104010 + 0x20 * k
abbrev TMR_ESNAP_HI_SNAP_H (k : Nat) : Fld := ⟨TMR_ESNAP_HI k, 15, 0⟩

/-! ### SEP -/

/-- SEP_STAT (R362): Cores with a stopped thread. -/
abbrev SEP_STAT : Nat := 0x01200000
abbrev SEP_STAT_STOP : Fld := ⟨SEP_STAT, 31, 0⟩
/-- SEP_CCFG[c] (R362): Kind, mode, interrupt thread, started threads, from the image. -/
abbrev SEP_CCFG (c : Nat) : Nat := 0x01201000 + 0x100 * c
abbrev SEP_CCFG_FULL (c : Nat) : Fld := ⟨SEP_CCFG c, 31, 31⟩
abbrev SEP_CCFG_OPEN (c : Nat) : Fld := ⟨SEP_CCFG c, 30, 30⟩
abbrev SEP_CCFG_ITHR (c : Nat) : Fld := ⟨SEP_CCFG c, 29, 28⟩
abbrev SEP_CCFG_TSTART (c : Nat) : Fld := ⟨SEP_CCFG c, 27, 24⟩
/-- SEP_DCTL[c] (R362): Halt, resume, step. -/
abbrev SEP_DCTL (c : Nat) : Nat := 0x01201004 + 0x100 * c
abbrev SEP_DCTL_BRKEN (c : Nat) : Fld := ⟨SEP_DCTL c, 31, 31⟩
abbrev SEP_DCTL_ALL (c : Nat) : Fld := ⟨SEP_DCTL c, 30, 30⟩
abbrev SEP_DCTL_STEP (c : Nat) : Fld := ⟨SEP_DCTL c, 11, 8⟩
abbrev SEP_DCTL_RESUME (c : Nat) : Fld := ⟨SEP_DCTL c, 7, 4⟩
abbrev SEP_DCTL_HALT (c : Nat) : Fld := ⟨SEP_DCTL c, 3, 0⟩
/-- SEP_DSTAT[c] (R362): Halt state and debug errors. -/
abbrev SEP_DSTAT (c : Nat) : Nat := 0x01201008 + 0x100 * c
abbrev SEP_DSTAT_MEMERR (c : Nat) : Fld := ⟨SEP_DSTAT c, 13, 13⟩
abbrev SEP_DSTAT_NOTHALT (c : Nat) : Fld := ⟨SEP_DSTAT c, 12, 12⟩
abbrev SEP_DSTAT_HALTED (c : Nat) : Fld := ⟨SEP_DSTAT c, 11, 8⟩
/-- SEP_DSEL[c] (R362): Thread and register selection. -/
abbrev SEP_DSEL (c : Nat) : Nat := 0x0120100C + 0x100 * c
abbrev SEP_DSEL_THREAD (c : Nat) : Fld := ⟨SEP_DSEL c, 9, 8⟩
abbrev SEP_DSEL_INDEX (c : Nat) : Fld := ⟨SEP_DSEL c, 4, 0⟩
/-- SEP_DDATA[c] (R362): Selected register. -/
abbrev SEP_DDATA (c : Nat) : Nat := 0x01201010 + 0x100 * c
abbrev SEP_DDATA_DATA (c : Nat) : Fld := ⟨SEP_DDATA c, 31, 0⟩
/-- SEP_MEMA[c] (R362): Memory access address. -/
abbrev SEP_MEMA (c : Nat) : Nat := 0x01201014 + 0x100 * c
abbrev SEP_MEMA_SPACE (c : Nat) : Fld := ⟨SEP_MEMA c, 31, 30⟩
abbrev SEP_MEMA_ADDR (c : Nat) : Fld := ⟨SEP_MEMA c, 22, 2⟩
/-- SEP_MEMD[c] (R362): Memory access data. -/
abbrev SEP_MEMD (c : Nat) : Nat := 0x01201018 + 0x100 * c
abbrev SEP_MEMD_DATA (c : Nat) : Fld := ⟨SEP_MEMD c, 31, 0⟩
/-- SEP_ECCCNT[c] (R362): ECC counts. -/
abbrev SEP_ECCCNT (c : Nat) : Nat := 0x0120101C + 0x100 * c
abbrev SEP_ECCCNT_CORR (c : Nat) : Fld := ⟨SEP_ECCCNT c, 31, 16⟩
abbrev SEP_ECCCNT_UNCORR (c : Nat) : Fld := ⟨SEP_ECCCNT c, 15, 0⟩
/-- SEP_TSTAT[c][t] (R362): Thread state. -/
abbrev SEP_TSTAT (c : Nat) (t : Nat) : Nat := 0x01201020 + 0x100 * c + 0x8 * t
abbrev SEP_TSTAT_STATE (c : Nat) (t : Nat) : Fld := ⟨SEP_TSTAT c t, 31, 29⟩
abbrev SEP_TSTAT_WAIT (c : Nat) (t : Nat) : Fld := ⟨SEP_TSTAT c t, 28, 28⟩
abbrev SEP_TSTAT_PRIV (c : Nat) (t : Nat) : Fld := ⟨SEP_TSTAT c t, 25, 24⟩
abbrev SEP_TSTAT_STOPEV (c : Nat) (t : Nat) : Fld := ⟨SEP_TSTAT c t, 2, 2⟩
abbrev SEP_TSTAT_ESCEV (c : Nat) (t : Nat) : Fld := ⟨SEP_TSTAT c t, 1, 1⟩
abbrev SEP_TSTAT_IMPEV (c : Nat) (t : Nat) : Fld := ⟨SEP_TSTAT c t, 0, 0⟩
/-- SEP_TCTL[c][t] (R362): Restart address and command. -/
abbrev SEP_TCTL (c : Nat) (t : Nat) : Nat := 0x01201024 + 0x100 * c + 0x8 * t
abbrev SEP_TCTL_PC (c : Nat) (t : Nat) : Fld := ⟨SEP_TCTL c t, 31, 2⟩
abbrev SEP_TCTL_RESTART (c : Nat) (t : Nat) : Fld := ⟨SEP_TCTL c t, 0, 0⟩

/-! ### IRQ -/

/-- IRQ_STAT (R393): Summary. -/
abbrev IRQ_STAT : Nat := 0x01300000
abbrev IRQ_STAT_ECCU : Fld := ⟨IRQ_STAT, 1, 1⟩
abbrev IRQ_STAT_ORDER : Fld := ⟨IRQ_STAT, 0, 0⟩
/-- IRQ_ECCCNT (R393): ECC counts. -/
abbrev IRQ_ECCCNT : Nat := 0x01300004
abbrev IRQ_ECCCNT_CORR : Fld := ⟨IRQ_ECCCNT, 31, 16⟩
abbrev IRQ_ECCCNT_UNCORR : Fld := ⟨IRQ_ECCCNT, 15, 0⟩
/-- IRQ_PULSE (R393): SRV event latches. -/
abbrev IRQ_PULSE : Nat := 0x01300008
abbrev IRQ_PULSE_SRVEV : Fld := ⟨IRQ_PULSE, 2, 0⟩
/-- IRQ_TGT[n] (R393): Routing of source n, from the image. -/
abbrev IRQ_TGT (n : Nat) : Nat := 0x01301000 + 0x4 * n
abbrev IRQ_TGT_EN (n : Nat) : Fld := ⟨IRQ_TGT n, 31, 31⟩
abbrev IRQ_TGT_HEN (n : Nat) : Fld := ⟨IRQ_TGT n, 30, 30⟩
abbrev IRQ_TGT_HVEC (n : Nat) : Fld := ⟨IRQ_TGT n, 29, 24⟩
abbrev IRQ_TGT_CLUSTER (n : Nat) : Fld := ⟨IRQ_TGT n, 9, 8⟩
abbrev IRQ_TGT_SLOT (n : Nat) : Fld := ⟨IRQ_TGT n, 6, 0⟩
/-- IRQ_DEVLVL[w] (R393): Levels of sources 32w to 32w + 31. -/
abbrev IRQ_DEVLVL (w : Nat) : Nat := 0x01302000 + 0x4 * w
abbrev IRQ_DEVLVL_LVL (w : Nat) : Fld := ⟨IRQ_DEVLVL w, 31, 0⟩
/-- IRQ_QWATCH[w] (R393): Queue watch w, 0 to 127. -/
abbrev IRQ_QWATCH (w : Nat) : Nat := 0x01302080 + 0x4 * w
abbrev IRQ_QWATCH_EN (w : Nat) : Fld := ⟨IRQ_QWATCH w, 31, 31⟩
abbrev IRQ_QWATCH_Q (w : Nat) : Fld := ⟨IRQ_QWATCH w, 13, 0⟩
/-- IRQ_SCFG[k][s] (R393): Shared slot s. -/
abbrev IRQ_SCFG (k : Nat) (s : Nat) : Nat := 0x01310000 + 0x4000 * k + 0x4 * s
abbrev IRQ_SCFG_EN (k : Nat) (s : Nat) : Fld := ⟨IRQ_SCFG k s, 31, 31⟩
abbrev IRQ_SCFG_CORE (k : Nat) (s : Nat) : Fld := ⟨IRQ_SCFG k s, 30, 28⟩
abbrev IRQ_SCFG_PRIO (k : Nat) (s : Nat) : Fld := ⟨IRQ_SCFG k s, 27, 24⟩
abbrev IRQ_SCFG_CNT (k : Nat) (s : Nat) : Fld := ⟨IRQ_SCFG k s, 23, 16⟩
abbrev IRQ_SCFG_TIME (k : Nat) (s : Nat) : Fld := ⟨IRQ_SCFG k s, 15, 0⟩
/-- IRQ_SLVL[k][w] (R393): Slot levels, slots 32w to 32w + 31. -/
abbrev IRQ_SLVL (k : Nat) (w : Nat) : Nat := 0x01310200 + 0x4000 * k + 0x4 * w
abbrev IRQ_SLVL_BITS (k : Nat) (w : Nat) : Fld := ⟨IRQ_SLVL k w, 31, 0⟩
/-- IRQ_SPEND[k][w] (R393): Slots presented. -/
abbrev IRQ_SPEND (k : Nat) (w : Nat) : Nat := 0x01310210 + 0x4000 * k + 0x4 * w
abbrev IRQ_SPEND_BITS (k : Nat) (w : Nat) : Fld := ⟨IRQ_SPEND k w, 31, 0⟩
/-- IRQ_SINS[k][w] (R393): Slots in service. -/
abbrev IRQ_SINS (k : Nat) (w : Nat) : Nat := 0x01310220 + 0x4000 * k + 0x4 * w
abbrev IRQ_SINS_BITS (k : Nat) (w : Nat) : Fld := ⟨IRQ_SINS k w, 31, 0⟩
/-- IRQ_PCFG[c][i] (R393): Private source i. -/
abbrev IRQ_PCFG (c : Nat) (i : Nat) : Nat := 0x01320000 + 0x200 * c + 0x4 * i
abbrev IRQ_PCFG_EN (c : Nat) (i : Nat) : Fld := ⟨IRQ_PCFG c i, 31, 31⟩
abbrev IRQ_PCFG_PRIO (c : Nat) (i : Nat) : Fld := ⟨IRQ_PCFG c i, 27, 24⟩
abbrev IRQ_PCFG_CNT (c : Nat) (i : Nat) : Fld := ⟨IRQ_PCFG c i, 23, 16⟩
abbrev IRQ_PCFG_TIME (c : Nat) (i : Nat) : Fld := ⟨IRQ_PCFG c i, 15, 0⟩
/-- IRQ_SWSET[c] (R393): Set software sources. -/
abbrev IRQ_SWSET (c : Nat) : Nat := 0x01320080 + 0x200 * c
abbrev IRQ_SWSET_SW (c : Nat) : Fld := ⟨IRQ_SWSET c, 15, 0⟩
/-- IRQ_SWCLR[c] (R393): Clear software sources. -/
abbrev IRQ_SWCLR (c : Nat) : Nat := 0x01320084 + 0x200 * c
abbrev IRQ_SWCLR_SW (c : Nat) : Fld := ⟨IRQ_SWCLR c, 15, 0⟩
/-- IRQ_PLVL[c] (R393): Private levels. -/
abbrev IRQ_PLVL (c : Nat) : Nat := 0x01320088 + 0x200 * c
abbrev IRQ_PLVL_BITS (c : Nat) : Fld := ⟨IRQ_PLVL c, 31, 0⟩
/-- IRQ_PPEND[c] (R393): Private sources presented. -/
abbrev IRQ_PPEND (c : Nat) : Nat := 0x0132008C + 0x200 * c
abbrev IRQ_PPEND_BITS (c : Nat) : Fld := ⟨IRQ_PPEND c, 31, 0⟩
/-- IRQ_PINS[c] (R393): Private sources in service. -/
abbrev IRQ_PINS (c : Nat) : Nat := 0x01320090 + 0x200 * c
abbrev IRQ_PINS_BITS (c : Nat) : Fld := ⟨IRQ_PINS c, 31, 0⟩
/-- IRQ_CLAIM[c] (R393): Claim (R388); a read has side effects. -/
abbrev IRQ_CLAIM (c : Nat) : Nat := 0x01320094 + 0x200 * c
abbrev IRQ_CLAIM_NONE (c : Nat) : Fld := ⟨IRQ_CLAIM c, 31, 31⟩
abbrev IRQ_CLAIM_PRIO (c : Nat) : Fld := ⟨IRQ_CLAIM c, 19, 16⟩
abbrev IRQ_CLAIM_ID (c : Nat) : Fld := ⟨IRQ_CLAIM c, 7, 0⟩
/-- IRQ_EOI[c] (R393): End of interrupt (R389). -/
abbrev IRQ_EOI (c : Nat) : Nat := 0x01320098 + 0x200 * c
abbrev IRQ_EOI_ID (c : Nat) : Fld := ⟨IRQ_EOI c, 7, 0⟩
/-- IRQ_CSTAT[c] (R393): Stack state. -/
abbrev IRQ_CSTAT (c : Nat) : Nat := 0x0132009C + 0x200 * c
abbrev IRQ_CSTAT_SPUR (c : Nat) : Fld := ⟨IRQ_CSTAT c, 21, 21⟩
abbrev IRQ_CSTAT_ORDER (c : Nat) : Fld := ⟨IRQ_CSTAT c, 20, 20⟩
abbrev IRQ_CSTAT_CURPRI (c : Nat) : Fld := ⟨IRQ_CSTAT c, 19, 16⟩
abbrev IRQ_CSTAT_DEPTH (c : Nat) : Fld := ⟨IRQ_CSTAT c, 12, 8⟩
abbrev IRQ_CSTAT_TOPID (c : Nat) : Fld := ⟨IRQ_CSTAT c, 7, 0⟩
/-- IRQ_STKMAP[c] (R393): Priorities on the stack. -/
abbrev IRQ_STKMAP (c : Nat) : Nat := 0x013200A0 + 0x200 * c
abbrev IRQ_STKMAP_LEVELS (c : Nat) : Fld := ⟨IRQ_STKMAP c, 15, 0⟩
/-- IRQ_MBDATA[m][j] (R393): Payload word j, 0 to 15. -/
abbrev IRQ_MBDATA (m : Nat) (j : Nat) : Nat := 0x01340000 + 0x80 * m + 0x4 * j
abbrev IRQ_MBDATA_DATA (m : Nat) (j : Nat) : Fld := ⟨IRQ_MBDATA m j, 31, 0⟩
/-- IRQ_MBCFG[m] (R393): Receiver binding. -/
abbrev IRQ_MBCFG (m : Nat) : Nat := 0x01340040 + 0x80 * m
abbrev IRQ_MBCFG_RCV (m : Nat) : Fld := ⟨IRQ_MBCFG m, 5, 0⟩
/-- IRQ_MBSTAT[m] (R393): Mailbox state. -/
abbrev IRQ_MBSTAT (m : Nat) : Nat := 0x01340044 + 0x80 * m
abbrev IRQ_MBSTAT_FULL (m : Nat) : Fld := ⟨IRQ_MBSTAT m, 31, 31⟩
abbrev IRQ_MBSTAT_ABORTED (m : Nat) : Fld := ⟨IRQ_MBSTAT m, 30, 30⟩
abbrev IRQ_MBSTAT_COLL (m : Nat) : Fld := ⟨IRQ_MBSTAT m, 29, 29⟩
abbrev IRQ_MBSTAT_SENDER (m : Nat) : Fld := ⟨IRQ_MBSTAT m, 5, 0⟩
/-- IRQ_MBSEND[m] (R393): Send. -/
abbrev IRQ_MBSEND (m : Nat) : Nat := 0x01340048 + 0x80 * m
abbrev IRQ_MBSEND_GO (m : Nat) : Fld := ⟨IRQ_MBSEND m, 31, 31⟩
abbrev IRQ_MBSEND_AGENT (m : Nat) : Fld := ⟨IRQ_MBSEND m, 5, 0⟩
/-- IRQ_MBACK[m] (R393): Acknowledge. -/
abbrev IRQ_MBACK (m : Nat) : Nat := 0x0134004C + 0x80 * m
abbrev IRQ_MBACK_GO (m : Nat) : Fld := ⟨IRQ_MBACK m, 31, 31⟩

/-! ### PIN -/

/-- PIN_STAT (R406): Events. -/
abbrev PIN_STAT : Nat := 0x01400000
abbrev PIN_STAT_BANKERR : Fld := ⟨PIN_STAT, 3, 3⟩
abbrev PIN_STAT_STUCK : Fld := ⟨PIN_STAT, 2, 2⟩
abbrev PIN_STAT_CHATTER : Fld := ⟨PIN_STAT, 1, 1⟩
abbrev PIN_STAT_ANYSUPP : Fld := ⟨PIN_STAT, 0, 0⟩
/-- PIN_BANKCFG (R406): Declared and measured bank voltages. -/
abbrev PIN_BANKCFG : Nat := 0x01400004
abbrev PIN_BANKCFG_BANKOK : Fld := ⟨PIN_BANKCFG, 29, 24⟩
abbrev PIN_BANKCFG_VDET : Fld := ⟨PIN_BANKCFG, 21, 16⟩
abbrev PIN_BANKCFG_V33 : Fld := ⟨PIN_BANKCFG, 5, 0⟩
/-- PIN_OUT[b] (R406): Software output levels. -/
abbrev PIN_OUT (b : Nat) : Nat := 0x01400010 + 0x4 * b
abbrev PIN_OUT_OUT (b : Nat) : Fld := ⟨PIN_OUT b, 31, 0⟩
/-- PIN_OSET[b] (R406): Set output bits. -/
abbrev PIN_OSET (b : Nat) : Nat := 0x01400030 + 0x4 * b
abbrev PIN_OSET_SET (b : Nat) : Fld := ⟨PIN_OSET b, 31, 0⟩
/-- PIN_OCLR[b] (R406): Clear output bits. -/
abbrev PIN_OCLR (b : Nat) : Nat := 0x01400050 + 0x4 * b
abbrev PIN_OCLR_CLR (b : Nat) : Fld := ⟨PIN_OCLR b, 31, 0⟩
/-- PIN_OTGL[b] (R406): Toggle output bits. -/
abbrev PIN_OTGL (b : Nat) : Nat := 0x01400070 + 0x4 * b
abbrev PIN_OTGL_TGL (b : Nat) : Fld := ⟨PIN_OTGL b, 31, 0⟩
/-- PIN_IN[b] (R406): Synchronised pad levels. -/
abbrev PIN_IN (b : Nat) : Nat := 0x01400090 + 0x4 * b
abbrev PIN_IN_IN (b : Nat) : Fld := ⟨PIN_IN b, 31, 0⟩
/-- PIN_GPOV[b] (R406): Take-over (R400). -/
abbrev PIN_GPOV (b : Nat) : Nat := 0x014000B0 + 0x4 * b
abbrev PIN_GPOV_OV (b : Nat) : Fld := ⟨PIN_GPOV b, 31, 0⟩
/-- PIN_SUPP[b] (R406): Suppressed or masked pins. -/
abbrev PIN_SUPP (b : Nat) : Nat := 0x014000D0 + 0x4 * b
abbrev PIN_SUPP_SUPP (b : Nat) : Fld := ⟨PIN_SUPP b, 31, 0⟩
/-- PIN_CHAT[b] (R406): Chatter events. -/
abbrev PIN_CHAT (b : Nat) : Nat := 0x014000F0 + 0x4 * b
abbrev PIN_CHAT_CHAT (b : Nat) : Fld := ⟨PIN_CHAT b, 31, 0⟩
/-- PIN_STK[b] (R406): Stuck events. -/
abbrev PIN_STK (b : Nat) : Nat := 0x01400110 + 0x4 * b
abbrev PIN_STK_STK (b : Nat) : Fld := ⟨PIN_STK b, 31, 0⟩
/-- PIN_CFG[p] (R406): Mode, pad options, output signal, from the image. -/
abbrev PIN_CFG (p : Nat) : Nat := 0x01401000 + 0x10 * p
abbrev PIN_CFG_MODE (p : Nat) : Fld := ⟨PIN_CFG p, 31, 30⟩
abbrev PIN_CFG_DRIVE (p : Nat) : Fld := ⟨PIN_CFG p, 29, 28⟩
abbrev PIN_CFG_SLOW (p : Nat) : Fld := ⟨PIN_CFG p, 27, 27⟩
abbrev PIN_CFG_PULL (p : Nat) : Fld := ⟨PIN_CFG p, 26, 25⟩
abbrev PIN_CFG_TERM (p : Nat) : Fld := ⟨PIN_CFG p, 24, 24⟩
abbrev PIN_CFG_ACTHI (p : Nat) : Fld := ⟨PIN_CFG p, 23, 23⟩
abbrev PIN_CFG_OSEL (p : Nat) : Fld := ⟨PIN_CFG p, 9, 0⟩
/-- PIN_FILT[p] (R406): Chatter and stuck limits. -/
abbrev PIN_FILT (p : Nat) : Nat := 0x01401004 + 0x10 * p
abbrev PIN_FILT_CHN (p : Nat) : Fld := ⟨PIN_FILT p, 31, 24⟩
abbrev PIN_FILT_CHW (p : Nat) : Fld := ⟨PIN_FILT p, 23, 12⟩
abbrev PIN_FILT_STK (p : Nat) : Fld := ⟨PIN_FILT p, 11, 0⟩
/-- PIN_ISEL[i] (R406): Source of input signal i, 0 to 287, from the image. -/
abbrev PIN_ISEL (i : Nat) : Nat := 0x01404000 + 0x4 * i
abbrev PIN_ISEL_EN (i : Nat) : Fld := ⟨PIN_ISEL i, 31, 31⟩
abbrev PIN_ISEL_INV (i : Nat) : Fld := ⟨PIN_ISEL i, 30, 30⟩
abbrev PIN_ISEL_IDLE (i : Nat) : Fld := ⟨PIN_ISEL i, 29, 29⟩
abbrev PIN_ISEL_PIN (i : Nat) : Fld := ⟨PIN_ISEL i, 7, 0⟩

/-! ### IMG -/

/-- IMG_CTL (R427): Check, activate, golden lock. -/
abbrev IMG_CTL : Nat := 0x01500000
abbrev IMG_CTL_SLOT : Fld := ⟨IMG_CTL, 5, 4⟩
abbrev IMG_CTL_GLOCK : Fld := ⟨IMG_CTL, 2, 2⟩
abbrev IMG_CTL_ACTIVATE : Fld := ⟨IMG_CTL, 1, 1⟩
abbrev IMG_CTL_VERIFY : Fld := ⟨IMG_CTL, 0, 0⟩
/-- IMG_STAT (R427): Operation state and events. -/
abbrev IMG_STAT : Nat := 0x01500004
abbrev IMG_STAT_BUSY : Fld := ⟨IMG_STAT, 31, 31⟩
abbrev IMG_STAT_OP : Fld := ⟨IMG_STAT, 30, 28⟩
abbrev IMG_STAT_RESULT : Fld := ⟨IMG_STAT, 27, 24⟩
abbrev IMG_STAT_GOLDLOCK : Fld := ⟨IMG_STAT, 7, 7⟩
abbrev IMG_STAT_KEYOK : Fld := ⟨IMG_STAT, 6, 6⟩
abbrev IMG_STAT_JBANKERR : Fld := ⟨IMG_STAT, 5, 5⟩
abbrev IMG_STAT_RSERR : Fld := ⟨IMG_STAT, 4, 4⟩
abbrev IMG_STAT_WPERR : Fld := ⟨IMG_STAT, 3, 3⟩
abbrev IMG_STAT_CMDERR : Fld := ⟨IMG_STAT, 2, 2⟩
abbrev IMG_STAT_BEERR : Fld := ⟨IMG_STAT, 1, 1⟩
abbrev IMG_STAT_VFAIL : Fld := ⟨IMG_STAT, 0, 0⟩
/-- IMG_WADDR (R427): Retained-store access address. -/
abbrev IMG_WADDR : Nat := 0x01500008
abbrev IMG_WADDR_REGION : Fld := ⟨IMG_WADDR, 31, 30⟩
abbrev IMG_WADDR_ADDR : Fld := ⟨IMG_WADDR, 22, 2⟩
/-- IMG_WDATA (R427): Write a word. -/
abbrev IMG_WDATA : Nat := 0x0150000C
abbrev IMG_WDATA_DATA : Fld := ⟨IMG_WDATA, 31, 0⟩
/-- IMG_RDATA (R427): Read a word. -/
abbrev IMG_RDATA : Nat := 0x01500010
abbrev IMG_RDATA_DATA : Fld := ⟨IMG_RDATA, 31, 0⟩
/-- IMG_MINSEQ (R427): Least SEQ accepted, from fuses. -/
abbrev IMG_MINSEQ : Nat := 0x01500014
abbrev IMG_MINSEQ_MINSEQ : Fld := ⟨IMG_MINSEQ, 31, 0⟩
/-- IMG_BOOTCNT (R427): Start counts. -/
abbrev IMG_BOOTCNT : Nat := 0x01500018
abbrev IMG_BOOTCNT_BOOTS : Fld := ⟨IMG_BOOTCNT, 31, 8⟩
abbrev IMG_BOOTCNT_FAILS : Fld := ⟨IMG_BOOTCNT, 3, 0⟩
/-- IMG_JSTAT (R427): Journal state. -/
abbrev IMG_JSTAT : Nat := 0x0150001C
abbrev IMG_JSTAT_BUSY : Fld := ⟨IMG_JSTAT, 31, 31⟩
abbrev IMG_JSTAT_AREA : Fld := ⟨IMG_JSTAT, 30, 30⟩
abbrev IMG_JSTAT_RESTORED : Fld := ⟨IMG_JSTAT, 29, 29⟩
abbrev IMG_JSTAT_RSEQ : Fld := ⟨IMG_JSTAT, 27, 0⟩
/-- IMG_PCIID (R427): PCI Express identifiers, from fuses. -/
abbrev IMG_PCIID : Nat := 0x01500020
abbrev IMG_PCIID_DID : Fld := ⟨IMG_PCIID, 31, 16⟩
abbrev IMG_PCIID_VID : Fld := ⟨IMG_PCIID, 15, 0⟩
/-- IMG_SLOT[s] (R427): State of slot s: 0 A, 1 B, 2 golden. -/
abbrev IMG_SLOT (s : Nat) : Nat := 0x01500030 + 0x8 * s
abbrev IMG_SLOT_STATE (s : Nat) : Fld := ⟨IMG_SLOT s, 31, 29⟩
abbrev IMG_SLOT_RUNNING (s : Nat) : Fld := ⟨IMG_SLOT s, 28, 28⟩
abbrev IMG_SLOT_RESULT (s : Nat) : Fld := ⟨IMG_SLOT s, 27, 24⟩
/-- IMG_SLOTSEQ[s] (R427): SEQ of slot s. -/
abbrev IMG_SLOTSEQ (s : Nat) : Nat := 0x01500034 + 0x8 * s
abbrev IMG_SLOTSEQ_SEQ (s : Nat) : Fld := ⟨IMG_SLOTSEQ s, 31, 0⟩
/-- MSI-X entry v word 0 (R425): MSI-X table entry v, word 0 (layout PRESUMED: PCI Express, log 7). -/
abbrev IMG_MSIX_ADDR_LO (v : Nat) : Nat := 0x01508000 + 0x10 * v
abbrev IMG_MSIX_ADDR_LO_ADDR (v : Nat) : Fld := ⟨IMG_MSIX_ADDR_LO v, 31, 0⟩
/-- MSI-X entry v word 1 (R425): MSI-X table entry v, word 1 (layout PRESUMED: PCI Express, log 7). -/
abbrev IMG_MSIX_ADDR_HI (v : Nat) : Nat := 0x01508004 + 0x10 * v
abbrev IMG_MSIX_ADDR_HI_ADDR (v : Nat) : Fld := ⟨IMG_MSIX_ADDR_HI v, 31, 0⟩
/-- MSI-X entry v word 2 (R425): MSI-X table entry v, word 2 (layout PRESUMED: PCI Express, log 7). -/
abbrev IMG_MSIX_DATA (v : Nat) : Nat := 0x01508008 + 0x10 * v
abbrev IMG_MSIX_DATA_DATA (v : Nat) : Fld := ⟨IMG_MSIX_DATA v, 31, 0⟩
/-- MSI-X entry v word 3 (R425): MSI-X table entry v, word 3 (layout PRESUMED: PCI Express, log 7). -/
abbrev IMG_MSIX_VCTL (v : Nat) : Nat := 0x0150800C + 0x10 * v
abbrev IMG_MSIX_VCTL_MASK (v : Nat) : Fld := ⟨IMG_MSIX_VCTL v, 0, 0⟩
/-- MSI-X PBA (R425): MSI-X pending bits of vectors 32w to 32w + 31. -/
abbrev IMG_MSIX_PBA (w : Nat) : Nat := 0x01509000 + 0x4 * w
abbrev IMG_MSIX_PBA_PEND (w : Nat) : Fld := ⟨IMG_MSIX_PBA w, 31, 0⟩

/-! ### RST -/

/-- RST_CMD (R447): Device and restart commands. -/
abbrev RST_CMD : Nat := 0x01600000
abbrev RST_CMD_CODE : Fld := ⟨RST_CMD, 31, 16⟩
abbrev RST_CMD_OP : Fld := ⟨RST_CMD, 1, 0⟩
/-- RST_PDCMD (R447): Domain commands (R441). -/
abbrev RST_PDCMD : Nat := 0x01600004
abbrev RST_PDCMD_CODE : Fld := ⟨RST_PDCMD, 31, 16⟩
abbrev RST_PDCMD_OP : Fld := ⟨RST_PDCMD, 15, 14⟩
abbrev RST_PDCMD_PD : Fld := ⟨RST_PDCMD, 6, 0⟩
/-- RST_STAT (R447): Trim, command and start status. -/
abbrev RST_STAT : Nat := 0x01600008
abbrev RST_STAT_TRIMVALID : Fld := ⟨RST_STAT, 31, 31⟩
abbrev RST_STAT_TRIMCOPY : Fld := ⟨RST_STAT, 30, 30⟩
abbrev RST_STAT_TRIMERR : Fld := ⟨RST_STAT, 7, 7⟩
abbrev RST_STAT_TRIMFIX : Fld := ⟨RST_STAT, 6, 6⟩
abbrev RST_STAT_PWRERR : Fld := ⟨RST_STAT, 5, 5⟩
abbrev RST_STAT_CMDERR : Fld := ⟨RST_STAT, 4, 4⟩
abbrev RST_STAT_NOSTARTOK : Fld := ⟨RST_STAT, 3, 3⟩
abbrev RST_STAT_LATEOK : Fld := ⟨RST_STAT, 2, 2⟩
abbrev RST_STAT_ISOERR : Fld := ⟨RST_STAT, 1, 1⟩
/-- RST_CAUSE (R447): Source of the last reset. -/
abbrev RST_CAUSE : Nat := 0x0160000C
abbrev RST_CAUSE_CAUSE : Fld := ⟨RST_CAUSE, 3, 0⟩
/-- RST_SEQ (R447): Release progress. -/
abbrev RST_SEQ : Nat := 0x01600010
abbrev RST_SEQ_BUSY : Fld := ⟨RST_SEQ, 31, 31⟩
abbrev RST_SEQ_STEP : Fld := ⟨RST_SEQ, 19, 16⟩
abbrev RST_SEQ_PD : Fld := ⟨RST_SEQ, 6, 0⟩
/-- RST_ISOCNT (R447): Error completions. -/
abbrev RST_ISOCNT : Nat := 0x01600014
abbrev RST_ISOCNT_COUNT : Fld := ⟨RST_ISOCNT, 31, 0⟩
/-- RST_PDSTAT[w] (R447): Domains 32w to 32w + 31 powered and released, w = 0 to 2. -/
abbrev RST_PDSTAT (w : Nat) : Nat := 0x01600020 + 0x4 * w
abbrev RST_PDSTAT_UP (w : Nat) : Fld := ⟨RST_PDSTAT w, 31, 0⟩
/-- RST_PDPLAN[w] (R447): Domains 32w to 32w + 31 named in the plan. -/
abbrev RST_PDPLAN (w : Nat) : Nat := 0x01600030 + 0x4 * w
abbrev RST_PDPLAN_PLAN (w : Nat) : Fld := ⟨RST_PDPLAN w, 31, 0⟩

/-! ### FLT -/

/-- FLT_STATUS_LO (R466): Bits [31:0]; a read latches FLT_STATUS_HI. -/
abbrev FLT_STATUS_LO : Nat := 0x01700000
abbrev FLT_STATUS_LO_ST_L : Fld := ⟨FLT_STATUS_LO, 31, 0⟩
/-- FLT_STATUS_HI (R466): Bits [63:32], as latched. -/
abbrev FLT_STATUS_HI : Nat := 0x01700004
abbrev FLT_STATUS_HI_ST_H : Fld := ⟨FLT_STATUS_HI, 30, 0⟩
/-- FLT_FIRST (R466): First source. -/
abbrev FLT_FIRST : Nat := 0x01700008
abbrev FLT_FIRST_VALID : Fld := ⟨FLT_FIRST, 31, 31⟩
abbrev FLT_FIRST_OVF : Fld := ⟨FLT_FIRST, 30, 30⟩
abbrev FLT_FIRST_INDEX : Fld := ⟨FLT_FIRST, 5, 0⟩
/-- FLT_FIRSTX (R466): Crossing of the first source. -/
abbrev FLT_FIRSTX : Nat := 0x0170000C
abbrev FLT_FIRSTX_ORBIT_L : Fld := ⟨FLT_FIRSTX, 31, 16⟩
abbrev FLT_FIRSTX_SLOT : Fld := ⟨FLT_FIRSTX, 15, 0⟩
/-- FLT_FIRSTT_LO (R466): Reference time of the first source, bits [31:0]; a read latches FLT_FIRSTT_HI. -/
abbrev FLT_FIRSTT_LO : Nat := 0x01700010
abbrev FLT_FIRSTT_LO_TIME_L : Fld := ⟨FLT_FIRSTT_LO, 31, 0⟩
/-- FLT_FIRSTT_HI (R466): Bits [63:32], as latched. -/
abbrev FLT_FIRSTT_HI : Nat := 0x01700014
abbrev FLT_FIRSTT_HI_TIME_H : Fld := ⟨FLT_FIRSTT_HI, 31, 0⟩
/-- FLT_CTL (R466): Safe-state commands, first-source clear. -/
abbrev FLT_CTL : Nat := 0x01700018
abbrev FLT_CTL_CODE : Fld := ⟨FLT_CTL, 31, 16⟩
abbrev FLT_CTL_FCLR : Fld := ⟨FLT_CTL, 2, 2⟩
abbrev FLT_CTL_EXIT : Fld := ⟨FLT_CTL, 1, 1⟩
abbrev FLT_CTL_ENTER : Fld := ⟨FLT_CTL, 0, 0⟩
/-- FLT_SAFE (R466): Safe-state status. -/
abbrev FLT_SAFE : Nat := 0x0170001C
abbrev FLT_SAFE_SAFE : Fld := ⟨FLT_SAFE, 31, 31⟩
abbrev FLT_SAFE_SELF : Fld := ⟨FLT_SAFE, 30, 30⟩
abbrev FLT_SAFE_EXITPEND : Fld := ⟨FLT_SAFE, 29, 29⟩
abbrev FLT_SAFE_CMDERR : Fld := ⟨FLT_SAFE, 28, 28⟩
abbrev FLT_SAFE_BIT : Fld := ⟨FLT_SAFE, 13, 8⟩
abbrev FLT_SAFE_CAUSE : Fld := ⟨FLT_SAFE, 3, 0⟩
/-- FLT_SAFEMASK_LO (R466): Bits that enter the safe state, [31:0], from the image. -/
abbrev FLT_SAFEMASK_LO : Nat := 0x01700020
abbrev FLT_SAFEMASK_LO_MASK_L : Fld := ⟨FLT_SAFEMASK_LO, 31, 0⟩
/-- FLT_SAFEMASK_HI (R466): Bits [63:32], from the image. -/
abbrev FLT_SAFEMASK_HI : Nat := 0x01700024
abbrev FLT_SAFEMASK_HI_MASK_H : Fld := ⟨FLT_SAFEMASK_HI, 30, 0⟩
/-- FLT_ESCTO (R466): Escalation time, from the image. -/
abbrev FLT_ESCTO : Nat := 0x01700028
abbrev FLT_ESCTO_MS : Fld := ⟨FLT_ESCTO, 15, 0⟩
/-- FLT_WDCFG (R466): Watchdog enable and timeout. -/
abbrev FLT_WDCFG : Nat := 0x01700030
abbrev FLT_WDCFG_EN : Fld := ⟨FLT_WDCFG, 31, 31⟩
abbrev FLT_WDCFG_TIMEOUT : Fld := ⟨FLT_WDCFG, 15, 0⟩
/-- FLT_WDKICK (R466): Watchdog kick. -/
abbrev FLT_WDKICK : Nat := 0x01700034
abbrev FLT_WDKICK_KEY : Fld := ⟨FLT_WDKICK, 31, 16⟩
/-- FLT_WDSTAT (R466): Watchdog stage. -/
abbrev FLT_WDSTAT : Nat := 0x01700038
abbrev FLT_WDSTAT_STAGE : Fld := ⟨FLT_WDSTAT, 31, 30⟩
abbrev FLT_WDSTAT_LEFT : Fld := ⟨FLT_WDSTAT, 15, 0⟩
/-- FLT_TLIM (R466): Temperature limit. -/
abbrev FLT_TLIM : Nat := 0x0170003C
abbrev FLT_TLIM_HI : Fld := ⟨FLT_TLIM, 15, 0⟩
/-- FLT_REDSTAT (R466): Spare pool and drops. -/
abbrev FLT_REDSTAT : Nat := 0x01700040
abbrev FLT_REDSTAT_DROPPED : Fld := ⟨FLT_REDSTAT, 23, 15⟩
abbrev FLT_REDSTAT_PEND : Fld := ⟨FLT_REDSTAT, 14, 6⟩
abbrev FLT_REDSTAT_FREE : Fld := ⟨FLT_REDSTAT, 5, 0⟩
/-- FLT_LASTRET (R466): Last retirement. -/
abbrev FLT_LASTRET : Nat := 0x01700044
abbrev FLT_LASTRET_PAIR : Fld := ⟨FLT_LASTRET, 31, 23⟩
abbrev FLT_LASTRET_MARK : Fld := ⟨FLT_LASTRET, 22, 21⟩
abbrev FLT_LASTRET_HOLDER : Fld := ⟨FLT_LASTRET, 17, 9⟩
/-- FLT_DROP[w] (R466): Dropped regions 32w to 32w + 31, w = 0 to 7. -/
abbrev FLT_DROP (w : Nat) : Nat := 0x01700080 + 0x4 * w
abbrev FLT_DROP_DROP (w : Nat) : Fld := ⟨FLT_DROP w, 31, 0⟩
/-- FLT_DEGR[i] (R466): Degradation plan entry i, 0 to 255, from the image. -/
abbrev FLT_DEGR (i : Nat) : Nat := 0x01700400 + 0x4 * i
abbrev FLT_DEGR_EN (i : Nat) : Fld := ⟨FLT_DEGR i, 31, 31⟩
abbrev FLT_DEGR_REGION (i : Nat) : Fld := ⟨FLT_DEGR i, 7, 0⟩

end Reg
end Sys2Proof.Machine
end

