-- ==== Sys2Proof/Machine/RegTable.lean ====
section
/-! DEFINITION. The register maps of spec/ as data: for each register its offset, its index strides and counts, whether it
is banked, the bits that each access code of R8 governs, and the Reset column. Generated from the tables of the chapters;
where a Reset value depends on the index (REL_LAT, SEP_CCFG, RST_PDSTAT, RST_PDPLAN) the special indices have a row
of their own before the general row, and the first row that matches counts. A Reset of "strap" or "fuse" stands as 0 here
and is supplied by the read views of Bus.lean. -/
namespace Sys2Proof.Machine

/-- One register (or family of indexed registers) of a register map. -/
structure RegDef where
  /-- offset of index 0 -/
  base : Nat
  /-- stride and count of each index, outermost first -/
  dims : List (Nat × Nat)
  /-- the staged value is at the offset, the live value at offset + 0x0008_0000 (R34) -/
  banked : Bool
  /-- bits of each access code (R8) -/
  ro : Nat
  rw : Nat
  w1c : Nat
  w1s : Nat
  wo : Nat
  rc : Nat
  /-- the Reset column -/
  reset : Nat
deriving DecidableEq, Repr

namespace RegTab

def row_GBL_FLIP : RegDef := ⟨0x00000100, [], false, 0x00000000, 0x00000000, 0x00000000, 0x00000000, 0xF000FFFF, 0x00000000, 0x00000000⟩
def row_GBL_FLIPSTAT : RegDef := ⟨0x00000104, [], false, 0xFFFF004E, 0x00000000, 0x000000A0, 0x00000000, 0x00000000, 0x00000000, 0x00000000⟩
def row_GBL_FLIPSTAMP0 : RegDef := ⟨0x00000110, [], false, 0xFFFFFFFF, 0x00000000, 0x00000000, 0x00000000, 0x00000000, 0x00000000, 0x00000000⟩
def row_GBL_FLIPSTAMP1 : RegDef := ⟨0x00000114, [], false, 0x0000FFFF, 0x00000000, 0x00000000, 0x00000000, 0x00000000, 0x00000000, 0x00000000⟩
def row_GBL_FLIPSTAMP2 : RegDef := ⟨0x00000118, [], false, 0xFFFFFFFF, 0x00000000, 0x00000000, 0x00000000, 0x00000000, 0x00000000, 0x00000000⟩
def row_GBL_FLIPSTAMP3 : RegDef := ⟨0x0000011C, [], false, 0xFFFFFFFF, 0x00000000, 0x00000000, 0x00000000, 0x00000000, 0x00000000, 0x00000000⟩
def row_GBL_ID : RegDef := ⟨0x00000000, [], false, 0xFFFFFF00, 0x00000000, 0x00000000, 0x00000000, 0x00000000, 0x00000000, 0x0048B100⟩
def row_GBL_STRAP : RegDef := ⟨0x00000004, [], false, 0x0000001F, 0x00000000, 0x00000000, 0x00000000, 0x00000000, 0x00000000, 0x00000000⟩
def row_GBL_CTL : RegDef := ⟨0x00000008, [], false, 0x00000000, 0x00000001, 0x00000000, 0x00000000, 0x00000000, 0x00000000, 0x00000000⟩
def row_GBL_STATE : RegDef := ⟨0x0000000C, [], false, 0x00000F3E, 0x00000000, 0x00000000, 0x00000000, 0x00000000, 0x00000000, 0x00000030⟩
def row_GBL_STARTOK : RegDef := ⟨0x00000010, [], false, 0x00000000, 0x00000000, 0x00000000, 0x00000000, 0xFFFF0000, 0x00000000, 0x00000000⟩
def row_GBL_IMGID_LO : RegDef := ⟨0x00000014, [], false, 0xFFFFFFFF, 0x00000000, 0x00000000, 0x00000000, 0x00000000, 0x00000000, 0x00000000⟩
def row_GBL_IMGID_HI : RegDef := ⟨0x00000018, [], false, 0xFFFFFFFF, 0x00000000, 0x00000000, 0x00000000, 0x00000000, 0x00000000, 0x00000000⟩
def row_GBL_IMGSEQ : RegDef := ⟨0x0000001C, [], false, 0xFFFFFFFF, 0x00000000, 0x00000000, 0x00000000, 0x00000000, 0x00000000, 0x00000000⟩

/-- The register map of the GBL block. -/
def gblRows : List RegDef :=
  [row_GBL_FLIP, row_GBL_FLIPSTAT, row_GBL_FLIPSTAMP0, row_GBL_FLIPSTAMP1, row_GBL_FLIPSTAMP2, row_GBL_FLIPSTAMP3, row_GBL_ID, row_GBL_STRAP, row_GBL_CTL, row_GBL_STATE, row_GBL_STARTOK, row_GBL_IMGID_LO] ++
  [row_GBL_IMGID_HI, row_GBL_IMGSEQ]

def row_TB_CTL : RegDef := ⟨0x00100000, [], false, 0x00000000, 0x00000003, 0x00000000, 0x00000004, 0x00000000, 0x00000000, 0x00000002⟩
def row_TB_STAT : RegDef := ⟨0x00100004, [], false, 0x0000060F, 0x00000000, 0x000001C0, 0x00000000, 0x00000000, 0x00000000, 0x00000000⟩
def row_TB_CFG : RegDef := ⟨0x00100008, [], false, 0x000001FF, 0x00000000, 0x00000000, 0x00000000, 0x00000000, 0x00000000, 0x00000000⟩
def row_TB_ORBLEN : RegDef := ⟨0x0010000C, [], false, 0x0001FFFF, 0x00000000, 0x00000000, 0x00000000, 0x00000000, 0x00000000, 0x00000010⟩
def row_TB_INTGEN : RegDef := ⟨0x00100010, [], false, 0x00FFFFFF, 0x00000000, 0x00000000, 0x00000000, 0x00000000, 0x00000000, 0x00500000⟩
def row_TB_SLIPMAX : RegDef := ⟨0x00100014, [], true, 0x00000000, 0x0000007F, 0x00000000, 0x00000000, 0x00000000, 0x00000000, 0x00000000⟩
def row_TB_LOSS : RegDef := ⟨0x00100018, [], true, 0x00000000, 0x000F00FF, 0x00000000, 0x00000000, 0x00000000, 0x00000000, 0x00010002⟩
def row_TB_CURLEN : RegDef := ⟨0x0010001C, [], false, 0x0001FFFF, 0x00000000, 0x00000000, 0x00000000, 0x00000000, 0x00000000, 0x00000010⟩
def row_TB_XID_LO : RegDef := ⟨0x00100020, [], false, 0xFFFFFFFF, 0x00000000, 0x00000000, 0x00000000, 0x00000000, 0x00000000, 0x00000000⟩
def row_TB_XID_HI : RegDef := ⟨0x00100024, [], false, 0xFFFFFFFF, 0x00000000, 0x00000000, 0x00000000, 0x00000000, 0x00000000, 0x00000000⟩
def row_TB_ORBLOAD_LO : RegDef := ⟨0x00100028, [], false, 0x00000000, 0xFFFFFFFF, 0x00000000, 0x00000000, 0x00000000, 0x00000000, 0x00000000⟩
def row_TB_ORBLOAD_HI : RegDef := ⟨0x0010002C, [], false, 0x00000000, 0x0000FFFF, 0x00000000, 0x00000000, 0x00000000, 0x00000000, 0x00000000⟩
def row_TB_RTIME_LO : RegDef := ⟨0x00100030, [], false, 0xFFFFFFFF, 0x00000000, 0x00000000, 0x00000000, 0x00000000, 0x00000000, 0x00000000⟩
def row_TB_RTIME_HI : RegDef := ⟨0x00100034, [], false, 0xFFFFFFFF, 0x00000000, 0x00000000, 0x00000000, 0x00000000, 0x00000000, 0x00000000⟩
def row_TB_LASTSLIP : RegDef := ⟨0x00100038, [], false, 0xFFFF00FF, 0x00000000, 0x00000000, 0x00000000, 0x00000000, 0x00000000, 0x00000000⟩
def row_TB_EVCNT : RegDef := ⟨0x0010003C, [], false, 0x00000000, 0x00000000, 0x00000000, 0x00000000, 0x00000000, 0xFFFFFFFF, 0x00000000⟩

/-- The register map of the TB block. -/
def tbRows : List RegDef :=
  [row_TB_CTL, row_TB_STAT, row_TB_CFG, row_TB_ORBLEN, row_TB_INTGEN, row_TB_SLIPMAX, row_TB_LOSS, row_TB_CURLEN, row_TB_XID_LO, row_TB_XID_HI, row_TB_ORBLOAD_LO, row_TB_ORBLOAD_HI] ++
  [row_TB_RTIME_LO, row_TB_RTIME_HI, row_TB_LASTSLIP, row_TB_EVCNT]

def row_REL_CTL : RegDef := ⟨0x00200000, [], false, 0x00000000, 0x00000000, 0x00000000, 0x00000001, 0x00000000, 0x00000000, 0x00000000⟩
def row_REL_CFG : RegDef := ⟨0x00200004, [], false, 0x800FFF1F, 0x00000000, 0x00000000, 0x00000000, 0x00000000, 0x00000000, 0x00014001⟩
def row_REL_STAT : RegDef := ⟨0x00200008, [], false, 0x00000164, 0x00000000, 0x00000098, 0x00000000, 0x00000000, 0x00000000, 0x00000000⟩
def row_REL_CERTPER : RegDef := ⟨0x0020000C, [], false, 0x00FFFFFF, 0x00000000, 0x00000000, 0x00000000, 0x00000000, 0x00000000, 0x00007D00⟩
def row_REL_MEASPER : RegDef := ⟨0x00200010, [], false, 0x00FFFFFF, 0x00000000, 0x00000000, 0x00000000, 0x00000000, 0x00000000, 0x00000000⟩
def row_REL_AVSCTL : RegDef := ⟨0x00200014, [], true, 0x00000000, 0x80FFFFFF, 0x00000000, 0x00000000, 0x00000000, 0x00000000, 0x00103205⟩
def row_REL_AVSTHR : RegDef := ⟨0x00200018, [], true, 0x00000000, 0xFFFFFFFF, 0x00000000, 0x00000000, 0x00000000, 0x00000000, 0x06400320⟩
def row_REL_AVSLIM : RegDef := ⟨0x0020001C, [], true, 0x00000000, 0xF3FF03FF, 0x00000000, 0x00000000, 0x00000000, 0x00000000, 0x037002DA⟩
def row_REL_AVSSTAT : RegDef := ⟨0x00200020, [], false, 0xC0FF03FF, 0x00000000, 0x00000000, 0x00000000, 0x00000000, 0x00000000, 0x00000000⟩
def row_REL_RPLSTAT : RegDef := ⟨0x00200024, [], false, 0x00000007, 0x00000000, 0x00000000, 0x00000000, 0x00000000, 0x00000000, 0x00000000⟩
def row_REL_RPLCNT : RegDef := ⟨0x00200028, [], false, 0x00000000, 0x00000000, 0x00000000, 0x00000000, 0x00000000, 0xFFFFFFFF, 0x00000000⟩
def row_REL_LAT_first : RegDef := ⟨0x00200100, [], false, 0x80FF07FF, 0x00000000, 0x00000000, 0x00000000, 0x00000000, 0x00000000, 0x80080010⟩
def row_REL_LAT : RegDef := ⟨0x00200100, [(0x40, 16)], false, 0x80FF07FF, 0x00000000, 0x00000000, 0x00000000, 0x00000000, 0x00000000, 0x00080010⟩
def row_REL_CERT : RegDef := ⟨0x00200104, [(0x40, 16)], false, 0xFFFFFFFF, 0x00000000, 0x00000000, 0x00000000, 0x00000000, 0x00000000, 0x00000000⟩
def row_REL_LATEPAT_LO : RegDef := ⟨0x00200108, [(0x40, 16)], true, 0x00000000, 0xFFFFFFFF, 0x00000000, 0x00000000, 0x00000000, 0x00000000, 0x00000000⟩
def row_REL_LATEPAT_HI : RegDef := ⟨0x0020010C, [(0x40, 16)], true, 0x80000000, 0x7FFFFFFF, 0x00000000, 0x00000000, 0x00000000, 0x00000000, 0x80000000⟩
def row_REL_SENT : RegDef := ⟨0x00200110, [(0x40, 16)], false, 0xFFFFFFFF, 0x00000000, 0x00000000, 0x00000000, 0x00000000, 0x00000000, 0x0000FFFF⟩
def row_REL_SENTX : RegDef := ⟨0x00200114, [(0x40, 16)], false, 0xFFFFFFFF, 0x00000000, 0x00000000, 0x00000000, 0x00000000, 0x00000000, 0x0000FFFF⟩
def row_REL_SENTMIN : RegDef := ⟨0x00200118, [(0x40, 16)], false, 0x0000FFFF, 0x00000000, 0x00000000, 0x00000000, 0x00000000, 0x00000000, 0x0000FFFF⟩
def row_REL_LATECNT : RegDef := ⟨0x0020011C, [(0x40, 16)], false, 0x00000000, 0x00000000, 0x00000000, 0x00000000, 0x00000000, 0xFFFFFFFF, 0x00000000⟩

/-- The register map of the REL block. -/
def relRows : List RegDef :=
  [row_REL_CTL, row_REL_CFG, row_REL_STAT, row_REL_CERTPER, row_REL_MEASPER, row_REL_AVSCTL, row_REL_AVSTHR, row_REL_AVSLIM, row_REL_AVSSTAT, row_REL_RPLSTAT, row_REL_RPLCNT, row_REL_LAT_first] ++
  [row_REL_LAT, row_REL_CERT, row_REL_LATEPAT_LO, row_REL_LATEPAT_HI, row_REL_SENT, row_REL_SENTX, row_REL_SENTMIN, row_REL_LATECNT]

def row_LNK_CTL : RegDef := ⟨0x00300000, [(0x1000, 48)], false, 0x00000000, 0x00000003, 0x00000000, 0x00000004, 0x00000000, 0x00000000, 0x00000002⟩
def row_LNK_CFG : RegDef := ⟨0x00300004, [(0x1000, 48)], false, 0x00007CCC, 0x00000000, 0x00000000, 0x00000000, 0x00000000, 0x00000000, 0x00000000⟩
def row_LNK_STAT : RegDef := ⟨0x00300008, [(0x1000, 48)], false, 0x00000787, 0x00000000, 0x0000F800, 0x00000000, 0x00000000, 0x00000000, 0x00000000⟩
def row_LNK_TXPRE : RegDef := ⟨0x0030000C, [(0x1000, 48)], false, 0x00000000, 0x00FFFFFF, 0x00000000, 0x00000000, 0x00000000, 0x00000000, 0x00000000⟩
def row_LNK_TXMAIN : RegDef := ⟨0x00300010, [(0x1000, 48)], false, 0x00000000, 0xFF00FFFF, 0x00000000, 0x00000000, 0x00000000, 0x00000000, 0xA000007F⟩
def row_LNK_RXEQ : RegDef := ⟨0x00300014, [(0x1000, 48)], false, 0x00000000, 0xC0001F1F, 0x00000000, 0x00000000, 0x00000000, 0x00000000, 0x00000000⟩
def row_LNK_RXSTAT : RegDef := ⟨0x00300018, [(0x1000, 48)], false, 0x00001F1F, 0x00000000, 0x00000000, 0x00000000, 0x00000000, 0x00000000, 0x00000000⟩
def row_LNK_DFE0 : RegDef := ⟨0x0030001C, [(0x1000, 48)], false, 0xFFFFFFFF, 0x00000000, 0x00000000, 0x00000000, 0x00000000, 0x00000000, 0x00000000⟩
def row_LNK_DFE1 : RegDef := ⟨0x00300020, [(0x1000, 48)], false, 0xFFFFFFFF, 0x00000000, 0x00000000, 0x00000000, 0x00000000, 0x00000000, 0x00000000⟩
def row_LNK_DFE2 : RegDef := ⟨0x00300024, [(0x1000, 48)], false, 0xFFFFFFFF, 0x00000000, 0x00000000, 0x00000000, 0x00000000, 0x00000000, 0x00000000⟩
def row_LNK_EYE : RegDef := ⟨0x00300028, [(0x1000, 48)], false, 0xFFFFC3FF, 0x00000000, 0x00000000, 0x00000000, 0x00000000, 0x00000000, 0x00000000⟩
def row_LNK_TEST : RegDef := ⟨0x0030002C, [(0x1000, 48)], false, 0x00000000, 0x000007FF, 0x00000000, 0x00000000, 0x00000000, 0x00000000, 0x00000100⟩
def row_LNK_PRBSCNT : RegDef := ⟨0x00300030, [(0x1000, 48)], false, 0x80000000, 0x00000000, 0x00000000, 0x00000000, 0x00000000, 0x7FFFFFFF, 0x00000000⟩
def row_LNK_DP : RegDef := ⟨0x00300034, [(0x1000, 48)], false, 0x00000000, 0x00000FF3, 0x00000000, 0x00000000, 0x00000000, 0x00000000, 0x00000000⟩
def row_LNK_GRPSTAT : RegDef := ⟨0x00330000, [(0x4, 4)], false, 0x8000FFFF, 0x00000000, 0x40000000, 0x00000000, 0x00000000, 0x00000000, 0x00000000⟩

/-- The register map of the LNK block. -/
def lnkRows : List RegDef :=
  [row_LNK_CTL, row_LNK_CFG, row_LNK_STAT, row_LNK_TXPRE, row_LNK_TXMAIN, row_LNK_RXEQ, row_LNK_RXSTAT, row_LNK_DFE0, row_LNK_DFE1, row_LNK_DFE2, row_LNK_EYE, row_LNK_TEST] ++
  [row_LNK_PRBSCNT, row_LNK_DP, row_LNK_GRPSTAT]

def row_MDR_CFG : RegDef := ⟨0x00400000, [], false, 0x0000FFFF, 0x00000000, 0x00000000, 0x00000000, 0x00000000, 0x00000000, 0x0000080A⟩
def row_MDR_STAT : RegDef := ⟨0x00400004, [], false, 0x80000001, 0x00000000, 0x00000000, 0x00000000, 0x00000000, 0x00000000, 0x00000000⟩
def row_MDR_ID_LO : RegDef := ⟨0x00400008, [], false, 0xFFFFFFFF, 0x00000000, 0x00000000, 0x00000000, 0x00000000, 0x00000000, 0x00000000⟩
def row_MDR_ID_HI : RegDef := ⟨0x0040000C, [], false, 0xFFFFFFFF, 0x00000000, 0x00000000, 0x00000000, 0x00000000, 0x00000000, 0x00000000⟩
def row_MDR_EPOCH : RegDef := ⟨0x00400010, [], false, 0xFFFFFFFF, 0x00000000, 0x00000000, 0x00000000, 0x00000000, 0x00000000, 0x00000000⟩
def row_MDR_FCREQ : RegDef := ⟨0x00400014, [], false, 0x00000000, 0x00000000, 0x00000000, 0x00000000, 0x1F00FFFF, 0x00000000, 0x00000000⟩
def row_MDR_LCTL : RegDef := ⟨0x00401000, [(0x80, 48)], false, 0x00000000, 0x00000006, 0x00000000, 0x00000001, 0x00000000, 0x00000000, 0x00000006⟩
def row_MDR_LCFG : RegDef := ⟨0x00401004, [(0x80, 48)], false, 0xFF000000, 0x00000000, 0x00000000, 0x00000000, 0x00000000, 0x00000000, 0x01000000⟩
def row_MDR_LSTAT : RegDef := ⟨0x00401008, [(0x80, 48)], false, 0x0000010F, 0x00000000, 0x0000FE00, 0x00000000, 0x00000000, 0x00000000, 0x00000000⟩
def row_MDR_NEG : RegDef := ⟨0x0040100C, [(0x80, 48)], false, 0xFCFFFFFF, 0x00000000, 0x00000000, 0x00000000, 0x00000000, 0x00000000, 0x00000000⟩
def row_MDR_EXPID_LO : RegDef := ⟨0x00401010, [(0x80, 48)], false, 0xFFFFFFFF, 0x00000000, 0x00000000, 0x00000000, 0x00000000, 0x00000000, 0x00000000⟩
def row_MDR_EXPID_HI : RegDef := ⟨0x00401014, [(0x80, 48)], false, 0xFFFFFFFF, 0x00000000, 0x00000000, 0x00000000, 0x00000000, 0x00000000, 0x00000000⟩
def row_MDR_PID_LO : RegDef := ⟨0x00401018, [(0x80, 48)], false, 0xFFFFFFFF, 0x00000000, 0x00000000, 0x00000000, 0x00000000, 0x00000000, 0x00000000⟩
def row_MDR_PID_HI : RegDef := ⟨0x0040101C, [(0x80, 48)], false, 0xFFFFFFFF, 0x00000000, 0x00000000, 0x00000000, 0x00000000, 0x00000000, 0x00000000⟩
def row_MDR_POLICE : RegDef := ⟨0x00401020, [(0x80, 48)], true, 0x00000000, 0xFFFFFFFF, 0x00000000, 0x00000000, 0x00000000, 0x00000000, 0x00100040⟩
def row_MDR_CCQ : RegDef := ⟨0x00401024, [(0x80, 48)], false, 0xBFFFBFFF, 0x00000000, 0x00000000, 0x00000000, 0x00000000, 0x00000000, 0x00000000⟩
def row_MDR_ERRCNT : RegDef := ⟨0x00401028, [(0x80, 48)], false, 0x00000000, 0x00000000, 0x00000000, 0x00000000, 0x00000000, 0xFFFFFFFF, 0x00000000⟩
def row_MDR_FECCNT : RegDef := ⟨0x0040102C, [(0x80, 48)], false, 0x00000000, 0x00000000, 0x00000000, 0x00000000, 0x00000000, 0xFFFFFFFF, 0x00000000⟩
def row_MDR_CCCNT : RegDef := ⟨0x00401030, [(0x80, 48)], false, 0x00000000, 0x00000000, 0x00000000, 0x00000000, 0x00000000, 0xFFFFFFFF, 0x00000000⟩
def row_MDR_FCCNT : RegDef := ⟨0x00401034, [(0x80, 48)], false, 0x00000000, 0x00000000, 0x00000000, 0x00000000, 0x00000000, 0xFFFFFFFF, 0x00000000⟩
def row_MDR_NEGCNT : RegDef := ⟨0x00401038, [(0x80, 48)], false, 0x00000000, 0x00000000, 0x00000000, 0x00000000, 0x00000000, 0xFFFFFFFF, 0x00000000⟩

/-- The register map of the MDR block. -/
def mdrRows : List RegDef :=
  [row_MDR_CFG, row_MDR_STAT, row_MDR_ID_LO, row_MDR_ID_HI, row_MDR_EPOCH, row_MDR_FCREQ, row_MDR_LCTL, row_MDR_LCFG, row_MDR_LSTAT, row_MDR_NEG, row_MDR_EXPID_LO, row_MDR_EXPID_HI] ++
  [row_MDR_PID_LO, row_MDR_PID_HI, row_MDR_POLICE, row_MDR_CCQ, row_MDR_ERRCNT, row_MDR_FECCNT, row_MDR_CCCNT, row_MDR_FCCNT, row_MDR_NEGCNT]

def row_ING_CFG : RegDef := ⟨0x00500000, [], false, 0xFFFF00FF, 0x00000000, 0x00000000, 0x00000000, 0x00000000, 0x00000000, 0x00000010⟩
def row_ING_STAT : RegDef := ⟨0x00500004, [], false, 0x00000001, 0x00000000, 0x0000001E, 0x00000000, 0x00000000, 0x00000000, 0x00000001⟩
def row_ING_LAYCFG : RegDef := ⟨0x00500008, [], false, 0x0000000F, 0x00000000, 0x00000000, 0x00000000, 0x00000000, 0x00000000, 0x00000000⟩
def row_ING_ECCCNT : RegDef := ⟨0x0050000C, [], false, 0x00000000, 0x00000000, 0x00000000, 0x00000000, 0x00000000, 0xFFFFFFFF, 0x00000000⟩
def row_ING_VOIDSTAT : RegDef := ⟨0x00500010, [], false, 0xFFFFFFFF, 0x00000000, 0x00000000, 0x00000000, 0x00000000, 0x00000000, 0x00000000⟩
def row_ING_BG : RegDef := ⟨0x00500020, [(0x4, 4)], true, 0x00000000, 0x0000FFFF, 0x00000000, 0x00000000, 0x00000000, 0x00000000, 0x00000000⟩
def row_ING_LCTL : RegDef := ⟨0x00501000, [(0x20, 48)], true, 0x00000000, 0x00000003, 0x00000000, 0x00000000, 0x00000000, 0x00000000, 0x00000000⟩
def row_ING_LSTAT : RegDef := ⟨0x00501004, [(0x20, 48)], false, 0x00000100, 0x00000000, 0x0000001E, 0x00000000, 0x00000000, 0x00000000, 0x00000000⟩
def row_ING_LENT : RegDef := ⟨0x00501008, [(0x20, 48)], false, 0x7FFFFFFF, 0x00000000, 0x00000000, 0x00000000, 0x00000000, 0x00000000, 0x00000000⟩
def row_ING_LSLACK : RegDef := ⟨0x0050100C, [(0x20, 48)], false, 0xFFFFFFFF, 0x00000000, 0x00000000, 0x00000000, 0x00000000, 0x00000000, 0x0000FFFF⟩
def row_ING_LCNT : RegDef := ⟨0x00501010, [(0x20, 48)], false, 0x00000000, 0x00000000, 0x00000000, 0x00000000, 0x00000000, 0xFFFFFFFF, 0x00000000⟩
def row_ING_LCNT2 : RegDef := ⟨0x00501014, [(0x20, 48)], false, 0x00000000, 0x00000000, 0x00000000, 0x00000000, 0x00000000, 0xFFFFFFFF, 0x00000000⟩
def row_ING_TMAP_LO : RegDef := ⟨0x00540000, [(0x8, 32768)], false, 0xFFFFFFFF, 0x00000000, 0x00000000, 0x00000000, 0x00000000, 0x00000000, 0x00000000⟩
def row_ING_TMAP_HI : RegDef := ⟨0x00540004, [(0x8, 32768)], false, 0xFFFFFFFF, 0x00000000, 0x00000000, 0x00000000, 0x00000000, 0x00000000, 0x00000000⟩

/-- The register map of the ING block. -/
def ingRows : List RegDef :=
  [row_ING_CFG, row_ING_STAT, row_ING_LAYCFG, row_ING_ECCCNT, row_ING_VOIDSTAT, row_ING_BG, row_ING_LCTL, row_ING_LSTAT, row_ING_LENT, row_ING_LSLACK, row_ING_LCNT, row_ING_LCNT2] ++
  [row_ING_TMAP_LO, row_ING_TMAP_HI]

def row_CND_CFG : RegDef := ⟨0x00600000, [], false, 0x0000000F, 0x00000000, 0x00000000, 0x00000000, 0x00000000, 0x00000000, 0x00000000⟩
def row_CND_CTL : RegDef := ⟨0x00600004, [], false, 0x00000000, 0x00000000, 0x00000000, 0x0000000F, 0x00000000, 0x00000000, 0x00000000⟩
def row_CND_STAT : RegDef := ⟨0x00600008, [], false, 0x00000000, 0x00000000, 0x00000007, 0x00000000, 0x00000000, 0x00000000, 0x00000000⟩
def row_CND_ECCCNT : RegDef := ⟨0x0060000C, [], false, 0x00000000, 0x00000000, 0x00000000, 0x00000000, 0x00000000, 0xFFFFFFFF, 0x00000000⟩
def row_CND_PEDSEL : RegDef := ⟨0x00600010, [], false, 0x00000000, 0x00007FFF, 0x00000000, 0x00000000, 0x00000000, 0x00000000, 0x00000000⟩
def row_CND_PEDVAL : RegDef := ⟨0x00600014, [], false, 0x80FFFFFF, 0x00000000, 0x00000000, 0x00000000, 0x00000000, 0x00000000, 0x00000000⟩
def row_CND_SATCNT : RegDef := ⟨0x00600018, [], false, 0x00000000, 0x00000000, 0x00000000, 0x00000000, 0x00000000, 0xFFFFFFFF, 0x00000000⟩
def row_CND_LCFG : RegDef := ⟨0x00600100, [(0x20, 4)], false, 0x80000071, 0x00000000, 0x00000000, 0x00000000, 0x00000000, 0x00000000, 0x00000000⟩
def row_CND_LPED : RegDef := ⟨0x00600104, [(0x20, 4)], true, 0x00000000, 0x0000011F, 0x00000000, 0x00000000, 0x00000000, 0x00000000, 0x00000000⟩
def row_CND_LGAIN : RegDef := ⟨0x00600108, [(0x20, 4)], true, 0x00000000, 0x00000FFF, 0x00000000, 0x00000000, 0x00000000, 0x00000000, 0x00000400⟩
def row_CND_LOPT : RegDef := ⟨0x0060010C, [(0x20, 4)], true, 0x00000000, 0x8000FFFF, 0x00000000, 0x00000000, 0x00000000, 0x00000000, 0x0000FFFF⟩
def row_CND_CURVCFG : RegDef := ⟨0x00600200, [(0x4, 4)], true, 0x00000000, 0x1FFFFFFF, 0x00000000, 0x00000000, 0x00000000, 0x00000000, 0x00000000⟩
def row_CND_COEF : RegDef := ⟨0x00601000, [(0x200, 4), (0x20, 16), (0x4, 8)], true, 0x00000000, 0x0003FFFF, 0x00000000, 0x00000000, 0x00000000, 0x00000000, 0x00000000⟩
def row_CND_CELL : RegDef := ⟨0x00610000, [(0x8000, 4), (0x4, 8192)], true, 0x00000000, 0xFFFFF800, 0x00000000, 0x00000000, 0x00000000, 0x00000000, 0x00000000⟩
def row_CND_CURVE : RegDef := ⟨0x00630000, [(0x4000, 4), (0x4, 4096)], true, 0x00000000, 0x0000FFFF, 0x00000000, 0x00000000, 0x00000000, 0x00000000, 0x00000000⟩

/-- The register map of the CND block. -/
def cndRows : List RegDef :=
  [row_CND_CFG, row_CND_CTL, row_CND_STAT, row_CND_ECCCNT, row_CND_PEDSEL, row_CND_PEDVAL, row_CND_SATCNT, row_CND_LCFG, row_CND_LPED, row_CND_LGAIN, row_CND_LOPT, row_CND_CURVCFG] ++
  [row_CND_COEF, row_CND_CELL, row_CND_CURVE]

def row_PF_CFG : RegDef := ⟨0x00700000, [], false, 0xFFFEFF7F, 0x00000000, 0x00000000, 0x00000000, 0x00000000, 0x00000000, 0x00008040⟩
def row_PF_STAT : RegDef := ⟨0x00700004, [], false, 0x00000002, 0x00000000, 0x0000001C, 0x00000000, 0x00000000, 0x00000000, 0x00000000⟩
def row_PF_ECCCNT : RegDef := ⟨0x00700008, [], false, 0x00000000, 0x00000000, 0x00000000, 0x00000000, 0x00000000, 0xFFFFFFFF, 0x00000000⟩
def row_PF_SRVCNT : RegDef := ⟨0x0070000C, [], false, 0x00000000, 0x00000000, 0x00000000, 0x00000000, 0x00000000, 0xFFFFFFFF, 0x00000000⟩
def row_PF_LAKESTAT : RegDef := ⟨0x00700010, [], false, 0xFFFFFFFF, 0x00000000, 0x00000000, 0x00000000, 0x00000000, 0x00000000, 0x00000000⟩
def row_PF_SPBASE : RegDef := ⟨0x00700014, [], false, 0xFFFFFFFF, 0x00000000, 0x00000000, 0x00000000, 0x00000000, 0x00000000, 0x00000000⟩
def row_PF_LAKEBASE : RegDef := ⟨0x00700018, [], false, 0xFFFFFFFF, 0x00000000, 0x00000000, 0x00000000, 0x00000000, 0x00000000, 0x00000000⟩
def row_PF_RLCFG : RegDef := ⟨0x0070001C, [], false, 0x1FFF007F, 0x00000000, 0x00000000, 0x00000000, 0x00000000, 0x00000000, 0x00000000⟩
def row_PF_LCFG : RegDef := ⟨0x00700020, [(0x4, 4)], false, 0x00001F03, 0x00000000, 0x00000000, 0x00000000, 0x00000000, 0x00000000, 0x00000000⟩
def row_PF_BCAST : RegDef := ⟨0x00700030, [], false, 0xBFBFBFBF, 0x00000000, 0x00000000, 0x00000000, 0x00000000, 0x00000000, 0x00000000⟩
def row_PF_SRVSEL : RegDef := ⟨0x00700034, [], false, 0xBFBFBFBF, 0x00000000, 0x00000000, 0x00000000, 0x00000000, 0x00000000, 0x00000000⟩
def row_PF_KSRC : RegDef := ⟨0x00700100, [(0x8, 8)], false, 0x80003F3F, 0x00000000, 0x00000000, 0x00000000, 0x00000000, 0x00000000, 0x00000000⟩
def row_PF_KDEF : RegDef := ⟨0x00700104, [(0x8, 8)], true, 0x00000000, 0xFFFF0017, 0x00000000, 0x00000000, 0x00000000, 0x00000000, 0x00000000⟩
def row_PF_LAKEDEF : RegDef := ⟨0x00700200, [(0x4, 32)], false, 0xFFFFFFFF, 0x00000000, 0x00000000, 0x00000000, 0x00000000, 0x00000000, 0x00000000⟩
def row_PF_WMCTL : RegDef := ⟨0x00700300, [(0x10, 8)], false, 0x00000000, 0x7F3FFFFF, 0x00000000, 0x80000000, 0x00000000, 0x00000000, 0x00000000⟩
def row_PF_WMSTAT : RegDef := ⟨0x00700304, [(0x10, 8)], false, 0x00000004, 0x00000000, 0x00000003, 0x00000000, 0x00000000, 0x00000000, 0x00000000⟩
def row_PF_WMXID : RegDef := ⟨0x00700308, [(0x10, 8)], false, 0xFFFFFFFF, 0x00000000, 0x00000000, 0x00000000, 0x00000000, 0x00000000, 0x00000000⟩
def row_PF_WMBASE : RegDef := ⟨0x0070030C, [(0x10, 8)], false, 0xFFFFFFFF, 0x00000000, 0x00000000, 0x00000000, 0x00000000, 0x00000000, 0x00000000⟩
def row_PF_RLW0 : RegDef := ⟨0x00740000, [(0x10, 4096)], true, 0x00000000, 0xFFFFFFFF, 0x00000000, 0x00000000, 0x00000000, 0x00000000, 0x00000000⟩
def row_PF_RLW1 : RegDef := ⟨0x00740004, [(0x10, 4096)], true, 0x00000000, 0xFFFFFFFF, 0x00000000, 0x00000000, 0x00000000, 0x00000000, 0x00000000⟩
def row_PF_RLW2 : RegDef := ⟨0x00740008, [(0x10, 4096)], true, 0x00000000, 0xFFFFFFFF, 0x00000000, 0x00000000, 0x00000000, 0x00000000, 0x00000000⟩
def row_PF_RLW3 : RegDef := ⟨0x0074000C, [(0x10, 4096)], true, 0x00000000, 0xFFFFFFFF, 0x00000000, 0x00000000, 0x00000000, 0x00000000, 0x00000000⟩

/-- The register map of the PF block. -/
def pfRows : List RegDef :=
  [row_PF_CFG, row_PF_STAT, row_PF_ECCCNT, row_PF_SRVCNT, row_PF_LAKESTAT, row_PF_SPBASE, row_PF_LAKEBASE, row_PF_RLCFG, row_PF_LCFG, row_PF_BCAST, row_PF_SRVSEL, row_PF_KSRC] ++
  [row_PF_KDEF, row_PF_LAKEDEF, row_PF_WMCTL, row_PF_WMSTAT, row_PF_WMXID, row_PF_WMBASE, row_PF_RLW0, row_PF_RLW1, row_PF_RLW2, row_PF_RLW3]

def row_OBJ_CFG : RegDef := ⟨0x00800000, [], false, 0xFFFFFFFF, 0x00000000, 0x00000000, 0x00000000, 0x00000000, 0x00000000, 0x00400000⟩
def row_OBJ_STAT : RegDef := ⟨0x00800004, [], false, 0x00000002, 0x00000000, 0x0000003C, 0x00000000, 0x00000000, 0x00000000, 0x00000000⟩
def row_OBJ_SPARE : RegDef := ⟨0x00800008, [], false, 0x01FF003F, 0x00000000, 0x00000000, 0x00000000, 0x00000000, 0x00000000, 0x00000020⟩
def row_OBJ_ECCCNT : RegDef := ⟨0x0080000C, [], false, 0x00000000, 0x00000000, 0x00000000, 0x00000000, 0x00000000, 0xFFFFFFFF, 0x00000000⟩
def row_OBJ_MISCNT : RegDef := ⟨0x00800010, [], false, 0x00000000, 0x00000000, 0x00000000, 0x00000000, 0x00000000, 0xFFFFFFFF, 0x00000000⟩
def row_OBJ_OVFCNT : RegDef := ⟨0x00800014, [], false, 0x00000000, 0x00000000, 0x00000000, 0x00000000, 0x00000000, 0xFFFFFFFF, 0x00000000⟩
def row_OBJ_LASTMIS : RegDef := ⟨0x00800018, [], false, 0xFFE0FFFF, 0x00000000, 0x00000000, 0x00000000, 0x00000000, 0x00000000, 0x00000000⟩
def row_OBJ_NOBJ : RegDef := ⟨0x0080001C, [], false, 0xFFFF87FF, 0x00000000, 0x00000000, 0x00000000, 0x00000000, 0x00000000, 0x00000000⟩
def row_OBJ_CCFG : RegDef := ⟨0x00801000, [(0x40, 64)], false, 0xFFFFE7FF, 0x00000000, 0x00000000, 0x00000000, 0x00000000, 0x00000000, 0x00000000⟩
def row_OBJ_CAREA : RegDef := ⟨0x00801004, [(0x40, 64)], false, 0xFFFFFFC0, 0x00000000, 0x00000000, 0x00000000, 0x00000000, 0x00000000, 0x00000000⟩
def row_OBJ_CORETHR : RegDef := ⟨0x00801008, [(0x40, 64)], true, 0x00000000, 0xFFFFFFFF, 0x00000000, 0x00000000, 0x00000000, 0x00000000, 0x00000000⟩
def row_OBJ_VETOTHR : RegDef := ⟨0x0080100C, [(0x40, 64)], true, 0x00000000, 0xFFFFFFFF, 0x00000000, 0x00000000, 0x00000000, 0x00000000, 0x00000000⟩
def row_OBJ_COPT : RegDef := ⟨0x00801010, [(0x40, 64)], true, 0x00000000, 0xFCFFFFFF, 0x00000000, 0x00000000, 0x00000000, 0x00000000, 0x00000000⟩
def row_OBJ_WGT : RegDef := ⟨0x00801014, [(0x40, 64)], true, 0x00000000, 0xFFFFFFFF, 0x00000000, 0x00000000, 0x00000000, 0x00000000, 0x00000000⟩
def row_OBJ_OOMASK_LO : RegDef := ⟨0x00801018, [(0x40, 64)], true, 0x00000000, 0xFFFFFFFF, 0x00000000, 0x00000000, 0x00000000, 0x00000000, 0x00000000⟩
def row_OBJ_OOMASK_HI : RegDef := ⟨0x0080101C, [(0x40, 64)], true, 0x00000000, 0xFFFFFFFF, 0x00000000, 0x00000000, 0x00000000, 0x00000000, 0x00000000⟩
def row_OBJ_PANE : RegDef := ⟨0x00801020, [(0x40, 64), (0x4, 8)], false, 0xFFFFFFFF, 0x00000000, 0x00000000, 0x00000000, 0x00000000, 0x00000000, 0x00000000⟩
def row_OBJ_PREG : RegDef := ⟨0x00804000, [(0x10, 288)], false, 0xFFFFFFC0, 0x00000000, 0x00000000, 0x00000000, 0x00000000, 0x00000000, 0x00000000⟩
def row_OBJ_PCLS_LO : RegDef := ⟨0x00804004, [(0x10, 288)], false, 0xFFFFFFFF, 0x00000000, 0x00000000, 0x00000000, 0x00000000, 0x00000000, 0x00000000⟩
def row_OBJ_PCLS_HI : RegDef := ⟨0x00804008, [(0x10, 288)], false, 0xFFFFFFFF, 0x00000000, 0x00000000, 0x00000000, 0x00000000, 0x00000000, 0x00000000⟩
def row_OBJ_PSTAT : RegDef := ⟨0x0080400C, [(0x10, 288)], false, 0xD00001FF, 0x00000000, 0x20000000, 0x00000000, 0x00000000, 0x00000000, 0x00000000⟩

/-- The register map of the OBJ block. -/
def objRows : List RegDef :=
  [row_OBJ_CFG, row_OBJ_STAT, row_OBJ_SPARE, row_OBJ_ECCCNT, row_OBJ_MISCNT, row_OBJ_OVFCNT, row_OBJ_LASTMIS, row_OBJ_NOBJ, row_OBJ_CCFG, row_OBJ_CAREA, row_OBJ_CORETHR, row_OBJ_VETOTHR] ++
  [row_OBJ_COPT, row_OBJ_WGT, row_OBJ_OOMASK_LO, row_OBJ_OOMASK_HI, row_OBJ_PANE, row_OBJ_PREG, row_OBJ_PCLS_LO, row_OBJ_PCLS_HI, row_OBJ_PSTAT]

def row_DEC_CFG : RegDef := ⟨0x00900000, [], false, 0xFFFF0000, 0x00000000, 0x00000000, 0x00000000, 0x00000000, 0x00000000, 0x10000000⟩
def row_DEC_CTL : RegDef := ⟨0x00900004, [], false, 0x00000000, 0x00000006, 0x00000000, 0x00000008, 0x00000000, 0x00000000, 0x00000004⟩
def row_DEC_STAT : RegDef := ⟨0x00900008, [], false, 0x00000040, 0x00000000, 0x0000003F, 0x00000000, 0x00000000, 0x00000000, 0x00000000⟩
def row_DEC_SIZE : RegDef := ⟨0x0090000C, [], false, 0x0FFF03FF, 0x00000000, 0x00000000, 0x00000000, 0x00000000, 0x00000000, 0x00000000⟩
def row_DEC_DEAD : RegDef := ⟨0x00900010, [], true, 0x00000000, 0x0000FFFF, 0x00000000, 0x00000000, 0x00000000, 0x00000000, 0x00000000⟩
def row_DEC_ACCCNT : RegDef := ⟨0x00900014, [], false, 0x00000000, 0x00000000, 0x00000000, 0x00000000, 0x00000000, 0xFFFFFFFF, 0x00000000⟩
def row_DEC_BLKCNT : RegDef := ⟨0x00900018, [], false, 0x00000000, 0x00000000, 0x00000000, 0x00000000, 0x00000000, 0xFFFFFFFF, 0x00000000⟩
def row_DEC_ECCCNT : RegDef := ⟨0x0090001C, [], false, 0x00000000, 0x00000000, 0x00000000, 0x00000000, 0x00000000, 0xFFFFFFFF, 0x00000000⟩
def row_DEC_LASTACC : RegDef := ⟨0x00900020, [], false, 0xFFFFFFFF, 0x00000000, 0x00000000, 0x00000000, 0x00000000, 0x00000000, 0x00000000⟩
def row_DEC_WIN : RegDef := ⟨0x00900040, [(0x4, 8)], true, 0x00000000, 0x800FFFFF, 0x00000000, 0x00000000, 0x00000000, 0x00000000, 0x00000001⟩
def row_DEC_VSRC : RegDef := ⟨0x00900080, [(0x4, 16)], true, 0x00000000, 0xF00001FF, 0x00000000, 0x00000000, 0x00000000, 0x00000000, 0x00000000⟩
def row_DEC_EXTSEL : RegDef := ⟨0x00900100, [(0x4, 64)], false, 0x8000FFFF, 0x00000000, 0x00000000, 0x00000000, 0x00000000, 0x00000000, 0x00000000⟩
def row_DEC_XCFG : RegDef := ⟨0x00900200, [(0x4, 4)], false, 0x803F007F, 0x00000000, 0x00000000, 0x00000000, 0x00000000, 0x00000000, 0x00000000⟩
def row_DEC_PEERMAP : RegDef := ⟨0x00900210, [(0x4, 16)], false, 0x80003F03, 0x00000000, 0x00000000, 0x00000000, 0x00000000, 0x00000000, 0x00000000⟩
def row_DEC_LCTL : RegDef := ⟨0x00910000, [(0x20, 256)], true, 0x00000000, 0x8000FFFF, 0x00000000, 0x00000000, 0x00000000, 0x00000000, 0x00000000⟩
def row_DEC_LPS : RegDef := ⟨0x00910004, [(0x20, 256)], true, 0x00000000, 0xFFFFFFFF, 0x00000000, 0x00000000, 0x00000000, 0x00000000, 0x00000100⟩
def row_DEC_LACC : RegDef := ⟨0x00910008, [(0x20, 256)], false, 0xFFFFFFFF, 0x00000000, 0x00000000, 0x00000000, 0x00000000, 0x00000000, 0x00000000⟩
def row_DEC_LRAW : RegDef := ⟨0x0091000C, [(0x20, 256)], false, 0x00000000, 0x00000000, 0x00000000, 0x00000000, 0x00000000, 0xFFFFFFFF, 0x00000000⟩
def row_DEC_LTAV : RegDef := ⟨0x00910010, [(0x20, 256)], false, 0x00000000, 0x00000000, 0x00000000, 0x00000000, 0x00000000, 0xFFFFFFFF, 0x00000000⟩
def row_DEC_LTAP : RegDef := ⟨0x00910014, [(0x20, 256)], false, 0x00000000, 0x00000000, 0x00000000, 0x00000000, 0x00000000, 0xFFFFFFFF, 0x00000000⟩
def row_DEC_LTAC : RegDef := ⟨0x00910018, [(0x20, 256)], false, 0x00000000, 0x00000000, 0x00000000, 0x00000000, 0x00000000, 0xFFFFFFFF, 0x00000000⟩
def row_DEC_ACFG : RegDef := ⟨0x00920000, [(0x40, 512)], false, 0xF80000FF, 0x00000000, 0x00000000, 0x00000000, 0x00000000, 0x00000000, 0x00000000⟩
def row_DEC_AOPT : RegDef := ⟨0x00920004, [(0x40, 512)], true, 0x00000000, 0x00000003, 0x00000000, 0x00000000, 0x00000000, 0x00000000, 0x00000000⟩
def row_DEC_AVM_LO : RegDef := ⟨0x00920008, [(0x40, 512)], true, 0x00000000, 0xFFFFFFFF, 0x00000000, 0x00000000, 0x00000000, 0x00000000, 0x00000000⟩
def row_DEC_AVM_HI : RegDef := ⟨0x0092000C, [(0x40, 512)], true, 0x00000000, 0x0000FFFF, 0x00000000, 0x00000000, 0x00000000, 0x00000000, 0x00000000⟩
def row_DEC_ALEAF : RegDef := ⟨0x00920010, [(0x40, 512), (0x4, 4)], false, 0x07FF07FF, 0x00000000, 0x00000000, 0x00000000, 0x00000000, 0x00000000, 0x00000000⟩
def row_DEC_ATT : RegDef := ⟨0x00920020, [(0x40, 512), (0x4, 8)], false, 0xFFFFFFFF, 0x00000000, 0x00000000, 0x00000000, 0x00000000, 0x00000000, 0x00000000⟩
def row_DEC_ETYPE : RegDef := ⟨0x00930000, [(0x20, 2048)], false, 0xFFFFC03F, 0x00000000, 0x00000000, 0x00000000, 0x00000000, 0x00000000, 0x00000000⟩
def row_DEC_EFLG : RegDef := ⟨0x00930004, [(0x20, 2048)], true, 0x00000000, 0x07FF07FF, 0x00000000, 0x00000000, 0x00000000, 0x00000000, 0x00000000⟩
def row_DEC_ETHR : RegDef := ⟨0x00930008, [(0x20, 2048)], true, 0x00000000, 0xFFFFFFFF, 0x00000000, 0x00000000, 0x00000000, 0x00000000, 0x00000000⟩
def row_DEC_EOPT : RegDef := ⟨0x0093000C, [(0x20, 2048)], true, 0x00000000, 0xFFFF007F, 0x00000000, 0x00000000, 0x00000000, 0x00000000, 0x00000001⟩
def row_DEC_ESEP : RegDef := ⟨0x00930010, [(0x20, 2048)], true, 0x00000000, 0x3F3F7F7F, 0x00000000, 0x00000000, 0x00000000, 0x00000000, 0x003F007F⟩

/-- The register map of the DEC block. -/
def decRows : List RegDef :=
  [row_DEC_CFG, row_DEC_CTL, row_DEC_STAT, row_DEC_SIZE, row_DEC_DEAD, row_DEC_ACCCNT, row_DEC_BLKCNT, row_DEC_ECCCNT, row_DEC_LASTACC, row_DEC_WIN, row_DEC_VSRC, row_DEC_EXTSEL] ++
  [row_DEC_XCFG, row_DEC_PEERMAP, row_DEC_LCTL, row_DEC_LPS, row_DEC_LACC, row_DEC_LRAW, row_DEC_LTAV, row_DEC_LTAP, row_DEC_LTAC, row_DEC_ACFG, row_DEC_AOPT, row_DEC_AVM_LO] ++
  [row_DEC_AVM_HI, row_DEC_ALEAF, row_DEC_ATT, row_DEC_ETYPE, row_DEC_EFLG, row_DEC_ETHR, row_DEC_EOPT, row_DEC_ESEP]

def row_RO_CTL : RegDef := ⟨0x00A00000, [], false, 0x00000000, 0x00000003, 0x00000000, 0x00000000, 0x00000000, 0x00000000, 0x00000001⟩
def row_RO_STAT : RegDef := ⟨0x00A00004, [], false, 0x00000020, 0x00000000, 0x0000001E, 0x00000000, 0x00000000, 0x00000000, 0x00000020⟩
def row_RO_CFG : RegDef := ⟨0x00A00008, [], false, 0xFFFFE000, 0x00000000, 0x00000000, 0x00000000, 0x00000000, 0x00000000, 0x00000000⟩
def row_RO_RDEP : RegDef := ⟨0x00A0000C, [], false, 0x0001FFFF, 0x00000000, 0x00000000, 0x00000000, 0x00000000, 0x00000000, 0x00000000⟩
def row_RO_XBYTES : RegDef := ⟨0x00A00010, [], false, 0x00FFFFFF, 0x00000000, 0x00000000, 0x00000000, 0x00000000, 0x00000000, 0x00000000⟩
def row_RO_RINGBASE : RegDef := ⟨0x00A00014, [], false, 0xFFFFFFFF, 0x00000000, 0x00000000, 0x00000000, 0x00000000, 0x00000000, 0x00000000⟩
def row_RO_LSEL_LO : RegDef := ⟨0x00A00018, [], false, 0xFFFFFFFF, 0x00000000, 0x00000000, 0x00000000, 0x00000000, 0x00000000, 0x00000000⟩
def row_RO_LSEL_HI : RegDef := ⟨0x00A0001C, [], false, 0x0000FFFF, 0x00000000, 0x00000000, 0x00000000, 0x00000000, 0x00000000, 0x00000000⟩
def row_RO_OCLS_LO : RegDef := ⟨0x00A00020, [], false, 0xFFFFFFFF, 0x00000000, 0x00000000, 0x00000000, 0x00000000, 0x00000000, 0x00000000⟩
def row_RO_OCLS_HI : RegDef := ⟨0x00A00024, [], false, 0xFFFFFFFF, 0x00000000, 0x00000000, 0x00000000, 0x00000000, 0x00000000, 0x00000000⟩
def row_RO_FQ : RegDef := ⟨0x00A00028, [], false, 0x80003FFF, 0x00000000, 0x00000000, 0x00000000, 0x00000000, 0x00000000, 0x00000000⟩
def row_RO_FSIZE : RegDef := ⟨0x00A0002C, [], false, 0x00FFFFFF, 0x00000000, 0x00000000, 0x00000000, 0x00000000, 0x00000000, 0x00000000⟩
def row_RO_TIMING : RegDef := ⟨0x00A00030, [], false, 0x07FF00FF, 0x00000000, 0x00000000, 0x00000000, 0x00000000, 0x00000000, 0x00000000⟩
def row_RO_THRLVL : RegDef := ⟨0x00A00034, [], false, 0xFFFFFFFF, 0x00000000, 0x00000000, 0x00000000, 0x00000000, 0x00000000, 0x00000000⟩
def row_RO_SECOFF : RegDef := ⟨0x00A00038, [], false, 0xFFFFFFFF, 0x00000000, 0x00000000, 0x00000000, 0x00000000, 0x00000000, 0x00000000⟩
def row_RO_CUR_IDX : RegDef := ⟨0x00A0003C, [], false, 0x0001FFFF, 0x00000000, 0x00000000, 0x00000000, 0x00000000, 0x00000000, 0x00000000⟩
def row_RO_CUR_XID : RegDef := ⟨0x00A00040, [], false, 0xFFFFFFFF, 0x00000000, 0x00000000, 0x00000000, 0x00000000, 0x00000000, 0x00000000⟩
def row_RO_FRAGCNT : RegDef := ⟨0x00A00044, [], false, 0x00000000, 0x00000000, 0x00000000, 0x00000000, 0x00000000, 0xFFFFFFFF, 0x00000000⟩
def row_RO_ERRCNT : RegDef := ⟨0x00A00048, [], false, 0x00000000, 0x00000000, 0x00000000, 0x00000000, 0x00000000, 0xFFFFFFFF, 0x00000000⟩
def row_RO_ECCCNT : RegDef := ⟨0x00A0004C, [], false, 0x00000000, 0x00000000, 0x00000000, 0x00000000, 0x00000000, 0xFFFFFFFF, 0x00000000⟩
def row_RO_LSZ : RegDef := ⟨0x00A00100, [(0x4, 48)], false, 0xFFFF00FF, 0x00000000, 0x00000000, 0x00000000, 0x00000000, 0x00000000, 0x00000000⟩
def row_RO_COFF : RegDef := ⟨0x00A00200, [(0x4, 4)], false, 0x0000FFFF, 0x00000000, 0x00000000, 0x00000000, 0x00000000, 0x00000000, 0x00000000⟩

/-- The register map of the RO block. -/
def roRows : List RegDef :=
  [row_RO_CTL, row_RO_STAT, row_RO_CFG, row_RO_RDEP, row_RO_XBYTES, row_RO_RINGBASE, row_RO_LSEL_LO, row_RO_LSEL_HI, row_RO_OCLS_LO, row_RO_OCLS_HI, row_RO_FQ, row_RO_FSIZE] ++
  [row_RO_TIMING, row_RO_THRLVL, row_RO_SECOFF, row_RO_CUR_IDX, row_RO_CUR_XID, row_RO_FRAGCNT, row_RO_ERRCNT, row_RO_ECCCNT, row_RO_LSZ, row_RO_COFF]

def row_QM_CFG : RegDef := ⟨0x00B00000, [], false, 0x00007FFF, 0x00000000, 0x00000000, 0x00000000, 0x00000000, 0x00000000, 0x00000000⟩
def row_QM_STAT : RegDef := ⟨0x00B00004, [], false, 0x00000000, 0x00000000, 0x0000000E, 0x00000000, 0x00000000, 0x00000000, 0x00000000⟩
def row_QM_NOW : RegDef := ⟨0x00B00008, [], false, 0x00FFFFFF, 0x00000000, 0x00000000, 0x00000000, 0x00000000, 0x00000000, 0x00000000⟩
def row_QM_REFCNT : RegDef := ⟨0x00B0000C, [], false, 0x00000000, 0x00000000, 0x00000000, 0x00000000, 0x00000000, 0xFFFFFFFF, 0x00000000⟩
def row_QM_LATECNT : RegDef := ⟨0x00B00010, [], false, 0x00000000, 0x00000000, 0x00000000, 0x00000000, 0x00000000, 0xFFFFFFFF, 0x00000000⟩
def row_QM_LASTREF : RegDef := ⟨0x00B00014, [], false, 0xC0003FFF, 0x00000000, 0x00000000, 0x00000000, 0x00000000, 0x00000000, 0x00000000⟩
def row_QM_LASTLATE : RegDef := ⟨0x00B00018, [], false, 0xFFFF3FFF, 0x00000000, 0x00000000, 0x00000000, 0x00000000, 0x00000000, 0x00000000⟩
def row_QM_ECCCNT : RegDef := ⟨0x00B0001C, [], false, 0x00000000, 0x00000000, 0x00000000, 0x00000000, 0x00000000, 0xFFFFFFFF, 0x00000000⟩
def row_QM_QRESET : RegDef := ⟨0x00B00020, [], false, 0x00000000, 0x00000000, 0x00000000, 0x00000000, 0x80003FFF, 0x00000000, 0x00000000⟩
def row_QM_CLASS : RegDef := ⟨0x00B00100, [(0x4, 64)], false, 0x8000FFFF, 0x00000000, 0x00000000, 0x00000000, 0x00000000, 0x00000000, 0x00000001⟩
def row_QM_OCAP : RegDef := ⟨0x00B01000, [(0x4, 144)], false, 0xFFFFFFFF, 0x00000000, 0x00000000, 0x00000000, 0x00000000, 0x00000000, 0x00000000⟩
def row_QM_PUSH : RegDef := ⟨0x00B02000, [(0x8, 33)], false, 0x00000000, 0x00000000, 0x00000000, 0x00000000, 0x00003FFF, 0x00000000, 0x00000000⟩
def row_QM_PUSHST : RegDef := ⟨0x00B02004, [(0x8, 33)], false, 0xF0FFFFFF, 0x00000000, 0x00000000, 0x00000000, 0x00000000, 0x00000000, 0x80000000⟩
def row_QM_POP : RegDef := ⟨0x00B02200, [(0x4, 33)], false, 0x00000000, 0x00000000, 0x00000000, 0x00000000, 0x00003FFF, 0x00000000, 0x00000000⟩
def row_QM_QD : RegDef := ⟨0x00B80000, [(0x20, 16384), (0x4, 8)], false, 0xFFFFFFFF, 0x00000000, 0x00000000, 0x00000000, 0x00000000, 0x00000000, 0x00000000⟩

/-- The register map of the QM block. -/
def qmRows : List RegDef :=
  [row_QM_CFG, row_QM_STAT, row_QM_NOW, row_QM_REFCNT, row_QM_LATECNT, row_QM_LASTREF, row_QM_LASTLATE, row_QM_ECCCNT, row_QM_QRESET, row_QM_CLASS, row_QM_OCAP, row_QM_PUSH] ++
  [row_QM_PUSHST, row_QM_POP, row_QM_QD]

def row_DMA_STAT : RegDef := ⟨0x00C00000, [], false, 0x00000001, 0x00000000, 0x00000002, 0x00000000, 0x00000000, 0x00000000, 0x00000000⟩
def row_DMA_HOSTCAP : RegDef := ⟨0x00C00004, [], false, 0xFFFFFFFF, 0x00000000, 0x00000000, 0x00000000, 0x00000000, 0x00000000, 0x00000000⟩
def row_DMA_CHCTL : RegDef := ⟨0x00C01000, [(0x40, 64)], false, 0x00000000, 0x80000000, 0x00000000, 0x00000001, 0x00000000, 0x00000000, 0x00000000⟩
def row_DMA_CHCFG : RegDef := ⟨0x00C01004, [(0x40, 64)], false, 0x3C000000, 0xC000FFFF, 0x00000000, 0x00000000, 0x00000000, 0x00000000, 0x00000000⟩
def row_DMA_RING : RegDef := ⟨0x00C01008, [(0x40, 64)], false, 0x00000000, 0xFFFFFFE0, 0x00000000, 0x00000000, 0x00000000, 0x00000000, 0x00000000⟩
def row_DMA_CUR : RegDef := ⟨0x00C0100C, [(0x40, 64)], false, 0xFFFFFFE0, 0x00000000, 0x00000000, 0x00000000, 0x00000000, 0x00000000, 0x00000000⟩
def row_DMA_HOSTHI : RegDef := ⟨0x00C01010, [(0x40, 64)], false, 0x00000000, 0xFFFFFFFF, 0x00000000, 0x00000000, 0x00000000, 0x00000000, 0x00000000⟩
def row_DMA_CHRSV : RegDef := ⟨0x00C01014, [(0x40, 64)], false, 0xFFFFFFFF, 0x00000000, 0x00000000, 0x00000000, 0x00000000, 0x00000000, 0x00000000⟩
def row_DMA_CHSTAT : RegDef := ⟨0x00C01018, [(0x40, 64)], false, 0xE0000070, 0x00000000, 0x00000007, 0x00000000, 0x00000000, 0x00000000, 0x00000000⟩
def row_DMA_DONECNT : RegDef := ⟨0x00C0101C, [(0x40, 64)], false, 0x00000000, 0x00000000, 0x00000000, 0x00000000, 0x00000000, 0xFFFFFFFF, 0x00000000⟩
def row_DMA_BYTECNT : RegDef := ⟨0x00C01020, [(0x40, 64)], false, 0x00000000, 0x00000000, 0x00000000, 0x00000000, 0x00000000, 0xFFFFFFFF, 0x00000000⟩

/-- The register map of the DMA block. -/
def dmaRows : List RegDef :=
  [row_DMA_STAT, row_DMA_HOSTCAP, row_DMA_CHCTL, row_DMA_CHCFG, row_DMA_RING, row_DMA_CUR, row_DMA_HOSTHI, row_DMA_CHRSV, row_DMA_CHSTAT, row_DMA_DONECNT, row_DMA_BYTECNT]

def row_MEM_CFG : RegDef := ⟨0x00D00000, [], false, 0xFFFFFF80, 0x00000000, 0x00000000, 0x00000000, 0x00000000, 0x00000000, 0x96063300⟩
def row_MEM_CTL : RegDef := ⟨0x00D00004, [], false, 0x00000000, 0x00000002, 0x00000000, 0x00000001, 0x00000000, 0x00000000, 0x00000002⟩
def row_MEM_STAT : RegDef := ⟨0x00D00008, [], false, 0x00000FF0, 0x00000000, 0x00000001, 0x00000000, 0x00000000, 0x00000000, 0x00000000⟩
def row_MEM_GCAP : RegDef := ⟨0x00D0000C, [], false, 0xFFFFFFFF, 0x00000000, 0x00000000, 0x00000000, 0x00000000, 0x00000000, 0x00000000⟩
def row_MEM_ERRADDR : RegDef := ⟨0x00D00010, [], false, 0x3FFFFFFF, 0x00000000, 0x00000000, 0x00000000, 0x00000000, 0x00000000, 0x00000000⟩
def row_MEM_ECCCNT : RegDef := ⟨0x00D00100, [(0x4, 4)], false, 0x00000000, 0x00000000, 0x00000000, 0x00000000, 0x00000000, 0xFFFFFFFF, 0x00000000⟩
def row_MEM_RSV : RegDef := ⟨0x00D00200, [(0x4, 8)], false, 0xFFFFFFFF, 0x00000000, 0x00000000, 0x00000000, 0x00000000, 0x00000000, 0x00000000⟩

/-- The register map of the MEM block. -/
def memRows : List RegDef :=
  [row_MEM_CFG, row_MEM_CTL, row_MEM_STAT, row_MEM_GCAP, row_MEM_ERRADDR, row_MEM_ECCCNT, row_MEM_RSV]

def row_SRV_CTL : RegDef := ⟨0x00E00000, [], false, 0x00000000, 0x00000001, 0x00000000, 0x00000002, 0x00000000, 0x00000000, 0x00000001⟩
def row_SRV_STAT : RegDef := ⟨0x00E00004, [], false, 0x00000003, 0x00000000, 0x0000007C, 0x00000000, 0x00000000, 0x00000000, 0x00000000⟩
def row_SRV_RCFG : RegDef := ⟨0x00E00008, [], true, 0x00000000, 0x0000FFFF, 0x00000000, 0x00000000, 0x00000000, 0x00000000, 0x00000001⟩
def row_SRV_PAGE : RegDef := ⟨0x00E0000C, [], false, 0xFFFFFFFF, 0x00000000, 0x00000000, 0x00000000, 0x00000000, 0x00000000, 0x00000000⟩
def row_SRV_PAGEX : RegDef := ⟨0x00E00010, [], false, 0xFFFFFFFF, 0x00000000, 0x00000000, 0x00000000, 0x00000000, 0x00000000, 0x00000000⟩
def row_SRV_PAGEBASE : RegDef := ⟨0x00E00014, [], false, 0xFFFFFFFF, 0x00000000, 0x00000000, 0x00000000, 0x00000000, 0x00000000, 0x00000000⟩
def row_SRV_RTHR : RegDef := ⟨0x00E00018, [(0x4, 4)], true, 0x00000000, 0x0000FFFF, 0x00000000, 0x00000000, 0x00000000, 0x00000000, 0x00000000⟩
def row_SRV_CCTL : RegDef := ⟨0x00E00028, [], false, 0x00000000, 0x60000000, 0x00000000, 0x80000000, 0x00000000, 0x00000000, 0x20000000⟩
def row_SRV_CSTAT : RegDef := ⟨0x00E0002C, [], false, 0xFFFF0003, 0x00000000, 0x00000000, 0x00000000, 0x00000000, 0x00000000, 0x00000000⟩
def row_SRV_CXID : RegDef := ⟨0x00E00030, [], false, 0xFFFFFFFF, 0x00000000, 0x00000000, 0x00000000, 0x00000000, 0x00000000, 0x00000000⟩
def row_SRV_IMGBASE : RegDef := ⟨0x00E00034, [(0x4, 2)], false, 0x3FFFFFC0, 0x00000000, 0x00000000, 0x00000000, 0x00000000, 0x00000000, 0x00000000⟩
def row_SRV_IMGGEOM : RegDef := ⟨0x00E0003C, [], false, 0xFFFFFFFF, 0x00000000, 0x00000000, 0x00000000, 0x00000000, 0x00000000, 0x00000000⟩
def row_SRV_BGCOLOR : RegDef := ⟨0x00E00040, [], true, 0x00000000, 0xFFFFFFFF, 0x00000000, 0x00000000, 0x00000000, 0x00000000, 0x00000000⟩
def row_SRV_VCOLOR : RegDef := ⟨0x00E00044, [], true, 0x00000000, 0xFFFFFFFF, 0x00000000, 0x00000000, 0x00000000, 0x00000000, 0xD0040100⟩
def row_SRV_IQ : RegDef := ⟨0x00E00048, [], false, 0x803FFFFF, 0x00000000, 0x00000000, 0x00000000, 0x00000000, 0x00000000, 0x00004000⟩
def row_SRV_CNT : RegDef := ⟨0x00E0004C, [], false, 0x00000000, 0x00000000, 0x00000000, 0x00000000, 0x00000000, 0xFFFFFFFF, 0x00000000⟩
def row_SRV_FRAMECNT : RegDef := ⟨0x00E00050, [], false, 0xFFFFFFFF, 0x00000000, 0x00000000, 0x00000000, 0x00000000, 0x00000000, 0x00000000⟩
def row_SRV_LASTSWAP0 : RegDef := ⟨0x00E00060, [], false, 0xFFFFFFFF, 0x00000000, 0x00000000, 0x00000000, 0x00000000, 0x00000000, 0x00000000⟩
def row_SRV_LASTSWAP1 : RegDef := ⟨0x00E00064, [], false, 0xFFFF0000, 0x00000000, 0x00000000, 0x00000000, 0x00000000, 0x00000000, 0x00000000⟩
def row_SRV_LASTSWAP2 : RegDef := ⟨0x00E00068, [], false, 0xFFFFFFFF, 0x00000000, 0x00000000, 0x00000000, 0x00000000, 0x00000000, 0x00000000⟩
def row_SRV_LASTSWAP3 : RegDef := ⟨0x00E0006C, [], false, 0xFFFFFFFF, 0x00000000, 0x00000000, 0x00000000, 0x00000000, 0x00000000, 0x00000000⟩
def row_SRV_FRZCFG : RegDef := ⟨0x00E00070, [], false, 0x00000000, 0x8300FFFF, 0x00000000, 0x00000000, 0x00000000, 0x00000000, 0x000000B4⟩
def row_SRV_FRZPIX0 : RegDef := ⟨0x00E00074, [], false, 0x00000000, 0x0FFF0FFF, 0x00000000, 0x00000000, 0x00000000, 0x00000000, 0x00000000⟩
def row_SRV_FRZPIX1 : RegDef := ⟨0x00E00078, [], false, 0x00000000, 0x0FFF0FFF, 0x00000000, 0x00000000, 0x00000000, 0x00000000, 0x00000000⟩
def row_SRV_FRZREG : RegDef := ⟨0x00E0007C, [], false, 0x00000000, 0xFFFFFFC0, 0x00000000, 0x00000000, 0x00000000, 0x00000000, 0x00000000⟩
def row_SRV_FRZCRC : RegDef := ⟨0x00E00080, [], false, 0xFFFFFFFF, 0x00000000, 0x00000000, 0x00000000, 0x00000000, 0x00000000, 0x00000000⟩
def row_SRV_DCTL : RegDef := ⟨0x00E00100, [], false, 0x00000000, 0xFC00FF00, 0x00000000, 0x00000000, 0x00000000, 0x00000000, 0x10000200⟩
def row_SRV_DSTAT : RegDef := ⟨0x00E00104, [], false, 0xFC000000, 0x00000000, 0x00000007, 0x00000000, 0x00000000, 0x00000000, 0x00000000⟩
def row_SRV_DPCAP : RegDef := ⟨0x00E00108, [], false, 0xFFFF0000, 0x00000000, 0x00000000, 0x00000000, 0x00000000, 0x00000000, 0x00000000⟩
def row_SRV_PCLK : RegDef := ⟨0x00E0010C, [], false, 0x00000000, 0x000FFFFF, 0x00000000, 0x00000000, 0x00000000, 0x00000000, 0x00024414⟩
def row_SRV_HT0 : RegDef := ⟨0x00E00110, [], false, 0x00000000, 0xFFFFFFFF, 0x00000000, 0x00000000, 0x00000000, 0x00000000, 0x08980780⟩
def row_SRV_HT1 : RegDef := ⟨0x00E00114, [], false, 0x00000000, 0x8FFF0FFF, 0x00000000, 0x00000000, 0x00000000, 0x00000000, 0x802C0058⟩
def row_SRV_VT0 : RegDef := ⟨0x00E00118, [], false, 0x00000000, 0xFFFFFFFF, 0x00000000, 0x00000000, 0x00000000, 0x00000000, 0x04650438⟩
def row_SRV_VT1 : RegDef := ⟨0x00E0011C, [], false, 0x00000000, 0x8FFF0FFF, 0x00000000, 0x00000000, 0x00000000, 0x00000000, 0x80050004⟩
def row_SRV_PSRC : RegDef := ⟨0x00E00200, [(0x20, 8)], true, 0x00000000, 0xE3070000, 0x00000000, 0x00000000, 0x00000000, 0x00000000, 0x00000000⟩
def row_SRV_PDST : RegDef := ⟨0x00E00204, [(0x20, 8)], true, 0x00000000, 0x0FFF0FFF, 0x00000000, 0x00000000, 0x00000000, 0x00000000, 0x00000000⟩
def row_SRV_PSIZE : RegDef := ⟨0x00E00208, [(0x20, 8)], true, 0x00000000, 0x0FFF0FFF, 0x00000000, 0x00000000, 0x00000000, 0x00000000, 0x00000000⟩
def row_SRV_PHSTEP : RegDef := ⟨0x00E0020C, [(0x20, 8)], true, 0x00000000, 0xFFFFFFFF, 0x00000000, 0x00000000, 0x00000000, 0x00000000, 0x00010000⟩
def row_SRV_PVSTEP : RegDef := ⟨0x00E00210, [(0x20, 8)], true, 0x00000000, 0xFFFFFFFF, 0x00000000, 0x00000000, 0x00000000, 0x00000000, 0x00010000⟩
def row_SRV_PBLEND : RegDef := ⟨0x00E00214, [(0x20, 8)], true, 0x00000000, 0x00000003, 0x00000000, 0x00000000, 0x00000000, 0x00000000, 0x00000000⟩
def row_SRV_CURVCFG : RegDef := ⟨0x00E00400, [(0x4, 8)], true, 0x00000000, 0x9FFFFFFF, 0x00000000, 0x00000000, 0x00000000, 0x00000000, 0x00000000⟩
def row_SRV_BSRC : RegDef := ⟨0x00E00500, [], false, 0x00000000, 0xFFFFFFFF, 0x00000000, 0x00000000, 0x00000000, 0x00000000, 0x00000000⟩
def row_SRV_BSRCF : RegDef := ⟨0x00E00504, [], false, 0x00000000, 0x870003FF, 0x00000000, 0x00000000, 0x00000000, 0x00000000, 0x00000000⟩
def row_SRV_BDST : RegDef := ⟨0x00E00508, [], false, 0x00000000, 0xFFFFFFFF, 0x00000000, 0x00000000, 0x00000000, 0x00000000, 0x00000000⟩
def row_SRV_BDSTF : RegDef := ⟨0x00E0050C, [], false, 0x00000000, 0x870003FF, 0x00000000, 0x00000000, 0x00000000, 0x00000000, 0x00000000⟩
def row_SRV_BSIZE : RegDef := ⟨0x00E00510, [], false, 0x00000000, 0x0FFF0FFF, 0x00000000, 0x00000000, 0x00000000, 0x00000000, 0x00000000⟩
def row_SRV_BCLIP0 : RegDef := ⟨0x00E00514, [], false, 0x00000000, 0x0FFF0FFF, 0x00000000, 0x00000000, 0x00000000, 0x00000000, 0x00000000⟩
def row_SRV_BCLIP1 : RegDef := ⟨0x00E00518, [], false, 0x00000000, 0x8FFF0FFF, 0x00000000, 0x00000000, 0x00000000, 0x00000000, 0x00000000⟩
def row_SRV_BFILL : RegDef := ⟨0x00E0051C, [], false, 0x00000000, 0xFFFFFFFF, 0x00000000, 0x00000000, 0x00000000, 0x00000000, 0x00000000⟩
def row_SRV_BCTL : RegDef := ⟨0x00E00520, [], false, 0x00000000, 0x07000FFF, 0x00000000, 0x80000000, 0x00000000, 0x00000000, 0x00000000⟩
def row_SRV_BSTAT : RegDef := ⟨0x00E00524, [], false, 0xFFFF0000, 0x00000000, 0x0000000F, 0x00000000, 0x00000000, 0x00000000, 0x00000000⟩
def row_SRV_EDID : RegDef := ⟨0x00E01000, [(0x4, 32)], false, 0xFFFFFFFF, 0x00000000, 0x00000000, 0x00000000, 0x00000000, 0x00000000, 0x00000000⟩
def row_SRV_CURVE : RegDef := ⟨0x00E40000, [(0x1000, 8), (0x4, 1024)], true, 0x00000000, 0xFFFFFFFF, 0x00000000, 0x00000000, 0x00000000, 0x00000000, 0x00000000⟩
def row_SRV_SCOEF : RegDef := ⟨0x00E50000, [(0x800, 2), (0x20, 64), (0x4, 8)], true, 0x00000000, 0x00000FFF, 0x00000000, 0x00000000, 0x00000000, 0x00000000, 0x00000000⟩

/-- The register map of the SRV block. -/
def srvRows : List RegDef :=
  [row_SRV_CTL, row_SRV_STAT, row_SRV_RCFG, row_SRV_PAGE, row_SRV_PAGEX, row_SRV_PAGEBASE, row_SRV_RTHR, row_SRV_CCTL, row_SRV_CSTAT, row_SRV_CXID, row_SRV_IMGBASE, row_SRV_IMGGEOM] ++
  [row_SRV_BGCOLOR, row_SRV_VCOLOR, row_SRV_IQ, row_SRV_CNT, row_SRV_FRAMECNT, row_SRV_LASTSWAP0, row_SRV_LASTSWAP1, row_SRV_LASTSWAP2, row_SRV_LASTSWAP3, row_SRV_FRZCFG, row_SRV_FRZPIX0, row_SRV_FRZPIX1] ++
  [row_SRV_FRZREG, row_SRV_FRZCRC, row_SRV_DCTL, row_SRV_DSTAT, row_SRV_DPCAP, row_SRV_PCLK, row_SRV_HT0, row_SRV_HT1, row_SRV_VT0, row_SRV_VT1, row_SRV_PSRC, row_SRV_PDST] ++
  [row_SRV_PSIZE, row_SRV_PHSTEP, row_SRV_PVSTEP, row_SRV_PBLEND, row_SRV_CURVCFG, row_SRV_BSRC, row_SRV_BSRCF, row_SRV_BDST, row_SRV_BDSTF, row_SRV_BSIZE, row_SRV_BCLIP0, row_SRV_BCLIP1] ++
  [row_SRV_BFILL, row_SRV_BCTL, row_SRV_BSTAT, row_SRV_EDID, row_SRV_CURVE, row_SRV_SCOEF]

def row_CVL_CFG : RegDef := ⟨0x00F00000, [], false, 0x7F7F003F, 0x00000000, 0x00000000, 0x00000000, 0x00000000, 0x00000000, 0x00000000⟩
def row_CVL_STAT : RegDef := ⟨0x00F00004, [], false, 0x00000001, 0x00000000, 0x0000000E, 0x00000000, 0x00000000, 0x00000000, 0x00000000⟩
def row_CVL_TRIPST_LO : RegDef := ⟨0x00F00008, [], false, 0xFFFFFFFF, 0x00000000, 0x00000000, 0x00000000, 0x00000000, 0x00000000, 0x00000000⟩
def row_CVL_TRIPST_HI : RegDef := ⟨0x00F0000C, [], false, 0xFFFFFFFF, 0x00000000, 0x00000000, 0x00000000, 0x00000000, 0x00000000, 0x00000000⟩
def row_CVL_TRIPCLR_LO : RegDef := ⟨0x00F00010, [], false, 0x00000000, 0x00000000, 0x00000000, 0x00000000, 0xFFFFFFFF, 0x00000000, 0x00000000⟩
def row_CVL_TRIPCLR_HI : RegDef := ⟨0x00F00014, [], false, 0x00000000, 0x00000000, 0x00000000, 0x00000000, 0xFFFFFFFF, 0x00000000, 0x00000000⟩
def row_CVL_TEMP : RegDef := ⟨0x00F00018, [], false, 0x0000FFFF, 0x00000000, 0x00000000, 0x00000000, 0x00000000, 0x00000000, 0x00000000⟩
def row_CVL_ECCCNT : RegDef := ⟨0x00F0001C, [], false, 0x00000000, 0x00000000, 0x00000000, 0x00000000, 0x00000000, 0xFFFFFFFF, 0x00000000⟩
def row_CVL_CMPLVL : RegDef := ⟨0x00F00020, [(0x4, 3)], false, 0xFFFFFFFF, 0x00000000, 0x00000000, 0x00000000, 0x00000000, 0x00000000, 0x00000000⟩
def row_CVL_CCFG : RegDef := ⟨0x00F00400, [(0x10, 48)], false, 0xFFFF8000, 0x00000000, 0x00000000, 0x00000000, 0x00000000, 0x00000000, 0x00000000⟩
def row_CVL_CDAC : RegDef := ⟨0x00F00404, [(0x10, 48)], true, 0x00000000, 0x00003FFF, 0x00000000, 0x00000000, 0x00000000, 0x00000000, 0x00000000⟩
def row_CVL_CRES : RegDef := ⟨0x00F00408, [(0x10, 48)], false, 0x7FFF3FFF, 0x00000000, 0x80000000, 0x00000000, 0x00000000, 0x00000000, 0x00000000⟩
def row_CVL_CMPCFG : RegDef := ⟨0x00F00800, [(0x8, 96)], true, 0x00000000, 0xFF000FFF, 0x00000000, 0x00000000, 0x00000000, 0x00000000, 0x000003FF⟩
def row_CVL_CMPBLK : RegDef := ⟨0x00F00804, [(0x8, 96)], true, 0x00000000, 0xC0003FFF, 0x00000000, 0x00000000, 0x00000000, 0x00000000, 0x00000000⟩
def row_CVL_PCFG : RegDef := ⟨0x00F01000, [(0x20, 64)], false, 0xFFFFFFC0, 0x00000000, 0x00000000, 0x00000000, 0x00000000, 0x00000000, 0x00000000⟩
def row_CVL_PPER : RegDef := ⟨0x00F01004, [(0x20, 64)], true, 0x00000000, 0x0000FFFF, 0x00000000, 0x00000000, 0x00000000, 0x00000000, 0x00000400⟩
def row_CVL_PDUTYA : RegDef := ⟨0x00F01008, [(0x20, 64)], true, 0x00000000, 0x000FFFFF, 0x00000000, 0x00000000, 0x00000000, 0x00000000, 0x00000000⟩
def row_CVL_PDUTYB : RegDef := ⟨0x00F0100C, [(0x20, 64)], true, 0x00000000, 0x000FFFFF, 0x00000000, 0x00000000, 0x00000000, 0x00000000, 0x00000000⟩
def row_CVL_PDT : RegDef := ⟨0x00F01010, [(0x20, 64)], true, 0x00000000, 0x0FFF0FFF, 0x00000000, 0x00000000, 0x00000000, 0x00000000, 0x00000000⟩
def row_CVL_PCTL : RegDef := ⟨0x00F01014, [(0x20, 64)], true, 0x00000000, 0xF00000FF, 0x00000000, 0x00000000, 0x00000000, 0x00000000, 0x40000000⟩
def row_CVL_PSTAT : RegDef := ⟨0x00F01018, [(0x20, 64)], false, 0x801FFFFF, 0x00000000, 0x00000000, 0x00000000, 0x00000000, 0x00000000, 0x00000000⟩
def row_CVL_PCNT : RegDef := ⟨0x00F0101C, [(0x20, 64)], false, 0x0000FFFF, 0x00000000, 0x00000000, 0x00000000, 0x00000000, 0x00000000, 0x00000000⟩
def row_CVL_LCFG : RegDef := ⟨0x00F02000, [(0x80, 64)], false, 0xFFFFFFFF, 0x00000000, 0x00000000, 0x00000000, 0x00000000, 0x00000000, 0x00000000⟩
def row_CVL_LSAMP : RegDef := ⟨0x00F02004, [(0x80, 64)], true, 0x00000000, 0xFF3FFFFF, 0x00000000, 0x00000000, 0x00000000, 0x00000000, 0x00000000⟩
def row_CVL_LSET : RegDef := ⟨0x00F02008, [(0x80, 64)], true, 0x00000000, 0xFFFF3FFF, 0x00000000, 0x00000000, 0x00000000, 0x00000000, 0x00000000⟩
def row_CVL_LTC : RegDef := ⟨0x00F0200C, [(0x80, 64)], true, 0x00000000, 0xFFFFFFFF, 0x00000000, 0x00000000, 0x00000000, 0x00000000, 0x00000000⟩
def row_CVL_LOMAP : RegDef := ⟨0x00F02010, [(0x80, 64)], true, 0x00000000, 0xF81FFFFF, 0x00000000, 0x00000000, 0x00000000, 0x00000000, 0x00000000⟩
def row_CVL_LUMIN : RegDef := ⟨0x00F02014, [(0x80, 64)], true, 0x00000000, 0xFFFFFFFF, 0x00000000, 0x00000000, 0x00000000, 0x00000000, 0x00000000⟩
def row_CVL_LUMAX : RegDef := ⟨0x00F02018, [(0x80, 64)], true, 0x00000000, 0xFFFFFFFF, 0x00000000, 0x00000000, 0x00000000, 0x00000000, 0x00000000⟩
def row_CVL_LCOEF : RegDef := ⟨0x00F02020, [(0x80, 64), (0x14, 2), (0x4, 5)], true, 0x00000000, 0xFFFFFFFF, 0x00000000, 0x00000000, 0x00000000, 0x00000000, 0x00000000⟩
def row_CVL_LSTAT : RegDef := ⟨0x00F02048, [(0x80, 64)], false, 0x80003FFF, 0x00000000, 0x60000000, 0x00000000, 0x00000000, 0x00000000, 0x00000000⟩
def row_CVL_LOUT : RegDef := ⟨0x00F0204C, [(0x80, 64)], false, 0xFFFFFFFF, 0x00000000, 0x00000000, 0x00000000, 0x00000000, 0x00000000, 0x00000000⟩
def row_CVL_LSP : RegDef := ⟨0x00F02050, [(0x80, 64)], false, 0x0000FFFF, 0x00000000, 0x00000000, 0x00000000, 0x00000000, 0x00000000, 0x00000000⟩
def row_CVL_MSCFG : RegDef := ⟨0x00F04000, [(0x10, 16)], false, 0xFF800000, 0x00000000, 0x00000000, 0x00000000, 0x00000000, 0x00000000, 0x00000000⟩
def row_CVL_MSTGT : RegDef := ⟨0x00F04004, [(0x10, 16)], false, 0x00000000, 0xFFFFFFFF, 0x00000000, 0x00000000, 0x00000000, 0x00000000, 0x00000000⟩
def row_CVL_MSRATE : RegDef := ⟨0x00F04008, [(0x10, 16)], true, 0x00000000, 0xFFFFFFFF, 0x00000000, 0x00000000, 0x00000000, 0x00000000, 0x00000100⟩
def row_CVL_MSPOS : RegDef := ⟨0x00F0400C, [(0x10, 16)], false, 0xFFFFFFFF, 0x00000000, 0x00000000, 0x00000000, 0x00000000, 0x00000000, 0x00000000⟩
def row_CVL_MSTBL : RegDef := ⟨0x00F10000, [(0x1000, 4), (0x4, 1024)], true, 0x00000000, 0x0000FFFF, 0x00000000, 0x00000000, 0x00000000, 0x00000000, 0x00000000⟩
def row_CVL_QMASK : RegDef := ⟨0x00F20000, [(0x2000, 4), (0x4, 2048)], true, 0x00000000, 0xFFFFFFFF, 0x00000000, 0x00000000, 0x00000000, 0x00000000, 0x00000000⟩

/-- The register map of the CVL block. -/
def cvlRows : List RegDef :=
  [row_CVL_CFG, row_CVL_STAT, row_CVL_TRIPST_LO, row_CVL_TRIPST_HI, row_CVL_TRIPCLR_LO, row_CVL_TRIPCLR_HI, row_CVL_TEMP, row_CVL_ECCCNT, row_CVL_CMPLVL, row_CVL_CCFG, row_CVL_CDAC, row_CVL_CRES] ++
  [row_CVL_CMPCFG, row_CVL_CMPBLK, row_CVL_PCFG, row_CVL_PPER, row_CVL_PDUTYA, row_CVL_PDUTYB, row_CVL_PDT, row_CVL_PCTL, row_CVL_PSTAT, row_CVL_PCNT, row_CVL_LCFG, row_CVL_LSAMP] ++
  [row_CVL_LSET, row_CVL_LTC, row_CVL_LOMAP, row_CVL_LUMIN, row_CVL_LUMAX, row_CVL_LCOEF, row_CVL_LSTAT, row_CVL_LOUT, row_CVL_LSP, row_CVL_MSCFG, row_CVL_MSTGT, row_CVL_MSRATE] ++
  [row_CVL_MSPOS, row_CVL_MSTBL, row_CVL_QMASK]

def row_VOX_CFG : RegDef := ⟨0x01000000, [], false, 0x007F001F, 0x00000000, 0x00000000, 0x00000000, 0x00000000, 0x00000000, 0x00000000⟩
def row_VOX_STAT : RegDef := ⟨0x01000004, [], false, 0x00000001, 0x00000000, 0x00000006, 0x00000000, 0x00000000, 0x00000000, 0x00000000⟩
def row_VOX_ECCCNT : RegDef := ⟨0x01000008, [], false, 0x00000000, 0x00000000, 0x00000000, 0x00000000, 0x00000000, 0xFFFFFFFF, 0x00000000⟩
def row_VOX_BCFG : RegDef := ⟨0x01001000, [(0x100, 16)], false, 0xFC000000, 0x00000000, 0x00000000, 0x00000000, 0x00000000, 0x00000000, 0xC0000000⟩
def row_VOX_BIN : RegDef := ⟨0x01001004, [(0x100, 16)], false, 0xBFBFBFBF, 0x00000000, 0x00000000, 0x00000000, 0x00000000, 0x00000000, 0x00000000⟩
def row_VOX_BHPF : RegDef := ⟨0x01001008, [(0x100, 16)], true, 0x00000000, 0x0000001F, 0x00000000, 0x00000000, 0x00000000, 0x00000000, 0x00000000⟩
def row_VOX_BGAIN : RegDef := ⟨0x0100100C, [(0x100, 16)], true, 0x00000000, 0xFFFFFFFF, 0x00000000, 0x00000000, 0x00000000, 0x00000000, 0x80004000⟩
def row_VOX_BOUT : RegDef := ⟨0x01001010, [(0x100, 16)], true, 0x00000000, 0x00003FFF, 0x00000000, 0x00000000, 0x00000000, 0x00000000, 0x00000000⟩
def row_VOX_BMCFG : RegDef := ⟨0x01001014, [(0x100, 16)], false, 0x00000000, 0xFF001F1F, 0x00000000, 0x00800000, 0x00000000, 0x00000000, 0x40000A0C⟩
def row_VOX_BMETER : RegDef := ⟨0x01001018, [(0x100, 16)], false, 0xFFFFFFFF, 0x00000000, 0x00000000, 0x00000000, 0x00000000, 0x00000000, 0x00000000⟩
def row_VOX_BSTAT : RegDef := ⟨0x0100101C, [(0x100, 16)], false, 0x00000000, 0x00000000, 0x00000001, 0x00000000, 0x00000000, 0xFFFF0000, 0x00000000⟩
def row_VOX_BSAMP : RegDef := ⟨0x01001020, [(0x100, 16)], false, 0x0000FFFF, 0x00000000, 0x00000000, 0x00000000, 0x00000000, 0x00000000, 0x00000000⟩
def row_VOX_BCOEF : RegDef := ⟨0x01001040, [(0x100, 16), (0x14, 8), (0x4, 5)], true, 0x00000000, 0xFFFFFFFF, 0x00000000, 0x00000000, 0x00000000, 0x00000000, 0x00000000⟩
def row_VOX_VCFG : RegDef := ⟨0x01004000, [(0x40, 64)], false, 0xFF800000, 0x00000000, 0x00000000, 0x00000000, 0x00000000, 0x00000000, 0x00000000⟩
def row_VOX_VFREQ : RegDef := ⟨0x01004004, [(0x40, 64)], true, 0x00000000, 0xFFFFFFFF, 0x00000000, 0x00000000, 0x00000000, 0x00000000, 0x00000000⟩
def row_VOX_VAMP : RegDef := ⟨0x01004008, [(0x40, 64)], true, 0x00000000, 0x0000FFFF, 0x00000000, 0x00000000, 0x00000000, 0x00000000, 0x00000000⟩
def row_VOX_VPW : RegDef := ⟨0x0100400C, [(0x40, 64)], true, 0x00000000, 0xFFFFFFFF, 0x00000000, 0x00000000, 0x00000000, 0x00000000, 0x80000000⟩
def row_VOX_VWAVE : RegDef := ⟨0x01004010, [(0x40, 64)], true, 0x00000000, 0x07C1FFFF, 0x00000000, 0x00000000, 0x00000000, 0x00000000, 0x02800000⟩
def row_VOX_VTRIG : RegDef := ⟨0x01004014, [(0x40, 64)], true, 0x00000000, 0xFFFFFFFF, 0x00000000, 0x00000000, 0x00000000, 0x00000000, 0x00000000⟩
def row_VOX_VCNT : RegDef := ⟨0x01004018, [(0x40, 64)], true, 0x00000000, 0xFFFFFFFF, 0x00000000, 0x00000000, 0x00000000, 0x00000000, 0x00000000⟩
def row_VOX_VCTL : RegDef := ⟨0x0100401C, [(0x40, 64)], false, 0x00000000, 0x00000000, 0x00000000, 0x00000003, 0x00000000, 0x00000000, 0x00000000⟩
def row_VOX_VSTAT : RegDef := ⟨0x01004020, [(0x40, 64)], false, 0x8000FFFF, 0x00000000, 0x00000000, 0x00000000, 0x00000000, 0x00000000, 0x00000000⟩
def row_VOX_WAVE : RegDef := ⟨0x01040000, [(0x4, 65536)], false, 0x00000000, 0xFFFFFFFF, 0x00000000, 0x00000000, 0x00000000, 0x00000000, 0x00000000⟩

/-- The register map of the VOX block. -/
def voxRows : List RegDef :=
  [row_VOX_CFG, row_VOX_STAT, row_VOX_ECCCNT, row_VOX_BCFG, row_VOX_BIN, row_VOX_BHPF, row_VOX_BGAIN, row_VOX_BOUT, row_VOX_BMCFG, row_VOX_BMETER, row_VOX_BSTAT, row_VOX_BSAMP] ++
  [row_VOX_BCOEF, row_VOX_VCFG, row_VOX_VFREQ, row_VOX_VAMP, row_VOX_VPW, row_VOX_VWAVE, row_VOX_VTRIG, row_VOX_VCNT, row_VOX_VCTL, row_VOX_VSTAT, row_VOX_WAVE]

def row_TMR_EVCTL : RegDef := ⟨0x01100000, [], false, 0x00000000, 0x00000000, 0x00000000, 0x00000003, 0x00000000, 0x00000000, 0x00000000⟩
def row_TMR_EVSTAT : RegDef := ⟨0x01100004, [], false, 0xFFFF0000, 0x00000000, 0x00000001, 0x00000000, 0x00000000, 0x00000000, 0x00000000⟩
def row_TMR_SNAPT_LO : RegDef := ⟨0x01100008, [], false, 0xFFFFFFFF, 0x00000000, 0x00000000, 0x00000000, 0x00000000, 0x00000000, 0x00000000⟩
def row_TMR_SNAPT_HI : RegDef := ⟨0x0110000C, [], false, 0xFFFFFFFF, 0x00000000, 0x00000000, 0x00000000, 0x00000000, 0x00000000, 0x00000000⟩
def row_TMR_CTL : RegDef := ⟨0x01101000, [(0x20, 128)], false, 0x00000000, 0x7FFFFF00, 0x00000000, 0x80000000, 0x00000000, 0x00000000, 0x00000000⟩
def row_TMR_PRE : RegDef := ⟨0x01101004, [(0x20, 128)], false, 0x00000000, 0x00FFFFFF, 0x00000000, 0x00000000, 0x00000000, 0x00000000, 0x00000100⟩
def row_TMR_CNT : RegDef := ⟨0x01101008, [(0x20, 128)], false, 0x00000000, 0xFFFFFFFF, 0x00000000, 0x00000000, 0x00000000, 0x00000000, 0x00000000⟩
def row_TMR_CMP : RegDef := ⟨0x0110100C, [(0x20, 128)], false, 0x00000000, 0xFFFFFFFF, 0x00000000, 0x00000000, 0x00000000, 0x00000000, 0xFFFFFFFF⟩
def row_TMR_PER : RegDef := ⟨0x01101010, [(0x20, 128)], false, 0x00000000, 0xFFFFFFFF, 0x00000000, 0x00000000, 0x00000000, 0x00000000, 0x00000000⟩
def row_TMR_STAT : RegDef := ⟨0x01101014, [(0x20, 128)], false, 0x00000F20, 0x00000000, 0x0000009F, 0x00000000, 0x00000000, 0x00000000, 0x00000020⟩
def row_TMR_CAP : RegDef := ⟨0x01101018, [(0x20, 128)], false, 0xFFFFFFFF, 0x00000000, 0x00000000, 0x00000000, 0x00000000, 0x00000000, 0x00000000⟩
def row_TMR_ESEL : RegDef := ⟨0x01104000, [(0x20, 512)], false, 0x00000000, 0x800003FF, 0x20000000, 0x40000000, 0x00000000, 0x00000000, 0x00000000⟩
def row_TMR_ECNT_LO : RegDef := ⟨0x01104004, [(0x20, 512)], false, 0xFFFFFFFF, 0x00000000, 0x00000000, 0x00000000, 0x00000000, 0x00000000, 0x00000000⟩
def row_TMR_ECNT_HI : RegDef := ⟨0x01104008, [(0x20, 512)], false, 0x0000FFFF, 0x00000000, 0x00000000, 0x00000000, 0x00000000, 0x00000000, 0x00000000⟩
def row_TMR_ESNAP_LO : RegDef := ⟨0x0110400C, [(0x20, 512)], false, 0xFFFFFFFF, 0x00000000, 0x00000000, 0x00000000, 0x00000000, 0x00000000, 0x00000000⟩
def row_TMR_ESNAP_HI : RegDef := ⟨0x01104010, [(0x20, 512)], false, 0x0000FFFF, 0x00000000, 0x00000000, 0x00000000, 0x00000000, 0x00000000, 0x00000000⟩

/-- The register map of the TMR block. -/
def tmrRows : List RegDef :=
  [row_TMR_EVCTL, row_TMR_EVSTAT, row_TMR_SNAPT_LO, row_TMR_SNAPT_HI, row_TMR_CTL, row_TMR_PRE, row_TMR_CNT, row_TMR_CMP, row_TMR_PER, row_TMR_STAT, row_TMR_CAP, row_TMR_ESEL] ++
  [row_TMR_ECNT_LO, row_TMR_ECNT_HI, row_TMR_ESNAP_LO, row_TMR_ESNAP_HI]

def row_SEP_STAT : RegDef := ⟨0x01200000, [], false, 0xFFFFFFFF, 0x00000000, 0x00000000, 0x00000000, 0x00000000, 0x00000000, 0x00000000⟩
def row_SEP_CCFG_full : RegDef := ⟨0x01202800, [(0x100, 8)], false, 0xFF000000, 0x00000000, 0x00000000, 0x00000000, 0x00000000, 0x00000000, 0x80000000⟩
def row_SEP_CCFG : RegDef := ⟨0x01201000, [(0x100, 32)], false, 0xFF000000, 0x00000000, 0x00000000, 0x00000000, 0x00000000, 0x00000000, 0x00000000⟩
def row_SEP_DCTL : RegDef := ⟨0x01201004, [(0x100, 32)], false, 0x00000000, 0xC0000000, 0x00000000, 0x00000FFF, 0x00000000, 0x00000000, 0x00000000⟩
def row_SEP_DSTAT : RegDef := ⟨0x01201008, [(0x100, 32)], false, 0x00000F00, 0x00000000, 0x00003000, 0x00000000, 0x00000000, 0x00000000, 0x00000000⟩
def row_SEP_DSEL : RegDef := ⟨0x0120100C, [(0x100, 32)], false, 0x00000000, 0x0000031F, 0x00000000, 0x00000000, 0x00000000, 0x00000000, 0x00000000⟩
def row_SEP_DDATA : RegDef := ⟨0x01201010, [(0x100, 32)], false, 0x00000000, 0xFFFFFFFF, 0x00000000, 0x00000000, 0x00000000, 0x00000000, 0x00000000⟩
def row_SEP_MEMA : RegDef := ⟨0x01201014, [(0x100, 32)], false, 0x00000000, 0xC07FFFFC, 0x00000000, 0x00000000, 0x00000000, 0x00000000, 0x00000000⟩
def row_SEP_MEMD : RegDef := ⟨0x01201018, [(0x100, 32)], false, 0x00000000, 0xFFFFFFFF, 0x00000000, 0x00000000, 0x00000000, 0x00000000, 0x00000000⟩
def row_SEP_ECCCNT : RegDef := ⟨0x0120101C, [(0x100, 32)], false, 0x00000000, 0x00000000, 0x00000000, 0x00000000, 0x00000000, 0xFFFFFFFF, 0x00000000⟩
def row_SEP_TSTAT : RegDef := ⟨0x01201020, [(0x100, 32), (0x8, 4)], false, 0xF3000000, 0x00000000, 0x00000007, 0x00000000, 0x00000000, 0x00000000, 0x01000000⟩
def row_SEP_TCTL : RegDef := ⟨0x01201024, [(0x100, 32), (0x8, 4)], false, 0x00000000, 0xFFFFFFFC, 0x00000000, 0x00000001, 0x00000000, 0x00000000, 0x00000000⟩

/-- The register map of the SEP block. -/
def sepRows : List RegDef :=
  [row_SEP_STAT, row_SEP_CCFG_full, row_SEP_CCFG, row_SEP_DCTL, row_SEP_DSTAT, row_SEP_DSEL, row_SEP_DDATA, row_SEP_MEMA, row_SEP_MEMD, row_SEP_ECCCNT, row_SEP_TSTAT, row_SEP_TCTL]

def row_IRQ_STAT : RegDef := ⟨0x01300000, [], false, 0x00000000, 0x00000000, 0x00000003, 0x00000000, 0x00000000, 0x00000000, 0x00000000⟩
def row_IRQ_ECCCNT : RegDef := ⟨0x01300004, [], false, 0x00000000, 0x00000000, 0x00000000, 0x00000000, 0x00000000, 0xFFFFFFFF, 0x00000000⟩
def row_IRQ_PULSE : RegDef := ⟨0x01300008, [], false, 0x00000000, 0x00000000, 0x00000007, 0x00000000, 0x00000000, 0x00000000, 0x00000000⟩
def row_IRQ_TGT : RegDef := ⟨0x01301000, [(0x4, 1024)], false, 0xFF00037F, 0x00000000, 0x00000000, 0x00000000, 0x00000000, 0x00000000, 0x00000000⟩
def row_IRQ_DEVLVL : RegDef := ⟨0x01302000, [(0x4, 32)], false, 0xFFFFFFFF, 0x00000000, 0x00000000, 0x00000000, 0x00000000, 0x00000000, 0x00000000⟩
def row_IRQ_QWATCH : RegDef := ⟨0x01302080, [(0x4, 128)], false, 0x00000000, 0x80003FFF, 0x00000000, 0x00000000, 0x00000000, 0x00000000, 0x00000000⟩
def row_IRQ_SCFG : RegDef := ⟨0x01310000, [(0x4000, 4), (0x4, 128)], false, 0xF0000000, 0x0FFFFFFF, 0x00000000, 0x00000000, 0x00000000, 0x00000000, 0x00010000⟩
def row_IRQ_SLVL : RegDef := ⟨0x01310200, [(0x4000, 4), (0x4, 4)], false, 0xFFFFFFFF, 0x00000000, 0x00000000, 0x00000000, 0x00000000, 0x00000000, 0x00000000⟩
def row_IRQ_SPEND : RegDef := ⟨0x01310210, [(0x4000, 4), (0x4, 4)], false, 0xFFFFFFFF, 0x00000000, 0x00000000, 0x00000000, 0x00000000, 0x00000000, 0x00000000⟩
def row_IRQ_SINS : RegDef := ⟨0x01310220, [(0x4000, 4), (0x4, 4)], false, 0xFFFFFFFF, 0x00000000, 0x00000000, 0x00000000, 0x00000000, 0x00000000, 0x00000000⟩
def row_IRQ_PCFG : RegDef := ⟨0x01320000, [(0x200, 32), (0x4, 32)], false, 0x00000000, 0x8FFFFFFF, 0x00000000, 0x00000000, 0x00000000, 0x00000000, 0x00010000⟩
def row_IRQ_SWSET : RegDef := ⟨0x01320080, [(0x200, 32)], false, 0x00000000, 0x00000000, 0x00000000, 0x0000FFFF, 0x00000000, 0x00000000, 0x00000000⟩
def row_IRQ_SWCLR : RegDef := ⟨0x01320084, [(0x200, 32)], false, 0x00000000, 0x00000000, 0x0000FFFF, 0x00000000, 0x00000000, 0x00000000, 0x00000000⟩
def row_IRQ_PLVL : RegDef := ⟨0x01320088, [(0x200, 32)], false, 0xFFFFFFFF, 0x00000000, 0x00000000, 0x00000000, 0x00000000, 0x00000000, 0x00000000⟩
def row_IRQ_PPEND : RegDef := ⟨0x0132008C, [(0x200, 32)], false, 0xFFFFFFFF, 0x00000000, 0x00000000, 0x00000000, 0x00000000, 0x00000000, 0x00000000⟩
def row_IRQ_PINS : RegDef := ⟨0x01320090, [(0x200, 32)], false, 0xFFFFFFFF, 0x00000000, 0x00000000, 0x00000000, 0x00000000, 0x00000000, 0x00000000⟩
def row_IRQ_CLAIM : RegDef := ⟨0x01320094, [(0x200, 32)], false, 0x800F00FF, 0x00000000, 0x00000000, 0x00000000, 0x00000000, 0x00000000, 0x80000000⟩
def row_IRQ_EOI : RegDef := ⟨0x01320098, [(0x200, 32)], false, 0x00000000, 0x00000000, 0x00000000, 0x00000000, 0x000000FF, 0x00000000, 0x00000000⟩
def row_IRQ_CSTAT : RegDef := ⟨0x0132009C, [(0x200, 32)], false, 0x000F1FFF, 0x00000000, 0x00300000, 0x00000000, 0x00000000, 0x00000000, 0x000000FF⟩
def row_IRQ_STKMAP : RegDef := ⟨0x013200A0, [(0x200, 32)], false, 0x0000FFFF, 0x00000000, 0x00000000, 0x00000000, 0x00000000, 0x00000000, 0x00000000⟩
def row_IRQ_MBDATA : RegDef := ⟨0x01340000, [(0x80, 512), (0x4, 16)], false, 0x00000000, 0xFFFFFFFF, 0x00000000, 0x00000000, 0x00000000, 0x00000000, 0x00000000⟩
def row_IRQ_MBCFG : RegDef := ⟨0x01340040, [(0x80, 512)], false, 0x0000003F, 0x00000000, 0x00000000, 0x00000000, 0x00000000, 0x00000000, 0x0000003F⟩
def row_IRQ_MBSTAT : RegDef := ⟨0x01340044, [(0x80, 512)], false, 0x8000003F, 0x00000000, 0x60000000, 0x00000000, 0x00000000, 0x00000000, 0x0000003F⟩
def row_IRQ_MBSEND : RegDef := ⟨0x01340048, [(0x80, 512)], false, 0x00000000, 0x00000000, 0x00000000, 0x00000000, 0x8000003F, 0x00000000, 0x00000000⟩
def row_IRQ_MBACK : RegDef := ⟨0x0134004C, [(0x80, 512)], false, 0x00000000, 0x00000000, 0x00000000, 0x00000000, 0x80000000, 0x00000000, 0x00000000⟩

/-- The register map of the IRQ block. -/
def irqRows : List RegDef :=
  [row_IRQ_STAT, row_IRQ_ECCCNT, row_IRQ_PULSE, row_IRQ_TGT, row_IRQ_DEVLVL, row_IRQ_QWATCH, row_IRQ_SCFG, row_IRQ_SLVL, row_IRQ_SPEND, row_IRQ_SINS, row_IRQ_PCFG, row_IRQ_SWSET] ++
  [row_IRQ_SWCLR, row_IRQ_PLVL, row_IRQ_PPEND, row_IRQ_PINS, row_IRQ_CLAIM, row_IRQ_EOI, row_IRQ_CSTAT, row_IRQ_STKMAP, row_IRQ_MBDATA, row_IRQ_MBCFG, row_IRQ_MBSTAT, row_IRQ_MBSEND] ++
  [row_IRQ_MBACK]

def row_PIN_STAT : RegDef := ⟨0x01400000, [], false, 0x00000001, 0x00000000, 0x0000000E, 0x00000000, 0x00000000, 0x00000000, 0x00000000⟩
def row_PIN_BANKCFG : RegDef := ⟨0x01400004, [], false, 0x3F3F003F, 0x00000000, 0x00000000, 0x00000000, 0x00000000, 0x00000000, 0x00000000⟩
def row_PIN_OUT : RegDef := ⟨0x01400010, [(0x4, 6)], false, 0x00000000, 0xFFFFFFFF, 0x00000000, 0x00000000, 0x00000000, 0x00000000, 0x00000000⟩
def row_PIN_OSET : RegDef := ⟨0x01400030, [(0x4, 6)], false, 0x00000000, 0x00000000, 0x00000000, 0xFFFFFFFF, 0x00000000, 0x00000000, 0x00000000⟩
def row_PIN_OCLR : RegDef := ⟨0x01400050, [(0x4, 6)], false, 0x00000000, 0x00000000, 0xFFFFFFFF, 0x00000000, 0x00000000, 0x00000000, 0x00000000⟩
def row_PIN_OTGL : RegDef := ⟨0x01400070, [(0x4, 6)], false, 0x00000000, 0x00000000, 0x00000000, 0x00000000, 0xFFFFFFFF, 0x00000000, 0x00000000⟩
def row_PIN_IN : RegDef := ⟨0x01400090, [(0x4, 6)], false, 0xFFFFFFFF, 0x00000000, 0x00000000, 0x00000000, 0x00000000, 0x00000000, 0x00000000⟩
def row_PIN_GPOV : RegDef := ⟨0x014000B0, [(0x4, 6)], false, 0x00000000, 0xFFFFFFFF, 0x00000000, 0x00000000, 0x00000000, 0x00000000, 0x00000000⟩
def row_PIN_SUPP : RegDef := ⟨0x014000D0, [(0x4, 6)], false, 0xFFFFFFFF, 0x00000000, 0x00000000, 0x00000000, 0x00000000, 0x00000000, 0x00000000⟩
def row_PIN_CHAT : RegDef := ⟨0x014000F0, [(0x4, 6)], false, 0x00000000, 0x00000000, 0xFFFFFFFF, 0x00000000, 0x00000000, 0x00000000, 0x00000000⟩
def row_PIN_STK : RegDef := ⟨0x01400110, [(0x4, 6)], false, 0x00000000, 0x00000000, 0xFFFFFFFF, 0x00000000, 0x00000000, 0x00000000, 0x00000000⟩
def row_PIN_CFG : RegDef := ⟨0x01401000, [(0x10, 192)], false, 0xFF8003FF, 0x00000000, 0x00000000, 0x00000000, 0x00000000, 0x00000000, 0x00800000⟩
def row_PIN_FILT : RegDef := ⟨0x01401004, [(0x10, 192)], false, 0x00000000, 0xFFFFFFFF, 0x00000000, 0x00000000, 0x00000000, 0x00000000, 0x203E83E8⟩
def row_PIN_ISEL : RegDef := ⟨0x01404000, [(0x4, 288)], false, 0xE00000FF, 0x00000000, 0x00000000, 0x00000000, 0x00000000, 0x00000000, 0x00000000⟩

/-- The register map of the PIN block. -/
def pinRows : List RegDef :=
  [row_PIN_STAT, row_PIN_BANKCFG, row_PIN_OUT, row_PIN_OSET, row_PIN_OCLR, row_PIN_OTGL, row_PIN_IN, row_PIN_GPOV, row_PIN_SUPP, row_PIN_CHAT, row_PIN_STK, row_PIN_CFG] ++
  [row_PIN_FILT, row_PIN_ISEL]

def row_IMG_CTL : RegDef := ⟨0x01500000, [], false, 0x00000000, 0x00000030, 0x00000000, 0x00000007, 0x00000000, 0x00000000, 0x00000030⟩
def row_IMG_STAT : RegDef := ⟨0x01500004, [], false, 0xFF0000C0, 0x00000000, 0x0000003F, 0x00000000, 0x00000000, 0x00000000, 0x00000000⟩
def row_IMG_WADDR : RegDef := ⟨0x01500008, [], false, 0x00000000, 0xC07FFFFC, 0x00000000, 0x00000000, 0x00000000, 0x00000000, 0x00000000⟩
def row_IMG_WDATA : RegDef := ⟨0x0150000C, [], false, 0x00000000, 0x00000000, 0x00000000, 0x00000000, 0xFFFFFFFF, 0x00000000, 0x00000000⟩
def row_IMG_RDATA : RegDef := ⟨0x01500010, [], false, 0xFFFFFFFF, 0x00000000, 0x00000000, 0x00000000, 0x00000000, 0x00000000, 0x00000000⟩
def row_IMG_MINSEQ : RegDef := ⟨0x01500014, [], false, 0xFFFFFFFF, 0x00000000, 0x00000000, 0x00000000, 0x00000000, 0x00000000, 0x00000000⟩
def row_IMG_BOOTCNT : RegDef := ⟨0x01500018, [], false, 0xFFFFFF0F, 0x00000000, 0x00000000, 0x00000000, 0x00000000, 0x00000000, 0x00000000⟩
def row_IMG_JSTAT : RegDef := ⟨0x0150001C, [], false, 0xEFFFFFFF, 0x00000000, 0x00000000, 0x00000000, 0x00000000, 0x00000000, 0x00000000⟩
def row_IMG_PCIID : RegDef := ⟨0x01500020, [], false, 0xFFFFFFFF, 0x00000000, 0x00000000, 0x00000000, 0x00000000, 0x00000000, 0x00000000⟩
def row_IMG_SLOT : RegDef := ⟨0x01500030, [(0x8, 3)], false, 0xFF000000, 0x00000000, 0x00000000, 0x00000000, 0x00000000, 0x00000000, 0x00000000⟩
def row_IMG_SLOTSEQ : RegDef := ⟨0x01500034, [(0x8, 3)], false, 0xFFFFFFFF, 0x00000000, 0x00000000, 0x00000000, 0x00000000, 0x00000000, 0x00000000⟩
def row_IMG_MSIX_ADDR_LO : RegDef := ⟨0x01508000, [(0x10, 64)], false, 0x00000000, 0xFFFFFFFF, 0x00000000, 0x00000000, 0x00000000, 0x00000000, 0x00000000⟩
def row_IMG_MSIX_ADDR_HI : RegDef := ⟨0x01508004, [(0x10, 64)], false, 0x00000000, 0xFFFFFFFF, 0x00000000, 0x00000000, 0x00000000, 0x00000000, 0x00000000⟩
def row_IMG_MSIX_DATA : RegDef := ⟨0x01508008, [(0x10, 64)], false, 0x00000000, 0xFFFFFFFF, 0x00000000, 0x00000000, 0x00000000, 0x00000000, 0x00000000⟩
def row_IMG_MSIX_VCTL : RegDef := ⟨0x0150800C, [(0x10, 64)], false, 0x00000000, 0x00000001, 0x00000000, 0x00000000, 0x00000000, 0x00000000, 0x00000001⟩
def row_IMG_MSIX_PBA : RegDef := ⟨0x01509000, [(0x4, 2)], false, 0xFFFFFFFF, 0x00000000, 0x00000000, 0x00000000, 0x00000000, 0x00000000, 0x00000000⟩

/-- The register map of the IMG block. -/
def imgRows : List RegDef :=
  [row_IMG_CTL, row_IMG_STAT, row_IMG_WADDR, row_IMG_WDATA, row_IMG_RDATA, row_IMG_MINSEQ, row_IMG_BOOTCNT, row_IMG_JSTAT, row_IMG_PCIID, row_IMG_SLOT, row_IMG_SLOTSEQ, row_IMG_MSIX_ADDR_LO] ++
  [row_IMG_MSIX_ADDR_HI, row_IMG_MSIX_DATA, row_IMG_MSIX_VCTL, row_IMG_MSIX_PBA]

def row_RST_CMD : RegDef := ⟨0x01600000, [], false, 0x00000000, 0x00000000, 0x00000000, 0x00000000, 0xFFFF0003, 0x00000000, 0x00000000⟩
def row_RST_PDCMD : RegDef := ⟨0x01600004, [], false, 0x00000000, 0x00000000, 0x00000000, 0x00000000, 0xFFFFC07F, 0x00000000, 0x00000000⟩
def row_RST_STAT : RegDef := ⟨0x01600008, [], false, 0xC0000080, 0x00000000, 0x0000007E, 0x00000000, 0x00000000, 0x00000000, 0x00000000⟩
def row_RST_CAUSE : RegDef := ⟨0x0160000C, [], false, 0x0000000F, 0x00000000, 0x00000000, 0x00000000, 0x00000000, 0x00000000, 0x00000001⟩
def row_RST_SEQ : RegDef := ⟨0x01600010, [], false, 0x800F007F, 0x00000000, 0x00000000, 0x00000000, 0x00000000, 0x00000000, 0x00000000⟩
def row_RST_ISOCNT : RegDef := ⟨0x01600014, [], false, 0x00000000, 0x00000000, 0x00000000, 0x00000000, 0x00000000, 0xFFFFFFFF, 0x00000000⟩
def row_RST_PDSTAT_first : RegDef := ⟨0x01600020, [], false, 0xFFFFFFFF, 0x00000000, 0x00000000, 0x00000000, 0x00000000, 0x00000000, 0x00000001⟩
def row_RST_PDSTAT : RegDef := ⟨0x01600020, [(0x4, 3)], false, 0xFFFFFFFF, 0x00000000, 0x00000000, 0x00000000, 0x00000000, 0x00000000, 0x00000000⟩
def row_RST_PDPLAN_first : RegDef := ⟨0x01600030, [], false, 0xFFFFFFFF, 0x00000000, 0x00000000, 0x00000000, 0x00000000, 0x00000000, 0x0000001F⟩
def row_RST_PDPLAN : RegDef := ⟨0x01600030, [(0x4, 3)], false, 0xFFFFFFFF, 0x00000000, 0x00000000, 0x00000000, 0x00000000, 0x00000000, 0x00000000⟩

/-- The register map of the RST block. -/
def rstRows : List RegDef :=
  [row_RST_CMD, row_RST_PDCMD, row_RST_STAT, row_RST_CAUSE, row_RST_SEQ, row_RST_ISOCNT, row_RST_PDSTAT_first, row_RST_PDSTAT, row_RST_PDPLAN_first, row_RST_PDPLAN]

def row_FLT_STATUS_LO : RegDef := ⟨0x01700000, [], false, 0x00000000, 0x00000000, 0xFFFFFFFF, 0x00000000, 0x00000000, 0x00000000, 0x00000000⟩
def row_FLT_STATUS_HI : RegDef := ⟨0x01700004, [], false, 0x00000000, 0x00000000, 0x7FFFFFFF, 0x00000000, 0x00000000, 0x00000000, 0x00000000⟩
def row_FLT_FIRST : RegDef := ⟨0x01700008, [], false, 0xC000003F, 0x00000000, 0x00000000, 0x00000000, 0x00000000, 0x00000000, 0x00000000⟩
def row_FLT_FIRSTX : RegDef := ⟨0x0170000C, [], false, 0xFFFFFFFF, 0x00000000, 0x00000000, 0x00000000, 0x00000000, 0x00000000, 0x00000000⟩
def row_FLT_FIRSTT_LO : RegDef := ⟨0x01700010, [], false, 0xFFFFFFFF, 0x00000000, 0x00000000, 0x00000000, 0x00000000, 0x00000000, 0x00000000⟩
def row_FLT_FIRSTT_HI : RegDef := ⟨0x01700014, [], false, 0xFFFFFFFF, 0x00000000, 0x00000000, 0x00000000, 0x00000000, 0x00000000, 0x00000000⟩
def row_FLT_CTL : RegDef := ⟨0x01700018, [], false, 0x00000000, 0x00000000, 0x00000000, 0x00000007, 0xFFFF0000, 0x00000000, 0x00000000⟩
def row_FLT_SAFE : RegDef := ⟨0x0170001C, [], false, 0xE0003F0F, 0x00000000, 0x10000000, 0x00000000, 0x00000000, 0x00000000, 0x00000000⟩
def row_FLT_SAFEMASK_LO : RegDef := ⟨0x01700020, [], false, 0xFFFFFFFF, 0x00000000, 0x00000000, 0x00000000, 0x00000000, 0x00000000, 0x00000000⟩
def row_FLT_SAFEMASK_HI : RegDef := ⟨0x01700024, [], false, 0x7FFFFFFF, 0x00000000, 0x00000000, 0x00000000, 0x00000000, 0x00000000, 0x00000000⟩
def row_FLT_ESCTO : RegDef := ⟨0x01700028, [], false, 0x0000FFFF, 0x00000000, 0x00000000, 0x00000000, 0x00000000, 0x00000000, 0x00000000⟩
def row_FLT_WDCFG : RegDef := ⟨0x01700030, [], false, 0x00000000, 0x0000FFFF, 0x00000000, 0x80000000, 0x00000000, 0x00000000, 0x000003E8⟩
def row_FLT_WDKICK : RegDef := ⟨0x01700034, [], false, 0x00000000, 0x00000000, 0x00000000, 0x00000000, 0xFFFF0000, 0x00000000, 0x00000000⟩
def row_FLT_WDSTAT : RegDef := ⟨0x01700038, [], false, 0xC000FFFF, 0x00000000, 0x00000000, 0x00000000, 0x00000000, 0x00000000, 0x00000000⟩
def row_FLT_TLIM : RegDef := ⟨0x0170003C, [], false, 0x00000000, 0x0000FFFF, 0x00000000, 0x00000000, 0x00000000, 0x00000000, 0x000003E8⟩
def row_FLT_REDSTAT : RegDef := ⟨0x01700040, [], false, 0x00FFFFFF, 0x00000000, 0x00000000, 0x00000000, 0x00000000, 0x00000000, 0x00000020⟩
def row_FLT_LASTRET : RegDef := ⟨0x01700044, [], false, 0xFFE3FE00, 0x00000000, 0x00000000, 0x00000000, 0x00000000, 0x00000000, 0x00000000⟩
def row_FLT_DROP : RegDef := ⟨0x01700080, [(0x4, 8)], false, 0xFFFFFFFF, 0x00000000, 0x00000000, 0x00000000, 0x00000000, 0x00000000, 0x00000000⟩
def row_FLT_DEGR : RegDef := ⟨0x01700400, [(0x4, 256)], false, 0x800000FF, 0x00000000, 0x00000000, 0x00000000, 0x00000000, 0x00000000, 0x00000000⟩

/-- The register map of the FLT block. -/
def fltRows : List RegDef :=
  [row_FLT_STATUS_LO, row_FLT_STATUS_HI, row_FLT_FIRST, row_FLT_FIRSTX, row_FLT_FIRSTT_LO, row_FLT_FIRSTT_HI, row_FLT_CTL, row_FLT_SAFE, row_FLT_SAFEMASK_LO, row_FLT_SAFEMASK_HI, row_FLT_ESCTO, row_FLT_WDCFG] ++
  [row_FLT_WDKICK, row_FLT_WDSTAT, row_FLT_TLIM, row_FLT_REDSTAT, row_FLT_LASTRET, row_FLT_DROP, row_FLT_DEGR]

end RegTab
end Sys2Proof.Machine
end

