-- ==== Sys2Proof/Machine/Ops.lean ====
section
/-! DEFINITION. The named operations over the state that every chapter shares: reading and writing registers and memories,
hardware events in registers (R9), event counters (R333 to R335), device event sources and their presentation (R383 to
R387), MSI-X requests (R425), the state journal (R421), and Mordant's latches and the safe state (R448 to R454). -/
namespace Sys2Proof.Machine

/-! ### The register map -/

/-- The register maps by block slot (R3). -/
def slotRows : Nat → List RegDef
  | 0x00 => RegTab.gblRows
  | 0x01 => RegTab.tbRows
  | 0x02 => RegTab.relRows
  | 0x03 => RegTab.lnkRows
  | 0x04 => RegTab.mdrRows
  | 0x05 => RegTab.ingRows
  | 0x06 => RegTab.cndRows
  | 0x07 => RegTab.pfRows
  | 0x08 => RegTab.objRows
  | 0x09 => RegTab.decRows
  | 0x0A => RegTab.roRows
  | 0x0B => RegTab.qmRows
  | 0x0C => RegTab.dmaRows
  | 0x0D => RegTab.memRows
  | 0x0E => RegTab.srvRows
  | 0x0F => RegTab.cvlRows
  | 0x10 => RegTab.voxRows
  | 0x11 => RegTab.tmrRows
  | 0x12 => RegTab.sepRows
  | 0x13 => RegTab.irqRows
  | 0x14 => RegTab.pinRows
  | 0x15 => RegTab.imgRows
  | 0x16 => RegTab.rstRows
  | 0x17 => RegTab.fltRows
  | _ => []

/-- `r`, an offset within an indexed family, is at some index of every dimension. -/
def dimsHit : Nat → List (Nat × Nat) → Bool
  | r, [] => decide (r = 0)
  | r, (st, c) :: ds => decide (r / st < c) && dimsHit (r % st) ds

/-- The row of `rows` that lists offset `off`. -/
def findRow (off : Nat) : List RegDef → Option RegDef
  | [] => none
  | d :: ds => if decide (d.base ≤ off) && dimsHit (off - d.base) d.dims then some d else findRow off ds

/-- The register that the maps list at `off`, if any. -/
def regDef (off : Nat) : Option RegDef := findRow off (slotRows (off / 0x100000))

/-- The Reset column (R10): what a register reads as that nothing has written since its block was reset. -/
def resetWord (off : Nat) : Word :=
  match regDef off with
  | some d => BitVec.ofNat 32 d.reset
  | none => 0

/-! ### Registers -/

/-- The live value of the register at `off`. -/
def State.rd (s : State) (off : Nat) : Word := smGet (resetWord off) s.regs off

/-- Set the live value of the register at `off`. -/
def State.wr (s : State) (off : Nat) (w : Word) : State :=
  { s with regs := smSet (resetWord off) s.regs off w }

/-- The staged value of the banked register at `off` (R34). -/
def State.rdStaged (s : State) (off : Nat) : Word := smGet (resetWord off) s.staged off

/-- Set the staged value of the banked register at `off`. -/
def State.wrStaged (s : State) (off : Nat) (w : Word) : State :=
  { s with staged := smSet (resetWord off) s.staged off w }

/-- A field of a live register. -/
def State.fld (s : State) (f : Fld) : Nat := wField (s.rd f.off) f.hi f.lo

/-- A one-bit field, as a truth value. -/
def State.flag (s : State) (f : Fld) : Bool := decide (s.fld f ≠ 0)

/-- Set a field of a live register; the hardware's own update, or a write's. -/
def State.setFld (s : State) (f : Fld) (v : Nat) : State := s.wr f.off (wSetField (s.rd f.off) f.hi f.lo v)

/-- Set or clear a one-bit field. -/
def State.setFlag (s : State) (f : Fld) (b : Bool) : State := s.setFld f (b2n b)

/-- A field of a bank, live or staged word given. -/
def fldOf (w : Word) (f : Fld) : Nat := wField w f.hi f.lo

/-- The register's record of this cycle's events, begun if there is none. -/
def State.regEvent (s : State) (off : Nat) : RegEvent :=
  smGet { before := s.rd off, fresh := 0 } s.cyc.regEv off

/-- Record this cycle's events of a register (R9). -/
def State.noteEvent (s : State) (off : Nat) (e : RegEvent) : State :=
  { s with cyc := { s.cyc with regEv := smInsert (smErase s.cyc.regEv off) off e } }

/-- A hardware event sets a bit (R9): the bit is 1, and a clear in the same cycle will leave it 1. -/
def State.event (s : State) (f : Fld) : State :=
  let e := s.regEvent f.off
  (s.noteEvent f.off { e with fresh := wSetField e.fresh f.hi f.lo (2 ^ (f.hi + 1 - f.lo) - 1) }).setFld f
    (2 ^ (f.hi + 1 - f.lo) - 1)

/-- A hardware event when `b` holds. -/
def State.eventIf (s : State) (b : Bool) (f : Fld) : State := if b then s.event f else s

/-- A saturating count advances by `n`; a clear in the same cycle leaves this cycle's part (R9). -/
def State.count (s : State) (f : Fld) (n : Nat) : State :=
  let w := f.hi + 1 - f.lo
  let e := s.regEvent f.off
  (s.noteEvent f.off { e with fresh := wSetField e.fresh f.hi f.lo (satAdd w (wField e.fresh f.hi f.lo) n) }).setFld f
    (satAdd w (s.fld f) n)

/-- Something else than an access comes about: it falls in a REFCLK cycle of its own (log 1). -/
def State.eventCycle (s : State) : State := { s with cyc := { Cycle.clear s.flt.status with ev := true } }

/-- `who` accesses a register: in a later REFCLK cycle than its own last access and than all else that came about before; it may share
the cycle with accesses of others just before it (log 1). -/
def State.accessCycle (s : State) (who : Requester) : State :=
  if s.cyc.ev || s.cyc.users.contains who then { s with cyc := { Cycle.clear s.flt.status with users := [who] } }
  else { s with cyc := { s.cyc with users := who :: s.cyc.users } }

/-- REFCLK cycles since power-on reset, as TB_RTIME holds them (R43). -/
def State.rtime (s : State) : Nat := s.cycle % 2 ^ 64

/-- Microsecond ticks (100 REFCLK cycles, R386). -/
def State.tickNo (s : State) : Nat := s.cycle / 100

/-! ### Power domains -/

/-- Power domain `d` is powered and released (RST_PDSTAT). -/
def State.up (s : State) (d : Nat) : Bool := bit (s.rd (Reg.RST_PDSTAT (d / 32))).toNat (d % 32)

/-- The domain whose isolation governs a register offset (R3, R435). DESIGN CHOICE (log 12) where R435 names several
domains for one block: the first of them. Offsets of no block have none and stand with PD00. -/
def domOf (off : Nat) : Nat :=
  let o := off % 0x100000
  match off / 0x100000 with
  | 0x01 => 3
  | 0x02 => 3
  | 0x03 => if o < 0x30000 then (if o % 0x1000 < 0xC then 0 else 5 + o / 0x1000) else 0
  | 0x04 => if 0x1000 ≤ o ∧ o < 0x1000 + 0x80 * 48 then 5 + (o - 0x1000) / 0x80 else 0
  | 0x05 => if 0x1000 ≤ o ∧ o < 0x1000 + 0x20 * 48 then 5 + (o - 0x1000) / 0x20 else 53
  | 0x06 => 53
  | 0x07 => 61
  | 0x08 => if 0x4000 ≤ o ∧ o < 0x4000 + 0x10 * 288 then 69 + (o - 0x4000) / 0x10 / 32 else 69
  | 0x09 => 78
  | 0x0A => 79
  | 0x0B => 80
  | 0x0C => 80
  | 0x0D => 81
  | 0x0E => 85
  | 0x0F => if (0x20 ≤ o ∧ o < 0x30) ∨ (0x400 ≤ o ∧ o < 0x1000) then 91 else 92
  | 0x10 => 92
  | 0x11 => if 0x1000 ≤ o ∧ o < 0x2000 then 90 else 94
  | 0x12 => if 0x1000 ≤ o ∧ o < 0x1000 + 0x100 * 32 then 86 + (o - 0x1000) / 0x100 / 8 else 90
  | 0x13 => if 0x10000 ≤ o ∧ o < 0x20000 then 86 + (o - 0x10000) / 0x4000
            else if 0x20000 ≤ o ∧ o < 0x20000 + 0x200 * 32 then 86 + (o - 0x20000) / 0x200 / 8 else 90
  | 0x14 => 93
  | 0x15 => 4
  | 0x17 => 2
  | _ => 0

/-! ### Memories: bytes by address -/

/-- One byte of a memory; an unlisted byte reads 0 (DESIGN CHOICE, log 3). -/
def memByte (m : List Host.Cell) (a : Nat) : Nat := (smGet (0 : BitVec 8) m a).toNat

/-- The canonical form of a memory: addresses strictly rising, no entry that reads as an unlisted byte does. -/
def Memory.wf (m : List Host.Cell) : Bool := smWf (fun _ => (0 : BitVec 8)) m

/-- Write one byte of a memory. -/
def memPut (m : List Host.Cell) (a v : Nat) : List Host.Cell := smSet (0 : BitVec 8) m a (BitVec.ofNat 8 v)

/-- `n` bytes from address `a`, lowest first. -/
def memBytes (m : List Host.Cell) (a : Nat) : Nat → List Nat
  | 0 => []
  | n + 1 => memByte m a :: memBytes m (a + 1) n

/-- Store bytes from address `a` on. -/
def memStore (m : List Host.Cell) (a : Nat) : List Nat → List Host.Cell
  | [] => m
  | b :: r => memStore (memPut m a b) (a + 1) r

/-- A little-endian 32-bit word. -/
def memWord (m : List Host.Cell) (a : Nat) : Nat := leNat (memBytes m a 4)

/-- Store a little-endian 32-bit word. -/
def memPutWord (m : List Host.Cell) (a w : Nat) : List Host.Cell := memStore m a (wordBytes w)

/-- The image lays out an SRAM window at BAR0 offset `a` (R4, R5). -/
def State.inWindow (s : State) (a : Nat) : Bool := s.img.windows.any fun w => decide (w.base ≤ a ∧ a < w.base + w.size)

/-! ### Event counters (R333 to R335) -/

/-- The source that event counter `k` counts in this cycle: a change of SRC acts from the next cycle (R334). -/
def State.evSrc (s : State) (k : Nat) : Nat :=
  fldOf (smGet (s.rd (Reg.TMR_ESEL k)) s.cyc.eselOld k) (Reg.TMR_ESEL_SRC k)

/-- Counter `k` takes a contribution of 1 (R334). -/
def evAdvance (s : State) (k : Nat) : State :=
  let c := smGet 0 s.tmr.evCnt k
  let s := { s with tmr := { s.tmr with evCnt := smSet 0 s.tmr.evCnt k ((c + 1) % 2 ^ 48) },
                    cyc := { s.cyc with evContrib := nsAdd s.cyc.evContrib k } }
  if c + 1 = 2 ^ 48 then (s.event (Reg.TMR_ESEL_OVF k)).event Reg.TMR_EVSTAT_EVOVF else s

/-- The event counters whose TMR_ESEL register holds anything but its reset value. -/
def State.evListed (s : State) : List Nat :=
  s.regs.filterMap fun e =>
    if Reg.TMR_ESEL 0 ≤ e.1 ∧ e.1 < Reg.TMR_ESEL 512 ∧ (e.1 - Reg.TMR_ESEL 0) % 0x20 = 0
    then some ((e.1 - Reg.TMR_ESEL 0) / 0x20) else none

/-- Source `src` of R333 occurs: once in a cycle, every enabled counter that names it advances (R334). -/
def countSrc (s : State) (src : Nat) : State :=
  if !(s.up 94) || s.cyc.evSeen.contains src then s else
  let s := { s with cyc := { s.cyc with evSeen := nsAdd s.cyc.evSeen src } }
  s.evListed.foldl (fun s k => if s.flag (Reg.TMR_ESEL_EN k) && decide (s.evSrc k = src) then evAdvance s k else s) s

/-! ### MSI-X (R425) -/

/-- One message of vector `v` leaves; further requests merge for 1 us. -/
def msixSend (s : State) (v : Nat) : State :=
  let n := smGet 0 s.pcie.sent v
  { s with pcie := { s.pcie with sent := smSet 0 s.pcie.sent v (n + 1), spacing := nsAdd s.pcie.spacing v } }

/-- The vector's mask bit or the function's holds messages back. -/
def State.msixMasked (s : State) (v : Nat) : Bool := s.pcie.funcMask || s.flag (Reg.IMG_MSIX_VCTL_MASK v)

/-- Set or clear the pending bit of vector `v`. -/
def State.setPba (s : State) (v : Nat) (b : Bool) : State :=
  s.setFlag ⟨Reg.IMG_MSIX_PBA (v / 32), v % 32, v % 32⟩ b

/-- A request of vector `v` (R425). -/
def msixRequest (s : State) (v : Nat) : State :=
  if !s.pcie.msixEnable then s
  else if s.msixMasked v then s.setPba v true
  else if s.pcie.spacing.contains v then { s with pcie := { s.pcie with merged := nsAdd s.pcie.merged v } }
  else msixSend s v

/-! ### Device event sources and their presentation (R383 to R387) -/

/-- BACKLOG of queue `q` (R229, word 6). -/
def State.qBacklog (s : State) (q : Nat) : Nat := (s.rd (Reg.QM_QD q 6)).toNat

/-- The level of device source `n` (R383). -/
def State.devLevel (s : State) (n : Nat) : Bool :=
  if n < 128 then decide (((s.rd (Reg.TMR_STAT n)).toNat &&& s.fld (Reg.TMR_CTL_IEN n)) % 16 ≠ 0)
  else if n < 192 then s.irq.dmaLatch.contains (n - 128)
  else if n < 200 then s.flag (Reg.PF_WMSTAT_ROWEV (n - 192))
  else if n < 208 then s.flag (Reg.PF_WMSTAT_DONE (n - 200))
  else if n < 211 then bit (s.rd Reg.IRQ_PULSE).toNat (n - 208)
  else if n = 211 then s.flag Reg.SRV_BSTAT_ROWEV
  else if n = 212 then s.flag Reg.SRV_BSTAT_DONE
  else if n = 213 then s.flag Reg.CVL_STAT_TRIP
  else if n = 214 then s.flag Reg.TB_STAT_SLIP || s.flag Reg.TB_STAT_MISS || s.flag Reg.TB_STAT_LOSS
  else if n < 256 then false
  else if n < 320 then s.flt.status.getLsbD (n - 256)
  else if n < 368 then decide (((s.rd (Reg.MDR_LSTAT (n - 320))).toNat &&& RegTab.row_MDR_LSTAT.w1c) ≠ 0)
  else if n < 512 then false
  else if n < 640 then
    s.flag (Reg.IRQ_QWATCH_EN (n - 512)) && decide (s.qBacklog (s.fld (Reg.IRQ_QWATCH_Q (n - 512))) ≠ 0)
  else false

/-- Source `n` reaches shared slot `sl` of cluster `k` (R384). A damaged IRQ_TGT word routes nowhere (R392). -/
def State.routes (s : State) (n k sl : Nat) : Bool :=
  s.flag (Reg.IRQ_TGT_EN n) && decide (s.fld (Reg.IRQ_TGT_CLUSTER n) = k) && decide (s.fld (Reg.IRQ_TGT_SLOT n) = sl)
    && !s.ecc.contains (Reg.IRQ_TGT n)

/-- The sources whose IRQ_TGT register is not at its reset value (the others route nowhere). -/
def State.tgtListed (s : State) : List Nat :=
  s.regs.filterMap fun e =>
    if Reg.IRQ_TGT 0 ≤ e.1 ∧ e.1 < Reg.IRQ_TGT 1024 then some ((e.1 - Reg.IRQ_TGT 0) / 4) else none

/-- The level of a shared slot: the OR of the sources routed to it (R384). -/
def State.slotLevel (s : State) (k sl : Nat) : Bool :=
  s.tgtListed.any fun n => s.routes n k sl && s.devLevel n

/-- The level of private source `i` of core `c` (R385). -/
def State.privLevel (s : State) (c i : Nat) : Bool :=
  if i < 16 then bit (s.rd (Reg.IRQ_SWSET c)).toNat i
  else if i < 20 then s.flag (Reg.SEP_TSTAT_ESCEV c (i - 16)) || s.flag (Reg.SEP_TSTAT_STOPEV c (i - 16))
  else if i = 20 then s.irqEcc.contains c
  else false

/-- The four settings of a source, from its IRQ_PCFG or IRQ_SCFG word. -/
structure SrcCfg where
  en : Bool
  prio : Nat
  cnt : Nat
  time : Nat
deriving DecidableEq, Repr

/-- Read a source's settings. -/
def srcCfg (w : Word) : SrcCfg :=
  { en := decide (wField w 31 31 ≠ 0), prio := wField w 27 24, cnt := wField w 23 16, time := wField w 15 0 }

/-- The presentation test of R386 at tick `now`. -/
def presentTest (cfg : SrcCfg) (level : Bool) (now : Nat) (x : IrqSrc) : IrqSrc :=
  if !level then { x with occ := 0, presented := false }
  else if !x.presented && cfg.en &&
      (decide (max cfg.cnt 1 ≤ x.occ) || (decide (cfg.time ≠ 0) && decide (x.occ ≠ 0) && decide (cfg.time ≤ now - x.t0)))
  then { x with presented := true } else x

/-- An occurrence counts (R386). -/
def occur (now : Nat) (x : IrqSrc) : IrqSrc :=
  { x with occ := x.occ + 1, t0 := if x.occ = 0 then now else x.t0 }

/-- Put a private source's state. -/
def State.setPriv (s : State) (c i : Nat) (x : IrqSrc) : State :=
  { s with irq := { s.irq with priv := smSet IrqSrc.idle s.irq.priv (32 * c + i) x } }

/-- Put a shared slot's state. -/
def State.setShared (s : State) (k sl : Nat) (x : IrqSrc) : State :=
  { s with irq := { s.irq with shared := smSet IrqSrc.idle s.irq.shared (128 * k + sl) x } }

def State.privSrc (s : State) (c i : Nat) : IrqSrc := smGet IrqSrc.idle s.irq.priv (32 * c + i)

def State.sharedSrc (s : State) (k sl : Nat) : IrqSrc := smGet IrqSrc.idle s.irq.shared (128 * k + sl)

/-- Test a private source again (R386). -/
def testPriv (s : State) (c i : Nat) : State :=
  if s.up (86 + c / 8) then
    s.setPriv c i (presentTest (srcCfg (s.rd (Reg.IRQ_PCFG c i))) (s.privLevel c i) s.tickNo (s.privSrc c i))
  else s

/-- Test a shared slot again (R386); while its cluster is unpowered the router holds it. -/
def testShared (s : State) (k sl : Nat) : State :=
  if s.up (86 + k) then
    s.setShared k sl (presentTest (srcCfg (s.rd (Reg.IRQ_SCFG k sl))) (s.slotLevel k sl) s.tickNo (s.sharedSrc k sl))
  else s

/-- An occurrence of private source `i` of core `c`: at most one in a REFCLK cycle (R383, R386). -/
def occurPriv (s : State) (c i : Nat) : State :=
  if !(s.up (86 + c / 8)) then s
  else if s.cyc.occPriv.contains (32 * c + i) then testPriv s c i
  else testPriv ({ s with cyc := { s.cyc with occPriv := nsAdd s.cyc.occPriv (32 * c + i) } }.setPriv c i
    (occur s.tickNo (s.privSrc c i))) c i

/-- The slot that source `n` is routed to, if any. -/
def State.slotOf (s : State) (n : Nat) : Option (Nat × Nat) :=
  if s.flag (Reg.IRQ_TGT_EN n) && !s.ecc.contains (Reg.IRQ_TGT n)
  then some (s.fld (Reg.IRQ_TGT_CLUSTER n), s.fld (Reg.IRQ_TGT_SLOT n)) else none

/-- Device source `n` occurs: its producer sets one of the bits that form its level; one occurrence in a cycle (R383). -/
def occurDev (s : State) (n : Nat) : State :=
  match s.slotOf n with
  | none => s
  | some (k, sl) =>
    if !(s.up 90 && s.up (86 + k)) then s
    else if s.cyc.occDev.contains n then testShared s k sl
    else testShared ({ s with cyc := { s.cyc with occDev := nsAdd s.cyc.occDev n } }.setShared k sl
      (occur s.tickNo (s.sharedSrc k sl))) k sl

/-- After a change that may have moved the level of source `n` from `before`: a rising edge of a source routed with HEN
requests its MSI-X vector (R384), a fall lets its slot be tested again (R386). -/
def edgeDev (before : Bool) (s : State) (n : Nat) : State :=
  let now := s.devLevel n
  let s := if now && !before && s.flag (Reg.IRQ_TGT_HEN n) && !s.ecc.contains (Reg.IRQ_TGT n)
           then msixRequest s (s.fld (Reg.IRQ_TGT_HVEC n)) else s
  match s.slotOf n with
  | none => s
  | some (k, sl) => if now = before then s else testShared s k sl

/-- Apply `f`, and follow what it does to the level of source `n`. -/
def withDev (n : Nat) (f : State → State) (s : State) : State := edgeDev (s.devLevel n) (f s) n

/-! ### The state journal (R421) -/

/-- Offset of the record log in the retained store (R412). -/
def journalBase : Nat := 0xE40000

/-- The 15 words before the CRC, as bytes. -/
def recordBytes (words : List Nat) : List Nat := (words.map wordBytes).flatten

/-- Sixteen words: type, sequence number, payload padded with 0, CRC-32 (R421). -/
def recordWords (rtype rseq : Nat) (payload : List Nat) : List Nat :=
  let w := (rtype * 2 ^ 24) :: rseq :: ((payload ++ List.replicate 13 0).take 13)
  w ++ [crc32 (recordBytes w)]

/-- The listed addresses outside `n` bytes from `a` on. -/
def dropSpan (l : List Nat) (a n : Nat) : List Nat := l.filter fun x => !decide (a ≤ x ∧ x < a + n)

/-- A word of `n` bytes of the retained store from `a` on holds an uncorrectable error (R412). -/
def State.storeDamaged (s : State) (a n : Nat) : Bool := s.img.storeBad.any fun x => decide (a ≤ x ∧ x < a + n)

/-- Write one record at the log's present position. -/
def putRecord (s : State) (rtype : Nat) (payload : List Nat) : State :=
  let img := s.img
  { s with
    img := { img with store := memStore img.store (journalBase + 64 * img.recPos) (recordBytes (recordWords rtype img.rseq payload)),
                      storeBad := dropSpan img.storeBad (journalBase + 64 * img.recPos) 64,
                      recPos := (img.recPos + 1) % 4096, rseq := (img.rseq + 1) % 2 ^ 32 } }.setFld Reg.IMG_JSTAT_RSEQ img.rseq

/-- Words of the record at index `i` of the log. -/
def State.recordAt (s : State) (i : Nat) : List Nat :=
  (List.range 16).map fun j => memWord s.img.store (journalBase + 64 * i + 4 * j)

/-- A record is valid when its CRC matches (R421) and it can be read; an erased record (all zeros) is none. -/
def recordValid (ws : List Nat) : Bool :=
  decide (ws.getD 0 0 ≠ 0) && decide (ws.getD 15 0 = crc32 (recordBytes (ws.take 15)))

/-- Indices of the log at which something is stored. -/
def State.recordIdx (s : State) : List Nat :=
  (s.img.store.filterMap fun e =>
    if journalBase ≤ e.1 ∧ e.1 < journalBase + 0x40000 then some ((e.1 - journalBase) / 64) else none).foldl nsAdd []

/-- The valid records of a type, as their words; one that cannot be read is none. -/
def State.recordsOf (s : State) (rtype : Nat) : List (List Nat) :=
  ((s.recordIdx.filter fun i => !(s.storeDamaged (journalBase + 64 * i) 64)).map s.recordAt).filter fun ws => decide (ws.getD 0 0 = rtype * 2 ^ 24) && recordValid ws

/-- Of some records the one with the highest RSEQ. -/
def newestRec : List (List Nat) → Option (List Nat)
  | [] => none
  | r :: rs => match newestRec rs with
    | none => some r
    | some b => if b.getD 1 0 < r.getD 1 0 then some r else some b

/-- The valid record of a type with the highest RSEQ (R421). -/
def State.newest (s : State) (rtype : Nat) : Option (List Nat) := newestRec (s.recordsOf rtype)

/-- Append a record. When the position begins a half, the newest slots, bank and counts records are first copied there
(R421). Nothing is written while the retained store is unpowered. -/
def journalAppend (s : State) (rtype : Nat) (payload : List Nat) : State :=
  if !(s.up 1) then s else
  let s := if s.img.recPos % 2048 = 0 ∧ s.img.rseq ≠ 1 then
      ([1, 2, 3].filterMap fun t => (s.newest t).map fun ws => (t, (ws.drop 2).take 13)).foldl
        (fun s p => putRecord s p.1 p.2) s
    else s
  putRecord s rtype payload

/-- Low and high word of a number. -/
def words2 (n : Nat) : List Nat := [n % 2 ^ 32, n / 2 ^ 32 % 2 ^ 32]

/-- The fault record (R421): FLT_STATUS, FLT_FIRST, TB_RTIME, orbit number. -/
def faultRecord (s : State) : State :=
  journalAppend s 4 (words2 s.flt.status.toNat ++ [(s.rd Reg.FLT_FIRST).toNat] ++ words2 s.rtime ++ words2 s.tb.orbit)

/-- The TX48 is in the safe state. -/
def State.safe (s : State) : Bool := s.flag Reg.FLT_SAFE_SAFE

/-! ### PWM outputs and comparator blanking (R289, R290) -/

def State.pwm (s : State) (m : Nat) : PwmX := smGet PwmX.idle s.cvl.pairs m

def State.setPwm (s : State) (m : Nat) (x : PwmX) : State :=
  { s with cvl := { s.cvl with pairs := smSet PwmX.idle s.cvl.pairs m x } }

/-- Group `g` is tripped. -/
def State.groupTripped (s : State) (g : Nat) : Bool :=
  s.cvl.latched.any (fun e => decide (e.2 = g)) || s.cvl.cycle.any fun e => decide (e.2 = g)

/-- The group of pair `m`, of cell `n`, if it belongs to one. -/
def State.pairGroup (s : State) (m : Nat) : Option Nat := if s.flag (Reg.CVL_PCFG_GEN m) then some (s.fld (Reg.CVL_PCFG_GRP m)) else none
def State.cellGroup (s : State) (n : Nat) : Option Nat := if s.flag (Reg.CVL_CCFG_GEN n) then some (s.fld (Reg.CVL_CCFG_GRP n)) else none

def State.pairTripped (s : State) (m : Nat) : Bool := match s.pairGroup m with | some g => s.groupTripped g | none => false
def State.cellTripped (s : State) (n : Nat) : Bool := match s.cellGroup n with | some g => s.groupTripped g | none => false

/-- The pairs that the image defines (R308). -/
def State.pairList (s : State) : List Nat := (List.range (s.fld Reg.CVL_CFG_NPAIR)).filter fun m =>
  decide (s.fld (Reg.CVL_PCFG_MODE m) = 1 ∨ s.fld (Reg.CVL_PCFG_MODE m) = 2)

/-- Pair `m` is at its safe levels (R290, R304, R306). -/
def State.pairForced (s : State) (m : Nat) : Bool :=
  let x := s.pwm m
  !x.run || x.forced || s.safe || s.pairTripped m

/-- Output A (`isA`) or B of pair `m`. -/
def State.pwmOut (s : State) (m : Nat) (isA : Bool) : Bool :=
  if s.pairForced m then s.flag (if isA then Reg.CVL_PCFG_SAFEA m else Reg.CVL_PCFG_SAFEB m)
  else if isA then (s.pwm m).a else (s.pwm m).b

/-- A comparator enters or restarts its blanking window for edges of pair `m`'s output A: `rose` the edge (R289). -/
def openBlanks (s : State) (m : Nat) (rose : Bool) : State :=
  (List.range 96).foldl (fun s k =>
    if s.fld (Reg.CVL_CMPBLK_BPAIR k) = m ∧ bit (s.fld (Reg.CVL_CMPBLK_BEDGE k)) (if rose then 0 else 1) = true ∧
        s.fld (Reg.CVL_CMPBLK_BLANK k) ≠ 0
    then { s with cvl := { s.cvl with blank := nsAdd s.cvl.blank k } } else s) s

/-- Apply `f`; an edge that it makes on output A of any of the pairs `ms` opens blanking windows (R289). -/
def withBlanks (ms : List Nat) (f : State → State) (s : State) : State :=
  let t := f s
  ms.foldl (fun t m =>
    let a := s.pwmOut m true
    let b := t.pwmOut m true
    if a = b then t else openBlanks t m b) t

/-! ### Mordant: latches, first source, safe state (R448 to R454) -/

/-- Entry into the safe state, or what a cause does that arrives in it (R453, R454). `cause` as FLT_SAFE.CAUSE. The PWM edges that it
makes open blanking windows (R289). Of several masked bits set in the cycle of the entry BIT takes the lowest. -/
def safeEnter (s : State) (cause fbit : Nat) : State :=
  if s.safe then
    let s := s.setFld Reg.FLT_SAFE_EXITPEND 0
    if s.cyc.safeNow && decide (cause = 1 ∧ s.fld Reg.FLT_SAFE_CAUSE = 1 ∧ fbit < s.fld Reg.FLT_SAFE_BIT) then s.setFld Reg.FLT_SAFE_BIT fbit else s
  else
    let s := withBlanks s.pairList (fun s => s.setFld Reg.FLT_SAFE_SAFE 1) s
    let s := s.setFld Reg.FLT_SAFE_EXITPEND 0
    let s := s.setFld Reg.FLT_SAFE_CAUSE cause
    let s := s.setFld Reg.FLT_SAFE_BIT (if cause = 1 then fbit else 0)
    faultRecord { s with flt := { s.flt with safeStart := s.cycle, exitOrbit := none }, cyc := { s.cyc with safeNow := true } }

/-- FLT_SAFEMASK bit `b`. -/
def State.safeMask (s : State) (b : Nat) : Bool :=
  if b < 32 then bit (s.rd Reg.FLT_SAFEMASK_LO).toNat b else bit (s.rd Reg.FLT_SAFEMASK_HI).toNat (b - 32)

/-- The first-source latch for newly set bit `b` (R450, R451). -/
def firstSource (s : State) (b : Nat) : State :=
  if s.flag Reg.FLT_FIRST_VALID then
    let s := s.setFld Reg.FLT_FIRST_OVF 1
    if s.cyc.firstNow && decide (b < s.fld Reg.FLT_FIRST_INDEX) then s.setFld Reg.FLT_FIRST_INDEX b else s
  else
    let s := s.setFld Reg.FLT_FIRST_VALID 1
    let s := s.setFld Reg.FLT_FIRST_INDEX b
    let s := s.setFld Reg.FLT_FIRSTX_ORBIT_L s.tb.orbit
    let s := s.setFld Reg.FLT_FIRSTX_SLOT s.tb.slot
    let s := s.setFld Reg.FLT_FIRSTT_LO_TIME_L s.rtime
    faultRecord { s with flt := { s.flt with firstT := s.rtime / 2 ^ 32 }, cyc := { s.cyc with firstNow := true } }

/-- An uncorrectable ECC error was met somewhere (R333, source 0x1D1). -/
def countUncorr (s : State) : State := countSrc s 0x1D1

/-- A block met an uncorrectable word: `f` its count. -/
def uncorrected (s : State) (f : Fld) : State := countUncorr (s.count f 1)

/-- What error line `b` does to Mordant in a cycle in which it is 1: its FLT_STATUS bit is set, the first source latched when the bit is newly set, and
the safe state entered when the mask says so (R449, R450, R453). After a collector self-fault nothing is latched (R452). -/
def latchLine (s : State) (b : Nat) : State :=
  if !(s.up 2) || s.flag Reg.FLT_SAFE_SELF then s else
  let s := { s with cyc := { s.cyc with lines := s.cyc.lines ||| BitVec.twoPow 64 b } }
  let newly := !s.flt.status.getLsbD b && !s.cyc.fltPrev.getLsbD b
  let s := occurDev (withDev (256 + b)
    (fun s => { s with flt := { s.flt with status := s.flt.status ||| BitVec.twoPow 64 b } }) s) (256 + b)
  let s := if newly then firstSource s b else s
  if s.safeMask b then safeEnter s 1 b else s

/-- Source `n` occurs and the router reads IRQ_TGT[n]: a damaged one is an uncorrectable error of IRQ, which raises line 19 (R392);
the word of that line's own source is read with it. -/
def tgtUse (s : State) (n : Nat) : State :=
  let met (s : State) (n : Nat) : State :=
    if s.ecc.contains (Reg.IRQ_TGT n) then (uncorrected s Reg.IRQ_ECCCNT_UNCORR).event Reg.IRQ_STAT_ECCU else s
  if s.ecc.contains (Reg.IRQ_TGT n) then latchLine (if n = 275 then met s n else met (met s n) 275) 19 else s

/-- Error line `b` is 1 in this cycle: what Mordant does with it, and the source 256 + b of the router (R383, R449). -/
def raiseLine (s : State) (b : Nat) : State := latchLine (tgtUse s (256 + b)) b

/-- The router takes an occurrence of device source `n` (R383, R384). -/
def routeDev (s : State) (n : Nat) : State := occurDev (tgtUse s n) n

/-- The producer of source `n` sets a status bit: the bit's event, the occurrence, the level's edge. -/
def devEvent (s : State) (n : Nat) (f : Fld) : State := routeDev (withDev n (fun s => s.event f) s) n

/-- Raise a line when a condition holds. -/
def raiseIf (s : State) (c : Bool) (b : Nat) : State := if c then raiseLine s b else s

/-- The on-die temperature exceeds FLT_TLIM.HI (R459). -/
def State.tempHigh (s : State) : Bool := decide (sext 16 (s.fld Reg.FLT_TLIM_HI) < s.flt.temp)

/-- Line `b` reports a condition that lasts (R483). -/
def State.lasting (s : State) (b : Nat) : Bool :=
  if b = 1 then s.flag Reg.TB_STAT_STRAPERR
  else if b = 2 then s.flag Reg.REL_STAT_FAST
  else if b = 52 then decide (s.flt.supplyOut ≠ [])
  else if b = 53 then s.tempHigh
  else if b = 54 then decide (s.fld Reg.TB_STAT_STATE = 3) || s.flt.refclkBad
  else false

/-- The lines whose condition lasts. -/
def State.lastingLines (s : State) : List Nat := [1, 2, 52, 53, 54].filter s.lasting

/-- The lines whose condition lasts are 1 in this cycle too: each sets its bit, an occurrence of its source (R383, R449, R483). -/
def relatch (s : State) : State := s.lastingLines.foldl raiseLine s

/-- `n` words were corrected; `f` is the block's count of corrections (R333, source 0x1D0). -/
def corrected (s : State) (f : Fld) (n : Nat) : State := if n = 0 then s else countSrc (s.count f n) 0x1D0

/-- The domain of a block and its count of corrections. -/
def eccPlace : EccUnit → Nat × Fld
  | .qm => (80, Reg.QM_ECCCNT_CORR)
  | .dram c => (81 + c, Reg.MEM_ECCCNT_CORR c)
  | .cvl => (92, Reg.CVL_ECCCNT_CORR)
  | .vox => (92, Reg.VOX_ECCCNT_CORR)
  | .irq => (90, Reg.IRQ_ECCCNT_CORR)

/-- The words that ECC corrects as a command goes on, by block: each counts where its chapter says, in a block that has power. -/
def fixWords (s : State) (fix : List (EccUnit × Nat)) : State :=
  fix.foldl (fun s e => if s.up (eccPlace e.1).1 then corrected s (eccPlace e.1).2 e.2 else s) s

/-- The error completion (R446): counted and flagged. -/
def errorCompletion (s : State) : State := (s.count Reg.RST_ISOCNT_COUNT 1).event Reg.RST_STAT_ISOERR

/-- A register word from fields: high bit, low bit, value. -/
def bitsWord (fs : List (Nat × Nat × Nat)) : Word := fs.foldl (fun w f => wSetField w f.1 f.2.1 f.2.2) 0

end Sys2Proof.Machine
end

