-- ==== Sys2Proof/Machine/Flt.lean ====
section
/-! DEFINITION. Mordant (R448 to R456, R459, R462, R463, R483): clearing the fault word, the first source, safe-state
commands, the environment monitors and the watchdog. -/
namespace Sys2Proof.Machine

/-- A W1C write of one half of FLT_STATUS: bits whose line is 1 in this cycle stay set (R9, R449, R483). After a collector
self-fault the word stands as it is (R452). -/
def fltClear (s : State) (hi : Bool) (m : Word) : State :=
  if s.flag Reg.FLT_SAFE_SELF then s else
  let base := if hi then 32 else 0
  ((List.range 32).filter fun i => m.getLsbD i && s.flt.status.getLsbD (base + i)).foldl (fun s i =>
    let b := base + i
    if s.cyc.lines.getLsbD b || s.lasting b then s
    else withDev (256 + b)
      (fun s => { s with flt := { s.flt with status := s.flt.status &&& ~~~(BitVec.twoPow 64 b) } }) s) s

/-- A read of FLT_STATUS_LO latches FLT_STATUS_HI (R449). -/
def fltReadLo (s : State) : Word × State :=
  (BitVec.ofNat 32 s.flt.status.toNat, s.wr Reg.FLT_STATUS_HI (BitVec.ofNat 32 (s.flt.status.toNat / 2 ^ 32)))

/-- A read of FLT_FIRSTT_LO latches FLT_FIRSTT_HI (R466). -/
def fltReadTime (s : State) : Word × State :=
  (s.rd Reg.FLT_FIRSTT_LO, s.wr Reg.FLT_FIRSTT_HI (BitVec.ofNat 32 s.flt.firstT))

/-- FCLR (R451): bits newly set in this very cycle latch as the new first source, and stay it where they have latched already. -/
def firstClear (s : State) : State :=
  let newly := s.cyc.lines &&& ~~~s.cyc.fltPrev &&& s.flt.status
  if s.flag Reg.FLT_SAFE_SELF || (s.cyc.firstNow && decide (newly ≠ 0)) then s else
  let s := (s.setFld Reg.FLT_FIRST_VALID 0).setFld Reg.FLT_FIRST_OVF 0
  ((List.range 64).filter fun b => newly.getLsbD b).foldl firstSource s

/-- A collector self-fault (R452, R453); one that enters the safe state appends the one record of that entry (R454). -/
def selfFault (s : State) : State :=
  if !(s.up 2) then s else
  let s := if s.safe then faultRecord (s.setFld Reg.FLT_SAFE_EXITPEND 0) else safeEnter s 2 0
  (s.setFld Reg.FLT_SAFE_SELF 1).setFld Reg.FLT_SAFE_CAUSE 2

/-- A write of FLT_CTL with ENTER (R453). -/
def safeEnterCmd (s : State) (code : Nat) (exitToo : Bool) : State :=
  if code = 0xA5C3 then
    let s := safeEnter s 3 0
    if exitToo then s.event Reg.FLT_SAFE_CMDERR else s
  else s.event Reg.FLT_SAFE_CMDERR

/-- The safe state ends (R455). `first` is the first crossing of the orbit that the boundary begins, none when the exit takes place at
once. -/
def safeExit (s : State) (first : Option Nat) : State :=
  let s := (s.setFld Reg.FLT_SAFE_SAFE 0).setFld Reg.FLT_SAFE_EXITPEND 0
  { s with flt := { s.flt with exitOrbit := first } }

/-- (FLT_STATUS AND FLT_SAFEMASK) is not 0. -/
def State.maskedPending (s : State) : Bool :=
  decide (s.flt.status.toNat &&& ((s.rd Reg.FLT_SAFEMASK_LO).toNat + 2 ^ 32 * (s.rd Reg.FLT_SAFEMASK_HI).toNat) ≠ 0)

/-- A write of FLT_CTL with EXIT (R455). -/
def safeExitCmd (s : State) (code : Nat) : State :=
  if code = 0xA5C3 ∧ s.safe = true ∧ s.flag Reg.FLT_SAFE_SELF = false ∧ s.maskedPending = false then
    if s.fld Reg.TB_STAT_STATE < 2 then safeExit s none else s.setFld Reg.FLT_SAFE_EXITPEND 1
  else s.event Reg.FLT_SAFE_CMDERR

/-- A write of FLT_CTL: FCLR needs no CODE; ENTER with EXIT acts as ENTER alone (R453, R455, R466). -/
def fltCtlWrite (s : State) (v : Word) : State :=
  let code := wField v 31 16
  let s := if v.getLsbD 2 then firstClear s else s
  if v.getLsbD 0 then safeEnterCmd s code (v.getLsbD 1)
  else if v.getLsbD 1 then safeExitCmd s code else s

/-! ### Environment monitors (R459) -/

/-- Monitored supply `rail` has been out of range for 1 us. -/
def supplyExcursion (s : State) (rail : Nat) : State :=
  if !(s.up 2) then s else
  raiseLine { s with flt := { s.flt with supplyOut := nsAdd s.flt.supplyOut rail } } 52

/-- The sensor gives temperature `t`; above the limit, line 53 is held (R459, R483). -/
def setTemp (s : State) (t : Int) : State :=
  let s := { s with flt := { s.flt with temp := t } }
  raiseIf s s.tempHigh 53

/-- REFCLK deviates by more than 500 ppm for 10 us. -/
def refclkDeviation (s : State) : State :=
  if !(s.up 2) then s else raiseLine { s with flt := { s.flt with refclkBad := true } } 54

/-! ### The watchdog (R462, R463) -/

/-- The stage length in ms: TIMEOUT, 0 acts as 1 (R466). -/
def State.wdTimeout (s : State) : Nat :=
  if s.fld Reg.FLT_WDCFG_TIMEOUT = 0 then 1 else s.fld Reg.FLT_WDCFG_TIMEOUT

/-- A stage begins now. -/
def wdStage (s : State) (stage : Nat) : State :=
  ({ s with flt := { s.flt with wdStart := s.cycle } }).setFld Reg.FLT_WDSTAT_STAGE stage

/-- A write of FLT_WDCFG: EN is set-only, TIMEOUT is fixed while EN is 1 (R462). -/
def wdCfgWrite (s : State) (v : Word) : State :=
  if s.flag Reg.FLT_WDCFG_EN then s
  else
    let s := s.setFld Reg.FLT_WDCFG_TIMEOUT (wField v 15 0)
    if v.getLsbD 31 then wdStage (s.setFld Reg.FLT_WDCFG_EN 1) 0 else s

/-- Whole ms left in the stage (R466). -/
def State.wdLeft (s : State) : Nat :=
  if s.flag Reg.FLT_WDCFG_EN then s.wdTimeout - (s.cycle - s.flt.wdStart) / 100000 else 0

end Sys2Proof.Machine
end

