-- ==== Sys2Proof/Machine/Lnk.lean ====
section
/-! DEFINITION. The lane array (R68 to R90): clock groups, lane states and bring-up, tap sets, adaptation, eye monitor, test
mode, DisplayPort drive. What MDR does with a loss of lock is in Mdr.lean. -/
namespace Sys2Proof.Machine

def State.lane (s : State) (n : Nat) : LaneX := smGet LaneX.idle s.lnk.lanes n

def State.setLane (s : State) (n : Nat) (x : LaneX) : State :=
  { s with lnk := { s.lnk with lanes := smSet LaneX.idle s.lnk.lanes n x } }

/-- Lane n is powered (PD05 to PD52). -/
def State.laneUp (s : State) (n : Nat) : Bool := s.up (5 + n)

/-- LNK_STAT.STATE. -/
def State.lnkState (s : State) (n : Nat) : Nat := s.fld (Reg.LNK_STAT_STATE n)

def State.lnkMode (s : State) (n : Nat) : Nat := s.fld (Reg.LNK_CFG_MODE n)

/-- The lane is in Madder mode. -/
def State.madder (s : State) (n : Nat) : Bool := decide (s.lnkMode n = 1)

/-- The lane is a DisplayPort lane (R87). -/
def State.dpLane (s : State) (n : Nat) : Bool := decide (s.lnkMode n = 2 ∧ 46 ≤ n)

/-- The lane's nets carry functional data: it is powered and no AC EXTEST runs on it (R86). -/
def State.lineUp (s : State) (n : Nat) : Bool := s.laneUp n && !(s.lane n).extest

def lnkTo (s : State) (n st : Nat) : State := s.setFld (Reg.LNK_STAT_STATE n) st

/-- The eye monitor reads 0 outside READY (R83). -/
def eyeOff (s : State) (n : Nat) : State := s.wr (Reg.LNK_EYE n) 0

/-- The lane group's error line (R76, R78). -/
def laneLine (s : State) (n : Nat) : State := raiseLine s (22 + n / 4)

/-- Bring-up starts: the PLL at 10.3125 Gb/s, STATE CAL (R74). A display lane passes through CAL too (log 22). -/
def laneBringUp (s : State) (n : Nat) : State :=
  if !(s.madder n || s.dpLane n) then s
  else
    let s := (eyeOff s n).setLane n { s.lane n with pllBusy := true, calFails := 0 }
    (lnkTo s n 1).setFld (Reg.LNK_STAT_RATE n) (if s.dpLane n then 6 + s.fld (Reg.LNK_DP_RATE n) else 1)

/-- The PLL locks (R74). A display lane is then in DP (R87); where LNK_DP.RATE has been changed since the bring-up began, the change takes
effect only after a re-lock of its own (R88). -/
def pllLock (s : State) (n : Nat) : State :=
  if s.laneUp n && (s.lane n).pllBusy && !(s.lnk.grpFault.contains (n / 12)) then
    if s.dpLane n && decide (s.lnkState n = 1) then
      lnkTo (s.setLane n { s.lane n with pllBusy := decide (s.fld (Reg.LNK_STAT_RATE n) ≠ 6 + s.fld (Reg.LNK_DP_RATE n)) }) n 6
    else s.setLane n { s.lane n with pllBusy := false }
  else s

/-- The PLL has not locked within 2,000 cycles; it retries (R78). -/
def pllTimeout (s : State) (n : Nat) : State :=
  if s.laneUp n && (s.lane n).pllBusy then laneLine (s.event (Reg.LNK_STAT_PLLERR n)) n else s

/-- Calibration ends: IDLE, with taps C0 = 127 and all others 0 (R74). -/
def calDone (s : State) (n : Nat) : State :=
  if s.laneUp n && s.madder n && decide (s.lnkState n = 1) && !(s.lane n).pllBusy then
    lnkTo (s.setLane n { s.lane n with calFails := 0 }) n 2
  else s

/-- Calibration fails; the third time in a row puts the lane into FAULT (R78). -/
def calFail (s : State) (n : Nat) : State :=
  if s.laneUp n && s.madder n && decide (s.lnkState n = 1) && !(s.lane n).pllBusy then
    let k := (s.lane n).calFails + 1
    let s := s.setLane n { s.lane n with calFails := k }
    if 3 ≤ k then laneLine ((lnkTo s n 7).event (Reg.LNK_STAT_CALERR n)) n else s
  else s

/-- Signal detect. -/
def signalDetect (s : State) (n : Nat) : State :=
  if s.laneUp n && s.madder n then
    let s := s.setFld (Reg.LNK_STAT_SIGDET n) 1
    if s.lnkState n = 2 then lnkTo s n 3 else s
  else s

/-- A rate change to rate code `r` (R75): the PLL re-locks and the lane enters ACQ. A loss of the same cycle comes first (R77, log 1). -/
def lnkRate (s : State) (n r : Nat) : State :=
  if s.laneUp n && s.madder n && decide (s.lnkState n ∈ [2, 3, 4]) then
    let s := (eyeOff s n).setLane n { s.lane n with pllBusy := true }
    (lnkTo s n 3).setFld (Reg.LNK_STAT_RATE n) r
  else s

/-- A loss counts in READY (R76). -/
def State.lossCounts (s : State) (n : Nat) : Bool := s.laneUp n && s.madder n && decide (s.lnkState n = 4)

/-- The flag, the return to ACQ at the current rate, and the error line (R76). -/
def lnkLoss (s : State) (n : Nat) (f : Fld) (sig : Bool) : State :=
  let s := lnkTo (eyeOff (s.event f) n) n 3
  let s := if sig then s.setFld (Reg.LNK_STAT_SIGDET n) 0 else s
  if s.flag (Reg.LNK_CTL_LOSERR n) then laneLine s n else s

/-! ### Clock groups (R71, R72) -/

/-- The lanes of a group. -/
def groupLanes (g : Nat) : List Nat := rangeFrom (12 * g) 12

/-- A lane of a faulted group moves to CAL; a lane in FAULT stays there (R78), an unused lane stays OFF. -/
def laneToCal (s : State) (n : Nat) : State :=
  if s.laneUp n && (s.madder n || s.dpLane n) && !(decide (s.lnkState n = 7)) then
    (lnkTo (eyeOff s n) n 1).setLane n { s.lane n with pllBusy := true, calFails := 0 }
  else s

/-- What a group clock fault does to the lane array (R72, R78). -/
def groupFault (s : State) (g : Nat) : State :=
  let s := { s with lnk := { s.lnk with grpFault := nsAdd s.lnk.grpFault g } }
  let s := s.event (Reg.LNK_GRPSTAT_FAULT g)
  let s := (groupLanes g).foldl (fun s n => laneToCal (s.event (Reg.LNK_STAT_PLLERR n)) n) s
  [0, 1, 2].foldl (fun s i => raiseLine s (22 + 3 * g + i)) s

/-- The deviation of group `g`. -/
def State.groupPpm (s : State) (g : Nat) : Int := sext 16 (s.fld (Reg.LNK_GRPSTAT_PPM g))

/-- A comparison of LREFCLKg with REFCLK (R71). -/
def groupMeasure (s : State) (g : Nat) (ppm : Int) : State :=
  (s.setFld (Reg.LNK_GRPSTAT_PRESENT g) 1).setFld (Reg.LNK_GRPSTAT_PPM g) (wrapN 16 ppm)

/-- The measured deviation lies beyond 200 ppm. -/
def ppmBad (ppm : Int) : Bool := decide (ppm < -200 ∨ 200 < ppm)

/-- 100 us within limits: the lanes of the group return through the bring-up sequence. -/
def groupRecover (s : State) (g : Nat) : State :=
  if s.lnk.grpFault.contains g && s.flag (Reg.LNK_GRPSTAT_PRESENT g) && !(ppmBad (s.groupPpm g)) then
    let s := { s with lnk := { s.lnk with grpFault := nsDel s.lnk.grpFault g } }
    (groupLanes g).foldl (fun s n => if s.laneUp n && decide (s.lnkState n = 1) then laneBringUp s n else s) s
  else s

/-! ### Tap sets (R80, R81) -/

/-- A tap as a signed number. -/
def tap (w : Word) (hi lo : Nat) : Int := sext 8 (wField w hi lo)

/-- R80. -/
def tapsValid (pre main : Word) : Bool :=
  decide ((tap pre 23 16).natAbs + (tap pre 15 8).natAbs + (tap pre 7 0).natAbs + (tap main 7 0).natAbs
    + (tap main 15 8).natAbs ≤ 127 ∧ 64 ≤ tap main 7 0)

/-- SWING is clamped to 0x50 to 0xF0 (R89). -/
def clampSwing (main : Word) : Word :=
  wSetField main 31 24 (min (max (wField main 31 24) 0x50) 0xF0)

/-- A write of LNK_TXMAIN: the combined set waits for a frame boundary in READY, applies at once elsewhere, and is refused
when invalid (R81). -/
def txMainWrite (s : State) (n : Nat) (v : Word) : State :=
  let main := clampSwing (v &&& BitVec.ofNat 32 RegTab.row_LNK_TXMAIN.rw)
  let s := s.wr (Reg.LNK_TXMAIN n) main
  let pre := s.rd (Reg.LNK_TXPRE n)
  if !(tapsValid pre main) then raiseLine (s.event (Reg.LNK_STAT_FFEERR n)) 3
  else if s.lnkState n = 4 then s.setLane n { s.lane n with next := some (pre, main) }
  else s.setLane n { s.lane n with pre := pre, main := main, next := none }

/-- A write of LNK_TXPRE is held. -/
def txPreWrite (s : State) (n : Nat) (v : Word) : State :=
  s.wr (Reg.LNK_TXPRE n) (v &&& BitVec.ofNat 32 RegTab.row_LNK_TXPRE.rw)

/-- A crossing-frame boundary of the lane. A set that waits when the lane leaves READY goes on waiting for the boundary, about which R81
says nothing (DESIGN CHOICE, log 45). -/
def tapApply (s : State) (n : Nat) : State :=
  match (s.lane n).next with
  | some (pre, main) => s.setLane n { s.lane n with pre := pre, main := main, next := none }
  | none => s

/-- The taps on the transmitter: C0 = 127 alone at 10.3125 Gb/s, else the set in use (R74, R75). R74 and R75 speak of the taps alone; that
SWING has its reset value 0xA0 there is a DESIGN CHOICE (log 45). -/
def State.txTaps (s : State) (n : Nat) : Word × Word :=
  if s.fld (Reg.LNK_STAT_RATE n) ≤ 1 then (0, 0xA000007F) else ((s.lane n).pre, (s.lane n).main)

/-! ### Receive side (R82, R83) -/

/-- A write of LNK_RXEQ: CTLE_M above 20 stores 20; in mode 0b10 CTLE and VGA follow it (R82). -/
def rxeqWrite (s : State) (n : Nat) (v : Word) : State :=
  let v := wSetField v 4 0 (min (wField v 4 0) 20)
  let s := s.wr (Reg.LNK_RXEQ n) (v &&& BitVec.ofNat 32 RegTab.row_LNK_RXEQ.rw)
  if s.fld (Reg.LNK_RXEQ_ADAPT n) = 2 then
    (s.setFld (Reg.LNK_RXSTAT_CTLE n) (s.fld (Reg.LNK_RXEQ_CTLE_M n))).setFld (Reg.LNK_RXSTAT_VGA n)
      (s.fld (Reg.LNK_RXEQ_VGA_M n))
  else s

/-- The values that adaptation arrives at, as far as the mode lets them be adapted: `ctle`, `vga` and twelve DFE taps. -/
def adapted (s : State) (n ctle vga : Nat) (dfe : List Nat) : State :=
  let m := s.fld (Reg.LNK_RXEQ_ADAPT n)
  let s := if m = 0 then (s.setFld (Reg.LNK_RXSTAT_CTLE n) (min ctle 20)).setFld (Reg.LNK_RXSTAT_VGA n) vga else s
  if m = 0 ∨ m = 2 then
    let w (i : Nat) : Word := BitVec.ofNat 32 (leNat ((dfe.drop (4 * i)).take 4 ++ [0, 0, 0, 0]))
    ((s.wr (Reg.LNK_DFE0 n) (w 0)).wr (Reg.LNK_DFE1 n) (w 1)).wr (Reg.LNK_DFE2 n) (w 2)
  else s

/-- What a loss of signal does outside READY, where R76 does not judge it: SIGDET no longer shows a signal (R89). -/
def signalGone (s : State) (n : Nat) : State :=
  if s.laneUp n && s.madder n then s.setFld (Reg.LNK_STAT_SIGDET n) 0 else s

/-- In READY the values that the mode lets be adapted move on continuously (R82): `adapted`, at the times that EYE_UPDATE gives. -/
def adaptStep (s : State) (n ctle vga : Nat) (dfe : List Nat) : State :=
  if s.laneUp n && decide (s.lnkState n = 4) then adapted s n ctle vga dfe else s

/-- The CDR may lock: the PLL has locked and the lane acquires. -/
def State.canLock (s : State) (n : Nat) : Bool :=
  s.laneUp n && s.madder n && decide (s.lnkState n = 3) && !(s.lane n).pllBusy

/-- Initial adaptation, restarted in READY, is done: READAPT clears (R82). -/
def readaptDone (s : State) (n ctle vga : Nat) (dfe : List Nat) : State :=
  if s.laneUp n && decide (s.lnkState n = 4) && s.flag (Reg.LNK_CTL_READAPT n)
  then (adapted s n ctle vga dfe).setFld (Reg.LNK_CTL_READAPT n) 0 else s

/-- A write of LNK_CTL: READAPT is set-only and acts in READY (R82). -/
def lnkCtlWrite (s : State) (n : Nat) (v : Word) : State :=
  let s := (s.setFlag (Reg.LNK_CTL_TXSQ n) (v.getLsbD 0)).setFlag (Reg.LNK_CTL_LOSERR n) (v.getLsbD 1)
  if v.getLsbD 2 && s.laneUp n && decide (s.lnkState n = 4) then s.setFld (Reg.LNK_CTL_READAPT n) 1 else s

/-- The eye monitor's values (R83). -/
def eyeUpdate (s : State) (n h w eye snr : Nat) : State :=
  if s.laneUp n && decide (s.lnkState n = 4) then
    (((s.setFld (Reg.LNK_EYE_HEIGHT n) h).setFld (Reg.LNK_EYE_WIDTH n) w).setFld (Reg.LNK_EYE_EYE n) eye).setFld
      (Reg.LNK_EYE_SNR n) snr
  else s

/-! ### Test mode (R84, R85) -/

/-- LOOP, GEN or CHK is set; LOOP 0b11 is none (R89). -/
def testSet (v : Word) : Bool :=
  v.getLsbD 5 || v.getLsbD 4 || decide (wField v 7 6 = 1) || decide (wField v 7 6 = 2)

/-- The test rate: 0, 6 and 7 act as 1. -/
def testRate (v : Word) : Nat :=
  let r := wField v 10 8
  if r = 0 ∨ 6 ≤ r then 1 else r

/-- A write of LNK_TEST as far as LNK acts (R84); DisplayPort lanes discard it. MDR's part is in Mdr.lean. What R84 and R85 leave open is a
DESIGN CHOICE (log 45): LNK_STAT.RATE takes the test rate at once and the return to IDLE ends any locking of the PLL; switching the checker
off (CHK = 0) clears SYNC. -/
def testWrite (s : State) (n : Nat) (v : Word) : State :=
  if s.lnkMode n = 2 then s else
  let s := s.wr (Reg.LNK_TEST n) (v &&& BitVec.ofNat 32 RegTab.row_LNK_TEST.rw)
  let s := if v.getLsbD 4 then s else s.setFld (Reg.LNK_PRBSCNT_SYNC n) 0
  if !(s.laneUp n && s.madder n) || decide (s.lnkState n = 0) || decide (s.lnkState n = 7) then s
  else if testSet v then (lnkTo (eyeOff s n) n 5).setFld (Reg.LNK_STAT_RATE n) (testRate v)
  else if s.lnkState n = 5 then
    ((lnkTo s n 2).setFld (Reg.LNK_STAT_RATE n) 1).setLane n { s.lane n with restart := true, pllBusy := false }
  else s

/-- The checker locks to the pattern or loses it; `errs` wrong bits were counted while SYNC was 1 (R85). -/
def checkerSync (s : State) (n : Nat) (sync : Bool) (errs : Nat) : State :=
  if s.laneUp n && decide (s.lnkState n = 5) && s.flag (Reg.LNK_TEST_CHK n) then
    let s := if s.flag (Reg.LNK_PRBSCNT_SYNC n) then s.count (Reg.LNK_PRBSCNT_ERR n) errs else s
    s.setFlag (Reg.LNK_PRBSCNT_SYNC n) sync
  else s

/-! ### DisplayPort (R87, R88) -/

/-- A write of LNK_DP by the master, discarded while SRV's link training runs; lanes 0 to 45 have no such register. -/
def dpWrite (s : State) (n : Nat) (v : Word) : State :=
  if n < 46 then s
  else
    let old := s.fld (Reg.LNK_DP_RATE n)
    let s := s.wr (Reg.LNK_DP n) (v &&& BitVec.ofNat 32 RegTab.row_LNK_DP.rw)
    if s.fld (Reg.LNK_DP_RATE n) ≠ old ∧ s.dpLane n = true ∧ s.lnkState n = 6
    then s.setLane n { s.lane n with pllBusy := true } else s

/-- The pre-emphasis in use (R88). -/
def State.dpPreemph (s : State) (n : Nat) : Nat := min (s.fld (Reg.LNK_DP_PREEMPH n)) (3 - s.fld (Reg.LNK_DP_SWING n))

/-- The re-lock after a change of RATE ends: the change takes effect. -/
def dpRelock (s : State) (n : Nat) : State :=
  if s.laneUp n && s.dpLane n && decide (s.lnkState n = 6) && (s.lane n).pllBusy then
    (s.setLane n { s.lane n with pllBusy := false }).setFld (Reg.LNK_STAT_RATE n) (6 + s.fld (Reg.LNK_DP_RATE n))
  else s

/-! ### The transmitter and the receiver (R75, R84 to R89) -/

/-- What a lane's transmitter drives. -/
inductive TxDrive where
  /-- electrical idle -/
  | idle
  /-- the boundary-scan levels of an AC EXTEST (R86) -/
  | boundary
  /-- the generator's pattern, coded as LNK_TEST.PAT (R84, R85) -/
  | pattern (p : Nat)
  /-- far-end loopback: the received symbols (R84) -/
  | received
  /-- MDR's data -/
  | mdr
  /-- SRV's symbols (R87) -/
  | symbols
  /-- a DisplayPort training pattern, coded as LNK_DP.PAT (R89) -/
  | training (p : Nat)
deriving DecidableEq, Repr

/-- The pattern of generator and checker: at NRZ rates the PAM4 patterns act as their NRZ counterparts (R85); 8 to 15 act as 3 (R89). -/
def State.testPat (s : State) (n : Nat) : Nat :=
  let p := s.fld (Reg.LNK_TEST_PAT n)
  if 8 ≤ p ∨ (5 ≤ p ∧ p ≤ 6 ∧ s.fld (Reg.LNK_STAT_RATE n) ≤ 2) then 3
  else if p = 4 ∧ s.fld (Reg.LNK_STAT_RATE n) ≤ 2 then 2
  else p

/-- What the transmitter of lane `n` drives: electrical idle unpowered, under TXSQ, while the PLL locks, and on a display lane without TXEN;
in TEST the generator's pattern, else the received symbols in far-end loopback, else MDR's data. With both GEN and far-end loopback set the
generator goes out, about which R84 says nothing (DESIGN CHOICE, log 45). -/
def State.txDrives (s : State) (n : Nat) : TxDrive :=
  let st := s.lnkState n
  if !(s.laneUp n) then .idle
  else if (s.lane n).extest then .boundary
  else if s.flag (Reg.LNK_CTL_TXSQ n) || (s.lane n).pllBusy then .idle
  else if st = 6 then
    if !(s.flag (Reg.LNK_DP_TXEN n)) then .idle
    else if s.fld (Reg.LNK_DP_PAT n) = 0 ∨ 6 ≤ s.fld (Reg.LNK_DP_PAT n) then .symbols else .training (s.fld (Reg.LNK_DP_PAT n))
  else if st = 5 then
    if s.flag (Reg.LNK_TEST_GEN n) then .pattern (s.testPat n)
    else if s.fld (Reg.LNK_TEST_LOOP n) = 2 then .received else .mdr
  else if st = 2 ∨ st = 3 ∨ st = 4 then .mdr
  else .idle

/-- The receiver of lane `n` takes the lane's own transmitter (near-end loopback, R84); else the partner. -/
def State.loopsBack (s : State) (n : Nat) : Bool := decide (s.lnkState n = 5 ∧ s.fld (Reg.LNK_TEST_LOOP n) = 1)

/-- Of the flits that MDR sends on lane `n`, those that reach the line. -/
def State.onLine (s : State) (n : Nat) (fs : List (BitVec 256)) : List (BitVec 256) := if s.txDrives n = .mdr then fs else []

/-- What domain PD(05 + n) loses with its reset (R73, R79): STATE reads OFF. -/
def laneReset (s : State) (n : Nat) : State :=
  let s := s.setLane n LaneX.idle
  ((s.setFld (Reg.LNK_STAT_STATE n) 0).setFld (Reg.LNK_STAT_RATE n) 0).setFld (Reg.LNK_STAT_SIGDET n) 0

end Sys2Proof.Machine
end

