-- ==== Sys2Proof/Machine/Mdr.lean ====
section
/-! DEFINITION. Madder negotiation, keys, fast commands and link state (R91 to R111, R117 to R122). Frames meet the ingress
and the decision unit in Link.lean; the control channel is in Cc.lean. -/
namespace Sys2Proof.Machine

def State.mlane (s : State) (n : Nat) : MdrX := smGet MdrX.idle s.mdr.lanes n

def State.setMlane (s : State) (n : Nat) (x : MdrX) : State :=
  { s with mdr := { s.mdr with lanes := smSet MdrX.idle s.mdr.lanes n x } }

/-- MDR_LSTAT.LSTATE (R122). -/
def State.lstate (s : State) (n : Nat) : Nat := s.fld (Reg.MDR_LSTAT_LSTATE n)

def mdrTo (s : State) (n st : Nat) : State := s.setFld (Reg.MDR_LSTAT_LSTATE n) st

/-- MDR_LCFG.ROLE: 1 front end, 2 upward, 3 peer (R115). -/
def State.role (s : State) (n : Nat) : Nat := s.fld (Reg.MDR_LCFG_ROLE n)

/-- A next free value (log 24). -/
def State.fresh (s : State) : BitVec 64 × State := (Config.freeValue s.freeCtr, { s with freeCtr := s.freeCtr + 1 })

/-! ### Messages (R105) -/

/-- The bytes of words, each most significant byte first. -/
def beBytes (ws : List Nat) : List Nat :=
  (ws.map fun w => [w / 16777216 % 256, w / 65536 % 256, w / 256 % 256, w % 256]).flatten

/-- W15 after W0 to W14. -/
def sealMsg (ws : List Nat) : List Nat := ws ++ [crc32 (beBytes ws)]

/-- A received message is taken: 16 words, the CRC right, the constants of W0 (R105). -/
def msgOk (mtype : Nat) (ws : List Nat) : Bool :=
  decide (ws.length = 16) && decide (ws.getD 15 0 = crc32 (beBytes (ws.take 15)))
    && decide (ws.getD 0 0 / 2 ^ 16 = 0xC0DA) && decide (bitsOf (ws.getD 0 0) 15 8 = 1)
    && decide (bitsOf (ws.getD 0 0) 7 4 = mtype)

/-- The 64-bit number of words `i` (low) and `i + 1` (high). -/
def word64 (ws : List Nat) (i : Nat) : Nat := ws.getD i 0 + 2 ^ 32 * ws.getD (i + 1) 0

def ownId : Nat := Config.identity.toNat

/-- The TX48 is the source of lane `n` (chapter 4): on front-end lanes; on peer lanes when its identity is the lower. -/
def State.isSource (s : State) (n : Nat) : Bool :=
  decide (s.role n = 1) || (decide (s.role n = 3) && decide (ownId < (s.mlane n).partId))

/-- W0's role field (R105). -/
def State.roleCode (s : State) (n : Nat) : Nat :=
  if s.role n = 1 then 1 else if s.role n = 2 then 2 else 3

/-- W0 of a message. -/
def State.msgW0 (s : State) (n mtype : Nat) : Nat := 0xC0DA * 2 ^ 16 + 2 ^ 8 + mtype * 16 + s.roleCode n

/-- W0 to W14 of a HELLO (R105). -/
def State.helloWords (s : State) (n : Nat) : List Nat :=
  let x := s.mlane n
  [s.msgW0 n 1,
   255 * 2 ^ 24 + s.fld (Reg.MDR_LCFG_V2FEC n) * 2 ^ 17 + s.fld (Reg.LNK_CFG_RATES n) * 2 ^ 8 + s.fld (Reg.MDR_LCFG_VERS n),
   if s.isSource n then s.fld Reg.REL_CERTPER_T else 0,
   s.fld Reg.MDR_EPOCH_EPOCH] ++ words2 ownId ++ words2 x.ownNonce ++ words2 x.partNonce ++ [0, 0, 0, 0, n]

/-- W0 to W14 of a REJECT. -/
def State.rejectWords (s : State) (n reason : Nat) : List Nat :=
  [s.msgW0 n 4, reason, 0, 0] ++ words2 ownId ++ [0, 0, 0, 0, 0, 0, 0, 0, n]

/-- Flits are those of v1 at NRZ rates (R91, R94). -/
def State.flitVer (s : State) (n : Nat) : Nat := if s.fld (Reg.LNK_STAT_RATE n) ≤ 2 then 1 else 2

/-- The words of a negotiation message of a type as lane `n` receives its flits (R105). -/
def State.rxWords (s : State) (n mtype : Nat) (fs : List (BitVec 256)) : List Nat := readMsg (s.flitVer n) mtype fs

/-- The last negotiation message that left the lane, and its flits. -/
def sendNeg (s : State) (n : Nat) (ws : List Nat) : State :=
  let ws := sealMsg ws
  s.setMlane n { s.mlane n with sentNeg := some ws, wire := s.onLine n (msgFlits (s.flitVer n) (bitsOf (ws.getD 0 0) 7 4) ws) }

/-! ### Modes (R91, R98, R100, R106) -/

/-- Line rate in units of 0.00001 Gb/s (R68). -/
def rateFine : Nat → Nat
  | 1 => 1031250
  | 2 => 2578125
  | 3 => 5312500
  | 4 => 10625000
  | 5 => 11200000
  | _ => 0

/-- Line bits per flit period (R91). -/
def flitBits (ver : Nat) (fec : Bool) : Nat := if ver = 1 then 130 else if fec then 272 else 258

/-- K = floor(C x (1 - 0.0004) - 0.25), C the flit periods per slot of `t` ps (R100); 0 where that is negative. -/
def frameK (t ver rate : Nat) (fec : Bool) : Nat :=
  (4 * t * rateFine rate * 9996 - 1000000000000 * flitBits ver fec) / (4000000000000 * flitBits ver fec)

/-- D of R98. -/
def frameD (ver k : Nat) : Nat := if ver = 1 then 48 + 120 * (k - 1) - 32 else 128 + 248 * (k - 1) - 32

/-- The versions and rates in the order of R106. -/
def modeOrder : List (Nat × Nat) := [(3, 5), (3, 4), (2, 3), (1, 2), (1, 1)]

/-- The mode that the source chooses (R106): `w1` and `w2` are the partner's HELLO words, `t` the slot period. -/
def State.chooseMode (s : State) (n w1 t kmax : Nat) : Option Mode :=
  let x := s.mlane n
  let vers := bitsOf w1 2 0 &&& s.fld (Reg.MDR_LCFG_VERS n)
  let rates := bitsOf w1 12 8 &&& s.fld (Reg.LNK_CFG_RATES n)
  (modeOrder.filterMap fun (v, r) =>
    if bit vers (v - 1) && bit rates (r - 1) && !x.excluded.contains r then
      let fec := decide (v = 3) || (decide (v = 2) && bit w1 17 && s.flag (Reg.MDR_LCFG_V2FEC n))
      let k := frameK t v r fec
      if 2 ≤ k ∧ k ≤ kmax then some { ver := v, rate := r, fec := fec, k := k } else none
    else none).head?

/-- W1 and W2 of the COMMIT for a mode (R105). -/
def commitW (m : Mode) : Nat × Nat := (m.k * 2 ^ 24 + m.rate * 2 ^ 12 + b2n m.fec * 2 ^ 8 + m.ver, frameD m.ver m.k)

def State.commitWords (s : State) (n : Nat) (m : Mode) : List Nat :=
  [s.msgW0 n 3, (commitW m).1, (commitW m).2, 0] ++ words2 ownId ++ [0, 0, 0, 0, 0, 0, 0, 0, n]

/-! ### Keys (R110, R111) -/

/-- The KDF of R110: two iterations, 256 bits. -/
def kdf (key : BitVec 256) (label ctx : List Nat) : BitVec 256 :=
  cmac key ([1] ++ label ++ [0] ++ ctx ++ [1, 0]) ++ cmac key ([2] ++ label ++ [0] ++ ctx ++ [1, 0])

/-- The ASCII labels "MDR-LANE" and "MDR-SESS". -/
def labelLane : List Nat := [0x4D, 0x44, 0x52, 0x2D, 0x4C, 0x41, 0x4E, 0x45]
def labelSess : List Nat := [0x4D, 0x44, 0x52, 0x2D, 0x53, 0x45, 0x53, 0x53]

/-- The lane number on the source side (R110). -/
def State.sourceLane (s : State) (n : Nat) : Nat :=
  if s.isSource n then n else bitsOf ((s.mlane n).partHello.getD 14 0) 7 0

/-- Identity and nonce of the source and of the other side. -/
def State.idS (s : State) (n : Nat) : Nat := if s.isSource n then ownId else (s.mlane n).partId
def State.idF (s : State) (n : Nat) : Nat := if s.isSource n then (s.mlane n).partId else ownId
def State.nonceS (s : State) (n : Nat) : Nat := if s.isSource n then (s.mlane n).ownNonce else (s.mlane n).partNonce
def State.nonceF (s : State) (n : Nat) : Nat := if s.isSource n then (s.mlane n).partNonce else (s.mlane n).ownNonce

/-- The lane key KL. -/
def State.laneKey (s : State) (n : Nat) : BitVec 256 :=
  kdf Config.deviceKey labelLane
    (beNat (s.idS n) 8 ++ beNat (s.idF n) 8 ++ [s.sourceLane n] ++ beNat (s.fld Reg.MDR_EPOCH_EPOCH) 4)

/-- The session key of a direction: false downstream, true upstream. -/
def State.sessionKey (s : State) (n : Nat) (upstream : Bool) : BitVec 256 :=
  kdf (s.laneKey n) labelSess (beNat (s.nonceS n) 8 ++ beNat (s.nonceF n) 8 ++ [b2n upstream])

/-- The AAD of a PROOF: the source's last HELLO, then the other side's. -/
def State.proofAad (s : State) (n : Nat) : List Nat :=
  let x := s.mlane n
  if s.isSource n then beBytes x.ownHello ++ beBytes x.partHello else beBytes x.partHello ++ beBytes x.ownHello

/-- The tag of a PROOF whose sender drew `nonce` (R111). -/
def State.proofTag (s : State) (n nonce : Nat) : BitVec 64 :=
  if s.flag (Reg.MDR_LCFG_AUTH n) then
    gcmTag (s.laneKey n) (beNat nonce 8 ++ [0, 0, 0, 1]) (s.proofAad n)
  else 0

def State.proofWords (s : State) (n : Nat) : List Nat :=
  let tag := (s.proofTag n (s.mlane n).ownNonce).toNat
  [s.msgW0 n 2, tag / 2 ^ 32, tag % 2 ^ 32, s.fld Reg.MDR_EPOCH_EPOCH] ++ words2 ownId ++ [0, 0, 0, 0, 0, 0, 0, 0, n]

/-! ### Link state -/

/-- MDR_STAT.ANYQ. -/
def anyQ (s : State) : State :=
  s.setFlag Reg.MDR_STAT_ANYQ ((List.range 48).any fun n => decide (s.lstate n = 7))

/-- A negotiation starts: HELLO at 10.3125 Gb/s with a new nonce (R105, R107, R108). RENEG clears (R122). -/
def beginHello (s : State) (n : Nat) : State :=
  let nonce := (Config.nonce s.freeCtr).toNat
  let s := { s with freeCtr := s.freeCtr + 1 }
  let x := s.mlane n
  let s := s.setMlane n { x with ownNonce := nonce, partNonce := 0, ownHello := [], partHello := [], mode := none,
                                 committed := false, badRun := 0, goodRun := 0, lock := false, prevSlot := none }
  let s := (mdrTo s n 1).setFld (Reg.MDR_LSTAT_RXVALID n) 0
  let s := (s.setFld (Reg.MDR_LCTL_RENEG n) 0).count (Reg.MDR_NEGCNT_NEGS n) 1
  anyQ (if s.fld (Reg.LNK_STAT_RATE n) = 1 then s else lnkRate s n 1)

/-- Quarantine with a REJECT reason (R117 to R120). -/
def quarantine (s : State) (n reason : Nat) : State :=
  let s := s.setMlane n { s.mlane n with reason := reason }
  let s := (mdrTo s n 7).setFld (Reg.MDR_LSTAT_RXVALID n) 0
  let s := anyQ (devEvent s (320 + n) (Reg.MDR_LSTAT_QUAR n))
  if s.flag (Reg.MDR_LCTL_QRPT n) then raiseLine s 4 else s

/-- A lane that was in RUN goes down: it counts for flapping (R119). -/
def noteDown (s : State) (n : Nat) : State :=
  let x := s.mlane n
  let downs := s.cycle :: (x.downs.filter fun c => decide (s.cycle < c + 100000000))
  let s := s.setMlane n { x with downs := downs }
  if s.fld Reg.MDR_CFG_FLAPMAX < downs.length then
    quarantine (devEvent s (320 + n) (Reg.MDR_LSTAT_FLAP n)) n 4
  else s

/-- The link goes down (R109): LINKDN, VOID cells, WAIT until the next orbit boundary. -/
def linkDown (s : State) (n : Nat) : State :=
  if s.lstate n = 4 then
    let s := devEvent s (320 + n) (Reg.MDR_LSTAT_LINKDN n)
    let s := (mdrTo s n 5).setFld (Reg.MDR_LSTAT_RXVALID n) 0
    noteDown (s.setMlane n { s.mlane n with badRun := 0 }) n
  else s

/-- The lane enters READY and MDR is notified (R74, R107). -/
def laneReady (s : State) (n : Nat) (ctle vga : Nat) (dfe : List Nat) : State :=
  if s.canLock n then
    let s := adapted (lnkTo s n 4) n ctle vga dfe
    if (s.lane n).restart && decide (s.role n ≠ 0) then
      let s := s.setLane n { s.lane n with restart := false }
      if s.lstate n = 7 ∨ s.lstate n = 8 then s else beginHello s n
    else s
  else s

/-- Loss of signal or lock (R76, R77, R109). -/
def laneLoss (s : State) (n : Nat) (f : Fld) (sig : Bool) : State :=
  if s.lossCounts n then linkDown (lnkLoss s n f sig) n else if sig then signalGone s n else s

/-- A group clock fault also takes its lanes' links down (R72, R109). -/
def clockFault (s : State) (g : Nat) : State :=
  (groupLanes g).foldl (fun s n => if s.laneUp n && decide (s.lnkState n = 1) then linkDown s n else s) (groupFault s g)

/-- A write of LNK_TEST: MDR sees TEST as a loss of lock, and negotiates again afterwards (R84). -/
def testModeWrite (s : State) (n : Nat) (v : Word) : State :=
  let was := s.lnkState n
  let s := testWrite s n v
  if s.lnkState n = 5 ∧ was ≠ 5 then linkDown s n else s

/-- A proof failure (R108, R111, R118). -/
def proofFail (s : State) (n : Nat) : State :=
  let s := devEvent s (320 + n) (Reg.MDR_LSTAT_AUTHERR n)
  let s := s.count (Reg.MDR_NEGCNT_PROOFFAIL n) 1
  let k := (s.mlane n).proofFails + 1
  if 3 ≤ k then quarantine (s.setMlane n { s.mlane n with proofFails := 0 }) n 3
  else beginHello (s.setMlane n { s.mlane n with proofFails := k }) n

/-- No common mode: FAILED with REJECT, reason 1 (R106, R108). -/
def noCommon (s : State) (n : Nat) : State :=
  let s := devEvent s (320 + n) (Reg.MDR_LSTAT_NOCOMMON n)
  sendNeg ((mdrTo s n 8).setMlane n { s.mlane n with reason := 1 }) n (s.rejectWords n 1)

/-- The identity of a HELLO is not acceptable (R117). -/
def State.idBad (s : State) (n id : Nat) : Bool :=
  (!(s.flag (Reg.MDR_LCFG_IDANY n)) &&
    decide (id ≠ s.fld (Reg.MDR_EXPID_LO_EXPID_L n) + 2 ^ 32 * s.fld (Reg.MDR_EXPID_HI_EXPID_H n)))
  || (decide (s.role n = 3) && decide (id = ownId))

/-- Both sides have received a HELLO that echoes their own nonce (R107): the partner's last HELLO echoes this lane's nonce, and this lane's
last HELLO echoes the partner's. -/
def State.bothEcho (s : State) (n : Nat) : Bool :=
  let x := s.mlane n
  decide (x.partHello ≠ []) && decide (x.ownHello ≠ []) && decide (word64 x.partHello 8 = x.ownNonce) &&
    decide (word64 x.ownHello 8 = word64 x.partHello 6)

/-- Once both sides have the echo the lane sends its PROOF (R107), after what it sent before. -/
def enterProof (s : State) (n : Nat) : State :=
  if s.bothEcho n && decide (s.lstate n = 1) then
    let before := (s.mlane n).wire
    let s := sendNeg (mdrTo s n 2) n (s.proofWords n)
    s.setMlane n { s.mlane n with wire := before ++ (s.mlane n).wire }
  else s

/-- A HELLO leaves the lane: every 10 us in HELLO, every 1 ms in ABSENT (R107, R108). -/
def helloSend (s : State) (n : Nat) : State :=
  if s.lineUp n && decide (s.lnkState n = 4) && (decide (s.lstate n = 1) || decide (s.lstate n = 6)) then
    let ws := s.helloWords n
    enterProof (sendNeg (s.setMlane n { s.mlane n with ownHello := ws }) n ws) n
  else s

/-- A valid HELLO arrives (R105, R107, R108, R117). -/
def helloReceive (s : State) (n : Nat) (ws : List Nat) : State :=
  let st := s.lstate n
  if !(s.lineUp n && msgOk 1 ws) || !(decide (st ∈ [1, 2, 3, 4, 6])) then s else
  let id := word64 ws 4
  let s := (s.setFld (Reg.MDR_PID_LO_PID_L n) id).setMlane n { s.mlane n with partId := id }
  if s.idBad n id then quarantine (devEvent s (320 + n) (Reg.MDR_LSTAT_IDERR n)) n 2
  else if st = 2 ∨ st = 3 ∨ st = 4 then
    let s := if st = 4 then noteDown s n else s
    if s.lstate n = 7 then s else
    let s := beginHello s n
    s.setMlane n { s.mlane n with partNonce := word64 ws 6, partHello := ws.take 15 }
  else
    enterProof ((mdrTo s n 1).setMlane n { s.mlane n with partNonce := word64 ws 6, partHello := ws.take 15, wire := [] }) n

/-- A PROOF arrives (R107, R111, R117). -/
def proofReceive (s : State) (n : Nat) (ws : List Nat) : State :=
  if !(s.lineUp n && msgOk 2 ws && decide (s.lstate n = 2)) then s else
  let x := s.mlane n
  if s.idBad n (word64 ws 4) then quarantine (devEvent s (320 + n) (Reg.MDR_LSTAT_IDERR n)) n 2
  else if ws.getD 3 0 ≠ s.fld Reg.MDR_EPOCH_EPOCH ∨
      (s.flag (Reg.MDR_LCFG_AUTH n) = true ∧ ws.getD 1 0 * 2 ^ 32 + ws.getD 2 0 ≠ (s.proofTag n x.partNonce).toNat) then
    proofFail s n
  else
    let s := mdrTo (s.setMlane n { x with proofFails := 0, committed := false, mode := none }) n 3
    if s.isSource n then
      match s.chooseMode n (x.partHello.getD 1 0) (s.fld Reg.REL_CERTPER_T) (bitsOf (x.partHello.getD 1 0) 31 24) with
      | none => noCommon s n
      | some m => sendNeg (s.setMlane n { s.mlane n with mode := some m }) n (s.commitWords n m)
    else s

/-- The echo of a COMMIT goes out four times (R107). -/
def echoCommit (s : State) (n : Nat) (m : Mode) : State :=
  let s := sendNeg s n (s.commitWords n m)
  let w := (s.mlane n).wire
  s.setMlane n { s.mlane n with wire := w ++ w ++ w ++ w }

/-- A COMMIT, or the echo of one, arrives (R106, R107). A COMMIT of another mode than the receiver would choose is answered by REJECT; that
the receiver is then in FAILED, with NOCOMMON set and reason 1, as without a common mode, is a DESIGN CHOICE (log 46). -/
def commitReceive (s : State) (n : Nat) (ws : List Nat) : State :=
  if !(s.lineUp n && msgOk 3 ws && decide (s.lstate n = 3)) || (s.mlane n).committed then s else
  let x := s.mlane n
  if s.isSource n then
    match x.mode with
    | some m => if (ws.getD 1 0, ws.getD 2 0) = commitW m then s.setMlane n { x with committed := true } else s
    | none => s
  else
    match s.chooseMode n (x.partHello.getD 1 0) (x.partHello.getD 2 0) 255 with
    | some m =>
      if (ws.getD 1 0, ws.getD 2 0) = commitW m
      then echoCommit (s.setMlane n { x with mode := some m, committed := true }) n m
      else noCommon s n
    | none => noCommon s n

/-- A REJECT arrives: its reason is kept; the timeouts of R108 do the rest (log 23). -/
def rejectReceive (s : State) (n : Nat) (ws : List Nat) : State :=
  if s.lineUp n && msgOk 4 ws && decide (s.lstate n ≠ 0) then
    s.setMlane n { s.mlane n with partReject := ws.getD 1 0 } else s

/-- The rate change 2 us after the last COMMIT or echo (R107); DOWNGRADE when the mode is lower than the one before (R109). -/
def trainStart (s : State) (n : Nat) : State :=
  let x := s.mlane n
  match x.mode with
  | none => s
  | some m =>
    if !(s.laneUp n && decide (s.lstate n = 3) && x.committed) then s else
    let s := s.wr (Reg.MDR_NEG n) 0
    let s := ((((s.setFld (Reg.MDR_NEG_VER n) m.ver).setFlag (Reg.MDR_NEG_FEC n) m.fec).setFld (Reg.MDR_NEG_RATE n)
      m.rate).setFld (Reg.MDR_NEG_K n) m.k).setFld (Reg.MDR_NEG_D n) (frameD m.ver m.k)
    let s := if m.ver < x.prevVer ∨ m.rate < x.prevRate then devEvent s (320 + n) (Reg.MDR_LSTAT_DOWNGRADE n) else s
    let s := s.setMlane n { s.mlane n with prevVer := m.ver, prevRate := m.rate, goodRun := 0, lock := false, prevSlot := none }
    if s.fld (Reg.LNK_STAT_RATE n) = m.rate then s else lnkRate s n m.rate

/-- MDR commands the lane's rate (R75): that of the negotiated mode in TRAIN, else 10.3125 Gb/s. -/
def State.wantedRate (s : State) (n : Nat) : Nat :=
  if s.lstate n = 3 ∧ (s.mlane n).committed = true then (match (s.mlane n).mode with | some m => m.rate | none => 1)
  else if s.lstate n = 4 then s.fld (Reg.MDR_NEG_RATE n) else 1

def absentTimeout (s : State) (n : Nat) : State := if s.laneUp n && decide (s.lstate n = 1) then mdrTo s n 6 else s

def proofTimeout (s : State) (n : Nat) : State := if s.laneUp n && decide (s.lstate n = 2) then proofFail s n else s

def commitTimeout (s : State) (n : Nat) : State :=
  if s.laneUp n && decide (s.lstate n = 3) && !(s.mlane n).committed then beginHello s n else s

/-- Train timeout; the third in a row at one rate excludes it (R108). -/
def trainTimeout (s : State) (n : Nat) : State :=
  if s.laneUp n && decide (s.lstate n = 3) && (s.mlane n).committed then
    let x := s.mlane n
    let r := match x.mode with | some m => m.rate | none => 1
    let k := if x.trainRate = r then x.trainFails + 1 else 1
    let x := if 3 ≤ k then { x with trainRate := r, trainFails := 0, excluded := nsAdd x.excluded r }
             else { x with trainRate := r, trainFails := k }
    beginHello (s.setMlane n x) n
  else s

def holdoffExpiry (s : State) (n : Nat) : State := if s.laneUp n && decide (s.lstate n = 8) then beginHello s n else s

/-- In quarantine a REJECT goes out every 1 ms at 10.3125 Gb/s (R120). -/
def quarReject (s : State) (n : Nat) : State :=
  if s.lineUp n && decide (s.lstate n = 7) then
    let s := if s.fld (Reg.LNK_STAT_RATE n) = 1 then s else lnkRate s n 1
    sendNeg s n (s.rejectWords n (s.mlane n).reason)
  else s

/-- A write of MDR_LCTL (R122). -/
def mdrLctlWrite (s : State) (n : Nat) (v : Word) : State :=
  let s := (s.setFlag (Reg.MDR_LCTL_CCEN n) (v.getLsbD 2)).setFlag (Reg.MDR_LCTL_QRPT n) (v.getLsbD 1)
  if v.getLsbD 0 then s.setFld (Reg.MDR_LCTL_RENEG n) 1 else s

/-- The new session of a lane that reaches RUN (R113). -/
def enterRun (s : State) (n : Nat) : State :=
  let s := mdrTo s n 4
  s.setMlane n { s.mlane n with
    txSeq := 1, rxSeq := 0, badRun := 0, trainFails := 0, credGiven := 4, credUsed := 0,
    partCred := 0, outbox := [], remote := [] }

/-- What an orbit boundary does on lane `n` (R107, R109, R122). -/
def laneBoundary (s : State) (n : Nat) : State :=
  if !(s.laneUp n) || decide (s.role n = 0) then s
  else if s.flag (Reg.MDR_LCTL_RENEG n) then
    beginHello (s.setMlane n { s.mlane n with excluded := [], proofFails := 0 }) n
  else if s.lstate n = 5 then beginHello s n
  else if s.lstate n = 4 then s.setFld (Reg.MDR_LSTAT_RXVALID n) 1
  else s

/-- At a flip the bucket is limited to the new DEPTH (R113). -/
def policeFlip (s : State) (n : Nat) : State :=
  let x := s.mlane n
  s.setMlane n { x with tokens := min x.tokens (s.fld (Reg.MDR_POLICE_DEPTH n)) }

/-- A token arrives (R113): none while RATE is 0. -/
def policeToken (s : State) (n : Nat) : State :=
  let x := s.mlane n
  if s.laneUp n && decide (s.fld (Reg.MDR_POLICE_RATE n) ≠ 0) then
    s.setMlane n { x with tokens := min (x.tokens + 1) (s.fld (Reg.MDR_POLICE_DEPTH n)) } else s

/-- A read of MDR_PID_LO latches MDR_PID_HI. -/
def pidRead (s : State) (n : Nat) : Word × State :=
  (s.rd (Reg.MDR_PID_LO n), s.setFld (Reg.MDR_PID_HI_PID_H n) ((s.mlane n).partId / 2 ^ 32))

/-! ### Fast commands (R101 to R103, R122) -/

/-- A write of MDR_FCREQ. -/
def fcreqWrite (s : State) (v : Word) : State :=
  let c := wField v 28 24
  if c = 3 ∨ (0x10 ≤ c ∧ c ≤ 0x1B) then { s with mdr := { s.mdr with fcreq := some (c, wField v 15 0) } } else s

/-- At the edge that begins a slot: the codes due in it, raised by the raster list (`raster`) or by the request. -/
def fcDue (s : State) (raster : List Nat) : State :=
  match s.mdr.fcreq with
  | some (c, sl) =>
    if sl = 0xFFFF ∨ sl = s.tb.slot then { s with mdr := { s.mdr with due := raster ++ [c], fcreq := none } }
    else { s with mdr := { s.mdr with due := raster } }
  | none => { s with mdr := { s.mdr with due := raster } }

/-- The place of a code in the order of R103. -/
def fcRank (c : Nat) : Nat := if c = 4 then 0 else if c = 2 then 1 else if c = 1 then 2 else c

/-- Of some commands (code, FCX) the one that is sent: the first of the highest place. -/
def fcBest : List (Nat × Nat) → Option (Nat × Nat)
  | [] => none
  | a :: r => match fcBest r with
    | none => some a
    | some b => if fcRank b.1 < fcRank a.1 then some b else some a

end Sys2Proof.Machine
end

