-- ==== Sys2Proof/Machine/Tb.lean ====
section
/-! DEFINITION. The time base (R15 to R33, R484) and the flip (R34 to R42): numbering of slots and orbits, markers, slips,
misses and losses, the void period; banks, flip requests, the swap and the copy. What other blocks do at a slot-clock edge
is put together in Slot.lean. -/
namespace Sys2Proof.Machine

/-- TB_STAT.STATE. -/
def State.tbState (s : State) : Nat := s.fld Reg.TB_STAT_STATE

/-- The clock mode of R18: 0 BCLK, 1 recovered, 2 internal generator (3 acts as 2). -/
def State.clkMode (s : State) : Nat := min s.rst.strapClk 2

/-- TB judges markers: it has a marker source and does not ignore it (R24, R26). -/
def State.marksJudged (s : State) : Bool :=
  !(s.flag Reg.TB_CTL_MKIGN) && !(s.flag Reg.TB_CFG_MKNONE && decide (s.clkMode = 2))

/-- TB is in holdover: the source is away, and TB sees no marker (R22, R484). -/
def State.holdover (s : State) : Bool := decide (s.tbState = 3) && !s.tb.slewing

/-- The effective SLIPMAX. -/
def State.slipMax (s : State) : Nat :=
  let l := s.fld Reg.TB_ORBLEN_ORBLEN
  min (s.fld Reg.TB_SLIPMAX_SLIPMAX) (min ((l - 1) / 2) (65536 - l))

/-- L_max: the largest release latency of a defined stream (R38). -/
def State.lMax (s : State) : Nat :=
  (List.range (s.fld Reg.REL_CFG_NSTREAM)).foldl (fun a i => max a (s.fld (Reg.REL_LAT_L i))) 0

/-- The orbit number and slot of crossing `x`, from the recent orbits (R15). -/
def xidOf : List (Nat × Nat) → Nat → Nat × Nat
  | [], x => (0, x % 65536)
  | (start, orb) :: r, x => if start ≤ x then (orb, (x - start) % 65536) else xidOf r x

def State.xid (s : State) (x : Nat) : Nat × Nat := xidOf s.tb.history x

/-- Bits [31:0] of the XID of crossing `x`: ORBIT [15:0] over SLOT (R15). -/
def State.xidLo (s : State) (x : Nat) : Nat := (s.xid x).1 % 65536 * 65536 + (s.xid x).2

/-- The XID of crossing `x` as one 64-bit number (R15). -/
def State.xid64 (s : State) (x : Nat) : Nat := (s.xid x).1 * 65536 + (s.xid x).2

/-! ### The void period (R32) -/

/-- Orbits still to be voided of a void period that runs. -/
def State.voidOwed (s : State) : Nat := if s.tb.voiding && s.tb.voidEnd.isNone then s.tb.voidLeft else 0

/-- The void period begins, or goes on as long as a later loss makes it (log 19): `begun` when the orbit of the re-alignment point has
already begun, as for missed markers. -/
def voidBegin (s : State) (begun : Bool) : State :=
  let v := s.fld Reg.TB_LOSS_VOIDORB
  let tb := s.tb
  let running := tb.voiding && tb.voidEnd.isNone
  let tb := if begun then
      (if v = 0 then (if running then tb else { tb with voidLeft := 0, voidEnd := some tb.n })
        else { tb with voidLeft := max (v - 1) s.voidOwed, voidEnd := none })
    else { tb with voidLeft := max v s.voidOwed, voidEnd := none }
  { s with tb := { tb with voiding := true } }.setFld Reg.TB_STAT_VOIDING 1

/-- An orbit begins at slot `tb.n`: it is one of the voided orbits, or the first after them. -/
def voidOrbit (s : State) : State :=
  if s.tb.voiding && s.tb.voidEnd.isNone && !s.tb.awaitMark then
    if s.tb.voidLeft = 0 then { s with tb := { s.tb with voidEnd := some s.tb.n } }
    else { s with tb := { s.tb with voidLeft := s.tb.voidLeft - 1 } }
  else s

/-- A decision released now for crossing `x` is VOID: TB has not aligned, or the void period covers it (R24, R32). -/
def State.voidFor (s : State) (x : Nat) : Bool :=
  !s.tb.aligned || (s.tb.voiding && (match s.tb.voidEnd with | none => true | some e => decide (x < e)))

/-- VOIDING clears when the first crossing after the period has been released on the stream with the largest L. -/
def voidClose (s : State) : State :=
  match s.tb.voidEnd with
  | some e => if s.tb.voiding && decide (e + s.lMax ≤ s.tb.n) then
      { s with tb := { s.tb with voiding := false, voidEnd := none } }.setFld Reg.TB_STAT_VOIDING 0 else s
  | none => s

/-- What every orbit loss sets (R32): LOSS, its count, FLT_STATUS bit 60. -/
def lossFlags (s : State) : State :=
  raiseLine (devEvent (s.count Reg.TB_EVCNT_LOSS 1) 214 Reg.TB_STAT_LOSS) 60

/-! ### Banks (R34, R37 to R39) -/

/-- The register at `off` is banked. -/
def isBanked (off : Nat) : Bool := match regDef off with | some d => d.banked | none => false

/-- Every entry of `b` written into `a`. -/
def smMerge {α : Type} (a b : List (Nat × α)) : List (Nat × α) :=
  b.foldl (fun m e => smInsert (smErase m e.1) e.1 e.2) a

/-- The value of a banked register for crossing `x`: the live bank from the flip's crossing on, the bank before it for
earlier crossings while that bank is kept (R37, R38). -/
def State.bank (s : State) (x off : Nat) : Word :=
  if s.flip.oldBank && decide (x < s.flip.since) then s.rdStaged off else s.rd off

/-- A field of the bank of crossing `x`. -/
def State.bfld (s : State) (x : Nat) (f : Fld) : Nat := wField (s.bank x f.off) f.hi f.lo

def State.bflag (s : State) (x : Nat) (f : Fld) : Bool := decide (s.bfld x f ≠ 0)

/-- A banked region of the SRAM windows: the staged copy, the live copy, the size (R34, R160). -/
structure BankedSram where
  staged : Nat
  live : Nat
  size : Nat
deriving DecidableEq, Repr

/-- The banked regions: the static planes, and the Lake that is flattened from them (R160, R161). -/
def State.bankedSram (s : State) : List BankedSram :=
  let sp := (s.rd Reg.PF_SPBASE).toNat
  let lk := (s.rd Reg.PF_LAKEBASE).toNat
  [{ staged := sp, live := sp + 0x80000, size := 0x8000 * s.fld Reg.PF_CFG_NSP },
   { staged := lk + 0x100000, live := lk, size := 0x8000 * s.fld Reg.PF_CFG_NLAKE }]

/-- The region of whose staged copy address `a` is part. -/
def State.inStaged (s : State) (a : Nat) : Option BankedSram :=
  s.bankedSram.find? fun r => decide (r.staged ≤ a ∧ a < r.staged + r.size)

/-- The region of whose live copy address `a` is part. -/
def State.inLive (s : State) (a : Nat) : Option BankedSram :=
  s.bankedSram.find? fun r => decide (r.live ≤ a ∧ a < r.live + r.size)

/-- Where the word at `a` stands after the two banks change places; `a` where it belongs to no bank. -/
def State.swapAddr (s : State) (a : Nat) : Nat :=
  match s.inStaged a with
  | some r => r.live + (a - r.staged)
  | none => match s.inLive a with
    | some r => r.staged + (a - r.live)
    | none =>
      if isBanked a then a + 0x80000
      else if 0x80000 ≤ a && isBanked (a - 0x80000) then a - 0x80000 else a

/-- The two halves of the banked SRAM regions change places, and with each word its damage. -/
def swapSram (s : State) : State :=
  { s with sram := s.sram.foldl (fun m e => smInsert m (s.swapAddr e.1) e.2) [],
           ecc := s.ecc.foldl (fun l a => nsAdd l (s.swapAddr a)) [] }

/-- Swap the live and the staged bank (R37). -/
def swapBanks (s : State) : State :=
  let s := swapSram s
  { s with regs := smMerge (s.regs.filter fun e => !(isBanked e.1)) s.staged,
           staged := s.regs.filter fun e => isBanked e.1 }

/-- The live bytes of the banked SRAM regions, at their staged addresses. -/
def State.liveSram (s : State) : List Host.Cell :=
  s.sram.filterMap fun e => match s.inLive e.1 with
    | some r => some (r.staged + (e.1 - r.live), e.2)
    | none => none

/-- The staged bank takes the live bank's values, whole words, so that none of its words stays damaged (R38). -/
def copyBank (s : State) : State :=
  { s with staged := s.regs.filter fun e => isBanked e.1,
           sram := smMerge (s.sram.filter fun e => (s.inStaged e.1).isNone) s.liveSram,
           ecc := s.ecc.filter fun a => !(isBanked a) && (s.inStaged a).isNone }

/-- The live bank as a bank commit saves it (R422). -/
def State.bankImage (s : State) : BankImage :=
  { regs := s.regs.filter fun e => isBanked e.1, sram := s.liveSram }

/-! ### The flip -/

/-- A write of GBL_FLIP (R35, R36, R44). -/
def flipWrite (s : State) (v : Word) : State :=
  if v.getLsbD 30 then { s with flip := { s.flip with pending := none } }.setFld Reg.GBL_FLIPSTAT_PEND 0
  else if v.getLsbD 31 then
    { s with flip := { s.flip with
        pending := some { journal := v.getLsbD 29, aten := v.getLsbD 28, at_ := wField v 15 0 } } }.setFld
      Reg.GBL_FLIPSTAT_PEND 1
  else s

/-- The number that the orbit at the next boundary is expected to take (R36). -/
def State.nextOrbit (s : State) : Nat :=
  if s.flag Reg.TB_CTL_LOAD
  then (s.fld Reg.TB_ORBLOAD_HI_ORB_H * 2 ^ 32 + s.fld Reg.TB_ORBLOAD_LO_ORB_L) else (s.tb.orbit + 1) % 2 ^ 48

/-- The commit point: a pending request locks when R36 lets it. -/
def commitPoint (s : State) : State :=
  match s.flip.pending with
  | none => s
  | some r =>
    if !(s.flag Reg.GBL_FLIPSTAT_BUSY) && decide (s.fld Reg.PF_LAKESTAT_STALE = 0) && s.flip.locked.isNone
        && (!r.aten || decide (s.nextOrbit % 65536 = r.at_)) then
      ({ s with flip := { s.flip with pending := none, locked := some r } }.setFld Reg.GBL_FLIPSTAT_PEND 0).setFld
        Reg.GBL_FLIPSTAT_LOCKED 1
    else s

/-- A locked request returns to pending, unless a newer one waits (R36, R40). -/
def flipReturn (s : State) (r : FlipReq) : State :=
  ({ s with flip := { s.flip with locked := none, pending := some (s.flip.pending.getD r) } }.setFld
    Reg.GBL_FLIPSTAT_LOCKED 0).setFld Reg.GBL_FLIPSTAT_PEND 1

/-- Ask for a commit; one at a time, in order (R423). -/
def requestCommit (s : State) (c : Commit) : State :=
  ({ s with img := { s.img with commits := s.img.commits ++ [c] } }).setFld Reg.IMG_JSTAT_BUSY 1

/-- The swap at the boundary that begins the orbit numbered `tb.orbit` at slot `tb.n` (R37, R41, R42). -/
def flipSwap (s : State) (r : FlipReq) : State :=
  let s := swapBanks s
  let s := { s with flip := { s.flip with locked := none, since := s.tb.n, oldBank := true, copyAt := some (s.tb.n + s.lMax),
                                          copying := false, stampOrbit := s.tb.orbit, stampTime := s.rtime } }
  let s := (s.setFld Reg.GBL_FLIPSTAT_LOCKED 0).setFld Reg.GBL_FLIPSTAT_BUSY 1
  let s := s.wr Reg.GBL_FLIPSTAMP0 (BitVec.ofNat 32 s.tb.orbit)
  let s := s.setFld Reg.GBL_FLIPSTAT_COUNT (s.fld Reg.GBL_FLIPSTAT_COUNT + 1)
  let s := countSrc s 0x1CB
  if r.journal then
    requestCommit (s.setFld Reg.GBL_FLIPSTAT_JBUSY 1)
      (.bank s.bankImage ((s.rd Reg.GBL_IMGID_HI).toNat * 2 ^ 32 + (s.rd Reg.GBL_IMGID_LO).toNat) s.tb.orbit)
  else s

/-- The boundary of a locked request: `odd` when the boundary is made by a loss marker or the first alignment (R32, R40). -/
def flipBoundary (s : State) (odd : Bool) : State :=
  match s.flip.locked with
  | none => s
  | some r =>
    if odd || (r.aten && !decide (s.tb.orbit % 65536 = r.at_)) then flipReturn s r else flipSwap s r

/-- L_max slots after the swap the old bank is released and the copy starts (R38). -/
def copyStart (s : State) : State :=
  match s.flip.copyAt with
  | some n => if n ≤ s.tb.n then { s with flip := { s.flip with oldBank := false, copyAt := none, copying := true } } else s
  | none => s

/-- The copy ends: the staged bank equals the live bank (R38). -/
def copyDone (s : State) : State :=
  if s.flip.copying then
    { copyBank s with flip := { s.flip with copying := false, oldBank := false } }.setFld Reg.GBL_FLIPSTAT_BUSY 0
  else s

/-- The staged bank is open to writes (R39). -/
def State.stagedOpen (s : State) : Bool := !(s.flag Reg.GBL_FLIPSTAT_LOCKED) && !(s.flag Reg.GBL_FLIPSTAT_BUSY)

/-- A read of GBL_FLIPSTAMP[0] latches the other three words (R42). -/
def stampRead (s : State) : Word × State :=
  let s1 := s.wr Reg.GBL_FLIPSTAMP1 (BitVec.ofNat 32 (s.flip.stampOrbit / 2 ^ 32))
  let s2 := s1.wr Reg.GBL_FLIPSTAMP2 (BitVec.ofNat 32 s.flip.stampTime)
  (s.rd Reg.GBL_FLIPSTAMP0, s2.wr Reg.GBL_FLIPSTAMP3 (BitVec.ofNat 32 (s.flip.stampTime / 2 ^ 32)))

/-! ### The orbit sequencer -/

/-- How the orbit that begins was brought about. -/
inductive Boundary where
  | regular
  /-- made by a loss marker -/
  | loss
  /-- the first alignment -/
  | first
deriving DecidableEq, Repr

/-- What the boundary does to the run of missed markers: one whose marker came in the tail ends it (R30), and so does one that passes
while MKIGN is 1, which is not judged later either (R26). -/
def markedOrbit (s : State) (k : Boundary) : State :=
  if s.tb.seenNext || s.flag Reg.TB_CTL_MKIGN || decide (k ≠ Boundary.regular) then { s with tb := { s.tb with misses := 0 } } else s

/-- Number and length of the orbit that begins at the present slot (R16, R24, R25, R27). An early marker's slip takes the number that
the orbit really gets (R27). -/
def newOrbit (s : State) (k : Boundary) : State :=
  let s := markedOrbit s k
  let loaded := s.flag Reg.TB_CTL_LOAD
  let orb := if loaded then s.nextOrbit else if k = Boundary.first then 0 else s.nextOrbit
  let dev : Int := if k = Boundary.regular then s.tb.nextDev else 0
  let len := ((s.fld Reg.TB_ORBLEN_ORBLEN : Int) + dev).toNat
  let tb := s.tb
  let s := { s with tb := { tb with
      orbit := orb, slot := 0, orbStart := tb.n, prevLen := s.fld Reg.TB_CURLEN_LEN,
      seen := if k = Boundary.regular then tb.seenNext else true, seenNext := false, judged := s.flag Reg.TB_CTL_MKIGN, nextDev := 0,
      orbPs := tb.ps, history := ((tb.n, orb) :: tb.history).take 2200 } }
  let s := s.setFld Reg.TB_CURLEN_LEN len
  let s := if dev = 0 then s else s.setFld Reg.TB_LASTSLIP_ORBIT_L orb
  if loaded then s.setFld Reg.TB_CTL_LOAD 0 else s

/-- A slip of deviation `d` for orbit number `orb` is recorded (R27). -/
def recordSlip (s : State) (d : Int) (orb : Nat) : State :=
  let s := (s.setFld Reg.TB_LASTSLIP_ORBIT_L orb).setFld Reg.TB_LASTSLIP_D (wrapN 8 d)
  countSrc (devEvent (s.count Reg.TB_EVCNT_SLIP 1) 214 Reg.TB_STAT_SLIP) 0x1C7

/-- What a marker means that is sampled in slot `sl` of the current orbit of length `len` (R27, R31). -/
inductive MarkJudge where
  | head (d : Nat)
  | tail (d : Int)
  | loss
deriving DecidableEq, Repr

/-- DESIGN CHOICE (log 44): where an orbit is so short that its head and its tail window overlap, a marker belongs to the head window, so
that a second one there is a loss; the spec does not say to which of the two it belongs (R27). -/
def judgeMark (slipMax len sl : Nat) (seen seenNext : Bool) : MarkJudge :=
  if sl ≤ slipMax then (if seen then .loss else .head sl)
  else if len ≤ sl + slipMax then (if seenNext then .loss else .tail ((sl : Int) - (len : Int)))
  else .loss

/-- The window of the boundary that began this orbit closes without a marker (R30). -/
def missedMarker (s : State) : State :=
  let s := countSrc (devEvent (s.count Reg.TB_EVCNT_MISS 1) 214 Reg.TB_STAT_MISS) 0x1C8
  let m := s.tb.misses + 1
  if s.fld Reg.TB_LOSS_MISSMAX < m then
    let s := { s with tb := { s.tb with misses := 0, resyncNext := s.flag Reg.TB_CTL_RESYNCEN } }
    voidBegin (lossFlags s) true
  else { s with tb := { s.tb with misses := m } }

/-- Is the window closed at the present slot with no marker (R30)? -/
def closeWindow (s : State) : State :=
  if s.tb.aligned && !s.tb.judged && decide (s.slipMax < s.tb.slot) then
    let s := { s with tb := { s.tb with judged := true } }
    if s.tb.seen || !(s.marksJudged) then { s with tb := { s.tb with misses := 0 } } else missedMarker s
  else s

/-- How the coming slot-clock edge is judged, before any orbit action. -/
inductive EdgeKind where
  | plain
  | boundary (k : Boundary)
  /-- the edge begins a slot in whose window a marker was seen -/
  | slip (j : MarkJudge) (atBoundary : Bool)
deriving DecidableEq, Repr

/-- Judge an edge: `mark` when a marker is sampled in the slot that it begins. -/
def State.judgeEdge (s : State) (mark : Bool) : EdgeKind :=
  let len := s.fld Reg.TB_CURLEN_LEN
  let natural := decide (len ≤ s.tb.slot + 1)
  let mark := mark && !s.holdover
  if !s.tb.aligned then
    if (mark && s.marksJudged) || (natural && s.flag Reg.TB_CTL_MKIGN) ||
       (s.flag Reg.TB_CFG_MKNONE && decide (s.clkMode = 2)) then .boundary .first
    else if natural then .boundary .regular else .plain
  else if !mark || !(s.marksJudged) then (if natural then .boundary .regular else .plain)
  else if s.tb.awaitMark then .boundary .loss
  else if natural then
    (if s.tb.seenNext then .boundary .loss else .slip (.head 0) true)
  else match judgeMark s.slipMax len (s.tb.slot + 1) s.tb.seen s.tb.seenNext with
    | .loss => .boundary .loss
    | j => .slip j false

/-- The first alignment at the slot that begins now (R24); it is the re-alignment for which a RESYNC of lane 0 waited (R21). DESIGN
CHOICE (log 44): in holdover or in the re-lock slew STATE stays 0b11 until the slew ends (R22), and 0b10 follows then; R24 says 0b10 from the
alignment on. -/
def firstAlign (s : State) : State :=
  let s := newOrbit s .first
  let s := { s with tb := { s.tb with
      aligned := true, misses := 0, awaitMark := false, resyncNow := s.flag Reg.TB_CTL_RESYNCEN, resyncNext := false } }
  voidOrbit (voidBegin (if s.tbState = 3 then s else s.setFld Reg.TB_STAT_STATE 2) false)

/-- The numbering after the edge, with the records of slips, losses and alignment (R24 to R32). The second component says
whether an orbit began, and how. DESIGN CHOICE (log 44): an early marker's slip is recorded when the marker is sampled, and stays
recorded when a loss intervenes; a loss marker sampled at the very edge that would close the head window ends the orbit before the
window has closed, so that no miss is recorded (R27, R30). -/
def tbEdge (s : State) (mark : Bool) (dt : Nat) : State × Option Boundary :=
  let kind := s.judgeEdge mark
  let s := { s with tb := { s.tb with n := s.tb.n + 1, ps := s.tb.ps + dt, per := dt, resyncNow := false, laneMark := false } }
  let step (s : State) : State := { s with tb := { s.tb with slot := s.tb.slot + 1 } }
  match kind with
  | .plain => (step s, none)
  | .boundary .regular =>
    let s := newOrbit s .regular
    (voidOrbit { s with tb := { s.tb with resyncNow := s.tb.resyncNext, resyncNext := false } }, some .regular)
  | .boundary .first => (firstAlign s, some .first)
  | .boundary .loss =>
    let again := s.tb.awaitMark
    let s := newOrbit s .loss
    let s := { s with tb := { s.tb with misses := 0, awaitMark := false, resyncNow := s.flag Reg.TB_CTL_RESYNCEN, resyncNext := false } }
    (voidOrbit (voidBegin (if again then s else lossFlags s) false), some .loss)
  | .slip j atB =>
    let (s, b) : State × Option Boundary :=
      if atB then (voidOrbit (let t := newOrbit s .regular
        { t with tb := { t.tb with resyncNow := t.tb.resyncNext, resyncNext := false } }), some .regular) else (step s, none)
    match j with
    | .head d =>
      let s := { s with tb := { s.tb with seen := true, misses := 0 } }
      if d = 0 then (s, b)
      else ((recordSlip s d s.tb.orbit).setFld Reg.TB_CURLEN_LEN (s.fld Reg.TB_ORBLEN_ORBLEN + d), b)
    | .tail d =>
      let s := { s with tb := { s.tb with seenNext := true, nextDev := d } }
      (recordSlip s d s.nextOrbit, b)
    | .loss => (s, b)

/-- The mean slot period of the orbit that ended, in ps, rounded to nearest with ties upward (R58). -/
def meanPeriod (ps len : Nat) : Nat := if len = 0 then 0 else (2 * ps + len) / (2 * len)

/-- A RESYNC received on lane 0 in recovered mode (R21, R31): an orbit loss; the next orbit mark re-aligns. While MKIGN is 1 no loss is
declared (R26). -/
def laneResync (s : State) : State :=
  if s.flag Reg.TB_CTL_MKIGN then s else
  let s := { s with tb := { s.tb with awaitMark := true, misses := 0 } }
  voidBegin (lossFlags s) false

/-- Slots begin: STATE leaves 0b00, and the first edge begins slot 0 of orbit 0; without a marker source it is the first alignment (R24).
DESIGN CHOICE (log 44): a TB_CTL.LOAD that is pending at this edge waits for the next boundary, since no orbit ends here; R24 numbers the
free count from 0, R25 applies a load at the next boundary of any kind. -/
def firstEdge (s : State) : State :=
  let s := s.setFld Reg.TB_STAT_STATE 1
  let s := { s with tb := { s.tb with n := s.tb.n + 1, aligned := false, edgeCycle := s.cycle, resyncNow := false, laneMark := false } }
  if s.flag Reg.TB_CFG_MKNONE && decide (s.clkMode = 2) then firstAlign s
  else
    { s with tb := { s.tb with
        orbit := 0, slot := 0, orbStart := s.tb.n, seen := false, seenNext := false, judged := false, nextDev := 0, orbPs := s.tb.ps,
        history := ((s.tb.n, 0) :: s.tb.history).take 2200 } }.setFld Reg.TB_CURLEN_LEN (s.fld Reg.TB_ORBLEN_ORBLEN)

/-- Holdover is declared (R22). -/
def holdoverEntry (s : State) : State :=
  if s.clkMode = 2 ∨ s.tbState = 0 ∨ s.holdover = true then s
  else raiseLine ({ s with tb := { s.tb with slewing := false } }.setFld Reg.TB_STAT_STATE 3) 54

/-- The generator starts again, as at every write that changes TB_INTGEN: no slot-clock edge and STATE 0b00 until it has locked (R24).
DEDUCED (log 44): slots and orbits then begin as after a reset. -/
def generatorStart (s : State) : State :=
  if decide (s.clkMode = 2) && s.up 3 then s.setFld Reg.TB_STAT_STATE 0 else s

/-- What a write of TB_CTL does beside: when MKIGN is cleared, the count of missed markers starts from 0 (R26). -/
def unignored (before : Bool) (s : State) : State :=
  if before && !(s.flag Reg.TB_CTL_MKIGN) then { s with tb := { s.tb with misses := 0 } } else s

/-- The re-lock slew ends (R22). -/
def relockDone (s : State) : State :=
  if s.tbState = 3 && s.tb.slewing then
    { s with tb := { s.tb with slewing := false } }.setFld Reg.TB_STAT_STATE (if s.tb.aligned then 2 else 1)
  else s

end Sys2Proof.Machine
end

