-- ==== Sys2Proof/Machine/Rel.lean ====
section
/-! DEFINITION. Release (R45 to R67): arrivals, deadlines, lateness, the release instant, slack sentinels, supply
adaptation. Replay assignment and votes are with the engines (Obj.lean). -/
namespace Sys2Proof.Machine

/-- The image runs: the released streams are those it defines (log 20). -/
def State.running (s : State) : Bool :=
  decide (s.fld Reg.GBL_STATE_STATE = 3) || decide (s.fld Reg.GBL_STATE_STATE = 6)

/-- The defined streams. -/
def State.streams (s : State) : List Nat := List.range (s.fld Reg.REL_CFG_NSTREAM)

/-- FCLK edge that takes an instant given in ps: the first at or after it (R51). -/
def fclkAt (ps : Nat) : Nat := (ps + 1249) / 1250

def relKey (st x : Nat) : Nat := 1024 * st + x % 1024

/-- An entry that nothing has reached. -/
def RelEntry.empty : RelEntry :=
  { x := 0, word := 0, strobe := false, arrival := 0, present := false, replay := false, deferred := false, late := false }

/-- The ring entry of crossing `x` on stream `st` (R50). -/
def State.relEntry (s : State) (st x : Nat) : RelEntry :=
  let e := smGet RelEntry.empty s.rel.ring (relKey st x)
  if e.x = x then e else { RelEntry.empty with x := x }

def State.setRel (s : State) (st : Nat) (e : RelEntry) : State :=
  { s with rel := { s.rel with ring := smSet RelEntry.empty s.rel.ring (relKey st e.x) e } }

def State.sentRec (s : State) (st : Nat) : SentRec := smGet SentRec.none s.rel.sent st

def State.setSentRec (s : State) (st : Nat) (r : SentRec) : State :=
  { s with rel := { s.rel with sent := smSet SentRec.none s.rel.sent st r } }

/-- A result for a crossing already late is discarded and counted (R54). -/
def relDrop (s : State) (st : Nat) : State := s.count (Reg.REL_LATECNT_DROP st) 1

/-- The release register completes the handshake for crossing `x` of stream `st`, `ph` FCLK edges after the edge that took
the present slot (R51). A result that comes after the crossing was found late, or after its release instant, is dropped (R50, R54). -/
def relArrive (s : State) (st x : Nat) (word : BitVec 64) (strobe : Bool) (ph : Nat) : State :=
  let e := s.relEntry st x
  if e.late || decide (x + s.fld (Reg.REL_LAT_L st) ≤ s.tb.n) then relDrop s st
  else s.setRel st { e with word := word, strobe := strobe, arrival := fclkAt s.tb.ps + ph, present := true }

/-- A crossing is late on a stream (R54). -/
def relLate (s : State) (st : Nat) (e : RelEntry) : State :=
  let s := if e.present then relDrop s st else s
  let s := s.setRel st { e with late := true, present := false }
  let s := (s.event Reg.REL_STAT_LATE).count (Reg.REL_LATECNT_LATE st) 1
  let s := countSrc { s with rel := { s.rel with lateSeen := true } } 0x1C4
  raiseLine s 56

/-- Slack saturates at 0xFFFE (R59). -/
def slackOf (deadline arrival : Nat) : Nat := min (deadline - arrival) 0xFFFE

/-- A crossing judged on time at the primary deadline enters the primary record and the sticky minimum (R59). -/
def recordPrimary (s : State) (st slack : Nat) : State :=
  let r := s.sentRec st
  let s := if slack < r.prim then s.setSentRec st { r with prim := slack, dlSlot := s.tb.slot } else s
  if slack < s.fld (Reg.REL_SENTMIN_MIN st) then s.setFld (Reg.REL_SENTMIN_MIN st) slack else s

/-- A crossing judged on time at the replay deadline enters the replay record. -/
def recordReplay (s : State) (st slack : Nat) : State :=
  let r := s.sentRec st
  if slack < r.rep then s.setSentRec st { r with rep := slack } else s

/-- The primary deadline of crossing `x` at the edge that begins the present slot (R52, R53). -/
def primaryDeadline (s : State) (st x : Nat) : State :=
  let e := s.relEntry st x
  let dl := fclkAt s.tb.ps
  if e.present && decide (e.arrival < dl) then recordPrimary (s.setRel st e) st (slackOf dl e.arrival)
  else if e.replay then s.setRel st { e with deferred := true }
  else relLate s st e

/-- The replay deadline of a deferred crossing (R52, R53). -/
def replayDeadline (s : State) (st x : Nat) : State :=
  let e := s.relEntry st x
  let dl := fclkAt s.tb.ps
  if !e.deferred || e.late then s
  else if e.present && decide (e.arrival < dl) then recordReplay s st (slackOf dl e.arrival)
  else relLate s st e

/-- The late pattern of the bank of crossing `x`; bit 63 always 1 (R54, R55). -/
def State.latePattern (s : State) (st x : Nat) : BitVec 64 :=
  BitVec.ofNat 64 ((2 ^ 31 + (s.bank x (Reg.REL_LATEPAT_HI st)).toNat % 2 ^ 31) * 2 ^ 32
    + (s.bank x (Reg.REL_LATEPAT_LO st)).toNat)

/-- Crossing `x` gets the late pattern for want of a normal release: the safe state or its aftermath, a void period, or the
time before the image ran (R24, R56, R418, R454, R455). -/
def State.relHeld (s : State) (x : Nat) : Bool :=
  s.safe || s.voidFor x || !s.running || decide (x < s.rel.firstX) ||
    (match s.flt.exitOrbit with
     | none => false
     | some o => decide (x < o))

/-- The release instant of crossing `x` on stream `st` (R49, R54, R56). Its ring entry stands until the next crossing of the same index
takes it, so that a later result is known for one (R54). -/
def releaseOne (s : State) (st x : Nat) : State :=
  let e := s.relEntry st x
  let r : Released :=
    if s.relHeld x || e.late || !e.present then { x := x, word := s.latePattern st x, strobe := false, late := true }
    else { x := x, word := e.word, strobe := e.strobe, late := false }
  { s with rel := { s.rel with released := smInsert (smErase s.rel.released st) st r } }

/-- What a stream presents in the present slot. -/
def State.releasedNow (s : State) (st : Nat) : Option Released :=
  match s.rel.released.find? (fun e => e.1 = st) with
  | some (_, r) => if r.x + s.fld (Reg.REL_LAT_L st) = s.tb.n then some r else none
  | none => none

/-- Deadlines and releases of one stream at the edge that begins the present slot. -/
def streamEdge (s : State) (st : Nat) : State :=
  let l := s.fld (Reg.REL_LAT_L st)
  let g := s.fld (Reg.REL_LAT_G st)
  let n := s.tb.n
  let s := if s.running && decide (l - g + s.rel.firstX ≤ n) then primaryDeadline s st (n + g - l) else s
  let s := if s.running && decide (l - 1 + s.rel.firstX ≤ n) then replayDeadline s st (n + 1 - l) else s
  if l ≤ n then releaseOne s st (n - l) else s

/-- The accept strobe of stream `s` is high in the slot that begins at its release instant (R397). -/
def State.strobeNow (s : State) (st : Nat) : Bool :=
  match s.releasedNow st with
  | some r => r.strobe
  | none => false

/-! ### Sentinels and the period at the boundary (R58, R60) -/

/-- Least primary slack over the defined streams. -/
def State.leastSlack (s : State) : Nat := s.streams.foldl (fun a st => min a (s.sentRec st).prim) 0xFFFF

/-- Publish the records of the orbit that ended, numbered `orb`, and start new ones (R60). -/
def publishSentinels (s : State) (orb : Nat) : State :=
  let t := s.streams.foldl (fun t st =>
    let r := s.sentRec st
    (t.setFld (Reg.REL_SENT_SLACK st) r.prim).setFld (Reg.REL_SENT_DLSLOT st) (if r.prim = 0xFFFF then 0 else r.dlSlot)) s
  { t with rel := { t.rel with pubOrbit := orb, pubRep := s.streams.map fun st => (st, (s.sentRec st).rep), sent := [] } }

/-- A read of REL_SENT[s] latches REL_SENTX[s] (R60). -/
def sentRead (s : State) (st : Nat) : Word × State :=
  let rep := match s.rel.pubRep.find? (fun e => e.1 = st) with | some e => e.2 | none => 0xFFFF
  (s.rd (Reg.REL_SENT st), (s.setFld (Reg.REL_SENTX_ORBIT_L st) s.rel.pubOrbit).setFld (Reg.REL_SENTX_RSLACK st) rep)

/-- Measure the orbit that ended: `ps` its duration, `len` its slots (R58). -/
def periodMeasure (s : State) (ps len : Nat) : State :=
  let per := meanPeriod ps len
  let t := s.fld Reg.REL_CERTPER_T
  let fast := decide (per * 1000000 < t * 999900)
  let s := s.setFld Reg.REL_MEASPER_PER per
  let s := s.setFlag Reg.REL_STAT_FAST fast
  let s := s.setFlag Reg.REL_STAT_LONG (decide (16000000 < s.lMax * per))
  raiseIf s fast 2

/-! ### Core supply adaptation (R61, R62) -/

/-- Both limits act as VMAX when the live VMIN exceeds it. -/
def State.avsMin (s : State) : Nat := min (s.fld Reg.REL_AVSLIM_VMIN) (s.fld Reg.REL_AVSLIM_VMAX)

/-- Request `v` mV from the regulator. -/
def avsRequest (s : State) (v : Nat) : State :=
  (s.setFld Reg.REL_AVSSTAT_VREQ v).setFld Reg.REL_AVSSTAT_BUSY 1

/-- The request at RUN (R61). -/
def avsStart (s : State) : State := avsRequest s (max 730 (s.fld Reg.REL_AVSLIM_VMIN))

/-- What supply adaptation asks for at a boundary, `sl` the least primary slack of the ended orbit (R62). DEDUCED (log 21): an
orbit in which no slack was recorded (S = 0xFFFF) neither adds to the run of orbits above CEIL nor breaks it. -/
def avsAdjust (s : State) (sl : Nat) : State :=
  let v := s.fld Reg.REL_AVSSTAT_VREQ
  let vmax := s.fld Reg.REL_AVSLIM_VMAX
  let floor := s.fld Reg.REL_AVSTHR_FLOOR
  let step := max (s.fld Reg.REL_AVSCTL_STEP) 1
  let late := s.rel.lateSeen
  let s := s.setFlag Reg.REL_STAT_AVSMAX (decide (v = vmax ∧ sl < floor))
  let s := { s with rel := { s.rel with lateSeen := false } }
  if !(s.flag Reg.REL_AVSCTL_EN) then { s with rel := { s.rel with dwell := 0 } }
  else
    let busy := s.flag Reg.REL_AVSSTAT_BUSY
    let above := decide (s.fld Reg.REL_AVSTHR_CEIL < sl ∧ sl ≠ 0xFFFF)
    let dwell := if sl = 0xFFFF then s.rel.dwell else if above then s.rel.dwell + 1 else 0
    let s := { s with rel := { s.rel with dwell := dwell } }
    if late || decide (sl < floor) then
      if late || !busy then avsRequest s (min (v + step) vmax) else s
    else if max (s.fld Reg.REL_AVSCTL_DWELL) 1 ≤ dwell ∧ above = true ∧ busy = false then
      avsRequest { s with rel := { s.rel with dwell := 0 } } (max (v - step) s.avsMin)
    else s

/-- The Status read after a voltage write (R62): none when the regulator gives no response. Bit 15 to 8 of the status are
kept; an alert is reported by `alert`. -/
def avsStatus (s : State) (resp : Option Nat) (alert : Bool) : State :=
  match resp with
  | none => raiseLine (s.setFld Reg.REL_AVSSTAT_NORESP 1) 2
  | some st =>
    let s := (s.setFld Reg.REL_AVSSTAT_NORESP 0).setFld Reg.REL_AVSSTAT_LASTSTAT (st / 256)
    if alert then raiseLine (s.event Reg.REL_STAT_AVSERR) 2 else s

end Sys2Proof.Machine
end

