-- ==== Sys2Proof/Machine/Ing.lean ====
section
/-! DEFINITION. The ingress (R123 to R138): placing frames in crossings, the tile map, the VOID rules, the handover. -/
namespace Sys2Proof.Machine

def State.ingLane (s : State) (n : Nat) : IngLane := smGet IngLane.idle s.ing.lanes n

def State.setIngLane (s : State) (n : Nat) (x : IngLane) : State :=
  { s with ing := { s.ing with lanes := smSet IngLane.idle s.ing.lanes n x } }

def State.dskt (s : State) : Nat := s.fld Reg.ING_CFG_DSKT

/-- The word at `off` for crossing `x` holds an uncorrectable error: the damaged word of the bank that applies (R37, R485). -/
def State.eccAt (s : State) (x off : Nat) : Bool :=
  if isBanked off && !(s.flip.oldBank && decide (x < s.flip.since)) then s.ecc.contains (off + 0x80000)
  else s.ecc.contains off

/-! ### Placing frames (R126, R128) -/

def ingMisaligned (s : State) (n : Nat) : State :=
  countSrc (((s.count (Reg.ING_LCNT2_MISAL n) 1).event (Reg.ING_LSTAT_MISAL n)).event Reg.ING_STAT_MISAL) (0x60 + n)

def ingLate (s : State) (n : Nat) : State :=
  countSrc (((s.count (Reg.ING_LCNT_LATEFR n) 1).event (Reg.ING_LSTAT_LATE n)).event Reg.ING_STAT_LATE) (0x60 + n)

/-- The frame's SLOT and ORBIT name crossing `x` (8 orbit bits at v1). -/
def State.names (s : State) (n : Nat) (f : Frame) (x : Nat) : Bool :=
  let id := s.xid x
  let m := if s.fld (Reg.MDR_NEG_VER n) = 1 then 256 else 65536
  decide (id.2 = f.slot ∧ id.1 % m = f.orbit % m)

/-- The crossings that the window of R126 covers at the present slot: begun, and handed over at most 64 slots ago or at most 36 ahead.
Slots are numbered from 1 on. -/
def State.window (s : State) : List Nat :=
  let now := s.tb.n
  let lo := now - 64 - s.dskt
  (rangeFrom lo (now + 1 - lo)).filter fun x => decide (1 ≤ x ∧ x + s.dskt ≤ now + 36 ∧ now ≤ x + s.dskt + 64)

/-- Distance of a handover from the present slot. -/
def handoverDist (now dskt x : Nat) : Nat := (x + dskt - now) + (now - (x + dskt))

/-- The crossing with the nearest handover. -/
def nearestX (now dskt : Nat) : List Nat → Option Nat
  | [] => none
  | a :: r => match nearestX now dskt r with
    | none => some a
    | some b => if handoverDist now dskt b ≤ handoverDist now dskt a then some b else some a

/-- A good frame finds its crossing (R126). Of a lane that has been down, frames for crossings before its return give VOID cells (R134,
R136). -/
def ingPlace (s : State) (n : Nat) (f : Frame) : State :=
  match nearestX s.tb.n s.dskt (s.window.filter (s.names n f)) with
  | none => ingMisaligned s n
  | some x =>
    let l := s.ingLane n
    if x + s.dskt ≤ s.tb.n then ingLate s n
    else if l.placed.contains x || l.failed.contains x then ingMisaligned s n
    else s.setIngLane n { l with frames := l.frames ++ [{ x := x, frame := f, recv := s.tb.n, done := none,
                                                           dead := l.back || decide (x < l.countFrom) }],
                                 placed := l.placed ++ [x], last := some (max x (l.last.getD 0)) }

/-- A failed frame is assigned to the crossing after the last one placed or assigned (R128). -/
def ingFail (s : State) (n : Nat) : State :=
  let s := s.event Reg.ING_STAT_FAIL
  let l := s.ingLane n
  match l.last with
  | none => s
  | some p =>
    ((s.setIngLane n { l with failed := l.failed ++ [p + 1], last := some (p + 1) }).event (Reg.ING_LSTAT_FAIL n)).count
      (Reg.ING_LCNT_FAILFR n) 1

/-- The lane enters RUN: nothing is placed yet (R128), and its cells do not count before the next boundary (R136). -/
def ingRun (s : State) (n : Nat) : State := s.setIngLane n { s.ingLane n with last := none, back := true }

/-- A mapping of lane `n` completes `ph` FCLK edges after the edge that took the present slot: of the oldest frame whose
entry has opened. One that completes after its handover is late (R127). -/
def mapDone (s : State) (n ph corr : Nat) : State :=
  let l := s.ingLane n
  let s := corrected s Reg.ING_ECCCNT_CORR corr
  match l.frames.find? (fun p => p.done.isNone && decide (p.x + s.dskt ≤ s.tb.n + 4)) with
  | none => s
  | some p =>
    if p.x + s.dskt ≤ s.tb.n then
      ingLate (s.setIngLane n { l with frames := l.frames.filter fun q => !decide (q = p) }) n
    else s.setIngLane n { l with frames := l.frames.map fun q =>
      if q = p then { q with done := some (fclkAt s.tb.ps + ph) } else q }

/-- Entries open at the edge that begins X + DSKT - 4: the waits of the frames in the FIFO end (R125, R138). -/
def ingOpen (s : State) (n : Nat) : State :=
  let l := s.ingLane n
  let w := l.frames.foldl (fun a p =>
    if p.x + s.dskt = s.tb.n + 4 then max a (min 32 (s.tb.n - p.recv)) else a) l.maxWait
  if w = l.maxWait then s else s.setIngLane n { l with maxWait := w }

/-! ### The tile map (R129 to R133) -/

/-- An entry of the tile map (R130). -/
structure TileEntry where
  idx : Nat
  lane : Nat
  bitoff : Nat
  width : Nat
  sgn : Bool
  dest : Nat
  layer : Nat
  cell : Nat
  rep : Nat
  div : Bool
deriving DecidableEq, Repr

/-- Entry `i`, if in use. -/
def State.tileEntry (s : State) (i : Nat) : Option TileEntry :=
  let hi := (s.rd (Reg.ING_TMAP_HI i)).toNat
  let lo := (s.rd (Reg.ING_TMAP_LO i)).toNat
  if !(bit hi 31) then none else
  let tile := bitsOf lo 31 25
  let cell := bitsOf lo 24 19
  some { idx := i, lane := bitsOf hi 30 25, bitoff := bitsOf hi 24 10, width := bitsOf hi 9 5 + 1, sgn := bit hi 4,
         dest := bitsOf hi 3 2, layer := bitsOf hi 1 0,
         cell := 128 * (8 * (tile / 16) + cell / 8) + 8 * (tile % 16) + cell % 8,
         rep := bitsOf lo 18 17, div := bit lo 16 }

/-- The entries in use. -/
def State.tileMap (s : State) : List TileEntry := (List.range (s.fld Reg.ING_CFG_NENT)).filterMap s.tileEntry

/-- The cells of the replicated group, by key 8192l + c (R130). -/
def TileEntry.keys (e : TileEntry) : List Nat :=
  let k := 8192 * e.layer + e.cell
  match e.rep with
  | 0 => [k]
  | 1 => [k, k + 1]
  | 2 => [k, k + 128]
  | _ => [k, k + 1, k + 128, k + 129]

/-- The raw value of a field (R129, R132), shifted right where the entry divides it. -/
def TileEntry.raw (e : TileEntry) (data : Nat) : Int :=
  let v := (data >>> e.bitoff) % 2 ^ e.width
  let v : Int := if e.sgn then sext e.width v else v
  if e.div then sarI v (match e.rep with | 0 => 0 | 3 => 2 | _ => 1) else v

/-- The on-time frame of crossing `x` on lane `n`: its mapping was complete by FCLK edge `edge` (R127). -/
def State.onTime (s : State) (n x edge : Nat) : Option PendFrame :=
  (s.ingLane n).frames.find? fun p => decide (p.x = x) && (match p.done with | some d => decide (d ≤ edge) | none => false)

/-- RXVALID of lane `n` at the boundary that began the orbit of crossing `x` (R134, R136). -/
def State.rxAt (s : State) (n x : Nat) : Bool :=
  match s.ing.rxHist.find? (fun e => e.1 ≤ x) with
  | some e => e.2.contains n
  | none => false

/-- The frame that feeds crossing `x` from lane `n`, none where the lane's cells are VOID (R134). -/
def State.laneFeed (s : State) (n x : Nat) : Option Frame :=
  if s.fld Reg.TB_STAT_STATE < 2 || !(s.rxAt n x) || (s.ingLane n).failed.contains x || s.bflag x (Reg.ING_LCTL_FORCEVOID n)
  then none
  else match s.onTime n x (fclkAt s.tb.ps) with
    | none => none
    | some p =>
      if p.dead || !p.frame.fv || (bit p.frame.stat 1 && s.bflag x (Reg.ING_LCTL_ERRVOID n)) then none else some p.frame

/-- The entry reaches beyond the lane's D. -/
def State.entryBeyond (s : State) (e : TileEntry) : Bool :=
  decide (s.fld (Reg.MDR_NEG_VER e.lane) ≠ 0 ∧ s.fld (Reg.MDR_NEG_D e.lane) < e.bitoff + e.width)

def State.entryBad (s : State) (e : TileEntry) : Bool :=
  s.ecc.contains (Reg.ING_TMAP_LO e.idx) || s.ecc.contains (Reg.ING_TMAP_HI e.idx)

def RawCell.blank : RawCell := { raw := 0, void := false, sat := false, tag := false, mask := false }

/-- What one entry does to the cells of crossing `x` (R132, R134). -/
def entryCells (s : State) (feeds : List (Nat × Frame)) (m : List (Nat × RawCell)) (e : TileEntry) : List (Nat × RawCell) :=
  let f := (feeds.find? fun p => p.1 = e.lane).map (·.2)
  let put (m : List (Nat × RawCell)) (k : Nat) : List (Nat × RawCell) :=
    let c := smGet RawCell.blank m k
    let c := match f with
      | none => { c with void := true }
      | some fr =>
        if s.entryBeyond e || s.entryBad e then { c with void := true }
        else
          let b := bit fr.data e.bitoff
          match e.dest with
          | 0 => { c with raw := e.raw fr.data }
          | 1 => { c with tag := c.tag || b }
          | 2 => { c with sat := c.sat || b }
          | _ => { c with mask := c.mask || b }
    smInsert (smErase m k) k c
  e.keys.foldl put m

/-- A VOID cell has the background value and no other flag (R135); its raw value counts for nothing. -/
def RawCell.settle (c : RawCell) : RawCell := if c.void then { RawCell.blank with void := true } else c

/-- The front-end lanes. -/
def State.frontLanes (s : State) : List Nat := (List.range 48).filter fun n => decide (s.role n = 1)

/-- The handover of crossing `x` at the edge that begins the present slot (R123). The cells of the crossing are returned. -/
def handover (s : State) (x : Nat) : State × List (Nat × RawCell) :=
  let lanes := s.frontLanes
  let feeds := lanes.filterMap fun n => (s.laneFeed n x).map fun f => (n, f)
  let es := s.tileMap
  let cells := (es.foldl (entryCells s feeds) []).map fun e => (e.1, e.2.settle)
  let s0 := s
  -- entries that were met damaged, and entries beyond D
  let s := es.foldl (fun s e =>
    let s := if s0.entryBeyond e then s.event (Reg.ING_LSTAT_BEYOND e.lane) else s
    if s0.entryBad e then raiseLine ((uncorrected s Reg.ING_ECCCNT_UNCORR).event Reg.ING_STAT_ECCU) 5 else s) s
  -- the lanes' statistics, and what leaves the assembly buffer
  let s := lanes.foldl (fun s n =>
    let fed := feeds.any fun p => p.1 = n
    let s := s.setFlag (Reg.ING_LSTAT_FEED n) fed
    let s := if fed then s else countSrc (s.count (Reg.ING_LCNT2_VOIDX n) 1) (0x90 + n)
    let l := s.ingLane n
    let l := match s0.onTime n x (fclkAt s.tb.ps) with
      | some p => { l with minSlack := min l.minSlack (min (fclkAt s.tb.ps - p.done.getD 0) 0xFFFE),
                           frames := l.frames.filter fun q => !decide (q = p) }
      | none => l
    let tardy := l.frames.any fun q => decide (q.x = x) && q.done.isSome
    let l := { l with placed := l.placed.filter (x < ·), failed := l.failed.filter (x < ·),
                      frames := l.frames.filter fun q => !(decide (q.x = x) && q.done.isSome) }
    let s := s.setIngLane n l
    if tardy then ingLate s n else s) s
  let nvoid := (cells.filter fun e => e.2.void).length
  let s := s.setFld Reg.ING_VOIDSTAT_LASTVOID nvoid
  ({ s with ing := { s.ing with maxVoid := max s.ing.maxVoid nvoid } }, cells)

/-- At an orbit boundary: publish the orbit's figures (R138), and note which lanes are accepted (R134); a lane that has returned counts
from the orbit that begins (R136). -/
def ingBoundary (s : State) : State :=
  let s := s.setFld Reg.ING_VOIDSTAT_MAXVOID s.ing.maxVoid
  let rx := (List.range 48).filter fun n => s.flag (Reg.MDR_LSTAT_RXVALID n)
  let s := { s with ing := { s.ing with maxVoid := 0, rxHist := ((s.tb.n, rx) :: s.ing.rxHist).take 2200 } }
  s.frontLanes.foldl (fun s n =>
    let l := s.ingLane n
    let l := if l.back && rx.contains n then { l with back := false, countFrom := s.tb.n } else l
    let s := (s.setFld (Reg.ING_LSLACK_MAXWAIT n) l.maxWait).setFld (Reg.ING_LSLACK_MINSLACK n) l.minSlack
    s.setIngLane n { l with minSlack := 0xFFFF, maxWait := 0 }) s

end Sys2Proof.Machine
end

