-- ==== Sys2Proof/Machine/Raster.lean ====
section
/-! DEFINITION. Raster lists (R163 to R167): the entries that match a crossing, the replacement of a banked register for a
row, the commands that a slot raises. -/
namespace Sys2Proof.Machine

/-- A raster-list entry (R163). -/
structure RlEntry where
  cmd : Bool
  width : Nat
  lsb : Nat
  rowFirst : Nat
  rowLast : Nat
  /-- BAR0 offset of the target, the staged one -/
  target : Nat
  value : Nat
  /-- the entry is damaged (R167) -/
  bad : Bool
deriving DecidableEq, Repr

/-- Read an entry from four words, when it is in use and matches slot `sl`; in slots from `orblen` on only ALLSLOT entries match (R33). -/
def rlDecode (orblen sl w0 w1 w2 w3 : Nat) (bad : Bool) : Option RlEntry :=
  if bit w1 31 && (bit w1 19 || (decide (sl < orblen) && decide (bitsOf w0 15 0 ≤ sl) && decide (sl ≤ bitsOf w0 31 16))) then
    some { cmd := bit w1 30, width := bitsOf w1 29 25 + 1, lsb := bitsOf w1 24 20, rowFirst := bitsOf w1 5 0,
           rowLast := bitsOf w1 13 8, target := 4 * bitsOf w2 22 0, value := w3, bad := bad }
  else none

/-- The entries of the bank of crossing `x` that match slot `sl`, in index order. -/
def State.rlMatch (s : State) (x sl : Nat) : List RlEntry :=
  (List.range (s.fld Reg.PF_RLCFG_NENT)).filterMap fun i =>
    rlDecode (s.fld Reg.TB_ORBLEN_ORBLEN) sl (s.bank x (Reg.PF_RLW0 i)).toNat (s.bank x (Reg.PF_RLW1 i)).toNat (s.bank x (Reg.PF_RLW2 i)).toNat
      (s.bank x (Reg.PF_RLW3 i)).toNat
      (s.eccAt x (Reg.PF_RLW0 i) || s.eccAt x (Reg.PF_RLW1 i) || s.eccAt x (Reg.PF_RLW2 i) || s.eccAt x (Reg.PF_RLW3 i))

/-- The entries that match crossing `x`. -/
def State.rlOf (s : State) (x : Nat) : List RlEntry := s.rlMatch x (s.xid x).2

/-- Bits `[lsb + width - 1 : lsb]` of a word replaced. -/
def rlReplace (w : Word) (e : RlEntry) : Word := wSetField w (e.lsb + e.width - 1) e.lsb e.value

/-- A banked register for row `row` of crossing `x`, after the replacements of `es` (R164): later entries win. -/
def rlWord (s : State) (es : List RlEntry) (x row off : Nat) : Word :=
  es.foldl (fun w e =>
    if !e.cmd && !e.bad && decide (e.target = off) && decide (e.rowFirst ≤ row) && decide (row ≤ e.rowLast)
    then rlReplace w e else w) (s.bank x off)

/-- A field of it. -/
def rlFld (s : State) (es : List RlEntry) (x row : Nat) (f : Fld) : Nat := wField (rlWord s es x row f.off) f.hi f.lo

/-- Row `row` of crossing `x` is VOID for a damaged parameter entry (R167). -/
def rlRowVoid (es : List RlEntry) (row : Nat) : Bool :=
  es.any fun e => !e.cmd && e.bad && decide (e.rowFirst ≤ row) && decide (row ≤ e.rowLast)

/-- A valid FCMD of a command entry (R165). -/
def rlCmdOk (c : Nat) : Bool := decide (c = 3 ∨ (0x10 ≤ c ∧ c ≤ 0x1B))

/-- An uncorrectable raster-list entry was met (R167). -/
def rlBad (s : State) : State :=
  raiseLine ((uncorrected s Reg.PF_ECCCNT_UNCORR).event Reg.PF_STAT_RLECC) 7

/-- The commands that the live raster list raises in the present slot (R165), and what damaged command entries do. -/
def rasterCommands (s : State) : State × List Nat :=
  let es := (List.range (s.fld Reg.PF_RLCFG_NENT)).filterMap fun i =>
    rlDecode (s.fld Reg.TB_ORBLEN_ORBLEN) s.tb.slot (s.rd (Reg.PF_RLW0 i)).toNat (s.rd (Reg.PF_RLW1 i)).toNat (s.rd (Reg.PF_RLW2 i)).toNat
      (s.rd (Reg.PF_RLW3 i)).toNat ((List.range 4).any fun w => s.ecc.contains (Reg.PF_RLW0 i + 4 * w + 0x80000))
  let s := (es.filter fun e => e.cmd && e.bad).foldl (fun s _ => rlBad s) s
  (s, (es.filter fun e => e.cmd && !e.bad && rlCmdOk (e.value % 256)).map fun e => e.value % 256)

end Sys2Proof.Machine
end

