-- ==== Sys2Proof/Machine/Cnd.lean ====
section
/-! DEFINITION. Conditioning (R139 to R154): the per-cell pipeline over the raw history. -/
namespace Sys2Proof.Machine

/-- The raw sample of a cell (key 8192l + c) in crossing `n`; none when it is missing (R143). -/
def State.sample (s : State) (k n : Nat) : Option Int :=
  match s.cnd.hist.find? (fun e => e.1 = n) with
  | none => none
  | some e => match e.2.find? (fun p => p.1 = k) with
    | none => none
    | some p => if p.2.void then none else some p.2.raw

/-- A filter output: none when VOID; the value, whether it was clamped, whether a missing sample was replaced. -/
structure FiltOut where
  y : Int
  fsat : Bool
  filled : Bool
deriving DecidableEq, Repr

/-- Tap `j` of the filter at crossing `n` with the bank of `x` (R140): the coefficient and the sample. -/
def State.filtTap (s : State) (x l ph k n j : Nat) : Int × Option Int :=
  let adv := s.fld (Reg.CND_LCFG_ADV l)
  (sext 18 (s.bfld x (Reg.CND_COEF_COEF l ph j)), if n + adv < j then none else s.sample k (n + adv - j))

/-- The filter output for crossing `n`, with the bank of `x` (R140, R143, R145). -/
def State.filt (s : State) (x l ph k n : Nat) : Option FiltOut :=
  let taps := (List.range 8).map fun j => s.filtTap x l ph k n j
  let missing := taps.any fun t => decide (t.1 ≠ 0) && t.2.isNone
  if missing && !(s.bflag x (Reg.CND_LOPT_VFILL l)) then none
  else
    let acc := taps.foldl (fun a t => a + t.1 * t.2.getD 0) (0 : Int)
    let y := sarI (acc + 8192) 14
    some { y := satS 24 y, fsat := decide (satS 24 y ≠ y), filled := missing }

/-- The filter output or the raw value (R139). -/
def State.yOf (s : State) (flt : Bool) (x l ph k n : Nat) : Option FiltOut :=
  if flt then s.filt x l ph k n else (s.sample k n).map fun r => { y := r, fsat := false, filled := false }

/-- In peak finding a VOID neighbour counts as -2^23 (R143). -/
def yOr (o : Option FiltOut) : Int := match o with | some f => f.y | none => -8388608

/-- A transfer curve (R150): the output and the flag over; the entries are read through `e`. -/
def curveOut (e : Nat → Nat) (xmin : Int) (sh : Nat) (g : Int) : Nat × Bool :=
  let top : Int := ((2 ^ (12 + sh) : Nat) : Int) - 1
  let u := (clampI 0 top (g - xmin)).toNat
  let i := u / 2 ^ sh
  let f := u % 2 ^ sh
  let out : Int := if i = 4095 then (e 4095 : Int) else (e i : Int) + sarI (((e (i + 1) : Int) - (e i : Int)) * (f : Int)) sh
  (out.toNat, decide (top < g - xmin))

/-- The entry that a curve reads first for `g`. -/
def curveIdx (xmin : Int) (sh : Nat) (g : Int) : Nat :=
  (clampI 0 (((2 ^ (12 + sh) : Nat) : Int) - 1) (g - xmin)).toNat / 2 ^ sh

/-- A conditioned cell: its cell word (R155), its new pedestal estimate, and what happened on the way. -/
structure CondCell where
  word : Nat
  ped : Option Int
  fsat : Bool
  filled : Bool
  /-- a damaged item was read (R153) -/
  bad : Bool
deriving DecidableEq, Repr

/-- A cell word (R155). -/
def cellWord (void sat mask tag : Bool) (v : Nat) : Nat :=
  b2n void * 524288 + b2n sat * 262144 + b2n mask * 131072 + b2n tag * 65536 + v % 65536

/-- The VOID cell of layer `l` in the bank of `x` (R135). -/
def State.voidCell (s : State) (x l : Nat) : Nat := cellWord true false false false (s.bfld x (Reg.ING_BG_BG l))

/-- One mapped cell of crossing `x` through the pipeline of R139: `c` its raw cell, `k` its key, `ped` its estimate. -/
def condCell (s : State) (es : List RlEntry) (x k : Nat) (c : RawCell) (ped : Option Int) (pedBad : Bool) : CondCell :=
  let l := k / 8192
  let cell := k % 8192
  let row := cell / 128
  let w := (s.bank x (Reg.CND_CELL l cell)).toNat
  let stop (wd : Nat) : CondCell := { word := wd, ped := ped, fsat := false, filled := false, bad := false }
  let damaged : CondCell := { word := s.voidCell x l, ped := ped, fsat := false, filled := false, bad := true }
  if c.void then stop (s.voidCell x l)
  else if s.eccAt x (Reg.CND_CELL l cell) then damaged
  else if !(s.flag (Reg.CND_LCFG_EN l)) || !(bit w 31) then
    stop (cellWord false (c.sat || decide (65535 < c.raw)) c.mask c.tag (clampI 0 65535 c.raw).toNat)
  else
    let flt := bit w 30
    let ph := bitsOf w 29 26
    let cv := bitsOf w 25 24
    if flt && (List.range 8).any (fun j => s.eccAt x (Reg.CND_COEF l ph j)) then damaged else
    match s.yOf flt x l ph k x with
    | none => stop (s.voidCell x l)
    | some f =>
      let y := f.y
      let pk := s.flag (Reg.CND_LCFG_PK l) && bit w 11
      let y0 := s.yOf flt x l ph k (x - 1)
      let y1 := s.yOf flt x l ph k (x + 1)
      let peak := !pk || (decide (yOr y0 ≤ y) && decide (yOr y1 < y))
      -- what the filter outputs that the cell needs did: y(x), and its neighbours in peak finding
      let fsat := f.fsat || (pk && (y0.any (·.fsat) || y1.any (·.fsat)))
      let filled := f.filled || (pk && (y0.any (·.filled) || y1.any (·.filled)))
      let kk := s.bfld x (Reg.CND_LPED_K l)
      if kk ≠ 0 ∧ pedBad = true then { damaged with ped := none, fsat := fsat, filled := filled } else
      let hold := decide (rlFld s es x row (Reg.CND_LPED_HOLD l) ≠ 0)
      let v : Int := if kk = 0 then y else match ped with | none => y | some b => y - sarI (b + 32768) 16
      let ped' := if kk = 0 ∨ hold = true then ped else match ped with
        | none => some (y * 65536)
        | some b => some (b + sarI (y * 65536 - b) kk)
      if !peak then { word := cellWord false c.sat c.mask c.tag 0, ped := ped', fsat := fsat, filled := filled, bad := false }
      else
        let g := satS 24 (sarI (v * (bitsOf w 23 12 : Int) * (rlFld s es x row (Reg.CND_LGAIN_GAIN l) : Int)) 20)
        let xmin := sext 24 (s.bfld x (Reg.CND_CURVCFG_XMIN cv))
        let sh := s.bfld x (Reg.CND_CURVCFG_SH cv)
        let i := curveIdx xmin sh g
        if s.eccAt x (Reg.CND_CURVCFG cv) || s.eccAt x (Reg.CND_CURVE cv i)
            || (decide (i < 4095) && s.eccAt x (Reg.CND_CURVE cv (i + 1))) then { damaged with fsat := fsat, filled := filled }
        else
          let r := curveOut (fun e => s.bfld x (Reg.CND_CURVE_VAL cv e)) xmin sh g
          let sat := c.sat || f.fsat || r.2 || decide (s.bfld x (Reg.CND_LOPT_SATLVL l) ≤ r.1)
          { word := cellWord false sat c.mask c.tag r.1, ped := ped', fsat := fsat, filled := filled, bad := false }

/-- The mapped raw cells of crossing `x`. -/
def State.rawOf (s : State) (x : Nat) : List (Nat × RawCell) :=
  match s.cnd.hist.find? (fun e => e.1 = x) with | some e => e.2 | none => []

/-- Apply the pedestal resets that begin at or before crossing `x` (R148). -/
def pedResets (s : State) (x : Nat) : State :=
  let due := (s.cnd.pedRst.filter fun e => decide (e.2 ≤ x)).map (·.1)
  { s with cnd := { s.cnd with ped := s.cnd.ped.filter fun e => !(due.contains (e.1 / 8192)),
                               pedRst := s.cnd.pedRst.filter fun e => !decide (e.2 ≤ x) } }

/-- One cell's conditioning, folded over the crossing: its word joins `out`. -/
def condStep (s : State) (es : List RlEntry) (x : Nat) (pedBad : List Nat) (acc : State × List (Nat × Nat))
    (e : Nat × RawCell) : State × List (Nat × Nat) :=
  let st := acc.1
  let r := condCell s es x e.1 e.2 ((s.cnd.ped.find? fun p => p.1 = e.1).map (·.2)) (pedBad.contains e.1 || s.cnd.bad.contains e.1)
  let st := { st with cnd := match r.ped with
      | none => { st.cnd with ped := smErase st.cnd.ped e.1, bad := nsDel st.cnd.bad e.1 }
      | some b => { st.cnd with ped := smInsert (smErase st.cnd.ped e.1) e.1 b } }
  let st := st.eventIf r.fsat Reg.CND_STAT_FSAT
  let st := st.eventIf r.filled Reg.CND_STAT_VFILLED
  let st := if r.bad then raiseLine ((uncorrected st Reg.CND_ECCCNT_UNCORR).event Reg.CND_STAT_ECCU) 6 else st
  let st := if bit r.word 18 then st.count Reg.CND_SATCNT_SATCELLS 1 else st
  (st, acc.2 ++ [(e.1, r.word)])

/-- CND completes the oldest crossing that it has started, and passes its cells on. `corr` words were corrected, the
estimates of the cells `pedBad` met uncorrectable errors (R153). The crossing and its mapped cells are returned. -/
def conditionDone (s : State) (corr : Nat) (pedBad : List Nat) : State × Option (Nat × List (Nat × Nat)) :=
  match s.cnd.started with
  | [] => (s, none)
  | x :: rest =>
    let s := pedResets s x
    let s := corrected s Reg.CND_ECCCNT_CORR corr
    let r := (s.rawOf x).foldl (condStep s (s.rlOf x) x pedBad) (s, [])
    ({ r.1 with cnd := { r.1.cnd with started := rest } }, some (x, r.2))

/-- A crossing is handed over: it joins the raw history of 16 crossings and those behind the look-ahead (R141). -/
def condHandover (s : State) (x : Nat) (cells : List (Nat × RawCell)) : State :=
  let la := s.fld Reg.CND_CFG_LA
  let keep := 17 + la + s.cnd.started.length
  let s := { s with cnd := { s.cnd with hist := ((x, cells) :: s.cnd.hist).take keep } }
  if la ≤ x ∧ (s.cnd.hist.any fun e => e.1 = x - la) = true
  then { s with cnd := { s.cnd with started := s.cnd.started ++ [x - la] } } else s

/-- The requested pedestal resets apply from the crossing that begins now (R148). -/
def pedBoundary (s : State) : State :=
  let m := s.fld Reg.CND_CTL_PEDRST
  let ls := (List.range 4).filter (bit m)
  { s with cnd := { s.cnd with pedRst := s.cnd.pedRst ++ ls.map fun l => (l, s.tb.n) } }.setFld Reg.CND_CTL_PEDRST 0

/-- The estimate that CND_PEDSEL selects, by key. -/
def State.pedSel (s : State) : Nat := 8192 * s.fld Reg.CND_PEDSEL_LAYER + s.fld Reg.CND_PEDSEL_CELL

/-- CND_PEDVAL shows the selected estimate (R154). -/
def State.pedVal (s : State) : Word :=
  match s.cnd.ped.find? (fun p => p.1 = s.pedSel) with
  | none => 0
  | some p => BitVec.ofNat 32 (2 ^ 31 + wrapN 24 (sarI (p.2 + 32768) 16))

/-- A layer register write that clamps: K above 20 stores 20, SH above 12 stores 12 (R146, R150). -/
def cndClamp (off : Nat) (v : Word) : Word :=
  if Reg.CND_LPED 0 ≤ off ∧ off ≤ Reg.CND_LPED 3 ∧ (off - Reg.CND_LPED 0) % 0x20 = 0 then wSetField v 4 0 (min (wField v 4 0) 20)
  else if Reg.CND_CURVCFG 0 ≤ off ∧ off ≤ Reg.CND_CURVCFG 3 then wSetField v 28 24 (min (wField v 28 24) 12)
  else v

end Sys2Proof.Machine
end

