-- ==== Sys2Proof/Machine/Pf.lean ====
section
/-! DEFINITION. The playfield (R155 to R172): layers, composites, the Lake, delivery of rows, capture units. -/
namespace Sys2Proof.Machine

/-! ### Cell words -/

def cVal (w : Nat) : Nat := w % 65536
def cTag (w : Nat) : Bool := bit w 16
def cMask (w : Nat) : Bool := bit w 17
def cSat (w : Nat) : Bool := bit w 18
def cVoid (w : Nat) : Bool := bit w 19

/-- ident(op) of R159: the operand that stands for a VOID one under VPOL 1. -/
def blendIdent (op : Nat) : Nat := if op = 1 then 0xFFFF else 0

/-- The value of a blend, and whether an ADD exceeded 65,535. Codes of PF_KDEF.OP; 6 and 7 act as OR. -/
def blendVal (op a b : Nat) : Nat × Bool :=
  match op with
  | 1 => (a &&& b, false)
  | 2 => (a - (a &&& b), false)
  | 3 => (a ^^^ b, false)
  | 4 => (min (a + b) 65535, decide (65535 < a + b))
  | 5 => (max a b, false)
  | _ => (a ||| b, false)

/-- One blend of two cell words (R159). -/
def blend (op : Nat) (vpol : Bool) (bg a b : Nat) : Nat :=
  let void := if vpol then (cVoid a && cVoid b) || (cVoid a && decide (op = 2)) else cVoid a || cVoid b
  if void then cellWord true false false false bg
  else
    let a := if cVoid a then blendIdent op else a
    let b := if cVoid b then blendIdent op else b
    let r := blendVal op (cVal a) (cVal b)
    cellWord false (cSat a || cSat b || r.2) (cMask a || cMask b) (cTag a || cTag b) r.1

/-! ### The Lake (R160 to R162) -/

/-- Address of a cell of static plane `j`: the staged or the live copy. -/
def State.planeAddr (s : State) (live : Bool) (j c : Nat) : Nat :=
  (s.rd Reg.PF_SPBASE).toNat + (if live then 0x80000 else 0) + 0x8000 * j + 4 * c

/-- Address of a cell of Lake layer `j`. -/
def State.lakeAddr (s : State) (live : Bool) (j c : Nat) : Nat :=
  (s.rd Reg.PF_LAKEBASE).toNat + (if live then 0 else 0x100000) + 0x8000 * j + 4 * c

/-- A damaged word of the SRAM. -/
def State.sramBad (s : State) (a : Nat) : Bool := s.ecc.contains a

/-- The planes of Lake layer `j`, with the operator that joins each to the ones before. -/
def State.lakePlanes (s : State) (j : Nat) : List (Nat × Nat) :=
  ([(0, s.fld (Reg.PF_LAKEDEF_P0 j)), (s.fld (Reg.PF_LAKEDEF_OP1 j), s.fld (Reg.PF_LAKEDEF_P1 j)),
    (s.fld (Reg.PF_LAKEDEF_OP2 j), s.fld (Reg.PF_LAKEDEF_P2 j)),
    (s.fld (Reg.PF_LAKEDEF_OP3 j), s.fld (Reg.PF_LAKEDEF_P3 j))]).take (s.fld (Reg.PF_LAKEDEF_NPL j) + 1)

/-- Lake layer `j` is defined. -/
def State.lakeDefined (s : State) (j : Nat) : Bool := s.flag (Reg.PF_LAKEDEF_EN j) && decide (j < s.fld Reg.PF_CFG_NLAKE)

/-- A plane cell as PF reads it: bits [18:0]; the VOID bit reads 0 (R160). -/
def State.planeCell (s : State) (live : Bool) (j c : Nat) : Nat := memWord s.sram (s.planeAddr live j c) % 524288

/-- Cell `c` of Lake layer `j`, flattened from the staged or the live planes: VOID where a plane word is damaged (R162). -/
def State.flatCell (s : State) (live : Bool) (j c : Nat) : Nat :=
  let ps := s.lakePlanes j
  if ps.any fun p => s.sramBad (s.planeAddr live p.2 c) then cellWord true false false false 0
  else match ps with
    | [] => 0
    | p :: r => r.foldl (fun a q => blend q.1 false 0 a (s.planeCell live q.2 c)) (s.planeCell live p.2 c)

/-- Write the whole of Lake layer `j` (its staged or live copy) from the planes. The plane words met damaged are counted
once each (R162); the layer's own damaged words are rewritten. -/
def flatten (s : State) (live : Bool) (j : Nat) : State :=
  let cs := List.range 8192
  let s0 := s
  let s := { s with sram := cs.foldl (fun m c => memPutWord m (s0.lakeAddr live j c) (s0.flatCell live j c)) s.sram,
                    ecc := s.ecc.filter fun a => !decide (s0.lakeAddr live j 0 ≤ a ∧ a < s0.lakeAddr live j 8192) }
  let ps := ((s0.lakePlanes j).map (·.2)).foldl nsAdd []
  let bad := cs.foldl (fun a c => a + (ps.filter fun p => s0.sramBad (s0.planeAddr live p c)).length) 0
  if bad = 0 then s
  else raiseLine ((countUncorr (s.count Reg.PF_ECCCNT_UNCORR bad)).event Reg.PF_STAT_ECCU) 7

/-- The lowest stale layer (R161). -/
def State.nextStale (s : State) : Option Nat := (List.range 32).find? (bit (s.fld Reg.PF_LAKESTAT_STALE))

/-- Re-flattening starts when none runs (R161). -/
def startFlatten (s : State) : State :=
  if s.pf.flattening.isSome then s else { s with pf := { s.pf with flattening := s.nextStale } }

/-- A staged write to plane `p` makes every staged Lake layer that names it stale (R161). -/
def markStale (s : State) (p : Nat) : State :=
  let m := (List.range 32).foldl (fun a j =>
    if s.lakeDefined j && (s.lakePlanes j).any (fun q => q.2 = p) then a ||| 2 ^ j else a) (s.fld Reg.PF_LAKESTAT_STALE)
  startFlatten (s.setFld Reg.PF_LAKESTAT_STALE m)

/-- A static plane's staged copy holds address `a`. -/
def State.inPlane (s : State) (a : Nat) : Bool :=
  decide ((s.rd Reg.PF_SPBASE).toNat ≤ a ∧ a < (s.rd Reg.PF_SPBASE).toNat + 0x8000 * s.fld Reg.PF_CFG_NSP)

/-- A plane's word as it is stored: a cell word has 20 bits and a plane's VOID bit is always 0 (R155, R160). -/
def planeWord (v : Nat) : Nat := v % 524288

/-- A master's write of one word of the staged planes (R39, R160, R161): discarded while the bank is locked or copied. -/
def planeWrite (s : State) (a : Nat) (v : Word) : State :=
  let base := (s.rd Reg.PF_SPBASE).toNat
  if base ≤ a ∧ a < base + 0x8000 * s.fld Reg.PF_CFG_NSP then
    if s.stagedOpen then
      markStale { s with sram := memPutWord s.sram a (planeWord v.toNat), ecc := nsDel s.ecc a } ((a - base) / 0x8000)
    else s.event Reg.GBL_FLIPSTAT_WDROP
  else s

/-- The re-flatten that runs ends: its layer is no longer stale, and the next one starts (R161). `corr` plane words were corrected (R162). -/
def reflattenDone (s : State) (corr : Nat) : State :=
  match s.pf.flattening with
  | none => s
  | some j =>
    let s := flatten (corrected s Reg.PF_ECCCNT_CORR corr) false j
    let m := s.fld Reg.PF_LAKESTAT_STALE
    startFlatten ({ s with pf := { s.pf with flattening := none } }.setFld Reg.PF_LAKESTAT_STALE
      (if bit m j then m - 2 ^ j else m))

/-- The rewrite of live Lake layer `j` ends (R162). -/
def rewriteDone (s : State) (j corr : Nat) : State :=
  if s.pf.rewriting.contains j then
    let s := corrected s Reg.PF_ECCCNT_CORR corr
    flatten { s with pf := { s.pf with rewriting := nsDel s.pf.rewriting j } } true j
  else s

/-- PF_STAT.LAKEBUSY. -/
def State.lakeBusy (s : State) : Bool := s.pf.flattening.isSome || decide (s.pf.rewriting ≠ [])

/-- The Lake copy that crossing `x` reads is the live one (R37). -/
def State.lakeLive (s : State) (x : Nat) : Bool := !(s.flip.oldBank && decide (x < s.flip.since))

/-- Cell `c` of Lake layer `j` cannot be read for crossing `x`: its word is damaged (R162). -/
def State.lakeHurt (s : State) (x j c : Nat) : Bool := s.sramBad (s.lakeAddr (s.lakeLive x) j c)

/-- Cell `c` of Lake layer `j` for crossing `x`; VOID where the word is damaged (R162). -/
def State.lakeCell (s : State) (x j c : Nat) : Nat :=
  if s.lakeHurt x j c then cellWord true false false false 0 else memWord s.sram (s.lakeAddr (s.lakeLive x) j c) % 1048576

/-! ### Layers and composites of a crossing (R156 to R159) -/

/-- Cell (r, c) lies in the anchor rectangle of a region dropped for crossing `x` (R461). -/
def State.droppedAt (s : State) (x r c : Nat) : Bool :=
  s.obj.drops.any fun d =>
    decide (d.2 ≤ x) && decide (wField d.1 31 26 ≤ r ∧ r ≤ wField d.1 25 20 ∧ wField d.1 19 13 ≤ c ∧ c ≤ wField d.1 12 6)

/-- Cell (r, c) is VOID in every layer and composite (R167, R461). -/
def State.cellGone (s : State) (es : List RlEntry) (x r c : Nat) : Bool := rlRowVoid es r || s.droppedAt x r c

/-- A cell of layer `l` of a crossing (R156). -/
def State.layerCell (s : State) (es : List RlEntry) (pc : PfCross) (l r c : Nat) : Nat :=
  let k := 128 * r + c
  if s.cellGone es pc.x r c then s.voidCell pc.x l
  else match s.fld (Reg.PF_LCFG_SRC l) with
    | 1 => match pc.cells.find? (fun e => e.1 = 8192 * l + k) with
      | some e => e.2
      | none => cellWord false false false false (s.bfld pc.x (Reg.ING_BG_BG l))
    | 2 =>
      let w := s.lakeCell pc.x (s.fld (Reg.PF_LCFG_LAKE l)) k
      if cVoid w then s.voidCell pc.x l else w
    | _ => 0

/-- The word that a source code names (R158), of the composites computed so far. -/
def State.srcCell (s : State) (es : List RlEntry) (pc : PfCross) (ks : List (Nat × Bool)) (r c code : Nat) : Nat :=
  if code < 4 then s.layerCell es pc code r c
  else if 8 ≤ code ∧ code < 16 then (ks.getD (code - 8) (0, false)).1
  else if 0x20 ≤ code ∧ code < 0x40 then
    (if s.cellGone es pc.x r c then cellWord true false false false 0 else s.lakeCell pc.x (code - 0x20) (128 * r + c))
  else 0

/-- The cell that a source code names depends on a Lake cell that cannot be read (R162). -/
def State.srcHurt (s : State) (pc : PfCross) (ks : List (Nat × Bool)) (r c code : Nat) : Bool :=
  if code < 4 then decide (s.fld (Reg.PF_LCFG_SRC code) = 2) && s.lakeHurt pc.x (s.fld (Reg.PF_LCFG_LAKE code)) (128 * r + c)
  else if 8 ≤ code ∧ code < 16 then (ks.getD (code - 8) (0, false)).2
  else if 0x20 ≤ code ∧ code < 0x40 then s.lakeHurt pc.x (code - 0x20) (128 * r + c)
  else false

/-- The composites of one cell, in index order (R158, R159), each with whether it depends on a Lake cell that cannot be read: it is then
VOID whatever VPOL (R162). -/
def State.composites (s : State) (es : List RlEntry) (pc : PfCross) (r c : Nat) : List (Nat × Bool) :=
  (List.range (min 8 (s.fld Reg.PF_CFG_NK))).foldl (fun ks k =>
    let bg := rlFld s es pc.x r (Reg.PF_KDEF_BG k)
    let hurt := s.flag (Reg.PF_KSRC_EN k) &&
      (s.srcHurt pc ks r c (s.fld (Reg.PF_KSRC_ASRC k)) || s.srcHurt pc ks r c (s.fld (Reg.PF_KSRC_BSRC k)))
    let w :=
      if !(s.flag (Reg.PF_KSRC_EN k)) then 0
      else if hurt || s.cellGone es pc.x r c then cellWord true false false false bg
      else blend (rlFld s es pc.x r (Reg.PF_KDEF_OP k)) (decide (rlFld s es pc.x r (Reg.PF_KDEF_VPOL k) ≠ 0)) bg
        (s.srcCell es pc ks r c (s.fld (Reg.PF_KSRC_ASRC k))) (s.srcCell es pc ks r c (s.fld (Reg.PF_KSRC_BSRC k)))
    ks ++ [(w, hurt)]) []

/-- Row `r` of a source, over the swept columns. -/
def State.rowOf (s : State) (es : List RlEntry) (pc : PfCross) (r code : Nat) : List Nat :=
  (List.range (s.fld Reg.PF_CFG_NCOLS)).map fun c => s.srcCell es pc (s.composites es pc r c) r c code

/-- A source code names a defined layer or composite (R168, R170). -/
def State.srcDefined (s : State) (code : Nat) : Bool :=
  decide (code < 4) || (decide (8 ≤ code ∧ code < 8 + s.fld Reg.PF_CFG_NK) && s.flag (Reg.PF_KSRC_EN (code - 8)))

/-- Channel `j` of PF_BCAST or PF_SRVSEL: its source when in use. -/
def chanSrc (w : Word) (j : Nat) : Option Nat := if w.getLsbD (8 * j + 7) then some (wField w (8 * j + 5) (8 * j)) else none

/-- Lake layers that the crossing's layers and composites read. -/
def State.lakesUsed (s : State) : List Nat :=
  let ls := (List.range 4).filterMap fun l => if s.fld (Reg.PF_LCFG_SRC l) = 2 then some (s.fld (Reg.PF_LCFG_LAKE l)) else none
  let ks := (List.range (min 8 (s.fld Reg.PF_CFG_NK))).flatMap fun k =>
    [s.fld (Reg.PF_KSRC_ASRC k), s.fld (Reg.PF_KSRC_BSRC k)].filterMap fun c =>
      if 0x20 ≤ c ∧ c < 0x40 then some (c - 0x20) else none
  (ls ++ ks).foldl nsAdd []

/-- The damaged Lake words that row `r` of crossing `x` reads (R162): counted, reported, and the live layer rewritten. -/
def lakeDamage (s : State) (x r : Nat) : State :=
  let hits := s.lakesUsed.flatMap fun j => (List.range (s.fld Reg.PF_CFG_NCOLS)).filterMap fun c =>
    if s.sramBad (s.lakeAddr (s.lakeLive x) j (128 * r + c)) then some j else none
  hits.foldl (fun s j =>
    let s := raiseLine ((uncorrected s Reg.PF_ECCCNT_UNCORR).event Reg.PF_STAT_ECCU) 7
    { s with pf := { s.pf with rewriting := nsAdd s.pf.rewriting j } }) s

/-! ### Capture units (R170, R171) -/

def State.capture (s : State) (k : Nat) : Capture := smGet Capture.idle s.pf.captures k

def State.setCapture (s : State) (k : Nat) (c : Capture) : State :=
  { s with pf := { s.pf with captures := smSet Capture.idle s.pf.captures k c } }

/-- A write of PF_WMCTL: ARM is set-only; a source that names nothing clears it at once. -/
def wmctlWrite (s : State) (k : Nat) (v : Word) : State :=
  let armed := s.flag (Reg.PF_WMCTL_ARM k)
  let s := (((s.setFlag (Reg.PF_WMCTL_ANYSLOT k) (v.getLsbD 30)).setFld (Reg.PF_WMCTL_ROW k) (wField v 29 24)).setFld
    (Reg.PF_WMCTL_SRC k) (wField v 21 16)).setFld (Reg.PF_WMCTL_SLOT k) (wField v 15 0)
  if v.getLsbD 31 && !armed && s.srcDefined (wField v 21 16) then
    -- the handover of x + LA, at slot x + LA + DSKT, falls at least one slot after the write
    (s.setCapture k { from_ := s.tb.n + 1 - (s.fld Reg.CND_CFG_LA + s.dskt), run := none }).setFld (Reg.PF_WMCTL_ARM k) 1
  else s

/-- At row 0 of crossing `x`: an armed unit that matches begins. -/
def captureBegin (s : State) (x k : Nat) : State :=
  let c := s.capture k
  let sl := (s.xid x).2
  if s.flag (Reg.PF_WMCTL_ARM k) && c.run.isNone && decide (c.from_ ≤ x) &&
      (s.flag (Reg.PF_WMCTL_ANYSLOT k) || decide (s.fld (Reg.PF_WMCTL_SLOT k) = sl)) then
    let s := s.setCapture k { c with run := some (x, s.fld (Reg.PF_WMCTL_SRC k), s.fld (Reg.PF_WMCTL_ROW k)) }
    ((s.setFld (Reg.PF_WMXID_ORBIT_L k) (s.xid x).1).setFld (Reg.PF_WMXID_SLOT k) sl).setFld (Reg.PF_WMSTAT_BUSY k) 1
  else s

/-- Unit `k` takes row `r` of the crossing it captures; its events (R171). -/
def captureRow (s : State) (es : List RlEntry) (pc : PfCross) (r k : Nat) : State :=
  match (s.capture k).run with
  | none => s
  | some (x, src, row) =>
    if x ≠ pc.x then s else
    let a := (s.rd (Reg.PF_WMBASE k)).toNat
    let cells := s.rowOf es pc r src
    let s := { s with sram := memStore s.sram (a + 512 * r) (cells.map wordBytes).flatten,
                      ecc := s.ecc.filter fun e => !decide (a + 512 * r ≤ e ∧ e < a + 512 * r + 4 * cells.length) }
    let last := decide (r + 1 = s.fld Reg.PF_CFG_NROWS)
    let s := if r = row || (last && decide (s.fld Reg.PF_CFG_NROWS ≤ row)) then devEvent s (192 + k) (Reg.PF_WMSTAT_ROWEV k) else s
    if last then
      let s := devEvent s (200 + k) (Reg.PF_WMSTAT_DONE k)
      ((s.setCapture k Capture.idle).setFld (Reg.PF_WMSTAT_BUSY k) 0).setFld (Reg.PF_WMCTL_ARM k) 0
    else s

/-! ### Delivery (R168) -/

/-- CND passes crossing `x` on. -/
def pfReceive (s : State) (x : Nat) (cells : List (Nat × Nat)) : State :=
  { s with pf := { s.pf with cross := s.pf.cross ++
      [{ x := x, cells := cells, rows := 0, chans := List.replicate (s.fld Reg.REL_CFG_BCAST) [] }] } }

/-- The crossing whose row PF delivers next: the first that is not complete (R168). -/
def State.sweeping (s : State) : Option PfCross := s.pf.cross.find? fun p => decide (p.rows < s.fld Reg.PF_CFG_NROWS)

/-- One beat: row `rows` of the crossing goes to the engines and the replay buffer, and to the capture units. -/
def rowBeat (s : State) (pc : PfCross) (corr : Nat) : State :=
  let es := s.rlOf pc.x
  let r := pc.rows
  let s := corrected s Reg.PF_ECCCNT_CORR corr
  let s := if r = 0 then (List.range 8).foldl (fun s k => captureBegin s pc.x k)
      ((es.filter fun e => !e.cmd && e.bad).foldl (fun s _ => rlBad s) s) else s
  let s := lakeDamage s pc.x r
  -- the replay buffer lets go of the crossing that this broadcast overwrites (R63)
  let depth := 64 / max 1 (s.fld Reg.REL_CFG_BCAST)
  let s := if r = 0 then { s with pf := { s.pf with cross := s.pf.cross.filter fun p => decide (pc.x < p.x + depth) } } else s
  let bc := s.rd Reg.PF_BCAST
  let chans := (List.range pc.chans.length).map fun j =>
    pc.chans.getD j [] ++ [match chanSrc bc j with | some code => s.rowOf es pc r code | none => []]
  let pc' := { pc with rows := r + 1, chans := chans }
  let s := { s with pf := { s.pf with cross := s.pf.cross.map fun p => if p.x = pc.x then pc' else p } }
  (List.range 8).foldl (fun s k => captureRow s es pc r k) s

/-- A cell of broadcast channel `ch` of a crossing, 0 outside the swept area (R176). -/
def chanCell (pc : PfCross) (ch : Nat) (r c : Int) : Nat :=
  if r < 0 ∨ c < 0 then 0 else ((pc.chans.getD ch []).getD r.toNat []).getD c.toNat 0

end Sys2Proof.Machine
end

