-- ==== Sys2Proof/Machine/Stencil.lean ====
section
/-! DEFINITION. What an object engine computes (R173 to R184): regions, sums, the local-maximum test, candidates, object
words; the sorter's order (R186, R187). -/
namespace Sys2Proof.Machine

/-- The region that a pair holds for a crossing: its number, anchor rectangle and class set. -/
structure Region where
  owner : Nat
  preg : Word
  cls : Nat
deriving DecidableEq, Repr

/-- OBJ_PSTAT.STATE: 0 active, 1 spare and free, 2 spare holding a region, 3 retired. -/
def State.pairState (s : State) (p : Nat) : Nat := s.fld (Reg.OBJ_PSTAT_STATE p)

/-- The pair holds a region now. -/
def State.holds (s : State) (p : Nat) : Bool := decide (s.pairState p = 0) || decide (s.pairState p = 2)

def State.pairCls (s : State) (p : Nat) : Nat := (s.rd (Reg.OBJ_PCLS_LO p)).toNat + 2 ^ 32 * (s.rd (Reg.OBJ_PCLS_HI p)).toNat

/-- The region that pair `p` holds for crossing `x`: the one before the first change that came after `x` (R191). -/
def State.regionAt (s : State) (p x : Nat) : Option Region :=
  match s.obj.old.find? (fun o => decide (o.pair = p) && decide (x < o.until_)) with
  | some o => if o.held then some { owner := o.owner, preg := o.preg, cls := o.clsLo.toNat + 2 ^ 32 * o.clsHi.toNat } else none
  | none =>
    if s.holds p then
      some { owner := s.fld (Reg.OBJ_PSTAT_OWNER p), preg := s.rd (Reg.OBJ_PREG p), cls := s.pairCls p }
    else none

/-! ### Sums (R178, R179) -/

/-- A pane (R177). -/
structure Pane where
  role : Nat
  ch : Nat
  prow : Nat
  pcol : Nat
  h : Nat
  w : Nat
deriving DecidableEq, Repr

def pane (w : Word) : Pane :=
  { role := wField w 31 30, ch := wField w 29 28, prow := wField w 27 24, pcol := wField w 23 20,
    h := wField w 19 16 + 1, w := wField w 15 12 + 1 }

/-- The panes of class `c`. -/
def State.panes (s : State) (c : Nat) : List Pane :=
  (List.range (s.fld (Reg.OBJ_CCFG_NPM1 c) + 1)).map fun j => pane (s.rd (Reg.OBJ_PANE c j))

/-- The cells of a pane at an anchor. -/
def State.paneCells (s : State) (pc : PfCross) (c : Nat) (p : Pane) (ar ac : Int) : List Nat :=
  let r0 : Int := ar - s.fld (Reg.OBJ_CCFG_AR c) + p.prow
  let c0 : Int := ac - s.fld (Reg.OBJ_CCFG_AC c) + p.pcol
  (List.range p.h).flatMap fun i => (List.range p.w).map fun j => chanCell pc p.ch (r0 + (i : Nat)) (c0 + (j : Nat))

/-- What a VOID cell contributes (R179). -/
def voidVal (vpol role v : Nat) : Nat :=
  match vpol with
  | 0 => v
  | 3 => if role = 1 then 0 else 65535
  | _ => 0

/-- The sums of a position (R178). -/
structure Sums where
  per : List Nat
  core : Nat
  ring : Nat
  veto : Nat
  vcore : Bool
  vring : Bool
  sat : Bool
deriving DecidableEq, Repr

/-- Weight of pane `j` for crossing `x`; crossing-scoped (R193). -/
def State.weight (s : State) (es : List RlEntry) (x c j : Nat) : Nat :=
  wField (rlWord s es x 0 (Reg.OBJ_WGT c)) (4 * j + 3) (4 * j)

/-- All the sums of class `c` at an anchor. -/
def State.sums (s : State) (es : List RlEntry) (pc : PfCross) (c : Nat) (ar ac : Int) : Sums :=
  let vpol := s.bfld pc.x (Reg.OBJ_COPT_VPOL c)
  let parts := s.panes c |>.zipIdx |>.map fun (p, j) =>
    let cells := s.paneCells pc c p ar ac
    let sum := cells.foldl (fun a w => a + (if cVoid w then voidVal vpol p.role (cVal w) else cVal w)) 0
    (p.role, sum * s.weight es pc.x c j, cells.any cVoid, cells.any cSat)
  let add (role : Nat) : Nat := (parts.filter fun q => decide (q.1 = role)).foldl (fun a q => a + q.2.1) 0
  { per := parts.map (·.2.1), core := add 1, ring := add 2, veto := add 3,
    vcore := parts.any fun q => decide (q.1 = 1) && q.2.2.1,
    vring := parts.any fun q => decide (q.1 = 2 ∨ q.1 = 3) && q.2.2.1,
    sat := parts.any fun q => decide (q.1 = 1) && q.2.2.2 }

/-! ### The local maximum (R180) and candidates (R181, R182) -/

/-- The offsets of the neighbours within `n` rows and columns. -/
def neighbours (n : Nat) : List (Int × Int) :=
  (List.range (2 * n + 1)).flatMap fun i => (List.range (2 * n + 1)).filterMap fun j =>
    if i = n ∧ j = n then none else some ((i : Int) - n, (j : Int) - n)

/-- A position lies in the swept area (R157). -/
def State.swept (s : State) (r c : Int) : Bool :=
  decide (0 ≤ r ∧ r < s.fld Reg.PF_CFG_NROWS ∧ 0 ≤ c ∧ c < s.fld Reg.PF_CFG_NCOLS)

/-- R180. -/
def State.localMax (s : State) (es : List RlEntry) (pc : PfCross) (c : Nat) (ar ac : Int) (core : Nat) : Bool :=
  (neighbours (s.fld (Reg.OBJ_CCFG_LMR c))).all fun (dr, dc) =>
    !(s.swept (ar + dr) (ac + dc)) ||
      (let o := (s.sums es pc c (ar + dr) (ac + dc)).core
       if dr < 0 ∨ (dr = 0 ∧ dc < 0) then decide (o ≤ core) else decide (o < core))

/-- Does a cell collide (R182)? A VOID cell never does. -/
def collides (src thr w : Nat) : Bool :=
  !cVoid w && (match src with
    | 0 => decide (thr ≤ cVal w)
    | 1 => cTag w
    | 2 => cMask w
    | _ => cSat w)

/-- COLL (R182). -/
def State.layerColl (s : State) (pc : PfCross) (c : Nat) (ar ac : Int) : Bool :=
  s.bflag pc.x (Reg.OBJ_COPT_COLEN c) && ((s.panes c).filter fun p => decide (p.role = 1)).any fun p =>
    (s.paneCells pc c { p with ch := s.fld (Reg.OBJ_CCFG_COLCH c) } ar ac).any
      (collides (s.fld (Reg.OBJ_CCFG_COLSRC c)) (s.bfld pc.x (Reg.OBJ_COPT_COLTHR c)))

/-- The candidate at an anchor, if the position is one (R181). -/
def State.candidate (s : State) (es : List RlEntry) (pc : PfCross) (c r col : Nat) : Option Cand :=
  let q := s.sums es pc c r col
  let x := pc.x
  let vthr := rlFld s es x r (Reg.OBJ_VETOTHR_THR c)
  let vetoed := decide (vthr < q.veto)
  if !(s.localMax es pc c r col q.core) || decide (q.core < rlFld s es x r (Reg.OBJ_CORETHR_THR c))
      || (decide (s.bfld x (Reg.OBJ_COPT_VPOL c) = 2) && q.vcore) || (s.bflag x (Reg.OBJ_COPT_VETODROP c) && vetoed) then none
  else
    let sh := s.bfld x (Reg.OBJ_COPT_SHFRAC c)
    some { cls := c, row := r, col := col, core := q.core, ring := q.ring, vcore := q.vcore, vring := q.vring, sat := q.sat,
           veto := vetoed, iso := decide (q.ring * 16 ≤ s.bfld x (Reg.OBJ_COPT_ISOFRAC c) * q.core),
           coll := s.layerColl pc c r col,
           shape := (List.range 4).foldl (fun a j =>
             if j < q.per.length ∧ sh * q.core ≤ q.per.getD j 0 * 16 then a + 2 ^ j else a) 0 }

/-! ### A region's words (R175, R189) -/

/-- Anchor (r, c) lies in a rectangle given as OBJ_CAREA and OBJ_PREG give it. -/
def inRect (w : Word) (r c : Nat) : Bool :=
  decide (wField w 31 26 ≤ r ∧ r ≤ wField w 25 20 ∧ wField w 19 13 ≤ c ∧ c ≤ wField w 12 6)

/-- Positions (class, row, column) of a region below anchor row `lim`, in sweep order, by class at equal positions. -/
def State.positions (s : State) (g : Region) (lim : Nat) : List (Nat × Nat × Nat) :=
  let rf := wField g.preg 31 26
  let rl := wField g.preg 25 20
  let cf := wField g.preg 19 13
  let cl := wField g.preg 12 6
  (rangeFrom rf (min (rl + 1) lim - rf)).flatMap fun r => (rangeFrom cf (cl + 1 - cf)).flatMap fun c =>
    (List.range 64).filterMap fun k =>
      if bit g.cls k && s.flag (Reg.OBJ_CCFG_EN k) && inRect (s.rd (Reg.OBJ_CAREA k)) r c then some (k, r, c) else none

/-- Rows that must follow an anchor row before the region's classes can be judged there (R175). -/
def State.lookDown (s : State) (g : Region) : Nat :=
  (List.range 64).foldl (fun a k => if bit g.cls k then
    max a (s.fld (Reg.OBJ_CCFG_LMR k) + s.fld (Reg.OBJ_CCFG_SHM1 k) + 1 - s.fld (Reg.OBJ_CCFG_AR k)) else a) 1

/-- The words that a healthy member emits for a region, as far as the rows delivered allow: the candidates, and the end word
when every row has arrived. DEDUCED (log 27): the CRC runs over the region's own positions, sums most significant byte
first. -/
def State.engineWords (s : State) (g : Region) (pc : PfCross) : List EWord :=
  let es := s.rlOf pc.x
  let nrows := s.fld Reg.PF_CFG_NROWS
  let whole := decide (nrows ≤ pc.rows)
  let lim := if whole then 64 else pc.rows + 1 - s.lookDown g
  let ps := s.positions g lim
  let cs := ps.filterMap fun (k, r, c) => s.candidate es pc k r c
  let words := cs.map EWord.cand
  if whole then
    words ++ [.fin cs.length (crc32 (beBytes (ps.flatMap fun (k, r, c) =>
      let q := s.sums es pc k r c
      [q.core, q.ring, q.veto])))]
  else words

/-! ### Collection and ranking (R183, R184, R186, R187) -/

/-- Place in the sweep, by class at equal positions. -/
def candPlace (c : Cand) : Nat := (c.row * 128 + c.col) * 64 + c.cls

/-- Insert by place. -/
def candInsert (c : Cand) : List Cand → List Cand
  | [] => [c]
  | d :: r => if candPlace c < candPlace d then c :: d :: r else d :: candInsert c r

def candSort : List Cand → List Cand
  | [] => []
  | c :: r => candInsert c (candSort r)

/-- The core footprint of class `c` at an anchor, clipped to the swept area: first and last row, first and last column. -/
def State.footprint (s : State) (c r col : Nat) : Int × Int × Int × Int :=
  let ps := (s.panes c).filter fun p => decide (p.role = 1)
  let r0 : Int := (r : Int) - s.fld (Reg.OBJ_CCFG_AR c)
  let c0 : Int := (col : Int) - s.fld (Reg.OBJ_CCFG_AC c)
  let lo (f : Pane → Nat) : Nat := ps.foldl (fun a p => min a (f p)) 64
  let hi (f : Pane → Nat) : Nat := ps.foldl (fun a p => max a (f p)) 0
  (max 0 (r0 + lo (·.prow)), min ((s.fld Reg.PF_CFG_NROWS : Int) - 1) (r0 + hi (fun p => p.prow + p.h - 1)),
   max 0 (c0 + lo (·.pcol)), min ((s.fld Reg.PF_CFG_NCOLS : Int) - 1) (c0 + hi (fun p => p.pcol + p.w - 1)))

/-- Two footprints share a painted cell. -/
def overlap (a b : Int × Int × Int × Int) : Bool :=
  decide (max a.1 b.1 ≤ min a.2.1 b.2.1 ∧ max a.2.2.1 b.2.2.1 ≤ min a.2.2.2 b.2.2.2)

/-- OCOLL of an object among the collected ones (R183). -/
def State.ocoll (s : State) (x : Nat) (all : List Cand) (c : Cand) : Bool :=
  let m := (s.bank x (Reg.OBJ_OOMASK_LO c.cls)).toNat + 2 ^ 32 * (s.bank x (Reg.OBJ_OOMASK_HI c.cls)).toNat
  all.any fun d => !decide (candPlace d = candPlace c) && bit m d.cls &&
    overlap (s.footprint c.cls c.row c.col) (s.footprint d.cls d.row d.col)

/-- The object word (R184). -/
def objectWord (cshift : Nat) (c : Cand) (ocoll : Bool) : Nat :=
  c.cls * 2 ^ 58 + c.row * 2 ^ 52 + c.col * 2 ^ 45 + min (c.core / 2 ^ cshift) (2 ^ 20 - 1) * 2 ^ 25
    + min (c.ring / 2 ^ cshift) (2 ^ 14 - 1) * 2 ^ 11 + b2n c.vcore * 1024 + b2n c.vring * 512 + b2n c.sat * 256
    + b2n c.veto * 128 + b2n c.iso * 64 + b2n c.coll * 32 + b2n ocoll * 16 + c.shape

/-- Does `a` rank strictly before `b` by the sums of KEY (R187)? -/
def ranksBefore (key : Nat) (a b : Cand) : Bool :=
  match key with
  | 0 => decide (b.core < a.core)
  | 1 => decide (b.core - b.ring < a.core - a.ring)
  | 2 => (a.iso && !b.iso) || (decide (a.iso = b.iso) && decide (b.core < a.core))
  | _ => decide (a.ring < b.ring) || (decide (a.ring = b.ring) && decide (b.core < a.core))

/-- Insert into a ranked list, behind its equals: of equals the earlier in the sweep stays first. -/
def rankInsert (key : Nat) (c : Cand × Bool) : List (Cand × Bool) → List (Cand × Bool)
  | [] => [c]
  | d :: r => if ranksBefore key c.1 d.1 then c :: d :: r else d :: rankInsert key c r

/-- Rank objects given in sweep order. -/
def rank (key : Nat) (cs : List (Cand × Bool)) : List (Cand × Bool) := cs.foldl (fun l c => rankInsert key c l) []

/-- The sorter's output for a crossing (R187). -/
def State.classLists (s : State) (x : Nat) (objs : List (Cand × Bool)) : List ClassList :=
  (List.range (s.fld Reg.OBJ_CFG_NCLS)).map fun c =>
    let mine := objs.filter fun o => decide (o.1.cls = c)
    { cls := c, ncand := mine.length, objs := (rank (s.bfld x (Reg.OBJ_COPT_KEY c)) mine).take 64 }

/-- A class header (R187). -/
def classHeader (l : ClassList) (ovf : Bool) : Nat :=
  l.cls * 2 ^ 58 + l.ncand * 2 ^ 47 + l.objs.length * 2 ^ 40 + b2n ovf * 2 ^ 39

/-- The 64-bit words of a crossing's object lists, headers first in each class. -/
def State.listWords (s : State) (ls : List ClassList) (ovf : Bool) : List Nat :=
  ls.flatMap fun l => classHeader l ovf :: l.objs.map fun o => objectWord (s.fld (Reg.OBJ_CCFG_CSHIFT l.cls)) o.1 o.2

end Sys2Proof.Machine
end

