-- ==== Sys2Proof/Machine/Obj.lean ====
section
/-! DEFINITION. Pairs, checkers, replay and takeover (R63 to R66, R186 to R192, R457, R458, R460): what the emitted words
lead to. -/
namespace Sys2Proof.Machine

def ObjWork.start (p x : Nat) : ObjWork := { pair := p, x := x, a := [], b := [], mism := false, result := none }

/-- A pair's work on a crossing. -/
def State.objWork (s : State) (p x : Nat) : ObjWork :=
  (s.obj.work.find? fun w => decide (w.pair = p ∧ w.x = x)).getD (ObjWork.start p x)

def State.setWork (s : State) (w : ObjWork) : State :=
  { s with obj := { s.obj with work := (s.obj.work.filter fun v => !decide (v.pair = w.pair ∧ v.x = w.x)) ++ [w] } }

/-- The end word stands last. -/
def ended (ws : List EWord) : Bool := match ws.getLast? with | some (.fin _ _) => true | _ => false

/-- The candidates of a sequence. -/
def candsOf (ws : List EWord) : List Cand := ws.filterMap fun w => match w with | .cand c => some c | .fin _ _ => none

/-- One sequence is a beginning of the other. -/
def agrees : List EWord → List EWord → Bool
  | [], _ => true
  | _, [] => true
  | a :: r, b :: t => decide (a = b) && agrees r t

/-- The members' words differ so far, or one sequence is longer (R189). -/
def differ (a b : List EWord) : Bool :=
  !(agrees a b) || (ended a && decide (a.length < b.length)) || (ended b && decide (b.length < a.length))

/-- Free spares (R65): pairs that hold no region. -/
def State.freeSpares (s : State) : List Nat := (rangeFrom 256 32).filter fun p => decide (s.pairState p = 1)

/-- The replay in use for a region. A spare that has taken the region over finishes the replays it has, and takes no further one (R191). -/
def State.replayOf (s : State) (region : Nat) : Option ReplayUse :=
  s.rel.replays.find? fun u => decide (u.region = region) && !(s.holds u.spare)

/-- A spare is in use for replay. -/
def State.inUse (s : State) (p : Nat) : Bool := s.rel.replays.any fun u => decide (u.spare = p)

/-- Mark a pair for the next boundary (R457); the first mark stands. -/
def markPair (s : State) (p mark : Nat) : State :=
  if s.flt.marks.any fun m => decide (m.1 = p) then s
  else ({ s with flt := { s.flt with marks := s.flt.marks ++ [(p, mark)] } }).setFld Reg.FLT_REDSTAT_PEND (s.flt.marks.length + 1)

/-- What the replay registers show (R65, R67). -/
def showReplays (s : State) : State :=
  let s := s.setFld Reg.REL_RPLSTAT_INFLIGHT s.rel.replays.length
  s.setFlag Reg.REL_STAT_RPLACT (s.rel.replays.any fun u => decide (u.crossings ≠ []))

/-- Replay in flight for crossing `x` on every stream, when started before the primary deadline (R52, R64). -/
def markReplay (s : State) (x : Nat) : State :=
  s.streams.foldl (fun s st => let e := s.relEntry st x
    if e.late then s else s.setRel st { e with replay := true }) s

/-- Spare `sp` takes a replay of crossing `x` for pair `p` (R64, R65). -/
def assignReplay (s : State) (sp region p x : Nat) : State :=
  let us := match s.replayOf region with
    | some v => s.rel.replays.map fun u => if u = v then { u with crossings := u.crossings ++ [(x, p)] } else u
    | none => s.rel.replays ++ [{ spare := sp, region := region, crossings := [(x, p)] }]
  let s := { s with rel := { s.rel with replays := us } }
  let s := (s.count Reg.REL_RPLCNT_REPLAYS 1).setFld (Reg.OBJ_PSTAT_RPL sp) 1
  let s := countSrc (markReplay s x) 0x1C5
  showReplays (s.setWork (ObjWork.start sp x))

/-- No spare can be used (R65). -/
def replayFull (s : State) (p : Nat) : State :=
  let s := (s.event Reg.REL_STAT_RPLFULL).count Reg.REL_RPLCNT_FULL 1
  if s.freeSpares = [] then markPair s p 2 else s

/-- Start a replay of crossing `x` of pair `p`, if REL can (R64 to R66). -/
def startReplay (s : State) (p x : Nat) : State :=
  if !(s.flag Reg.REL_CFG_REDUN) then s else
  match s.regionAt p x with
  | none => s
  | some g =>
    match s.replayOf g.owner with
    | some u => assignReplay s u.spare g.owner p x
    | none =>
      match (s.freeSpares.filter fun q => !(s.inUse q)).head? with
      | some sp => if s.rel.replays.length < 4 then assignReplay s sp g.owner p x else replayFull s p
      | none => replayFull s p

/-- The pair for which spare `p` replays crossing `x`. -/
def State.replayBy (s : State) (p x : Nat) : Option Nat :=
  match s.rel.replays.find? (fun u => decide (u.spare = p)) with
  | none => none
  | some u => (u.crossings.find? fun e => decide (e.1 = x)).map (·.2)

/-- A checker mismatch (R190); that of a spare in a replay marks both pairs (R458). -/
def mismatch (s : State) (p x : Nat) : State :=
  let s := s.setWork { s.objWork p x with mism := true }
  let s := ((s.event (Reg.OBJ_PSTAT_MISM p)).event Reg.OBJ_STAT_MISM).count Reg.OBJ_MISCNT_MISM 1
  let s := (((s.wr Reg.OBJ_LASTMIS 0).setFld Reg.OBJ_LASTMIS_PAIR p).setFld Reg.OBJ_LASTMIS_SLOT (s.xid x).2)
  let s := countSrc (raiseLine s (42 + p / 32)) 0x1C6
  match s.replayBy p x with
  | some q => markPair (markPair s q 2) p 3
  | none => startReplay s p x

/-- The words that pair `p` computes for crossing `x`: its own region's, or the one it replays. -/
def State.wordsFor (s : State) (p x : Nat) : Option (List EWord) :=
  match s.pf.cross.find? (fun c => c.x = x) with
  | none => none
  | some pc =>
    match s.replayBy p x with
    | some q => (s.regionAt q x).map fun g => s.engineWords g pc
    | none => (s.regionAt p x).map fun g => s.engineWords g pc

/-- Both end words are in and match: the region's candidates go to the collector, or wait for the vote. -/
def checkWork (s : State) (p x : Nat) : State :=
  let w := s.objWork p x
  if w.mism then s
  else if differ w.a w.b then mismatch s p x
  else if ended w.a && ended w.b && (s.replayBy p x).isNone then s.setWork { w with result := some (candsOf w.a) }
  else s

/-- A wrong word in the place of another: `v` says how its sum or its CRC differs. -/
def spoilWord (v : Nat) : EWord → EWord
  | .cand c => .cand { c with core := (c.core + 1 + v % (2 ^ 32 - 1)) % 2 ^ 32 }
  | .fin n crc => .fin n ((crc + 1 + v % (2 ^ 32 - 1)) % 2 ^ 32)

/-- The word that a member emits for the right word `e`, if any: `upset` where a faulty engine emits that, and after an uncorrectable error
always a wrong word (R192), a free one where `upset` gives none (log 24). -/
def emitted (s : State) (e : Option EWord) (upset : Option EWord) (uncorr : Bool) : Option EWord × State :=
  match e with
  | none => (upset, s)
  | some w =>
    if uncorr && decide (upset.getD w = w) then (some (spoilWord s.fresh.1.toNat w), s.fresh.2) else (some (upset.getD w), s)

/-- Member B (`mb`) or A of pair `p` emits its next word for crossing `x`; `upset` is what a faulty engine emits in its
place, `uncorr` that the fault was an uncorrectable ECC error; the engine corrected `corr` errors on the way (R189, R192). -/
def engineWord (s : State) (p : Nat) (mb : Bool) (x : Nat) (upset : Option EWord) (uncorr : Bool) (corr : Nat) : State :=
  match s.wordsFor p x with
  | none => s
  | some ws =>
    let w := s.objWork p x
    let mine := if mb then w.b else w.a
    if ended mine then s else
    match emitted s ws[mine.length]? upset uncorr with
    | (none, s) => s
    | (some e, s) =>
      let s := corrected s Reg.OBJ_ECCCNT_CORR corr
      let s := if uncorr then (uncorrected s Reg.OBJ_ECCCNT_UNCORR).event Reg.OBJ_STAT_ECCU else s
      checkWork (s.setWork (if mb then { w with b := w.b ++ [e] } else { w with a := w.a ++ [e] })) p x

/-- CHKTO passes after one member's end word without the other's (R189). -/
def checkerTimeout (s : State) (p x : Nat) : State :=
  let w := s.objWork p x
  if !w.mism && (ended w.a != ended w.b) then mismatch s p x else s

/-- The verdict of a vote: the region's candidates when there is a majority, and VERDICT (R64, R190). -/
def verdict (a b sp : List EWord) (spareBad : Bool) : Option (List Cand) × Nat :=
  if spareBad then (none, 3)
  else if ended a && ended b then
    (if sp = a then (some (candsOf sp), 2) else if sp = b then (some (candsOf sp), 1) else (none, 3))
  else if ended a then (if sp = a then (some (candsOf sp), 2) else (none, 3))
  else if ended b then (if sp = b then (some (candsOf sp), 1) else (none, 3))
  else (none, 3)

/-- The vote on crossing `x` of pair `p` (R64, R65, R190, R191): the spare has ended, or has disagreed with itself. -/
def replayVote (s : State) (p x : Nat) : State :=
  match s.rel.replays.find? (fun u => u.crossings.contains (x, p)) with
  | none => s
  | some u =>
    let sw := s.objWork u.spare x
    if !(sw.mism || (ended sw.a && ended sw.b)) then s else
    let w := s.objWork p x
    let (res, v) := verdict w.a w.b sw.a sw.mism
    let s := s.setWork { w with result := res }
    let s := if s.fld Reg.OBJ_LASTMIS_PAIR = p ∧ s.fld Reg.OBJ_LASTMIS_SLOT = (s.xid x).2
             then s.setFld Reg.OBJ_LASTMIS_VERDICT v else s
    let s := if v = 1 ∨ v = 2 then
        let s := if s.flt.firstReplay.any (fun e => decide (e.1 = p)) then s
                 else { s with flt := { s.flt with firstReplay := s.flt.firstReplay ++ [(p, u.spare)] } }
        markPair s p 1
      else s
    let s := { s with obj := { s.obj with work := s.obj.work.filter fun w => !decide (w.pair = u.spare ∧ w.x = x) },
                      rel := { s.rel with replays := s.rel.replays.map fun q =>
                        if q = u then { q with crossings := q.crossings.filter fun y => !decide (y.1 = x) } else q } }
    showReplays s

/-- Spares whose last replay has been voted are no longer in use once the slot of that vote is over (R65). -/
def releaseReplays (s : State) : State :=
  let done := s.rel.replays.filter fun u => decide (u.crossings = [])
  let s := { s with rel := { s.rel with replays := s.rel.replays.filter fun u => !decide (u.crossings = []) } }
  if done = [] then s else showReplays (done.foldl (fun s u => s.setFld (Reg.OBJ_PSTAT_RPL u.spare) 0) s)

/-! ### Collection and sorting (R186 to R188) -/

/-- The pairs that hold a region for crossing `x`. -/
def State.holdersAt (s : State) (x : Nat) : List Nat := (List.range 288).filter fun p => (s.regionAt p x).isSome

/-- Every end word is in: order the candidates, keep the first 1,024 (R186). -/
def collect (s : State) (x : Nat) : State :=
  let ps := s.holdersAt x
  let rs := ps.map fun p => (s.objWork p x).result
  if rs.any (·.isNone) || s.obj.results.any (fun r => decide (r.x = x)) || (s.pf.cross.all fun c => !decide (c.x = x)) then s
  else
    let all := candSort (rs.flatMap fun r => r.getD [])
    let kept := all.take 1024
    let ovf := decide (1024 < all.length)
    let s := if ovf then (s.event Reg.OBJ_STAT_OBJOVF).count Reg.OBJ_OVFCNT_OVF 1 else s
    { s with obj := { s.obj with
        work := s.obj.work.filter fun w => !decide (w.x = x),
        results := s.obj.results ++ [{ x := x, ovf := ovf, objs := kept.map fun c => (c, s.ocoll x kept c), lists := none }] } }

/-- The voter's output (R187, R188): `dissent` is 0 when the three copies agree, 1 when one dissents, 2 when all differ. -/
def sortDone (s : State) (x dissent : Nat) : State :=
  match s.obj.results.find? (fun r => decide (r.x = x)) with
  | none => s
  | some r =>
    if r.lists.isSome then s else
    let s := if dissent = 0 then s else raiseLine (s.event Reg.OBJ_STAT_SVOTE) 8
    if 2 ≤ dissent then { s with obj := { s.obj with results := s.obj.results.filter fun q => !decide (q.x = x) } }
    else
      let s := (((s.wr Reg.OBJ_NOBJ 0).setFld Reg.OBJ_NOBJ_SLOT (s.xid x).2).setFlag Reg.OBJ_NOBJ_OVF r.ovf).setFld
        Reg.OBJ_NOBJ_COUNT r.objs.length
      { s with obj := { s.obj with results := s.obj.results.map fun q =>
          if q.x = x then { q with lists := some (s.classLists x r.objs) } else q } }

/-! ### Retirement at the boundary (R191, R457, R460) -/

/-- Remember what pair `p` held until the crossing that begins now. -/
def keepOld (s : State) (p : Nat) : State :=
  { s with obj := { s.obj with old := s.obj.old ++ [{
      until_ := s.tb.n, pair := p, held := s.holds p, owner := s.fld (Reg.OBJ_PSTAT_OWNER p), preg := s.rd (Reg.OBJ_PREG p),
      clsLo := s.rd (Reg.OBJ_PCLS_LO p), clsHi := s.rd (Reg.OBJ_PCLS_HI p) }] } }

/-- Give pair `q` the region of pair `p`. -/
def giveRegion (s : State) (p q : Nat) : State :=
  let s := keepOld s q
  let st := if s.pairState q = 1 then 2 else s.pairState q
  let own := s.fld (Reg.OBJ_PSTAT_OWNER p)
  let s := ((s.wr (Reg.OBJ_PREG q) (s.rd (Reg.OBJ_PREG p))).wr (Reg.OBJ_PCLS_LO q) (s.rd (Reg.OBJ_PCLS_LO p))).wr
    (Reg.OBJ_PCLS_HI q) (s.rd (Reg.OBJ_PCLS_HI p))
  (s.setFld (Reg.OBJ_PSTAT_STATE q) st).setFld (Reg.OBJ_PSTAT_OWNER q) own

/-- The retired pairs whose region pair `p` has held show where it has gone: to pair `q`, or 0x1FF when it is dropped (R194). -/
def passOwner (s : State) (p q : Nat) : State :=
  (List.range 288).foldl (fun s r =>
    if s.pairState r = 3 ∧ s.fld (Reg.OBJ_PSTAT_OWNER r) = p then s.setFld (Reg.OBJ_PSTAT_OWNER r) q else s) s

/-- Retire pair `p`; `holder` now holds its region, 0x1FF when there is none (R457, R466). It evaluates no class any more (R194); that the
region it shows is then 0 is DEDUCED (log 47). -/
def retire (s : State) (p mark holder : Nat) : State :=
  let s := passOwner (keepOld s p) p holder
  let s := ((s.wr (Reg.OBJ_PREG p) 0).wr (Reg.OBJ_PCLS_LO p) 0).wr (Reg.OBJ_PCLS_HI p) 0
  let s := (s.setFld (Reg.OBJ_PSTAT_STATE p) 3).setFld (Reg.OBJ_PSTAT_OWNER p) holder
  ((s.setFld Reg.FLT_LASTRET_PAIR p).setFld Reg.FLT_LASTRET_MARK mark).setFld Reg.FLT_LASTRET_HOLDER holder

/-- Region `r` with anchor rectangle `preg` is dropped from the crossing that begins now (R460, R461). -/
def dropRegion (s : State) (r : Nat) (preg : Word) : State :=
  let s := { s with obj := { s.obj with drops := s.obj.drops ++ [(preg, s.tb.n)] } }
  (s.setFld ⟨Reg.FLT_DROP (r / 32), r % 32, r % 32⟩ 1).setFld Reg.FLT_REDSTAT_DROPPED (s.fld Reg.FLT_REDSTAT_DROPPED + 1)

/-- The pair that holds region `q` now. -/
def State.holderOf (s : State) (q : Nat) : Option Nat :=
  (List.range 288).find? fun p => s.holds p && decide (s.fld (Reg.OBJ_PSTAT_OWNER p) = q)

/-- A pair is marked for this boundary. -/
def marked (ms : List (Nat × Nat)) (p : Nat) : Bool := ms.any fun m => decide (m.1 = p)

/-- The entry of the degradation plan that applies to region `r` (R460): the region that is given up, and its holder when it
is another one. -/
def State.degrade (s : State) (ms : List (Nat × Nat)) (r : Nat) : Option (Nat × Option Nat) :=
  ((List.range 256).filterMap fun i =>
    if !(s.flag (Reg.FLT_DEGR_EN i)) then none
    else
      let q := s.fld (Reg.FLT_DEGR_REGION i)
      if q = r then some (r, none)
      else match s.holderOf q with
        | some h => if marked ms h then none else some (q, some h)
        | none => none).head?

/-- Settle one marked pair (R457). One that is retired already, and was marked by a crossing of an earlier orbit, stays as it is. -/
def settlePair (ms : List (Nat × Nat)) (s : State) (m : Nat × Nat) : State :=
  let p := m.1
  if s.pairState p = 3 then s
  else if !(s.holds p) then retire s p m.2 0x1FF else
  let frees := s.freeSpares.filter fun q => !(marked ms q)
  let first := (s.flt.firstReplay.find? fun e => decide (e.1 = p)).map (·.2)
  let pick := match first with
    | some q => if m.2 = 1 ∧ frees.contains q = true then some q else frees.head?
    | none => frees.head?
  match pick with
  | some q => retire (giveRegion s p q) p m.2 q
  | none =>
    let s := raiseLine s 61
    let r := s.fld (Reg.OBJ_PSTAT_OWNER p)
    match s.degrade ms r with
    | some (q, some h) =>
      let s := passOwner (dropRegion s q (s.rd (Reg.OBJ_PREG h))) h 0x1FF
      retire (giveRegion s p h) p m.2 h
    | _ => retire (dropRegion s r (s.rd (Reg.OBJ_PREG p))) p m.2 0x1FF

/-- What the pool registers show. -/
def showPool (s : State) : State :=
  let free := s.freeSpares.length
  let gone := ((List.range 288).filter fun p => decide (s.pairState p = 3)).length
  let s := (s.setFld Reg.OBJ_SPARE_FREE free).setFld Reg.OBJ_SPARE_RETIRED gone
  (s.setFld Reg.FLT_REDSTAT_FREE free).setFlag Reg.OBJ_STAT_NOSPARE (decide (free = 0))

/-- Insert a mark by pair number. -/
def markInsert (m : Nat × Nat) : List (Nat × Nat) → List (Nat × Nat)
  | [] => [m]
  | a :: r => if m.1 ≤ a.1 then m :: a :: r else a :: markInsert m r

/-- The redundancy manager at an orbit boundary (R457): the marked pairs in ascending order. -/
def settle (s : State) : State :=
  if s.flt.marks = [] then { s with flt := { s.flt with firstReplay := [] } }
  else
    let ms := s.flt.marks.foldl (fun l m => markInsert m l) []
    let s := ms.foldl (settlePair ms) s
    let s := { s with flt := { s.flt with marks := [], firstReplay := [] } }
    showPool (s.setFld Reg.FLT_REDSTAT_PEND 0)

/-- The image's assignment (R173): each active pair holds the region of its own number, each spare is free. -/
def assignPairs (s : State) : State :=
  let s := (List.range 256).foldl (fun s p =>
    (s.setFld (Reg.OBJ_PSTAT_STATE p) 0).setFld (Reg.OBJ_PSTAT_OWNER p) p) s
  let s := (rangeFrom 256 32).foldl (fun s p =>
    (s.setFld (Reg.OBJ_PSTAT_STATE p) 1).setFld (Reg.OBJ_PSTAT_OWNER p) 0x1FF) s
  showPool s

end Sys2Proof.Machine
end

