-- ==== Sys2Proof/Machine/Cvl.lean ====
section
/-! DEFINITION. The Ochre converter block (R285 to R308): converter cells, comparators and trips, PWM pairs with quiet masks,
loops and microstepping. Times are in eighths of a picosecond on the axis of `TbState.ps` (log 32). -/
namespace Sys2Proof.Machine

def State.loopX (s : State) (i : Nat) : LoopX := smGet LoopX.idle s.cvl.loops i

def State.setLoop (s : State) (i : Nat) (x : LoopX) : State :=
  { s with cvl := { s.cvl with loops := smSet LoopX.idle s.cvl.loops i x } }

/-! ### Trip groups (R290, R291) -/

/-- CVL_TRIPST word `w` (R308). -/
def State.tripWord (s : State) (w : Nat) : Word :=
  BitVec.ofNat 32 ((List.range 32).foldl (fun a j => if s.groupTripped (32 * w + j) then a + 2 ^ j else a) 0)

/-- Signal PWM j: pair j / 2, output A when even. While PD92 is down no counter runs and every signal reads its safe level (R442). -/
def State.pwmSignal (s : State) (j : Nat) : Bool := s.pwmOut (j / 2) (decide (j % 2 = 0))

/-- The loops that the image defines, and the outputs of loop `i`: pairs and cell (R301). -/
def State.loopList (s : State) : List Nat := (List.range (s.fld Reg.CVL_CFG_NLOOP)).filter fun i => s.flag (Reg.CVL_LCFG_EN i)

def State.loopPairs (s : State) (i : Nat) : List Nat :=
  let o := s.fld (Reg.CVL_LCFG_OIDX i)
  match s.fld (Reg.CVL_LCFG_OMODE i) with
  | 0 => [o]
  | 1 => [o, o + 1]
  | _ => []

def State.loopCell (s : State) (i : Nat) : Option Nat :=
  if s.fld (Reg.CVL_LCFG_OMODE i) = 2 then some (s.fld (Reg.CVL_LCFG_OIDX i)) else none

/-- Loop `i` is held (R302), also while PD91 is isolated (R442). -/
def State.loopHeld (s : State) (i : Nat) : Bool :=
  decide (s.fld (Reg.CVL_LCFG_OMODE i) ≠ 3) &&
    (s.safe || !(s.up 91) || (s.loopPairs i).any s.pairTripped || (match s.loopCell i with | some n => s.cellTripped n | none => false))

/-- The loops that are held now remember it until their next sample (R302). -/
def noteHeld (s : State) : State :=
  s.loopList.foldl (fun s i => if s.loopHeld i then s.setLoop i { s.loopX i with held := true } else s) s

/-- The pairs of a forced state stay at their safe levels until their next period start (R291, R306). -/
def noteForced (s : State) : State :=
  s.pairList.foldl (fun s m => if s.pairTripped m || s.safe then s.setPwm m { s.pwm m with forced := true, hit := (s.pwm m).hit || s.pairTripped m } else s) s

/-- Group `g` trips by comparator `k` (1000: a damaged item, R307). -/
def trip (s : State) (k g : Nat) (cyc : Bool) : State :=
  let was := s.groupTripped g
  let s := withBlanks (s.pairList.filter fun m => decide (s.pairGroup m = some g)) (fun s =>
    if cyc then { s with cvl := { s.cvl with cycle := (s.cvl.cycle.filter fun e => !decide (e = (k, g))) ++ [(k, g)] } }
    else { s with cvl := { s.cvl with latched := (s.cvl.latched.filter fun e => !decide (e = (k, g))) ++ [(k, g)] } }) s
  let s := noteHeld (noteForced s)
  let s := if was then s else countSrc s (0x240 + g)
  let s := devEvent s 213 Reg.CVL_STAT_TRIP
  if cyc then s else raiseLine s 15

/-- Comparator `k`'s level (R288). -/
def State.cmpLevel (s : State) (k : Nat) : Bool := bit (s.fld (Reg.CVL_CMPLVL_LVL (k / 32))) (k % 32)

def setCmp (s : State) (k : Nat) (b : Bool) : State := s.setFlag ⟨Reg.CVL_CMPLVL (k / 32), k % 32, k % 32⟩ b

/-- Comparator `k`, at input `uv` microvolts, is active (R288): an even one above its threshold, an odd one below. The hysteresis delays
the return to inactive (log 32). -/
def State.cmpOver (s : State) (k uv : Nat) : Bool :=
  let thr := s.fld (Reg.CVL_CMPCFG_THR k) * 1800000
  let hyst := if s.cmpLevel k then [0, 5000, 10000, 20000].getD (s.fld (Reg.CVL_CMPCFG_HYST k)) 0 * 1024 else 0
  if k % 2 = 0 then decide (thr < uv * 1024 + hyst) else decide (uv * 1024 < thr + hyst)

/-- Comparator `k` acts: it trips its group when enabled and outside blanking (R290). -/
def cmpAct (s : State) (k : Nat) : State :=
  if s.up 92 && s.cmpLevel k && s.flag (Reg.CVL_CMPCFG_TEN k) && !(s.cvl.blank.contains k)
  then trip s k (s.fld (Reg.CVL_CMPCFG_GRP k)) (s.flag (Reg.CVL_CMPCFG_CYC k)) else s

/-- Comparator `k` compares its input with its threshold: it becomes active and acts (R288, R290), or is inactive, and its cycle trips
end (R291). A comparator whose input nothing has given yet shows nothing; an unpowered one is inactive (R442). -/
def cmpSense (s : State) (k : Nat) : State :=
  match s.cvl.ain.find? (fun e => decide (e.1 = k)) with
  | none => s
  | some e =>
    if !(s.up 91) then s
    else if s.cmpOver k e.2 then (if s.cmpLevel k then s else cmpAct (setCmp s k true) k)
    else
      let s := setCmp s k false
      { s with cvl := { s.cvl with cycle := s.cvl.cycle.filter fun e => !decide (e.1 = k) } }

/-- The input of comparator `k`, pin AN(k / 2), moves to `uv` microvolts. -/
def cmpInput (s : State) (k uv : Nat) : State :=
  cmpSense { s with cvl := { s.cvl with ain := (s.cvl.ain.filter fun e => !decide (e.1 = k)) ++ [(k, uv)] } } k

/-- Every comparator compares anew: its settings or its power have changed (R288, R305). -/
def cmpSenseAll (s : State) : State := s.cvl.ain.foldl (fun s e => cmpSense s e.1) s

/-- Its blanking window ends (R289). -/
def blankEnd (s : State) (k : Nat) : State :=
  if s.cvl.blank.contains k then
    let s := { s with cvl := { s.cvl with blank := nsDel s.cvl.blank k } }
    if s.up 91 then cmpAct s k else s
  else s

/-- A write of CVL_TRIPCLR: latched trips whose comparator is inactive end (R291). -/
def tripClear (s : State) (hi : Bool) (mask : Nat) : State :=
  if s.safe then s
  else { s with cvl := { s.cvl with latched := s.cvl.latched.filter fun e =>
    !(decide (e.2 / 32 = b2n hi) && bit mask (e.2 % 32) && !(decide (e.1 < 96) && s.cmpLevel e.1)) } }

/-! ### Cells (R285 to R287) -/

/-- The code of an ADC cell's last conversion. -/
def State.cellRes (s : State) (n : Nat) : Nat := s.fld (Reg.CVL_CRES_CODE n)

/-- The code that a DAC or echo cell drives (R287, R304, R306); without PD92 the sources 0b01 and 0b10 give code 0 (R442). -/
def State.cellCode (s : State) (n : Nat) : Nat :=
  let mode := s.fld (Reg.CVL_CCFG_MODE n)
  let src := s.fld (Reg.CVL_CCFG_DSRC n)
  if mode < 2 ∨ s.safe = true ∨ s.cellTripped n = true ∨ decide (s.fld Reg.GBL_STATE_STATE = 3 ∨ s.fld Reg.GBL_STATE_STATE = 6) = false then 0
  else if src % 3 ≠ 0 ∧ s.up 92 = false then 0
  else match src with
    | 1 => smGet 0 s.cvl.loopCode (s.fld (Reg.CVL_CCFG_DIDX n))
    | 2 => smGet 0 s.cvl.busCode n
    | _ => s.fld (Reg.CVL_CDAC_CODE n)

/-- What pin AN n is to its cell (R285, R442). -/
inductive CellPin where
  /-- high impedance -/
  | off
  /-- sampled -/
  | sampled
  /-- driven with a code -/
  | driven (code : Nat)
deriving DecidableEq, Repr

def State.cellPin (s : State) (n : Nat) : CellPin :=
  if !(s.up 91) || decide (s.fld (Reg.CVL_CCFG_MODE n) = 0) then .off
  else if s.fld (Reg.CVL_CCFG_MODE n) = 1 then .sampled else .driven (s.cellCode n)

/-- The loop that names cell `n`. -/
def State.loopOfCell (s : State) (n : Nat) : Option Nat := s.loopList.find? fun i => decide (s.fld (Reg.CVL_LCFG_CELL i) = n)

/-- A conversion delivers a code to CVL_CRES (R286). -/
def convResult (s : State) (n code : Nat) : State :=
  (s.setFld (Reg.CVL_CRES_SEQ n) (s.fld (Reg.CVL_CRES_SEQ n) + 1)).setFld (Reg.CVL_CRES_CODE n) code

/-- A trigger of cell `n`, the pin at `code`: dropped while a conversion runs (R286). The second component says that it was taken. -/
def convTrigger (s : State) (n code : Nat) : State × Bool :=
  if s.fld (Reg.CVL_CCFG_MODE n) ≠ 1 then (s, false)
  else if s.cvl.conv.any fun e => decide (e.1 = n) then ((s.event (Reg.CVL_CRES_OVR n)).event Reg.CVL_STAT_OVR, false)
  else ({ s with cvl := { s.cvl with conv := s.cvl.conv ++ [(n, code % 16384)] } }, true)

/-- A free-running cell's trigger: no loop names the cell (R285). -/
def convFree (s : State) (n code : Nat) : State :=
  if s.up 91 && decide (n < 48) && (s.loopOfCell n).isNone then (convTrigger s n code).1 else s

/-- A conversion ends (R286). -/
def convDone (s : State) (n : Nat) : State :=
  match s.cvl.conv.find? (fun e => decide (e.1 = n)) with
  | some e => convResult { s with cvl := { s.cvl with conv := s.cvl.conv.filter fun e => !decide (e.1 = n) } } n e.2
  | none => s

/-- An echo cell reads back its driven code (R285). -/
def echoConv (s : State) (n : Nat) : State :=
  if s.up 91 && decide (n < 48) && decide (s.fld (Reg.CVL_CCFG_MODE n) = 3) then convResult s n (s.cellCode n) else s

/-! ### PWM waveforms (R292 to R298) -/

/-- A fine unit of pair `m` in eighths of a picosecond: 78.125 ps at DIV 0 (R292). -/
def State.fine (s : State) (m : Nat) : Nat := 625 * 2 ^ s.fld (Reg.CVL_PCFG_DIV m)

/-- The FCLK edge that takes the present slot-clock edge, on this axis. -/
def State.slotT (s : State) : Nat := (s.tb.ps + 1249) / 1250 * 10000

/-- Period length in fine units. -/
def PwmVals.pl (v : PwmVals) : Nat := 16 * v.per

/-- Where W rises and falls for duty `d` (R293). -/
def refEdges (align pl d : Nat) : Nat × Nat :=
  match align with
  | 1 => ((pl - d) / 2, (pl - d) / 2 + d)
  | 2 => (pl - d, pl)
  | _ => (0, d)

/-- The duty of this period's reference waveform (R293); the account belongs to output A's (log 32). -/
def State.pwmD (s : State) (m : Nat) (second : Bool) : Nat :=
  let x := s.pwm m
  let duty := min (if second then x.cur.dutyB else x.cur.dutyA) x.cur.pl
  if s.flag (Reg.CVL_PCFG_QEN m) && !second then (clampI 0 x.cur.pl ((duty : Int) + x.acct)).toNat else duty

/-- The live values of pair `m`; a duty that a loop or unit drives is kept (R294, R305). -/
def State.pairDriven (s : State) (m : Nat) : Bool :=
  s.loopList.any (fun i => (s.loopPairs i).contains m) ||
  (List.range 16).any fun u => s.flag (Reg.CVL_MSCFG_EN u) && decide (s.fld (Reg.CVL_MSCFG_PAIR0 u) ≤ m ∧ m < s.fld (Reg.CVL_MSCFG_PAIR0 u) + 4)

def State.pairVals (s : State) (m : Nat) : PwmVals :=
  let driven := s.pairDriven m
  { per := max 2 (s.fld (Reg.CVL_PPER_PER m)), dutyA := if driven then (s.pwm m).pend.dutyA else s.fld (Reg.CVL_PDUTYA_DUTY m),
    dutyB := if driven then (s.pwm m).pend.dutyB else s.fld (Reg.CVL_PDUTYB_DUTY m), dta := s.fld (Reg.CVL_PDT_DTA m),
    dtb := s.fld (Reg.CVL_PDT_DTB m), align := s.fld (Reg.CVL_PCTL_ALIGN m) }

/-- Slot `sl` is sensitive for pair `m` (R297, R299); the slots of a damaged word are (R307), and those from TB_ORBLEN on (R33). -/
def State.sensitive (s : State) (m sl : Nat) : Bool :=
  let off := Reg.CVL_QMASK (s.fld (Reg.CVL_PCFG_QSEL m)) (sl / 32)
  decide (2 ≤ s.tbState) && (decide (s.fld Reg.TB_ORBLEN_ORBLEN ≤ sl) || bit (s.rd off).toNat (sl % 32) || s.ecc.contains (off + 0x80000))

/-- The FCLK edge that takes the slot-clock edge `k` slots after the present one, on this axis, the slot clock going on as it does. -/
def State.slotAt (s : State) (k : Nat) : Nat := (s.tb.ps + k * s.tb.per + 1249) / 1250 * 10000

/-- Time `t` lies in a zone of pair `m` (R297): in a sensitive slot, or within QGUARD cycles before one that is to come. -/
def State.inZone (s : State) (m t : Nat) : Bool :=
  let guard := s.fld (Reg.CVL_PCTL_QGUARD m) * 10000
  s.flag (Reg.CVL_PCFG_QEN m) && decide (2 ≤ s.tbState) &&
    (if t < s.slotT then s.sensitive m (s.tb.slot - 1) else s.sensitive m s.tb.slot) ||
  s.flag (Reg.CVL_PCFG_QEN m) && decide (2 ≤ s.tbState) &&
    (List.range (guard / (8 * max 1 s.tb.per) + 2)).any fun k =>
      decide (s.slotAt k ≤ t + guard ∧ t < s.slotAt k) && s.sensitive m ((s.tb.slot + k) % max 1 (s.fld Reg.TB_ORBLEN_ORBLEN))

/-- At one time falls come first, then the rises of the reference waveforms, then delayed rises: an output whose delayed rise is
not before its next fall does not rise (R294). -/
def PwmEv.order : PwmEv → Nat
  | .fall _ => 0
  | .rise _ => 1
  | _ => 2

/-- Insert an edge in order. -/
def edgeInsert (e : PwmEdge) : List PwmEdge → List PwmEdge
  | [] => [e]
  | h :: r => if e.t < h.t || (decide (e.t = h.t) && decide (e.ev.order < h.ev.order)) then e :: h :: r else h :: edgeInsert e r

/-- Drop the edges that `p` names. -/
def PwmX.drop (x : PwmX) (p : PwmEv → Bool) : PwmX :=
  { x with edges := x.edges.filter (fun e => !(p e.ev)), waits := x.waits.filter fun e => !(p e) }

/-- High time of W up to `t` is taken into account (R298). -/
def PwmX.accrue (x : PwmX) (fine t : Nat) : PwmX :=
  if x.w then { x with high := x.high + (t - x.since) / fine, since := t } else x

/-- What an edge does at time `t`: `f` a fine unit, `comp` complementary mode, `r`, `fl` the nominal rise and fall of this
period's waveform (R294, R297). -/
def PwmX.produce (x : PwmX) (fine t : Nat) (comp : Bool) (nominal : Bool → Nat × Nat) : PwmEv → PwmX
  | .rise second =>
    let n := nominal second
    let fallAt := x.start + n.2 * fine + (t - (x.start + n.1 * fine))
    let x := x.drop (fun e => decide (e = .fall second) || decide (e = .rise second))
    let moved := t - (x.start + n.1 * fine)
    let x := if second then { x with shift2 := moved, risen2 := true } else { x with shift := moved, risen := true, wAt := t }
    let x := { x with edges := edgeInsert { t := fallAt, ev := .fall second } x.edges }
    if second then { x with w2 := true, b := true }
    else
      let x := if x.w then x else { x with w := true, since := t }
      if comp then
        let x := { x.drop (fun e => decide (e = .bRise)) with b := false }
        { x with edges := edgeInsert { t := t + x.cur.dta * fine, ev := .aRise } x.edges }
      else { x with a := true }
  | .fall second =>
    if second then { x with w2 := false, b := false }
    else
      let x := { x.accrue fine t with w := false, a := false, wAt := t }
      if comp then
        let x := x.drop (fun e => decide (e = .aRise))
        { x with edges := edgeInsert { t := t + x.cur.dtb * fine, ev := .bRise } x.edges }
      else x
  | .aRise => { x with a := x.w }
  | .bRise => { x with b := !x.w }

/-- Nominal rise and fall of pair `m`'s waveforms. -/
def State.nominal (s : State) (m : Nat) (second : Bool) : Nat × Nat :=
  refEdges (s.pwm m).cur.align (s.pwm m).cur.pl (s.pwmD m second)

def State.complementary (s : State) (m : Nat) : Bool := decide (s.fld (Reg.CVL_PCFG_MODE m) = 1)

/-- Produce one edge of pair `m`. -/
def pwmProduce (s : State) (m t : Nat) (ev : PwmEv) : State :=
  withBlanks [m] (fun s => s.setPwm m ((s.pwm m).produce (s.fine m) t (s.complementary m) (s.nominal m) ev)) s

/-- The counter reaches the next edge position: the edge is produced, or deferred inside a zone (R294, R297). -/
def pwmEdge (s : State) (m : Nat) : State :=
  let x := s.pwm m
  match x.edges with
  | [] => s
  | e :: rest =>
    if !x.run || !(s.up 92) then s
    else
      let s := s.setPwm m { x with edges := rest }
      if s.inZone m e.t then s.setPwm m { s.pwm m with waits := (s.pwm m).waits ++ [e.ev] }
      else pwmProduce s m e.t e.ev

/-- The edges due before time `t` are produced. `fuel` bounds them. -/
def pwmOverdue (t : Nat) : Nat → Nat → State → State
  | 0, _, s => s
  | fuel + 1, m, s => match (s.pwm m).edges with
    | [] => s
    | e :: _ => if e.t < t then pwmOverdue t fuel m (pwmEdge s m) else s

/-- The waveforms of a period that begins at `t`: the edges of R293. After an early end W takes its state for count 0. -/
def pwmBegin (s : State) (m t : Nat) (early : Bool) : State :=
  let seconds := if s.complementary m then [false] else [false, true]
  seconds.foldl (fun s second =>
    let n := s.nominal m second
    let d := s.pwmD m second
    let x := s.pwm m
    let high := if second then x.w2 else x.w
    let high0 := decide (n.1 = 0 ∧ d ≠ 0)
    let mine (e : PwmEv) : Bool := decide (e = .rise second) || decide (e = .fall second)
    let put (x : PwmX) (t : Nat) (ev : PwmEv) : PwmX := { x with edges := edgeInsert { t := t, ev := ev } x.edges }
    -- a fall that is due now and a rise still deferred are superseded by the new waveform
    let stale (e : PwmEv) : Bool := if early then mine e else decide (e = .rise second)
    let x := x.drop stale
    if high && high0 then
      -- the rise would be deferred inside a zone, and the fall with it (R297)
      let x := x.drop mine
      if s.inZone m t then s.setPwm m { x with waits := x.waits ++ [.rise second] }
      else s.setPwm m (put x (t + n.2 * s.fine m) (.fall second))
    else if high && early then
      let s := pwmProduce (s.setPwm m x) m t (.fall second)
      if d = 0 then s else s.setPwm m (put (s.pwm m) (t + n.1 * s.fine m) (.rise second))
    else if d = 0 then s.setPwm m x
    else s.setPwm m (put x (t + n.1 * s.fine m) (.rise second))) s

/-- The duty account at a period's end (R298). -/
def pwmAccount (s : State) (m : Nat) : State :=
  let x := s.pwm m
  let pl : Int := x.cur.pl
  let acct := if !(s.flag (Reg.CVL_PCFG_QEN m)) then 0
    else if x.hit || s.pairTripped m then x.acct
    else clampI (-pl) pl (x.acct + ((min x.cur.dutyA x.cur.pl : Nat) : Int) - (x.high : Int))
  (s.setPwm m { x with acct := acct, high := 0 }).setFld (Reg.CVL_PSTAT_ACCT m) (wrapN 21 acct)

/-- Delayed rises that are not yet produced follow the dead times in force, counted from the last edge of W; at the earliest they come at
the next fine position (R294, R295). -/
def PwmX.redelay (x : PwmX) (fine t : Nat) : PwmX :=
  let move (x : PwmX) (ev : PwmEv) (dt : Nat) : PwmX :=
    if x.edges.any fun e => decide (e.ev = ev) then
      { x with edges := edgeInsert { t := max (x.wAt + dt * fine) (t + fine), ev := ev } (x.edges.filter fun e => !decide (e.ev = ev)) }
    else x
  move (move x .aRise x.cur.dta) .bRise x.cur.dtb

/-- The edges of one waveform that are not yet produced, for the values now in force (R295). -/
def pwmRetime (t m : Nat) (s : State) (second : Bool) : State :=
  let fine := s.fine m
  let n := s.nominal m second
  let x := s.pwm m
  let put (x : PwmX) (t : Nat) (ev : PwmEv) : PwmX := { x with edges := edgeInsert { t := t, ev := ev } x.edges }
  if if second then x.w2 else x.w then
    -- W is high: it falls at its new f, at the earliest at the next fine position
    if x.waits.contains (.fall second) then s
    else s.setPwm m (put (x.drop fun e => decide (e = .fall second))
      (max (x.start + n.2 * fine + (if second then x.shift2 else x.shift)) (t + fine)) (.fall second))
  else
    -- W is low: it rises at its new r if that is still to come and W has not risen in this period
    let d := s.pwmD m second
    let held := x.waits.contains (.rise second)
    let r := x.start + n.1 * fine
    let y := x.drop fun e => decide (e = .rise second)
    if d = 0 ∨ (if second then x.risen2 else x.risen) = true then s.setPwm m y
    else if t ≤ r then s.setPwm m (put y r (.rise second))
    else if held then s else s.setPwm m y

/-- Pending values of pair `m`, where there are any, become current at time `t`, inside a period (R295, R296). -/
def pwmApply (s : State) (m t : Nat) : State :=
  let s := pwmOverdue t 64 m s
  let x := s.pwm m
  if x.pend = x.cur then s else
  let fine := s.fine m
  let p := (t - x.start) / fine
  let cut := decide (x.pend.per ≤ p / 16)
  let x := { x with cur := x.pend, fin := if cut then (p / 16 + 1) * 16 else x.pend.pl, short := cut }
  if cut then s.setPwm m (x.drop (fun e => match e with | .rise _ => true | .fall _ => true | _ => false))
  else
    let x := if s.complementary m then x.redelay fine t else x
    (if s.complementary m then [false] else [false, true]).foldl (pwmRetime t m) (s.setPwm m x)

/-- Pair `m`'s values changed: with UPD 0b00 they become current at once (R295). -/
def pwmChanged (s : State) (m t : Nat) : State :=
  if s.fld (Reg.CVL_PCTL_UPD m) = 0 ∧ (s.pwm m).run = true then pwmApply s m t else s

/-- Microstep unit `u` at a period of its first pair that begins at `t` (R303). Its duties become pending (R295). -/
def microstep (t : Nat) (s : State) (u : Nat) : State :=
  let p0 := s.fld (Reg.CVL_MSCFG_PAIR0 u)
  let tbl := s.fld (Reg.CVL_MSCFG_TBL u)
  let k := smGet 0 s.cvl.msCount u + 1
  let pos := sext 32 (s.fld (Reg.CVL_MSPOS_POS u))
  let tgt := sext 32 (s.fld (Reg.CVL_MSTGT_TGT u))
  let still := (rangeFrom p0 4).any s.pairTripped
  let stepNow := decide (s.fld (Reg.CVL_MSRATE_DIV u) + 1 ≤ k)
  let inc : Int := max 1 (s.fld (Reg.CVL_MSRATE_INC u))
  let pos' := if stepNow && !still then (if pos < tgt then min (pos + inc) tgt else max (pos - inc) tgt) else pos
  let s := { s with cvl := { s.cvl with msCount := smSet 0 s.cvl.msCount u (if stepNow then 0 else k) } }
  let s := s.setFld (Reg.CVL_MSPOS_POS u) (wrapN 32 pos')
  let ia := wrapN 10 pos'
  let ib := wrapN 10 (pos' + 256)
  if s.ecc.contains (Reg.CVL_MSTBL tbl ia + 0x80000) || s.ecc.contains (Reg.CVL_MSTBL tbl ib + 0x80000) then
    let s := raiseLine ((uncorrected s Reg.CVL_ECCCNT_UNCORR).event Reg.CVL_STAT_ECCU) 15
    (rangeFrom p0 4).foldl (fun s m => match s.pairGroup m with | some g => trip s 1000 g false | none => s) s
  else
    let leg (s : State) (m : Nat) (v : Int) : State :=
      let duty := v.natAbs * s.fld (Reg.CVL_MSRATE_AMP u) / 2048
      let set (s : State) (m d : Nat) : State := s.setPwm m { s.pwm m with pend := { (s.pwm m).pend with dutyA := d } }
      if 0 ≤ v then set (set s m duty) (m + 1) 0 else set (set s m 0) (m + 1) duty
    (rangeFrom p0 4).foldl (fun s m => pwmChanged s m t) <| leg (leg s p0 (sext 16 (s.fld (Reg.CVL_MSTBL_VAL tbl ia)))) (p0 + 2) (sext 16 (s.fld (Reg.CVL_MSTBL_VAL tbl ib)))

/-- The loops that sample by pair `m` count its periods (R301). -/
def loopPeriods (s : State) (m : Nat) : State :=
  (s.loopList.filter fun i => decide (s.fld (Reg.CVL_LSAMP_SGEN i) = m)).foldl (fun s i =>
    let l := s.loopX i
    s.setLoop i (if l.left = 0 then { l with due := true, left := s.fld (Reg.CVL_LSAMP_DECIM i) }
                 else { l with due := false, left := l.left - 1 })) s

/-- The period of pair `m` ends at time `t` and the next begins; `early` when it ends before its length (R292 to R298). -/
def pwmPeriod (s : State) (m t : Nat) (early : Bool) : State :=
  let s := pwmOverdue t 64 m s
  let s := s.setPwm m ((s.pwm m).accrue (s.fine m) t)
  let s := pwmAccount s m
  let x := s.pwm m
  let early := early || x.short
  let s := withBlanks [m] (fun s => pwmBegin (s.setPwm m { x with
    cur := x.pend, start := t, startCyc := s.cycle, fin := x.pend.pl, short := false, forced := s.safe || s.pairTripped m,
    hit := s.pairTripped m, shift := 0, shift2 := 0, risen := false, risen2 := false }) m t early) s
  let s := (List.range 16).foldl (fun s u =>
    if s.flag (Reg.CVL_MSCFG_EN u) && decide (s.fld (Reg.CVL_MSCFG_PAIR0 u) = m) then microstep t s u else s) s
  loopPeriods s m

/-- The counter of pair `m` reaches the end of its period (R292, R296). -/
def pwmPeriodEnd (s : State) (m : Nat) : State :=
  let x := s.pwm m
  if s.up 92 && x.run then pwmPeriod s m (x.start + x.fin * s.fine m) false else s

/-- The update point of pair `m` in mid-period: count PER / 2 under UPD 0b10 (R295). -/
def pwmUpdatePoint (s : State) (m : Nat) : State :=
  let x := s.pwm m
  if s.up 92 && x.run then
    if s.fld (Reg.CVL_PCTL_UPD m) = 2 then pwmApply s m (x.start + 16 * (x.cur.per / 2) * s.fine m) else s
  else s

/-- At the first slot of a mask word the word is read for the pairs that use its mask; a damaged one is reported (R307, log 32). -/
def maskRead (s : State) : State :=
  if s.tbState < 2 ∨ s.tb.slot % 32 ≠ 0 then s else
  let qs := ((s.pairList.filter fun m => s.flag (Reg.CVL_PCFG_QEN m)).map fun m => s.fld (Reg.CVL_PCFG_QSEL m)).foldl nsAdd []
  qs.foldl (fun s q => if s.ecc.contains (Reg.CVL_QMASK q (s.tb.slot / 32) + 0x80000) then
    raiseLine ((uncorrected s Reg.CVL_ECCCNT_UNCORR).event Reg.CVL_STAT_ECCU) 15 else s) s

/-- At a slot-clock edge: runs of sensitive slots end, and synced periods end (R292, R297). -/
def cvlSlot (s : State) : State :=
  if !(s.up 92) then s else
  let s := maskRead s
  let t := s.slotT
  s.pairList.foldl (fun s m =>
    let x := s.pwm m
    let s := if x.waits ≠ [] ∧ s.sensitive m s.tb.slot = false then
        let at_ := t + s.fld (Reg.CVL_PCTL_QGUARD m) * 10000
        s.setPwm m { x with waits := [], edges := x.waits.foldl (fun es ev => edgeInsert { t := at_, ev := ev } es) x.edges }
      else s
    let n := s.fld (Reg.CVL_PCFG_SYNCN m)
    if x.run && decide (n ≠ 0 ∧ s.tb.slot % n = 0 ∧ x.start < t) then pwmPeriod s m t true else s) s

/-- A flip made new values live (R305). -/
def cvlFlip (s : State) : State :=
  let s := cmpSenseAll s
  if !(s.up 92) then s else
  s.pairList.foldl (fun s m =>
    let v := s.pairVals m
    let s := s.setPwm m { s.pwm m with pend := v }
    pwmChanged s m s.slotT) s

/-- CVL_PCNT, to the REFCLK cycle (log 32). -/
def State.pwmCount (s : State) (m : Nat) : Nat :=
  let x := s.pwm m
  if x.run then min ((s.cycle - x.startCyc) * 8 / 2 ^ s.fld (Reg.CVL_PCFG_DIV m)) (x.cur.per - 1) else 0

/-! ### Loops (R300 to R302) -/

/-- A biquad section: coefficient `k` of the five, the history, the input; 64-bit accumulator, result saturated to `w` bits. -/
def biquad (w : Nat) (c : Nat → Int) (h : Biquad) (x : Int) : Int × Biquad :=
  let acc := sext 64 (wrapN 64 (c 0 * x + c 1 * h.in1 + c 2 * h.in2 - c 3 * h.y1 - c 4 * h.y2))
  let y := satS w (sarI acc 30)
  (y, { in1 := x, in2 := h.in1, y1 := y, y2 := h.y1 })

/-- The last sample of a voice bus, as its consumers hold it (R311). -/
def State.busOut (s : State) (b : Nat) : Int := (smGet Bus.idle s.vox.buses b).out

/-- The target of loop `i` (R300). -/
def State.loopTarget (s : State) (i : Nat) : Int :=
  let idx := s.fld (Reg.CVL_LCFG_SIDX i)
  let src : Int := match s.fld (Reg.CVL_LCFG_SSRC i) with
    | 1 => (s.loopX idx).out
    | 2 => s.busOut idx
    | _ => 0
  let tc := sext 16 (s.fld (Reg.CVL_LTC_TC i))
  let tref := sext 16 (s.fld (Reg.CVL_LTC_TREF i))
  let comp : Int := match s.fld (Reg.CVL_LCFG_TSRC i) with
    | 1 => sarI ((sext 16 (s.fld Reg.CVL_TEMP_TJ) - tref) * tc) 8
    | 2 => sarI (((s.cellRes (s.fld (Reg.CVL_LCFG_TIDX i)) : Int) - tref) * tc) 8
    | _ => 0
  clampI (-32768) 32767 (s.fld (Reg.CVL_LSET_SET i) + src + comp)

/-- A coefficient of loop `i`. -/
def State.loopCoef (s : State) (i sec j : Nat) : Int := sext 32 (s.fld (Reg.CVL_LCOEF_COEF i sec j))

/-- The coefficients of loop `i` hold a damaged word. -/
def State.loopBad (s : State) (i : Nat) : Bool :=
  (List.range 2).any fun sec => (List.range 5).any fun j => s.ecc.contains (Reg.CVL_LCOEF i sec j + 0x80000)

/-- A damaged item of loop `i` trips the groups of its outputs (R307). -/
def loopDamage (s : State) (i : Nat) : State :=
  let s := raiseLine ((uncorrected s Reg.CVL_ECCCNT_UNCORR).event Reg.CVL_STAT_ECCU) 15
  let gs := (s.loopPairs i).filterMap s.pairGroup ++ (match s.loopCell i with | some n => (s.cellGroup n).toList | none => [])
  gs.foldl (fun s g => trip s 1000 g false) s

/-- Loop `i` computes with sample `x` (R300, R302). -/
def loopCompute (s : State) (i x : Nat) : State :=
  let l := s.loopX i
  let s := s.setFld (Reg.CVL_LSTAT_X i) x
  if s.loopHeld i then s.setLoop i { l with held := true }
  else
    let l := if l.held && s.flag (Reg.CVL_LCFG_TRIPRST i) then { l with s0 := Biquad.zero, s1 := Biquad.zero, seeded := false } else l
    let sp0 := if l.seeded then l.sp else (x : Int)
    let tgt := s.loopTarget i
    let slew : Int := s.fld (Reg.CVL_LSET_SLEW i)
    let sp := if slew = 0 then tgt else sp0 + clampI (-slew) slew (tgt - sp0)
    let e := satS 32 ((sp - x) * 65536)
    let r0 := biquad 32 (s.loopCoef i 0) l.s0 e
    let r1 := biquad 32 (s.loopCoef i 1) l.s1 r0.1
    let lo := sext 32 (s.fld (Reg.CVL_LUMIN_LIM i))
    let hi := sext 32 (s.fld (Reg.CVL_LUMAX_LIM i))
    let u := clampI lo hi r1.1
    let out := sarI u (s.fld (Reg.CVL_LOMAP_OSH i)) + sext 21 (s.fld (Reg.CVL_LOMAP_OOFF i))
    let m := s.fld (Reg.CVL_LSAMP_SGEN i)
    let soff := min (s.fld (Reg.CVL_LSAMP_SOFF i)) ((s.pwm m).cur.per - 1)
    let s := s.setLoop i { l with
      s0 := r0.2, s1 := { r1.2 with y1 := u }, sp := sp, seeded := true, out := out, held := false,
      ready := some ((s.pwm m).start + 16 * soff * s.fine m) }
    let s := s.eventIf (decide (u ≠ r1.1)) (Reg.CVL_LSTAT_CLAMP i)
    (s.wr (Reg.CVL_LOUT i) (BitVec.ofNat 32 (wrapN 32 u))).setFld (Reg.CVL_LSP_SP i) (wrapN 16 sp)

/-- The sample instant of loop `i`, its pin at `code` (R286, R301, R307). `corr` words were corrected; `bad`: its stored state
is damaged. -/
def loopSample (s : State) (i code corr : Nat) (bad : Bool) : State :=
  let l := s.loopX i
  if !(s.up 91 && s.up 92) || !(s.loopList.contains i) || !l.due then s
  else
    let s := s.setLoop i { l with due := false }
    let s := corrected s Reg.CVL_ECCCNT_CORR corr
    let t := convTrigger s (s.fld (Reg.CVL_LCFG_CELL i)) code
    if !t.2 then t.1.event (Reg.CVL_LSTAT_SKIP i)
    else if bad || t.1.loopBad i then loopDamage t.1 i
    else loopCompute t.1 i (code % 16384)

/-- The output of loop `i` reaches its target, `cyc` FCLK cycles after the sample (R295, R301, R302). -/
def loopOutput (s : State) (i cyc : Nat) : State :=
  let l := s.loopX i
  match l.ready with
  | none => s
  | some t0 =>
    let s := s.setLoop i { l with ready := none }
    if s.loopHeld i || !(s.up 92) then s
    else
      let o := s.fld (Reg.CVL_LCFG_OIDX i)
      let t := t0 + cyc * 10000
      let duty (s : State) (m : Nat) (v : Int) : State :=
        let x := s.pwm m
        pwmChanged (s.setPwm m { x with pend := { x.pend with dutyA := (clampI 0 x.pend.pl v).toNat } }) m t
      match s.fld (Reg.CVL_LCFG_OMODE i) with
      | 0 => duty s o l.out
      | 1 => if 0 ≤ l.out then duty (duty s o l.out) (o + 1) 0 else duty (duty s o 0) (o + 1) (-l.out)
      | 2 => { s with cvl := { s.cvl with loopCode := smSet 0 s.cvl.loopCode i (clampI 0 16383 l.out).toNat } }
      | _ => s

/-- The image reaches RUN (R304). The counters start at the present slot-clock edge (log 32). -/
def cvlRun (s : State) : State :=
  if !(s.up 92) then s else
  let s := { s with cvl := { s.cvl with loops := [], msCount := [], loopCode := [], busCode := [] } }
  let s := (List.range 16).foldl (fun s u => (s.wr (Reg.CVL_MSPOS u) 0).wr (Reg.CVL_MSTGT u) 0) s
  let s := s.loopList.foldl (fun s i => s.setLoop i LoopX.idle) s
  let s := s.pairList.foldl (fun s m =>
    let v := { s.pairVals m with dutyA := if s.pairDriven m then 0 else s.fld (Reg.CVL_PDUTYA_DUTY m) }
    let t := s.slotT
    let s := withBlanks [m] (fun s => pwmBegin (s.setPwm m { PwmX.idle with
      run := true, start := t, startCyc := s.cycle, fin := v.pl, cur := v, pend := v, forced := s.safe || s.pairTripped m,
      hit := s.pairTripped m, b := s.complementary m }) m t false) s
    loopPeriods s m) s
  cmpSenseAll s

end Sys2Proof.Machine
end

