-- ==== Sys2Proof/Machine/Signals.lean ====
section
/-! DEFINITION. The signals that other blocks give to the pin crossbar (R397). -/
namespace Sys2Proof.Machine

/-- The accept strobe of stream `st` (R397). -/
def State.accStrobe (s : State) (st : Nat) : Bool := s.strobeNow st && !s.safe

/-- REFCLK cycles from the present slot's edge to the next one, as the last slot's length foretells it. -/
def State.slotCycles (s : State) : Nat := (s.tb.ps + s.tb.per) / 10000 - s.tb.ps / 10000

/-- The slot clock rises as each slot begins (R397): it is high in the cycle of the edge and low in the last cycle before the next one.
Between them its level is a free value (log 14). -/
def State.slotCk (s : State) : Bool :=
  decide (s.tbState ≠ 0) && (decide (s.cycle = s.tb.edgeCycle) ||
    (decide (s.cycle + 1 < s.tb.edgeCycle + s.slotCycles) && Config.slotClock s.tb.n s.cycle))

/-- The orbit mark: high in slot 0 (R397). -/
def State.orbMk (s : State) : Bool := decide (s.tbState ≠ 0) && decide (s.tb.slot = 0)

/-- PWM signal `i` (R294). -/
def State.pwmLevel (s : State) (i : Nat) : Bool := s.pwmSignal i

end Sys2Proof.Machine
end

