-- ==== Sys2Proof/Machine/Pin.lean ====
section
/-! DEFINITION. Pin crossbar and general pins (R394 to R406): pad levels, input signals, software outputs, take-over,
the chatter and stuck detectors. -/
namespace Sys2Proof.Machine

def State.pinX (s : State) (p : Nat) : PinX := smGet PinX.idle s.pin.pins p

def State.setPinX (s : State) (p : Nat) (x : PinX) : State :=
  { s with pin := { s.pin with pins := smSet PinX.idle s.pin.pins p x } }

/-- Bit `p mod 32` of a bank register (R394). -/
def bankFld (reg : Nat → Nat) (p : Nat) : Fld := ⟨reg (p / 32), p % 32, p % 32⟩

/-- The bank of pin `p` is powered and passed its voltage check (R394). -/
def State.bankOk (s : State) (p : Nat) : Bool := s.up 93 && bit (s.fld Reg.PIN_BANKCFG_BANKOK) (p / 32)

/-- The PIN_OUT bit of pin `p` as the pad has it: a write reaches the pad at the end of its REFCLK cycle (R399). -/
def State.padBit (s : State) (p : Nat) : Bool :=
  (smGet (s.rd (Reg.PIN_OUT (p / 32))) s.cyc.pinBase (p / 32)).getLsbD (p % 32)

/-- The pin whose PIN_CFG and PIN_GPOV bit govern pad `p`: the even one of an LVDS pair (R396). -/
def State.padOwner (s : State) (p : Nat) : Nat := if s.fld (Reg.PIN_CFG_MODE p) = 3 then p / 2 * 2 else p

/-- The level of an output signal of R397; none where no signal drives (OSEL 0x000) or the code is reserved. -/
def State.outSignal (s : State) (p osel : Nat) : Option Bool :=
  if osel = 1 then some (s.padBit p)
  else if 0x10 ≤ osel ∧ osel < 0x20 then some (s.accStrobe (osel - 0x10))
  else if osel = 0x20 then some (s.slotCk)
  else if osel = 0x21 then some (s.orbMk)
  else if osel = 0x22 then some s.safe
  else if 0x80 ≤ osel ∧ osel < 0x100 then some (s.pwmLevel (osel - 0x80))
  else none

/-- What the pad of `p` drives: none when its driver is off (R397, R400). In LVDS mode the even pin's PIN_CFG governs and
the odd pin carries the complement (R396). -/
def State.padDrive (s : State) (p : Nat) : Option Bool :=
  let q := s.padOwner p
  let sig := if s.flag (bankFld Reg.PIN_GPOV q) then some (s.padBit q)
             else s.outSignal q (s.fld (Reg.PIN_CFG_OSEL q))
  match s.fld (Reg.PIN_CFG_MODE p) with
  | 0 => none
  | 1 => sig
  | 2 => match sig with
    | some false => some false
    | _ => none
  | _ => sig.map fun b => if p % 2 = 1 then !b else b

/-- What drives pad `p` now: in a switch cycle the keeper or nothing, else its function. An unpowered or failed bank is at high
impedance (R394, R402). -/
def State.padOut (s : State) (p : Nat) : Option Bool :=
  if !(s.bankOk p) then none
  else match (s.pinX p).keeper with
    | some d => d
    | none => s.padDrive p

/-- The level of pad `p` now: what the TX48 drives, else the level applied from outside. -/
def State.padLevel (s : State) (p : Nat) : Bool := (s.padOut p).getD (s.pinX p).ext

/-- Pin `p` is suppressed or masked (R405). -/
def State.pinBlocked (s : State) (p : Nat) : Bool := (s.pinX p).suppressed || (s.pinX p).masked

/-- An input signal delivers no pin level and reads IDLE (R398). -/
def State.inIdle (s : State) (i : Nat) : Bool :=
  let p := s.fld (Reg.PIN_ISEL_PIN i)
  !(s.flag (Reg.PIN_ISEL_EN i)) || !(s.up 93) || decide (s.fld Reg.GBL_STATE_STATE ≠ 3 ∧ s.fld Reg.GBL_STATE_STATE ≠ 6)
    || !(s.bankOk p) || decide ((s.pinX p).idleLeft ≠ 0) || s.pinBlocked p

/-- The level of input signal `i` (R398). -/
def State.inLevel (s : State) (i : Nat) : Bool :=
  if s.inIdle i then s.flag (Reg.PIN_ISEL_IDLE i)
  else Bool.xor (s.padLevel (s.fld (Reg.PIN_ISEL_PIN i))) (s.flag (Reg.PIN_ISEL_INV i))

/-- An input signal's pin is suppressed for chatter or masked for being stuck: the signal delivers no edges (R331). -/
def State.inBlocked (s : State) (i : Nat) : Bool :=
  s.flag (Reg.PIN_ISEL_EN i) && s.pinBlocked (s.fld (Reg.PIN_ISEL_PIN i))

/-- Some PIN_ISEL names pin `p` with EN = 1: the detectors run on it (R403). -/
def State.pinWatched (s : State) (p : Nat) : Bool :=
  s.regs.any fun e =>
    decide (Reg.PIN_ISEL 0 ≤ e.1 ∧ e.1 < Reg.PIN_ISEL 288) && decide (wField e.2 31 31 = 1 ∧ wField e.2 7 0 = p)

/-- PIN_SUPP and PIN_STAT.ANYSUPP follow the detectors (R405). -/
def showBlocked (s : State) (p : Nat) : State :=
  let s := s.setFlag (bankFld Reg.PIN_SUPP p) (s.pinBlocked p)
  s.setFlag Reg.PIN_STAT_ANYSUPP (s.pin.pins.any fun e => e.2.suppressed || e.2.masked)

/-- PIN_IN[b]: the pad levels of 2 REFCLK cycles before (R401). -/
def State.pinIn (s : State) (b : Nat) : Nat :=
  (List.range 32).foldl (fun acc j => if (s.pinX (32 * b + j)).level1 then acc + 2 ^ j else acc) 0

/-! ### Software outputs (R399) -/

/-- The effect of one write on a PIN_OUT word: kind 0 OSET, 1 OCLR, 2 OTGL, 3 OUT. -/
def outApply (kind : Nat) (w v : Word) : Word :=
  match kind with
  | 0 => w ||| v
  | 1 => w &&& ~~~v
  | 2 => w ^^^ v
  | _ => v

/-- Several writes of one bank in one cycle, in the order OSET, OCLR, OTGL, OUT (R399). -/
def outAll (base : Word) (ws : List (Nat × Nat × Word)) (b : Nat) : Word :=
  [0, 1, 2, 3].foldl (fun w k =>
    ws.foldl (fun w e => if e.1 = b ∧ e.2.1 = k then outApply k w e.2.2 else w) w) base

/-- A write of one of the four output registers of bank `b`. -/
def pinOutWrite (s : State) (b kind : Nat) (v : Word) : State :=
  let base := smGet (s.rd (Reg.PIN_OUT b)) s.cyc.pinBase b
  let ws := s.cyc.pinWrites ++ [(b, kind, v)]
  let s := { s with cyc := { s.cyc with pinBase := smInsert (smErase s.cyc.pinBase b) b base, pinWrites := ws } }
  s.wr (Reg.PIN_OUT b) (outAll base ws b)

/-- Pin `p` changes its output function in this cycle: the pad is held at the level that it last drove, or stays undriven (R402). -/
def functionSwitch (s : State) (p : Nat) : State :=
  if s.bankOk p then s.setPinX p { s.pinX p with keeper := some (s.padOut p) } else s

/-- The functions of the image begin at RUN, or after a reset of PD93: each pad was undriven, and the signals routed from a pin read IDLE
for three cycles (R402; log 34). -/
def pinsStart (s : State) : State :=
  let s := ((List.range 192).filter fun p => s.bankOk p && (s.padDrive p).isSome).foldl
    (fun s p => s.setPinX p { s.pinX p with keeper := some none }) s
  ((List.range 288).filter fun i => s.flag (Reg.PIN_ISEL_EN i)).foldl
    (fun s i => let p := s.fld (Reg.PIN_ISEL_PIN i); s.setPinX p { s.pinX p with idleLeft := 3 }) s

/-- A write of PIN_GPOV[b]: every pad whose governing bit changes switches its function, both pads of an LVDS pair with the even bit
(R396, R400, R402). -/
def pinGpovWrite (s : State) (b : Nat) (v : Word) : State :=
  let old := s.rd (Reg.PIN_GPOV b)
  let changed := (List.range 32).filter fun j =>
    let q := s.padOwner (32 * b + j) % 32
    Bool.xor (old.getLsbD q) (v.getLsbD q)
  (changed.foldl (fun s j => functionSwitch s (32 * b + j)) s).wr (Reg.PIN_GPOV b) v

/-! ### The detectors (R403 to R405) -/

/-- CHN and CHW with their stand-ins for 0. -/
def State.chn (s : State) (p : Nat) : Nat := if s.fld (Reg.PIN_FILT_CHN p) = 0 then 255 else s.fld (Reg.PIN_FILT_CHN p)
def State.chw (s : State) (p : Nat) : Nat := if s.fld (Reg.PIN_FILT_CHW p) = 0 then 1 else s.fld (Reg.PIN_FILT_CHW p)

/-- The pin's mask ends when the pin is inactive (R404). -/
def unmaskIfInactive (s : State) (p : Nat) : State :=
  let x := s.pinX p
  if x.masked && decide (s.padLevel p ≠ s.flag (Reg.PIN_CFG_ACTHI p)) then showBlocked (s.setPinX p { x with masked := false }) p
  else s

/-- An edge of a watched pin counts (R403). -/
def chatterEdge (s : State) (p : Nat) : State :=
  let x := s.pinX p
  let x := { x with t0 := if x.cnt = 0 then s.cycle else x.t0, cnt := x.cnt + 1, last := s.cycle }
  if s.chn p < x.cnt ∧ x.suppressed = false then
    let s := showBlocked (s.setPinX p { x with suppressed := true }) p
    raiseLine ((s.event (bankFld Reg.PIN_CHAT p)).event Reg.PIN_STAT_CHATTER) 59
  else s.setPinX p x

/-- The pads as the two-stage synchroniser of PIN_IN moves on at the end of a REFCLK cycle (R401); the keeper lets go and
the switch windows run down (R402); an edge that comes about as the pad is driven, or let go, counts (R403); a masked pin that is inactive is masked no longer (R404). -/
def pinTick (s : State) : State :=
  let cfgd := s.regs.filterMap fun e =>
    if Reg.PIN_CFG 0 ≤ e.1 ∧ e.1 < Reg.PIN_CFG 192 ∧ e.1 % 0x10 = 0 then some ((e.1 - Reg.PIN_CFG 0) / 0x10) else none
  let ps := (s.pin.pins.map (·.1)).foldl nsAdd cfgd
  ps.foldl (fun t p =>
    let x := s.pinX p
    let t := t.setPinX p { x with level := s.padLevel p, level1 := x.level, drove := (s.padOut p).isSome, keeper := none, idleLeft := x.idleLeft - 1 }
    let t := if ((s.padOut p).isSome || x.drove) && decide (s.padLevel p ≠ x.level) && s.pinWatched p then chatterEdge t p else t
    if x.masked && decide (s.padLevel p ≠ s.flag (Reg.PIN_CFG_ACTHI p)) then
      showBlocked (t.setPinX p { t.pinX p with masked := false }) p
    else t) s

/-- The level applied to pad `p` from outside becomes `lvl`; a change of the pad's level is an edge. -/
def pinEdge (s : State) (p : Nat) (lvl : Bool) : State :=
  let before := s.padLevel p
  let s := s.setPinX p { s.pinX p with ext := lvl }
  let s := if s.up 93 && decide (s.padLevel p ≠ before) && s.pinWatched p then chatterEdge s p else s
  unmaskIfInactive s p

/-- The 1 us tick of the chatter detectors (R403); a microsecond is 100 REFCLK cycles (R43). -/
def chatterTick (s : State) : State :=
  s.pin.pins.foldl (fun t e =>
    let p := e.1
    let x := t.pinX p
    let x := if 0 < x.cnt ∧ 100 * s.chw p ≤ s.cycle - x.t0 then { x with cnt := 0 } else x
    let x := if x.suppressed ∧ 100 * s.chw p ≤ s.cycle - x.last then { x with suppressed := false } else x
    showBlocked (t.setPinX p x) p) s

/-- Pin `p` has been active for STK ms (R404): it is masked. -/
def stuckTimeout (s : State) (p : Nat) : State :=
  if s.up 93 && s.pinWatched p && decide (s.padLevel p = s.flag (Reg.PIN_CFG_ACTHI p)) && !(s.pinX p).masked then
    let s := showBlocked (s.setPinX p { s.pinX p with masked := true }) p
    raiseLine ((s.event (bankFld Reg.PIN_STK p)).event Reg.PIN_STAT_STUCK) 59
  else s

/-- The voltage check when PD93 is released: bit b of `vdet` is 1 when VDDIOb is measured at 3.3 V (R394). -/
def bankCheck (s : State) (vdet : Nat) : State :=
  let v33 := s.fld Reg.PIN_BANKCFG_V33
  let ok := (List.range 6).foldl (fun a b => if bit v33 b = bit vdet b then a + 2 ^ b else a) 0
  let s := (s.setFld Reg.PIN_BANKCFG_VDET vdet).setFld Reg.PIN_BANKCFG_BANKOK ok
  if ok = 63 then s else raiseLine (s.event Reg.PIN_STAT_BANKERR) 20

end Sys2Proof.Machine
end

