-- ==== Sys2Proof/Machine/Dec.lean ====
section
/-! DEFINITION. The decision unit (R195 to R216): inputs, elements, algorithms, lines, prescalers, the global accept and the
decision word. -/
namespace Sys2Proof.Machine

/-! ### Inputs (R195 to R198) -/

/-- Levels of DEC_IN0 to DEC_IN31 now (R398). -/
def State.decPins (s : State) : Nat :=
  (List.range 32).foldl (fun a i => if s.inLevel (256 + i) then a + 2 ^ i else a) 0

/-- The handover of crossing `x` brings its inputs; `feeds` are the lanes that are not VOID, with their frames. -/
def decHandover (s : State) (x : Nat) (feeds : List (Nat × Frame)) (throttle : Bool) : State :=
  let d : DecIn := {
      x := x, void := s.frontLanes.filter fun n => !(feeds.any fun p => decide (p.1 = n)),
      front := feeds.map fun p => (p.1, p.2.stat, p.2.data % 2 ^ 64), throttle := throttle,
      accen := s.flag Reg.DEC_CTL_ACCEN, thren := s.flag Reg.DEC_CTL_THREN }
  { s with dec := { s.dec with inputs := (s.dec.inputs ++ [d]).drop (s.dec.inputs.length - 1100) } }

/-- The pins are sampled for the crossing whose X + PINOFF begins now. -/
def decPinSample (s : State) : State :=
  let off := s.fld Reg.DEC_CFG_PINOFF
  if off ≤ s.tb.n then
    { s with dec := { s.dec with pins := ((s.tb.n - off, s.decPins) :: s.dec.pins).take 1100 } } else s

/-- A good frame of an upward or peer lane belongs to the crossing that its SLOT and ORBIT name, when it is complete before
the edge that begins X + EXTDL (R197). -/
def decFrame (s : State) (n : Nat) (f : Frame) : State :=
  let ext := s.fld Reg.DEC_CFG_EXTDL
  let lo := s.tb.n + 1 - ext
  let xs := (rangeFrom lo (s.tb.n + 1 - lo)).filter fun x => s.names n f x && decide (s.tb.n < x + ext)
  match nearestX s.tb.n s.dskt xs with
  | none => s
  | some x =>
    if s.dec.frames.any fun e => decide (e.1 = n ∧ e.2.1 = x) then s
    else { s with dec := { s.dec with frames := (n, x, f) :: s.dec.frames.filter fun e => decide (s.tb.n < e.2.1 + 2048) } }

/-- The frame of lane `n` for crossing `x`. -/
def State.decFrameOf (s : State) (n x : Nat) : Option Frame :=
  (s.dec.frames.find? fun e => decide (e.1 = n ∧ e.2.1 = x)).map (·.2.2)

/-- External input `k` for a crossing: value and VOID (R196, R197). -/
def State.extIn (s : State) (d : DecIn) (k : Nat) : Bool × Bool :=
  if !(s.flag (Reg.DEC_EXTSEL_EN k)) then (false, false) else
  let code := s.fld (Reg.DEC_EXTSEL_CODE k)
  let front (n : Nat) (f : Nat × Nat → Bool) : Bool × Bool :=
    match d.front.find? (fun e => e.1 = n) with
    | some e => (f e.2, false)
    | none => (false, true)
  let far (n : Nat) (f : Frame → Bool) : Bool × Bool :=
    match s.decFrameOf n d.x with
    | some fr => (f fr, false)
    | none => (false, true)
  if code < 0x20 then
    (match s.dec.pins.find? (fun e => e.1 = d.x) with | some e => bit e.2 code | none => false, false)
  else if 0x1000 ≤ code ∧ code < 0x1300 then
    front ((code - 0x1000) / 16) fun e => bit e.1 (code % 16)
  else if 0x2000 ≤ code ∧ code < 0x2C00 then
    far ((code - 0x2000) / 64) fun fr => decide (fr.fcmd = code % 64 ∧ fr.fcmd + fr.nfcmd = 255)
  else if 0x3000 ≤ code ∧ code < 0x3C00 then
    let n := (code - 0x3000) / 64
    if s.role n = 1 then front n fun e => bit e.2 (code % 64) else far n fun fr => bit fr.data (code % 64)
  else (false, false)

/-- A class as DEC reads it: VOID, OVF, the kept object words. -/
structure DecClass where
  void : Bool
  ovf : Bool
  words : List Nat
deriving DecidableEq, Repr

/-- The lists of a peer frame after its release word (R198, R211): a word of zeros is the header of an empty list of class 0 (log 36);
`fuel` bounds the headers read. -/
def peerList (data d : Nat) : Nat → Nat → Nat → Option DecClass
  | 0, _, _ => none
  | fuel + 1, off, skip =>
    if d < off + 64 then none
    else
      let h := (data >>> off) % 2 ^ 64
      let kept := bitsOf h 46 40
      if skip = 0 then
        some { void := false, ovf := bit h 39, words := (List.range kept).map fun i => (data >>> (off + 64 * (i + 1))) % 2 ^ 64 }
      else peerList data d fuel (off + 64 * (kept + 1)) (skip - 1)

/-- Class code `c` (0 to 79) for a crossing (R195, R198). -/
def State.decClass (s : State) (r : ObjResult) (c : Nat) : DecClass :=
  let voidClass : DecClass := { void := true, ovf := false, words := [] }
  if c < 64 then
    match (r.lists.getD []).find? (fun l => decide (l.cls = c)) with
    | some l => { void := false, ovf := r.ovf,
                  words := l.objs.map fun o => objectWord (s.fld (Reg.OBJ_CCFG_CSHIFT c)) o.1 o.2 }
    | none => { void := false, ovf := false, words := [] }
  else
    let m := c - 64
    if !(s.flag (Reg.DEC_PEERMAP_EN m)) then voidClass else
    let n := s.fld (Reg.DEC_PEERMAP_LANE m)
    match s.decFrameOf n r.x with
    | none => voidClass
    | some f =>
      if bit f.data 63 then voidClass
      else (peerList f.data (s.fld (Reg.MDR_NEG_D n)) 5 64 (s.fld (Reg.DEC_PEERMAP_LIST m))).getD voidClass

/-! ### Elements (R199 to R201) -/

def wRow (w : Nat) : Nat := bitsOf w 57 52
def wCol (w : Nat) : Nat := bitsOf w 51 45
def wCore (w : Nat) : Nat := bitsOf w 44 25

/-- An object word qualifies for element `e` (R199). -/
def State.qualifies (s : State) (x e w : Nat) : Bool :=
  decide ((w % 2048) &&& s.bfld x (Reg.DEC_EFLG_FMASK e) = s.bfld x (Reg.DEC_EFLG_FMATCH e))

/-- |a - b| of naturals. -/
def absDiff (a b : Nat) : Nat := (a - b) + (b - a)

/-- Does a pair of object words meet the separations, the side and the metric (R200)? -/
def State.pairOk (s : State) (x e thr a b : Nat) : Bool :=
  let dr := absDiff (wRow a) (wRow b)
  let dc : Int := absDiff (wCol a) (wCol b)
  let dc : Int := if s.bflag x (Reg.DEC_EOPT_WRAP e) then min dc (s.fld Reg.PF_CFG_NCOLS - dc) else dc
  let sep := decide (s.bfld x (Reg.DEC_ESEP_DRMIN e) ≤ dr ∧ dr ≤ s.bfld x (Reg.DEC_ESEP_DRMAX e) ∧
    s.bfld x (Reg.DEC_ESEP_DCMIN e) ≤ dc ∧ dc ≤ s.bfld x (Reg.DEC_ESEP_DCMAX e))
  let split := s.bfld x (Reg.DEC_EOPT_SPLIT e)
  let side := match s.bfld x (Reg.DEC_EOPT_SIDE e) with
    | 1 => decide (wCol a < split) != decide (wCol b < split)
    | 2 => decide (wRow a < split) != decide (wRow b < split)
    | _ => true
  let m := if s.bflag x (Reg.DEC_EOPT_METRIC e) then min (wCore a * wCore b / 256) 4294967295 else wCore a + wCore b
  s.qualifies x e a && s.qualifies x e b && sep && side && decide (thr ≤ m)

/-- Some unordered pair of distinct members of a list. -/
def anyPair (f : Nat → Nat → Bool) : List Nat → Bool
  | [] => false
  | a :: r => r.any (f a) || anyPair f r

/-- The value of element `e` and its VOID (R199 to R201). -/
def State.element (s : State) (es : List RlEntry) (d : DecIn) (r : ObjResult) (e : Nat) : Bool × Bool :=
  let x := d.x
  let thr := rlFld s es x 0 (Reg.DEC_ETHR_THR e)
  let ca := s.fld (Reg.DEC_ETYPE_CA e)
  let cb := s.fld (Reg.DEC_ETYPE_CB e)
  let la := s.decClass r ca
  let lb := s.decClass r cb
  let pk := s.bfld x (Reg.DEC_EOPT_PKM1 e) + 1
  let (raw, void) : Bool × Bool := match s.fld (Reg.DEC_ETYPE_TYPE e) with
    | 1 => (decide (min 64 (s.bfld x (Reg.DEC_EOPT_N e)) ≤ (la.words.filter fun w => s.qualifies x e w && decide (thr ≤ wCore w)).length), la.void)
    | 2 => (decide (thr ≤ min 4294967295 ((la.words.filter (s.qualifies x e)).foldl (fun a w => a + wCore w) 0)), la.void)
    | 3 =>
      (if ca = cb then anyPair (s.pairOk x e thr) (la.words.take pk)
       else (la.words.take pk).any fun a => (lb.words.take pk).any fun b => s.pairOk x e thr a b, la.void || lb.void)
    | 4 => s.extIn d (s.fld (Reg.DEC_ETYPE_EXIN e))
    | 5 => (la.ovf, la.void)
    | 6 => (true, false)
    | _ => (false, false)
  (raw != s.bflag x (Reg.DEC_EOPT_INV e), void)

/-! ### Algorithms (R202, R203) -/

/-- Element number of leaf `i`. -/
def State.leaf (s : State) (a i : Nat) : Nat :=
  if i % 2 = 1 then s.fld (Reg.DEC_ALEAF_LEAFH a (i / 2)) else s.fld (Reg.DEC_ALEAF_LEAFL a (i / 2))

/-- An algorithm's result: output, void, voids the decision. -/
structure AlgOut where
  out : Bool
  void : Bool
  vdec : Bool
deriving DecidableEq, Repr

/-- A set of numbers as a mask test. -/
def anyIn (mask : Nat) (ns : List Nat) : Bool := ns.any (bit mask)

def State.algorithm (s : State) (es : List RlEntry) (d : DecIn) (r : ObjResult) (a : Nat) : AlgOut :=
  let x := d.x
  let leaves := (List.range (s.fld (Reg.DEC_ACFG_NLM1 a) + 1)).map fun i => s.element es d r (s.leaf a i)
  let index := (leaves.zipIdx).foldl (fun n p => if p.1.1 then n + 2 ^ p.2 else n) 0
  let truth := bit (s.fld (Reg.DEC_ATT_TT a (index / 32))) (index % 32)
  let mask := s.bfld x (Reg.DEC_AVM_LO_LANES_L a) + 2 ^ 32 * s.bfld x (Reg.DEC_AVM_HI_LANES_H a)
  let void := leaves.any (·.2) || anyIn mask d.void
  if !void then { out := truth, void := false, vdec := false }
  else match s.bfld x (Reg.DEC_AOPT_VPOL a) with
    | 0 => { out := truth, void := true, vdec := false }
    | 1 => { out := false, void := true, vdec := false }
    | 2 => { out := true, void := true, vdec := false }
    | _ => { out := false, void := true, vdec := true }

/-! ### Lines, prescalers and the accept (R204 to R206) -/

/-- A veto source's value (R204). -/
def State.vetoSrc (s : State) (d : DecIn) (outs : List (Nat × AlgOut)) (raw : Nat) (v : Nat) : Bool :=
  let x := d.x
  if !(s.bflag x (Reg.DEC_VSRC_EN v)) then false else
  let i := s.bfld x (Reg.DEC_VSRC_INDEX v)
  match s.bfld x (Reg.DEC_VSRC_KIND v) with
  | 0 => if 64 ≤ i then false else
    let e := s.extIn d i
    if e.2 then s.bflag x (Reg.DEC_VSRC_VVETO v) else e.1
  | 1 => match outs.find? (fun o => o.1 = i) with | some o => o.2.out | none => false
  | 2 => bit raw i
  | _ => d.front.any fun e => bit e.2.1 3

/-- One line's prescaler (R205): TAP and the accumulator after it. -/
def prescale (p acc : Nat) (tav : Bool) : Bool × Nat :=
  if p = 0 then (false, acc)
  else
    let pe := max p 0x100
    if !tav then (false, acc)
    else
      let acc := (acc + 0x100) % 2 ^ 33
      if pe ≤ acc then (true, acc - pe) else (false, acc)

/-- The accumulators reset from a crossing on (R205), in every copy. -/
def decResets (s : State) (x : Nat) : State :=
  let due := (s.dec.rst.filter fun e => decide (e.2 ≤ x)).flatMap (·.1)
  let cut (c : DecCopy) : DecCopy := { c with acc := c.acc.filter fun e => !(due.contains e.1) }
  { s with dec := { s.dec with copy := cut s.dec.copy, strays := s.dec.strays.map fun e => (e.1, cut e.2),
                               rst := s.dec.rst.filter fun e => !decide (e.2 ≤ x) } }

/-- A set of numbers as a mask. -/
def maskOf (ns : List Nat) : Nat := ns.foldl (fun a k => a ||| 2 ^ k) 0

/-- The dead-time rules for crossing `x` (R206), by the state of a copy. -/
def State.deadTime (s : State) (k : DecCopy) (x : Nat) : Bool :=
  (match k.last with | some l => decide (x ≤ l + s.bfld x Reg.DEC_DEAD_DEAD) | none => false) ||
  (List.range 8).any fun w => s.bflag x (Reg.DEC_WIN_EN w) &&
    decide (s.bfld x (Reg.DEC_WIN_NM1 w) + 1 ≤
      (k.accepts.filter fun y => decide (x < y + max 1 (s.bfld x (Reg.DEC_WIN_M w)) ∧ y < x)).length)

/-- The lowest set bit below `n`. -/
def lowestBit (m n : Nat) : Option Nat := (List.range n).find? (bit m)

/-- What a copy of DEC makes of a crossing: the trigger record, the raw bits, and the flags of R206. -/
structure DecOut where
  word : Nat
  raw : Nat
  tav : Nat
  tap : Nat
  acc : Bool
  tblk : Bool
  dblk : Bool
  vdec : Bool
  impVoid : Bool
  accs : List (Nat × Nat)
deriving DecidableEq, Repr

/-- The evaluation of a crossing (R195 to R208), from its inputs, its object lists and the state of a copy. -/
def State.evaluate (s : State) (c : DecCopy) (d : DecIn) (r : ObjResult) : DecOut :=
  let x := d.x
  let es := s.rlOf x
  let algs := (List.range (s.fld Reg.DEC_SIZE_NALG)).filter fun a => s.flag (Reg.DEC_ACFG_EN a)
  let outs := algs.map fun a => (a, s.algorithm es d r a)
  let line (a : Nat) : Option Nat := if s.flag (Reg.DEC_ACFG_LEN a) then some (s.fld (Reg.DEC_ACFG_LINE a)) else none
  let raw := maskOf (outs.filterMap fun o => if o.2.out then line o.1 else none)
  let en (k : Nat) : Bool := decide (rlFld s es x 0 (Reg.DEC_LCTL_EN k) ≠ 0)
  let feedsOn (o : Nat × AlgOut) : Bool := match line o.1 with | some k => en k | none => false
  let vdec := outs.any fun o => o.2.vdec && feedsOn o
  let valg := outs.any fun o => o.2.void && feedsOn o
  let vetoes := maskOf ((List.range 16).filter (s.vetoSrc d outs raw))
  let tav := maskOf ((List.range 256).filter fun k => bit raw k &&
    decide ((s.bfld x (Reg.DEC_LCTL_VMASK k)) &&& vetoes = 0))
  let pre := (List.range 256).map fun k => (k, prescale (rlFld s es x 0 (Reg.DEC_LPS_P k)) (smGet 0 c.acc k) (bit tav k))
  let tap := maskOf (pre.filterMap fun p => if p.2.1 then some p.1 else none)
  let fired := (List.range 256).filter fun k => bit tap k && en k
  let cand := decide (fired ≠ [])
  let may := cand && !vdec && d.accen
  let tblk := may && d.thren && d.throttle
  let dblk := may && s.deadTime c x
  let acc := may && !tblk && !dblk
  let sum := (List.range 16).foldl (fun a j => if (tap >>> (16 * j)) % 65536 = 0 then a else a + 2 ^ j) 0
  let first := fired.head?.getD 0x1FF
  let ovf := (r.ovf && decide ((r.lists.getD []) ≠ [])) ||
    (List.range 16).any fun m => s.flag (Reg.DEC_PEERMAP_EN m) && (s.decClass r (64 + m)).ovf
  { word := b2n vdec * 2 ^ 63 + b2n acc * 2 ^ 62 + b2n tblk * 2 ^ 61 + b2n dblk * 2 ^ 60 + b2n valg * 2 ^ 59
      + b2n ovf * 2 ^ 58 + first * 2 ^ 48 + sum * 2 ^ 32 + tap % 2 ^ 32,
    raw := raw, tav := tav, tap := tap, acc := acc, tblk := tblk, dblk := dblk, vdec := vdec,
    impVoid := (List.range 64).any (fun k => (s.extIn d k).2) ||
      (List.range 16).any (fun m => s.flag (Reg.DEC_PEERMAP_EN m) && (s.decClass r (64 + m)).void),
    accs := pre.filterMap fun p => if p.2.2 = 0 then none else some (p.1, p.2.2) }

/-- The line counters of a crossing (R215), and the lines' event sources (R333). -/
def decCounts (s : State) (raw tav tap : Nat) (acc : Bool) : State :=
  (List.range 256).foldl (fun s k =>
    let s := if bit raw k then s.count (Reg.DEC_LRAW_COUNT k) 1 else s
    let s := if bit tav k then s.count (Reg.DEC_LTAV_COUNT k) 1 else s
    if bit tap k then
      let s := countSrc (s.count (Reg.DEC_LTAP_COUNT k) 1) (0xC0 + k)
      if acc then s.count (Reg.DEC_LTAC_COUNT k) 1 else s
    else s) s

/-- What an accepted crossing leaves in the registers and the event counters (R206, R216). -/
def decAccept (s : State) (x : Nat) : State :=
  let s := (s.setFld Reg.DEC_LASTACC_ORBIT_L (s.xid x).1).setFld Reg.DEC_LASTACC_SLOT (s.xid x).2
  countSrc (s.count Reg.DEC_ACCCNT_ACC 1) 0x1C0

/-! ### The three copies (R212, R213) -/

/-- The state of copy `i`. -/
def State.decCopy (s : State) (i : Nat) : DecCopy :=
  match s.dec.strays.find? (fun e => decide (e.1 = i)) with
  | some e => e.2
  | none => s.dec.copy

/-- A copy's state after it has made `o` of crossing `x`. -/
def DecCopy.after (c : DecCopy) (o : DecOut) (x : Nat) : DecCopy :=
  if o.acc then { acc := o.accs, last := some x, accepts := x :: (c.accepts.filter fun y => decide (x < y + 65536)) }
  else { c with acc := o.accs }

/-- What the voter compares of a copy: decision word, trigger record, state (for the CRC of the state, whose form the spec does not give;
log 48). -/
structure DecVote where
  word : Nat
  tav : Nat
  tap : Nat
  state : DecCopy
deriving DecidableEq, Repr

/-- A copy's output as a fault leaves it: `v` is what an uncorrectable table word makes of the decision word where the fault names no other
wrong bit. -/
def DecVote.hit (v : Nat) (o : DecVote) (f : DecFault) : DecVote :=
  let mask := if f.uncorr && decide (f.word = 0 ∧ f.tav = 0) then 1 + v % (2 ^ 64 - 1) else f.word.toNat
  { word := o.word ^^^ mask, tav := o.tav ^^^ f.tav.toNat, tap := o.tap,
    state := { o.state with acc := f.accs.foldl (fun m e => smSet 0 m e.1 e.2) o.state.acc } }

/-- What two of the three say. -/
def majority (a b c : DecVote) : Option DecVote := if a = b ∨ a = c then some a else if b = c then some b else none

/-- The copies' outputs on a crossing, with the faults of each. -/
def State.decVotes (s : State) (d : DecIn) (r : ObjResult) (faults : List DecFault) : DecVote × DecVote × DecVote :=
  let vote (i : Fin 3) : DecVote :=
    let o := s.evaluate (s.decCopy i) d r
    (faults.filter fun f => decide (f.copy = i)).foldl (DecVote.hit s.fresh.1.toNat)
      { word := o.word, tav := o.tav, tap := o.tap, state := (s.decCopy i).after o d.x }
  (vote 0, vote 1, vote 2)

/-- The copies keep their states; those that differ from the one that is shared are noted. -/
def decKeep (s : State) (share : DecCopy) (v : DecVote × DecVote × DecVote) : State :=
  { s with dec := { s.dec with copy := share, strays :=
    [(0, v.1.state), (1, v.2.1.state), (2, v.2.2.state)].filter fun e => !decide (e.2 = share) } }

/-- The edges that DEC waits for before crossing `x` have begun (R195): X + PINOFF where the image uses pin inputs, X + EXTDL where it uses
lane inputs or imported classes. -/
def State.decDue (s : State) (x : Nat) : Bool :=
  let sel := (List.range 64).filter fun k => s.flag (Reg.DEC_EXTSEL_EN k)
  let pins := sel.any fun k => decide (s.fld (Reg.DEC_EXTSEL_CODE k) < 0x20)
  let lanes := (sel.any fun k => decide (0x1000 ≤ s.fld (Reg.DEC_EXTSEL_CODE k))) ||
    (List.range 16).any fun m => s.flag (Reg.DEC_PEERMAP_EN m)
  (!pins || decide (x + s.fld Reg.DEC_CFG_PINOFF ≤ s.tb.n)) && (!lanes || decide (x + s.fld Reg.DEC_CFG_EXTDL ≤ s.tb.n))

/-- The decision that leaves the voter (R206, R208, R210, R215): the flags that DEC shows, the counts, the result for the streams. `raw` is
what the algorithms gave. -/
def decResult (s : State) (x raw : Nat) (v : DecVote) : State :=
  let s := s.eventIf (bit v.word 63) Reg.DEC_STAT_VOIDDEC
  let s := if bit v.word 61 then countSrc ((s.event Reg.DEC_STAT_TBLK).count Reg.DEC_BLKCNT_TBLK 1) 0x1C1 else s
  let s := if bit v.word 60 then countSrc ((s.event Reg.DEC_STAT_DBLK).count Reg.DEC_BLKCNT_DBLK 1) 0x1C2 else s
  let s := if bit v.word 63 then countSrc s 0x1C3 else s
  let s := decCounts s raw v.tav v.tap (bit v.word 62)
  let s := if bit v.word 62 then decAccept s x else s
  { s with rel := { s.rel with results :=
      (s.rel.results ++ [(x, v.word, bit v.word 62)]).drop (s.rel.results.length - 1100) } }

/-- DEC evaluates crossing `x` (R206, R208, R210, R212, R213), once its edges have begun (R195). `faults`: what goes wrong in a copy;
`corr`: words corrected. The trigger record is returned. -/
def decisionEvaluate (s : State) (x : Nat) (faults : List DecFault) (corr : Nat) : State × Option TrigRec :=
  match s.obj.results.find? (fun r => decide (r.x = x)), s.dec.inputs.find? (fun d => decide (d.x = x)) with
  | some r, some d =>
    if r.lists.isNone || !(s.decDue x) || (match s.dec.lastX with | some y => decide (x ≤ y) | none => false) then (s, none) else
    let s := decResets s x
    let o := s.evaluate s.dec.copy d r
    let v := s.decVotes d r faults
    let m := majority v.1 v.2.1 v.2.2
    let s := { decKeep s (m.getD v.1).state v with
      freeCtr := if faults = [] then s.freeCtr else s.freeCtr + 1 }
    let s := { s with dec := { s.dec with lastX := some x,
                                          inputs := s.dec.inputs.filter fun e => decide (x < e.x),
                                          kept := ((x, d.throttle, r.ovf, r.lists.getD []) :: s.dec.kept).take 1100 },
                      obj := { s.obj with results := s.obj.results.filter fun q => decide (x < q.x) } }
    let s := corrected s Reg.DEC_ECCCNT_CORR corr
    let s := (faults.filter (·.uncorr)).foldl (fun s _ => (uncorrected s Reg.DEC_ECCCNT_UNCORR).event Reg.DEC_STAT_ECCU) s
    let s := s.eventIf o.impVoid Reg.DEC_STAT_IMPVOID
    let s := if v.1 = v.2.1 ∧ v.1 = v.2.2 then s else raiseLine (s.event Reg.DEC_STAT_DVOTE) 9
    match m with
    | none => (s, none)
    | some w => (decResult s x o.raw w, some { x := x, word := w.word, tav := w.tav, tap := w.tap, throttle := d.throttle })
  | _, _ => (s, none)

/-- At an orbit boundary: a requested prescale reset applies, and a dissenting copy is reloaded from a majority copy (R205, R212); where all
three differ there is none, and none is reloaded (log 48). -/
def decBoundary (s : State) : State :=
  let s := if s.dec.strays.length ≤ 1 then { s with dec := { s.dec with strays := [] } } else s
  if s.flag Reg.DEC_CTL_PSRST then
    { s with dec := { s.dec with rst := s.dec.rst ++ [(List.range 256, s.tb.n)] } }.setFld Reg.DEC_CTL_PSRST 0
  else s

/-- At a flip: the lines whose live P changed have their accumulators reset (R205). `old` gives the words before. -/
def decFlip (s : State) (old : Nat → Word) : State :=
  let ks := (List.range 256).filter fun k => decide (old (Reg.DEC_LPS k) ≠ s.rd (Reg.DEC_LPS k))
  if ks = [] then s else { s with dec := { s.dec with rst := s.dec.rst ++ [(ks, s.tb.n)] } }

/-- DEC_LACC shows bits [32:1]. -/
def State.lacc (s : State) (k : Nat) : Word := BitVec.ofNat 32 (smGet 0 s.dec.copy.acc k / 2)

/-- Writes of N above 64 store 64 (R216). -/
def decClamp (off : Nat) (v : Word) : Word :=
  if Reg.DEC_EOPT 0 ≤ off ∧ (off - Reg.DEC_EOPT 0) % 0x20 = 0 then wSetField v 6 0 (min (wField v 6 0) 64) else v

end Sys2Proof.Machine
end

