-- ==== Sys2Proof/Machine/Qm.lean ====
section
/-! DEFINITION. The queue manager (R229 to R238): descriptors, admission, pushes and pops, the earliest deadline, delivery,
frozen queues; and the DRAM words that queue rings, DMA and hosts share (R253 to R259). -/
namespace Sys2Proof.Machine

/-! ### DRAM words (R253, R254, R256, R257) -/

/-- The channel of a BAR2 offset. -/
def dramChan (a : Nat) : Nat := a / 32 % 4

/-- The channel of offset `a` answers: ready and not failed, its domain up. -/
def State.dramReady (s : State) (a : Nat) : Bool :=
  let c := dramChan a
  s.up (81 + c) && bit (s.fld Reg.MEM_STAT_READY) c && !(bit (s.fld Reg.MEM_STAT_FAIL) c)

/-- An 8-byte word that overlaps `[a, a+n)` is damaged. -/
def wordsHit (bad : List Nat) (a n : Nat) : List Nat := bad.filter fun b => decide (b < a + n ∧ a < b / 8 * 8 + 8)

/-- What an uncorrectable DRAM word at `a` brings about (R256). -/
def dramUncorr (s : State) (a : Nat) : State :=
  let s := uncorrected s (Reg.MEM_ECCCNT_UNCORR (dramChan a))
  raiseLine ((s.setFld Reg.MEM_ERRADDR_ADDR a).event Reg.MEM_STAT_ECCU) 13

/-- One DRAM byte as a reader gets it: all ones in a damaged word. -/
def State.dramByte (s : State) (a : Nat) : Nat := if s.dram.bad.contains (a / 8 * 8) then 255 else memByte s.dram.mem a

/-- The damaged words that a read of `n` bytes at `a` meets, each reported. -/
def dramMeet (s : State) (a n : Nat) : State := (wordsHit s.dram.bad a n).foldl dramUncorr s

/-- A write of bytes; a damaged word is whole again once a write covers it (R257). -/
def dramPut (s : State) (a : Nat) (bs : List Nat) : State :=
  { s with dram := { s.dram with mem := memStore s.dram.mem a bs,
                                 bad := s.dram.bad.filter fun b => !decide (a ≤ b ∧ b + 8 ≤ a + bs.length) } }

/-- The damaged words that a write of `n` bytes at `a` covers in part, and so reads first (R257). -/
def State.partHit (s : State) (a n : Nat) : List Nat := (wordsHit s.dram.bad a n).filter fun b => !decide (a ≤ b ∧ b + 8 ≤ a + n)

/-- A client's write of bytes: the read of a read-modify-write meets the damage of a word that it covers in part (R256, R257), which
stays damaged. -/
def dramStore (s : State) (a : Nat) (bs : List Nat) : State := dramPut ((s.partHit a bs.length).foldl dramUncorr s) a bs

/-- The DRAM bytes `[a, a+n)` all answer (R254). -/
def State.dramOk (s : State) (a n : Nat) : Bool := (List.range n).all fun i => s.dramReady (a + i)

/-- A write into an SRAM window; the marks of words that it covers go. -/
def sramStore (s : State) (a : Nat) (bs : List Nat) : State :=
  { s with sram := memStore s.sram a bs, ecc := s.ecc.filter fun e => !decide (a ≤ e ∧ e < a + bs.length) }

/-! ### Descriptors (R229) -/

def State.qw (s : State) (q w : Nat) : Nat := (s.rd (Reg.QM_QD q w)).toNat

def State.qDefined (s : State) (q : Nat) : Bool := decide (q < s.fld Reg.QM_CFG_NQ) && bit (s.qw q 0) 31
def State.qFrozen (s : State) (q : Nat) : Bool := bit (s.qw q 0) 29
def State.qDram (s : State) (q : Nat) : Bool := bit (s.qw q 0) 30
def State.qBudget (s : State) (q : Nat) : Nat := s.fld (Reg.QM_CLASS_B (bitsOf (s.qw q 0) 27 22))
def State.qCap (s : State) (q : Nat) : Nat := s.qw q 2 / 64 * 64

/-- The output number that queue `q` feeds: cores 0 to 31, DMA channels 32 to 95, lanes 96 to 143. -/
def State.qOut (s : State) (q : Nat) : Option Nat :=
  let o := bitsOf (s.qw q 0) 19 14
  match bitsOf (s.qw q 0) 21 20 with
  | 0 => some o
  | 1 => some (32 + o)
  | 2 => some (96 + o)
  | _ => none

/-- LIMIT of R232. -/
def State.qLimit (s : State) (q : Nat) : Nat :=
  if bitsOf (s.qw q 0) 21 20 = 0 then s.qCap q else min (s.qCap q) (s.qw q 3 * s.qBudget q / 256)

/-- HEADROOM (R229, word 7). -/
def State.qHeadroom (s : State) (q : Nat) : Nat :=
  if s.qDefined q && !(s.qFrozen q) then s.qLimit q - s.qBacklog q else 0

/-! ### Rings (R230) -/

/-- The address of byte `i` from ring offset `off`. -/
def State.ringAddr (s : State) (q off i : Nat) : Nat := s.qw q 1 / 64 * 64 + (off + i) % s.qCap q

/-- Bytes of the ring, as stored. -/
def State.ringBytes (s : State) (q off n : Nat) : List Nat :=
  (List.range n).map fun i => if s.qDram q then s.dramByte (s.ringAddr q off i) else memByte s.sram (s.ringAddr q off i)

/-- The ring takes `n` bytes from offset `off`: its DRAM channels answer (R254). -/
def State.ringOk (s : State) (q off n : Nat) : Bool := !(s.qDram q) || (List.range n).all fun i => s.dramReady (s.ringAddr q off i)

/-- Store one byte of the ring; byte `i` of a store makes a damaged DRAM word whole with its first byte, as elements come in whole words. -/
def ringByte (s : State) (q off : Nat) (p : Nat × Nat) : State :=
  let a := s.ringAddr q off p.2
  if !(s.qDram q) then { s with sram := memPut s.sram a p.1, ecc := nsDel s.ecc a }
  else if s.dramReady a then
    { s with dram := { s.dram with mem := memPut s.dram.mem a p.1, bad := if p.2 % 8 = 0 then nsDel s.dram.bad a else s.dram.bad } }
  else s

/-- Store bytes in the ring. Those that map to a DRAM channel that does not answer are not stored, and the access gets the error
completion (R254). -/
def ringStore (s : State) (q off : Nat) (bs : List Nat) : State :=
  let t := bs.zipIdx.foldl (fun s p => ringByte s q off p) s
  if s.ringOk q off bs.length then t else errorCompletion t

/-- The 8 bytes at ring offset `off` cannot be read. -/
def State.ringBad (s : State) (q off : Nat) : Bool :=
  let a := s.ringAddr q off 0
  if s.qDram q then s.dram.bad.contains a || !(s.dramReady a) else s.ecc.contains a || s.ecc.contains (a + 4)

/-- Cost of an element of `len` payload bytes. -/
def elemCost (len : Nat) : Nat := 8 + (len + 7) / 8 * 8

/-- The element header at a ring offset. -/
def State.elemHdr (s : State) (q off : Nat) : Nat := leNat (s.ringBytes q off 8)

def State.headLen (s : State) (q : Nat) : Nat := bitsOf (s.elemHdr q (s.qw q 4)) 23 0
def State.headDeadline (s : State) (q : Nat) : Nat := bitsOf (s.elemHdr q (s.qw q 4)) 63 40

/-- The element at HEAD is there and visible. -/
def State.headReady (s : State) (q : Nat) : Bool := decide (s.qBacklog q ≠ 0) && !s.qm.hidden.contains (q, s.qw q 4)

/-! ### Backlog and freezing -/

/-- The queue watches of queue `q` (R383). -/
def State.watches (s : State) (q : Nat) : List Nat :=
  (List.range 128).filter fun w => s.flag (Reg.IRQ_QWATCH_EN w) && decide (s.fld (Reg.IRQ_QWATCH_Q w) = q)

/-- BACKLOG of queue `q` becomes `v`, and the watches' levels follow. -/
def setBacklog (s : State) (q v : Nat) : State :=
  let before := decide (s.qBacklog q ≠ 0)
  let t := s.wr (Reg.QM_QD q 6) (BitVec.ofNat 32 v)
  (s.watches q).foldl (fun t w => edgeDev before t (512 + w)) t

/-- The queue is frozen (R238). -/
def qmFreeze (s : State) (q : Nat) : State :=
  let s := if s.qDram q then dramMeet s (s.ringAddr q (s.qw q 4) 0) 8 else s
  let s := s.wr (Reg.QM_QD q 0) (wSetField (s.rd (Reg.QM_QD q 0)) 29 29 1)
  raiseLine ((uncorrected s Reg.QM_ECCCNT_UNCORR).event Reg.QM_STAT_ECCU) 11

/-- QM reads the descriptor and the header at HEAD: damage there freezes the queue (R238). -/
def qmCheck (s : State) (q : Nat) : State :=
  if s.qDefined q && !(s.qFrozen q) &&
      ((List.range 8).any (fun w => s.ecc.contains (Reg.QM_QD q w)) || (decide (s.qBacklog q ≠ 0) && s.ringBad q (s.qw q 4)))
  then qmFreeze s q else s

/-! ### Admission (R232, R233) -/

/-- How an admission was judged: REASON 0 admits; then the ring offset and the deadline. -/
structure Admit where
  reason : Nat
  off : Nat
  deadline : Nat
deriving DecidableEq, Repr

/-- The reason for which R232 refuses an element of `len` bytes from a producer; 0 admits. -/
def State.refusal (s : State) (q ptype pidx len : Nat) : Nat :=
  if !(s.qDefined q) || s.qFrozen q || !decide (bitsOf (s.qw q 0) 13 11 = ptype ∧ bitsOf (s.qw q 0) 10 5 = pidx) then 2
  else if len = 0 ∨ s.qLimit q < elemCost len then 3
  else if s.qLimit q < s.qBacklog q + elemCost len then 1
  else 0

/-- QM admits or refuses an element; of one that is admitted it writes the header and the zeros that pad the payload to whole words (R230,
R232). -/
def qmAdmit (s : State) (q ptype pidx len tag : Nat) : State × Admit :=
  let s := if s.up 80 then qmCheck s q else s
  let r := s.refusal q ptype pidx len
  if r ≠ 0 then
    let s := countSrc (s.count Reg.QM_REFCNT_REF 1) 0x1CE
    ((s.setFld Reg.QM_LASTREF_REASON r).setFld Reg.QM_LASTREF_Q q, { reason := r, off := 0, deadline := 0 })
  else
    let tail := s.qw q 5
    let dl := (s.tb.n + s.qBudget q) % 2 ^ 24
    let s := ringStore s q tail (leBytes 8 (dl * 2 ^ 40 + tag % 65536 * 2 ^ 24 + len))
    let s := if len % 8 = 0 then s else ringStore s q (tail + 8 + len) (List.replicate (8 - len % 8) 0)
    let s := s.wr (Reg.QM_QD q 5) (BitVec.ofNat 32 ((tail + elemCost len) % s.qCap q))
    let s := setBacklog s q (s.qBacklog q + elemCost len)
    ((s.watches q).foldl (fun s w => routeDev s (512 + w)) s, { reason := 0, off := tail, deadline := dl })

/-- An admitted element that nobody will write is withdrawn: it was the queue's last (R250). -/
def qmWithdraw (s : State) (q off len : Nat) : State :=
  let s := { s with qm := { s.qm with hidden := s.qm.hidden.filter fun h => !decide (h = (q, off)) } }
  setBacklog (s.wr (Reg.QM_QD q 5) (BitVec.ofNat 32 off)) q (s.qBacklog q - elemCost len)

/-- PTYPE and PIDX of an agent: core 0 to 31, or 32 for the master (R229, R234). -/
def agentType (a : Nat) : Nat × Nat := if a < 32 then (0, a) else (5, 0)

/-- LEN of the element that the header at TAIL announces (R234). -/
def State.tailLen (s : State) (q : Nat) : Nat := bitsOf (s.elemHdr q (s.qw q 5)) 23 0

/-- Judge the push of agent `a` to queue `q`: LEN and TAG come from the header at TAIL (R234). -/
def pushJudge (s : State) (a q : Nat) : State × Admit :=
  qmAdmit s q (agentType a).1 (agentType a).2 (s.tailLen q) (bitsOf (s.elemHdr q (s.qw q 5)) 39 24)

/-- QM_PUSHST[a] after a push of agent `a` has been judged. -/
def showPush (s : State) (a : Nat) (r : Admit) : State :=
  let s := (s.setFld (Reg.QM_PUSHST_ADMIT a) (b2n (r.reason = 0))).setFld (Reg.QM_PUSHST_REASON a) r.reason
  (s.setFld (Reg.QM_PUSHST_DEADLINE a) r.deadline).setFld (Reg.QM_PUSHST_DONE a) 1

/-- The event counters that have overflowed. -/
def State.evOver (s : State) : List Nat := s.evListed.filter fun k => s.flag (Reg.TMR_ESEL_OVF k)

/-- A write of QM_PUSH[a]. What is refused is kept for the rest of the cycle (R235). -/
def qmPush (s : State) (a q : Nat) : State :=
  if 33 ≤ a then s else
  let s := if s.cyc.qmRefused ≠ [] then s
    else { s with cyc := { s.cyc with qmBefore := (s.rd Reg.QM_LASTREF, s.evOver, s.flag Reg.TMR_EVSTAT_EVOVF) } }
  let s := { s with cyc := { s.cyc with qmRefused := s.cyc.qmRefused.map fun p => if p.1 = a then (p.1, p.2.1, p.2.2.1, true) else p } }
  let r := pushJudge s a q
  let s := showPush r.1 a r.2
  if r.2.reason = 0 then s
  else { s with cyc := { s.cyc with qmRefused := s.cyc.qmRefused ++ [(a, q, r.2.reason, false)] } }

/-- A push refused in this cycle that a removal of the cycle makes room for (R235). -/
def State.roomNow (s : State) (q : Nat) (p : Nat × Nat × Nat × Bool) : Bool :=
  decide (p.2.1 = q ∧ p.2.2.1 = 1 ∧ s.refusal q (agentType p.1).1 (agentType p.1).2 (s.tailLen q) = 0)

/-- Counter `k` gives back a contribution of 1; `kept` when it had overflowed before. -/
def evRetract (s : State) (k : Nat) (kept : Bool) : State :=
  let c := smGet 0 s.tmr.evCnt k
  if c = 0 then
    let t := { s with tmr := { s.tmr with evCnt := smSet 0 s.tmr.evCnt k 0xFFFFFFFFFFFF } }
    if kept then t else t.setFld (Reg.TMR_ESEL_OVF k) 0
  else { s with tmr := { s.tmr with evCnt := smSet 0 s.tmr.evCnt k (c - 1) } }

/-- The event counters take back what source `src` has contributed in this cycle (R333); `before`: what had overflowed. -/
def uncountSrc (s : State) (src : Nat) (before : List Nat × Bool) : State :=
  if !(s.cyc.evSeen.contains src) then s else
  let s := { s with cyc := { s.cyc with evSeen := nsDel s.cyc.evSeen src } }
  let s := s.evListed.foldl (fun s k =>
    if s.flag (Reg.TMR_ESEL_EN k) && decide (s.evSrc k = src) then evRetract s k (before.1.contains k) else s) s
  if s.evOver = [] then s.setFlag Reg.TMR_EVSTAT_EVOVF before.2 else s

/-- A removal of this cycle comes before the admissions of this cycle: pushes refused in it for want of headroom are judged again, and one
that is admitted has not been refused (R235). QM_PUSHST stays with an agent's latest push. -/
def rejudge (s : State) (q : Nat) : State :=
  let again := s.cyc.qmRefused
  let t := again.foldl (fun s p =>
    if s.roomNow q p then
      let r := pushJudge (s.setFld Reg.QM_REFCNT_REF (s.fld Reg.QM_REFCNT_REF - 1)) p.1 q
      if p.2.2.2 then r.1 else showPush r.1 p.1 r.2
    else { s with cyc := { s.cyc with qmRefused := s.cyc.qmRefused ++ [p] } })
    { s with cyc := { s.cyc with qmRefused := [] } }
  if t.cyc.qmRefused.length = again.length then t
  else match t.cyc.qmRefused.getLast? with
    | some p => (t.setFld Reg.QM_LASTREF_REASON p.2.2.1).setFld Reg.QM_LASTREF_Q p.2.1
    | none => uncountSrc (t.wr Reg.QM_LASTREF t.cyc.qmBefore.1) 0x1CE t.cyc.qmBefore.2

/-! ### Removal, order and delivery (R234 to R237) -/

/-- The element at HEAD leaves queue `q`. -/
def qmRemove (s : State) (q : Nat) : State :=
  let c := elemCost (s.headLen q)
  let s := s.wr (Reg.QM_QD q 4) (BitVec.ofNat 32 ((s.qw q 4 + c) % s.qCap q))
  rejudge (setBacklog s q (s.qBacklog q - c)) q

/-- A write of QM_POP[a] (R234). -/
def qmPop (s : State) (a q : Nat) : State :=
  let s := qmCheck s q
  if s.qDefined q && !(s.qFrozen q) && s.headReady q && decide (a < 32) && decide (s.qOut q = some a) then qmRemove s q
  else s.event Reg.QM_STAT_POPERR

/-- The queues that word 0 of some descriptor defines. -/
def State.qListed (s : State) : List Nat :=
  s.regs.filterMap fun e =>
    if Reg.QM_QD 0 0 ≤ e.1 ∧ e.1 < Reg.QM_QD 16384 0 ∧ (e.1 - Reg.QM_QD 0 0) % 0x20 = 0 then
      some ((e.1 - Reg.QM_QD 0 0) / 0x20) else none

/-- A 24-bit difference, signed. -/
def diff24 (a b : Nat) : Int := sext 24 (wrapN 24 ((a : Int) - (b : Int)))

/-- Of some queues the one with the earliest deadline, ties to the lower number (R236). -/
def State.earliest (s : State) : List Nat → Option Nat
  | [] => none
  | q :: r => match s.earliest r with
    | none => some q
    | some p => if diff24 (s.headDeadline q) s.tb.n ≤ diff24 (s.headDeadline p) s.tb.n then some q else some p

/-- The queue whose element output `o` takes next (R236). -/
def State.edf (s : State) (o : Nat) : Option Nat :=
  s.earliest (s.qListed.filter fun q =>
    s.qDefined q && !(s.qFrozen q) && decide (s.qOut q = some o) && s.headReady q && !(s.ringBad q (s.qw q 4)))

/-- The damaged heads among the queues of output `o` are met when the output looks for its next element (R238). -/
def edfCheck (s : State) (o : Nat) : State :=
  (s.qListed.filter fun q => decide (s.qOut q = some o)).foldl qmCheck s

/-- The element that output `o` has started. -/
def State.startedQ (s : State) (o : Nat) : Option Nat := (s.qm.started.find? fun e => decide (e.1 = o)).map (·.2)

/-- Output `o` starts the head element of queue `q`. -/
def qmStart (s : State) (o q : Nat) : State :=
  { s with qm := { s.qm with started := (s.qm.started.filter fun e => !decide (e.1 = o)) ++ [(o, q)] } }

/-- Output `o` no longer has an element in hand. -/
def qmDropStarted (s : State) (o : Nat) : State :=
  { s with qm := { s.qm with started := s.qm.started.filter fun e => !decide (e.1 = o) } }

/-- An element delivered after the end of slot DEADLINE is late (R237). -/
def lateCheck (s : State) (q dl : Nat) : State :=
  let by_ := diff24 s.tb.n dl
  if 0 < by_ then
    let s := countSrc (s.count Reg.QM_LATECNT_LATE 1) 0x1CF
    let s := (s.setFld Reg.QM_LASTLATE_BY (min by_.toNat 65535)).setFld Reg.QM_LASTLATE_Q q
    raiseLine (s.event Reg.QM_STAT_LATE) 11
  else s

/-- Output `o` completes the delivery of the element it has started (R237). -/
def qmDeliver (s : State) (o : Nat) : State :=
  match s.startedQ o with
  | none => s
  | some q => if s.qFrozen q then qmDropStarted s o else qmRemove (lateCheck (qmDropStarted s o) q (s.headDeadline q)) q

/-- Lane `n` completes the delivery of the element it has started; `corr` words of its header or descriptor were corrected (R238). -/
def laneDeliver (s : State) (n corr : Nat) : State :=
  match s.startedQ (96 + n) with
  | none => s
  | some _ => qmDeliver (corrected s Reg.QM_ECCCNT_CORR corr) (96 + n)

/-- A write of QM_QRESET with GO (R238). -/
def qmReset (s : State) (q : Nat) : State :=
  if s.fld Reg.QM_CFG_NQ ≤ q then s else
  let s := s.wr (Reg.QM_QD q 0) (wSetField (s.rd (Reg.QM_QD q 0)) 29 29 0)
  let s := (s.wr (Reg.QM_QD q 4) 0).wr (Reg.QM_QD q 5) 0
  let s := { s with ecc := s.ecc.filter fun e => !((rangeFrom 4 3).any fun w => decide (e = Reg.QM_QD q w)),
                    qm := { hidden := s.qm.hidden.filter fun h => !decide (h.1 = q),
                            started := s.qm.started.filter fun e => !decide (e.2 = q) } }
  setBacklog s q 0

/-- QM_NOW (R240). -/
def State.qNow (s : State) : Word := BitVec.ofNat 32 (s.tb.n % 2 ^ 24)

end Sys2Proof.Machine
end

