-- ==== Sys2Proof/Machine/Ro.lean ====
section
/-! DEFINITION. The pipeline ring and readout (R217 to R228): entries and their sections, requests, fragments, the throttle. -/
namespace Sys2Proof.Machine

/-! ### The ring (R217 to R219) -/

/-- The image defines readout and a ring. -/
def State.roOn (s : State) : Bool :=
  s.up 79 && s.flag Reg.RO_CFG_EN && decide (s.fld Reg.RO_RDEP_RDEP ≠ 0)

/-- Address of the entry of crossing `x` (R218). -/
def State.entryAt (s : State) (x : Nat) : Nat :=
  (s.rd Reg.RO_RINGBASE).toNat + x % s.fld Reg.RO_RDEP_RDEP * s.fld Reg.RO_XBYTES_XBYTES

/-- A size rounded up to 32 bytes. -/
def up32 (n : Nat) : Nat := (n + 31) / 32 * 32

/-- The entry at `x`'s index belongs to crossing `x`. -/
def State.entryOf (s : State) (x : Nat) : Bool := decide (leNat (memBytes s.sram (s.entryAt x) 8) = s.xid64 x)

/-- The second header word of an entry. -/
def State.entryFlags (s : State) (x : Nat) : Nat := leNat (memBytes s.sram (s.entryAt x + 8) 8)

/-- Open the entry of crossing `x` (R218). -/
def roOpen (s : State) (x : Nat) : State :=
  if s.roOn then sramStore s (s.entryAt x) (leBytes 8 (s.xid64 x) ++ List.replicate 24 0) else s

/-- Set bits of the second header word of the entry of crossing `x`. -/
def entrySet (s : State) (x m : Nat) : State := sramStore s (s.entryAt x + 8) (leBytes 8 (s.entryFlags x ||| m))

/-- The lane slots of crossing `x` become final at its handover: `feeds` are the frames of the lanes that are not VOID (R217,
R219, R221). -/
def roLanes (s : State) (x : Nat) (feeds : List (Nat × Frame)) : State :=
  if !s.roOn then s else
  let s := { s with ro := { s.ro with cur := some x } }.setFld Reg.RO_CUR_IDX_IDX (x % s.fld Reg.RO_RDEP_RDEP)
  if !(s.entryOf x) then s else
  let s := s.frontLanes.foldl (fun s n =>
    let size := 32 * s.fld (Reg.RO_LSZ_SIZE n)
    let data := match feeds.find? (fun p => decide (p.1 = n)) with
      | some p => p.2.data % 2 ^ (s.fld (Reg.MDR_NEG_D n))
      | none => 0
    if size = 0 then s else sramStore s (s.entryAt x + 32 * s.fld (Reg.RO_LSZ_OFF n)) (leBytes size data)) s
  let void := s.frontLanes.filter fun n => !(feeds.any fun p => decide (p.1 = n))
  entrySet s x (2 ^ 48 + maskOf void)

/-- The layers of a mask. -/
def layersOf (m : Nat) : List Nat := (List.range 4).filter (bit m)

/-- Bytes of a cell section (R217). -/
def State.cellBytes (s : State) : Nat := up32 ((s.fld Reg.PF_CFG_NROWS * s.fld Reg.PF_CFG_NCOLS * 20 + 7) / 8)

/-- The cell sections of crossing `x`, from the mapped cells that CND puts out; other cells are background (R135, R217). -/
def roCells (s : State) (x : Nat) (cells : List (Nat × Nat)) : State :=
  if !s.roOn || !(s.entryOf x) then s else
  let ncols := s.fld Reg.PF_CFG_NCOLS
  let s := (layersOf (s.fld Reg.RO_CFG_CLAY)).foldl (fun s l =>
    let bg := cellWord false false false false (s.bfld x (Reg.ING_BG_BG l))
    let mine := cells.filter fun e => decide (e.1 / 8192 = l)
    let word (i : Nat) : Nat := match mine.find? (fun e => decide (e.1 % 8192 = i / ncols * 128 + i % ncols)) with
      | some e => e.2
      | none => bg
    let bits := (List.range (s.fld Reg.PF_CFG_NROWS * ncols)).foldl (fun a i => a + word i * 2 ^ (20 * i)) 0
    sramStore s (s.entryAt x + 32 * s.fld (Reg.RO_COFF_OFF l)) (leBytes s.cellBytes bits)) s
  entrySet s x (2 ^ 49)

/-- The trigger record of a crossing (R217). -/
def roTrig (s : State) (r : TrigRec) : State :=
  if !s.roOn || !(s.entryOf r.x) then s else
  entrySet (sramStore s (s.entryAt r.x + 32 * s.fld Reg.RO_SECOFF_TROFF)
    (leBytes 8 r.word ++ leBytes 32 r.tav ++ leBytes 32 r.tap ++ List.replicate 56 0)) r.x (2 ^ 50)

/-- The classes that RO_OCLS stores, ascending. -/
def State.roClasses (s : State) : List Nat :=
  (List.range 64).filter (bit (s.fld Reg.RO_OCLS_LO_CLS_L + 2 ^ 32 * s.fld Reg.RO_OCLS_HI_CLS_H))

/-- The object section of a crossing (R217). -/
def roObjs (s : State) (x : Nat) (ls : List ClassList) (ovf : Bool) : State :=
  if !s.roOn || !(s.entryOf x) then s else
  let one (c : Nat) : List Nat :=
    let ws := match ls.find? (fun l => decide (l.cls = c)) with | some l => s.listWords [l] ovf | none => []
    ((ws.flatMap (leBytes 8)) ++ List.replicate 520 0).take 520
  entrySet (sramStore s (s.entryAt x + 32 * s.fld Reg.RO_SECOFF_OBJOFF) (s.roClasses.flatMap one)) x (2 ^ 51)

/-- A read of RO_CUR_IDX latches RO_CUR_XID (R221). -/
def roCurRead (s : State) : Word × State :=
  let s' := match s.ro.cur with
    | some x => s.wr Reg.RO_CUR_XID (BitVec.ofNat 32 (s.xidLo x))
    | none => s
  (s.rd Reg.RO_CUR_IDX, s')

/-! ### The throttle (R228) -/

def State.throttle (s : State) : Bool :=
  let q := s.fld Reg.RO_FQ_Q
  !(s.flag Reg.RO_CTL_RDEN) || s.flag Reg.RO_CTL_FORCETHR || !(s.flag Reg.RO_FQ_EN) || !(s.qDefined q) || s.qFrozen q
    || decide (s.qHeadroom q < (s.rd Reg.RO_THRLVL).toNat)

/-! ### Fragments (R221, R224 to R226) -/

/-- What a copy has read: the bytes and the flags MISSING, OVERRUN and the uncorrectable words met. -/
structure Copied where
  bytes : List Nat
  missing : Bool
  overrun : Bool
  uncorr : List Nat
deriving DecidableEq, Repr

def Copied.join (a b : Copied) : Copied :=
  { bytes := a.bytes ++ b.bytes, missing := a.missing || b.missing, overrun := a.overrun || b.overrun,
    uncorr := a.uncorr ++ b.uncorr }

def Copied.none : Copied := { bytes := [], missing := false, overrun := false, uncorr := [] }

/-- The 8-byte words of `[a, a+n)` that are damaged. -/
def State.badWords (s : State) (a n : Nat) : List Nat :=
  ((s.ecc.filter fun e => decide (a ≤ e ∧ e < a + n)).map (· / 8 * 8)).foldl nsAdd []

/-- Read `n` bytes of the ring; the 8 bytes of a damaged word read as all ones (R221). -/
def State.ringRead (s : State) (a n : Nat) : Copied :=
  let bad := s.badWords a n
  { bytes := (List.range n).map fun i => if bad.contains ((a + i) / 8 * 8) then 255 else memByte s.sram (a + i),
    missing := false, overrun := false, uncorr := bad }

/-- Read a section of the entry of crossing `y` that VALID bit `v` covers (R226). -/
def State.section (s : State) (y : Option Nat) (v off n : Nat) : Copied :=
  match y with
  | some y =>
    if !(s.entryOf y) then { Copied.none with bytes := List.replicate n 0, overrun := true }
    else if v < 64 && !(bit (s.entryFlags y) v) then { Copied.none with bytes := List.replicate n 0, missing := true }
    else s.ringRead (s.entryAt y + off) n
  | none => { Copied.none with bytes := List.replicate n 0, overrun := true }

/-- The lanes that readout selects. -/
def State.roLsel (s : State) : Nat := s.fld Reg.RO_LSEL_LO_LANES_L + 2 ^ 32 * s.fld Reg.RO_LSEL_HI_LANES_H

/-- A crossing block (R225). -/
def State.block (s : State) (y : Option Nat) : Copied :=
  let lanes := (List.range 48).filter (bit s.roLsel)
  let c := s.section y 64 0 16
  let c := lanes.foldl (fun c n =>
    c.join (s.section y 48 (32 * s.fld (Reg.RO_LSZ_OFF n)) (32 * s.fld (Reg.RO_LSZ_SIZE n)))) c
  (layersOf (s.fld Reg.RO_CFG_CSEL)).foldl (fun c l =>
    c.join (s.section y 49 (32 * s.fld (Reg.RO_COFF_OFF l)) s.cellBytes)) c

/-- The fragment of a request: its bytes and flags (R224, R225). -/
def State.fragment (s : State) (r : RoReq) : Copied :=
  let kb := s.fld Reg.RO_CFG_KB
  let ka := s.fld Reg.RO_CFG_KA
  let blocks := (List.range (kb + 1 + ka)).foldl (fun c i =>
    c.join (s.block (if r.x + i < kb then none else some (r.x + i - kb)))) Copied.none
  let tren := s.flag Reg.RO_CFG_TREN
  let oben := s.flag Reg.RO_CFG_OBEN
  let c := if tren then blocks.join (s.section (some r.x) 50 (32 * s.fld Reg.RO_SECOFF_TROFF) 128) else blocks
  let c := if oben then c.join (s.section (some r.x) 51 (32 * s.fld Reg.RO_SECOFF_OBJOFF) (up32 (520 * s.roClasses.length))) else c
  let troff := 64 + blocks.bytes.length
  let head := [
    0xF4A6 * 2 ^ 48 + 2 ^ 40 + kb * 2 ^ 36 + ka * 2 ^ 32 + s.fld Reg.RO_FSIZE_FSIZE,
    s.xid64 r.x, r.dword.toNat,
    r.accno % 2 ^ 48 * 2 ^ 16 + b2n (decide (c.uncorr ≠ [])) * 4 + b2n c.overrun * 2 + b2n c.missing,
    r.rtime,
    s.fld Reg.RO_CFG_CSEL * 2 ^ 48 + s.roLsel,
    (if tren then troff * 2 ^ 32 else 0) + (if oben then troff + (if tren then 128 else 0) else 0),
    0]
  { c with bytes := head.flatMap (leBytes 8) ++ c.bytes }

/-! ### Requests (R222, R223, R227) -/

/-- A refused request (R227). -/
def roRefuse (s : State) : State := raiseLine ((s.count Reg.RO_ERRCNT_REFUSED 1).event Reg.RO_STAT_REFUSED) 10

/-- RO serves its first request: QM admits the element, or the request is refused and the next one is served. `fuel` bounds the
FIFO. -/
def roServe : Nat → State → State
  | 0, s => s
  | fuel + 1, s =>
    match s.ro.reqs with
    | [] => s
    | r :: rest =>
      let drop (s : State) : State := roServe fuel (roRefuse { s with ro := { s.ro with reqs := rest, space := none } })
      if !(s.flag Reg.RO_CTL_RDEN) || !(s.flag Reg.RO_FQ_EN) then drop s
      else
        let a := qmAdmit s (s.fld Reg.RO_FQ_Q) 1 0 (s.fld Reg.RO_FSIZE_FSIZE) (r.accno % 65536)
        if a.2.reason = 0 then
          { a.1 with ro := { a.1.ro with space := some a.2.off },
                     qm := { a.1.qm with hidden := a.1.qm.hidden ++ [(s.fld Reg.RO_FQ_Q, a.2.off)] } }
        else drop a.1

/-- A request enters the FIFO, or is refused at its door (R222, R227). -/
def roEnqueue (s : State) (r : RoReq) : State :=
  if !(s.flag Reg.RO_CTL_RDEN) || decide (16 ≤ s.ro.reqs.length) then roRefuse s
  else
    let t := { s with ro := { s.ro with reqs := s.ro.reqs ++ [r] } }
    if s.ro.reqs.isEmpty then roServe 1 t else t

/-- An accept strobe of RO's stream at the release instant of crossing `x` (R222, R224). -/
def roRequest (s : State) (x : Nat) (dword : BitVec 64) : State :=
  if !s.roOn then s else
  let s := countSrc s 0x1CC
  roEnqueue { s with ro := { s.ro with accno := s.ro.accno + 1 } }
    { x := x, dword := dword, accno := s.ro.accno, rtime := s.rtime }

/-- The copy of the fragment being served ends: the element becomes visible and the next request is served (R223, R226).
`corr` words were corrected. -/
def copyFragment (s : State) (corr : Nat) : State :=
  match s.ro.reqs, s.ro.space with
  | r :: rest, some off =>
    let q := s.fld Reg.RO_FQ_Q
    let c := s.fragment r
    let s := corrected s Reg.RO_ECCCNT_CORR corr
    let s := c.uncorr.foldl (fun s _ => raiseLine ((uncorrected s Reg.RO_ECCCNT_UNCORR).event Reg.RO_STAT_ECCU) 10) s
    let s := s.eventIf c.missing Reg.RO_STAT_MISSING
    let s := s.eventIf c.overrun Reg.RO_STAT_OVERRUN
    let s := if c.missing || c.overrun then raiseLine (s.count Reg.RO_ERRCNT_MISSING 1) 10 else s
    let held := s.qm.hidden.contains (q, off)
    let s := if held then
        countSrc ((ringStore s q ((off + 8) % s.qCap q) (c.bytes.take (s.fld Reg.RO_FSIZE_FSIZE))).count Reg.RO_FRAGCNT_FRAGS 1) 0x1CD
      else s
    let s := { s with qm := { s.qm with hidden := s.qm.hidden.filter fun h => !decide (h = (q, off)) } }
    roServe rest.length { s with ro := { s.ro with reqs := rest, space := none } }
  | _, _ => s

end Sys2Proof.Machine
end

