-- ==== Sys2Proof/Machine/Dma.lean ====
section
/-! DEFINITION. DMA channel control (R241 to R251) and the DRAM channels (R252 to R258). The moves themselves, which reach
registers, are in Xfer.lean. -/
namespace Sys2Proof.Machine

def State.dmaX (s : State) (ch : Nat) : DmaX := smGet DmaX.idle s.dma.chans ch

def State.setDmaX (s : State) (ch : Nat) (x : DmaX) : State :=
  { s with dma := { s.dma with chans := smSet DmaX.idle s.dma.chans ch x } }

/-- DMA_CHSTAT.STATE: 0 off, 1 idle, 2 fetch, 3 move, 4 write-back, 5 halted, 6 retry, 7 waiting for an element. -/
def State.dmaSt (s : State) (ch : Nat) : Nat := s.fld (Reg.DMA_CHSTAT_STATE ch)

/-- DMA_STAT.ANYHALT follows the channels (R260). -/
def showHalts (s : State) : State :=
  s.setFlag Reg.DMA_STAT_ANYHALT ((List.range 64).any fun c => decide (s.dmaSt c = 5))

def dmaTo (s : State) (ch st : Nat) : State := s.setFld (Reg.DMA_CHSTAT_STATE ch) st

/-! ### Fields of a descriptor (R242) -/

def dBit (d : List Nat) (w b : Nat) : Bool := bit (d.getD w 0) b
def dMode (d : List Nat) : Nat := bitsOf (d.getD 0 0) 27 26
def dSsp (d : List Nat) : Nat := bitsOf (d.getD 0 0) 25 24
def dDsp (d : List Nat) : Nat := bitsOf (d.getD 0 0) 23 22
def dTag (d : List Nat) : Nat := bitsOf (d.getD 0 0) 15 0
def dSrc (d : List Nat) : Nat := d.getD 1 0
def dDst (d : List Nat) : Nat := d.getD 2 0
def dLen (d : List Nat) : Nat := bitsOf (d.getD 3 0) 23 0
def dFill (d : List Nat) : Nat := d.getD 4 0
def dNext (d : List Nat) : Nat := d.getD 6 0 / 32 * 32
def dStop (d : List Nat) : Bool := dBit d 6 0

/-- Source and destination are read and written as the mode says (R245). -/
def dReads (d : List Nat) : Bool := decide (dMode d ≠ 1)
def dWrites (d : List Nat) : Bool := decide (dMode d ≠ 2)

/-- A bad descriptor (R243). The address that a mode does not use is not judged. -/
def State.badDesc (s : State) (ch : Nat) (d : List Nat) : Bool :=
  let src0 := dReads d && decide (dSsp d = 0)
  let dst0 := dWrites d && decide (dDsp d = 0)
  decide (dMode d = 3) || decide (d.getD 3 0 = 0) || decide (2 ^ 24 ≤ d.getD 3 0) ||
    (decide (dSsp d = 3) && !(s.flag (Reg.DMA_CHCFG_QOUT ch))) || (decide (dDsp d = 3) && !(s.flag (Reg.DMA_CHCFG_QIN ch))) ||
    ((decide (dSsp d = 3) || decide (dDsp d = 3)) && decide (dMode d ≠ 0)) ||
    (src0 && decide (dSrc d % 4 ≠ 0)) || (dst0 && decide (dDst d % 4 ≠ 0)) || ((src0 || dst0) && decide (dLen d % 4 ≠ 0)) ||
    decide (bitsOf (d.getD 6 0) 4 1 ≠ 0)

/-! ### Kick, poll, enable (R244, R250) -/

/-- A fetch starts; KICK clears (R260). -/
def dmaFetchStart (s : State) (ch : Nat) : State :=
  let s := s.setDmaX ch { s.dmaX ch with stopped := false, desc := [], barrier := none }
  dmaTo (s.setFld (Reg.DMA_CHCTL_KICK ch) 0) ch 2

/-- KICK is written 1 (R244). A kick during a fetch is kept for one more fetch; in any other work it is kept as well. -/
def dmaKick (s : State) (ch : Nat) : State :=
  if !(s.up 80) || !(s.flag (Reg.DMA_CHCTL_EN ch)) then s
  else if s.dmaSt ch = 1 then dmaFetchStart s ch
  else s.setFld (Reg.DMA_CHCTL_KICK ch) 1

/-- POLL cycles have passed in an idle channel (R242, R244). -/
def dmaPoll (s : State) (ch : Nat) : State :=
  if s.up 80 && decide (s.dmaSt ch = 1) && decide (s.fld (Reg.DMA_CHCFG_POLL ch) ≠ 0) && !(s.dmaX ch).stopped
  then dmaFetchStart s ch else s

/-- EN goes from 0 to 1 (R250). -/
def dmaEnable (s : State) (ch : Nat) : State :=
  if !(s.up 80) || s.flag (Reg.DMA_CHCTL_EN ch) then s
  else
    let s := (s.setDmaX ch DmaX.idle).setFld (Reg.DMA_CHCTL_EN ch) 1
    dmaFetchStart (s.wr (Reg.DMA_CUR ch) (BitVec.ofNat 32 (s.fld (Reg.DMA_RING_ADDR ch) * 32))) ch

/-- `n` bytes from `a` on, each its old value or the value that a running transfer would have stored: a free choice (R250,
log 24). -/
def mixBytes (s : State) (old new : Nat → Nat) (n : Nat) : List Nat × State :=
  (List.range n).foldl (fun p i =>
    let f := p.2.fresh
    (p.1 ++ [if f.1.getLsbD 0 then new i else old i], f.2)) ([], s)

/-- Byte `i` that the transfer of `d` would store: the fill pattern, the source byte where it lies in memory, else free. -/
def State.incoming (s : State) (d : List Nat) (i : Nat) : Nat :=
  if dMode d = 1 then dFill d / 256 ^ (i % 4) % 256
  else match dSsp d with
    | 0 => if 0x2000000 ≤ dSrc d then memByte s.sram (dSrc d + i) else (Config.freeValue (s.freeCtr + i)).toNat % 256
    | 1 => memByte s.dram.mem (dSrc d + i)
    | _ => (Config.freeValue (s.freeCtr + i)).toNat % 256

/-- The transfer that runs leaves its destination bytes mixed (R250): SRAM windows and DRAM; registers keep their values
(log 30), host memory is the host's. -/
def dmaMix (s : State) (d : List Nat) : State :=
  let n := dLen d
  if !(dWrites d) then s
  else match dDsp d with
    | 0 => if 0x02000000 ≤ dDst d then
        let r := mixBytes s (fun i => memByte s.sram (dDst d + i)) (s.incoming d) n
        { r.2 with sram := memStore r.2.sram (dDst d) r.1 } else s
    | 1 =>
      let r := mixBytes s (fun i => memByte s.dram.mem (dDst d + i)) (s.incoming d) n
      { r.2 with dram := { r.2.dram with mem := memStore r.2.dram.mem (dDst d) r.1 } }
    | _ => s

/-- The status word of a descriptor that has not completed, and so reads OWN = 1, is undefined after the disable (R250); the ring in
memory. -/
def dmaStatusMix (s : State) (ch : Nat) : State :=
  let a := s.fld (Reg.DMA_CUR_ADDR ch) * 32 + 20
  let f := s.fresh
  let bs := wordBytes (f.1.toNat % 2 ^ 32)
  match s.fld (Reg.DMA_CHCFG_RSP ch) with
  | 0 => if 0x02000000 ≤ a ∧ bit (memWord s.sram (a - 20)) 31 = true then { f.2 with sram := memStore f.2.sram a bs } else s
  | 1 => if bit (memWord s.dram.mem (a - 20)) 31 then { f.2 with dram := { f.2.dram with mem := memStore f.2.dram.mem a bs } } else s
  | _ => s

/-- EN goes from 1 to 0: everything the channel does is dropped (R250). -/
def dmaDisable (s : State) (ch : Nat) : State :=
  if !(s.up 80) || !(s.flag (Reg.DMA_CHCTL_EN ch)) then s
  else
    let x := s.dmaX ch
    let s := if s.dmaSt ch = 3 then dmaMix s x.desc else s
    let s := if s.dmaSt ch ∈ [2, 3, 4, 6, 7] then dmaStatusMix s ch else s
    let s := match x.space with
      | some (q, off) => (qmWithdraw s q off (dLen x.desc)).event (Reg.DMA_CHSTAT_WDRAW ch)
      | none => s
    let s := qmDropStarted s (32 + ch)
    let f := s.fresh
    let g := f.2.fresh
    let s := (g.2.wr (Reg.DMA_DONECNT ch) (f.1.truncate 32)).wr (Reg.DMA_BYTECNT ch) (g.1.truncate 32)
    let s := (s.setDmaX ch DmaX.idle).wr (Reg.DMA_CHCTL ch) 0
    showHalts (dmaTo s ch 0)

/-- A write of DMA_CHCTL (R244, R250). -/
def dmaCtlWrite (s : State) (ch : Nat) (v : Word) : State :=
  if v.getLsbD 31 then
    let on := s.flag (Reg.DMA_CHCTL_EN ch)
    let s := dmaEnable s ch
    if v.getLsbD 0 && on then dmaKick s ch else if v.getLsbD 0 then s.setFld (Reg.DMA_CHCTL_KICK ch) 1 else s
  else dmaDisable s ch

/-- A write of DMA_RING is discarded while EN is 1 (R250). -/
def dmaRingWrite (s : State) (ch : Nat) (v : Word) : State :=
  if s.flag (Reg.DMA_CHCTL_EN ch) then s else s.setFld (Reg.DMA_RING_ADDR ch) (wField v 31 5)

/-- A write of DMA_CHSTAT; clearing DONE clears the completion latch (R383). -/
def dmaDoneCleared (s : State) (ch : Nat) : State :=
  if s.flag (Reg.DMA_CHSTAT_DONE ch) then s
  else withDev (128 + ch) (fun s => { s with irq := { s.irq with dmaLatch := nsDel s.irq.dmaLatch ch } }) s

/-! ### Starting a fetched descriptor (R244, R246) -/

/-- The channel takes the next element of its queues, when one waits (R236, R246). -/
def dmaTakeElem (s : State) (ch : Nat) : State :=
  match (s.dmaX ch).elem with
  | some _ => dmaTo s ch 3
  | none =>
    let s := edfCheck s (32 + ch)
    match s.edf (32 + ch) with
    | some q => dmaTo (qmStart (s.setDmaX ch { s.dmaX ch with elem := some (q, 0) }) (32 + ch) q) ch 3
    | none => dmaTo s ch 7

/-- The channel asks QM for room (R246). -/
def dmaAsk (s : State) (ch : Nat) : State :=
  let d := (s.dmaX ch).desc
  let q := dFill d % 2 ^ 14
  let a := qmAdmit s q 3 ch (dLen d) (dTag d)
  if a.2.reason = 0 then
    let s := { a.1 with qm := { a.1.qm with hidden := a.1.qm.hidden ++ [(q, a.2.off)] } }
    dmaTo (s.setDmaX ch { s.dmaX ch with space := some (q, a.2.off) }) ch 3
  else dmaTo a.1 ch 6

/-- An owned, good descriptor starts its transfer. A descriptor that reads and writes queues takes its element first. -/
def dmaStart (s : State) (ch : Nat) : State :=
  let d := (s.dmaX ch).desc
  let s := if dSsp d = 3 then dmaTakeElem s ch else dmaTo s ch 3
  if s.dmaSt ch = 3 ∧ dDsp d = 3 then dmaAsk s ch else s

/-- An element has arrived for a channel that waits (R246). -/
def dmaElemReady (s : State) (ch : Nat) : State := if s.up 80 && decide (s.dmaSt ch = 7) then dmaStart s ch else s

/-- The next try of a channel in RETRY (R233, R246). -/
def dmaRetry (s : State) (ch : Nat) : State := if s.up 80 && decide (s.dmaSt ch = 6) then dmaAsk s ch else s

/-! ### Arbitration (R251) -/

/-- At a slot each channel gains its reserved rate as credit, up to 512 bytes. -/
def dmaCredit (s : State) : State :=
  if !(s.up 80) then s
  else { s with dma := { s.dma with credit := ((List.range 64).filter fun c => decide (s.rd (Reg.DMA_CHRSV c) ≠ 0)).foldl (fun m c =>
    smSet 0 m c (min 131072 (smGet 0 m c + ((s.rd (Reg.DMA_CHRSV c)).toNat : Int)))) s.dma.credit } }

/-- Channel `a` is granted before channel `b`: positive credit first, then the higher PRIO, then round robin from the channel after the one
granted last. -/
def State.grantedBefore (s : State) (a b : Nat) : Bool :=
  let pos (c : Nat) : Nat := b2n (decide (0 < smGet 0 s.dma.credit c))
  let far (c : Nat) : Nat := (c + 63 - s.dma.granted) % 64
  let prio (c : Nat) : Nat := s.fld (Reg.DMA_CHCFG_PRIO c)
  decide (pos b < pos a ∨ (pos a = pos b ∧ (prio b < prio a ∨ (prio a = prio b ∧ far a < far b))))

/-- The channel that a free mover grants, of those that move. -/
def State.nextGrant (s : State) : Option Nat :=
  ((List.range 64).filter fun c => decide (s.dmaSt c = 3)).foldl (fun best c => match best with
    | some b => if s.grantedBefore c b then some c else some b
    | none => some c) none

/-- After a descriptor: on to NEXT, or idle after STOP (R241, R242). -/
def dmaNext (s : State) (ch : Nat) (d : List Nat) : State :=
  let s := s.wr (Reg.DMA_CUR ch) (BitVec.ofNat 32 (dNext d))
  if dStop d then
    let s := dmaTo (s.setDmaX ch { s.dmaX ch with stopped := true, desc := [] }) ch 1
    if s.flag (Reg.DMA_CHCTL_KICK ch) then dmaFetchStart s ch else s
  else dmaFetchStart s ch

/-! ### DRAM channels (R252 to R256, R261) -/

/-- Channel `c` completes training (R254). -/
def trainingDone (s : State) (c : Nat) : State :=
  if s.up (81 + c) && !(bit (s.fld Reg.MEM_STAT_FAIL) c) then s.setFld Reg.MEM_STAT_READY (s.fld Reg.MEM_STAT_READY ||| 2 ^ c) else s

/-- A training attempt of channel `c` fails (R254). -/
def trainingFail (s : State) (c : Nat) : State :=
  if !(s.up (81 + c)) || bit (s.fld Reg.MEM_STAT_READY) c || bit (s.fld Reg.MEM_STAT_FAIL) c then s
  else
    let n := smGet 0 s.dram.fails c + 1
    let s := { s with dram := { s.dram with fails := smSet 0 s.dram.fails c n } }
    if n < 3 then s
    else raiseLine ((s.setFld Reg.MEM_STAT_FAIL (s.fld Reg.MEM_STAT_FAIL ||| 2 ^ c)).event Reg.MEM_STAT_ECCU) (38 + c)

/-- The ready channels. -/
def State.dramUp (s : State) : List Nat := (List.range 4).filter fun c => s.dramReady (32 * c)

/-- A write of MEM_CTL (R255, R261). -/
def memCtlWrite (s : State) (v : Word) : State :=
  let s := s.setFlag Reg.MEM_CTL_SCRUB (v.getLsbD 1)
  if v.getLsbD 0 && decide (s.dramUp ≠ []) then
    { s with dram := { s.dram with recenter := s.dramUp } }.setFld Reg.MEM_CTL_RETRAIN 1 else s

/-- Channel `c` has re-centred (R255); RETRAIN clears with the last requested one. -/
def recenterDone (s : State) (c : Nat) : State :=
  let r := nsDel s.dram.recenter c
  let s := { s with dram := { s.dram with recenter := r } }
  if r = [] then s.setFld Reg.MEM_CTL_RETRAIN 0 else s

/-- The patrol reads the word at `a` (R256): `corr` when a bit was corrected, `bad` when it cannot be. -/
def patrol (s : State) (a : Nat) (corr bad : Bool) : State :=
  if !(s.flag Reg.MEM_CTL_SCRUB) || !(s.dramReady a) then s
  else
    let s := if bad then { s with dram := { s.dram with bad := nsAdd s.dram.bad (a / 8 * 8) } } else s
    if s.dram.bad.contains (a / 8 * 8) then dramUncorr s (a / 8 * 8)
    else if corr then corrected s (Reg.MEM_ECCCNT_CORR (dramChan a)) 1 else s

end Sys2Proof.Machine
end

