-- ==== Sys2Proof/Machine/Srv.lean ====
section
/-! DEFINITION. The survey (R262 to R284): rate maps, composition, frame swaps, clones, scan-out and the display link, and
the freeze detector. The blitter is in Blit.lean. -/
namespace Sys2Proof.Machine

/-! ### Rate maps (R262 to R265) -/

/-- Address of the counter of channel `j` at cell `c` in page `g` (R263). -/
def State.counterAt (s : State) (g j c : Nat) : Nat := (s.rd Reg.SRV_PAGEBASE).toNat + 0x20000 * g + 0x8000 * j + 4 * c

/-- The filling page. -/
def State.fillPage (s : State) : Nat := 1 - s.fld Reg.SRV_PAGE_IDX

/-- Every counter of page `g` becomes 0. -/
def clearPage (s : State) (g : Nat) : State :=
  let a := s.counterAt g 0 0
  { s with sram := smDrop (fun k => decide (a ≤ k ∧ k < a + 0x20000)) s.sram,
           ecc := s.ecc.filter fun k => !decide (a ≤ k ∧ k < a + 0x20000) }

/-- A crossing that reached SRV whole is counted (R262). -/
def srvCount (s : State) (x : Nat) (rows : List (List (List Nat))) : State :=
  let es := s.rlOf x
  let g := s.fillPage
  (rows.zipIdx).foldl (fun s row => (row.1.zipIdx).foldl (fun s ch =>
    let thr := rlFld s es x row.2 (Reg.SRV_RTHR_THR ch.2)
    { s with sram := (ch.1.zipIdx).foldl (fun m cell =>
        if bit cell.1 19 || decide (cell.1 % 65536 < thr) then m
        else
          let a := s.counterAt g ch.2 (128 * row.2 + cell.2)
          memPutWord m a (satAdd 32 (memWord m a) 1)) s.sram }) s) s

/-- The sum of R283 over the cells of SRV_FRZREG in page `g`. -/
def State.frzSum (s : State) (g : Nat) : Nat :=
  let rf := s.fld Reg.SRV_FRZREG_RF
  let cf := s.fld Reg.SRV_FRZREG_CF
  (List.range (s.fld Reg.SRV_FRZREG_RL + 1 - rf)).foldl (fun a i =>
    (List.range (s.fld Reg.SRV_FRZREG_CL + 1 - cf)).foldl (fun a j =>
      a + memWord s.sram (s.counterAt g (s.fld Reg.SRV_FRZCFG_CH) (128 * (rf + i) + cf + j))) a) 0

/-! ### Starting a composition (R267) -/

/-- A composition starts: it samples the live bank, the completed page and the snapshot. -/
def compStart (s : State) : State :=
  let g := s.fld Reg.SRV_PAGE_IDX
  let a := s.counterAt g 0 0
  let c : Comp :=
    { seq := s.fld Reg.SRV_PAGE_SEQ, clear := s.flag Reg.SRV_CCTL_CLEAR,
      regs := s.regs.filter fun e => decide (0x00E00000 ≤ e.1 ∧ e.1 < 0x00E80000) && isBanked e.1,
      page := a, counts := s.sram.filter fun e => decide (a ≤ e.1 ∧ e.1 < a + 0x20000),
      valid := s.flag Reg.SRV_PAGE_VALID, snap := match s.srv.snap with | some p => p.2 | none => [] }
  let s := { s with srv := { s.srv with comp := some c } }
  let s := (s.setFld Reg.SRV_CSTAT_SEQ c.seq).wr Reg.SRV_CXID (BitVec.ofNat 32 (match s.srv.snap with | some p => p.1 | none => 0))
  ((s.setFld Reg.SRV_CSTAT_BUSY 1).setFld Reg.SRV_STAT_CBUSY 1).setFld Reg.SRV_CCTL_GO 0

/-- A start is requested: it begins, or becomes the one pending start (R267). -/
def compRequest (s : State) : State :=
  if s.srv.comp.isSome || s.srv.swapSeq.isSome then s.setFld Reg.SRV_CSTAT_PEND 1 else compStart s

/-- A write of SRV_CCTL. -/
def cctlWrite (s : State) (v : Word) : State :=
  let s := (s.setFlag Reg.SRV_CCTL_AUTO (v.getLsbD 30)).setFlag Reg.SRV_CCTL_CLEAR (v.getLsbD 29)
  if v.getLsbD 31 then compRequest (s.setFld Reg.SRV_CCTL_GO 1) else s

/-- A page swap (R264), and what follows from it (R267, R283). -/
def pageSwap (s : State) (first norb : Nat) : State :=
  let s := s.setFld Reg.SRV_PAGE_IDX s.fillPage
  let s := (s.setFld Reg.SRV_PAGE_SEQ (s.fld Reg.SRV_PAGE_SEQ + 1)).setFld Reg.SRV_PAGE_VALID 1
  let s := s.setFld Reg.SRV_PAGE_CUT (min s.srv.cut 0x3FFF)
  let s := clearPage { s with srv := { s.srv with cut := 0, pageX := (first, norb) } } s.fillPage
  let s := devEvent s 208 ⟨Reg.IRQ_PULSE, 0, 0⟩
  let sum := s.frzSum (s.fld Reg.SRV_PAGE_IDX)
  let diff := match s.srv.prevSum with | some p => decide (p ≠ sum) | none => false
  let s := { s with srv := { s.srv with prevSum := some sum, frzDiff := s.srv.frzDiff || diff } }
  if s.flag Reg.SRV_CCTL_AUTO then compRequest s else s

/-- A new period begins with the orbit of crossing `x` (R264). -/
def periodBegin (s : State) (x : Nat) : State :=
  let id := s.xid x
  let s := clearPage s s.fillPage
  { s with srv := { s.srv with cut := 0, period := some (id.1, max 1 (s.bfld x Reg.SRV_RCFG_NORB)) } }

/-- The first row of crossing `x` decides to which period it belongs, by its XID: the NORB orbits from the period's first on
(R264, R265). -/
def srvPeriod (s : State) (x : Nat) : State :=
  if !(s.flag Reg.SRV_CTL_RMEN) then { s with srv := { s.srv with period := none, waitFrom := s.tb.n } }
  else
    match s.srv.period with
    | none => if s.srv.waitFrom < x - (s.xid x).2 then periodBegin s x else s
    | some (first, norb) =>
      if ((s.xid x).1 + 2 ^ 48 - first) % 2 ^ 48 < norb then s else periodBegin (pageSwap s first norb) x

/-- Row `r` of crossing `x` reaches SRV, or finds its row buffer of 128 rows full (R169, R262, R263). The survey has taken `taken` rows out
of the buffer since the last beat (log 47). -/
def srvRow (s : State) (x r : Nat) (last : Bool) (taken : Nat) (cells : List (List Nat)) : State :=
  let s := { s with srv := { s.srv with waiting := s.srv.waiting - taken } }
  let full := decide (128 ≤ s.srv.waiting)
  let s := if r = 0 then
      let s := srvPeriod s x
      { s with srv := { s.srv with cur := some { x := x, cut := false, rows := [] } } } else s
  match s.srv.cur with
  | none => s
  | some c =>
    let hit := full && !c.cut
    let s := if c.cut || full then s else { s with srv := { s.srv with waiting := s.srv.waiting + 1 } }
    let c : SrvCross := if c.cut || full then { c with cut := true } else { c with rows := c.rows ++ [cells] }
    let s := if hit then (s.count Reg.PF_SRVCNT_DROPS 1).event Reg.PF_STAT_SRVDROP else s
    if !last then { s with srv := { s.srv with cur := some c } }
    else
      let s := { s with srv := { s.srv with cur := none } }
      if c.cut then
        let s := s.event Reg.SRV_STAT_CUT
        if s.srv.period.isSome then { s with srv := { s.srv with cut := s.srv.cut + 1 } } else s
      else
        let s := { s with srv := { s.srv with snap := some (s.xidLo x, c.rows) } }
        if s.srv.period.isSome && s.flag Reg.SRV_CTL_RMEN then srvCount s x c.rows else s

/-- A write of SRV_CTL (R265). -/
def srvCtlWrite (s : State) (v : Word) : State :=
  let was := s.flag Reg.SRV_CTL_RMEN
  let s := s.setFlag Reg.SRV_CTL_RMEN (v.getLsbD 0)
  let again := was != v.getLsbD 0 || v.getLsbD 1
  let s := if again then { s with srv := { s.srv with period := none, waitFrom := s.tb.n } } else s
  if v.getLsbD 1 then (clearPage (clearPage s 0) 1).setFld Reg.SRV_PAGE_VALID 0 else s

/-- A read of SRV_PAGE latches SRV_PAGEX (R284). -/
def pageRead (s : State) : Word × State :=
  (s.rd Reg.SRV_PAGE,
   (s.setFld Reg.SRV_PAGEX_ORBIT_L s.srv.pageX.1).setFld Reg.SRV_PAGEX_NORB s.srv.pageX.2)

/-! ### Pixels (R266, R268 to R270) -/

def pixA (p : Nat) : Nat := bitsOf p 31 30
def pixR (p : Nat) : Nat := bitsOf p 29 20
def pixG (p : Nat) : Nat := bitsOf p 19 10
def pixB (p : Nat) : Nat := bitsOf p 9 0

def mkPix (a r g b : Nat) : Nat := a % 4 * 2 ^ 30 + r % 1024 * 2 ^ 20 + g % 1024 * 2 ^ 10 + b % 1024

/-- Apply `f` to the colours of two pixels; `a` is the result's A. -/
def pixMap (f : Nat → Nat → Nat) (a p q : Nat) : Nat := mkPix a (f (pixR p) (pixR q)) (f (pixG p) (pixG q)) (f (pixB p) (pixB q))

/-- The blend of R270: `p` the source, `q` the destination. -/
def pixBlend (op p q : Nat) : Nat :=
  match op with
  | 0 => p
  | 1 => pixMap (fun x y => (pixA p * x + (3 - pixA p) * y) / 3) (max (pixA p) (pixA q)) p q
  | 2 => pixMap (fun x y => min (x + y) 1023) (max (pixA p) (pixA q)) p q
  | _ => pixMap max (max (pixA p) (pixA q)) p q

/-- A register of the composition's bank. -/
def Comp.word (c : Comp) (off : Nat) : Word := smGet (resetWord off) c.regs off

def Comp.fld (c : Comp) (f : Fld) : Nat := wField (c.word f.off) f.hi f.lo

/-- Index of the highest set bit. -/
def highBit (n : Nat) : Nat := Nat.log2 n

/-- The entry of curve `t` for element `x` (R268). -/
def Comp.curveEntry (c : Comp) (t x : Nat) : Nat :=
  let xmin := c.fld (Reg.SRV_CURVCFG_XMIN t)
  let i :=
    if c.fld (Reg.SRV_CURVCFG_LOG t) = 0 then min ((x - xmin) / 2 ^ c.fld (Reg.SRV_CURVCFG_SH t)) 1023
    else
      let u := x - xmin + 1
      let m := highBit u
      let f := if 5 ≤ m then u / 2 ^ (m - 5) % 32 else u * 2 ^ (5 - m) % 32
      min (32 * m + f) 1023
  c.fld (Reg.SRV_CURVE_COLOR t i)

/-- The coloured element at row `r`, column `k` of pass `p` (R268). -/
def Comp.element (c : Comp) (p r k : Nat) : Nat :=
  let ch := c.fld (Reg.SRV_PSRC_CH p)
  let t := c.fld (Reg.SRV_PSRC_CURVE p)
  if c.fld (Reg.SRV_PSRC_SRC p) = 0 then
    c.curveEntry t (if c.valid then memWord c.counts (c.page + 0x8000 * ch + 4 * (128 * r + k)) else 0)
  else
    let w := ((c.snap.getD r []).getD ch []).getD k 0x80000
    if bit w 19 then c.fld Reg.SRV_VCOLOR_COLOR else c.curveEntry t (w % 65536)

/-- Position and phase in the source for output index `i` (R269). -/
def scalePos (step i : Nat) : Nat × Nat := (i * step / 2 ^ 16, i * step / 2 ^ 10 % 64)

/-- One filtered component: taps of set `set`, phase `ph`, over the source values `v`. -/
def Comp.scale (c : Comp) (set n k ph : Nat) (v : Nat → Nat) : Nat :=
  let acc := (List.range 8).foldl (fun a j =>
    a + sext 12 (c.fld (Reg.SRV_SCOEF_COEF set ph j)) * (v (clampI 0 ((n : Int) - 1) ((k : Int) - 3 + j)).toNat : Nat)) (0 : Int)
  (clampI 0 1023 (sarI (acc + 128) 8)).toNat

/-- One filtered pixel in one direction. -/
def Comp.scalePix (c : Comp) (set n step i : Nat) (v : Nat → Nat) : Nat :=
  let p := scalePos step i
  mkPix (pixA (v (min p.1 (n - 1)))) (c.scale set n p.1 p.2 fun j => pixR (v j)) (c.scale set n p.1 p.2 fun j => pixG (v j))
    (c.scale set n p.1 p.2 fun j => pixB (v j))

/-! ### Image buffers -/

def State.imgBase (s : State) (b : Nat) : Nat := s.fld (Reg.SRV_IMGBASE_BASE b) * 64
def State.imgW (s : State) : Nat := s.fld Reg.SRV_IMGGEOM_IW
def State.imgH (s : State) : Nat := s.fld Reg.SRV_IMGGEOM_IH
def State.pixAt (s : State) (b x y : Nat) : Nat := s.imgBase b + y * (64 * s.fld Reg.SRV_IMGGEOM_PITCH) + 4 * x

/-- A pixel of image buffer `b`; all ones where DRAM does not answer. -/
def State.pixel (s : State) (b x y : Nat) : Nat :=
  let a := s.pixAt b x y
  if s.dramReady a then leNat ((rangeFrom a 4).map s.dramByte) else 0xFFFFFFFF

/-- The bursts of 32 bytes, one channel each (R253), that `[a, a+n)` touches, each with the part of the span in it. -/
def bursts (a n : Nat) : List (Nat × Nat) :=
  (List.range ((a + n + 31) / 32 - a / 32)).map fun i =>
    let lo := max a ((a / 32 + i) * 32)
    (lo, min (a + n) ((a / 32 + i) * 32 + 32) - lo)

/-- SRV reads `n` bytes of DRAM at `a`, a burst at a time: damaged words are met (R256), a channel that does not answer gives the
error completion (R254). -/
def srvRead (s : State) (a n : Nat) : State :=
  (bursts a n).foldl (fun s p => if s.dramReady p.1 then dramMeet s p.1 p.2 else errorCompletion s) s

/-- SRV writes bytes at `a`, a burst at a time; a channel that does not answer takes nothing and gives the error completion (R254). -/
def srvStore (s : State) (a : Nat) (bs : List Nat) : State :=
  (bursts a bs.length).foldl (fun s p =>
    if s.dramReady p.1 then dramStore s p.1 ((bs.drop (p.1 - a)).take p.2) else errorCompletion s) s

/-- SRV reads the pixels of buffer `b`, row by row; the padding of the pitch is not read. -/
def readImage (s : State) (b : Nat) : State := (List.range s.imgH).foldl (fun s y => srvRead s (s.pixAt b 0 y) (4 * s.imgW)) s

/-- One pass of the composition into buffer `b` (R268 to R270): pixels outside IW × IH are neither read nor written. -/
def compPass (c : Comp) (b : Nat) (s : State) (p : Nat) : State :=
  if c.fld (Reg.SRV_PSRC_EN p) = 0 ∨ 2 ≤ c.fld (Reg.SRV_PSRC_SRC p) then s else
  let rows := s.fld Reg.PF_CFG_NROWS
  let cols := s.fld Reg.PF_CFG_NCOLS
  let op := c.fld (Reg.SRV_PBLEND_OP p)
  let hst := c.fld (Reg.SRV_PHSTEP_STEP p)
  let vst := c.fld (Reg.SRV_PVSTEP_STEP p)
  let x := c.fld (Reg.SRV_PDST_DX p)
  let n := min (c.fld (Reg.SRV_PSIZE_DW p)) (s.imgW - x)
  (List.range (min (c.fld (Reg.SRV_PSIZE_DH p)) (s.imgH - c.fld (Reg.SRV_PDST_DY p)))).foldl (fun s i =>
    let y := c.fld (Reg.SRV_PDST_DY p) + i
    let s := if op = 0 then s else srvRead s (s.pixAt b x y) (4 * n)
    srvStore s (s.pixAt b x y) ((List.range n).flatMap fun j =>
      let src := c.scalePix 1 rows vst i fun r => c.scalePix 0 cols hst j fun k => c.element p r k
      wordBytes (pixBlend op src (s.pixel b (x + j) y)))) s

/-- The whole composition into buffer `b` (R267). -/
def compFill (c : Comp) (b : Nat) (s : State) : State :=
  let s := if c.clear then
      (List.range s.imgH).foldl (fun s y =>
        srvStore s (s.pixAt b 0 y) ((List.range s.imgW).flatMap fun _ => wordBytes (c.fld Reg.SRV_BGCOLOR_COLOR))) s else s
  (List.range 8).foldl (compPass c b) s

/-- Where composer and blitter have both written a pixel, one of the two values stands, which one is a free value (R272, log 24). -/
def compDraw (c : Comp) (b : Nat) (s : State) : State :=
  let t := s.srv.raced.foldl (fun t a =>
    let f := t.fresh
    if f.1.getLsbD 0 then f.2 else { f.2 with dram := { f.2.dram with mem := memPutWord f.2.dram.mem a (memWord s.dram.mem a) } })
    (compFill c b s)
  { t with srv := { t.srv with raced := [] } }

/-! ### Clones (R279, R280) -/

/-- Rows of buffer `b`, packed. -/
def State.imgRows (s : State) (b from_ n : Nat) : List Nat :=
  (List.range n).flatMap fun i => (List.range s.imgW).flatMap fun x => wordBytes (s.pixel b x (from_ + i))

/-- Enqueue elements one after another; the first refusal is a skipped frame. -/
def cloneElems (q tag : Nat) : List (List Nat) → State → State
  | [], s => s
  | bs :: r, s =>
    let a := qmAdmit s q 4 0 bs.length tag
    if a.2.reason = 0 then cloneElems q tag r (ringStore a.1 q ((a.2.off + 8) % a.1.qCap q) bs)
    else (a.1.count Reg.SRV_CNT_ISKIP 1).event Reg.SRV_STAT_ISKIP

/-- The elements of a clone of buffer `b`: its header and its rows. -/
def State.cloneParts (s : State) (b seq : Nat) : List (List Nat) :=
  let row := 4 * s.imgW
  let whole := 32 + row * s.imgH
  let r := (16777215 - 32) / max 1 row
  let n := if whole ≤ 16777215 then 1 else (s.imgH + r - 1) / max 1 r
  let head := leBytes 8 (0x5E1D * 2 ^ 48 + 2 ^ 40 + s.imgH * 2 ^ 12 + s.imgW) ++
    leBytes 8 (s.fld Reg.SRV_FRAMECNT_FRAMES * 2 ^ 32 + seq * 2 ^ 16) ++ leBytes 8 s.rtime ++ leBytes 8 (n % 65536)
  if n = 1 then [head ++ s.imgRows b 0 s.imgH]
  else (List.range n).map fun i => (if i = 0 then head else []) ++ s.imgRows b (i * r) (min r (s.imgH - i * r))

/-- At every DIV-th swap a clone of the new front buffer is enqueued; it is made at once (log 31). -/
def cloneFrame (s : State) (seq : Nat) : State :=
  if !(s.flag Reg.SRV_IQ_EN) then s else
  let k := s.srv.divCount + 1
  if k < max 1 (s.fld Reg.SRV_IQ_DIV) then { s with srv := { s.srv with divCount := k } }
  else
    let s := readImage { s with srv := { s.srv with divCount := 0 } } s.srv.front
    let q := s.fld Reg.SRV_IQ_Q
    let parts := s.cloneParts s.srv.front seq
    let cost := parts.foldl (fun a p => a + elemCost p.length) 0
    if 1 < parts.length ∧ s.qHeadroom q < cost then (s.count Reg.SRV_CNT_ISKIP 1).event Reg.SRV_STAT_ISKIP
    else cloneElems q (s.fld Reg.SRV_FRAMECNT_FRAMES % 65536) parts s

/-! ### Driving the display link (R88, R281, R282) -/

def dpTo (s : State) (st : Nat) : State := s.setFld Reg.SRV_DSTAT_LSTATE st

/-- SRV writes LNK_DP of display lane `n`: the transmitter on or off, pattern, drive level, spread and rate (R88, R281). -/
def dpPut (s : State) (n : Nat) (txen : Bool) (pat swing preemph rate : Nat) : State :=
  dpWrite s n (bitsWord [(11, 10, swing), (9, 8, preemph), (7, 7, s.fld Reg.SRV_DCTL_SSC), (6, 4, pat), (1, 1, b2n txen), (0, 0, rate)])

/-- The main link stops: both display lanes go to electrical idle (R281, R282). -/
def dpStop (s : State) : State :=
  let s := if s.dpLane 46 then s.setFld (Reg.LNK_DP_TXEN 46) 0 else s
  if s.dpLane 47 then s.setFld (Reg.LNK_DP_TXEN 47) 0 else s

/-- Full training begins at the given lane count and rate: TPS1 for clock recovery, from the lowest drive level (R281; log 31). A lane
that the link does not use is idle. -/
def dpTrain (s : State) (lanes rate : Nat) : State :=
  let s := dpStop { s with srv := { s.srv with tryLanes := lanes, tryRate := rate } }
  let s := dpPut s 46 true 1 0 0 rate
  dpTo (if lanes = 0 then s else dpPut s 47 true 1 0 0 rate) 2

/-- Fast training begins: TPS1 at the settings of the last training (R282; log 31). -/
def dpFast (s : State) : State :=
  let on (s : State) (n : Nat) : State := (s.setFld (Reg.LNK_DP_TXEN n) 1).setFld (Reg.LNK_DP_PAT n) 1
  dpTo (if s.srv.tryLanes = 0 then on s 46 else on (on s 46) 47) 2

/-- The pattern for equalisation that the sink supports: TPS4, else TPS3, else TPS2 (R281). -/
def State.eqPattern (s : State) : Nat := if s.flag Reg.SRV_DPCAP_TPS4 then 4 else if s.flag Reg.SRV_DPCAP_TPS3 then 3 else 2

/-- The lanes in training send `pat` at the drive level that the sink asked for: `drive` holds SWING and PREEMPH of lane 46 in
bits [1:0] and [3:2], of lane 47 in [5:4] and [7:6]. -/
def dpSend (s : State) (pat : Nat) (drive : BitVec 8) : State :=
  let d := drive.toNat
  let s := dpPut s 46 true pat (d % 4) (d / 4 % 4) s.srv.tryRate
  if s.srv.tryLanes = 0 then s else dpPut s 47 true pat (d / 16 % 4) (d / 64) s.srv.tryRate

/-- Panel self-refresh ends: SRV restores the link, by fast training where the sink reports it, else by full training (R282). -/
def psrExit (s : State) : State := if s.srv.fastLink then dpFast s else dpTrain s s.srv.tryLanes s.srv.tryRate

/-! ### Frame swaps (R271, R282, R283) -/

/-- The CRC of the freeze rectangle in buffer `b`, as far as it lies in IW × IH (R283; pixel bytes lowest first, log 31). -/
def State.frzCrc (s : State) (b : Nat) : Nat :=
  let x0 := s.fld Reg.SRV_FRZPIX0_X
  let y0 := s.fld Reg.SRV_FRZPIX0_Y
  crc32 ((List.range (min (s.fld Reg.SRV_FRZPIX1_Y + 1) s.imgH - y0)).flatMap fun i =>
    (List.range (min (s.fld Reg.SRV_FRZPIX1_X + 1) s.imgW - x0)).flatMap fun j => wordBytes (s.pixel b (x0 + j) (y0 + i)))

/-- The frame swap (R271). -/
def frameSwap (s : State) (seq : Nat) : State :=
  let s := { s with srv := { s.srv with front := 1 - s.srv.front, swapSeq := none, lastSwap := (seq, s.rtime), noSwap := 0 } }
  let s := (s.setFld Reg.SRV_STAT_SWPEND 0).wr Reg.SRV_LASTSWAP0 (s.rd Reg.SRV_FRAMECNT)
  let s := s.wr Reg.SRV_FRZCRC (BitVec.ofNat 32 (s.frzCrc s.srv.front))
  let s := cloneFrame s seq
  let s := devEvent s 210 ⟨Reg.IRQ_PULSE, 2, 2⟩
  let s := if s.fld Reg.SRV_DSTAT_LSTATE = 4 then psrExit s else s
  if s.flag Reg.SRV_CSTAT_PEND then compStart (s.setFld Reg.SRV_CSTAT_PEND 0) else s

/-- The last pass ends (R270, R271). -/
def compDone (s : State) : State :=
  match s.srv.comp with
  | none => s
  | some c =>
    let s := compDraw c (1 - s.srv.front) s
    let s := { s with srv := { s.srv with comp := none, swapSeq := some c.seq } }
    let s := ((s.setFld Reg.SRV_CSTAT_BUSY 0).setFld Reg.SRV_STAT_CBUSY 0).setFld Reg.SRV_STAT_SWPEND 1
    let s := devEvent s 209 ⟨Reg.IRQ_PULSE, 1, 1⟩
    if s.flag Reg.SRV_DCTL_EN then s else frameSwap s c.seq

/-- A read of SRV_LASTSWAP[0] latches words 1 to 3 (R271). -/
def lastSwapRead (s : State) : Word × State :=
  let t := s.srv.lastSwap.2
  (s.rd Reg.SRV_LASTSWAP0,
   ((s.setFld Reg.SRV_LASTSWAP1_SEQ s.srv.lastSwap.1).wr Reg.SRV_LASTSWAP2 (BitVec.ofNat 32 t)).wr
     Reg.SRV_LASTSWAP3 (BitVec.ofNat 32 (t / 2 ^ 32)))

/-- The freeze detector at a start of vertical blanking (R283). -/
def freezeTest (s : State) : State :=
  let crc := s.fld Reg.SRV_FRZCRC_CRC
  let v := s.srv
  if crc ≠ v.prevCrc then { s with srv := { v with prevCrc := crc, frzRun := 0, frzDiff := false, frzFired := false } }
  else
    let run := v.frzRun + 1
    let fire := s.flag Reg.SRV_FRZCFG_EN && decide (max 1 (s.fld Reg.SRV_FRZCFG_N) ≤ run) && v.frzDiff && !v.frzFired
    let s := { s with srv := { v with frzRun := run, frzFired := v.frzFired || fire } }
    if fire then raiseLine (s.event Reg.SRV_STAT_FREEZE) 57 else s

/-- Panel self-refresh begins: the transmitter goes to electrical idle (R282). -/
def psrTest (s : State) : State :=
  if s.fld Reg.SRV_DSTAT_LSTATE = 3 ∧ s.flag Reg.SRV_DCTL_PSREN = true ∧ s.flag Reg.SRV_DPCAP_PSR = true ∧
      max 1 (s.fld Reg.SRV_DCTL_PSRN) ≤ s.srv.noSwap then dpTo (dpStop s) 4 else s

/-- Scan-out has read the front buffer for the frame that ends, while the link is active (R256, R278; log 31). -/
def scanRead (s : State) : State := if s.fld Reg.SRV_DSTAT_LSTATE = 3 then readImage s s.srv.front else s

/-- Scan-out reaches the start of vertical blanking (R271, R278). -/
def vblank (s : State) : State :=
  if !(s.up 85) || !(s.flag Reg.SRV_DCTL_EN) then s else
  let s := scanRead { s with srv := { s.srv with short := [] } }
  let s := s.setFld Reg.SRV_FRAMECNT_FRAMES (satAdd 32 (s.fld Reg.SRV_FRAMECNT_FRAMES) 1)
  let s := match s.srv.swapSeq with
    | some seq => frameSwap s seq
    | none => psrTest ({ s with srv := { s.srv with noSwap := s.srv.noSwap + 1 } }.count Reg.SRV_CNT_REPEAT 1 |>.event Reg.SRV_STAT_REPEAT)
  freezeTest s

/-- Pixel `x` of line `y` is missing from the fetch FIFO when it falls due: the rest of that line shows SRV_BGCOLOR (R278); in PSR
nothing is fetched. -/
def underrun (s : State) (x y : Nat) : State :=
  if s.up 85 && s.flag Reg.SRV_DCTL_EN && decide (s.fld Reg.SRV_DSTAT_LSTATE ≠ 4) then
    ({ s with srv := { s.srv with short := s.srv.short ++ [(y, x)] } }.count Reg.SRV_CNT_UNDER 1).event Reg.SRV_STAT_UNDER else s

/-- Component `c` of a pixel at the link's depth: 8 or 10 bits (R278). -/
def State.depth (s : State) (c : Nat) : Nat := if s.flag Reg.SRV_DCTL_BPC then c else c / 4

/-- What scan-out drives onto the link for pixel `x` of line `y` of the current frame (R278): the components R, G and B of the front
buffer, of SRV_BGCOLOR after an underrun in that line; none while the link carries no pixels. -/
def State.scanPixel (s : State) (x y : Nat) : Option (Nat × Nat × Nat) :=
  if s.up 85 && s.flag Reg.SRV_DCTL_EN && decide (s.fld Reg.SRV_DSTAT_LSTATE = 3) then
    let p := if s.srv.short.any fun e => decide (e.1 = y ∧ e.2 ≤ x) then s.fld Reg.SRV_BGCOLOR_COLOR else s.pixel s.srv.front x y
    some (s.depth (pixR p), s.depth (pixG p), s.depth (pixB p))
  else none

/-! ### The display link (R278, R281) -/

/-- A write of SRV_DCTL: the timing generator and the link start or stop (R278, R281). -/
def dctlWrite (s : State) (v : Word) : State :=
  let was := s.flag Reg.SRV_DCTL_EN
  let s := s.wr Reg.SRV_DCTL (v &&& BitVec.ofNat 32 RegTab.row_SRV_DCTL.rw)
  if v.getLsbD 31 && !was then
    let s := { s with srv := { s.srv with
      noSwap := 0
      timing := [s.rd Reg.SRV_HT0, s.rd Reg.SRV_HT1, s.rd Reg.SRV_VT0, s.rd Reg.SRV_VT1, s.rd Reg.SRV_PCLK] } }
    if s.dpLane 46 && (!(s.flag Reg.SRV_DCTL_LANES) || s.dpLane 47) then dpTo s 1 else s
  else if !(v.getLsbD 31) && was then
    let s := dpTo (dpStop { s with srv := { s.srv with short := [] } }) 0
    match s.srv.swapSeq with | some seq => frameSwap s seq | none => s
  else s

/-- EDID block 0 carries a valid checksum: its 128 bytes add up to 0 modulo 256 (log 31). -/
def edidOk (edid : List Word) : Bool := decide (edid.length = 32 ∧ (edid.flatMap fun w => wordBytes w.toNat).sum % 256 = 0)

/-- SRV_HPD is high: capabilities and EDID are read and training starts (R281). `caps` is SRV_DPCAP as DPCD gives it, `edid` the words of
EDID block 0; `fast`: the sink reports a fast-training method (R282). -/
def hotPlug (s : State) (caps : Word) (edid : List Word) (fast : Bool) : State :=
  if !(s.up 85) then s else
  let s := s.setFld Reg.SRV_DSTAT_HPD 1
  if s.fld Reg.SRV_DSTAT_LSTATE = 1 then
    let s := { s with srv := { s.srv with fastLink := fast } }.wr Reg.SRV_DPCAP
      (wSetField (caps &&& BitVec.ofNat 32 RegTab.row_SRV_DPCAP.ro) 16 16 (b2n (edidOk edid)))
    let s := ((edid.take 32).zipIdx).foldl (fun s p => s.wr (Reg.SRV_EDID p.2) p.1) s
    dpTrain s (s.fld Reg.SRV_DCTL_LANES) (s.fld Reg.SRV_DCTL_RATE)
  else s

/-- SRV_HPD has been low for 2 ms: the main link stops (R281). -/
def unplug (s : State) : State :=
  if !(s.up 85) then s else
  let s := s.setFld Reg.SRV_DSTAT_HPD 0
  if s.fld Reg.SRV_DSTAT_LSTATE = 0 then s else dpTo (dpStop (s.event Reg.SRV_DSTAT_UNPLUG)) 1

/-- An HPD pulse of 0.5 ms to 1 ms; `lost` when a lane has lost lock (R281). -/
def irqHpd (s : State) (lost : Bool) : State :=
  if !(s.up 85) || decide (s.fld Reg.SRV_DSTAT_LSTATE = 0) then s else
  let s := s.event Reg.SRV_DSTAT_HPDIRQ
  if lost && decide (s.fld Reg.SRV_DSTAT_LSTATE = 3) then dpTrain s s.srv.tryLanes s.srv.tryRate else s

/-- A mode carries the pixel clock in use (R281): pixel clock times bits per pixel at most 0.8 of lanes times rate. -/
def State.carries (s : State) (lanes rate : Nat) : Bool :=
  let bpp := if s.flag Reg.SRV_DCTL_BPC then 30 else 24
  let kbps := if rate = 1 then 8100000 else 5400000
  decide (wField (s.srv.timing.getD 4 0) 19 0 * bpp * 10 ≤ (lanes + 1) * kbps * 8)

/-- Training recovers the clock, and goes on to equalisation; it ends in success, and the lanes carry SRV's symbols; or it fails,
and SRV steps down (R281). -/
def trainingStep (s : State) (r : TrainResult) (drive : BitVec 8) : State :=
  if !(s.up 85) || decide (s.fld Reg.SRV_DSTAT_LSTATE ≠ 2) then s
  else
    let l := s.srv.tryLanes
    let rate := s.srv.tryRate
    match r with
    | .clock => dpSend s s.eqPattern drive
    | .success => dpTo (dpSend ((s.setFld Reg.SRV_DSTAT_LANESUP l).setFld Reg.SRV_DSTAT_RATEUP rate) 0 drive) 3
    | .failure =>
      if rate = 1 ∧ s.carries l 0 = true then dpTrain s l 0
      else if rate = 0 ∧ l = 1 ∧ s.carries 0 0 = true then dpTrain s 0 0
      else raiseLine (dpTo (dpStop (s.event Reg.SRV_DSTAT_TRFAIL)) 5) 14

/-- SRV's link training runs: writes of LNK_DP by others are discarded (R88). -/
def State.dpTraining (s : State) : Bool := decide (s.fld Reg.SRV_DSTAT_LSTATE = 2)

end Sys2Proof.Machine
end

