-- ==== Sys2Proof/Machine/Blit.lean ====
section
/-! DEFINITION. The blitter (R272 to R277): checks, the request, operators and row order. Its accesses and their errors are in
BlitRun.lean. -/
namespace Sys2Proof.Machine

/-- Element size of a format, 0 where R273 has none. -/
def fmtSize : Nat → Nat
  | 0 => 4
  | 1 => 2
  | 2 => 4
  | 3 => 1
  | 4 => 4
  | _ => 0

/-- Minimum pitch of a format in bytes (R273). -/
def fmtPitch : Nat → Nat
  | 0 => 128
  | 2 => 128
  | 4 => 256
  | _ => 64

/-- A surface's space (0 BAR0, 1 BAR2), format and pitch in bytes. -/
def sSpace (w : Word) : Nat := wField w 31 31
def sFmt (w : Word) : Nat := wField w 26 24
def sPitch (w : Word) : Nat := wField w 9 0 * 64

/-- The surface breaks R273. -/
def surfBad (base : Nat) (f : Word) (w : Nat) : Bool :=
  let z := fmtSize (sFmt f)
  decide (base % max 1 z ≠ 0) || decide (sPitch f < fmtPitch (sFmt f)) || decide (sPitch f < w * z)

/-- One past the last byte of a surface's rectangle. -/
def surfEnd (base : Nat) (f : Word) (w h : Nat) : Nat := base + (h - 1) * sPitch f + w * fmtSize (sFmt f)

/-- The regions of BAR0 that the blitter may write: capture pages, staged static planes, and windows that the image marks (R275). -/
def State.blitRegions (s : State) : List (Nat × Nat) :=
  let region (b n : Nat) : List (Nat × Nat) := if b = 0 then [] else [(b, b + n)]
  ((List.range 8).flatMap fun k => region (s.rd (Reg.PF_WMBASE k)).toNat 0x8000) ++
    region (s.rd Reg.PF_SPBASE).toNat (0x8000 * s.fld Reg.PF_CFG_NSP) ++
    (s.img.windows.filter fun w => w.blit).map fun w => (w.base, w.base + w.size)

/-- How far the regions reach without a gap from `a` on. -/
def reachEnd (rs : List (Nat × Nat)) (a : Nat) : Nat :=
  (List.range rs.length).foldl (fun a _ => rs.foldl (fun a r => if r.1 ≤ a ∧ a < r.2 then r.2 else a) a) a

/-- The destination's bytes `[a, e)` lie where the blitter may write (R275 code 4); image buffers are DRAM. -/
def State.blitDest (s : State) (space a e : Nat) : Bool :=
  if space = 1 then decide (e ≤ 2 ^ 30) else decide (e ≤ reachEnd s.blitRegions a)

/-- The code with which the blitter refuses a request, 0 for none (R275). -/
def State.blitRefusal (s : State) (b : Blit) : Nat :=
  let fill := decide (b.op = 1)
  let fs := sFmt b.srcF
  let fd := sFmt b.dstF
  if b.w = 0 ∨ b.h = 0 ∨ fmtSize fd = 0 ∨ (!fill && (decide (fmtSize fs = 0) || decide (fs ≠ fd))) = true ∨ (b.op = 7 ∧ fd ≠ 4) then 1
  else if surfBad b.dst b.dstF b.w || (!fill && surfBad b.src b.srcF b.w) then 2
  else if !fill && decide (sSpace b.srcF = sSpace b.dstF ∧ sPitch b.srcF ≠ sPitch b.dstF ∧
      b.src < surfEnd b.dst b.dstF b.w b.h ∧ b.dst < surfEnd b.src b.srcF b.w b.h) then 3
  else if !(s.blitDest (sSpace b.dstF) b.dst (surfEnd b.dst b.dstF b.w b.h)) then 4
  else 0

/-- The request that the registers hold. -/
def State.blitOf (s : State) : Blit :=
  { src := s.fld Reg.SRV_BSRC_ADDR, srcF := s.rd Reg.SRV_BSRCF, dst := s.fld Reg.SRV_BDST_ADDR, dstF := s.rd Reg.SRV_BDSTF,
    w := wField (s.rd Reg.SRV_BSIZE) 11 0, h := wField (s.rd Reg.SRV_BSIZE) 27 16, clip0 := s.rd Reg.SRV_BCLIP0,
    clip1 := s.rd Reg.SRV_BCLIP1, fill := s.rd Reg.SRV_BFILL, op := s.fld Reg.SRV_BCTL_OP, wm := s.fld Reg.SRV_BCTL_WM }

/-- A refused or failed blit (R275, R277). -/
def blitFail (s : State) (code : Nat) : State :=
  raiseLine ((s.setFld Reg.SRV_BSTAT_ERRCODE code).event Reg.SRV_BSTAT_ERR) 14

/-- GO (R274, R275). -/
def blitGo (s : State) : State :=
  let b := s.blitOf
  let code := s.blitRefusal b
  let s := (s.setFld Reg.SRV_BSTAT_ROWS 0).setFld Reg.SRV_BSTAT_ERRCODE 0
  if code ≠ 0 then blitFail s code
  else { s with srv := { s.srv with blit := some b } }.setFld Reg.SRV_BSTAT_BUSY 1

/-- A write of SRV_BCTL; a GO while a blit runs is discarded (R275). -/
def bctlWrite (s : State) (v : Word) : State :=
  if s.srv.blit.isSome && v.getLsbD 31 then s.event Reg.SRV_BSTAT_OVR
  else
    let s := (s.setFld Reg.SRV_BCTL_OP (wField v 26 24)).setFld Reg.SRV_BCTL_WM (wField v 11 0)
    if v.getLsbD 31 then blitGo s else s

/-! ### Elements -/

/-- A cell20 word from its parts. -/
def cell20 (v : Nat) (p q : Nat) : Nat :=
  v % 65536 + (((p ||| q) / 65536) % 8) * 65536

/-- The operators on plain numbers of at most `top` (R274). -/
def numOp (op top s d : Nat) : Nat :=
  match op with
  | 2 => s ||| d
  | 3 => s &&& d
  | 4 => Nat.xor s d
  | 5 => min (s + d) top
  | 6 => max s d
  | _ => s

/-- The result of an element (R274): `s` the source (the fill value for fill), `d` the destination. -/
def elemOp (fmt op : Nat) (fill : Word) (s d : Nat) : Nat :=
  match fmt with
  | 0 =>
    let void := bit s 19 || (decide (2 ≤ op) && bit d 19)
    if void then 0x80000 + fill.toNat % 65536
    else if op < 2 then s % 2 ^ 20
    else cell20 (numOp op 65535 (s % 65536) (d % 65536)) s d
  | 4 =>
    if op < 2 then s
    else if op = 7 then pixBlend 1 s d
    else pixMap (numOp op 1023) (max (pixA s) (pixA d)) s d
  | 1 => numOp op 65535 (s % 65536) d
  | 3 => numOp op 255 (s % 256) d
  | _ => numOp op 0xFFFFFFFF s d

/-- Element (x, y) is inside the clip (R274). -/
def Blit.inClip (b : Blit) (x y : Nat) : Bool :=
  !(b.clip1.getLsbD 31) || decide (wField b.clip0 11 0 ≤ x ∧ x ≤ wField b.clip1 11 0 ∧ wField b.clip0 27 16 ≤ y ∧ y ≤ wField b.clip1 27 16)

/-- Rows run downward in number (R276). -/
def Blit.descending (b : Blit) : Bool :=
  decide (sSpace b.srcF = sSpace b.dstF ∧ sPitch b.srcF = sPitch b.dstF ∧ b.src < b.dst) && decide (b.op ≠ 1)

/-- The row that is `i`-th in processing order. -/
def Blit.rowNo (b : Blit) (i : Nat) : Nat := if b.descending then b.h - 1 - i else i

end Sys2Proof.Machine
end

