-- ==== Sys2Proof/Machine/Link.lean ====
section
/-! DEFINITION. Crossing frames (R97 to R104, R109, R211): what a lane launches in a slot and what it makes of a frame that it receives. -/
namespace Sys2Proof.Machine

/-! ### Launching (R100 to R103, R211) -/

/-- The defined streams that target lane `n`, lowest first (R45, log 25). -/
def State.streamsTo (s : State) (n : Nat) : List Nat :=
  s.streams.filter fun st => match s.img.streams[st]? with | some c => bit c.lanes n | none => false

/-- The commands that fall due in the present frame of front-end lane `n` (R103): code and FCX. -/
def State.dueCommands (s : State) (n : Nat) : List (Nat × Nat) :=
  let slot := s.tb.slot
  (if s.safe then [(4, slot)] else []) ++ (if s.tb.resyncNow then [(2, slot)] else []) ++
  ((s.streamsTo n).filterMap fun st => match s.releasedNow st with
    | some r => if r.strobe then some (1, (s.xid r.x).2) else none
    | none => none) ++
  s.mdr.due.map fun c => (c, slot)

/-- The same command due twice is one command: the first stands, so that the lowest stream's does (R103). -/
def dedup : List (Nat × Nat) → List (Nat × Nat)
  | [] => []
  | a :: r => a :: (dedup r).filter fun b => !decide (b = a)

/-- The class lists of crossing `x`: throttle level, OVF, lists. -/
def State.listsOf (s : State) (x : Nat) : Bool × Bool × List ClassList :=
  match s.dec.kept.find? (fun k => decide (k.1 = x)) with
  | some k => k.2
  | none => match s.obj.results.find? (fun r => decide (r.x = x)) with
    | some r => (false, r.ovf, r.lists.getD [])
    | none => (false, false, [])

/-- The words of one exchange list, cut to `room` words: the header first, with NKEPT as sent (R211). -/
def exchangeWords (cshift : Nat) (l : ClassList) (ovf : Bool) (xk room : Nat) : List Nat :=
  if room = 0 then []
  else
    let k := min (min l.objs.length xk) (room - 1)
    let objs := l.objs.take k
    classHeader { l with objs := objs } ovf :: objs.map fun o => objectWord cshift o.1 o.2

/-- The exchange lists of crossing `x`, in `room` words (R211). -/
def State.exchange (s : State) (x room : Nat) : List Nat :=
  let (_, ovf, ls) := s.listsOf x
  (List.range 4).foldl (fun ws j =>
    if s.flag (Reg.DEC_XCFG_EN j) then
      let c := s.fld (Reg.DEC_XCFG_CLASS j)
      let l := (ls.find? fun l => decide (l.cls = c)).getD { cls := c, ncand := 0, objs := [] }
      ws ++ exchangeWords (s.fld (Reg.OBJ_CCFG_CSHIFT c)) l ovf (s.fld (Reg.DEC_XCFG_XK j)) (room - ws.length)
    else ws) []

/-- The data area that lane `n` sends with a released word (R211). -/
def State.sentData (s : State) (n : Nat) (r : Released) : Nat :=
  let room := (s.fld (Reg.MDR_NEG_D n) - 64) / 64
  if r.late then r.word.toNat
  else (s.exchange r.x room).zipIdx.foldl (fun a p => a + p.1 * 2 ^ (64 + 64 * p.2)) r.word.toNat

/-- The throttle level sampled for crossing `x`, which a late crossing that DEC has not evaluated has too (R211). -/
def State.busyOf (s : State) (x : Nat) : Bool :=
  (s.listsOf x).1 || s.dec.inputs.any fun d => decide (d.x = x) && d.throttle

/-- HEAD STAT of an upward lane: BUSY, OVF, ERR (R211). -/
def State.sentStat (s : State) (n : Nat) (r : Released) : Nat :=
  if s.role n = 2 then
    b2n (s.busyOf r.x) * 8 + b2n (r.word.getLsbD 58) * 4 + b2n (r.word.getLsbD 63) * 2
  else 0

/-- CCCRED that a HEAD grants: 4 messages, less those that the receive queue has refused (R114). -/
def State.grant (s : State) (n : Nat) : Nat := 4 - (s.mlane n).held.length

/-- The frame of the present slot on lane `n` (R97, R211). With no word released in the slot, an upward or a peer lane sends a frame
without valid data (log 36). -/
def State.frameOut (s : State) (n : Nat) : SentFrame × Nat :=
  let m := if s.fld (Reg.MDR_NEG_VER n) = 1 then 256 else 65536
  let blank : SentFrame := { om := decide (s.tb.slot = 0), fv := decide (s.role n = 1), stat := 0, slot := s.tb.slot,
                             orbit := s.tb.orbit % m, fcmd := 0, fcx := s.tb.slot, cccred := s.grant n, data := 0 }
  if s.role n = 1 then
    if s.lstate n = 4 then
      let due := dedup (s.dueCommands n)
      match fcBest due with
      | some c => ({ blank with fcmd := c.1, fcx := c.2 }, due.length - 1)
      | none => (blank, 0)
    else (blank, 0)
  else match (s.streamsTo n).filterMap s.releasedNow with
    | r :: _ =>
      let id := s.xid r.x
      ({ blank with om := decide (id.2 = 0), fv := true, stat := s.sentStat n r, slot := id.2, orbit := id.1 % m, fcx := id.2,
                    data := s.sentData n r }, 0)
    | [] => (blank, 0)

/-- Lane `n` launches the frame of the present slot (R100): once a slot, in TRAIN and RUN. -/
def frameLaunch (s : State) (n : Nat) : State :=
  let x := s.mlane n
  if !(s.lineUp n) || !(s.madder n) || decide (s.lnkState n ≠ 4) || decide (s.tbState = 0) ||
      !(decide (s.lstate n = 4) || (decide (s.lstate n = 3) && x.committed)) || decide (x.sentAt = some s.tb.n)
  then s
  else
    let f := s.frameOut n
    let s := if f.2 = 0 then s else s.count (Reg.MDR_FCCNT_FCDROP n) f.2
    s.setMlane n { x with
      sentAt := some s.tb.n, sent := some f.1, credGiven := f.1.cccred, credUsed := 0,
      wire := s.onLine n (frameFlits (s.fld (Reg.MDR_NEG_VER n)) (s.fld (Reg.MDR_NEG_K n)) f.1) }

/-! ### Receiving (R99, R104, R109) -/

/-- The frame fails: SLOT is judged against the frame before (R99). -/
def frameFails (f : Frame) (prev : Option Nat) : Bool :=
  !f.head || !f.crcOk || !f.typesOk || decide (f.uncorr ≠ 0) ||
    (match prev with
     | some p => !(decide (f.slot = p + 1) || (decide (f.slot = 0) && f.om))
     | none => false)

/-- What the HEAD brings at once, without waiting for the CRC (R18, R21, R104). -/
def headActs (s : State) (n : Nat) (f : Frame) : State :=
  if !f.head then s
  else
    let bad := decide (f.fcmd + f.nfcmd ≠ 255)
    let s := if s.role n = 2 && bad then s.count (Reg.MDR_FCCNT_FCERR n) 1 else s
    if decide (n = 0) && decide (s.role 0 = 2) then
      let s := if f.om && s.flag Reg.TB_CFG_MKSRC then { s with tb := { s.tb with laneMark := true } } else s
      if !bad && decide (f.fcmd = 2) && decide (s.clkMode = 1) && decide (s.lstate 0 = 4) then laneResync s else s
    else s

/-- A failed frame (R99, R109, R128). -/
def frameFailed (s : State) (n : Nat) : State :=
  let s := countSrc (s.count (Reg.MDR_ERRCNT_CRCERR n) 1) n
  if s.lstate n = 4 then
    let s := if s.role n = 1 then ingFail s n else s
    let k := (s.mlane n).badRun + 1
    let s := s.setMlane n { s.mlane n with badRun := k }
    if 16 ≤ k then linkDown s n else s
  else s.setMlane n { s.mlane n with goodRun := 0 }

/-- A frame that does not fail: frame lock after 8 of them in TRAIN (R107), else to ING or DEC. -/
def frameGood (s : State) (n : Nat) (f : Frame) : State :=
  let s := s.setMlane n { s.mlane n with partCred := f.cccred }
  if s.lstate n = 4 then
    let s := s.setMlane n { s.mlane n with badRun := 0 }
    if s.role n = 1 then ingPlace s n f else decFrame s n f
  else
    let k := (s.mlane n).goodRun + 1
    let s := s.setMlane n { s.mlane n with goodRun := k }
    if 8 ≤ k ∧ (s.mlane n).lock = true then
      let s := ingRun (enterRun s n) n
      s.setMlane n { s.mlane n with partCred := f.cccred }
    else s

/-- What lane `n` reads from a frame's flits (R97, R98). -/
def State.rxFrame (s : State) (n : Nat) (r : RxFrame) : Frame :=
  readFrame (s.fld (Reg.MDR_NEG_VER n)) (s.fld (Reg.MDR_NEG_K n)) r

/-- A whole frame is received on lane `n`. -/
def frameReceive (s : State) (n : Nat) (f : Frame) : State :=
  let x := s.mlane n
  if !(s.lineUp n) || !(s.madder n) || decide (s.lnkState n ≠ 4) ||
      !(decide (s.lstate n = 4) || (decide (s.lstate n = 3) && x.committed))
  then s
  else
    let s := if f.corr = 0 then s else countSrc (s.count (Reg.MDR_FECCNT_CORR n) f.corr) (0x30 + n)
    let s := if f.newUncorr = 0 then s else s.count (Reg.MDR_ERRCNT_UNCORR n) f.newUncorr
    let s := s.setMlane n { s.mlane n with prevSlot := if f.head then some f.slot else none }
    let s := headActs s n f
    if frameFails f x.prevSlot then frameFailed s n else frameGood s n f

end Sys2Proof.Machine
end

