-- ==== Sys2Proof/Machine/Cc.lean ====
section
/-! DEFINITION. The control channel (R112 to R114) and the receiver's lock (R92, R93). Remote accesses are executed in Xfer.lean,
over the register accesses of Bus.lean. -/
namespace Sys2Proof.Machine

/-! ### Locks (R92, R93) -/

/-- Lane `n` sends and receives frames: READY in LNK, and in RUN or past the COMMIT of TRAIN. -/
def State.framed (s : State) (n : Nat) : Bool :=
  s.laneUp n && s.madder n && decide (s.lnkState n = 4) &&
    (decide (s.lstate n = 4) || (decide (s.lstate n = 3) && (s.mlane n).committed))

/-- The receiver gains or drops its lock: codeword lock with FEC, block lock without. Eight good frames in a row must be received under
lock before RUN (R107): the count begins at the lock. A lock lost in RUN leaves the link up, for R109 names the losses of R76 alone (DESIGN
CHOICE, log 46): the frames that fail without it bring the link down. -/
def lockChange (s : State) (n : Nat) (codeword b : Bool) : State :=
  if s.framed n && decide (s.flag (Reg.MDR_NEG_FEC n) = codeword) then
    s.setMlane n { s.mlane n with lock := b, goodRun := if b && (s.mlane n).lock then (s.mlane n).goodRun else 0 }
  else s

/-! ### Receiving (R112 to R114) -/

/-- The tag of a message that travels in a direction: `up` from the other side to the source (R112). -/
def State.ccTag (s : State) (n : Nat) (up : Bool) (m : CcMsg) : BitVec 64 :=
  if s.flag (Reg.MDR_LCFG_AUTH n) then
    gcmTag (s.sessionKey n up) (beNat m.seq 6 ++ [s.sourceLane n, b2n up, 0, 0, 0, 0])
      (beNat (ccHeader m) 8 ++ beBytes (ccWords m))
  else 0

/-- The bytes of a message as a queue element holds it: MH, then the payload, lowest byte first (DESIGN CHOICE, log 36). -/
def ccBytes (m : CcMsg) : List Nat := leBytes 8 (ccHeader m) ++ ((ccWords m).map wordBytes).flatten

/-- Lane `n` executes the remote accesses that it receives: lane 0, as master or enabled, or while the boot configuration waits for an
image (R114, R414, R416). -/
def State.remoteOn (s : State) (n : Nat) : Bool :=
  decide (n = 0) && (decide (s.rst.strapMst = 1) || s.flag Reg.GBL_CTL_REMOTE_EN ||
    (decide (s.fld Reg.GBL_STATE_STATE = 4) && decide (s.rst.strapBoot = 3)))

/-- The receive queue takes a message, or refuses it (R114, R233). -/
def ccEnqueue (s : State) (n : Nat) (m : CcMsg) : State × Bool :=
  let q := s.fld (Reg.MDR_CCQ_RXQ n)
  let bs := ccBytes m
  let r := qmAdmit s q 2 n bs.length 0
  if r.2.reason = 0 then (ringStore r.1 q (r.2.off + 8) bs, true) else (r.1, false)

/-- A message that has passed its checks: executed, or placed in the receive queue, or held until that queue admits it. A lane without
a receive queue has nowhere to put it (log 36). -/
def ccTake (s : State) (n : Nat) (m : CcMsg) : State :=
  let x := s.mlane n
  if s.remoteOn n && (decide (m.mtype = 1) || decide (m.mtype = 2)) then
    s.setMlane n { x with remote := x.remote ++ [m] }
  else if !(s.flag (Reg.MDR_CCQ_RXEN n)) then s
  else if x.held ≠ [] then s.setMlane n { x with held := x.held ++ [m] }
  else
    let r := ccEnqueue s n m
    if r.2 then r.1 else r.1.setMlane n { r.1.mlane n with held := [m] }

/-- A whole control message arrives: policing, form, tag, sequence (R113). -/
def ccReceive (s : State) (n : Nat) (m : CcMsg) : State :=
  if !(s.lineUp n) || decide (s.lnkState n ≠ 4) || decide (s.lstate n ≠ 4) || !(s.flag (Reg.MDR_LCTL_CCEN n)) then s else
  let x := s.mlane n
  if x.tokens = 0 ∨ s.fld (Reg.MDR_POLICE_RATE n) = 0 then s.count (Reg.MDR_CCCNT_POLICED n) 1
  else
    let s := s.setMlane n { x with tokens := x.tokens - 1, credUsed := x.credUsed + 1 }
    if decide (48 < m.len) || !m.first || decide (m.segs ≠ ccSegs (s.fld (Reg.MDR_NEG_VER n)) m.len)
        || decide (x.credGiven ≤ x.credUsed) then s.count (Reg.MDR_CCCNT_MALFORM n) 1
    else if s.flag (Reg.MDR_LCFG_AUTH n) && decide (m.tag ≠ s.ccTag n (s.isSource n) m) then s.count (Reg.MDR_CCCNT_TAGFAIL n) 1
    else if m.seq ≤ x.rxSeq then s.count (Reg.MDR_CCCNT_REPLAY n) 1
    else
      let s := ccTake (s.setMlane n { s.mlane n with rxSeq := m.seq }) n m
      if m.seq = 2 ^ 48 - 1 then linkDown s n else s

/-- The messages that a lane holds ask again, oldest first: one that the queue would still refuse waits without a further refusal
(log 36). -/
def heldRetry (n : Nat) : List CcMsg → State → State
  | [], s => s
  | m :: r, s =>
    if s.refusal (s.fld (Reg.MDR_CCQ_RXQ n)) 2 n (8 + 4 * m.len) = 0 then
      let e := ccEnqueue s n m
      heldRetry n r (e.1.setMlane n { e.1.mlane n with held := r })
    else s

/-- The lanes that hold a message ask again. -/
def heldAll (s : State) : State :=
  (s.mdr.lanes.filter fun e => decide (e.2.held ≠ [])).foldl (fun s e => heldRetry e.1 e.2.held s) s

/-! ### Sending (R112 to R114) -/

/-- Lane `n` may send one more message: in RUN, with CCCRED left from the last HEAD. -/
def State.maySend (s : State) (n : Nat) : Bool :=
  s.lineUp n && decide (s.lnkState n = 4) && decide (s.lstate n = 4) && decide ((s.mlane n).partCred ≠ 0)

/-- Send `m` with SEQ and TAG added; SEQ 2^48 - 1 brings the lane down (R113). -/
def ccSend (s : State) (n : Nat) (m : CcMsg) : State :=
  let x := s.mlane n
  let m := { m with first := true, segs := ccSegs (s.fld (Reg.MDR_NEG_VER n)) m.len, seq := x.txSeq }
  let m := { m with tag := s.ccTag n (!s.isSource n) m }
  let s := s.setMlane n { x with
    sentCc := some m, txSeq := x.txSeq + 1, partCred := x.partCred - 1, wire := s.onLine n (ccFlits (s.fld (Reg.MDR_NEG_VER n)) m) }
  if x.txSeq = 2 ^ 48 - 1 then linkDown s n else s

/-- The message that an element of the transmit queue spells. -/
def ccOf (bs : List Nat) : CcMsg :=
  let h := leNat (bs.take 8)
  let len := min (bitsOf h 55 48) 48
  { first := true, segs := 0, mtype := bitsOf h 63 56, len := len, seq := 0,
    payload := (List.range len).map fun i => leNat ((bs.drop (8 + 4 * i)).take 4), tag := 0 }

/-- A reply leaves first, else the element that the lane's output takes next starts: earliest deadline first among the queues that feed it,
MDR_CCQ.TXQ among them (R112, R114, R236). -/
def ccSendNext (s : State) (n : Nat) : State :=
  if !(s.maySend n) then s else
  let x := s.mlane n
  match x.outbox with
  | m :: r => ccSend (s.setMlane n { x with outbox := r }) n m
  | [] =>
    if !(s.flag (Reg.MDR_CCQ_TXEN n)) || !(s.up 80) || (s.startedQ (96 + n)).isSome then s else
    let s := edfCheck s (96 + n)
    match s.edf (96 + n) with
    | none => s
    | some q =>
      ccSend (qmStart s (96 + n) q) n (ccOf (s.ringBytes q (s.qw q 4 + 8) (s.headLen q)))

/-- A reply of the lane: MTYPE and payload words (R114). -/
def ccReply (s : State) (n mtype : Nat) (words : List Nat) : State :=
  let x := s.mlane n
  s.setMlane n { x with
    outbox := x.outbox ++ [{ first := true, segs := 0, mtype := mtype, len := words.length, seq := 0, payload := words, tag := 0 }] }

end Sys2Proof.Machine
end

