-- ==== Sys2Proof/Machine/Irq.lean ====
section
/-! DEFINITION. Interrupts and mailboxes (R383 to R393): presentation by time, claim and end-of-interrupt, software
sources, mailboxes. -/
namespace Sys2Proof.Machine

def State.irqCore (s : State) (c : Nat) : IrqCore := smGet IrqCore.empty s.irq.cores c

def State.setIrqCore (s : State) (c : Nat) (x : IrqCore) : State :=
  { s with irq := { s.irq with cores := smSet IrqCore.empty s.irq.cores c x } }

/-- The source with ID `id` at core `c`: 0 to 31 private, 32 + s shared slot s (R385). -/
def State.srcOf (s : State) (c id : Nat) : IrqSrc :=
  if id < 32 then s.privSrc c id else s.sharedSrc (c / 8) (id - 32)

def State.setSrcOf (s : State) (c id : Nat) (x : IrqSrc) : State :=
  if id < 32 then s.setPriv c id x else s.setShared (c / 8) (id - 32) x

def State.cfgOf (s : State) (c id : Nat) : SrcCfg :=
  if id < 32 then srcCfg (s.rd (Reg.IRQ_PCFG c id)) else srcCfg (s.rd (Reg.IRQ_SCFG (c / 8) (id - 32)))

def State.levelOf (s : State) (c id : Nat) : Bool :=
  if id < 32 then s.privLevel c id else s.slotLevel (c / 8) (id - 32)

/-- The presented sources of core `c`: its private ones and the shared slots that name it (R385). -/
def State.presentedAt (s : State) (c : Nat) : List Nat :=
  let priv := s.irq.priv.filterMap fun e =>
    if e.1 / 32 = c ∧ e.2.presented then some (e.1 % 32) else none
  let shared := s.irq.shared.filterMap fun e =>
    if e.1 / 128 = c / 8 ∧ e.2.presented ∧ s.fld (Reg.IRQ_SCFG_CORE (c / 8) (e.1 % 128)) = c % 8
    then some (32 + e.1 % 128) else none
  priv ++ shared

/-- A source with its priority beats the best so far: higher PRIO, ties to the lower ID (R388). -/
def betterSrc (a b : Nat × Nat) : Bool := decide (b.1 < a.1) || (decide (a.1 = b.1) && decide (a.2 < b.2))

/-- Sources that a claim may return: presented, not in service, PRIO above the current priority (R387, R388). -/
def State.claimable (s : State) (c : Nat) : List (Nat × Nat) :=
  let cur := (s.irqCore c).stack.head?
  ((s.presentedAt c).filter fun id =>
      !(s.srcOf c id).inService && s.levelOf c id &&
      (match cur with | none => true | some t => decide (t.1 < (s.cfgOf c id).prio))).map
    fun id => ((s.cfgOf c id).prio, id)

def bestSrc : List (Nat × Nat) → Option (Nat × Nat)
  | [] => none
  | a :: r => match bestSrc r with
    | none => some a
    | some b => if betterSrc a b then some a else some b

/-- The core requests an interrupt from its ITHR thread (R387). -/
def State.irqRequest (s : State) (c : Nat) : Bool := s.up (86 + c / 8) && decide (s.claimable c ≠ [])

/-- ORDER is reported (R389). -/
def orderError (s : State) (c : Nat) : State :=
  raiseLine ((s.event (Reg.IRQ_CSTAT_ORDER c)).event Reg.IRQ_STAT_ORDER) 58

/-- The stack and the shadow are compared at every claim and EOI; a stack that differs is restored (R389). -/
def checkStack (s : State) (c : Nat) : State :=
  let x := s.irqCore c
  if x.stack = x.shadow then s else orderError (s.setIrqCore c { x with stack := x.shadow }) c

/-- A claim (R388): the word that IRQ_CLAIM[c] returns, and the state after. -/
def irqClaim (s : State) (c : Nat) : Word × State :=
  let s := checkStack s c
  match bestSrc (s.claimable c) with
  | none => (0x80000000#32, s.event (Reg.IRQ_CSTAT_SPUR c))
  | some (prio, id) =>
    let x := s.irqCore c
    let s := s.setIrqCore c { stack := ((prio, id) :: x.stack).take 16, shadow := ((prio, id) :: x.shadow).take 16 }
    (BitVec.ofNat 32 (prio * 2 ^ 16 + id), s.setSrcOf c id { s.srcOf c id with inService := true })

/-- An end-of-interrupt with ID `id` (R389). A source whose level is still 1 is presented again at once (R386). -/
def irqEoi (s : State) (c id : Nat) : State :=
  let s := checkStack s c
  let x := s.irqCore c
  match x.stack with
  | (_, top) :: rest =>
    if top = id then
      let s := s.setIrqCore c { stack := rest, shadow := x.shadow.drop 1 }
      let lvl := s.levelOf c id
      s.setSrcOf c id (if lvl then { s.srcOf c id with inService := false, presented := true } else IrqSrc.idle)
    else orderError (s.setIrqCore c { x with stack := x.shadow }) c
  | [] => orderError (s.setIrqCore c { x with stack := x.shadow }) c

/-- A source's TIME runs out (R386): it is presented if it waits with an occurrence and its level is 1. -/
def coalesceTimeout (s : State) (c id : Nat) : State :=
  let x := s.srcOf c id
  let cfg := s.cfgOf c id
  if s.up (86 + c / 8) && s.levelOf c id && cfg.en && decide (cfg.time ≠ 0) && decide (x.occ ≠ 0) && !x.presented
  then s.setSrcOf c id { x with presented := true } else s

/-- Software sources of core `c` are set: each bit set is an occurrence (R385). -/
def softSet (s : State) (c : Nat) (m : Nat) : State :=
  let s := s.setFld (Reg.IRQ_SWSET_SW c) (s.fld (Reg.IRQ_SWSET_SW c) ||| m)
  ((List.range 16).filter (bit m)).foldl (fun s i => occurPriv s c i) s

/-- Software sources are cleared. -/
def softClear (s : State) (c : Nat) (m : Nat) : State :=
  let old := s.fld (Reg.IRQ_SWSET_SW c)
  let s := s.setFld (Reg.IRQ_SWSET_SW c) (old - (old &&& m))
  ((List.range 16).filter (bit m)).foldl (fun s i => testPriv s c i) s

/-- IRQ_STKMAP, and DEPTH, CURPRI, TOPID of IRQ_CSTAT, as the stack gives them (R393). -/
def State.stkMap (s : State) (c : Nat) : Nat := (s.irqCore c).stack.foldl (fun a e => a ||| 2 ^ e.1) 0

def State.cstatStack (s : State) (c : Nat) : Nat :=
  match (s.irqCore c).stack with
  | [] => 0xFF
  | (p, id) :: r => p * 2 ^ 16 + (r.length + 1) * 2 ^ 8 + id

/-! ### Mailboxes (R390, R391) -/

def State.mbFull (s : State) (m : Nat) : Bool := s.flag (Reg.IRQ_MBSTAT_FULL m)

/-- A payload write: stored while FULL is 0, else discarded with COLL. -/
def mbWrite (s : State) (m j : Nat) (v : Word) : State :=
  if s.mbFull m then s.event (Reg.IRQ_MBSTAT_COLL m) else s.wr (Reg.IRQ_MBDATA m j) v

/-- The mailbox takes a message from `agent`. -/
def mbTake (s : State) (m agent : Nat) : State :=
  ((s.setFld (Reg.IRQ_MBSTAT_FULL m) 1).setFld (Reg.IRQ_MBSTAT_SENDER m) agent).setFld (Reg.IRQ_MBSTAT_ABORTED m) 0

/-- A SEND (R390). -/
def mbSend (s : State) (m agent : Nat) : State :=
  let full := s.mbFull m
  let s := { s with cyc := { s.cyc with mbSends := s.cyc.mbSends ++ [(m, agent, !full, s.flag (Reg.IRQ_MBSTAT_COLL m))] } }
  if full then s.event (Reg.IRQ_MBSTAT_COLL m) else mbTake s m agent

/-- An ACK (R390). It applies before a SEND of the same REFCLK cycle: an accepted send stands, and the first send that had
been refused in this cycle finds the mailbox empty. -/
def mbAck (s : State) (m : Nat) : State :=
  match s.cyc.mbSends.find? (fun e => e.1 = m) with
  | none => s.setFld (Reg.IRQ_MBSTAT_FULL m) 0
  | some (_, agent, accepted, coll) =>
    if accepted then s
    else
      let s := { s with cyc := { s.cyc with mbSends := s.cyc.mbSends.map fun e =>
        if e.1 = m ∧ e.2.1 = agent then (m, agent, true, coll) else e } }
      (mbTake s m agent).setFlag (Reg.IRQ_MBSTAT_COLL m) coll

/-- A receiver reset: the mailbox is cleared, its payload words become 0, a damaged one among them, and a full one gets ABORTED (R391). -/
def mbAbort (s : State) (m : Nat) : State :=
  let full := s.mbFull m
  let s := (List.range 16).foldl (fun s j => s.wr (Reg.IRQ_MBDATA m j) 0) s
  let s := { s with ecc := s.ecc.filter fun e => !decide (Reg.IRQ_MBDATA m 0 ≤ e ∧ e ≤ Reg.IRQ_MBDATA m 15) }
  if full then (s.setFld (Reg.IRQ_MBSTAT_FULL m) 0).event (Reg.IRQ_MBSTAT_ABORTED m) else s

/-- The mailboxes bound to a receiver agent, by the listed IRQ_MBCFG registers. -/
def State.boundTo (s : State) (p : Nat → Bool) : List Nat :=
  s.regs.filterMap fun e =>
    if Reg.IRQ_MBCFG 0 ≤ e.1 ∧ e.1 < Reg.IRQ_MBCFG 512 ∧ (e.1 - Reg.IRQ_MBCFG 0) % 0x80 = 0 ∧ p (wField e.2 5 0)
    then some ((e.1 - Reg.IRQ_MBCFG 0) / 0x80) else none

/-- Every mailbox bound to a receiver that `p` names is aborted. -/
def mbAbortAll (s : State) (p : Nat → Bool) : State := (s.boundTo p).foldl mbAbort s

/-- The mailboxes that hold a message, with its sender. -/
def State.fullBoxes (s : State) : List (Nat × Nat) :=
  ((List.range 512).filter s.mbFull).map fun m => (m, s.fld (Reg.IRQ_MBSTAT_SENDER m))

/-- PD90 has been reset: the mailboxes that were full get ABORTED and keep SENDER (R391). -/
def abortNotices (full : List (Nat × Nat)) (s : State) : State :=
  full.foldl (fun s m => (s.setFld (Reg.IRQ_MBSTAT_SENDER m.1) m.2).event (Reg.IRQ_MBSTAT_ABORTED m.1)) s

/-- The controller of cluster `k` starts: each device source that is routed to it and whose level is 1 counts as having one occurrence
(R386). -/
def clusterCounts (s : State) (k : Nat) : State :=
  s.tgtListed.foldl (fun s n => match s.slotOf n with
    | some (c, sl) =>
      if c = k ∧ s.devLevel n = true then testShared (s.setShared k sl (occur s.tickNo (s.sharedSrc k sl))) k sl else s
    | none => s) s

end Sys2Proof.Machine
end

