-- ==== Sys2Proof/Machine/Tmr.lean ====
section
/-! DEFINITION. Timers and event counters (R320 to R336). -/
namespace Sys2Proof.Machine

def State.timer (s : State) (n : Nat) : TimerX := smGet TimerX.idle s.tmr.timers n

def State.setTimer (s : State) (n : Nat) (x : TimerX) : State :=
  { s with tmr := { s.tmr with timers := smSet TimerX.idle s.tmr.timers n x } }

/-- Timer `n` is half of a linked pair (R328). -/
def State.linked (s : State) (n : Nat) : Bool := s.flag (Reg.TMR_CTL_LINK (n / 2 * 2))

/-- A 32-bit value, or the 64-bit value of a linked pair (R328), of the register family `reg`. -/
def State.tval (s : State) (reg : Nat → Nat) (n : Nat) : Nat :=
  if s.linked n then (s.rd (reg n)).toNat + 2 ^ 32 * (s.rd (reg (n + 1))).toNat else (s.rd (reg n)).toNat

/-- Set a count, 32 or 64 bits wide. -/
def State.setTval (s : State) (reg : Nat → Nat) (n v : Nat) : State :=
  let s1 := s.wr (reg n) (BitVec.ofNat 32 v)
  if s.linked n then s1.wr (reg (n + 1)) (BitVec.ofNat 32 (v / 2 ^ 32)) else s1

/-- Width of a timer's count. -/
def State.tbits (s : State) (n : Nat) : Nat := if s.linked n then 64 else 32

/-- Set the count to 0 and re-arm the match (R323, R326). -/
def tmrZero (s : State) (n : Nat) : State := (s.setTval Reg.TMR_CNT n 0).setFld (Reg.TMR_STAT_ARMED n) 1

/-- A start: RUN is set and the accumulator begins at 0; a start of a running timer has no effect (R321, R322). RUN of the odd timer of a
linked pair is held, and starts nothing (R328). -/
def tmrStart (s : State) (n : Nat) : State :=
  if s.flag (Reg.TMR_CTL_RUN n) then s
  else (s.setTimer n { s.timer n with acc := 0 }).setFld (Reg.TMR_CTL_RUN n) 1

/-- A status bit of timer `n` is set: an occurrence of its source when its IEN bit is 1 (R332, R383). `ien` is the bit
of IEN: 0 MATCH, 1 PERIOD, 2 OVF, 3 CAP. -/
def tmrEvent (s : State) (n : Nat) (f : Fld) (ien : Nat) : State :=
  let s := withDev n (fun s => s.event f) s
  if bit (s.fld (Reg.TMR_CTL_IEN n)) ien then routeDev s n else s

/-- The actions of timer `n` on itself for one event (R326): `a` is MACT or OACT. -/
def tmrSelf (s : State) (n a : Nat) : State :=
  let s := if bit a 3 then tmrZero s n else s
  if bit a 2 then tmrStart s n else s

/-- The actions of timer `n` on its partner (R326); a linked pair has none (R328). -/
def tmrPart (s : State) (n a : Nat) : State :=
  if s.linked n then s else
  let s := if bit a 1 then tmrZero s (n ^^^ 1) else s
  if bit a 0 then tmrStart s (n ^^^ 1) else s

/-- One capture: the count enters the queue, or sets CAPOVF when the queue is full (R330). -/
def tmrStore (s : State) (n : Nat) (lo hi : Word) : State :=
  let x := s.timer n
  if x.caps.length < 4 then
    let s := s.setTimer n { x with caps := x.caps ++ [lo] }
    let s := if s.linked n then
        let y := s.timer (n + 1)
        (s.setTimer (n + 1) { y with caps := y.caps ++ [hi] }).setFld (Reg.TMR_STAT_NUM (n + 1)) (y.caps.length + 1)
      else s
    let s := s.setFld (Reg.TMR_STAT_NUM n) (x.caps.length + 1)
    tmrEvent s n (Reg.TMR_STAT_CAP n) 3
  else
    let s := { s with cyc := { s.cyc with capDrops := s.cyc.capDrops ++ [(n, lo, hi, s.flag (Reg.TMR_STAT_CAPOVF n))] } }
    s.event (Reg.TMR_STAT_CAPOVF n)

/-- Capture the present count of timer `n` (the even one of a linked pair). -/
def tmrCapture (s : State) (n : Nat) : State :=
  tmrStore s n (s.rd (Reg.TMR_CNT n)) (if s.linked n then s.rd (Reg.TMR_CNT (n + 1)) else 0)

/-- Events of one timer on one FCLK edge. -/
structure TickEvents where
  matched : Bool
  overflow : Bool
deriving DecidableEq, Repr

/-- The actions that the events `e` of timer `n` select. -/
def State.actions (s : State) (n : Nat) (e : TickEvents) : List Nat :=
  (if e.matched then [s.fld (Reg.TMR_CTL_MACT n)] else []) ++ if e.overflow then [s.fld (Reg.TMR_CTL_OACT n)] else []

/-- What follows the events of the timers `es` on one FCLK edge (R327, R330): the captures that a match triggers in the partner
(CSEL 0b100), then the actions on the timers themselves, then those that arrive from partners. -/
def tmrFollow (s : State) (es : List (Nat × TickEvents)) : State :=
  let s := es.foldl (fun s e =>
    let m := e.1 ^^^ 1
    if e.2.matched && !(s.linked e.1) && decide (s.fld (Reg.TMR_CTL_CSEL m) = 4) then tmrCapture s m else s) s
  let s := es.foldl (fun s e => (s.actions e.1 e.2).foldl (fun s a => tmrSelf s e.1 a) s) s
  es.foldl (fun s e => (s.actions e.1 e.2).foldl (fun s a => tmrPart s e.1 a) s) s

/-- The match of timer `n` disarms and its event is shown (R323). -/
def tmrFire (s : State) (n : Nat) : State := tmrEvent (s.setFld (Reg.TMR_STAT_ARMED n) 0) n (Reg.TMR_STAT_MATCH n) 0

/-- The match condition of timer `n` holds (R323). -/
def State.tmrHit (s : State) (n : Nat) : Bool :=
  s.flag (Reg.TMR_STAT_ARMED n) && decide (s.tval Reg.TMR_CMP n ≤ s.tval Reg.TMR_CNT n)

/-- The match of timer `n` fires, with what follows it. -/
def tmrMatch (s : State) (n : Nat) : State := tmrFollow (tmrFire s n) [(n, { matched := true, overflow := false })]

/-- The match test at once (R324). -/
def tmrTest (s : State) (n : Nat) : State := if s.tmrHit n then tmrMatch s n else s

/-- One prescaler tick of timer `n` (R323), without what follows its events. -/
def tmrTick (s : State) (n : Nat) : State × TickEvents :=
  let cnt := s.tval Reg.TMR_CNT n
  let per := s.tval Reg.TMR_PER n
  let reload := decide (per ≠ 0 ∧ per - 1 ≤ cnt)
  let carry := !reload && decide (cnt + 1 = 2 ^ s.tbits n)
  let s :=
    if reload then countSrc (tmrEvent (tmrZero s n) n (Reg.TMR_STAT_PERIOD n) 1) (0x280 + n)
    else if carry then tmrEvent (tmrZero s n) n (Reg.TMR_STAT_OVF n) 2
    else s.setTval Reg.TMR_CNT n (cnt + 1)
  (if s.tmrHit n then tmrFire s n else s, { matched := s.tmrHit n, overflow := carry })

/-- The factor P in units of 1/256, at least 1.0 (R321). -/
def State.tmrP (s : State) (n : Nat) : Nat := max (s.fld (Reg.TMR_PRE_PINT n) * 256 + s.fld (Reg.TMR_PRE_PFRAC n)) 256

/-- An edge, rising or falling, is one that a field coded as TMR_CTL.EDGE selects. -/
def edgeSelected (code : Nat) (rise : Bool) : Bool := if code = 2 then true else rise == decide (code ≠ 1)

/-- Timer `n` takes an edge of its source (R320): no reserved source, a clocked slot clock, of a pin that is not blocked an edge that EDGE
selects. `rise`: the pin's edge is a rising one. -/
def State.tmrFed (s : State) (n : Nat) (rise : Bool) : Bool :=
  match s.fld (Reg.TMR_CTL_SRC n) with
  | 0 => true
  | 1 => true
  | 2 => decide (s.fld Reg.TB_STAT_STATE ≠ 0)
  | 3 => s.flag (Reg.PIN_ISEL_EN n) && !(s.inIdle n) && edgeSelected (s.fld (Reg.TMR_CTL_EDGE n)) rise
  | _ => false

/-- One edge of the source of timer `n` goes through the prescaler (R321), and may tick it (R323). -/
def tmrPrescale (s : State) (n : Nat) (rise : Bool) : State × TickEvents :=
  if !(s.up 90) || (s.linked n && decide (n % 2 = 1)) || !(s.flag (Reg.TMR_CTL_RUN n)) || !(s.tmrFed n rise) then
    (s, { matched := false, overflow := false })
  else
    let x := s.timer n
    let acc := x.acc + 256
    if s.tmrP n ≤ acc then tmrTick (s.setTimer n { x with acc := acc - s.tmrP n }) n
    else (s.setTimer n { x with acc := acc }, { matched := false, overflow := false })

/-- An FCLK edge with an edge of the source of timer `n`, and with one of its partner's source where `partner` says so: both ticks, then
what follows the events of both (R327). -/
def tmrEdge (s : State) (n : Nat) (rise : Bool) (partner : Option Bool) : State :=
  let p := tmrPrescale s n rise
  match partner with
  | none => tmrFollow p.1 [(n, p.2)]
  | some r =>
    let q := tmrPrescale p.1 (n ^^^ 1) r
    tmrFollow q.1 [(n, p.2), (n ^^^ 1, q.2)]

/-- A capture trigger of timer `n` (R330): CSEL 1 an edge that CEDGE selects of a pin that is not blocked, 2 the slot clock, 3 the orbit
boundary, which there is from the first lock on (R24). -/
def tmrTrigger (s : State) (n : Nat) (rise : Bool) : State :=
  if !(s.up 90) || (s.linked n && decide (n % 2 = 1)) then s else
  match s.fld (Reg.TMR_CTL_CSEL n) with
  | 1 => if s.flag (Reg.PIN_ISEL_EN (128 + n)) && !(s.inIdle (128 + n)) && edgeSelected (s.fld (Reg.TMR_CTL_CEDGE n)) rise
         then tmrCapture s n else s
  | 2 => if s.fld Reg.TB_STAT_STATE ≠ 0 then tmrCapture s n else s
  | 3 => if s.fld Reg.TB_STAT_STATE ≠ 0 then tmrCapture s n else s
  | _ => s

/-! ### Register accesses of a timer -/

/-- A write of TMR_CMP[n] or TMR_CNT[n] (`reg`): it re-arms the match and tests it at once (R324). The low half of a linked
pair is held until the high half is written (R328). -/
def tmrWriteVal (s : State) (isCnt : Bool) (n : Nat) (v : Word) : State :=
  let reg := if isCnt then Reg.TMR_CNT else Reg.TMR_CMP
  if s.linked n then
    if n % 2 = 0 then
      s.setTimer n (if isCnt then { s.timer n with heldCnt := some v } else { s.timer n with heldCmp := some v })
    else
      let m := n - 1
      let held := if isCnt then (s.timer m).heldCnt else (s.timer m).heldCmp
      let s := s.wr (reg m) (held.getD (s.rd (reg m)))
      let s := s.setTimer m (if isCnt then { s.timer m with heldCnt := none } else { s.timer m with heldCmp := none })
      tmrTest ((s.wr (reg n) v).setFld (Reg.TMR_STAT_ARMED m) 1) m
  else tmrTest ((s.wr (reg n) v).setFld (Reg.TMR_STAT_ARMED n) 1) n

/-- A write of TMR_PER[n] (R325, R328). -/
def tmrWritePer (s : State) (n : Nat) (v : Word) : State :=
  if s.linked n then
    if n % 2 = 0 then s.setTimer n { s.timer n with heldPer := some v }
    else
      let m := n - 1
      let s := s.wr (Reg.TMR_PER m) ((s.timer m).heldPer.getD (s.rd (Reg.TMR_PER m)))
      (s.setTimer m { s.timer m with heldPer := none }).wr (Reg.TMR_PER n) v
  else s.wr (Reg.TMR_PER n) v

/-- Timer `n`, or either timer of its linked pair, runs (R322). -/
def State.tmrRuns (s : State) (n : Nat) : Bool :=
  if s.linked n then s.flag (Reg.TMR_CTL_RUN (n / 2 * 2)) || s.flag (Reg.TMR_CTL_RUN (n / 2 * 2 + 1))
  else s.flag (Reg.TMR_CTL_RUN n)

/-- A write of TMR_PRE[n]: discarded with WDROP while the timer runs (R322). -/
def tmrWritePre (s : State) (n : Nat) (v : Word) : State :=
  if s.tmrRuns n then s.event (Reg.TMR_STAT_WDROP n) else s.wr (Reg.TMR_PRE n) (v &&& 0x00FFFFFF#32)

/-- A write of TMR_CTL[n]. While the timer runs, SRC, EDGE and LINK keep their values, and WDROP is set when the write
would have changed one of them (DEDUCED, log 13). LINK of an odd timer reads 0. RUN written 1 starts the timer (R322). -/
def tmrWriteCtl (s : State) (n : Nat) (v : Word) : State :=
  let old := s.rd (Reg.TMR_CTL n)
  let fixedMask : Word := if n % 2 = 0 then 0x7E000000#32 else 0x3E000000#32
  let fixedNew := v &&& fixedMask
  let rest := v &&& 0x01FFFF00#32
  let run := old &&& 0x80000000#32
  let upd (s : State) : State :=
    if s.tmrRuns n then
      let s1 := s.wr (Reg.TMR_CTL n) (run ||| (old &&& fixedMask) ||| rest)
      if fixedNew = old &&& fixedMask then s1 else s1.event (Reg.TMR_STAT_WDROP n)
    else s.wr (Reg.TMR_CTL n) (run ||| fixedNew ||| rest)
  let s := withDev n upd s
  if v.getLsbD 31 then tmrStart s n else s

/-- A read of TMR_CNT[n]: the low half of a linked pair latches the high half (R329). -/
def tmrReadCnt (s : State) (n : Nat) : Word × State :=
  if s.linked n then
    if n % 2 = 0 then (s.rd (Reg.TMR_CNT n), s.setTimer n { s.timer n with cntHi := s.rd (Reg.TMR_CNT (n + 1)) })
    else ((s.timer (n - 1)).cntHi, s)
  else (s.rd (Reg.TMR_CNT n), s)

/-- Remove the oldest capture of timer `n`. -/
def tmrPop (s : State) (n : Nat) : State :=
  let x := s.timer n
  (s.setTimer n { x with caps := x.caps.drop 1 }).setFld (Reg.TMR_STAT_NUM n) (x.caps.length - 1)

/-- A read of TMR_CAP[n] (R330): the oldest entry is removed; in a linked pair the even read takes both halves and latches
the high one. A capture that this cycle's full queue had discarded then finds room: the read counts first. -/
def tmrReadCap (s : State) (n : Nat) : Word × State :=
  if s.linked n && decide (n % 2 = 1) then
    match (s.timer (n - 1)).capHi with
    | some w => (w, s.setTimer (n - 1) { s.timer (n - 1) with capHi := none })
    | none => (0, s)
  else
    match (s.timer n).caps with
    | [] => (0, s)
    | w :: _ =>
      let t := tmrPop s n
      let t := if s.linked n then
          (tmrPop t (n + 1)).setTimer n { t.timer n with capHi := some ((s.timer (n + 1)).caps.headD 0) }
        else t
      match s.cyc.capDrops.find? (fun d => d.1 = n) with
      | none => (w, t)
      | some d =>
        let t := if d.2.2.2 then t else t.setFld (Reg.TMR_STAT_CAPOVF n) 0
        let t := { t with cyc := { t.cyc with capDrops := t.cyc.capDrops.filter fun e => !decide (e.1 = n) } }
        (w, tmrStore t n d.2.1 d.2.2.1)

/-- TMR_STAT[n].SUPP: a pin input of the timer is suppressed or masked (R331). -/
def State.tmrSupp (s : State) (n : Nat) : Bool := s.inBlocked n || s.inBlocked (128 + n)

/-! ### Event counters -/

/-- This cycle's contribution to counter `k` (R335). -/
def State.contrib (s : State) (k : Nat) : Nat := if s.cyc.evContrib.contains k then 1 else 0

/-- Clear counter `k`: it keeps the contribution of this cycle (R335). -/
def evClear (s : State) (k : Nat) : State :=
  { s with tmr := { s.tmr with evCnt := smSet 0 s.tmr.evCnt k (s.contrib k) } }

/-- Clear every event counter: those that neither count nor have a contribution in this cycle are 0 already. -/
def evClearAll (s : State) : State := (s.tmr.evCnt.map (·.1) ++ s.cyc.evContrib).foldl evClear s

/-- The count of `k` before this cycle's contribution. -/
def State.evBefore (s : State) (k : Nat) : Nat :=
  let c := smGet 0 s.tmr.evCnt k
  if s.cyc.evContrib.contains k then (if c = 0 then 2 ^ 48 - 1 else c - 1) else c

/-- The counters whose count or last snapshot is not 0, with those that wrapped in this cycle. -/
def State.evSnapKeys (s : State) : List Nat :=
  let snapped := s.regs.filterMap fun e =>
    if Reg.TMR_ECNT_LO 0 ≤ e.1 ∧ e.1 < Reg.TMR_ECNT_LO 512 ∧ (e.1 % 0x20 = 0x0C ∨ e.1 % 0x20 = 0x10)
    then some ((e.1 - Reg.TMR_ESEL 0) / 0x20) else none
  (snapped ++ s.tmr.evCnt.map (·.1) ++ s.cyc.evContrib).foldl nsAdd []

/-- SNAP: all counts and the reference time, before this cycle's contributions (R335). -/
def evSnapshot (s : State) : State :=
  let t := s.evSnapKeys.foldl (fun t k =>
    (t.wr (Reg.TMR_ESNAP_LO k) (BitVec.ofNat 32 (s.evBefore k))).setFld (Reg.TMR_ESNAP_HI_SNAP_H k) (s.evBefore k / 2 ^ 32)) s
  let t := { t with tmr := { t.tmr with snapT := s.rtime } }
  let t := t.wr Reg.TMR_SNAPT_LO (BitVec.ofNat 32 s.rtime)
  t.setFld Reg.TMR_EVSTAT_SNAPCNT (s.fld Reg.TMR_EVSTAT_SNAPCNT + 1)

/-- A write of TMR_EVCTL: a snapshot is taken before a clear (R335). -/
def evCtlWrite (s : State) (snap clrAll : Bool) : State :=
  let s := if snap then evSnapshot s else s
  if clrAll then evClearAll s else s

/-- A write of TMR_ESEL[k] (R334, R335). -/
def evSelWrite (s : State) (k : Nat) (v : Word) : State :=
  let old := s.rd (Reg.TMR_ESEL k)
  let keep := smGet old s.cyc.eselOld k
  let s := { s with cyc := { s.cyc with eselOld := smInsert (smErase s.cyc.eselOld k) k keep } }
  let fresh := (s.regEvent (Reg.TMR_ESEL k)).fresh
  let ovf := ((old &&& ~~~v) ||| fresh) &&& 0x20000000#32
  let s := s.wr (Reg.TMR_ESEL k) ((v &&& 0x800003FF#32) ||| ovf)
  if v.getLsbD 30 then evClear s k else s

/-- A read of TMR_ECNT_LO[k] latches the high half (R334). -/
def evRead (s : State) (k : Nat) : Word × State :=
  let c := smGet 0 s.tmr.evCnt k
  (BitVec.ofNat 32 c, s.setFld (Reg.TMR_ECNT_HI_CNT_H k) (c / 2 ^ 32))

end Sys2Proof.Machine
end

