-- ==== Sys2Proof/Machine/Sep.lean ====
section
/-! DEFINITION. Sepia cores outside their instructions (R337 to R362): memories, prefetch queues, store buffers, halting,
stepping, restart, debug access. What instructions do is in Operands.lean, Flags.lean, Float.lean and Sepia*.lean. -/
namespace Sys2Proof.Machine

def State.thr (s : State) (c t : Nat) : Thread := smGet Thread.idle s.sep.threads (4 * c + t)

def State.setThr (s : State) (c t : Nat) (x : Thread) : State :=
  { s with sep := { s.sep with threads := smSet Thread.idle s.sep.threads (4 * c + t) x } }

/-- Cluster domain of core `c`. -/
def State.coreUp (s : State) (c : Nat) : Bool := decide (c < 32) && s.up (86 + c / 8)

/-- Core `c` is a full core (R337). -/
def fullCore (c : Nat) : Bool := decide (24 ≤ c)

/-! ### The status word (R349) -/

def swPriv (w : Word) : Nat := wField w 25 24
def swSetPriv (w : Word) (p : Nat) : Word := wSetField w 25 24 p
def swBit (w : Word) (b : Nat) : Bool := w.getLsbD b
/-- The bits of SW that are not fixed at 0. -/
def swMask (w : Word) : Word := w &&& 0xFB00000F#32
/-- MTS ESW: a PRIV of 0b1x is stored as 0b01 (R350). -/
def eswOf (w : Word) : Word := if 2 ≤ swPriv w then swSetPriv (swMask w) 1 else swMask w

/-! ### Memory spaces (R337, R347) -/

/-- Where byte `a` of the instruction space of core `c` stands; none where the space lists nothing. -/
def imemKey (c a : Nat) : Option Nat :=
  if a < (if fullCore c then 0x80000 else 0x10000) then some (c * 0x80000 + a)
  else if 0x100000 ≤ a ∧ a < 0x200000 then some (0x4000000 + c / 8 * 0x100000 + (a - 0x100000))
  else none

/-- Where byte `a` of the data space of core `c` stands, the DRAM window apart. -/
def dmemKey (c a : Nat) : Option Nat :=
  if a < (if fullCore c then 0x100000 else 0x20000) then some (0x1000000 + c * 0x100000 + a)
  else if 0x200000 ≤ a ∧ a < 0x400000 then some (0x5000000 + c / 8 * 0x200000 + (a - 0x200000))
  else none

/-- Data address `a` lies in the DRAM window. -/
def inDram (a : Nat) : Bool := decide (0x40000000 ≤ a ∧ a < 0x80000000)

/-- Keys of core memory that belong to cluster `k`. -/
def clusterKey (k a : Nat) : Bool :=
  if a < 0x1000000 then decide (a / 0x80000 / 8 = k)
  else if a < 0x4000000 then decide ((a - 0x1000000) / 0x100000 / 8 = k)
  else if a < 0x5000000 then decide ((a - 0x4000000) / 0x100000 = k)
  else decide ((a - 0x5000000) / 0x200000 = k)

/-- An uncorrectable word of core memory was read (R348, R385). -/
def sepDamage (s : State) (c : Nat) : State :=
  let s := raiseLine (uncorrected s (Reg.SEP_ECCCNT_UNCORR c)) (34 + c / 8)
  occurPriv { s with irqEcc := nsAdd s.irqEcc c } c 20

/-- What ECC finds in the words at keys `k` to `k + n - 1` of core memory as core `c` reads them. -/
def sepUpset (s : State) (c k n : Nat) (e : Upset) : State :=
  match e with
  | .none => s
  | .corrected => corrected s (Reg.SEP_ECCCNT_CORR c) 1
  | .damaged => { s with sep := { s.sep with bad := nsAdd (nsAdd s.sep.bad (k / 4 * 4)) ((k + n - 1) / 4 * 4) } }

/-- One of the words at keys `k` to `k + n - 1` is damaged. -/
def State.sepBad (s : State) (k n : Nat) : Bool :=
  s.sep.bad.any fun b => decide (b < k + n ∧ k < b + 4)

/-- Store bytes in core memory; a word that the write covers whole is good again. -/
def sepStore (s : State) (k : Nat) (bs : List Nat) : State :=
  { s with sep := { s.sep with mem := memStore s.sep.mem k bs,
                               bad := s.sep.bad.filter fun b => !decide (k ≤ b ∧ b + 4 ≤ k + bs.length) } }

/-- Read a word of the instruction space: none where that is an I access fault (R344, R347, R348). -/
def iRead (s : State) (c a : Nat) : State × Option Word :=
  if a % 4 ≠ 0 then (s, none)
  else match imemKey c a with
    | none => (s, none)
    | some k => if s.sepBad k 4 then (sepDamage s c, none) else (s, some (BitVec.ofNat 32 (memWord s.sep.mem k)))

/-! ### Prefetch queues (R340) -/

/-- Fetch `n` words from address `a` on behind the words that the queue holds. -/
def fetchInto (c t : Nat) : Nat → Nat → State → State
  | 0, _, s => s
  | n + 1, a, s =>
    let r := iRead s c (a % 2 ^ 32)
    fetchInto c t n (a + 4) (r.1.setThr c t { r.1.thr c t with queue := (r.1.thr c t).queue ++ [r.2] })

/-- Flush the queue and fetch anew from address `a`, which becomes the pc. -/
def flushTo (s : State) (c t : Nat) (a : Word) : State :=
  fetchInto c t 4 a.toNat (s.setThr c t { s.thr c t with pc := a, queue := [] })

/-! ### Registers (R366) -/

/-- Register `r` as the register file holds it. -/
def Thread.reg (x : Thread) (r : Nat) : Word := if r = 0 then 0 else smGet 0 x.g r

/-- Write register `r`; a long operation that was to write it loses its destination (R339). -/
def Thread.setReg (x : Thread) (r : Nat) (v : Word) : Thread :=
  if r = 0 then x
  else { x with g := smSet 0 x.g r v, longs := x.longs.map fun l => if l.rd = r then { l with rd := 0 } else l }

/-- Register `r` as the next instruction reads it (R339). -/
def Thread.use (x : Thread) (r : Nat) : Word :=
  match x.old with
  | some (q, v) => if q = r ∧ r ≠ 0 then v else x.reg r
  | none => x.reg r

/-- The request of the core's interrupt controller to its ITHR thread (R372). -/
def State.irqTo (s : State) (c t : Nat) : Bool := decide (s.fld (Reg.SEP_CCFG_ITHR c) = t) && s.irqRequest c

/-- EVT (R372). -/
def State.evt (s : State) (c t : Nat) : Nat := (s.thr c t).ev + b2n (s.irqTo c t) * 256

/-- TID (R349). -/
def tidOf (c t : Nat) : Word := BitVec.ofNat 32 (b2n (fullCore c) * 256 + c * 4 + t)

/-! ### Store buffer (R342 to R344) -/

/-- `n` bytes at data address `a` are stored by core `c`. -/
def dataStore (s : State) (c a n v : Nat) : State :=
  if inDram a then
    if s.dramReady (a - 0x40000000) then dramStore s (a - 0x40000000) (leBytes n v) else errorCompletion s
  else match dmemKey c a with
    | some k => sepStore s k (leBytes n v)
    | none => s

/-- The oldest buffered store drains: one that is split drains its lower part first (R344). -/
def storeDrain (s : State) (c t : Nat) : State :=
  let x := s.thr c t
  match x.sb with
  | [] => s
  | e :: r =>
    let low := (e.addr / e.size + 1) * e.size - e.addr
    if (e.size = 2 ∨ e.size = 4) ∧ low < e.size then
      dataStore (s.setThr c t { x with sb := { addr := e.addr + low, size := e.size - low, val := e.val / 256 ^ low } :: r })
        c e.addr low e.val
    else dataStore (s.setThr c t { x with sb := r }) c e.addr e.size e.val

/-- Drain until at most `n` stores are left. -/
def drainTo (c t n : Nat) : Nat → State → State
  | 0, s => s
  | f + 1, s => if (s.thr c t).sb.length ≤ n then s else drainTo c t n f (storeDrain s c t)

def drainAll (s : State) (c t : Nat) : State := drainTo c t 0 8 s

/-- Buffer a store; a full buffer first drains its oldest (R342). -/
def storePush (s : State) (c t a n v : Nat) : State :=
  let s := drainTo c t 1 8 s
  let x := s.thr c t
  s.setThr c t { x with sb := x.sb ++ [{ addr := a % 2 ^ 32, size := n, val := v % 256 ^ n }] }

/-- Bytes `[a, a+n)` may be accessed under status word `sw` (R347); DRAM that does not answer gives the error completion. -/
def rightsOk (c : Nat) (sw : Word) (a n : Nat) : Bool :=
  (List.range n).all fun i =>
    let b := (a + i) % 2 ^ 32
    if inDram b then decide (swPriv sw ≠ 0) || swBit sw 30 else (dmemKey c b).isSome

/-- The DRAM channels of the bytes answer (R254). -/
def State.dramAnswers (s : State) (a n : Nat) : Bool :=
  (List.range n).all fun i => !(inDram ((a + i) % 2 ^ 32)) || s.dramReady ((a + i) % 2 ^ 32 - 0x40000000)

/-- A check of a data access (R344): none of it is performed when it fails. -/
def dataCheck (s : State) (c : Nat) (sw : Word) (a n : Nat) : State × Bool :=
  if !(rightsOk c sw a n) then (s, false)
  else if !(s.dramAnswers a n) then (errorCompletion s, false) else (s, true)

/-- Read `n` bytes at data address `a`, ECC finding `e` in them: none where the read finds an error that it cannot correct (R348). -/
def dataFetch (s : State) (c a n : Nat) (e : Upset) : State × Option Nat :=
  if inDram a then
    let o := a - 0x40000000
    let s := match e with
      | .none => s
      | .corrected => corrected s (Reg.MEM_ECCCNT_CORR (dramChan o)) 1
      | .damaged => { s with dram := { s.dram with bad := nsAdd s.dram.bad (o / 8 * 8) } }
    if wordsHit s.dram.bad o n = [] then (s, some (leNat ((List.range n).map fun i => s.dramByte (o + i))))
    else (dramMeet s o n, none)
  else match dmemKey c a with
    | none => (s, none)
    | some k =>
      let s := sepUpset s c k n e
      if s.sepBad k n then (sepDamage s c, none)
      else (s, some (leNat ((List.range n).map fun i => memByte s.sep.mem (k + i))))

/-- The buffered store that holds every byte of the load, if it is the newest that overlaps; `some none` where a load has to wait
for stores to drain (R342). -/
def Thread.forward (x : Thread) (a n : Nat) : Option (Option Nat) :=
  match (x.sb.filter fun e => decide (e.addr < a + n ∧ a < e.addr + e.size)).getLast? with
  | none => none
  | some e => some (if e.addr ≤ a ∧ a + n ≤ e.addr + e.size then some (e.val / 256 ^ (a - e.addr) % 256 ^ n) else none)

/-- A load of the thread whose rights are checked (R342). -/
def dataRead (s : State) (c t a n : Nat) (e : Upset) : State × Option Nat :=
  match (s.thr c t).forward a n with
  | some (some v) => (s, some v)
  | some none => dataFetch (drainAll s c t) c a n e
  | none => dataFetch s c a n e

/-- The stack window is open for `[a, a+n)` (R352). -/
def Thread.window (x : Thread) (a n : Nat) : Bool :=
  decide (x.sphi = 0) || (decide (x.splo.toNat ≤ a) && decide (a + n ≤ x.sphi.toNat))

/-! ### Halting, stepping, restart (R359, R361) -/

/-- A thread's bit of SEP_DCTL.HALT or STEP. -/
def State.dctlBit (s : State) (c b : Nat) : Bool := (s.rd (Reg.SEP_DCTL c)).getLsbD b

def setDctlBit (s : State) (c b : Nat) (v : Bool) : State := s.setFlag ⟨Reg.SEP_DCTL c, b, b⟩ v

/-- Threads whose bit in a field of a SEP_DCTL write acts: all four when ALL is 1. -/
def dctlThreads (all : Bool) (mask : Nat) : List Nat :=
  if all && decide (mask % 16 ≠ 0) then [0, 1, 2, 3] else (List.range 4).filter fun t => bit mask t

/-- HALT requests (R359): a running thread's bit stays set until the halt takes effect. -/
def haltRequest (s : State) (c : Nat) (ts : List Nat) : State :=
  ts.foldl (fun s t => if (s.thr c t).state = .running then setDctlBit s c t true else s) s

/-- The halt takes effect, at an instruction boundary (R359). -/
def haltEffect (s : State) (c t : Nat) : State :=
  if s.coreUp c && s.dctlBit c t && decide ((s.thr c t).state = .running) then
    (setDctlBit (setDctlBit s c t false) c (8 + t) false).setThr c t { s.thr c t with state := .halted, mid := false }
  else s

/-- RESUME, STEP of a halted thread (R359). -/
def resumeThread (s : State) (c : Nat) (step : Bool) (t : Nat) : State :=
  if (s.thr c t).state = .halted then
    let s := s.setThr c t { s.thr c t with state := .running }
    if step then setDctlBit s c (8 + t) true else s
  else s

/-- An instruction under STEP is done: the thread halts again, and a halt that was requested has taken effect with it (R359). -/
def stepEnd (s : State) (c t : Nat) : State :=
  if s.dctlBit c (8 + t) then
    let s := setDctlBit s c (8 + t) false
    if (s.thr c t).state = .running then (setDctlBit s c t false).setThr c t { s.thr c t with state := .halted, mid := false } else s
  else s

/-- A write of SEP_DCTL[c]: BRKEN and ALL are stored, then halts, resumes and steps act (R359, R362). -/
def sepDctlWrite (s : State) (c : Nat) (v : Word) : State :=
  let s := (s.setFld (Reg.SEP_DCTL_BRKEN c) (wField v 31 31)).setFld (Reg.SEP_DCTL_ALL c) (wField v 30 30)
  let all := v.getLsbD 30
  let s := haltRequest s c (dctlThreads all (wField v 3 0))
  let s := (dctlThreads all (wField v 7 4)).foldl (fun s t => resumeThread s c false t) s
  (dctlThreads all (wField v 11 8)).foldl (fun s t => resumeThread s c true t) s

/-- A write of SEP_TCTL[c][t] (R361). -/
def sepTctlWrite (s : State) (c t : Nat) (v : Word) : State :=
  if v.getLsbD 0 && decide ((s.thr c t).state = .running) then s.event (Reg.SEP_DSTAT_NOTHALT c)
  else
    let s := s.setFld (Reg.SEP_TCTL_PC c t) (wField v 31 2)
    if !(v.getLsbD 0) then s else
    let x := s.thr c t
    flushTo (s.setThr c t { x with
      state := .running, sw := 0x01000000, queue := [], old := none, mul := [], longs := [], due := [], sb := [], shadow := [],
      wait := none, mid := false }) c t (BitVec.ofNat 32 (4 * wField v 31 2))

/-- What the image gives a thread at its start (R358). -/
structure ThreadInit where
  entry : Word
  g15 : Word
  xsp : Word
  splo : Word
  sphi : Word
  vbr : Word
deriving DecidableEq, Repr

/-- Thread `t` of core `c` at RUN: it starts when its TSTART bit is set (R358). -/
def threadRun (s : State) (c t : Nat) (i : ThreadInit) : State :=
  if bit (s.fld (Reg.SEP_CCFG_TSTART c)) t then
    flushTo (s.setThr c t (Thread.setReg { Thread.idle with
      state := .running, xsp := i.xsp, splo := i.splo, sphi := i.sphi, vbr := i.vbr } 15 i.g15)) c t i.entry
  else s.setThr c t Thread.idle

/-! ### Debug access (R360) -/

/-- Register `i` of a thread as SEP_DDATA reads it. -/
def State.dbgReg (s : State) (c t i : Nat) : Word :=
  let x := s.thr c t
  match i with
  | 16 => x.sw | 17 => x.epc | 18 => x.esw | 19 => x.xsp | 20 => x.splo | 21 => x.sphi | 22 => x.ml | 23 => x.mh
  | 24 => BitVec.ofNat 32 (s.evt c t) | 25 => x.vbr | 26 => tidOf c t | 27 => x.pc
  | _ => if i < 16 then x.reg i else 0

/-- A write of register `i` through SEP_DDATA. -/
def dbgWrite (s : State) (c t i : Nat) (v : Word) : State :=
  let x := s.thr c t
  match i with
  | 16 => s.setThr c t { x with sw := eswOf v }
  | 17 => s.setThr c t { x with epc := v }
  | 18 => s.setThr c t { x with esw := eswOf v }
  | 19 => s.setThr c t { x with xsp := v }
  | 20 => s.setThr c t { x with splo := v }
  | 21 => s.setThr c t { x with sphi := v }
  | 22 => s.setThr c t { x with ml := v, mul := x.mul.map fun m => (m.1, none, m.2.2) }
  | 23 => s.setThr c t { x with mh := v, mul := x.mul.map fun m => (m.1, m.2.1, none) }
  | 24 => s.setThr c t { x with ev := v.toNat % 256 }
  | 25 => s.setThr c t { x with vbr := v }
  | 27 => flushTo (s.setThr c t { x with wait := none, mid := false }) c t v
  | _ => if i < 16 then s.setThr c t ((if (x.old.map (·.1)) = some i then { x with old := none } else x).setReg i v) else s

/-- An access to SEP_DDATA[c]: a write, or a read (R360). -/
def dbgAccess (s : State) (c : Nat) (write : Option Word) : Word × State :=
  let t := s.fld (Reg.SEP_DSEL_THREAD c)
  let i := s.fld (Reg.SEP_DSEL_INDEX c)
  if (s.thr c t).state ≠ .halted then (0, s.event (Reg.SEP_DSTAT_NOTHALT c))
  else match write with
    | none => (s.dbgReg c t i, s)
    | some v => (0, dbgWrite s c t i v)

/-- The core memory word that SEP_MEMA[c] addresses: none beyond the memory. -/
def State.memaKey (s : State) (c : Nat) : Option Nat :=
  let a := 4 * s.fld (Reg.SEP_MEMA_ADDR c)
  match s.fld (Reg.SEP_MEMA_SPACE c) with
  | 0 => if a < 0x100000 then imemKey c a else none
  | 1 => if a < 0x200000 then dmemKey c a else none
  | 2 => if a < 0x100000 then imemKey c (0x100000 + a) else none
  | _ => if a < 0x200000 then dmemKey c (0x200000 + a) else none

/-- An access to SEP_MEMD[c] (R360, R362): it adds 4 to ADDR. A read of a damaged word returns all ones (R485). -/
def memdAccess (s : State) (c : Nat) (write : Option Word) (e : Upset) : Word × State :=
  let k := s.memaKey c
  let s := s.setFld (Reg.SEP_MEMA_ADDR c) (s.fld (Reg.SEP_MEMA_ADDR c) + 1)
  match k, write with
  | none, _ => (0, s.event (Reg.SEP_DSTAT_MEMERR c))
  | some k, some v => (0, sepStore s k (wordBytes v.toNat))
  | some k, none =>
    let s := sepUpset s c k 4 e
    if s.sepBad k 4 then (0xFFFFFFFF, sepDamage s c) else (BitVec.ofNat 32 (memWord s.sep.mem k), s)

/-! ### Views and resets -/

def thrCode : ThrState → Nat
  | .notStarted => 0
  | .running => 1
  | .halted => 2
  | .stopped => 3

/-- SEP_STAT: the cores with a stopped thread (R362). -/
def State.sepStat (s : State) : Word :=
  BitVec.ofNat 32 ((s.sep.threads.foldl (fun l e => if e.2.state = .stopped then nsAdd l (e.1 / 4) else l) []).foldl
    (fun a c => a + 2 ^ c) 0)

/-- SEP_DSTAT[c].HALTED. -/
def State.haltedBits (s : State) (c : Nat) : Nat :=
  (List.range 4).foldl (fun a t => if (s.thr c t).state = .halted then a + 2 ^ t else a) 0

/-- A reset of cluster `k` clears what its cores hold (R358). -/
def sepClear (s : State) (k : Nat) : State :=
  { s with sep := { threads := smDrop (fun e => decide (e / 32 = k)) s.sep.threads, mem := smDrop (clusterKey k) s.sep.mem,
                    bad := s.sep.bad.filter fun b => !(clusterKey k b), turn := smDrop (fun c => decide (c / 8 = k)) s.sep.turn },
           irqEcc := s.irqEcc.filter fun c => !decide (c / 8 = k) }

end Sys2Proof.Machine
end

