-- ==== Sys2Proof/Machine/Vox.lean ====
section
/-! DEFINITION. The voice unit (R309 to R319): voices, buses, meters, wave memory. -/
namespace Sys2Proof.Machine

def State.voice (s : State) (v : Nat) : Voice := smGet Voice.idle s.vox.voices v

def State.setVoice (s : State) (v : Nat) (x : Voice) : State :=
  { s with vox := { s.vox with voices := smSet Voice.idle s.vox.voices v x } }

def State.bus (s : State) (b : Nat) : Bus := smGet Bus.idle s.vox.buses b

def State.setBus (s : State) (b : Nat) (x : Bus) : State :=
  { s with vox := { s.vox with buses := smSet Bus.idle s.vox.buses b x } }

/-! ### The sine of R309, exact -/

/-- One in the fixed-point numbers of `sineTerm`, and pi in them. -/
def sineOne : Nat := 2 ^ 80
def sinePi : Nat := 3797952473636338580787993

/-- The Taylor terms of `sin x` from the term `t` of degree 2k + 1 on, alternately added and subtracted. -/
def sineTerms (x : Nat) : Nat → Nat → Nat → Int
  | 0, _, _ => 0
  | n + 1, k, t => (t : Int) - sineTerms x n (k + 1) (t * x / sineOne * x / sineOne / ((2 * k + 2) * (2 * k + 3)))

/-- round(32767 * sin(2 pi k / 16384)) for k up to 4096, a quarter of the circle. -/
def sineQuarter (k : Nat) : Int :=
  let x := k * sinePi / 8192
  (65534 * sineTerms x 16 0 x + (sineOne : Int)) / (2 * (sineOne : Int))

/-- round(32767 * sin(2 pi k / 16384)) (R309). -/
def sineOf (k : Nat) : Int :=
  let k := k % 16384
  if k ≤ 4096 then sineQuarter k
  else if k ≤ 8192 then sineQuarter (8192 - k)
  else if k ≤ 12288 then -sineQuarter (k - 8192)
  else -sineQuarter (16384 - k)

/-! ### Voices (R309, R315) -/

/-- A word that a voice or a bus reads is damaged (R318). -/
def voxDamage (s : State) : State :=
  raiseLine ((uncorrected s Reg.VOX_ECCCNT_UNCORR).event Reg.VOX_STAT_ECCU) 16

/-- Wave sample `i`, and whether its word is damaged: it then reads 0 (R310, R318). -/
def State.waveSample (s : State) (i : Nat) : Int × Bool :=
  let w := i / 2
  if s.ecc.contains (Reg.VOX_WAVE w) then (0, true)
  else (sext 16 (s.fld (if i % 2 = 0 then Reg.VOX_WAVE_SLO w else Reg.VOX_WAVE_SHI w)), false)

/-- What voice `v` puts out before its amplitude, and whether it met a damaged word. -/
def State.voiceWave (s : State) (v : Nat) : Int × Bool :=
  let x := s.voice v
  match s.fld (Reg.VOX_VCFG_TYPE v) with
  | 0 => s.waveSample ((s.fld (Reg.VOX_VWAVE_WSTART v) + (x.phase >>> (32 - s.fld (Reg.VOX_VWAVE_WLEN v)))) % 131072)
  | 1 => (sineOf (x.phase / 2 ^ 18), false)
  | 2 => (sext 16 (x.lfsr / 65536), false)
  | _ => (if x.phase < s.fld (Reg.VOX_VPW_PW v) then 32767 else 0, false)

/-- The next state of the noise register. -/
def lfsrNext (l : Nat) : Nat := if l % 2 = 1 then (l / 2) ^^^ 0x80200003 else l / 2

/-- One step of a running voice: its new state (R309). -/
def State.voiceStep (s : State) (v : Nat) : Voice :=
  let x := s.voice v
  let sum := x.phase + s.fld (Reg.VOX_VFREQ_INC v)
  let cyc := if 2 ^ 32 ≤ sum then (x.cyc + 1) % 65536 else x.cyc
  let count := s.fld (Reg.VOX_VCNT_COUNT v)
  { x with phase := sum % 2 ^ 32, cyc := cyc,
           lfsr := if s.fld (Reg.VOX_VCFG_TYPE v) = 2 then lfsrNext x.lfsr else x.lfsr,
           run := !(decide (2 ^ 32 ≤ sum) && decide (count ≠ 0) && decide (cyc = count)) }

/-- The contribution of voice `v` (R309). -/
def State.voiceOut (s : State) (v : Nat) : Int :=
  satS 32 ((s.voiceWave v).1 * sext 16 (s.fld (Reg.VOX_VAMP_AMP v)) * 2)

/-- A start arrives: it waits TDEL samples of the bus (R315). Before RUN no voice runs (R317). -/
def voiceStart (s : State) (v : Nat) : State :=
  if s.up 92 && s.running && decide (v < 64) && s.flag (Reg.VOX_VCFG_EN v) then
    let x := s.voice v
    s.setVoice v { x with starts := x.starts ++ [s.fld (Reg.VOX_VCNT_TDEL v)] }
  else s

/-- A start by a write of VOX_VCTL.START, which reads 1 until the start is applied (R319). -/
def voiceStartWrite (s : State) (v : Nat) : State :=
  if s.up 92 && s.running && decide (v < 64) && s.flag (Reg.VOX_VCFG_EN v) then
    let s := voiceStart s v
    s.setVoice v { s.voice v with asked := some (s.fld (Reg.VOX_VCNT_TDEL v)) }
  else s

/-- A stop: the voice contributes 0 from the next sample, and a start that was due then is gone (R315; log 33). -/
def voiceStop (s : State) (v : Nat) : State :=
  if s.up 92 && decide (v < 64) then
    let x := s.voice v
    s.setVoice v { x with run := false, starts := x.starts.filter (fun n => !decide (n = 0)),
                          asked := if x.asked = some 0 then none else x.asked }
  else s

/-- At a sample of its bus: the starts that are due make one start; the others come a sample nearer (R315). -/
def voiceDue (s : State) (v : Nat) : State :=
  let x := s.voice v
  if x.starts = [] then s
  else
    let left := (x.starts.filter fun n => !decide (n = 0)).map (· - 1)
    let asked := match x.asked with | some (k + 1) => some k | _ => none
    if x.starts.contains 0 then
      let seed := s.fld (Reg.VOX_VPW_PW v)
      s.setVoice v { run := true, phase := 0, cyc := 0, starts := left, asked := asked,
                     lfsr := if s.fld (Reg.VOX_VCFG_TYPE v) = 2 then max seed 1 else x.lfsr }
    else s.setVoice v { x with starts := left, asked := asked }

/-- The voices of bus `b`. -/
def State.voicesOf (s : State) (b : Nat) : List Nat := (List.range 64).filter fun v =>
  s.flag (Reg.VOX_VCFG_EN v) && decide (s.fld (Reg.VOX_VCFG_BUS v) = b)

/-- Voice `v` gives its contribution and steps (R309). -/
def voiceSample (p : State × Int) (v : Nat) : State × Int :=
  let s := voiceDue p.1 v
  if (s.voice v).run then
    let out := s.voiceOut v
    let bad := (s.voiceWave v).2
    let s := s.setVoice v (s.voiceStep v)
    (if bad then voxDamage s else s, p.2 + out)
  else (s, p.2)

/-! ### Buses (R311 to R314) -/

/-- Input `j` of bus `b`: in use, and its cell. -/
def State.busIn (s : State) (b j : Nat) : Option Nat :=
  let w := (s.rd (Reg.VOX_BIN b)).toNat
  if bit w (8 * j + 7) then some (bitsOf w (8 * j + 5) (8 * j)) else none

/-- Input `j` of bus `b` passes its offset remover (R313). -/
def busInput (b : Nat) (p : State × Int) (j : Nat) : State × Int :=
  let s := p.1
  match s.busIn b j with
  | none => p
  | some n =>
    let x : Int := ((s.cellRes n : Int) - 8192) * 2 ^ 18
    let k := s.fld (Reg.VOX_BHPF_K b)
    let u := s.bus b
    match u.est.find? (fun e => decide (e.1 = j)) with
    | none => (s.setBus b { u with est := u.est ++ [(j, x * 65536)] }, p.2 + (if k = 0 then x else 0))
    | some e =>
      if k = 0 then (s, p.2 + x)
      else
        let e' := sext 48 (wrapN 48 (e.2 + sarI (x * 65536 - e.2) k))
        (s.setBus b { u with est := u.est.map fun q => if q.1 = j then (j, e') else q }, p.2 + (x - sarI (e.2 + 2 ^ 15) 16))

/-- A biquad section of a bus: R313 forms the sum exactly and saturates it to 40 bits after the shift. -/
def busBiquad (c : Nat → Int) (h : Biquad) (x : Int) : Int × Biquad :=
  let y := satS 40 (sarI (c 0 * x + c 1 * h.in1 + c 2 * h.in2 - c 3 * h.y1 - c 4 * h.y2) 30)
  (y, { in1 := x, in2 := h.in1, y1 := y, y2 := h.y1 })

/-- Section `k` of bus `b` (R313); a damaged coefficient reads 0 (R318). -/
def busSection (b : Nat) (p : State × Int) (k : Nat) : State × Int :=
  let s := p.1
  let u := s.bus b
  let bad (j : Nat) : Bool := s.ecc.contains (Reg.VOX_BCOEF b k j + 0x80000)
  let r := busBiquad (fun j => if bad j then 0 else sext 32 (s.fld (Reg.VOX_BCOEF_COEF b k j))) (smGet Biquad.zero u.sections k) p.2
  let s := s.setBus b { u with sections := smSet Biquad.zero u.sections k r.2 }
  (((List.range 5).filter bad).foldl (fun s _ => voxDamage s) s, r.1)

/-- The largest root `r` with `r * r` at most `n`, by bits from 2^(k-1) down. -/
def isqrtFrom (n : Nat) : Nat → Nat → Nat
  | 0, r => r
  | k + 1, r => isqrtFrom n k (if (r + 2 ^ k) * (r + 2 ^ k) ≤ n then r + 2 ^ k else r)

/-- floor(sqrt n) for n below 2^32. -/
def isqrt (n : Nat) : Nat := isqrtFrom n 16 0

/-- The meter of bus `b` takes magnitude `m` (R314). -/
def meterPeak (s : State) (b m : Nat) : State :=
  let u := s.bus b
  let dec := s.fld (Reg.VOX_BMCFG_DEC b)
  if u.peak ≤ m then s.setBus b { u with peak := m, hold := s.fld (Reg.VOX_BMCFG_HOLD b) * 1024 }
  else if 0 < u.hold then s.setBus b { u with hold := u.hold - 1 }
  else if 0 < dec then s.setBus b { u with peak := u.peak - (u.peak >>> dec) }
  else s

def meterRms (s : State) (b m : Nat) : State :=
  let u := s.bus b
  s.setBus b { u with ms := ((u.ms : Int) + sarI ((m * m * 65536 : Nat) - (u.ms : Int)) (s.fld (Reg.VOX_BMCFG_RK b))).toNat }

/-- VOX_BMETER shows the meter. -/
def showMeter (s : State) (b : Nat) : State :=
  (s.setFld (Reg.VOX_BMETER_PEAK b) (s.bus b).peak).setFld (Reg.VOX_BMETER_RMS b) (isqrt ((s.bus b).ms / 65536))

/-- Output stage of bus `b`: gain, limiter, the two forms of the sample, the meter (R313, R314). -/
def busFinish (s : State) (b : Nat) (acc : Int) : State :=
  let lim : Int := max (s.fld (Reg.VOX_BGAIN_LIM b)) 1
  let g := sarI (acc * (s.fld (Reg.VOX_BGAIN_GAIN b) : Int)) 14
  let c := clampI (-lim * 65536) (lim * 65536 - 1) g
  let s := if c = g then s
    else ((s.count (Reg.VOX_BSTAT_CLIPS b) 1).event (Reg.VOX_BSTAT_CLIP b)).event Reg.VOX_STAT_CLIP
  let s16 := sarI c 16
  let code := (clampI 0 16383 (sarI s16 2 + s.fld (Reg.VOX_BOUT_DACOFF b))).toNat
  let u := s.bus b
  let s := s.setBus b { u with flight := u.flight ++ [(s16, code)] }
  let s := s.setFld (Reg.VOX_BSAMP_S16 b) (wrapN 16 s16)
  let m := s16.natAbs
  showMeter (meterRms (meterPeak s b m) b m) b

/-- Bus `b` takes a sample; `corr` words were corrected, beside those that SLOT_START's own operand counts (R313, R318). -/
def busSample (s : State) (b corr : Nat) : State :=
  if !(s.up 92) || !s.running || decide (s.fld Reg.VOX_CFG_NBUS ≤ b) then s
  else
    let s := corrected s Reg.VOX_ECCCNT_CORR corr
    let p := (s.voicesOf b).foldl voiceSample (s, 0)
    let p := (List.range 4).foldl (busInput b) p
    let p := (List.range (min (s.fld (Reg.VOX_BCFG_NBQ b)) 8)).foldl (busSection b) p
    busFinish p.1 b p.2

/-- A sample instant of a bus at 40 MS/s or 1 MS/s (R311). Slot-rate buses sample at the slot-clock edge. -/
def busTick (s : State) (b corr : Nat) : State :=
  if s.fld (Reg.VOX_BCFG_RATE b) = 1 ∨ s.fld (Reg.VOX_BCFG_RATE b) = 2 then busSample s b corr else s

/-- The oldest sample in flight reaches the consumers of bus `b` (R311). -/
def busDeliver (s : State) (b : Nat) : State :=
  let u := s.bus b
  match u.flight with
  | [] => s
  | x :: r =>
    let s := s.setBus b { u with flight := r, out := x.1, code := x.2 }
    (List.range 48).foldl (fun s n =>
      if s.fld (Reg.CVL_CCFG_DSRC n) = 2 ∧ s.fld (Reg.CVL_CCFG_DIDX n) = b ∧ 2 ≤ s.fld (Reg.CVL_CCFG_MODE n)
      then { s with cvl := { s.cvl with busCode := smSet 0 s.cvl.busCode n x.2 } } else s) s

/-- A write of 1 to VOX_BMCFG[b].PKCLR; a sample of the same cycle comes after it (R314, log 1). -/
def peakClear (s : State) (b : Nat) : State :=
  if !(s.up 92) || decide (16 ≤ b) then s else showMeter (s.setBus b { s.bus b with peak := 0, hold := 0 }) b

/-! ### The slot clock and RUN (R316, R317) -/

/-- Voice `v` triggers at the slot that has just begun (R316), never in a slot from TB_ORBLEN on (R33). -/
def State.voiceTriggers (s : State) (v : Nat) : Bool :=
  s.flag (Reg.VOX_VCFG_EN v) && decide (s.fld (Reg.VOX_VCFG_TMODE v) = 1) && decide (2 ≤ s.tbState) &&
    decide (s.tb.orbit % (s.fld (Reg.VOX_VTRIG_ODIV v) + 1) = 0) && decide (s.fld (Reg.VOX_VTRIG_TSLOT v) = s.tb.slot) &&
    decide (s.tb.slot < s.fld Reg.TB_ORBLEN_ORBLEN)

/-- The slot triggers of the slot that has just begun, and the commands that they raise (R316). -/
def voxSlot (s : State) : State × List Nat :=
  if !(s.up 92) || !s.running then (s, [])
  else
    let vs := (List.range 64).filter s.voiceTriggers
    (vs.foldl voiceStart s, (vs.map fun v => s.fld (Reg.VOX_VTRIG_FCMD v)).filter fun c => decide (c = 3 ∨ (0x10 ≤ c ∧ c ≤ 0x1B)))

/-- The slot-rate buses sample at the slot-clock edge (R311). -/
def voxSlotSamples (s : State) : State :=
  if s.tbState = 0 then s
  else ((List.range 16).filter fun b => decide (s.fld (Reg.VOX_BCFG_RATE b) = 0)).foldl (fun s b => busSample s b 0) s

/-- The image reaches RUN: histories, estimates and meters start at 0, free-run voices start (R315, R317). -/
def voxRun (s : State) : State :=
  if !(s.up 92) then s
  else
    let s := { s with vox := VoxState.reset }
    let s := (List.range (s.fld Reg.VOX_CFG_NBUS)).foldl showMeter s
    ((List.range 64).filter fun v => decide (s.fld (Reg.VOX_VCFG_TMODE v) = 0)).foldl voiceStart s

/-- VOX_STAT.ANYRUN and VOX_VSTAT (R319). -/
def State.voxAnyRun (s : State) : Bool := s.vox.voices.any fun e => e.2.run

def State.voiceStat (s : State) (v : Nat) : Word :=
  BitVec.ofNat 32 (b2n (s.voice v).run * 2 ^ 31 + (s.voice v).cyc)

end Sys2Proof.Machine
end

