-- ==== Sys2Proof/Machine/Rst.lean ====
section
/-! DEFINITION. Resets and power domains (R428 to R447): what a domain loses, the release order, the reset sources by width. -/
namespace Sys2Proof.Machine

/-! ### One domain -/

/-- RST_PDSTAT bit of domain `d`. -/
def setUp (s : State) (d : Nat) (b : Bool) : State := s.setFlag ⟨Reg.RST_PDSTAT (d / 32), d % 32, d % 32⟩ b

/-- The domain of a damaged-word mark: banked words are marked at their live offset (R485). -/
def domOfMark (e : Nat) : Nat :=
  if 0x80000 ≤ e % 0x100000 && isBanked (e - 0x80000) then domOf (e - 0x80000) else domOf e

/-- The registers of domain `d` return to their Reset column. -/
def dropRegs (s : State) (d : Nat) : State :=
  { s with regs := smDrop (fun o => decide (domOf o = d)) s.regs, staged := smDrop (fun o => decide (domOf o = d)) s.staged,
           ecc := s.ecc.filter fun e => !decide (domOfMark e = d) }

/-- A lane loses its power or is reset (R73, R79). The frames that ING has received whole keep their cells (R134). -/
def dropLane (s : State) (n : Nat) : State :=
  let s := if s.lnkState n = 4 then linkDown s n else s
  let s := laneReset s n
  { s with mdr := { s.mdr with lanes := smErase s.mdr.lanes n } }

/-- A DRAM channel loses its contents (R259) and must train again (R254). -/
def dropDram (s : State) (c : Nat) : State :=
  let s := { s with dram := { s.dram with
    mem := smDrop (fun a => decide (dramChan a = c)) s.dram.mem, bad := s.dram.bad.filter fun a => !decide (dramChan a = c),
    fails := smErase s.dram.fails c, recenter := s.dram.recenter.filter fun k => !decide (k = c) } }
  (s.setFlag ⟨Reg.MEM_STAT, Reg.MEM_STAT_READY.lo + c, Reg.MEM_STAT_READY.lo + c⟩ false).setFlag
    ⟨Reg.MEM_STAT, Reg.MEM_STAT_FAIL.lo + c, Reg.MEM_STAT_FAIL.lo + c⟩ false

/-- A core cluster: its cores, their interrupt state, and a receiver reset of their mailboxes (R358, R386, R391). -/
def dropCluster (s : State) (k : Nat) : State :=
  let s := mbAbortAll (sepClear s k) fun a => decide (a < 32 ∧ a / 8 = k)
  { s with irq := { s.irq with priv := smDrop (fun e => decide (e / 32 / 8 = k)) s.irq.priv,
                               shared := smDrop (fun e => decide (e / 128 = k)) s.irq.shared,
                               cores := smDrop (fun c => decide (c / 8 = k)) s.irq.cores } }

/-- PD90: the router, mailboxes and timers. A full mailbox gets ABORTED and keeps SENDER (R391). -/
def dropRouter (s : State) : State :=
  abortNotices s.fullBoxes
    (dropRegs { s with tmr := { s.tmr with timers := [] }, irq := { s.irq with dmaLatch := [], shared := [] } } 90)

/-- The analogue cells (R442): conversions end, comparators are inactive, so that cycle trips end, and the loops are held; latched trips
stand (R291). -/
def dropAnalogue (s : State) : State :=
  let s := { s with cvl := { s.cvl with conv := [], blank := [], cycle := [] } }
  (s.loopList.filter fun i => decide (s.fld (Reg.CVL_LCFG_OMODE i) ≠ 3)).foldl
    (fun s i => s.setLoop i { s.loopX i with held := true, ready := none }) s

/-- The loops, waveforms and voices, with the trips (R442; log 12). -/
def dropLoops (s : State) : State :=
  { s with cvl := { s.cvl with pairs := [], loops := [], loopCode := [], busCode := [], msCount := [], latched := [], cycle := [] },
           vox := VoxState.reset }

/-- Pads keep the levels applied from outside and lose the rest. -/
def dropPins (s : State) : State :=
  { s with pin := { s.pin with pins := s.pin.pins.filterMap fun e =>
      (if e.2.ext = true then some (e.1, { PinX.idle with ext := true }) else none) } }

/-- Domain `d` is isolated and reset (R442, R444): its registers and everything else that its blocks hold. -/
def dropDomain (s : State) (d : Nat) : State :=
  if d = 90 then setUp (dropRouter s) d false
  else
    let s :=
      if 5 ≤ d ∧ d ≤ 52 then dropLane s (d - 5)
      else if 81 ≤ d ∧ d ≤ 84 then dropDram s (d - 81)
      else if 86 ≤ d ∧ d ≤ 89 then dropCluster s (d - 86)
      else match d with
        | 4 => mbAbortAll s fun a => decide (a = 32)
        | 53 => { s with ing := IngState.reset, cnd := CndState.reset }
        | 61 => { s with pf := PfState.reset }
        | 69 => { s with obj := ObjState.reset, rel := { s.rel with replays := [] } }
        | 78 => { s with dec := DecState.reset }
        | 79 => { s with ro := RoState.reset }
        | 80 => { s with qm := QmState.reset, dma := { s.dma with chans := [] } }
        | 85 => { s with srv := SrvState.reset }
        | 91 => dropAnalogue s
        | 92 => dropLoops s
        | 93 => dropPins s
        | 94 => { s with tmr := { s.tmr with evCnt := [], snapT := 0 } }
        | _ => s
    let s := dropRegs (setUp s d false) d
    if 5 ≤ d ∧ d ≤ 52 then anyQ s else s

/-- Every shared slot that some source reaches is tested again (R386). -/
def retest (s : State) : State :=
  s.tgtListed.foldl (fun s n => match s.slotOf n with | some p => testShared s p.1 p.2 | none => s) s

/-- Domain `d` is released (R435): a lane begins its bring-up, a cluster its counts (R386), TB shows its straps, PD93 measures its supplies (they are
checked once the image has declared them, log 34), and the error line of a trim failure reaches Mordant (log 34). -/
def releaseDomain (vdet : Nat) (s : State) (d : Nat) : State :=
  let s := (setUp { s with rst := { s.rst with railFailed := nsDel s.rst.railFailed d } } d true).setFld Reg.RST_SEQ_PD d
  if 5 ≤ d ∧ d ≤ 52 then laneBringUp s (d - 5)
  else if d = 2 then relatch (raiseIf s (s.flag Reg.RST_STAT_TRIMFIX || s.flag Reg.RST_STAT_TRIMERR) 62)
  else if d = 3 ∧ s.rst.strapClk = 3 then raiseLine (s.setFld Reg.TB_STAT_STRAPERR 1) 1
  else if 86 ≤ d ∧ d ≤ 89 then clusterCounts s (d - 86)
  else if d = 91 then cmpSenseAll s
  else if d = 93 then s.setFld Reg.PIN_BANKCFG_VDET vdet
  else s

/-! ### The release order (R435, R436) -/

/-- Steps 1 to 5 after PD00, for a reset that reaches them. -/
def wideSteps : List (Nat × List Nat) := [(2, [1]), (3, [2]), (4, [3]), (5, [4])]

/-- Steps 6 to 12 for the domains that `p` names; a step with no named domain is skipped whole. -/
def applySteps (p : Nat → Bool) : List (Nat × List Nat) :=
  let all : List (Nat × List Nat) :=
    [(6, [90]), (7, rangeFrom 86 4), (8, rangeFrom 81 4), (9, [79, 80]), (10, rangeFrom 53 26), (11, [85, 91, 92, 93, 94])]
      ++ (rangeFrom 5 48).map fun d => (12, [d])
  (all.map fun e => (e.1, e.2.filter p)).filter fun e => decide (e.2 ≠ [])

/-- RST_SEQ while a sequence runs. -/
def showSeq (s : State) (step : Nat) : State :=
  (s.setFlag Reg.RST_SEQ_BUSY (decide (s.rst.plan ≠ []))).setFld Reg.RST_SEQ_STEP (if s.rst.plan = [] then 0 else step)

/-- The next step of the order (R435). Step 3 waits for the trim load of R432. -/
def domainRelease (s : State) (vdet : Nat) : State :=
  match s.rst.plan with
  | [] => s
  | (step, ds) :: rest =>
    if decide (step = 3) && !s.rst.trimDone then s
    else showSeq (ds.foldl (releaseDomain vdet) { s with rst := { s.rst with plan := rest } }) step

/-- A rail is not at its level 2,048 cycles after the release of its domain (R437). -/
def railTimeout (s : State) (d : Nat) : State :=
  if decide (d = 0 ∨ 95 < d) || !(s.up d) then s
  else
    let s := dropDomain { s with rst := { s.rst with railFailed := nsAdd s.rst.railFailed d } } d
    raiseLine (s.event Reg.RST_STAT_PWRERR) 62

/-! ### Trims (R432 to R434) -/

/-- Copy A of the trim area rewritten from copy B. -/
def trimRewrite (s : State) : State :=
  let b := s.img.store.filterMap fun e => if 0xE20000 ≤ e.1 ∧ e.1 < 0xE40000 then some (e.1 - 0x20000, e.2) else none
  let store := smMerge (smDrop (fun a => decide (0xE00000 ≤ a ∧ a < 0xE20000)) s.img.store) b
  { s with img := { s.img with store := store, storeBad := dropSpan s.img.storeBad 0xE00000 0x20000 } }

/-- A trim load ends; whether copy A, copy B pass their check. -/
def trimLoad (s : State) (a b : Bool) : State :=
  if !(s.up 1) || s.rst.trimDone then s
  else
    let s := { s with rst := { s.rst with trimDone := true } }
    if a then s.setFld Reg.RST_STAT_TRIMVALID 1
    else if b then
      raiseLine ((((trimRewrite s).setFld Reg.RST_STAT_TRIMVALID 1).setFld Reg.RST_STAT_TRIMCOPY 1).event Reg.RST_STAT_TRIMFIX) 62
    else raiseLine (s.setFld Reg.RST_STAT_TRIMERR 1) 62

/-! ### Reset sources (R428, R429) -/

/-- What the retained store and the fuses keep through every reset: the store, its bank areas, the place of the log, the fuse. A bank
commit that was running leaves its area torn (R423). -/
def keptImg (s : State) : ImgState :=
  let i := s.img
  let torn := match i.commits with | .bank _ _ _ :: _ => true | _ => false
  let area := s.fld Reg.IMG_JSTAT_AREA
  { ImgState.reset with
    store := i.store, storeBad := i.storeBad, recPos := i.recPos, rseq := i.rseq, goldLocked := i.goldLocked,
    candStarted := i.candStarted,
    area0 := if torn && decide (area = 1) then none else i.area0,
    area1 := if torn && decide (area = 0) then none else i.area1 }

/-- GBL_STRAP shows the straps (R431). -/
def showStraps (s : State) : State :=
  ((s.setFld Reg.GBL_STRAP_BOOT s.rst.strapBoot).setFld Reg.GBL_STRAP_CLK s.rst.strapClk).setFld Reg.GBL_STRAP_MST s.rst.strapMst

/-- The state of every block reset, what no reset changes apart: the retained store, the levels on the pads, what has left for the
host, the commands that wait, the model's own counter. -/
def allReset (s : State) : State :=
  { State.reset with pending := s.pending, freeCtr := s.freeCtr, img := keptImg s, pin := (dropPins s).pin,
                     dma := { DmaState.reset with posted := s.dma.posted },
                     pcie := { PcieState.reset with sent := s.pcie.sent } }

/-- Power-on reset with these straps (R428, R431): `straps` as GBL_STRAP holds them. -/
def powerOn (s : State) (straps : Nat) : State :=
  let t := allReset s
  let t := { t with rst := { t.rst with strapBoot := bitsOf straps 4 3, strapClk := bitsOf straps 2 1, strapMst := bitsOf straps 0 0,
                                        plan := wideSteps } }
  (showStraps t).setFld Reg.RST_CAUSE_CAUSE 1

/-- A supply falls below its power-on threshold: nothing is powered until the power-on reset (R423, R428). -/
def supplyLoss (s : State) (rail : Nat) : State :=
  if rail < 3 then
    let t := allReset s
    setUp { t with cycle := s.cycle, rst := s.rst } 0 false
  else s

/-- RESET_N, the watchdog, the device command (R428): all domains; straps, the reference time and RST_CAUSE are kept, what the
monitors measure does not change, and mailboxes that were full show that they were aborted (R391). -/
def wideReset (s : State) (cause : Nat) : State :=
  if !(s.up 0) then s
  else
    let t := allReset s
    let t := { t with
      cycle := s.cycle
      rst := { t.rst with strapBoot := s.rst.strapBoot, strapClk := s.rst.strapClk, strapMst := s.rst.strapMst, plan := wideSteps }
      flt := { t.flt with supplyOut := s.flt.supplyOut, temp := s.flt.temp, refclkBad := s.flt.refclkBad } }
    abortNotices s.fullBoxes ((showStraps t).setFld Reg.RST_CAUSE_CAUSE cause)

/-- What GBL and IMG forget when the image stops with its domains: the flip in progress and the commits that have not written their
record (R423). -/
def stopImage (s : State) : State :=
  let lost := s.img.commits.any fun c => match c with | .bank _ _ _ => true | .image _ => false
  let s := if lost then s.event Reg.GBL_FLIPSTAT_JERR else s
  let s := { s with img := { (keptImg s) with op := .none, activate := none }, flip := { FlipState.reset with
      since := s.tb.n, stampOrbit := s.flip.stampOrbit, stampTime := s.flip.stampTime } }
  let s := [Reg.GBL_FLIPSTAT_PEND, Reg.GBL_FLIPSTAT_LOCKED, Reg.GBL_FLIPSTAT_BUSY, Reg.GBL_FLIPSTAT_JBUSY,
            Reg.IMG_JSTAT_BUSY, Reg.GBL_STATE_STATE, Reg.GBL_STATE_CAND, Reg.GBL_STATE_RECOV, Reg.GBL_STATE_OKSEEN].foldl
    (fun s f => s.setFld f 0) s
  s.setFld Reg.GBL_STATE_SLOT 3

/-- The reset of PD05 to PD95 (R428): the domains of the release path keep their state, the image stops. PD90 goes first, while its full
mailboxes still stand (R391). -/
def narrowDomains (s : State) : State :=
  let s := (90 :: (rangeFrom 5 91).filter (fun d => !decide (d = 90))).foldl dropDomain s
  let s := { stopImage s with sram := [] }
  let s := { s with ecc := s.ecc.filter fun e => decide (e < 0x2000000) }
  showSeq { s with rst := { s.rst with plan := [], railFailed := [], domainOp := none },
                   rel := { s.rel with results := [], replays := [] } } 0

/-- The restart command, the escalation, an activation (R428); discarded while a wider reset runs (R429). -/
def narrowReset (s : State) (cause : Nat) : State :=
  if !(s.up 4) then s else retest ((narrowDomains s).setFld Reg.RST_CAUSE_CAUSE cause)

/-- The safe-state escalation (R456): the safe state ends, FLT_STATUS is cleared, a lasting condition sets its bit again. -/
def escalate (s : State) : State :=
  if s.safe && !(s.flag Reg.FLT_SAFE_SELF) && decide (s.fld Reg.FLT_ESCTO_MS ≠ 0) then
    let s := narrowReset s 6
    let s := (s.setFld Reg.FLT_SAFE_SAFE 0).setFld Reg.FLT_SAFE_EXITPEND 0
    relatch (retest { s with flt := { s.flt with status := 0, exitOrbit := none } })
  else s

/-- A write of RST_CMD (R447). -/
def rstCmd (s : State) (code op : Nat) : State :=
  if code ≠ 0xA5C3 then s.event Reg.RST_STAT_CMDERR
  else match op with
    | 1 => wideReset s 4
    | 2 => narrowReset s 5
    | _ => s.event Reg.RST_STAT_CMDERR

/-! ### The endpoint (R424, R428, R445) -/

/-- A Function Level Reset: configuration space and MSI-X table (R424). -/
def functionReset (s : State) : State :=
  if !(s.up 4) then s
  else
    let lost (o : Nat) : Bool := decide (Reg.IMG_MSIX_ADDR_LO 0 ≤ o ∧ o ≤ Reg.IMG_MSIX_PBA 1)
    { s with regs := smDrop lost s.regs,
             pcie := { PcieState.reset with linkUp := s.pcie.linkUp, sent := s.pcie.sent } }

/-- PERST_N: the endpoint and its link restart. -/
def perst (s : State) : State :=
  let s := functionReset s
  { s with pcie := { s.pcie with linkUp := false } }

/-- The link trains; the host's settings of the function: Bus Master Enable, MSI-X Enable, function mask (log 7). -/
def linkTrained (s : State) (bme msixEn fmask : Bool) : State :=
  if s.up 4 then { s with pcie := { s.pcie with linkUp := true, busMaster := bme, msixEnable := msixEn, funcMask := fmask } } else s

/-! ### The watchdog stage (R463) -/

/-- A stage runs out: bit 55, or the watchdog reset. -/
def wdStageEnd (s : State) : State :=
  if !(s.flag Reg.FLT_WDCFG_EN) then s
  else if s.fld Reg.FLT_WDSTAT_STAGE = 0 then raiseLine (wdStage s 1) 55
  else wideReset s 3

end Sys2Proof.Machine
end

