-- ==== Sys2Proof/Machine/Img.lean ====
section
/-! DEFINITION. Images, the retained store and the journal (R407 to R423): parsing, checks, applying sections, slots, starts, bank
restore, and the reload of a domain (R441, R443). -/
namespace Sys2Proof.Machine

/-! ### What an image wires without a register (log 25) -/

/-- The SRAM layout, the streams and the thread starts (R4, R45, R358) of the image with this IMGID: core, thread. -/
opaque Config.imageWindows : Nat → List Window
opaque Config.imageStreams : Nat → List StreamCfg
opaque Config.imageThread : Nat → Nat → Nat → Word × Word × Word × Word × Word × Word

/-- Length and CRC-32 of a bank area as written (R421, R422): its layout is not given. -/
opaque Config.bankLen : BankImage → BitVec 32
opaque Config.bankCrc : BankImage → BitVec 32

def imageThread (imgid c t : Nat) : ThreadInit :=
  let v := Config.imageThread imgid c t
  { entry := v.1, g15 := v.2.1, xsp := v.2.2.1, splo := v.2.2.2.1, sphi := v.2.2.2.2.1, vbr := v.2.2.2.2.2 }

/-! ### Image bytes (R407 to R410) -/

/-- Base and size of the region of slot 0 A, 1 B, 2 golden; 3 the journal (R412). -/
def regionBase : Nat → Nat
  | 0 => 0
  | 1 => 0x600000
  | 2 => 0xC00000
  | _ => 0xE40000

def regionSize : Nat → Nat
  | 0 => 0x600000
  | 1 => 0x600000
  | 2 => 0x200000
  | _ => 0x1C0000

/-- Word `i` of the image whose bytes begin at `b` in `m`. -/
def imgWord (m : List Host.Cell) (b i : Nat) : Nat := memWord m (b + 4 * i)

def imgLen (m : List Host.Cell) (b : Nat) : Nat := imgWord m b 1
def imgSeq (m : List Host.Cell) (b : Nat) : Nat := imgWord m b 3
def imgId (m : List Host.Cell) (b : Nat) : Nat := imgWord m b 4 + 2 ^ 32 * imgWord m b 5
def imgNsec (m : List Host.Cell) (b : Nat) : Nat := bitsOf (imgWord m b 2) 15 0

/-- A section (R408): type, OPT, target, byte offset of its payload in the image, length, CRC. -/
structure Section where
  type : Nat
  opt : Bool
  target : Nat
  off : Nat
  len : Nat
  crc : Nat
deriving DecidableEq, Repr

/-- The sections from table entry `i` on; the next payload begins at or after `off`. -/
def sectionsFrom (m : List Host.Cell) (b : Nat) : Nat → Nat → Nat → List Section
  | 0, _, _ => []
  | n + 1, i, off =>
    let w (j : Nat) : Nat := imgWord m b (32 + 4 * i + j)
    let o := (off + 63) / 64 * 64
    { type := bitsOf (w 0) 31 16, opt := bit (w 0) 0, target := w 1, off := o, len := w 2, crc := w 3 } ::
      sectionsFrom m b n (i + 1) (o + w 2)

def sectionsOf (m : List Host.Cell) (b : Nat) : List Section :=
  sectionsFrom m b (imgNsec m b) 0 (128 + 16 * imgNsec m b)

/-- The payload's words. -/
def Section.words (x : Section) (m : List Host.Cell) (b : Nat) : List Nat :=
  (List.range (x.len / 4)).map fun i => memWord m (b + x.off + 4 * i)

/-- A CODE target: space, core, byte address of its first word (R409). -/
def codeTarget (t : Nat) : Nat × Nat × Nat := (bitsOf t 31 30, bitsOf t 29 25, 4 * bitsOf t 22 2)

/-- Where byte `a` of space `sp` of core `c` stands (SEP_MEMA.SPACE). -/
def codeKey (sp c a : Nat) : Option Nat :=
  match sp with
  | 0 => if a < 0x100000 then imemKey c a else none
  | 1 => if a < 0x200000 then dmemKey c a else none
  | 2 => if a < 0x100000 then imemKey c (0x100000 + a) else none
  | _ => if a < 0x200000 then dmemKey c (0x200000 + a) else none

/-- The target lies in the space that R409 gives its type. -/
def Section.placed (x : Section) : Bool :=
  match x.type with
  | 1 => decide (x.target = 0)
  | 2 => decide (x.target % 4 = 0 ∧ x.target + x.len ≤ 0x2000000)
  | 3 => decide (x.target % 4 = 0 ∧ x.target + x.len ≤ 0x4000000) && (isBanked x.target || decide (0x2000000 ≤ x.target))
  | 4 => decide (x.target % 4 = 0 ∧ 0x2000000 ≤ x.target ∧ x.target + x.len ≤ 0x4000000)
  | 5 =>
    let t := codeTarget x.target
    decide (bitsOf x.target 24 23 = 0) &&
      (decide (x.len = 0) || ((codeKey t.1 t.2.1 t.2.2).isSome && (codeKey t.1 t.2.1 (t.2.2 + x.len - 4)).isSome))
  | 6 => true
  | _ => x.opt

/-- RESULT of the checks of R411 that look at the header alone. -/
def headerCheck (m : List Host.Cell) (b size : Nat) : Nat :=
  let len := imgLen m b
  if bitsOf (imgWord m b 0) 31 8 ≠ 0x475A03 then 1
  else if bitsOf (imgWord m b 2) 31 16 ≠ 0x0048 then 2
  else if len % 64 ≠ 0 ∨ len < 128 + 16 * imgNsec m b + 256 ∨ size < len then 3 else 0

/-- Bytes that the checks read: the header, and all of the image once its length is known to be sound. -/
def checkSpan (m : List Host.Cell) (b size : Nat) : Nat := if headerCheck m b size = 0 then imgLen m b else 128

/-- RESULT of the checks of R411 for the image at `b` of `m`, in a region of `size` bytes; `bad`: a read of it failed. -/
def checkImage (m : List Host.Cell) (b size : Nat) (bad : Bool) : Nat :=
  let len := imgLen m b
  let ss := sectionsOf m b
  if headerCheck m b size ≠ 0 then headerCheck m b size
  else if !Config.keyFused || decide (sha384 (memBytes m (b + len - 256) 97) ≠ Config.keyHash.toNat) then 4
  else if !(sigOk (memBytes m (b + len - 256) 97) (memBytes m b (len - 128)) (memBytes m (b + len - 128) 96)) then 5
  else if imgSeq m b < Config.minSeq.toNat then 6
  else if ss.any (fun x => decide (len < x.off + x.len) || decide (x.crc ≠ crc32 (memBytes m (b + x.off) x.len))) then 7
  else if ss.any (fun x => !x.placed) then 8
  else if bad then 9 else 0

/-! ### Slots (R413) -/

/-- The TX48 reads `n` bytes of the retained store from `a` on: an uncorrectable word sets RSERR and raises line 51 (R412). -/
def storeMeet (s : State) (a n : Nat) : State := if s.storeDamaged a n then raiseLine (s.event Reg.IMG_STAT_RSERR) 51 else s

def State.slotState (s : State) (i : Nat) : Nat := s.fld (Reg.IMG_SLOT_STATE i)

/-- The slot of A and B in a state, if any. -/
def State.slotIn (s : State) (st : Nat) : Option Nat := [0, 1].find? fun i => decide (s.slotState i = st)

/-- The slots record (R421). -/
def slotsRecord (s : State) : State :=
  let com := s.slotIn 3
  let id := match com with | some i => imgId s.img.store (regionBase i) | none => 0
  journalAppend s 1 (((com.getD 3) + 4 * ((s.slotIn 2).getD 3) + 16 * s.slotState 0 + 256 * s.slotState 1) :: words2 id ++
    [match com with | some i => imgSeq s.img.store (regionBase i) | none => 0])

/-- A slot takes a state; for A and B the journal records it. SLOTSEQ follows. -/
def setSlot (s : State) (i st : Nat) : State :=
  if s.slotState i = st then s
  else
    let s := (s.setFld (Reg.IMG_SLOT_STATE i) st).setFld (Reg.IMG_SLOTSEQ_SEQ i)
      (if st = 0 then 0 else imgSeq s.img.store (regionBase i))
    if i < 2 then slotsRecord s else s

/-- The operation shown in IMG_STAT.OP; 0 when none runs (R427). -/
def State.imgOpCode (s : State) : Nat :=
  match s.img.op with
  | .check _ => 1
  | .load _ _ _ => 2
  | .apply _ _ _ => 2
  | .none => if s.img.activate.isSome then 3 else if s.img.commits ≠ [] then 4 else 0

/-- The slot that runs. -/
def State.runSlot (s : State) : Nat := s.fld Reg.GBL_STATE_SLOT

/-- The image of slot `i` is checked (R411, R417): RESULT, and whether it passed. `fail`: its copy from the flash broke off. -/
def checkSlot (s : State) (i : Nat) (fail : Bool) : State × Bool :=
  let b := regionBase i
  let n := checkSpan s.img.store b (regionSize i)
  let r := checkImage s.img.store b (regionSize i) (fail || s.storeDamaged b n)
  let s := ((storeMeet s b n).setFld Reg.IMG_STAT_RESULT r).setFld (Reg.IMG_SLOT_RESULT i) r
  if r = 0 then (s, true) else (setSlot (s.event Reg.IMG_STAT_VFAIL) i 0, false)

/-- Words of the retained store, by their index, come to hold an uncorrectable error (R412). -/
def storeHit (s : State) (bad : List (BitVec 22)) : State :=
  { s with img := { s.img with storeBad := bad.foldl (fun l w => nsAdd l (4 * w.toNat)) s.img.storeBad } }

/-! ### Access to the retained store (R417, R427) -/

/-- IMG_WADDR advances; the offset that it named within its region, and the region. -/
def wordAccess (s : State) : Nat × Nat × State :=
  let a := s.fld Reg.IMG_WADDR_ADDR
  (s.fld Reg.IMG_WADDR_REGION, 4 * a, s.setFld Reg.IMG_WADDR_ADDR (a + 1))

/-- The golden region is locked. -/
def State.goldLock (s : State) : Bool := s.img.goldLocked || Config.goldLocked

/-- A write of IMG_WDATA. -/
def imgWrite (s : State) (v : Word) : State :=
  let (r, o, s) := wordAccess s
  if r = 3 ∨ (r = 2 ∧ s.goldLock = true) ∨ s.slotState r = 3 ∨ r = s.runSlot then s.event Reg.IMG_STAT_WPERR
  else if regionSize r ≤ o then s
  else
    let s := setSlot s r 0
    let a := regionBase r + o
    { s with img := { s.img with store := memPutWord s.img.store a v.toNat, storeBad := nsDel s.img.storeBad a } }

/-- The word that IMG_WADDR names comes to hold an uncorrectable error (R412). -/
def readHit (s : State) (bad : Bool) : State :=
  let o := 4 * s.fld Reg.IMG_WADDR_ADDR
  let r := s.fld Reg.IMG_WADDR_REGION
  if bad && decide (o < regionSize r) then
    { s with img := { s.img with storeBad := nsAdd s.img.storeBad (regionBase r + o) } }
  else s

/-- A read of IMG_RDATA. What the bank areas hold has no layout in the spec, and beyond the region there is nothing: a free
value (logs 24, 50). -/
def imgRead (s : State) : Word × State :=
  let (r, o, s) := wordAccess s
  let a := regionBase r + o
  if regionSize r ≤ o then (s.fresh.1.truncate 32, s.fresh.2)
  else if s.img.storeBad.contains a then (0xFFFFFFFF, raiseLine (s.event Reg.IMG_STAT_RSERR) 51)
  else if r = 3 ∧ 0x40000 ≤ o ∧ (if o < 0x100000 then s.img.area0 else s.img.area1).isSome = true then
    (s.fresh.1.truncate 32, s.fresh.2)
  else (BitVec.ofNat 32 (memWord s.img.store a), s)

/-- VERIFY (R417): a check starts. -/
def imgVerify (s : State) (i : Nat) : State :=
  let s := s.setFld Reg.IMG_CTL_SLOT i
  if s.imgOpCode ≠ 0 ∨ i = 3 then s.event Reg.IMG_STAT_CMDERR
  else { s with img := { s.img with op := .check i } }

/-- GLOCK (R427). -/
def goldenLock (s : State) (i : Nat) : State :=
  let s := s.setFld Reg.IMG_CTL_SLOT i
  if i = 2 ∧ s.slotState 2 = 1 then { s with img := { s.img with goldLocked := true } } else s.event Reg.IMG_STAT_CMDERR

/-! ### Starting (R414 to R419, R438, R440) -/

/-- GBL_STATE.STATE. -/
def gblTo (s : State) (st : Nat) : State := s.setFld Reg.GBL_STATE_STATE st

/-- A start begins: FAILS and BOOTS are counted and recorded (R438). -/
def countStart (s : State) : State :=
  let f := min (s.fld Reg.IMG_BOOTCNT_FAILS + 1) 15
  let b := min (s.fld Reg.IMG_BOOTCNT_BOOTS + 1) 0xFFFFFF
  journalAppend ((s.setFld Reg.IMG_BOOTCNT_FAILS f).setFld Reg.IMG_BOOTCNT_BOOTS b) 3 [b, f]

/-- The images that R415 tries, with whether they start as a candidate. -/
def State.startOrder (s : State) : List (Nat × Bool) :=
  (match s.slotIn 2 with | some i => [(i, true)] | none => []) ++
  (match s.slotIn 3 with | some i => [(i, false)] | none => []) ++
  (([0, 1].filter fun i => decide (s.slotState i = 1)).map fun i => (i, false)) ++ [(2, false)]

/-- WAITIMG: the boot configuration of lane 0 when it is the boot source (R414 to R416). -/
def waitImage (s : State) (boot : Bool) : State :=
  let s := gblTo { s with img := { s.img with op := .none } } 4
  if boot && decide (s.rst.strapBoot = 3) then
    let s := (((((s.setFld (Reg.MDR_LCFG_ROLE 0) 2).setFld (Reg.MDR_LCFG_VERS 0) 7).setFld (Reg.MDR_LCFG_AUTH 0) 1).setFld
      (Reg.MDR_LCFG_IDANY 0) 1).setFld (Reg.LNK_CFG_MODE 0) 1).setFld (Reg.LNK_CFG_RATES 0) 1
    releaseDomain 0 s 5
  else s

/-- The next image of the order is checked (LOAD). -/
def loadNext (s : State) (boot : Bool) : List (Nat × Bool) → State
  | [] => waitImage s boot
  | (i, cand) :: rest =>
    let s := gblTo { s with img := { s.img with op := .load i cand rest } } 1
    if cand then setSlot { s with img := { s.img with candStarted := true } } i 2 else s

/-- A start. -/
def startWith (s : State) (order : List (Nat × Bool)) : State := loadNext (countStart s) false order

/-- Recovery mode (R440): the golden image is checked. -/
def recovery (s : State) : State :=
  (gblTo { s with img := { s.img with op := .load 2 false [] } } 5).setFld Reg.GBL_STATE_RECOV 1

/-- At the next start a candidate that was started and not committed becomes rejected (R415, R420). -/
def judgeCandidate (s : State) : State :=
  if s.img.candStarted then
    let s := { s with img := { s.img with candStarted := false } }
    match s.slotIn 2 with | some i => setSlot s i 4 | none => s
  else s

/-- The journal is restored (R421): slot states, counts, the committed bank's area. A candidate whose start has failed is rejected. -/
def restoreJournal (s : State) : State :=
  let s := storeMeet s journalBase 0x40000
  let slots := match s.newest 1 with | some r => r.getD 2 0 | none => 0
  let counts := match s.newest 3 with | some r => (r.getD 2 0, r.getD 3 0) | none => (0, 0)
  let area := match s.newest 2 with | some r => r.getD 2 0 | none => 0
  let st (i : Nat) : Nat := bitsOf slots (4 * i + 7) (4 * i + 4)
  let seq (i : Nat) : Nat := if st i = 0 then 0 else imgSeq s.img.store (regionBase i)
  let s := (((s.setFld (Reg.IMG_SLOT_STATE 0) (st 0)).setFld (Reg.IMG_SLOT_STATE 1) (st 1)).setFld (Reg.IMG_SLOTSEQ_SEQ 0)
    (seq 0)).setFld (Reg.IMG_SLOTSEQ_SEQ 1) (seq 1)
  let s := ((s.setFld Reg.IMG_BOOTCNT_BOOTS counts.1).setFld Reg.IMG_BOOTCNT_FAILS counts.2).setFld Reg.IMG_JSTAT_AREA area
  judgeCandidate (s.setFld Reg.IMG_JSTAT_RSEQ (s.img.rseq - 1))

/-- The image of the flash goes into slot `i`, as much of it as the slot takes (R414). -/
def spiCopy (s : State) (i : Nat) (flash : List Nat) : State :=
  let n := min (imgLen (memStore [] 0 (flash.take 128)) 0) (regionSize i)
  let s := setSlot s i 0
  { s with img := { s.img with store := memStore s.img.store (regionBase i) ((flash ++ List.replicate (n - flash.length) 0).take n),
                               storeBad := dropSpan s.img.storeBad (regionBase i) n } }

/-- Start from SPI NOR (R414): `flash` are its bytes from address 0, `fail` an SPI failure (R411). -/
def spiStart (s : State) (flash : List Nat) (fail : Bool) : State :=
  let m := memStore [] 0 (flash.take 128)
  let same (i : Nat) : Bool := decide (imgId m 0 = imgId s.img.store (regionBase i) ∧ imgSeq m 0 = imgSeq s.img.store (regionBase i))
  let inState (st i : Nat) : Bool := decide (s.slotState i = st) && same i
  let com := match s.slotIn 3 with | some i => [(i, false)] | none => []
  let order := s.startOrder
  if [0, 1].any (inState 3) || [0, 1].any (inState 4) then startWith s (com ++ order.filter fun e => !(com.contains e))
  else
    let i := if s.slotIn 3 = some 0 then 1 else 0
    let r := checkSlot (spiCopy s i flash) i fail
    startWith r.1 (if r.2 then (i, true) :: r.1.startOrder.filter fun e => !decide (e.1 = i) else r.1.startOrder)

/-- The start by STRAP_BOOT once PD00 to PD04 are up (R414), or recovery mode (R440). -/
def imageStart (s : State) (flash : List Nat) (fail : Bool) : State :=
  if !(s.up 4) || decide (s.rst.plan ≠ []) || decide (s.fld Reg.GBL_STATE_STATE ≠ 0) then s
  else
    let s := restoreJournal s
    if 4 ≤ s.fld Reg.IMG_BOOTCNT_FAILS ∨ s.flag Reg.RST_STAT_TRIMERR = true then recovery s
    else match s.rst.strapBoot with
      | 0 => startWith s s.startOrder
      | 1 => spiStart s flash fail
      | _ => waitImage s true

/-- ACTIVATE takes effect (R418); the golden slot has no candidate state (R427). -/
def activateNow (s : State) (i : Nat) : State :=
  let s := judgeCandidate (narrowReset s 7)
  startWith s ((i, decide (i < 2)) :: s.startOrder.filter fun e => !decide (e.1 = i))

/-- A write of IMG_CTL with ACTIVATE (R417, R418). -/
def imgActivate (s : State) (i : Nat) : State :=
  let s := s.setFld Reg.IMG_CTL_SLOT i
  if s.imgOpCode ≠ 0 ∨ i = 3 ∨ s.slotState i ≠ 1 ∨ i = s.runSlot then s.event Reg.IMG_STAT_CMDERR
  else if s.tbState < 2 then activateNow s i
  else { s with img := { s.img with activate := some i } }

/-- The orbit boundary at which a waiting ACTIVATE takes effect. -/
def activateBoundary (s : State) : State :=
  match s.img.activate with
  | some i => activateNow s i
  | none => s

/-! ### Applying sections (R409, R419) -/

/-- The index at which `off` names a register of an indexed family. -/
def onIdx (off base stride n : Nat) : Option Nat :=
  if decide (base ≤ off) && decide ((off - base) % stride = 0) && decide ((off - base) / stride < n)
  then some ((off - base) / stride) else none

/-- Apply `f` to the index at which `off` names a register of the family. -/
def onReg {α : Type} (off base stride n : Nat) (f : Nat → α) : Option α := (onIdx off base stride n).map f

/-- `n` brought into `[lo, hi]`. -/
def clampN (lo hi n : Nat) : Nat := max lo (min n hi)

/-- What a banked register stores of a written value: fields with a ceiling or a floor store that (R29, R62, R67, R146, R150, R216, R269,
R294, R312 to R317). -/
def clampStaged (off : Nat) (v : Word) : Word :=
  match off / 0x100000 with
  | 0x01 => if off = Reg.TB_SLIPMAX then wSetField v 6 0 (min (wField v 6 0) 64) else v
  | 0x02 => if off = Reg.REL_AVSCTL then wSetField v 7 0 (min (wField v 7 0) 20)
    else if off = Reg.REL_AVSLIM then
      wSetField (wSetField v 25 16 (clampN 680 880 (wField v 25 16))) 9 0 (clampN 680 880 (wField v 9 0))
    else v
  | 0x06 => cndClamp off v
  | 0x09 => decClamp off v
  | 0x0E => if (onIdx off (Reg.SRV_CURVCFG 0) 4 8).isSome then wSetField v 28 24 (min (wField v 28 24) 22) else v
  | 0x0F => if (onIdx off (Reg.CVL_PPER 0) 0x20 64).isSome then wSetField v 15 0 (max (wField v 15 0) 2) else v
  | 0x10 =>
    if (onIdx off (Reg.VOX_BHPF 0) 0x100 16).isSome then wSetField v 4 0 (min (wField v 4 0) 20)
    else if (onIdx off (Reg.VOX_BGAIN 0) 0x100 16).isSome then wSetField v 31 16 (min (wField v 31 16) 32768)
    else if (onIdx off (Reg.VOX_VWAVE 0) 0x40 64).isSome then wSetField v 26 22 (min (wField v 26 22) 17)
    else v
  | _ => v

/-- The bits of a register that its map defines; the others read 0 (R8). -/
def RegDef.bits (d : RegDef) : Nat := d.ro ||| d.rw ||| d.w1c ||| d.w1s ||| d.wo ||| d.rc

/-- `w` in the bits that the register at `o` has. -/
def inBits (o w : Nat) : Word := match regDef o with | some d => BitVec.ofNat 32 w &&& BitVec.ofNat 32 d.bits | none => 0

/-- LNK_CFG of lane `n`: a lane that the old mode has brought up, or begun to, is OFF and waits to be brought up in the new one (R74, R87). -/
def lnkCfgWord (s : State) (n : Nat) (v : Word) : State :=
  let t := s.wr (Reg.LNK_CFG n) v
  if t.lnkMode n = s.lnkMode n then t else laneReset t n

/-- A word of a STRUCT section: RO fields included. What a write of the register brings about follows it: the generator starts again
(R24), a lane begins anew in another mode (R87), taps and equaliser settings are taken over (R81, R82). -/
def structWord (s : State) (o w : Nat) : State :=
  let v := inBits o w
  if (regDef o).isNone then s
  else if o = Reg.TB_INTGEN then (if s.rd o = v then s else generatorStart (s.wr o v))
  else
    (onReg o (Reg.LNK_CFG 0) 0x1000 48 (fun n => lnkCfgWord s n v) <|>
      onReg o (Reg.LNK_TXPRE 0) 0x1000 48 (fun n => txPreWrite s n v) <|>
      onReg o (Reg.LNK_TXMAIN 0) 0x1000 48 (fun n => txMainWrite s n v) <|>
      onReg o (Reg.LNK_RXEQ 0) 0x1000 48 (fun n => rxeqWrite s n v)).getD (s.wr o v)

/-- A word of a BANK section: both banks, a register or a word of a banked region. Fields with a limit store it, as by a write. -/
def bankWord (s : State) (o w : Nat) : State :=
  if isBanked o then
    let v := clampStaged o (inBits o w)
    (s.wr o v).wrStaged o v
  else match s.inStaged o with
    | some r =>
      let w := if s.inPlane o then planeWord w else w
      { s with sram := memPutWord (memPutWord s.sram o w) (r.live + (o - r.staged)) w }
    | none => s

/-- The words of a section with their targets. -/
def Section.pairs (x : Section) (m : List Host.Cell) (b : Nat) : List (Nat × Nat) :=
  (x.words m b).zipIdx.map fun p => (x.target + 4 * p.2, p.1)

/-- Apply a section; `p` says which register offsets and which clusters take part. -/
def applySection (m : List Host.Cell) (b : Nat) (p : Nat → Bool) (k : Nat → Bool) (s : State) (x : Section) : State :=
  match x.type with
  | 2 => (x.pairs m b).foldl (fun s e => if p e.1 then structWord s e.1 e.2 else s) s
  | 3 => (x.pairs m b).foldl (fun s e => if p e.1 then bankWord s e.1 e.2 else s) s
  | 4 => (x.pairs m b).foldl
      (fun s e => if p e.1 then { s with sram := memPutWord s.sram e.1 e.2, ecc := nsDel s.ecc e.1 } else s) s
  | 5 =>
    let t := codeTarget x.target
    if k (t.2.1 / 8) then
      (x.words m b).zipIdx.foldl (fun s e => match codeKey t.1 t.2.1 (t.2.2 + 4 * e.2) with
        | some a => sepStore s a (wordBytes e.1)
        | none => s) s
    else s
  | _ => s

/-- The sections that follow DOMAIN, in the order of their types (R409). -/
def orderedSections (m : List Host.Cell) (b : Nat) : List Section :=
  let ss := sectionsOf m b
  ([2, 4, 5, 3].map fun ty => ss.filter fun x => decide (x.type = ty)).flatten

def applySections (m : List Host.Cell) (b : Nat) (p k : Nat → Bool) (s : State) : State :=
  (orderedSections m b).foldl (applySection m b p k) s

/-- The domains that the DOMAIN section names. -/
def domainPlan (m : List Host.Cell) (b : Nat) : Nat → Bool := fun d =>
  (sectionsOf m b).any fun x => decide (x.type = 1 ∧ d / 8 < x.len) && bit (memByte m (b + x.off + d / 8)) (d % 8)

/-- The offset of the section's first word that lies in a domain that is not released. -/
def State.failsAt (s : State) (x : Section) : Option Nat :=
  ((List.range (x.len / 4)).find? fun i => !(s.up (domOf (x.target + 4 * i)))).map fun i => x.target + 4 * i

/-- A section's target lies in a domain that is not released: the error completion stops the load (R419). -/
def State.sectionFails (s : State) (x : Section) : Bool :=
  match x.type with
  | 2 => (s.failsAt x).isSome
  | 3 => (s.failsAt x).isSome
  | 5 => !(s.up (86 + (codeTarget x.target).2.1 / 8))
  | _ => false

/-- The load up to the error completion: the sections before the failing one, and that one up to the word that fails. -/
def applyUntil (m : List Host.Cell) (b : Nat) (s : State) : List Section → State
  | [] => s
  | x :: xs =>
    if s.sectionFails x then
      applySection m b (fun o => decide (o < (s.failsAt x).getD 0)) (fun _ => false) s x
    else applyUntil m b (applySection m b (fun _ => true) (fun _ => true) s x) xs

/-- IMG_STAT.RESULT and IMG_SLOT.RESULT. -/
def setResult (s : State) (i r : Nat) : State := (s.setFld Reg.IMG_STAT_RESULT r).setFld (Reg.IMG_SLOT_RESULT i) r

/-- RST_PDPLAN (R447). -/
def showPlan (s : State) (p : Nat → Bool) : State :=
  (List.range 96).foldl (fun s d => s.setFlag ⟨Reg.RST_PDPLAN (d / 32), d % 32, d % 32⟩ (decide (d < 5) || p d)) s

/-- The checks of LOAD have passed: APPLY begins with the release of the plan's domains (R419). -/
def beginApply (s : State) (i : Nat) (cand : Bool) (rest : List (Nat × Bool)) : State :=
  let p := domainPlan s.img.store (regionBase i)
  let s := showPlan (gblTo { s with img := { s.img with op := .apply i cand rest }, rst := { s.rst with plan := applySteps p } } 2) p
  showSeq (((s.setFld Reg.GBL_STATE_SLOT i).setFlag Reg.GBL_STATE_CAND cand).setFld Reg.GBL_STATE_RECOV 0) 0

/-- The blocks that recovery mode applies (R415): GBL, TB, REL, IMG, RST, FLT. -/
def recoveryBlock (o : Nat) : Bool := [0x00, 0x01, 0x02, 0x15, 0x16, 0x17].contains (o / 0x100000)

/-- The checks of an image end (R411, R415, R417). -/
def checkDone (s : State) : State :=
  match s.img.op with
  | .check i =>
    let r := checkSlot { s with img := { s.img with op := .none } } i false
    if r.2 && decide (r.1.slotState i = 0 ∨ r.1.slotState i = 4) then setSlot r.1 i 1 else r.1
  | .load i cand rest =>
    let r := checkSlot s i false
    if s.flag Reg.GBL_STATE_RECOV && decide (s.fld Reg.GBL_STATE_STATE = 5) then
      let t := { r.1 with img := { r.1.img with op := .none } }
      if r.2 then
        (applySections t.img.store (regionBase 2) recoveryBlock (fun _ => false) (setSlot t 2 1)).setFld Reg.GBL_STATE_SLOT 2
      else t
    else if r.2 then beginApply (if i = 2 then setSlot r.1 2 1 else r.1) i cand rest
    else loadNext r.1 false rest
  | _ => s

/-! ### The parameter bank (R422) -/

/-- Put a saved bank into both banks, where `p` holds. -/
def putBank (s : State) (b : BankImage) (p : Nat → Bool) (sramToo : Bool) : State :=
  let regs := b.regs.filter fun e => p e.1
  let keep (e : Nat × Word) : Bool := !(isBanked e.1 && p e.1)
  let s := { s with regs := smMerge (s.regs.filter keep) regs, staged := smMerge (s.staged.filter keep) regs }
  if sramToo then
    let rest := s.sram.filter fun e => (s.inStaged e.1).isNone && (s.inLive e.1).isNone
    let live := b.sram.foldl (fun m e => smInsert m (s.swapAddr e.1) e.2) []
    { s with sram := smMerge (smMerge rest b.sram) live }
  else s

/-- The bank records of this IMGID, newest first. -/
def bankRecords (imgid : Nat) : List (List Nat) → List (List Nat)
  | [] => []
  | r :: rs =>
    let l := bankRecords imgid rs
    if r.getD 5 0 + 2 ^ 32 * r.getD 6 0 = imgid then
      (l.filter fun q => decide (r.getD 1 0 < q.getD 1 0)) ++ [r] ++ l.filter fun q => !decide (r.getD 1 0 < q.getD 1 0)
    else l

/-- Where bank area `a` begins (R412), and its size. -/
def areaBase (a : Nat) : Nat := journalBase + (if a = 0 then 0x40000 else 0x100000)
def areaSize : Nat := 0xC0000

/-- Bank area `a` as it can be read: what it holds, unless a word of it cannot be read (R422, R423). -/
def State.areaOf (s : State) (a : Nat) : Option BankImage :=
  match (if a = 0 then s.img.area0 else s.img.area1) with
  | some b => if s.storeDamaged (areaBase a) areaSize then none else some b
  | none => none

/-- The bank that a bank record names, where the area can be read and matches its CRC (R422). -/
def State.bankOf (s : State) (r : List Nat) : Option BankImage :=
  (s.areaOf (r.getD 2 0)).filter fun b => decide ((Config.bankCrc b).toNat = r.getD 4 0)

/-- The bank that the journal restores: that of the newest record whose area qualifies. -/
def State.restorable (s : State) (recs : List (List Nat)) : Option BankImage := recs.findSome? s.bankOf

/-- Restore the newest valid journal bank of the running IMGID, where `p` holds (R422, R443). Each area that fails on the way sets
JBANKERR and raises line 21, and one that cannot be read RSERR and line 51 (R412). -/
def restoreBank (s : State) (imgid : Nat) (p : Nat → Bool) (sramToo : Bool) : State :=
  let recs := bankRecords imgid (s.recordsOf 2)
  let fails := recs.takeWhile fun r => (s.bankOf r).isNone
  let bank := s.restorable recs
  let s := fails.foldl (fun s r => storeMeet s (areaBase (r.getD 2 0)) areaSize) s
  let s := if fails = [] then s else raiseLine (s.event Reg.IMG_STAT_JBANKERR) 21
  match bank with
  | some b => putBank s b p sramToo
  | none => s

/-! ### RUN (R419) -/

/-- The threads of cluster `k` start (R358). -/
def clusterRun (s : State) (imgid k : Nat) : State :=
  if s.up (86 + k) then
    (rangeFrom (8 * k) 8).foldl (fun s c => [0, 1, 2, 3].foldl (fun s t => threadRun s c t (imageThread imgid c t)) s) s
  else s

/-- What starts with the image: the voltage request (R61), the engines' assignment, waveforms, voices, the pins' functions, cores, and the bring-up of lanes
whose mode the image has just set (log 34). -/
def runBlocks (s : State) (imgid : Nat) : State :=
  let s := { s with
    cnd := CndState.reset, obj := { s.obj with work := [], results := [], old := [], drops := [] }, dec := DecState.reset,
    pf := PfState.reset, rel := { s.rel with firstX := s.tb.n, results := [], replays := [] },
    ro := { s.ro with accno := 0 }, srv := { s.srv with waitFrom := s.tb.n } }
  let s := avsStart (voxRun (cvlRun (assignPairs s)))
  let s := (List.range 48).foldl policeFlip (pinsStart s)
  let s := (List.range 48).foldl (fun s n => if s.laneUp n && decide (s.lnkState n = 0) then laneBringUp s n else s) s
  (List.range 4).foldl (fun s k => clusterRun s imgid k) s

/-- The Lake is flattened from the live planes, for both banks (R419). -/
def flattenAll (s : State) : State :=
  (List.range 32).foldl (fun s j => if s.lakeDefined j then flatten (flatten s true j) false j else s) s

/-- The image reaches RUN. -/
def reachRun (s : State) (i : Nat) : State :=
  let m := s.img.store
  let b := regionBase i
  let id := imgId m b
  let s := { s with img := { s.img with op := .none, windows := Config.imageWindows id, streams := Config.imageStreams id,
                                        okWindowOver := false } }
  let vdet := s.fld Reg.PIN_BANKCFG_VDET
  let s := applySections m b (fun _ => true) (fun _ => true) s
  let s := if s.up 93 then bankCheck s vdet else s
  let found := (s.restorable (bankRecords id (s.recordsOf 2))).isSome
  let s := (restoreBank s id (fun _ => true) true).setFlag Reg.IMG_JSTAT_RESTORED found
  let s := flattenAll s
  let s := ((s.setFld Reg.GBL_IMGID_LO_ID id).setFld Reg.GBL_IMGID_HI_ID (id / 2 ^ 32)).setFld Reg.GBL_IMGSEQ_SEQ (imgSeq m b)
  let s := (gblTo s 3).setFld Reg.GBL_STATE_OKSEEN 0
  retest ((List.range 4).foldl clusterCounts (runBlocks s id))

/-- APPLY completes once the plan's domains are released (R419); a section that gets an error completion makes it fail. -/
def imageRun (s : State) : State :=
  match s.img.op with
  | .apply i _ rest =>
    if s.rst.plan ≠ [] then s
    else if (sectionsOf s.img.store (regionBase i)).any s.sectionFails then
      let s := applyUntil s.img.store (regionBase i) s (orderedSections s.img.store (regionBase i))
      let s := setResult (errorCompletion s) i 8
      loadNext (narrowDomains s) false rest
    else reachRun s i
  | _ => s

/-! ### Successful starts, commits (R420, R422, R423, R439) -/

/-- A write of GBL_STARTOK. -/
def startOk (s : State) (code : Nat) : State :=
  if code ≠ 0x5A17 ∨ s.running = false then s
  else if s.img.okWindowOver then s.event Reg.RST_STAT_LATEOK
  else if s.flag Reg.GBL_STATE_OKSEEN then s
  else
    let s := (s.setFld Reg.GBL_STATE_OKSEEN 1).setFld Reg.IMG_BOOTCNT_FAILS 0
    let s := journalAppend s 3 [s.fld Reg.IMG_BOOTCNT_BOOTS, 0]
    if s.flag Reg.GBL_STATE_CAND then requestCommit s (.image s.runSlot) else s

/-- 10 s have passed since RUN. -/
def startOkTimeout (s : State) : State :=
  if s.running && !(s.flag Reg.GBL_STATE_OKSEEN) && !s.img.okWindowOver then
    { s with img := { s.img with okWindowOver := true } }.event Reg.RST_STAT_NOSTARTOK
  else s

/-- The bank commit's area and record. -/
def commitBank (s : State) (b : BankImage) (imgid orbit : Nat) : State :=
  let a := 1 - s.fld Reg.IMG_JSTAT_AREA
  let s := { s with img := { s.img with storeBad := dropSpan s.img.storeBad (areaBase a) areaSize } }
  let s := { s with img := if a = 0 then { s.img with area0 := some b } else { s.img with area1 := some b } }
  (journalAppend s 2 ([a, (Config.bankLen b).toNat, (Config.bankCrc b).toNat] ++ words2 imgid ++ words2 orbit)).setFld Reg.IMG_JSTAT_AREA a

/-- The image commit: the slot becomes committed, the one that was stays valid (R420). -/
def commitImage (s : State) (i : Nat) : State :=
  let s := match s.slotIn 3 with | some j => s.setFld (Reg.IMG_SLOT_STATE j) 1 | none => s
  (setSlot { s with img := { s.img with candStarted := false } } i 3).setFld Reg.GBL_STATE_CAND 0

/-- The commit in front ends: its record is written, or it fails (R422, R423). -/
def commitDone (s : State) (ok : Bool) : State :=
  match s.img.commits with
  | [] => s
  | c :: rest =>
    let s := { s with img := { s.img with commits := rest } }.setFlag Reg.IMG_JSTAT_BUSY (decide (rest ≠ []))
    match c with
    | .image i => if ok then commitImage s i else s
    | .bank b id orb =>
      let more := rest.any fun c => match c with | .bank _ _ _ => true | .image _ => false
      let s := s.setFlag Reg.GBL_FLIPSTAT_JBUSY more
      if ok then commitBank s b id orb else s.event Reg.GBL_FLIPSTAT_JERR

/-! ### Domain operations at run time (R441 to R443) -/

/-- A domain that RST_PDCMD may name (R441). -/
def switchable (d : Nat) : Bool := decide ((5 ≤ d ∧ d ≤ 52) ∨ (81 ≤ d ∧ d ≤ 89) ∨ (91 ≤ d ∧ d ≤ 95))

/-- A write of RST_PDCMD: OP 1 reset, 2 off, 3 on. -/
def domainCmd (s : State) (code op d : Nat) : State :=
  if code = 0xA5C3 ∧ (1 ≤ op ∧ op ≤ 3) ∧ switchable d = true ∧ s.fld Reg.GBL_STATE_STATE = 3 ∧ s.flag Reg.RST_SEQ_BUSY = false ∧
      s.rst.domainOp = none
  then { s with rst := { s.rst with domainOp := some { op := op, pd := d, started := false } } }
  else s.event Reg.RST_STAT_CMDERR

/-- A waiting operation starts once no flip is locked and no copy runs; On of a domain that is up only reloads it (log 50). `vdet` as in
`releaseDomain`. -/
def domainOpStart (s : State) (vdet : Nat) : State :=
  match s.rst.domainOp with
  | none => s
  | some o =>
    if o.started || s.flag Reg.GBL_FLIPSTAT_LOCKED || s.flag Reg.GBL_FLIPSTAT_BUSY then s
    else if o.op = 2 then retest (dropDomain { s with rst := { s.rst with domainOp := none } } o.pd)
    else
      let s := if o.op = 1 then dropDomain s o.pd else s
      let s := gblTo { s with rst := { s.rst with domainOp := some { o with started := true } } } 6
      retest ((if s.up o.pd then s else releaseDomain vdet s o.pd).setFld Reg.RST_SEQ_BUSY 1)

/-- The reload of the domain ends (R443): sections, bank, and the start of its state. -/
def reloadDone (s : State) : State :=
  match s.rst.domainOp with
  | none => s
  | some o =>
    if !o.started then s
    else
      let d := o.pd
      let b := regionBase s.runSlot
      let id := imgId s.img.store b
      let s := { s with rst := { s.rst with domainOp := none } }
      let vdet := s.fld Reg.PIN_BANKCFG_VDET
      let mine (a : Nat) : Bool := decide (domOf a = d ∧ a < 0x2000000)
      let s := applySections s.img.store b mine (fun k => decide (86 + k = d)) s
      let s := restoreBank s id mine false
      let s := if 86 ≤ d ∧ d ≤ 89 then clusterRun s id (d - 86)
        else if d = 92 then voxRun (cvlRun s)
        else if d = 85 then { s with srv := { s.srv with waitFrom := s.tb.n } }
        else if d = 93 then pinsStart (bankCheck s vdet)
        else if 5 ≤ d ∧ d ≤ 52 then
          let s := policeFlip s (d - 5)
          if s.lnkState (d - 5) = 0 then laneBringUp s (d - 5) else s
        else s
      retest ((gblTo s 3).setFld Reg.RST_SEQ_BUSY 0)

end Sys2Proof.Machine
end

