-- ==== Sys2Proof/Machine/Operands.lean ====
section
/-! DEFINITION. Sepia instruction words: formats, fields and what is illegal (R363 to R365, R368, R375, R376, R378), the registers that
an instruction reads, immediate operands and shifts. -/
namespace Sys2Proof.Machine

/-- A Sepia instruction, its fields read. -/
inductive Ins where
  /-- T 0x00: FN 0 to 13 (R368) -/
  | alu (fn rd ra rb : Nat) (s : Bool)
  /-- T 0x01 (R378) -/
  | fp (fn rd ra rb : Nat)
  /-- T 0x02 (R368) -/
  | mul (fn rd ra rb : Nat)
  /-- I (R368): the opcode says which -/
  | imm (op rd ra i : Nat)
  | br (cond disp : Nat)
  | jmp (disp : Nat)
  | jr (ra : Nat)
  | call (disp : Nat)
  | callr (ra : Nat)
  | ret
  | callm (ra mask : Nat)
  | retm (mask : Nat)
  | mfs (rd sreg : Nat)
  | mts (sreg ra : Nat)
  | trap
  | retx
  | wfe (rd mask : Nat)
  | sev (scope core thread b : Nat)
  | waitt (rd ra timer mask : Nat)
  | iflush
  | barx
  | brk
  | repb (mode : Nat)
  | str (kind sz ra rb : Nat)
deriving DecidableEq, Repr

/-- Keep `i` when the fields that must be 0 are. -/
def insIf (ok : Bool) (i : Ins) : Option Ins := if ok then some i else none

/-- T-format instructions (R363, R368, R378). Only those of opcode 0x00 take S = 1 (log 34). -/
def decodeT (w : Nat) : Option Ins :=
  let rd := bitsOf w 25 22
  let ra := bitsOf w 21 18
  let rb := bitsOf w 17 14
  let s := bit w 13
  let fn := bitsOf w 7 0
  if bitsOf w 12 8 ≠ 0 then none
  else match bitsOf w 31 26 with
    | 0 => insIf (decide (fn ≤ 13 ∧ (fn = 9 → rd = 0))) (.alu fn rd ra rb s)
    | 1 => insIf (!s && decide (fn ≤ 7 ∧ (fn = 4 → rb = 0) ∧ (fn = 5 → rd = 0))) (.fp fn rd ra rb)
    | _ => insIf (!s && decide (fn ≤ 4 ∧ (fn ≤ 1 → rd = 0) ∧ (fn = 4 → rb = 0))) (.mul fn rd ra rb)

/-- I-format instructions (R368). -/
def decodeI (w : Nat) : Option Ins :=
  let op := bitsOf w 31 26
  let rd := bitsOf w 25 22
  let ra := bitsOf w 21 18
  let i := bitsOf w 17 0
  let ok : Bool := match op with
    | 0x08 => decide (rd = 0)
    | 0x09 => decide (ra = 0 ∧ bitsOf i 17 16 = 0)
    | 0x0A => decide (bitsOf i 6 5 ≠ 3)
    | _ => decide ((4 ≤ op ∧ op ≤ 7) ∨ (0x10 ≤ op ∧ op ≤ 0x14) ∨ (0x18 ≤ op ∧ op ≤ 0x1A) ∨ (0x1C ≤ op ∧ op ≤ 0x1F))
  insIf ok (.imm op rd ra i)

/-- The S-format and K-format instructions (R365): every bit that R365 does not name must be 0. -/
def decodeS (w : Nat) : Option Ins :=
  let z (m : Nat) : Bool := decide (w % 2 ^ 26 &&& m = 0)
  let f (hi lo : Nat) : Nat := bitsOf w hi lo
  match bitsOf w 31 26 with
  | 0x22 => insIf (z 0x3C3FFFF) (.jr (f 21 18))
  | 0x25 => insIf (z 0x3C3FFFF) (.callr (f 21 18))
  | 0x26 => insIf (z 0x3FFFFFF) .ret
  | 0x28 => insIf (z 0x3F0000 && !(bit w 0) && !(bit w 15)) (.callm (f 25 22) (f 15 0))
  | 0x29 => insIf (z 0x3FF0000) (.retm (f 15 0))
  | 0x30 => insIf (z 0x3FFFF0 && decide (f 3 0 ≤ 10)) (.mfs (f 25 22) (f 3 0))
  | 0x31 => insIf (z 0x3C3FFF0 && decide (f 3 0 ≤ 10)) (.mts (f 3 0) (f 21 18))
  | 0x32 => insIf (z 0x3FF0000) .trap
  | 0x33 => insIf (z 0x3FFFFFF) .retx
  | 0x34 => insIf (z 0x3FFE00 && decide (f 8 0 ≠ 0)) (.wfe (f 25 22) (f 8 0))
  | 0x35 => insIf (z 0x1FFF8 && (decide (f 25 24 ≠ 3) || decide (f 23 17 = 0))) (.sev (f 25 24) (f 23 19) (f 18 17) (f 2 0))
  | 0x36 => insIf (z 0x600) (.waitt (f 25 22) (f 21 18) (f 17 11) (f 8 0))
  | 0x38 => insIf (z 0x3FFFFFF) .iflush
  | 0x39 => insIf (z 0x3FFFFFF) .barx
  | 0x3A => insIf (z 0x3FFFFFF) .brk
  | 0x3C => insIf (z 0xFFFFFF && decide (f 25 24 ≠ 3)) (.repb (f 25 24))
  | 0x3D => insIf (z 0x3FFF && decide (f 23 22 ≠ 3) && (decide (2 ≤ f 25 24) || decide (f 17 14 = 0)))
      (.str (f 25 24) (f 23 22) (f 21 18) (f 17 14))
  | _ => none

/-- The instruction that a word spells; none where it is illegal (R364). -/
def sepDecode (w : Nat) : Option Ins :=
  let op := bitsOf w 31 26
  if op ≤ 2 then decodeT w
  else if op = 0x20 then insIf (decide (bitsOf w 25 22 ≠ 15)) (.br (bitsOf w 25 22) (bitsOf w 21 0))
  else if op = 0x21 then some (.jmp (bitsOf w 25 0))
  else if op = 0x24 then some (.call (bitsOf w 25 0))
  else if op < 0x20 then decodeI w
  else decodeS w

/-- Registers named by a mask. -/
def maskRegs (m : Nat) : List Nat := (List.range 16).filter fun i => bit m i

/-- The registers whose values an instruction uses (R339). -/
def Ins.uses : Ins → List Nat
  | .alu _ _ ra rb _ => [ra, rb]
  | .fp _ _ ra rb => [ra, rb]
  | .mul _ _ ra rb => [ra, rb]
  | .imm op rd ra _ => if 0x18 ≤ op ∧ op ≤ 0x1F ∧ op ≠ 0x1C ∧ op ≠ 0x1E then [rd, ra] else [ra]
  | .br _ _ | .jmp _ | .trap | .iflush | .barx | .brk | .wfe _ _ | .sev _ _ _ _ | .mfs _ _ => []
  | .jr ra => [ra]
  | .mts _ ra => [ra]
  | .waitt _ ra _ _ => [ra]
  | .call _ | .ret | .retm _ | .retx => [15]
  | .callr ra => [15, ra]
  | .callm ra m => [15, ra] ++ maskRegs m
  | .repb _ => [11]
  | .str k _ ra rb => match k with
    | 0 => [12, 13]
    | 1 => [13, ra]
    | 2 => [12, 13, rb]
    | _ => [13, ra, rb]

/-- An instruction that works on a long operation (R345): a fifth one waits. -/
def Ins.isLongOp : Ins → Bool
  | .fp fn _ _ _ => decide (fn = 3 ∨ fn = 4)
  | .mul fn _ _ _ => decide (2 ≤ fn)
  | _ => false

/-- A sign-extended field as a word. -/
def sextW (n v : Nat) : Word := BitVec.ofNat 32 (wrapN 32 (sext n v))

/-- Shift right arithmetically. -/
def sarW (a : Word) (n : Nat) : Word := a.sshiftRight n

/-- Bytes and sign extension of the LD family, by opcode. -/
def loadKind (op : Nat) : Nat × Bool :=
  match op with
  | 0x10 => (4, false)
  | 0x11 => (2, true)
  | 0x12 => (2, false)
  | 0x13 => (1, true)
  | _ => (1, false)

/-- The address that an I-format access names. -/
def Thread.addrOf (x : Thread) (ra i : Nat) : Word := x.use ra + sextW 18 i

/-- The destinations of the long operations outstanding. -/
def Thread.longDests (x : Thread) : List Nat := (x.longs.map (·.rd)).filter fun r => !decide (r = 0)

/-- An instruction that puts stores into the buffer: ST, STH, STB, CALL, CALLR, CALLM, BCPY, BSET (R342). -/
def Ins.buffers : Ins → Bool
  | .imm o _ _ _ => decide (0x18 ≤ o ∧ o ≤ 0x1A)
  | .call _ | .callr _ | .callm _ _ => true
  | .str k _ _ _ => decide (k ≤ 1)
  | _ => false

/-- A thread that is to issue this instruction has to wait (R338, R339, R342, R345): in guarded mode it uses the destination of a long
operation; it would store, and the buffer is full; it would start a fifth long operation; or in slow-precise mode a long operation has not
retired. `op` is SEP_CCFG.OPEN. -/
def Thread.holds (x : Thread) (op : Bool) (i : Ins) : Bool :=
  (!op && i.uses.any x.longDests.contains) ||
  (i.buffers && decide (2 ≤ x.sb.length)) ||
  (swBit x.sw 31 && decide (x.longs ≠ [])) ||
  (decide (4 ≤ x.longs.length) && (i.isLongOp ||
    (match i with
      | .imm o _ ra k => decide (0x10 ≤ o ∧ o ≤ 0x14) && inDram (x.addrOf ra k).toNat
      | _ => false)))

/-- A thread with this instruction at the head of its queue is not ready (R338); REPB waits for its string instruction too. -/
def Thread.blocked (x : Thread) (op : Bool) (i : Ins) : Bool :=
  x.holds op i ||
  (match i, x.queue with
    | .repb _, _ :: some w :: _ => (match sepDecode w.toNat with | some (.str k sz ra rb) => x.holds op (.str k sz ra rb) | _ => false)
    | _, _ => false)

/-- The thread runs and is not ready (R338). -/
def State.waits (s : State) (c t : Nat) : Bool :=
  let x := s.thr c t
  decide (x.state = .running) && (x.wait.isSome ||
    (match x.queue with
      | some w :: _ => (match sepDecode w.toNat with | some i => x.blocked (s.flag (Reg.SEP_CCFG_OPEN c)) i | none => false)
      | _ => false))

/-- Bytes of an element or access by SZ (R375). -/
def szBytes (sz : Nat) : Nat := 2 ^ sz

end Sys2Proof.Machine
end

