-- ==== Sys2Proof/Machine/Slot.lean ====
section
/-! DEFINITION. What every block does at a slot-clock edge, put together in one order (R17, and the chapters' own rules). -/
namespace Sys2Proof.Machine

/-! ### The orbit boundary -/

/-- The records and measures of the orbit that ended: its number, duration in ps, and slots (R58, R60, R62). -/
def boundaryRecords (s : State) (orb ps len : Nat) : State :=
  let sl := s.leastSlack
  avsAdjust (periodMeasure (publishSentinels s orb) ps len) sl

/-- The flip at a boundary, and what follows from new live values (R37, R113, R205, R305). -/
def boundaryFlip (s : State) (odd : Bool) : State :=
  let t := flipBoundary s odd
  if t.flip.since = s.flip.since ∧ t.flip.copyAt = s.flip.copyAt then t
  else
    let t := cvlFlip (decFlip t s.rd)
    (List.range 48).foldl policeFlip t

/-- An exit from the safe state that waits for a boundary (R455). -/
def boundarySafe (s : State) (k : Boundary) : State :=
  if s.safe && s.flag Reg.FLT_SAFE_EXITPEND && decide (k = Boundary.regular) then
    safeExit (noteHeld (noteForced s)) (some s.tb.n)
  else s

/-- What the beginning of an orbit does, by a boundary of kind `k`. -/
def orbitActs (s : State) (k : Boundary) : State :=
  let s := settle s
  let s := boundaryFlip s (decide (k ≠ Boundary.regular))
  let s := (List.range 48).foldl laneBoundary s
  let s := pedBoundary (decBoundary (ingBoundary s))
  let s := boundarySafe s k
  activateBoundary (countSrc s 0x1C9)

/-- All that an orbit boundary of kind `k` does. -/
def boundaryActs (s : State) (k : Boundary) (orb ps len : Nat) : State := orbitActs (boundaryRecords s orb ps len) k

/-! ### Releases and handovers -/

/-- The deadlines and the release of stream `st`, with the readout request that its strobe makes (R49, R52, R222). -/
def streamSlot (s : State) (st : Nat) : State :=
  let s := streamEdge s st
  match s.img.streams[st]?, s.releasedNow st with
  | some c, some r => if c.ro && r.strobe && s.up 79 then roRequest s r.x r.word else s
  | _, _ => s

/-- The handover of the crossing that is due (R123, R139, R195, R219): its cells go to CND, its lane data to the ring, its inputs to DEC. -/
def handoverSlot (s : State) : State :=
  if s.running && s.up 53 && decide (s.dskt ≤ s.tb.n) then
    let x := s.tb.n - s.dskt
    let feeds := s.frontLanes.filterMap fun n => (s.laneFeed n x).map fun f => (n, f)
    let r := handover s x
    let t := condHandover r.1 x r.2
    let t := if t.up 79 then roLanes t x feeds else t
    if t.up 78 then decHandover t x feeds t.throttle else t
  else s

/-- The ring entry of the crossing whose lane slots open now (R218, R219). -/
def openSlot (s : State) : State :=
  if s.running && s.up 79 && decide (s.dskt ≤ s.tb.n + 4) then roOpen s (s.tb.n + 4 - s.dskt) else s

/-- The commands that fall due in the slot: those of the raster list, then those of voices (R102, R165, R316). -/
def commandSlot (s : State) (voices : List Nat) : State :=
  let r := if s.running && s.up 61 then rasterCommands s else (s, [])
  fcDue r.1 (r.2 ++ voices)

/-- What no later rule can look at is let go. -/
def pruneSlot (s : State) : State :=
  { s with obj := { s.obj with old := s.obj.old.filter fun o => decide (s.tb.n < o.until_ + 1100),
                               work := s.obj.work.filter fun w => decide (s.tb.n < w.x + 1100) } }

/-- What follows at a slot-clock edge when the slot has its number and the acts of an orbit's beginning are done. -/
def slotActs (s : State) : State :=
  let s := if s.tb.slot + 1 = s.fld Reg.TB_CURLEN_LEN then commitPoint s else s
  let s := closeWindow (copyStart s)
  let s := s.streams.foldl streamSlot s
  let s := voidClose s
  let v := voxSlot (cvlSlot s)
  let s := voxSlotSamples v.1
  let s := s.frontLanes.foldl ingOpen s
  let s := handoverSlot (openSlot s)
  let s := if s.up 78 then decPinSample s else s
  pruneSlot (countSrc (commandSlot (dmaCredit s) v.2) 0x1CA)

/-- A slot-clock rising edge, `dt` ps after the one before; `mark` when an orbit marker is sampled in the slot that it begins. -/
def slotEdge (s : State) (dt : Nat) (mark : Bool) : State :=
  if s.tbState = 0 || !(s.up 3) then s else
  let e := tbEdge s mark dt
  let t := releaseReplays e.1
  slotActs (match e.2 with
    | some k => boundaryActs t k s.tb.orbit (t.tb.ps - s.tb.orbPs) (t.tb.n - s.tb.orbStart)
    | none => t)

/-- The first slot-clock edge after a start of the slot clock (R24): no orbit ends at it. -/
def firstSlot (s : State) : State :=
  let t := firstEdge s
  slotActs (orbitActs t (if t.tb.aligned then .first else .regular))

end Sys2Proof.Machine
end

