-- ==== Sys2Proof/Machine/BusRead.lean ====
section
/-! DEFINITION. Reading through the register window (R5 to R9, R34, R39, R445, R446, R485): which domain answers, what the
fields that follow the state read as, what a read does beside, and the read itself. -/
namespace Sys2Proof.Machine

/-- The offset of the register whose live mirror `off` is (R34), else `off`. -/
def mirrorOf (off : Nat) : Nat :=
  if 0x80000 ≤ off && off < 0x2000000 && isBanked (off - 0x80000) then off - 0x80000 else off

/-- The block behind `off` does not answer (R445): its domain is down. The windows of R4 have no domain of their own. -/
def State.silent (s : State) (off : Nat) : Bool := decide (off < 0x2000000) && !(s.up (domOf (mirrorOf off)))

/-! ### Offsets that the image's counts leave unlisted (R5) -/

/-- `o` stands at index `n` or later of an indexed family: base, bytes an index, indices that the map has room for. -/
def beyond (o base stride room n : Nat) : Bool := decide (base ≤ o ∧ o < base + stride * room ∧ n ≤ (o - base) / stride)

/-- Layer `l` is fed by the ingress (R138). -/
def State.layerFed (s : State) (l : Nat) : Bool := bit (s.fld Reg.ING_LAYCFG_FED) l

/-- The maps list no register at `off` because the image's counts end before it (R5): streams, tile-map entries, tables of layers that
the ingress does not feed, raster-list entries, classes, algorithms and elements, descriptors, pairs and loops, buses and voices. -/
def State.uncounted (s : State) (off : Nat) : Bool :=
  let o := mirrorOf off
  match o / 0x100000 with
  | 0x02 => beyond o (Reg.REL_LAT 0) 0x40 16 (s.fld Reg.REL_CFG_NSTREAM)
  | 0x05 => beyond o (Reg.ING_TMAP_LO 0) 8 32768 (s.fld Reg.ING_CFG_NENT)
  | 0x06 =>
    (decide (Reg.CND_COEF 0 0 0 ≤ o ∧ o < Reg.CND_COEF 4 0 0) && !(s.layerFed ((o - Reg.CND_COEF 0 0 0) / 0x200))) ||
      (decide (Reg.CND_CELL 0 0 ≤ o ∧ o < Reg.CND_CELL 4 0) && !(s.layerFed ((o - Reg.CND_CELL 0 0) / 0x8000)))
  | 0x07 => beyond o (Reg.PF_RLW0 0) 0x10 4096 (s.fld Reg.PF_RLCFG_NENT)
  | 0x08 => beyond o (Reg.OBJ_CCFG 0) 0x40 64 (s.fld Reg.OBJ_CFG_NCLS)
  | 0x09 => beyond o (Reg.DEC_ACFG 0) 0x40 512 (s.fld Reg.DEC_SIZE_NALG) || beyond o (Reg.DEC_ETYPE 0) 0x20 2048 (s.fld Reg.DEC_SIZE_NELEM)
  | 0x0B => beyond o (Reg.QM_QD 0 0) 0x20 16384 (s.fld Reg.QM_CFG_NQ)
  | 0x0F => beyond o (Reg.CVL_PCFG 0) 0x20 64 (s.fld Reg.CVL_CFG_NPAIR) || beyond o (Reg.CVL_LCFG 0) 0x80 64 (s.fld Reg.CVL_CFG_NLOOP)
  | 0x10 => beyond o (Reg.VOX_BCFG 0) 0x100 16 (s.fld Reg.VOX_CFG_NBUS) || beyond o (Reg.VOX_VCFG 0) 0x40 64 (s.fld Reg.VOX_CFG_NVOICE)
  | _ => false

/-- The register that the map lists at `off` under the running image (R5). -/
def State.listed (s : State) (off : Nat) : Option RegDef := if s.uncounted off then none else regDef off

/-! ### ECC of the storage behind the window (R485) -/

/-- The pipeline ring holds address `a` (R217, R221). -/
def State.inPipe (s : State) (a : Nat) : Bool :=
  decide ((s.rd Reg.RO_RINGBASE).toNat ≤ a ∧ a < (s.rd Reg.RO_RINGBASE).toNat + s.fld Reg.RO_RDEP_RDEP * s.fld Reg.RO_XBYTES_XBYTES)

/-- A queue's ring in SRAM holds address `a` (R229). -/
def State.inQueueRing (s : State) (a : Nat) : Bool :=
  (List.range (s.fld Reg.QM_CFG_NQ)).any fun q => !(s.qDram q) && decide (s.qw q 1 ≤ a ∧ a < s.qw q 1 + s.qw q 2)

/-- PF's storage holds address `a`: planes, the Lake, capture pages (R162). -/
def State.inPfSram (s : State) (a : Nat) : Bool :=
  (s.inStaged a).isSome || (s.inLive a).isSome ||
    (List.range 8).any fun k => decide ((s.rd (Reg.PF_WMBASE k)).toNat ≤ a ∧ a < (s.rd (Reg.PF_WMBASE k)).toNat + 0x8000)

/-- The 32-bit words that one stored word covers: a tile-map entry has two, a raster-list entry four; the pipeline ring's ECC covers
8 bytes (R221), and so does that of a queue's ring (log 37). -/
def State.eccWords (s : State) (off : Nat) : List Nat :=
  let o := mirrorOf off
  if 0x2000000 ≤ off then (if s.inPipe off || s.inQueueRing off then [off / 8 * 8, off / 8 * 8 + 4] else [off])
  else if Reg.ING_TMAP_LO 0 ≤ o ∧ o < Reg.ING_TMAP_LO 32768 then [off / 8 * 8, off / 8 * 8 + 4]
  else if Reg.PF_RLW0 0 ≤ o ∧ o < Reg.PF_RLW0 4096 then rangeFrom 0 4 |>.map fun w => off / 16 * 16 + 4 * w
  else [off]

/-- Storage behind the window that carries SECDED ECC (R130, R153, R162, R167, R192, R213, R221, R238, R307, R318, R392), and the count of
uncorrectable words of the block that owns it (log 37). -/
def State.eccOwner (s : State) (off : Nat) : Option Fld :=
  let o := mirrorOf off
  if 0x2000000 ≤ o then
    if !(s.inWindow o) then none
    else if s.inPipe o then some Reg.RO_ECCCNT_UNCORR
    else if s.inPfSram o then some Reg.PF_ECCCNT_UNCORR
    else if s.inQueueRing o then some Reg.QM_ECCCNT_UNCORR else none
  else if (s.listed o).isNone then none
  else match o / 0x100000 with
    | 0x05 => if Reg.ING_TMAP_LO 0 ≤ o then some Reg.ING_ECCCNT_UNCORR else none
    | 0x06 => if o = Reg.CND_PEDVAL ∨ Reg.CND_COEF 0 0 0 ≤ o then some Reg.CND_ECCCNT_UNCORR else none
    | 0x07 => if Reg.PF_RLW0 0 ≤ o then some Reg.PF_ECCCNT_UNCORR else none
    | 0x08 => if Reg.OBJ_CCFG 0 ≤ o ∧ o < Reg.OBJ_PREG 0 then some Reg.OBJ_ECCCNT_UNCORR else none
    | 0x09 => if (Reg.DEC_WIN 0 ≤ o ∧ o < Reg.DEC_LCTL 0) ∨ (Reg.DEC_LCTL 0 ≤ o ∧ o < Reg.DEC_ACFG 0 ∧ o % 0x20 < 8) ∨ Reg.DEC_ACFG 0 ≤ o
              then some Reg.DEC_ECCCNT_UNCORR else none
    | 0x0B => if Reg.QM_QD 0 0 ≤ o then some Reg.QM_ECCCNT_UNCORR else none
    | 0x0F => if (Reg.CVL_LCFG 0 ≤ o ∧ o < Reg.CVL_MSCFG 0 ∧ 0x20 ≤ o % 0x80 ∧ o % 0x80 < 0x48) ∨ Reg.CVL_MSTBL 0 0 ≤ o
              then some Reg.CVL_ECCCNT_UNCORR else none
    | 0x10 => if (Reg.VOX_BCFG 0 ≤ o ∧ o < Reg.VOX_VCFG 0 ∧ 0x40 ≤ o % 0x100) ∨ Reg.VOX_WAVE 0 ≤ o then some Reg.VOX_ECCCNT_UNCORR else none
    | 0x13 => if (Reg.IRQ_TGT 0 ≤ o ∧ o < Reg.IRQ_TGT 1024) ∨ (0x1340000 ≤ o ∧ o % 0x80 < 0x40) then some Reg.IRQ_ECCCNT_UNCORR
              else none
    | _ => none

/-- A read meets the damaged word at `off` (R485). A word of IRQ also does what R392 says. -/
def meetDamaged (s : State) (off : Nat) : State :=
  match s.eccOwner off with
  | none => s
  | some f =>
    let s := uncorrected s f
    if off / 0x100000 = 0x13 then raiseLine (s.event Reg.IRQ_STAT_ECCU) 19 else s

/-! ### Fields that follow the state -/

/-- A list of truth values as bits, the first lowest. -/
def bitsNat (f : Nat → Bool) (n : Nat) : Nat := (List.range n).foldl (fun a i => if f i then a + 2 ^ i else a) 0

/-- `w` with one field replaced. -/
def putF (w : Word) (f : Fld) (v : Nat) : Word := wSetField w f.hi f.lo v

/-- What ING_LENT of lane `n` shows (R138): the entries that name the lane, and the largest BITOFF + width over them. -/
def State.entView (s : State) (n : Nat) : Word :=
  let es := s.tileMap.filter fun e => decide (e.lane = n)
  putF (putF 0 (Reg.ING_LENT_TOPBIT n) (es.foldl (fun a e => max a (e.bitoff + e.width)) 0)) (Reg.ING_LENT_COUNT n) es.length

/-- Views of TB, REL, LNK, MDR, ING, CND, PF, OBJ, DEC, RO and QM registers. -/
def State.viewLow (s : State) (off : Nat) (w : Word) : Option Word :=
  if off = Reg.TB_STAT then some (putF w Reg.TB_STAT_SRC s.rst.strapClk)
  else if off = Reg.TB_CFG then some (putF w Reg.TB_CFG_SRC s.rst.strapClk)
  else if off = Reg.MDR_STAT then some (putF w Reg.MDR_STAT_KEYOK (b2n (s.up 1 && Config.deviceKeyOk)))
  else if off = Reg.MDR_ID_LO then some (if s.up 1 then BitVec.ofNat 32 ownId else 0)
  else if off = Reg.MDR_ID_HI then some (if s.up 1 then BitVec.ofNat 32 (ownId / 2 ^ 32) else 0)
  else if off = Reg.ING_STAT then some (putF w Reg.ING_STAT_NOTIME (b2n (decide (s.tbState < 2))))
  else if off = Reg.CND_PEDVAL then some s.pedVal
  else if off = Reg.PF_STAT then some (putF w Reg.PF_STAT_LAKEBUSY (b2n s.lakeBusy))
  else if off = Reg.DEC_STAT then some (putF w Reg.DEC_STAT_THRACT (b2n s.throttle))
  else if off = Reg.RO_STAT then some (putF w Reg.RO_STAT_THR (b2n s.throttle))
  else if off = Reg.QM_NOW then some s.qNow
  else onReg off (Reg.ING_LENT 0) 0x20 48 s.entView <|> onReg off (Reg.DEC_LACC 0) 0x20 256 s.lacc <|>
    onReg off (Reg.QM_QD 0 7) 0x20 16384 fun q => BitVec.ofNat 32 (s.qHeadroom q)

/-- Views of CVL, VOX, TMR, SEP and PIN registers. -/
def State.viewMid (s : State) (off : Nat) (w : Word) : Option Word :=
  if off = Reg.CVL_STAT then some (putF w Reg.CVL_STAT_ANYTRIP (b2n (decide (s.tripWord 0 ≠ 0 ∨ s.tripWord 1 ≠ 0))))
  else if off = Reg.CVL_TRIPST_LO then some (s.tripWord 0)
  else if off = Reg.CVL_TRIPST_HI then some (s.tripWord 1)
  else if off = Reg.VOX_STAT then some (putF w Reg.VOX_STAT_ANYRUN (b2n s.voxAnyRun))
  else if off = Reg.SEP_STAT then some s.sepStat
  else onReg off (Reg.CVL_PSTAT 0) 0x20 64 (fun m => putF w (Reg.CVL_PSTAT_TRIPPED m) (b2n (s.pairForced m))) <|>
    onReg off (Reg.CVL_PCNT 0) 0x20 64 (fun m => putF w (Reg.CVL_PCNT_COUNT m) (s.pwmCount m)) <|>
    onReg off (Reg.CVL_LSTAT 0) 0x80 64 (fun i => putF w (Reg.CVL_LSTAT_TRIPPED i) (b2n (s.loopHeld i))) <|>
    onReg off (Reg.VOX_VCTL 0) 0x40 64 (fun v => putF w (Reg.VOX_VCTL_START v) (b2n (s.voice v).asked.isSome)) <|>
    onReg off (Reg.VOX_VSTAT 0) 0x40 64 s.voiceStat <|>
    onReg off (Reg.TMR_STAT 0) 0x20 128 (fun n => putF w (Reg.TMR_STAT_SUPP n) (b2n (s.tmrSupp n))) <|>
    onReg off (Reg.SEP_DSTAT 0) 0x100 32 (fun c => putF w (Reg.SEP_DSTAT_HALTED c) (s.haltedBits c)) <|>
    onReg off (Reg.PIN_OSET 0) 4 6 (fun b => s.rd (Reg.PIN_OUT b)) <|>
    onReg off (Reg.PIN_OCLR 0) 4 6 (fun b => s.rd (Reg.PIN_OUT b)) <|>
    onReg off (Reg.PIN_IN 0) 4 6 fun b => BitVec.ofNat 32 (s.pinIn b)

/-- SEP_TSTAT[c][t] (R338, R362): the state, whether the thread waits, its privilege, and the event bits. -/
def State.tstatView (s : State) (c t : Nat) (w : Word) : Word :=
  let x := s.thr c t
  putF (putF (putF w (Reg.SEP_TSTAT_STATE c t) (thrCode x.state)) (Reg.SEP_TSTAT_WAIT c t) (b2n (s.waits c t)))
    (Reg.SEP_TSTAT_PRIV c t) (swPriv x.sw)

/-- Views of IRQ registers: levels, presented and in-service sources, stacks. -/
def State.viewIrq (s : State) (off : Nat) (w : Word) : Option Word :=
  onReg off (Reg.IRQ_DEVLVL 0) 4 32 (fun i => BitVec.ofNat 32 (bitsNat (fun j => s.devLevel (32 * i + j)) 32)) <|>
  (if 0x1310000 ≤ off ∧ off < 0x1320000 then
    let k := (off - 0x1310000) / 0x4000
    let o := (off - 0x1310000) % 0x4000
    onReg o 0x200 4 4 (fun i => BitVec.ofNat 32 (bitsNat (fun j => s.slotLevel k (32 * i + j)) 32)) <|>
    onReg o 0x210 4 4 (fun i => BitVec.ofNat 32 (bitsNat (fun j => (s.sharedSrc k (32 * i + j)).presented) 32)) <|>
    onReg o 0x220 4 4 (fun i => BitVec.ofNat 32 (bitsNat (fun j => (s.sharedSrc k (32 * i + j)).inService) 32))
   else if 0x1320000 ≤ off ∧ off < 0x1324000 then
    let c := (off - 0x1320000) / 0x200
    let o := (off - 0x1320000) % 0x200
    if o = 0x84 then some (s.rd (Reg.IRQ_SWSET c))
    else if o = 0x88 then some (BitVec.ofNat 32 (bitsNat (s.privLevel c) 32))
    else if o = 0x8C then some (BitVec.ofNat 32 (bitsNat (fun i => (s.privSrc c i).presented) 32))
    else if o = 0x90 then some (BitVec.ofNat 32 (bitsNat (fun i => (s.privSrc c i).inService) 32))
    else if o = 0x9C then some ((w &&& 0x00300000#32) ||| BitVec.ofNat 32 (s.cstatStack c))
    else if o = 0xA0 then some (BitVec.ofNat 32 (s.stkMap c))
    else none
   else none)

/-- Views of IMG and FLT registers, and of the fuses. -/
def State.viewHigh (s : State) (off : Nat) (w : Word) : Option Word :=
  if off = Reg.IMG_STAT then
    some (putF (putF (putF (putF w Reg.IMG_STAT_BUSY (b2n (decide (s.imgOpCode ≠ 0)))) Reg.IMG_STAT_OP s.imgOpCode)
      Reg.IMG_STAT_GOLDLOCK (b2n s.goldLock)) Reg.IMG_STAT_KEYOK (b2n Config.keyFused))
  else if off = Reg.IMG_MINSEQ then some Config.minSeq
  else if off = Reg.IMG_PCIID then some Config.pciId
  else if off = Reg.FLT_WDSTAT then some (putF w Reg.FLT_WDSTAT_LEFT s.wdLeft)
  else onReg off (Reg.IMG_SLOT 0) 8 3 fun i => putF w (Reg.IMG_SLOT_RUNNING i) (b2n (decide (s.runSlot = i)))

/-- The word that a register reads as, given what is stored for it. -/
def State.viewed (s : State) (off : Nat) (w : Word) : Word :=
  let v := match off / 0x100000 with
    | 0x0F => s.viewMid off w
    | 0x10 => s.viewMid off w
    | 0x11 => s.viewMid off w
    | 0x12 => s.viewMid off w <|> (if 0x1201000 ≤ off ∧ off < 0x1203000 then
        onReg ((off - 0x1201000) % 0x100) 0x20 8 4 fun t => s.tstatView ((off - 0x1201000) / 0x100) t w else none)
    | 0x13 => s.viewIrq off w
    | 0x14 => s.viewMid off w
    | 0x15 => s.viewHigh off w
    | 0x17 => s.viewHigh off w
    | _ => s.viewLow off w
  v.getD w

/-! ### What a read does beside -/

/-- A read of TB_XID_LO latches TB_XID_HI (R43). -/
def xidRead (s : State) : Word × State :=
  (BitVec.ofNat 32 (s.tb.orbit % 65536 * 65536 + s.tb.slot), s.wr Reg.TB_XID_HI (BitVec.ofNat 32 (s.tb.orbit / 65536)))

/-- A read of TB_RTIME_LO latches TB_RTIME_HI (R43). -/
def rtimeRead (s : State) : Word × State :=
  (BitVec.ofNat 32 s.rtime, s.wr Reg.TB_RTIME_HI (BitVec.ofNat 32 (s.rtime / 2 ^ 32)))

/-- A read of TMR_SNAPT_LO latches TMR_SNAPT_HI (R336). -/
def snapRead (s : State) : Word × State :=
  (s.rd Reg.TMR_SNAPT_LO, s.wr Reg.TMR_SNAPT_HI (BitVec.ofNat 32 (s.tmr.snapT / 2 ^ 32)))

/-- Reads that latch, pop or claim: the word returned and the state after. -/
def State.readActs (s : State) (off : Nat) : Option (Word × State) :=
  match off / 0x100000 with
  | 0x00 => if off = Reg.GBL_FLIPSTAMP0 then some (stampRead s) else none
  | 0x01 =>
    if off = Reg.TB_XID_LO then
      some (xidRead s)
    else if off = Reg.TB_RTIME_LO then
      some (rtimeRead s)
    else none
  | 0x02 => onReg off (Reg.REL_SENT 0) 0x40 16 (sentRead s)
  | 0x04 => onReg off (Reg.MDR_PID_LO 0) 0x80 48 (pidRead s)
  | 0x0A => if off = Reg.RO_CUR_IDX then some (roCurRead s) else none
  | 0x0E =>
    if off = Reg.SRV_PAGE then some (pageRead s)
    else if off = Reg.SRV_LASTSWAP0 then some (lastSwapRead s) else none
  | 0x11 =>
    if off = Reg.TMR_SNAPT_LO then
      some (snapRead s)
    else onReg off (Reg.TMR_CNT 0) 0x20 128 (tmrReadCnt s) <|> onReg off (Reg.TMR_CAP 0) 0x20 128 (tmrReadCap s) <|>
      onReg off (Reg.TMR_ECNT_LO 0) 0x20 512 (evRead s)
  | 0x12 =>
    onReg off (Reg.SEP_DDATA 0) 0x100 32 (fun c => dbgAccess s c none) <|>
    onReg off (Reg.SEP_MEMD 0) 0x100 32 fun c => memdAccess s c none .none
  | 0x13 => onReg off (Reg.IRQ_CLAIM 0) 0x200 32 (irqClaim s)
  | 0x15 => if off = Reg.IMG_RDATA then some (imgRead s) else none
  | 0x17 =>
    if off = Reg.FLT_STATUS_LO then some (fltReadLo s)
    else if off = Reg.FLT_FIRSTT_LO then some (fltReadTime s) else none
  | _ => none

/-- A read of the RC bits of a register returns them as they stood before this cycle's events, and leaves the events of this
cycle (R8, R9). -/
def readClear (s : State) (off rc : Nat) : Word × State :=
  let m := BitVec.ofNat 32 rc
  let e := s.regEvent off
  let w := s.rd off
  ((w &&& ~~~m) ||| (e.before &&& m),
   (s.noteEvent off { e with before := 0 }).wr off ((w &&& ~~~m) ||| (e.fresh &&& m)))

/-- SEP_ECCCNT[c]: its read also ends the core's private source 20 (R385). -/
def eccCleared (s : State) (off : Nat) : State :=
  match onIdx off (Reg.SEP_ECCCNT 0) 0x100 32 with
  | some c => testPriv { s with irqEcc := nsDel s.irqEcc c } c 20
  | none => s

/-- A read of a listed register, its block answering. -/
def readReg (s : State) (off : Nat) (d : RegDef) : Word × State :=
  match s.readActs off with
  | some r => r
  | none =>
    let live := d.banked && s.flag Reg.GBL_FLIPSTAT_BUSY
    if d.banked && !live then (s.rdStaged off, s)
    else if d.rc = 0 then (s.viewed off (s.rd off &&& BitVec.ofNat 32 (2 ^ 32 - 1 - d.wo)), s)
    else
      let r := readClear s off d.rc
      (r.1, eccCleared r.2 off)

/-- The address that a read of the SRAM windows reads: of a staged copy the live one while the banks are copied (R39). -/
def State.windowAddr (s : State) (a : Nat) : Nat :=
  if s.flag Reg.GBL_FLIPSTAT_BUSY then (match s.inStaged a with | some r => r.live + (a - r.staged) | none => a) else a

/-- The words that a read of `off` takes from storage with ECC. -/
def State.readWords (s : State) (off : Nat) : List Nat :=
  if 0x2000000 ≤ off then s.eccWords (s.windowAddr off)
  else if s.uncounted off then []
  else if isBanked off && s.flag Reg.GBL_FLIPSTAT_BUSY then s.eccWords (off + 0x80000)
  else s.eccWords off

/-- A read of `off` meets an uncorrectable word (R485). CND_PEDVAL shows the estimate that CND_PEDSEL selects. -/
def State.damagedAt (s : State) (off : Nat) : Bool :=
  if off = Reg.CND_PEDVAL then s.cnd.bad.contains s.pedSel else (s.readWords off).any s.ecc.contains

/-- The storage behind `off` gets an uncorrectable error, where it has ECC. -/
def damageAt (s : State) (off : Nat) : State :=
  if (s.eccOwner off).isNone || s.silent off then s
  else if off = Reg.CND_PEDVAL then { s with cnd := { s.cnd with bad := nsAdd s.cnd.bad s.pedSel } }
  else { s with ecc := (s.readWords off).foldl nsAdd s.ecc }

/-- What stands behind an offset that answers, undamaged. -/
def readPlain (s : State) (off : Nat) : Word × State :=
  if 0x2000000 ≤ off then (if s.inWindow off then BitVec.ofNat 32 (memWord s.sram (s.windowAddr off)) else 0, s)
  else match s.listed off with
    | some d => readReg s off d
    | none => (if mirrorOf off ≠ off && !(s.uncounted off) then s.rd (mirrorOf off) else 0, s)

/-- A read of BAR0 offset `off` (word-aligned): the word, whether it is the error completion, the state after. -/
def busRead (s : State) (off : Nat) : Word × Bool × State :=
  let off := off / 4 * 4
  if s.silent off then (0xFFFFFFFF#32, true, errorCompletion s)
  else if s.damagedAt off then (0xFFFFFFFF#32, false, meetDamaged s off)
  else
    let r := readPlain s off
    (r.1, false, r.2)

end Sys2Proof.Machine
end

