-- ==== Sys2Proof/Machine/BusWrite.lean ====
section
/-! DEFINITION. Writing through the register window (R5 to R9, R34, R39, R425, R445, R446): what a write of each register does, and
the write itself. -/
namespace Sys2Proof.Machine

/-! ### Values that the registers take (R8) -/

/-- `old` after a write of `v` with the bits of `m` taking the written value. -/
def maskIn (old v : Word) (m : Nat) : Word := (old &&& ~~~(BitVec.ofNat 32 m)) ||| (v &&& BitVec.ofNat 32 m)

/-- A write to a word of storage with ECC stores it whole: its damage ends. -/
def mend (s : State) (off : Nat) : State := { s with ecc := s.ecc.filter fun e => !((s.eccWords off).contains e) }

/-- A write of a banked register: to the staged bank, or discarded with WDROP while that bank is closed (R34, R39). -/
def writeStaged (s : State) (off : Nat) (d : RegDef) (v : Word) : State :=
  if s.stagedOpen then mend (s.wrStaged off (maskIn (s.rdStaged off) (clampStaged off v) d.rw)) off
  else s.event Reg.GBL_FLIPSTAT_WDROP

/-- A write by the access codes alone (R8, R9): a bit that an event of this cycle sets stays set. -/
def writePlain (s : State) (off : Nat) (d : RegDef) (v : Word) : State :=
  let w := maskIn (s.rd off) v d.rw ||| (v &&& BitVec.ofNat 32 d.w1s)
  let clr := v &&& BitVec.ofNat 32 d.w1c
  mend (s.wr off ((w &&& ~~~clr) ||| ((s.regEvent off).fresh &&& clr))) off

/-! ### What a write of a register does -/

/-- The vector is no longer masked: its pending message is sent (R425). -/
def msixFlush (s : State) (v : Nat) : State :=
  if s.pcie.msixEnable && !(s.msixMasked v) && s.flag ⟨Reg.IMG_MSIX_PBA (v / 32), v % 32, v % 32⟩
  then msixRequest (s.setPba v false) v else s

/-- A write of IMG_CTL (R417, R418, R427). -/
def imgCtlWrite (s : State) (v : Word) : State :=
  let i := wField v 5 4
  let s := s.setFld Reg.IMG_CTL_SLOT i
  let s := if v.getLsbD 0 then imgVerify s i else s
  let s := if v.getLsbD 1 then imgActivate s i else s
  if v.getLsbD 2 then goldenLock s i else s

/-- A write of FLT_WDKICK (R462, R463): a kick restarts stage 0, a false kick ends the stage. -/
def wdKick (s : State) (key : Nat) : State :=
  if !(s.flag Reg.FLT_WDCFG_EN) then s else if key = 0x6B1D then wdStage s 0 else wdStageEnd s

/-- A write of FLT_CTL: what the safe state holds is noted before an exit may end it (R302, R306, R455). -/
def fltCtl (s : State) (v : Word) : State := fltCtlWrite (if s.safe then noteHeld (noteForced s) else s) v

/-- REL_CTL.SMCLR: every sticky minimum is 0xFFFF (R67). -/
def sentClear (s : State) : State := (List.range 16).foldl (fun s st => s.setFld (Reg.REL_SENTMIN_MIN st) 0xFFFF) s

/-- Writes of GBL, TB, REL, LNK, MDR, PF and QM registers that act. -/
def State.actsLow (s : State) (off : Nat) (v : Word) : Option State :=
  match off / 0x100000 with
  | 0x00 =>
    if off = Reg.GBL_FLIP then some (flipWrite s v)
    else if off = Reg.GBL_STARTOK then some (startOk s (wField v 31 16)) else none
  | 0x01 =>
    if off = Reg.TB_CTL then some (unignored (s.flag Reg.TB_CTL_MKIGN) (writePlain s off RegTab.row_TB_CTL v)) else none
  | 0x02 =>
    if off = Reg.REL_CTL then
      some (if v.getLsbD 0 then sentClear s else s)
    else none
  | 0x03 =>
    onReg off (Reg.LNK_CTL 0) 0x1000 48 (fun n => lnkCtlWrite s n v) <|>
    onReg off (Reg.LNK_TXPRE 0) 0x1000 48 (fun n => txPreWrite s n v) <|>
    onReg off (Reg.LNK_TXMAIN 0) 0x1000 48 (fun n => txMainWrite s n v) <|>
    onReg off (Reg.LNK_RXEQ 0) 0x1000 48 (fun n => rxeqWrite s n v) <|>
    onReg off (Reg.LNK_TEST 0) 0x1000 48 (fun n => testModeWrite s n v) <|>
    onReg off (Reg.LNK_DP 0) 0x1000 48 (fun n => if s.dpTraining && s.dpLane n then s else dpWrite s n v)
  | 0x04 =>
    if off = Reg.MDR_FCREQ then some (fcreqWrite s v)
    else onReg off (Reg.MDR_LCTL 0) 0x80 48 fun n => mdrLctlWrite s n v
  | 0x07 => onReg off (Reg.PF_WMCTL 0) 0x10 8 fun k => wmctlWrite s k v
  | 0x0B =>
    if off = Reg.QM_QRESET then some (if v.getLsbD 31 then qmReset s (wField v 13 0) else s)
    else onReg off (Reg.QM_PUSH 0) 8 33 (fun a => qmPush s a (wField v 13 0)) <|>
      onReg off (Reg.QM_POP 0) 4 33 (fun a => qmPop s a (wField v 13 0))
  | _ => none

/-- Writes of DMA, MEM, SRV, CVL, VOX, TMR and SEP registers that act. -/
def State.actsMid (s : State) (off : Nat) (v : Word) : Option State :=
  match off / 0x100000 with
  | 0x0C =>
    onReg off (Reg.DMA_CHCTL 0) 0x40 64 (fun ch => dmaCtlWrite s ch v) <|>
    onReg off (Reg.DMA_RING 0) 0x40 64 (fun ch => dmaRingWrite s ch v)
  | 0x0D => if off = Reg.MEM_CTL then some (memCtlWrite s v) else none
  | 0x0E =>
    if off = Reg.SRV_CTL then some (srvCtlWrite s v)
    else if off = Reg.SRV_CCTL then some (cctlWrite s v)
    else if off = Reg.SRV_DCTL then some (dctlWrite s v)
    else if off = Reg.SRV_BCTL then some (bctlWrite s v) else none
  | 0x0F =>
    if off = Reg.CVL_TRIPCLR_LO then some (tripClear s false v.toNat)
    else if off = Reg.CVL_TRIPCLR_HI then some (tripClear s true v.toNat) else none
  | 0x10 =>
    onReg off (Reg.VOX_VCTL 0) 0x40 64 (fun i =>
      let s := if v.getLsbD 1 then voiceStop s i else s
      if v.getLsbD 0 then voiceStartWrite s i else s) <|>
    onReg off (Reg.VOX_BMCFG 0) 0x100 16 (fun b =>
      let v' := wSetField (wSetField v 4 0 (min (wField v 4 0) 24)) 12 8 (min (wField v 12 8) 16)
      let s := s.wr off (v' &&& BitVec.ofNat 32 RegTab.row_VOX_BMCFG.rw)
      if v.getLsbD 23 then peakClear s b else s)
  | 0x11 =>
    if off = Reg.TMR_EVCTL then some (evCtlWrite s (v.getLsbD 0) (v.getLsbD 1))
    else onReg off (Reg.TMR_CTL 0) 0x20 128 (fun n => tmrWriteCtl s n v) <|>
      onReg off (Reg.TMR_PRE 0) 0x20 128 (fun n => tmrWritePre s n v) <|>
      onReg off (Reg.TMR_CNT 0) 0x20 128 (fun n => tmrWriteVal s true n v) <|>
      onReg off (Reg.TMR_CMP 0) 0x20 128 (fun n => tmrWriteVal s false n v) <|>
      onReg off (Reg.TMR_PER 0) 0x20 128 (fun n => tmrWritePer s n v) <|>
      onReg off (Reg.TMR_ESEL 0) 0x20 512 (fun k => evSelWrite s k v)
  | 0x12 =>
    onReg off (Reg.SEP_DCTL 0) 0x100 32 (fun c => sepDctlWrite s c v) <|>
    onReg off (Reg.SEP_DDATA 0) 0x100 32 (fun c => (dbgAccess s c (some v)).2) <|>
    onReg off (Reg.SEP_MEMD 0) 0x100 32 (fun c => (memdAccess s c (some v) .none).2) <|>
    (if 0x1201000 ≤ off ∧ off < 0x1203000 then
      onReg ((off - 0x1201000) % 0x100) 0x24 8 4 fun t => sepTctlWrite s ((off - 0x1201000) / 0x100) t v else none)
  | _ => none

/-- Writes of IRQ, PIN, IMG, RST and FLT registers that act. -/
def State.actsHigh (s : State) (off : Nat) (v : Word) : Option State :=
  match off / 0x100000 with
  | 0x13 =>
    onReg off (Reg.IRQ_SWSET 0) 0x200 32 (fun c => softSet s c (wField v 15 0)) <|>
    onReg off (Reg.IRQ_SWCLR 0) 0x200 32 (fun c => softClear s c (wField v 15 0)) <|>
    onReg off (Reg.IRQ_EOI 0) 0x200 32 (fun c => irqEoi s c (wField v 7 0)) <|>
    onReg off (Reg.IRQ_MBSEND 0) 0x80 512 (fun m => if v.getLsbD 31 then mbSend s m (wField v 5 0) else s) <|>
    onReg off (Reg.IRQ_MBACK 0) 0x80 512 (fun m => if v.getLsbD 31 then mbAck s m else s) <|>
    (if 0x1340000 ≤ off ∧ off < 0x1350000 ∧ off % 0x80 < 0x40 then
      let m := (off - 0x1340000) / 0x80
      some (mbWrite (if s.mbFull m then s else mend s off) m (off % 0x80 / 4) v) else none)
  | 0x14 =>
    onReg off (Reg.PIN_OUT 0) 4 6 (fun b => pinOutWrite s b 3 v) <|>
    onReg off (Reg.PIN_OSET 0) 4 6 (fun b => pinOutWrite s b 0 v) <|>
    onReg off (Reg.PIN_OCLR 0) 4 6 (fun b => pinOutWrite s b 1 v) <|>
    onReg off (Reg.PIN_OTGL 0) 4 6 (fun b => pinOutWrite s b 2 v) <|>
    onReg off (Reg.PIN_GPOV 0) 4 6 (fun b => pinGpovWrite s b v)
  | 0x15 =>
    if off = Reg.IMG_CTL then some (imgCtlWrite s v)
    else if off = Reg.IMG_WDATA then some (imgWrite s v)
    else onReg off (Reg.IMG_MSIX_VCTL 0) 0x10 64 fun i => msixFlush (s.setFld (Reg.IMG_MSIX_VCTL_MASK i) (wField v 0 0)) i
  | 0x16 =>
    if off = Reg.RST_CMD then some (rstCmd s (wField v 31 16) (wField v 1 0))
    else if off = Reg.RST_PDCMD then some (domainCmd s (wField v 31 16) (wField v 15 14) (wField v 6 0)) else none
  | 0x17 =>
    if off = Reg.FLT_STATUS_LO then some (fltClear s false v)
    else if off = Reg.FLT_STATUS_HI then some (fltClear s true v)
    else if off = Reg.FLT_CTL then some (fltCtl s v)
    else if off = Reg.FLT_WDCFG then some (wdCfgWrite s v)
    else if off = Reg.FLT_WDKICK then some (wdKick s (wField v 31 16)) else none
  | _ => none

/-- The device sources whose level a plain write of `off` may move (R383). -/
def devsOf (off : Nat) : List Nat :=
  match off / 0x100000 with
  | 0x01 => if off = Reg.TB_STAT then [214] else []
  | 0x04 => ((onIdx off (Reg.MDR_LSTAT 0) 0x80 48).map (320 + ·)).toList
  | 0x07 => match onIdx off (Reg.PF_WMSTAT 0) 0x10 8 with | some k => [192 + k, 200 + k] | none => []
  | 0x0E => if off = Reg.SRV_BSTAT then [211, 212] else []
  | 0x0F => if off = Reg.CVL_STAT then [213] else []
  | 0x11 => (onIdx off (Reg.TMR_STAT 0) 0x20 128).toList
  | 0x13 => if off = Reg.IRQ_PULSE then [208, 209, 210]
            else ((onIdx off (Reg.IRQ_QWATCH 0) 4 128).map (512 + ·)).toList
  | _ => []

/-- Apply `f` and follow the levels of several sources. -/
def withDevs (ns : List Nat) (f : State → State) (s : State) : State :=
  ns.foldl (fun t n => edgeDev (s.devLevel n) t n) (f s)

/-- What follows a plain write: sources whose settings or level it touched are tested again, a completion latch follows DONE, the
temperature limit acts at once. -/
def afterPlain (s : State) (off : Nat) : State :=
  match off / 0x100000 with
  | 0x0C => match onIdx off (Reg.DMA_CHSTAT 0) 0x40 64 with | some ch => dmaDoneCleared s ch | none => s
  | 0x12 => if 0x1201000 ≤ off ∧ off < 0x1203000 then
      (match onIdx ((off - 0x1201000) % 0x100) 0x20 8 4 with
        | some t => testPriv s ((off - 0x1201000) / 0x100) (16 + t) | none => s) else s
  | 0x13 =>
    if 0x1310000 ≤ off ∧ off < 0x1320000 ∧ (off - 0x1310000) % 0x4000 < 0x200 then
      testShared s ((off - 0x1310000) / 0x4000) ((off - 0x1310000) % 0x4000 / 4)
    else if 0x1320000 ≤ off ∧ off < 0x1324000 ∧ (off - 0x1320000) % 0x200 < 0x80 then
      testPriv s ((off - 0x1320000) / 0x200) ((off - 0x1320000) % 0x200 / 4)
    else s
  | 0x17 => if off = Reg.FLT_TLIM then raiseIf s s.tempHigh 53 else s
  | _ => s

/-- A write of a listed register, its block answering. -/
def writeReg (s : State) (off : Nat) (d : RegDef) (v : Word) : State :=
  if d.banked then writeStaged s off d v
  else match s.actsLow off v <|> s.actsMid off v <|> s.actsHigh off v with
    | some t => t
    | none => afterPlain (withDevs (devsOf off) (fun s => writePlain s off d v) s) off

/-! ### The SRAM windows (R4, R39, R160, R161) -/

/-- A write of a word of the windows: the staged planes are written under R39; live planes and the Lake are PF's own. -/
def writeWindow (s : State) (a : Nat) (v : Word) : State :=
  if !(s.inWindow a) then s
  else if s.inPlane a then (if s.stagedOpen then planeWrite s a v else s.event Reg.GBL_FLIPSTAT_WDROP)
  else if (s.inStaged a).isSome || (s.inLive a).isSome then s
  else sramStore s a (wordBytes v.toNat)

/-- A write of BAR0 offset `off` with all byte enables: whether it gets the error completion, and the state after. A write of a live
mirror or of an offset with nothing behind it is discarded (R5, R34). -/
def busWrite (s : State) (off : Nat) (v : Word) : Bool × State :=
  let off := off / 4 * 4
  if s.silent off then (true, errorCompletion s)
  else if 0x2000000 ≤ off then (false, writeWindow s off v)
  else match s.listed off with
    | some d => (false, writeReg s off d v)
    | none => (false, s)

/-- No register and no defined memory stands at `off` (R5). -/
def State.vacant (s : State) (off : Nat) : Bool :=
  if 0x2000000 ≤ off then !(s.inWindow off) else s.uncounted off || ((regDef off).isNone && decide (mirrorOf off = off))

/-- A write with fewer than four byte enables is discarded (R6); the windows as the registers (log 37). Where nothing stands it
raises no line (R5). -/
def busWritePart (s : State) (off : Nat) : Bool × State :=
  if s.silent (off / 4 * 4) then (true, errorCompletion s)
  else if s.vacant (off / 4 * 4) then (false, s)
  else (false, raiseLine (s.event Reg.IMG_STAT_BEERR) 21)

/-- A write with the byte enables `be` of a requester. -/
def busWriteBe (s : State) (off be : Nat) (v : Word) : Bool × State :=
  if be % 16 = 15 then busWrite s off v else busWritePart s off

end Sys2Proof.Machine
end

