-- ==== Sys2Proof/Machine/Xfer.lean ====
section
/-! DEFINITION. Moves that reach registers: DMA transfers and their completion (R242 to R249), remote accesses of lane 0 (R114,
R416), host accesses through BAR2 (R259), and the register accesses of a requester (R6, R8, R446, R485). -/
namespace Sys2Proof.Machine

/-! ### One unit of a transfer (R243, R245) -/

/-- Requests to host memory are answered: the link is up and Bus Master Enable is 1 (R424). -/
def State.hostOk (s : State) : Bool := s.pcie.linkUp && s.pcie.busMaster

/-- What a transfer has done so far: the state, the bytes completed, the bytes for the host, and the CODE that ended it (0: none yet). -/
structure Mover where
  st : State
  done : Nat
  out : List Nat
  code : Nat
deriving DecidableEq, Repr

/-- Read `w` source bytes at `i`: the bytes, or the CODE of the failure (R249). `host` is what host memory returned. -/
def unitRead (s : State) (ch : Nat) (d : List Nat) (host : List Nat) (i w : Nat) : State × Except Nat (List Nat) :=
  match dSsp d with
  | 0 =>
    let r := busRead s (dSrc d + i)
    (r.2.2, if r.2.1 then .error 2 else .ok ((wordBytes r.1.toNat).take w))
  | 1 =>
    let a := (dSrc d + i) % 2 ^ 30
    if !(s.dramOk a w) then (errorCompletion s, .error 2)
    else if wordsHit s.dram.bad a w ≠ [] then (dramMeet s a w, .error 4)
    else (s, .ok ((List.range w).map fun j => s.dramByte (a + j)))
  | 2 => (s, if s.hostOk then .ok ((List.range w).map fun j => host.getD (i + j) 0 % 256) else .error 2)
  | _ => match (s.dmaX ch).elem with
    | none => (s, .error 2)
    | some (q, k) =>
      let a := s.ringAddr q (s.qw q 4) (k + i)
      if s.qDram q && !(s.dramOk a 1) then (errorCompletion s, .error 2)
      else if s.qDram q && decide (wordsHit s.dram.bad a 1 ≠ []) then (dramMeet s a 1, .error 4)
      else (s, .ok (s.ringBytes q (s.qw q 4 + k + i) w))

/-- Write destination bytes at `i`: the CODE of the failure, 0 for none. Bytes for the host are collected by the caller. -/
def unitWrite (s : State) (ch : Nat) (d : List Nat) (i : Nat) (bs : List Nat) : State × Nat :=
  match dDsp d with
  | 0 =>
    let r := if bs.length = 4 then busWrite s (dDst d + i) (BitVec.ofNat 32 (leNat bs)) else busWritePart s (dDst d + i)
    (r.2, if r.1 then 3 else 0)
  | 1 =>
    let a := (dDst d + i) % 2 ^ 30
    if s.dramOk a bs.length then (dramPut s a bs, 0) else (errorCompletion s, 3)
  | 2 => (s, if s.hostOk then 0 else 3)
  | _ => match (s.dmaX ch).space with
    | none => (s, 3)
    | some (q, off) => (ringStore s q (off + 8 + i) bs, if s.ringOk q (off + 8 + i) bs.length then 0 else 3)

/-- FILL byte for destination byte `k` (R245). -/
def fillByte (d : List Nat) (k : Nat) : Nat := dFill d / 256 ^ (k % 4) % 256

/-- Unit at `i` of `w` bytes: fill, compare or copy (R245). -/
def unitMove (ch : Nat) (d host : List Nat) (w : Nat) (m : Mover) : Mover :=
  let i := m.done
  let r := if dReads d then unitRead m.st ch d host i w else (m.st, .ok ((List.range w).map fun j => fillByte d (i + j)))
  match r.2 with
  | .error c => { m with st := r.1, code := c }
  | .ok bs =>
    if dMode d = 2 then
      match (List.range w).find? fun j => decide (bs.getD j 0 ≠ fillByte d (i + j)) with
      | some j => { m with st := r.1, done := i + j, code := 1 }
      | none => { m with st := r.1, done := i + w }
    else
      let u := unitWrite r.1 ch d i bs
      if u.2 = 0 then { m with st := u.1, done := i + w, out := if dDsp d = 2 then m.out ++ bs else m.out }
      else { m with st := u.1, code := u.2 }

/-- Bytes moved at a time: a register word where BAR0 is involved, single bytes elsewhere, in ascending order. -/
def unitSize (d : List Nat) : Nat :=
  if (dReads d && decide (dSsp d = 0)) || (dWrites d && decide (dDsp d = 0)) then 4 else 1

/-- Units until `n` bytes are done or the transfer ends early. -/
def moveUnits (ch : Nat) (d host : List Nat) (n : Nat) : Nat → Mover → Mover
  | 0, m => m
  | f + 1, m =>
    if n ≤ m.done ∨ m.code ≠ 0 then m else moveUnits ch d host n f (unitMove ch d host (min (unitSize d) (n - m.done)) m)

/-- The bytes that the descriptor can move: LEN, or what is left of the element (R246). -/
def State.dmaBytes (s : State) (ch : Nat) (d : List Nat) : Nat :=
  match dSsp d, (s.dmaX ch).elem with
  | 3, some (q, k) => min (dLen d) (elemCost (s.headLen q) - k)
  | _, _ => dLen d

/-- A host address: DMA_HOSTHI supplies the high half (R243). -/
def State.hostAddr (s : State) (ch a : Nat) : Nat := (s.rd (Reg.DMA_HOSTHI ch)).toNat * 2 ^ 32 + a

/-- Post a write to host memory (R247). -/
def postHost (s : State) (a : Nat) (bs : List Nat) : State :=
  if bs = [] then s else { s with dma := { s.dma with posted := s.dma.posted ++ [(a, bs)] } }

/-- The channel has moved `n` bytes: its credit is the less by them, and it was granted last (R251). -/
def dmaSpend (s : State) (ch n : Nat) : State :=
  { s with dma := { s.dma with credit := smSet 0 s.dma.credit ch (smGet 0 s.dma.credit ch - 256 * (n : Int)), granted := ch } }

/-- Move up to `n` bytes of the descriptor; the bytes for the host leave, the byte count advances, the channel's credit is spent, DRAM words
that the transfer has covered are whole again, and the damage of one that it covered in part is met (R257). -/
def dmaMove (s : State) (ch : Nat) (d host : List Nat) (n : Nat) : Mover :=
  let m := moveUnits ch d host n n { st := s, done := 0, out := [], code := 0 }
  let t := postHost m.st (s.hostAddr ch (dDst d)) m.out
  let t := t.wr (Reg.DMA_BYTECNT ch) (t.rd (Reg.DMA_BYTECNT ch) + BitVec.ofNat 32 m.done)
  let a := dDst d % 2 ^ 30
  let t := if dWrites d && decide (dDsp d = 1) then
      let t := (t.partHit a m.done).foldl dramUncorr t
      { t with dram := { t.dram with bad := t.dram.bad.filter fun b => !decide (a ≤ b ∧ b + 8 ≤ a + m.done) } } else t
  { m with st := dmaSpend t ch m.done }

/-! ### Write-back and failure (R247, R249) -/

/-- Write one word of the descriptor at CUR: true when the ring does not take it. -/
def ringWord (s : State) (ch i w : Nat) : Bool × State :=
  let a := s.fld (Reg.DMA_CUR_ADDR ch) * 32 + 4 * i
  match s.fld (Reg.DMA_CHCFG_RSP ch) with
  | 0 => busWrite s a (BitVec.ofNat 32 w)
  | 1 => if s.dramOk (a % 2 ^ 30) 4 then (false, dramStore s (a % 2 ^ 30) (wordBytes w)) else (true, errorCompletion s)
  | _ => if s.hostOk then (false, postHost s (s.hostAddr ch a) (wordBytes w)) else (true, s)

/-- Words 5 and 0 of the descriptor, in this order; LASTCODE. -/
def dmaStatus (s : State) (ch : Nat) (d : List Nat) (code count : Nat) : Bool × State :=
  let r := ringWord s ch 5 (2 ^ 31 + code * 2 ^ 28 + count % 2 ^ 24)
  let q := ringWord r.2 ch 0 (d.getD 0 0 % 2 ^ 31)
  (r.1 || q.1, q.2.setFld (Reg.DMA_CHSTAT_LASTCODE ch) code)

/-- The channel halts on a failure (R249). -/
def dmaHalt (s : State) (ch : Nat) : State :=
  let s := qmDropStarted (s.setDmaX ch { s.dmaX ch with barrier := none, elem := none }) (32 + ch)
  let s := (dmaTo s ch 5).event (Reg.DMA_CHSTAT_ERR ch)
  raiseLine (showHalts (s.event Reg.DMA_STAT_ERR)) 12

/-- A failed transfer: its descriptor is written back with the CODE, and the channel halts (R249). -/
def dmaFail (s : State) (ch : Nat) (d : List Nat) (code count : Nat) : State := dmaHalt (dmaStatus s ch d code count).2 ch

/-- The completion latch of the channel, where EVT asks for it (R247, R383). -/
def dmaEvent (s : State) (ch : Nat) (d : List Nat) : State :=
  if dBit d 0 29 then
    routeDev (withDev (128 + ch) (fun s => { s with irq := { s.irq with dmaLatch := nsAdd s.irq.dmaLatch ch } }) s) (128 + ch)
  else s

/-- The write-back of a descriptor that completed (R247): status, OWN, counts, event; a whole element is delivered (R246). -/
def dmaFinish (s : State) (ch : Nat) (d : List Nat) (code count : Nat) : State :=
  let r := dmaStatus s ch d code count
  if r.1 then dmaHalt r.2 ch
  else
    let s := r.2.wr (Reg.DMA_DONECNT ch) (r.2.rd (Reg.DMA_DONECNT ch) + 1)
    let s := dmaEvent (countSrc (s.event (Reg.DMA_CHSTAT_DONE ch)) (0x200 + ch)) ch d
    let s := if dSsp d = 3 ∧ code = 0 then qmDeliver (s.setDmaX ch { s.dmaX ch with elem := none }) (32 + ch) else s
    dmaNext (s.setDmaX ch { s.dmaX ch with barrier := none, space := none }) ch d

/-- The copy of the channel's element has ended: it can be seen, and is no longer withdrawn (R246, R250). Channels that wait on its queue try
again by their own rows. -/
def showElem (s : State) (ch : Nat) : State :=
  match (s.dmaX ch).space with
  | some h =>
    { s with qm := { s.qm with hidden := s.qm.hidden.filter fun e => !decide (e = h) } }.setDmaX ch { s.dmaX ch with space := none }
  | none => s

/-- The element that the channel reads: `n` bytes more of it are done. -/
def elemAdvance (s : State) (ch n : Nat) : State :=
  match (s.dmaX ch).elem with
  | some (q, k) => s.setDmaX ch { s.dmaX ch with elem := some (q, k + n) }
  | none => s

/-! ### The rows of DMA -/

/-- The eight words of the descriptor at CUR, unless the ring does not answer or a word of it is damaged. -/
def readDesc (s : State) (ch : Nat) (host : List Nat) : State × Option (List Nat) :=
  let a := s.fld (Reg.DMA_CUR_ADDR ch) * 32
  match s.fld (Reg.DMA_CHCFG_RSP ch) with
  | 0 =>
    let r := (List.range 8).foldl (fun (p : State × List Nat × Bool) i =>
      let r := busRead p.1 (a + 4 * i)
      (r.2.2, p.2.1 ++ [r.1.toNat], p.2.2 || r.2.1)) (s, [], false)
    (r.1, if r.2.2 then none else some r.2.1)
  | 1 =>
    let a := a % 2 ^ 30
    if !(s.dramOk a 32) then (errorCompletion s, none)
    else if wordsHit s.dram.bad a 32 ≠ [] then (dramMeet s a 32, none)
    else (s, some ((List.range 8).map fun i => memWord s.dram.mem (a + 4 * i)))
  | _ => (s, if s.hostOk then some ((List.range 8).map fun i => host.getD i 0 % 2 ^ 32) else none)

/-- A descriptor has been read whole (R244): not owned, bad, or its transfer starts. -/
def descriptorFetch (s : State) (ch : Nat) (host : List Nat) : State :=
  if !(s.up 80) || decide (s.dmaSt ch ≠ 2) then s
  else
    let r := readDesc s ch host
    match r.2 with
    | none => dmaHalt r.1 ch
    | some d =>
      let s := r.1.setDmaX ch { r.1.dmaX ch with desc := d }
      if !(dBit d 0 31) then
        let s := dmaTo s ch 1
        if s.flag (Reg.DMA_CHCTL_KICK ch) then dmaFetchStart s ch else s
      else if s.badDesc ch d then dmaFail s ch d 5 0
      else dmaStart s ch

/-- The words of DRAM in which a read corrected a bit are counted (R256). -/
def dramCorrected (s : State) (corr : List Nat) : State :=
  corr.foldl (fun s a => corrected s (Reg.MEM_ECCCNT_CORR (dramChan a)) 1) s

/-- The transfer of the descriptor ends (R245 to R249). -/
def descriptorComplete (s : State) (ch : Nat) (host : List Nat) : State :=
  if !(s.up 80) || decide (s.dmaSt ch ≠ 3) then s
  else
    let d := (s.dmaX ch).desc
    let n := s.dmaBytes ch d
    let m := dmaMove s ch d host n
    if 2 ≤ m.code then dmaFail m.st ch d m.code m.done
    else
      let more := decide (dSsp d = 3) &&
        (match (s.dmaX ch).elem with | some (q, k) => decide (k + n < elemCost (s.headLen q)) | none => false)
      let code := if more then 6 else m.code
      let t := showElem (elemAdvance m.st ch n) ch
      if dBit d 0 30 then dmaTo (t.setDmaX ch { t.dmaX ch with barrier := some (code, m.done) }) ch 4
      else dmaFinish t ch d code m.done

/-- Global visibility is reached (R248): the write-back follows. -/
def barrierDone (s : State) (ch : Nat) : State :=
  if !(s.up 80) then s
  else match (s.dmaX ch).barrier with
    | some (code, count) => dmaFinish s ch (s.dmaX ch).desc code count
    | none => s

/-- A host request of the channel fails (R249): of its fetch, of its source or destination, or of its barrier; `count` bytes
had been completed. -/
def dmaError (s : State) (ch : Nat) (dest : Bool) (count : Nat) (host : List Nat) : State :=
  if !(s.up 80) then s
  else
    let d := (s.dmaX ch).desc
    if s.dmaSt ch = 2 ∧ s.fld (Reg.DMA_CHCFG_RSP ch) = 2 then dmaHalt s ch
    else if s.dmaSt ch = 3 ∧ (if dest then dWrites d = true ∧ dDsp d = 2 else dReads d = true ∧ dSsp d = 2) then
      let m := dmaMove s ch d host (min count (s.dmaBytes ch d))
      dmaFail m.st ch d (if 2 ≤ m.code then m.code else if dest then 3 else 2) m.done
    else match (s.dmaX ch).barrier with
      | some (_, done) => if dDsp d = 2 then dmaFail s ch d 3 done else s
      | none => s

/-- A read of host memory gets no completion within 50 ms (R249): a fetch, a source read, or the read of a barrier. -/
def hostTimeout (s : State) (ch : Nat) (count : Nat) (host : List Nat) : State := dmaError s ch false count host

/-! ### Remote accesses (R114, R416) -/

/-- The message at the front leaves the lane's waiting accesses. -/
def remotePop (s : State) (n : Nat) : State := s.setMlane n { s.mlane n with remote := (s.mlane n).remote.drop 1 }

/-- While the boot configuration waits for an image, only GBL and IMG may be reached (R416). -/
def State.remoteBars (s : State) (off : Nat) : Bool :=
  decide (s.fld Reg.GBL_STATE_STATE = 4) && decide (s.rst.strapBoot = 3) &&
    !(decide (off / 0x100000 = 0) || decide (off / 0x100000 = 0x15))

/-- Write words to consecutive offsets, until one gets the error completion. -/
def remoteWrites (s : State) (off : Nat) : List Nat → Bool × State
  | [] => (true, s)
  | w :: r =>
    if s.remoteBars off then (false, s)
    else
      let t := busWrite s off (BitVec.ofNat 32 w)
      if t.1 then (false, t.2) else remoteWrites t.2 (off + 4) r

/-- Read `n` words from consecutive offsets, until one gets the error completion. -/
def remoteReads (s : State) (off : Nat) (acc : List Nat) : Nat → Option (List Nat) × State
  | 0 => (some acc, s)
  | n + 1 =>
    if s.remoteBars off then (none, s)
    else
      let t := busRead s off
      if t.2.1 then (none, t.2.2) else remoteReads t.2.2 (off + 4) (acc ++ [t.1.toNat]) n

/-- The WRITE message at the front is executed and answered. -/
def remoteWrite (s : State) (n : Nat) : State :=
  match (s.mlane n).remote with
  | m :: _ =>
    if m.mtype ≠ 1 then s
    else
      let r := remoteWrites (remotePop s n) ((ccWords m).getD 0 0) ((ccWords m).drop 1)
      ccReply r.2 n (if r.1 then 4 else 5) [m.seq % 2 ^ 32]
  | [] => s

/-- The READ message at the front is executed and answered. A count outside 1 to 47 gets a NACK (log 36). -/
def remoteRead (s : State) (n : Nat) : State :=
  match (s.mlane n).remote with
  | m :: _ =>
    if m.mtype ≠ 2 then s
    else
      let off := (ccWords m).getD 0 0
      let c := (ccWords m).getD 1 0
      let s := remotePop s n
      if c = 0 ∨ 47 < c then ccReply s n 5 [m.seq % 2 ^ 32]
      else
        let r := remoteReads s off [] c
        match r.1 with
        | some ws => ccReply r.2 n 3 (off :: ws)
        | none => ccReply r.2 n 5 [m.seq % 2 ^ 32]
  | [] => s

/-! ### BAR2 (R256, R257, R259) -/

/-- What the last access returned. -/
def State.answer (s : State) (data : List Nat) (err poison : Bool) : State :=
  { s with resp := { data := data, err := err, poison := poison } }

/-- A host read of `n` bytes at BAR2 offset `off`. -/
def bar2Read (s : State) (off n : Nat) (corr : List Nat) : State :=
  if !(s.dramOk off n) then (errorCompletion s).answer (List.replicate n 255) true false
  else
    let data := (List.range n).map fun i => s.dramByte (off + i)
    let bad := decide (wordsHit s.dram.bad off n ≠ [])
    (dramMeet (dramCorrected s corr) off n).answer data false bad

/-- The bytes that the byte enables of a write select. -/
def bar2Put (off : Nat) : Nat → List (Option Nat) → State → State
  | _, [], s => s
  | i, none :: r, s => bar2Put off (i + 1) r s
  | i, some b :: r, s => bar2Put off (i + 1) r { s with dram := { s.dram with mem := memPut s.dram.mem (off + i) b } }

/-- A host write of bytes with byte enables. A word that it does not cover whole is read first, and its errors count (R256, R257). -/
def bar2Write (s : State) (off : Nat) (bs : List (Option Nat)) (corr : List Nat) : State :=
  if !(s.dramOk off bs.length) then (errorCompletion s).answer [] true false
  else
    let whole (b : Nat) : Bool := decide (off ≤ b ∧ b + 8 ≤ off + bs.length) &&
      (List.range 8).all fun i => (bs.getD (b - off + i) none).isSome
    let s := dramCorrected s corr
    let s := ((wordsHit s.dram.bad off bs.length).filter fun b => !(whole b)).foldl dramUncorr s
    let s := { s with dram := { s.dram with bad := s.dram.bad.filter fun b => !(whole b) } }
    (bar2Put off 0 bs s).answer [] false false

/-! ### Register accesses of a requester -/

/-- The requester reaches the register window (R11, R14, R114, R424, R446). A lane does while it executes remote accesses. -/
def State.reach (s : State) : Requester → Bool
  | .host => s.pcie.linkUp
  | .core c _ => s.coreUp c
  | .dma _ => s.up 80
  | .lane n => s.laneUp n && decide (s.lnkState n = 4) && s.remoteOn n
  | .unit => true

/-- The requester reaches offset `off`: what comes over a lane while an image is awaited reaches GBL and IMG alone (R416). -/
def State.reaches (s : State) (who : Requester) (off : Nat) : Bool :=
  s.reach who && (match who with | .lane _ => !(s.remoteBars off) | _ => true)

/-- A write of a register by a requester. -/
def regWrite (s : State) (who : Requester) (off : Nat) (v : Word) : State :=
  if s.reaches who off then
    let r := busWrite s off v
    r.2.answer [] r.1 false
  else s

/-- A write with byte enables. -/
def regWriteBe (s : State) (who : Requester) (off be : Nat) (v : Word) : State :=
  if s.reaches who off then
    let r := busWriteBe s off be v
    r.2.answer [] r.1 false
  else s

/-- A read of a register by a requester; the word is in `resp`. -/
def regRead (s : State) (who : Requester) (off : Nat) : State :=
  if s.reaches who off then
    let r := busRead s off
    r.2.2.answer (wordBytes r.1.toNat) r.2.1 false
  else s

/-- A read that meets an error in the word of the storage at `off`: an uncorrectable one (R485), or one that ECC corrects (`fixed`), which
counts where its owner counts. -/
def eccRead (s : State) (who : Requester) (off : Nat) (fixed : Bool) : State :=
  let off := off / 4 * 4
  if !(s.reaches who off) then s
  else if fixed && !(s.silent off) then
    regRead (match s.eccOwner off with | some f => corrected s ⟨f.off, 31, 16⟩ 1 | none => s) who off
  else regRead (if fixed then s else damageAt s off) who off

end Sys2Proof.Machine
end

