-- ==== Sys2Proof/Machine/Access.lean ====
section
/-! DEFINITION. An access of a requester to one register whose effect has a row of its own (R9, R445, R446, R485): who reaches the
window, a block that does not answer, an offset that the image's counts leave unlisted (R5), a damaged word; then the effect. -/
namespace Sys2Proof.Machine

/-- A write of the register at `off` whose effect is `f`. -/
def writeAct (s : State) (who : Requester) (off : Nat) (f : State → State) : State :=
  if s.reaches who off then
    if s.silent off then (errorCompletion s).answer [] true false
    else if s.uncounted off then s.answer [] false false
    else (f s).answer [] false false
  else s

/-- A read of the register at `off` whose word and effect are `f`. -/
def readAct (s : State) (who : Requester) (off : Nat) (f : State → Word × State) : State :=
  if s.reaches who off then
    if s.silent off then (errorCompletion s).answer [255, 255, 255, 255] true false
    else if s.uncounted off then s.answer [0, 0, 0, 0] false false
    else if s.damagedAt off then (meetDamaged s off).answer [255, 255, 255, 255] false false
    else (f s).2.answer (wordBytes (f s).1.toNat) false false
  else s

/-- An access that may be either. -/
def debugAct (s : State) (who : Requester) (off : Nat) (write : Bool) (f : State → Word × State) : State :=
  if write then writeAct s who off fun s => (f s).2 else readAct s who off f

/-- An access of the host through BAR2 (R259): a read of `n` bytes, or a write with byte enables. -/
def bar2Act (s : State) (off n : Nat) (write : Option (List (Option Byte))) (corr : List Nat) : State :=
  if s.pcie.linkUp then
    match write with
    | some bs => bar2Write s off (bs.map fun b => b.map BitVec.toNat) corr
    | none => bar2Read s off n corr
  else s

end Sys2Proof.Machine
end

