-- ==== Sys2Proof/Machine/Flags.lean ====
section
/-! DEFINITION. The condition flags N, Z, C, V of SW (R349): how results set them (R367) and how branches test them. -/
namespace Sys2Proof.Machine

structure Nzcv where
  n : Bool
  z : Bool
  c : Bool
  v : Bool
deriving DecidableEq, Repr

/-- The flags of a status word: N is bit 3, V is bit 0. -/
def flagsOf (w : Word) : Nzcv := { n := w.getLsbD 3, z := w.getLsbD 2, c := w.getLsbD 1, v := w.getLsbD 0 }

/-- A status word with its flags replaced. -/
def setFlags (w : Word) (f : Nzcv) : Word := wSetField w 3 0 (b2n f.n * 8 + b2n f.z * 4 + b2n f.c * 2 + b2n f.v)

/-- N and Z from a result, C and V as they are (R367: logical, minimum, maximum). -/
def nzOf (f : Nzcv) (r : Word) : Nzcv := { f with n := r.msb, z := decide (r = 0) }

/-- Signed overflow of a sum. -/
def addOverflow (a b : Word) : Bool := decide (a.msb = b.msb ∧ (a + b).msb ≠ a.msb)

/-- Signed overflow of a difference. -/
def subOverflow (a b : Word) : Bool := decide (a.msb ≠ b.msb ∧ (a - b).msb ≠ a.msb)

/-- ADD with S = 1. -/
def addFlags (a b : Word) : Nzcv :=
  { n := (a + b).msb, z := decide (a + b = 0), c := decide (2 ^ 32 ≤ a.toNat + b.toNat), v := addOverflow a b }

/-- SUB with S = 1, CMP, CMPI: C is 1 when `a ≥ b`, unsigned. -/
def subFlags (a b : Word) : Nzcv :=
  { n := (a - b).msb, z := decide (a - b = 0), c := decide (b.toNat ≤ a.toNat), v := subOverflow a b }

/-- The last bit that a shift by `n` moves out: kind 0 left, 1 logical right, 2 arithmetic right. -/
def shiftOut (kind : Nat) (a : Word) (n : Nat) : Bool := if kind = 0 then a.getLsbD (32 - n) else a.getLsbD (n - 1)

/-- Register shifts with S = 1: C is unchanged for a count of 0. -/
def shiftFlags (f : Nzcv) (kind : Nat) (a r : Word) (n : Nat) : Nzcv :=
  { nzOf f r with c := if n = 0 then f.c else shiftOut kind a n }

/-- A branch condition (R367). -/
def condHolds (f : Nzcv) : Nat → Bool
  | 0 => true
  | 1 => f.z
  | 2 => !f.z
  | 3 => !f.c
  | 4 => f.c
  | 5 => f.c && !f.z
  | 6 => !f.c || f.z
  | 7 => f.n != f.v
  | 8 => f.n == f.v
  | 9 => !f.z && f.n == f.v
  | 10 => f.z || f.n != f.v
  | 11 => f.n
  | 12 => !f.n
  | 13 => f.v
  | 14 => !f.v
  | _ => false

/-- FCMP (R379). -/
def fcmpFlags (unordered lt eq : Bool) : Nzcv :=
  if unordered then { n := false, z := false, c := false, v := true }
  else { n := lt, z := eq, c := false, v := false }

/-- BCMP and BFND (R375). -/
def testFlags (f : Nzcv) (holds : Bool) : Nzcv := { f with n := false, z := holds }

end Sys2Proof.Machine
end

