-- ==== Sys2Proof/Machine/SepEntry.lean ====
section
/-! DEFINITION. Exceptions of Sepia threads (R346, R351 to R356): entry, escalation, the stop of a thread, and the boundary after an
instruction (R339, R359). -/
namespace Sys2Proof.Machine

/-! ### The boundary after an instruction -/

/-- One instruction has been issued: products come nearer to ML and MH and arrive (R339). -/
def Thread.age (x : Thread) : Thread :=
  let y := { x with mul := (x.mul.map fun m => (m.1 - 1, m.2)).filter fun m => !decide (m.1 = 0) }
  (x.mul.filter fun m => decide (m.1 = 1)).foldl
    (fun x m => { x with ml := m.2.1.getD x.ml, mh := m.2.2.getD x.mh }) y

/-- The thread's instruction at pc completes and the next one stands `n` bytes further; `old` is what a load leaves readable at
distance 1. A thread that its own register access has stopped or restarted stays as it is. -/
def finish (s : State) (c t n : Nat) (old : Option (Nat × Word)) : State :=
  let x := s.thr c t
  if x.state = .running then
    stepEnd (s.setThr c t { x.age with pc := x.pc + BitVec.ofNat 32 n, old := old, wait := none, mid := false }) c t
  else s

/-- A taken branch completes (R340). -/
def jumpTo (s : State) (c t : Nat) (target : Word) : State :=
  let s := s.setThr c t { (s.thr c t).age with old := none, wait := none, mid := false }
  stepEnd (flushTo s c t target) c t

/-! ### Stop and escalation (R355, R356) -/

/-- An event bit of SEP_TSTAT that is a level of private source 16 + t (R385). -/
def threadEvent (s : State) (c t : Nat) (f : Fld) : State := occurPriv (s.event f) c (16 + t)

/-- A fault inside escalation stops the thread. -/
def stopThread (s : State) (c t : Nat) : State :=
  let s := drainAll s c t
  let s := s.setThr c t { s.thr c t with state := .stopped, longs := [], due := [], wait := none, mid := false }
  let s := raiseLine (threadEvent s c t (Reg.SEP_TSTAT_STOPEV c t)) (34 + c / 8)
  setDctlBit s c (8 + t) false

/-- What an exception records: vector, return address, address of the instruction concerned, address of the access, and whether it is
imprecise and several faulted. -/
structure Cause where
  vec : Nat
  ret : Word
  fpc : Word
  addr : Word
  imp : Bool
  mult : Bool
deriving DecidableEq, Repr

/-- SEP_FCAUSE (R357). -/
def Cause.word (k : Cause) (esc : Nat) : Word :=
  BitVec.ofNat 32 (b2n k.imp * 2 ^ 31 + b2n k.mult * 2 ^ 30 + esc * 2 ^ 8 + k.vec)

/-- Escalation by reason `esc` (R355): no frame, g15 from XSP, privilege 0b11, the handler at 0. -/
def escalateThread (s : State) (c t : Nat) (k : Cause) (esc : Nat) : State :=
  let x := s.thr c t
  let y := Thread.setReg { x with
    sw := (swSetPriv x.sw 3) &&& 0xF7FFFFFF#32, epc := k.ret, esw := x.sw, fcause := k.word esc, fpc := k.fpc, faddr := k.addr,
    xg15 := x.reg 15, wait := none, mid := false } 15 x.xsp
  threadEvent (flushTo (s.setThr c t y) c t 0) c t (Reg.SEP_TSTAT_ESCEV c t)

/-- Address of a vector's handler (R351). -/
def handlerOf (x : Thread) (vec : Nat) : Word := x.vbr + BitVec.ofNat 32 (16 * vec)

/-- Why an entry escalates, the checks in the order of R355; the state after the checks (log 35). -/
def entryCheck (s : State) (c t vec : Nat) : State × Nat :=
  let x := s.thr c t
  let a := (x.reg 15 - 8).toNat
  if !(x.window a 8) then (s, 1)
  else
    let r := dataCheck s c x.sw a 8
    if !r.2 then (r.1, 2)
    else if a % 4 ≠ 0 then (r.1, 3)
    else if 4 ≤ x.shadow.length then (r.1, 4)
    else
      let f := iRead r.1 c (handlerOf x vec).toNat
      if f.2.isNone ∨ x.vbr.toNat % 256 ≠ 0 then (f.1, 5) else (f.1, 0)

/-- Exception entry (R353): frame, shadow, privilege, cause, handler; or escalation; or, in escalation, the stop. -/
def enterExc (s : State) (c t : Nat) (k : Cause) : State :=
  if swPriv (s.thr c t).sw = 3 then stopThread s c t
  else
    let r := entryCheck s c t k.vec
    if r.2 ≠ 0 then escalateThread r.1 c t k r.2
    else
      let x := r.1.thr c t
      let a := x.reg 15 - 8
      let s := r.1.setThr c t (Thread.setReg { x with
        epc := k.ret, esw := x.sw, shadow := swPriv x.sw :: x.shadow, sw := (swSetPriv x.sw 1) &&& 0xF7FFFFFF#32,
        fcause := k.word 0, fpc := k.fpc, faddr := k.addr, wait := none, mid := false } 15 a)
      let s := storePush (storePush s c t a.toNat 4 k.ret.toNat) c t (a + 4).toNat 4 x.sw.toNat
      flushTo s c t (handlerOf x k.vec)

/-- A precise exception of the instruction at pc; under STEP the thread halts at the handler's first instruction (R359). -/
def trapTo (s : State) (c t vec : Nat) (ret addr : Word) : State :=
  let x := s.thr c t
  let s := s.setThr c t { x.age with old := none }
  stepEnd (enterExc s c t { vec := vec, ret := ret, fpc := x.pc, addr := addr, imp := false, mult := false }) c t

/-- Of the faults detected the earliest in program order. -/
def earliestDue : DueFault → List DueFault → DueFault
  | d, [] => d
  | d, e :: r => earliestDue (if e.seq < d.seq then e else d) r

/-- The imprecise exception that is due is taken before the instruction at pc issues (R346). -/
def takeDue (s : State) (c t : Nat) : State :=
  let x := s.thr c t
  match x.due with
  | [] => s
  | d :: r =>
    let e := earliestDue d r
    let s := s.setThr c t { x with due := [] }
    enterExc (s.event (Reg.SEP_TSTAT_IMPEV c t)) c t
      { vec := e.vec, ret := x.pc, fpc := e.pc, addr := BitVec.ofNat 32 e.addr, imp := true, mult := decide (r ≠ []) }

/-! ### Interrupts (R351, R372, R387) -/

/-- An interrupt is due for the thread: requested, enabled, not in escalation (R355). -/
def State.irqDue (s : State) (c t : Nat) : Bool :=
  s.irqTo c t && swBit (s.thr c t).sw 27 && decide (swPriv (s.thr c t).sw ≠ 3)

/-- The ITHR thread of core `c` takes the interrupt between instructions, or between the elements of a repeat pair (R377). What
SEP_FPC records for an interrupt is not stated: a free value (log 24). -/
def interruptEntry (s : State) (c : Nat) : State :=
  let t := s.fld (Reg.SEP_CCFG_ITHR c)
  let x := s.thr c t
  if !(s.coreUp c) || decide (x.state ≠ .running) || x.wait.isSome || s.dctlBit c t then s
  else if x.due ≠ [] then takeDue s c t
  else if s.irqDue c t then
    enterExc s.fresh.2 c t
      { vec := 0x10, ret := x.pc, fpc := s.fresh.1.truncate 32, addr := 0, imp := false, mult := false }
  else s

end Sys2Proof.Machine
end

