-- ==== Sys2Proof/Machine/SepIssue.lean ====
section
/-! DEFINITION. How a Sepia thread issues an instruction (R338 to R346, R351, R364): what stands at the head of its queue, what keeps
it waiting, and how an instruction ends. -/
namespace Sys2Proof.Machine

/-- How an instruction ends. -/
inductive Res where
  /-- it completes; `old`: the register that a load has written, and its value before (R339) -/
  | done (s : State) (old : Option (Nat × Word))
  /-- it completes with a taken branch -/
  | jump (s : State) (target : Word)
  /-- it raises an exception: vector, return address, address of the access -/
  | trap (s : State) (vec : Nat) (ret addr : Word)
  /-- it begins a wait (WFE, WAITT) -/
  | hold (s : State) (w : Waiting)
  /-- the thread is not ready: nothing happens -/
  | wait

/-- What the thread presents: it cannot issue; an imprecise exception is due; the fetch of the word at pc faults; the word is illegal;
an instruction. -/
inductive Front where
  | no
  | due
  | fetchFault
  | illegal
  | ins (i : Ins)
deriving DecidableEq, Repr

/-- Instructions that a compact core lacks (R337, R369, R378). -/
def Ins.fullOnly : Ins → Bool
  | .fp _ _ _ _ | .call _ | .callr _ | .ret => true
  | _ => false

/-- What thread `t` of core `c` presents. -/
def State.front (s : State) (c t : Nat) : Front :=
  let x := s.thr c t
  if !(s.coreUp c) || decide (4 ≤ t) || decide (x.state ≠ .running) || x.wait.isSome || x.mid || s.dctlBit c t then .no
  else if x.due ≠ [] then .due
  else match x.queue with
    | [] => .no
    | none :: _ => .fetchFault
    | some w :: _ => match sepDecode w.toNat with
      | none => .illegal
      | some i => if i.fullOnly && !(fullCore c) then .illegal else .ins i

/-! ### The barrel (R338) -/

/-- Thread `t` of core `c` is ready: it can issue, or take an exception in place of issuing, or do a further element of its pair. -/
def State.ready (s : State) (c t : Nat) : Bool :=
  let x := s.thr c t
  let op := s.flag (Reg.SEP_CCFG_OPEN c)
  if x.mid then
    s.coreUp c && decide (t < 4) && decide (x.state = .running) && !(s.dctlBit c t) && !(s.waits c t)
  else match s.front c t with
    | .no => false
    | .ins i => !(x.blocked op i)
    | _ => true

/-- It is the turn of thread `t`: no thread from the one whose turn comes next on is ready before it. -/
def State.myTurn (s : State) (c t : Nat) : Bool :=
  let n := smGet 0 s.sep.turn c
  (List.range ((t + 4 - n) % 4)).all fun k => !(s.ready c ((n + k) % 4))

/-- Thread `t` takes its turn; the next one is that of the thread after it. -/
def takeTurn (s : State) (c t : Nat) : State := { s with sep := { s.sep with turn := smSet 0 s.sep.turn c ((t + 1) % 4) } }

/-! ### Issuing -/

/-- `n` words leave the queue and as many are fetched behind it (R340). -/
def advance (s : State) (c t n : Nat) : State :=
  let x := s.thr c t
  fetchInto c t n (x.pc.toNat + 4 * x.queue.length) (s.setThr c t { x with queue := x.queue.drop n })

/-- The exceptions that need no operand: due, fetch, illegal. -/
def frontActs (s : State) (c t : Nat) : Front → State
  | .due => takeDue s c t
  | .fetchFault => trapTo s c t 3 (s.thr c t).pc (s.thr c t).pc
  | .illegal => trapTo s c t 1 (s.thr c t).pc 0
  | _ => s

/-- The end of an instruction; `s0` is the state in which it was presented. -/
def settleRes (s0 : State) (c t : Nat) : Res → State
  | .done s old => finish s c t 4 old
  | .jump s a => jumpTo s c t a
  | .trap s v ret a => trapTo s c t v ret a
  | .hold s w => s.setThr c t { s.thr c t with wait := some w }
  | .wait => s0

/-- What an instruction does: from the state with its word taken out of the queue and the next one fetched. -/
abbrev Body := State → Res

/-- Thread `t` of core `c`, whose turn it is, issues its next instruction, if it is one of those that `f` gives a meaning (R338). -/
def issue (s : State) (c t : Nat) (f : Ins → Option Body) : State :=
  if !(s.myTurn c t) then s else
  match s.front c t with
  | .no => s
  | .ins i => match f i with
    | none => s
    | some body =>
      if (s.thr c t).blocked (s.flag (Reg.SEP_CCFG_OPEN c)) i then s
      else settleRes (takeTurn s c t) c t (body (advance (takeTurn s c t) c t 1))
  | fr => frontActs (takeTurn s c t) c t fr

/-! ### Writing a result -/

/-- Write register `r` of a thread. -/
def State.setG (s : State) (c t r : Nat) (v : Word) : State := s.setThr c t ((s.thr c t).setReg r v)

/-- Write the flags of a thread. -/
def State.setNzcv (s : State) (c t : Nat) (f : Nzcv) : State :=
  s.setThr c t { s.thr c t with sw := setFlags (s.thr c t).sw f }

/-- An exception of the instruction at pc, with the state as the instruction found it. -/
def Res.fault (s : State) (c t vec : Nat) (addr : Word) : Res := .trap s vec (s.thr c t).pc addr

/-- A load's register write: in open mode the next instruction still reads the value before (R339). -/
def loadDone (s : State) (c t rd : Nat) (v : Word) : Res :=
  .done (s.setG c t rd v) (if s.flag (Reg.SEP_CCFG_OPEN c) && decide (rd ≠ 0) then some (rd, (s.thr c t).reg rd) else none)

/-- The thread is in user mode. -/
def State.user (s : State) (c t : Nat) : Bool := decide (swPriv (s.thr c t).sw = 0)

/-! ### Long operations (R345, R346) -/

/-- The value of a long load from its bytes. -/
def loadValue (size : Nat) (signed : Bool) (v : Nat) : Word :=
  if signed then sextW (8 * size) v else BitVec.ofNat 32 v

/-- What a long operation gives when it retires: its value, or the vector and the address of its fault. -/
def longResult (s : State) (e : Upset) : LongKind → State × Except (Nat × Nat) Word
  | .value v => (s, .ok v)
  | .divZero => (s, .error (7, 0))
  | .load a n signed rights v =>
    let o := a - 0x40000000
    if !rights then (s, .error (4, a))
    else if !(s.dramAnswers a n) then (errorCompletion s, .error (4, a))
    else
      let s := match e with
        | .none => s
        | .corrected => corrected s (Reg.MEM_ECCCNT_CORR (dramChan o)) 1
        | .damaged => { s with dram := { s.dram with bad := nsAdd s.dram.bad (o / 8 * 8) } }
      if wordsHit s.dram.bad o n = [] then (s, .ok (loadValue n signed v)) else (dramMeet s o n, .error (4, a))

/-- A long operation begins; under SW.PRECISE it retires before the next instruction, and its exception is precise. -/
def longStart (s : State) (c t rd : Nat) (k : LongKind) (e : Upset) : Res :=
  let x := s.thr c t
  if swBit x.sw 31 then
    let r := longResult s e k
    match r.2 with
    | .ok v => .done (r.1.setG c t rd v) none
    | .error f => Res.fault r.1 c t f.1 (BitVec.ofNat 32 f.2)
  else
    .done (s.setThr c t { x with
      longs := x.longs ++ [{ rd := rd, pc := x.pc, seq := x.nlong, kind := k }], nlong := x.nlong + 1 }) none

/-- The long operation that stands at place `i` of those outstanding retires: its result is written where nothing later has written the
register, and those before it lose that destination (R339); or its fault is detected. -/
def longRetire (s : State) (c t i : Nat) (e : Upset) : State :=
  if !(s.coreUp c) then s
  else match (s.thr c t).longs[i]? with
    | none => s
    | some l =>
      let r := longResult s e l.kind
      let x := r.1.thr c t
      let x := { x with longs := x.longs.eraseIdx i }
      match r.2 with
      | .ok v => r.1.setThr c t (if l.rd = 0 then x else { x with
          g := smSet 0 x.g l.rd v, longs := x.longs.map fun m => if m.rd = l.rd ∧ m.seq < l.seq then { m with rd := 0 } else m })
      | .error f => r.1.setThr c t { x with due := x.due ++ [{ seq := l.seq, vec := f.1, pc := l.pc, addr := f.2 }] }

end Sys2Proof.Machine
end

