-- ==== Sys2Proof/Machine/SepFlow.lean ====
section
/-! DEFINITION. Branches, calls and returns of the Sepia cores (R352, R354, R356, R367 to R370). -/
namespace Sys2Proof.Machine

/-- The target of a displacement in words (R363). -/
def dispTo (pc : Word) (bits d : Nat) : Word := pc + BitVec.ofNat 32 (wrapN 32 (4 * sext bits d))

/-- B. -/
def branchBody (c t cond d : Nat) : Body := fun s =>
  let x := s.thr c t
  if condHolds (flagsOf x.sw) cond then .jump s (dispTo x.pc 22 d) else .done s none

/-- An implicit stack access of `n` bytes from `a` (R352, R369, R370): none, or the vector of the fault. -/
def stackCheck (s : State) (c t : Nat) (a : Word) (n : Nat) : State × Option Nat :=
  let x := s.thr c t
  if !(x.window a.toNat n) then (s, some 6)
  else
    let k := dataCheck s c x.sw a.toNat n
    (k.1, if k.2 then none else some 4)

/-- CALL and CALLR: the return address is pushed through the store buffer (R369). -/
def callBody (c t : Nat) (target : Thread → Word) : Body := fun s =>
  let x := s.thr c t
  let a := x.use 15 - 4
  let k := stackCheck s c t a 4
  match k.2 with
  | some v => Res.fault k.1 c t v a
  | none => .jump (storePush (k.1.setG c t 15 a) c t a.toNat 4 (x.pc + 4).toNat) (target x)

/-- RET. -/
def retBody (c t : Nat) (e : Upset) : Body := fun s =>
  let a := (s.thr c t).use 15
  let k := stackCheck s c t a 4
  match k.2 with
  | some v => Res.fault k.1 c t v a
  | none =>
    let r := dataRead k.1 c t a.toNat 4 e
    match r.2 with
    | none => Res.fault r.1 c t 4 a
    | some v => .jump (r.1.setG c t 15 (a + 4)) (BitVec.ofNat 32 v)

/-- Push words at rising addresses. -/
def pushWords (c t : Nat) : Word → List Word → State → State
  | _, [], s => s
  | a, w :: r, s => pushWords c t (a + 4) r (storePush s c t a.toNat 4 w.toNat)

/-- CALLM (R370): checked whole, then the return address and the masked registers are saved; the target was read before. -/
def callmBody (c t ra mask : Nat) : Body := fun s =>
  let x := s.thr c t
  let rs := maskRegs mask
  let n := 4 * (rs.length + 1)
  let a := x.use 15 - BitVec.ofNat 32 n
  let k := stackCheck s c t a n
  match k.2 with
  | some v => Res.fault k.1 c t v a
  | none => .jump (pushWords c t a ((x.pc + 4) :: rs.map x.use) (k.1.setG c t 15 a)) (x.use ra)

/-- Load words from rising addresses, the upset in the first. -/
def loadWords (c t : Nat) (e : Upset) (acc : List Word) : Nat → Word → State → State × Option (List Word)
  | 0, _, s => (s, some acc)
  | n + 1, a, s =>
    let r := dataRead s c t a.toNat 4 e
    match r.2 with
    | none => (r.1, none)
    | some v => loadWords c t .none (acc ++ [BitVec.ofNat 32 v]) n (a + 4) r.1

/-- RETM (R370): checked whole; the registers that its own mask names are restored. -/
def retmBody (c t mask : Nat) (e : Upset) : Body := fun s =>
  let a := (s.thr c t).use 15
  let rs := maskRegs mask
  let n := 4 * (rs.length + 1)
  let k := stackCheck s c t a n
  match k.2 with
  | some v => Res.fault k.1 c t v a
  | none =>
    let r := loadWords c t e [] (rs.length + 1) a k.1
    match r.2 with
    | none => Res.fault r.1 c t 4 a
    | some ws =>
      let u := (rs.zip (ws.drop 1)).foldl (fun s p => s.setG c t p.1 p.2) r.1
      .jump (u.setG c t 15 (a + BitVec.ofNat 32 n)) (ws.headD 0)

/-- RETX in escalation: no memory is read (R356). One that restores PRECISE = 1 waits for the long operations outstanding (R345, log 35). -/
def retxEsc (c t : Nat) (s : State) : Res :=
  let x := s.thr c t
  if swBit x.esw 31 ∧ x.longs ≠ [] then .wait else
  .jump (s.setThr c t (Thread.setReg { x with sw := x.esw, shadow := [] } 15 x.xg15)) x.epc

/-- RETX in supervisor mode (R354): the privilege comes from the shadow. -/
def retxSup (c t : Nat) (e : Upset) (s : State) : Res :=
  let a := (s.thr c t).use 15
  let k := stackCheck s c t a 8
  match k.2 with
  | some v => Res.fault k.1 c t v a
  | none =>
    let r := loadWords c t e [] 2 a k.1
    match r.2 with
    | none => Res.fault r.1 c t 4 a
    | some ws =>
      let x := r.1.thr c t
      let fsw := ws.getD 1 0
      match x.shadow with
      | [] => Res.fault r.1 c t 9 0
      | p :: rest =>
        if swPriv fsw ≠ p then Res.fault r.1 c t 9 0
        else if swBit fsw 31 ∧ x.longs ≠ [] then .wait
        else .jump (r.1.setThr c t (Thread.setReg { x with shadow := rest, sw := swSetPriv (swMask fsw) p } 15 (a + 8))) (ws.headD 0)

/-- RETX. -/
def retxBody (c t : Nat) (e : Upset) : Body := fun s =>
  if s.user c t then Res.fault s c t 2 0
  else if swPriv (s.thr c t).sw = 3 then retxEsc c t s
  else retxSup c t e s

end Sys2Proof.Machine
end

