-- ==== Sys2Proof/Machine/Instants.lean ====
section
/-! DEFINITION. Instants that several blocks share, put together from the operations of each. -/
namespace Sys2Proof.Machine

/-! ### Slot clock and release -/

/-- The clock source is back: the re-lock slew begins (R22). -/
def sourceReturn (s : State) : State :=
  if decide (s.tbState = 3) && !s.tb.slewing then { s with tb := { s.tb with slewing := true } } else s

/-- An instant of the crossing `back` slots before the present one. -/
def backwards (s : State) (back : Nat) (f : Nat → State) : State :=
  if s.running && decide (back ≤ s.tb.n) then f (s.tb.n - back) else s

/-- The result of a crossing reaches the release register of stream `st`, `ph` FCLK cycles into the slot (R51, R196, log 20). An
exchange stream carries the word with ACC 0 and no strobe. -/
def resultArrival (s : State) (st back ph : Nat) : State :=
  backwards s back fun x =>
    if !(s.streams.contains st) || decide (x < s.rel.firstX) || (s.relEntry st x).present then s
    else match s.img.streams[st]?, s.rel.results.find? (fun r => decide (r.1 = x)) with
      | some c, some r =>
        if c.dec then relArrive s st x (BitVec.ofNat 64 r.2.1) r.2.2 ph
        else relArrive s st x (BitVec.ofNat 64 r.2.1 &&& ~~~(1#64 <<< 62)) false ph
      | _, _ => s

/-! ### Lane array -/

/-- The bits LOOP, GEN and CHK of LNK_TEST (R84). -/
def testBits : Word := 0x000000F0#32

/-- The comparison of a group clock with REFCLK (R71, R72). -/
def groupReport (s : State) (g : Nat) (ppm : Int) : State :=
  let t := groupMeasure s g ppm
  if ppmBad ppm && !(s.lnk.grpFault.contains g) then clockFault t g else t

/-- No edge of a group clock for 1 us (R72). -/
def groupSilent (s : State) (g : Nat) : State :=
  let t := s.setFld (Reg.LNK_GRPSTAT_PRESENT g) 0
  if s.lnk.grpFault.contains g then t else clockFault t g

/-! ### The pipeline -/

/-- CND completes its oldest crossing: the cells go to PF and to the ring (R139, R219). -/
def conditionRow (s : State) (corr : Nat) (pedBad : List Nat) : State :=
  if !(s.running && s.up 53) then s
  else
    let r := conditionDone s corr pedBad
    match r.2 with
    | none => r.1
    | some p =>
      let t := if r.1.up 61 then pfReceive r.1 p.1 p.2 else r.1
      if t.up 79 then roCells t p.1 p.2 else t

/-- PF delivers the next row of the crossing that it sweeps; the survey takes its sources at the same beat (R168, R262). -/
def broadcastRow (s : State) (taken corr : Nat) : State :=
  if !(s.running && s.up 61) then s
  else match s.sweeping with
    | none => s
    | some pc =>
      let es := s.rlOf pc.x
      let sel := s.rd Reg.PF_SRVSEL
      let cells := (List.range 4).map fun j => match chanSrc sel j with
        | some code => s.rowOf es pc pc.rows code
        | none => []
      let t := rowBeat s pc corr
      if t.up 85 then srvRow t pc.x pc.rows (decide (pc.rows + 1 = s.fld Reg.PF_CFG_NROWS)) taken cells else t

/-- The sorter's output for crossing `x`: its object section goes to the ring (R187, R219). -/
def sortRow (s : State) (x dissent : Nat) : State :=
  if (s.obj.results.find? fun r => decide (r.x = x)).any fun r => r.lists.isNone then
    let t := sortDone s x dissent
    match t.obj.results.find? (fun r => decide (r.x = x)) with
    | some r => match r.lists with
      | some ls => if t.up 79 then roObjs t x ls r.ovf else t
      | none => t
    | none => t
  else s

/-- The decision on crossing `x`: its trigger record goes to the ring (R206, R219). -/
def decideRow (s : State) (x : Nat) (faults : List DecFault) (corr : Nat) : State :=
  if !(s.up 78) then s
  else
    let r := decisionEvaluate s x faults corr
    match r.2 with
    | some rec => if r.1.up 79 then roTrig r.1 rec else r.1
    | none => r.1

/-! ### Monitors -/

/-- The on-die sensor gives a temperature: CVL_TEMP and Mordant's limit follow it (R300, R459). -/
def tempUpdate (s : State) (t : BitVec 16) : State :=
  let s := if s.up 92 then s.setFld Reg.CVL_TEMP_TJ t.toNat else s
  if s.up 2 then setTemp s t.toInt else s

/-- The sensor crosses FLT_TLIM.HI upward or comes back to it (R459, R483). -/
def sensorAt (s : State) (t : BitVec 16) (above : Bool) : State :=
  if s.up 2 && decide (decide (sext 16 (s.fld Reg.FLT_TLIM_HI) < t.toInt) = above) then setTemp s t.toInt else s

/-- A supply is back in its range (R483). -/
def supplyBack (s : State) (rail : Nat) : State :=
  if s.up 2 then { s with flt := { s.flt with supplyOut := nsDel s.flt.supplyOut rail } } else s

/-- REFCLK is back within 500 ppm (R483). -/
def refclkBack (s : State) : State := if s.up 2 then { s with flt := { s.flt with refclkBad := false } } else s

/-! ### Interrupts and messages -/

/-- ECC finds an error in the in-service stack that a claim or an end of interrupt reads (R392). -/
def stackUpset (s : State) (c : Nat) : Upset → State
  | .none => s
  | .corrected => corrected s Reg.IRQ_ECCCNT_CORR 1
  | .damaged =>
    let s := raiseLine ((uncorrected s Reg.IRQ_ECCCNT_UNCORR).event Reg.IRQ_STAT_ECCU) 19
    orderError (s.setIrqCore c { s.irqCore c with stack := (s.irqCore c).shadow }) c

/-- 1 us has passed since the last message of vector `v` (R425). -/
def spacingEnd (s : State) (v : Nat) : State :=
  if s.pcie.spacing.contains v then
    let t := { s with pcie := { s.pcie with spacing := nsDel s.pcie.spacing v, merged := nsDel s.pcie.merged v } }
    if s.pcie.merged.contains v then msixRequest t v else t
  else s

/-- The management link trains; the host enumerates the endpoint and what it unmasks is sent (R424, R425, R445, log 7). -/
def managementUp (s : State) (bme msixEn fmask : Bool) : State :=
  if s.up 4 then (List.range 64).foldl msixFlush (linkTrained s bme msixEn fmask) else s

/-! ### A REFCLK cycle without a command (log 1) -/

/-- The next REFCLK cycle begins: what one cycle alone decides is settled, and the lines whose condition lasts are 1 in it too (R383). -/
def nextCycle (s : State) : State := relatch { s with cyc := Cycle.clear s.flt.status }

/-- One REFCLK cycle passes: the pads are sampled, held messages are offered again. -/
def idleCycle (s : State) : State := heldAll (nextCycle { pinTick s with cycle := s.cycle + 1 })

/-- `k` cycles in which nothing happens but that lasting conditions occur again: no count of a source is compared with more than 255
(R386). -/
def lastCycles (s : State) (k : Nat) : State :=
  if s.lastingLines = [] then s else (List.range (min k 256)).foldl (fun s _ => nextCycle s) s

/-- `k` REFCLK cycles pass. Nothing else that one cycle leaves behind stands longer than three. -/
def passCycles (s : State) (k : Nat) : State :=
  (List.range (min k 4)).foldl (fun s _ => idleCycle s) (lastCycles { s with cycle := s.cycle + (k - 4) } (k - 4))

/-- Time passes up to a slot-clock edge `dt` ps after the one before: REFCLK cycles that idle steps have not already told (log 1). -/
def passSlot (s : State) (dt : Nat) : State :=
  let k := (s.tb.ps + dt) / 10000 - s.tb.ps / 10000
  let t := passCycles s (k - (s.cycle - s.tb.edgeCycle))
  { t with tb := { t.tb with edgeCycle := t.cycle } }

/-- A slot-clock edge, with an orbit marker sampled in the slot that it begins or none. -/
def slotStart (s : State) (dt : Nat) (mark : Bool) : State :=
  if s.tbState = 0 || !(s.up 3) then s else slotEdge (passSlot s dt).eventCycle dt mark

/-! ### Sepia -/

/-- J. -/
def jumpBody (c t d : Nat) : Body := fun s => .jump s (dispTo (s.thr c t).pc 26 d)

/-- JR. -/
def jumpRegBody (c t ra : Nat) : Body := fun s => .jump s ((s.thr c t).use ra)

/-- The word of SEP_DCTL that names threads in the field at `pos`, BRKEN as it stands (R359). -/
def dctlWord (s : State) (c : Nat) (all : Bool) (pos mask : Nat) : Word :=
  bitsWord [(31, 31, s.fld (Reg.SEP_DCTL_BRKEN c)), (30, 30, b2n all), (pos + 3, pos, mask)]

end Sys2Proof.Machine
end

