-- ==== Sys2Proof/Machine/RowsBus.lean ====
section
/-! DEFINITION. The meanings of the rows of: Register accesses that have no row of their own, the banked storage and the DRAM aperture (R6, R8, R39, R161, R259, R485). -/
namespace Sys2Proof.Machine

/-- REGISTER_WRITE (R6): a write to a register that has no row of its own updates it, or is discarded when fewer than four byte enables are set. -/
def execRegisterWrite (who : Requester) (off : Nat) (be : BitVec 4) (v : Word) (s : State) : Host.Outcome State Fault Refusal :=
  let s := s.accessCycle who
  .next (regWriteBe s who off be.toNat v)

/-- READ_CLEAR (R8): a read of an RC field returns its value and then clears it, keeping any event of the same cycle. -/
def execReadClear (who : Requester) (off : Nat) (s : State) : Host.Outcome State Fault Refusal :=
  let s := s.accessCycle who
  .next (regRead s who off)

/-- ECC_WINDOW_READ (R485): a register-window read of an uncorrectable SECDED word returns all ones and counts once in the owning block. -/
def execEccWindowRead (who : Requester) (off : Nat) (fixed : Bool) (s : State) : Host.Outcome State Fault Refusal :=
  let s := s.accessCycle who
  .next (eccRead s who off fixed)

/-- STAGED_WRITE (R39): a write to a banked register's staged offset sets the staged value, or is discarded with WDROP while LOCKED or BUSY. -/
def execStagedWrite (who : Requester) (off : Nat) (v : Word) (s : State) : Host.Outcome State Fault Refusal :=
  let s := s.accessCycle who
  .next (if isBanked off then regWrite s who off v else s)

/-- PLANE_WRITE (R161): a staged static-plane write marks the Lake layers that name it stale. -/
def execPlaneWrite (who : Requester) (off : Nat) (v : Word) (s : State) : Host.Outcome State Fault Refusal :=
  let s := s.accessCycle who
  .next (writeAct s who off fun s => if s.inWindow (off / 4 * 4) then planeWrite s (off / 4 * 4) v else s)

/-- BAR2_ACCESS (R259): a host access through BAR2 reads or writes DRAM data space. -/
def execBar2Access (off : Nat) (n : Nat) (wr : Option (List (Option Byte))) (corr : List Nat) (s : State) : Host.Outcome State Fault
    Refusal :=
  let s := s.eventCycle
  .next (bar2Act s off n wr corr)

end Sys2Proof.Machine
end

