-- ==== Sys2Proof/Machine/RowsCvl.lean ====
section
/-! DEFINITION. The meanings of the rows of: Converter cells, comparators, PWM pairs and loops (R285 to R308). -/
namespace Sys2Proof.Machine

/-- CONVERSION_TRIGGER (R286): a trigger samples a converter cell, or is dropped while a conversion runs. -/
def execConversionTrigger (n : Fin 48) (code : BitVec 14) (s : State) : Host.Outcome State Fault Refusal :=
  let s := s.eventCycle
  .next (convFree s n code.toNat)

/-- CONVERSION_DONE (R286): a conversion delivers its code to CVL_CRES and to its loop. -/
def execConversionDone (n : Fin 48) (s : State) : Host.Outcome State Fault Refusal :=
  let s := s.eventCycle
  .next (convDone s n)

/-- ECHO_CONVERSION (R285): an echo cell reads back its driven code every 100 ns. -/
def execEchoConversion (n : Fin 48) (s : State) : Host.Outcome State Fault Refusal :=
  let s := s.eventCycle
  .next (echoConv s n)

/-- COMPARATOR_TRIP (R290): an enabled comparator becoming active outside blanking trips its group. -/
def execComparatorTrip (k : Fin 96) (uv : BitVec 21) (s : State) : Host.Outcome State Fault Refusal :=
  let s := s.eventCycle
  .next (cmpInput s k uv.toNat)

/-- BLANK_WINDOW_END (R289): a blanking window ends and a still-active comparator acts. -/
def execBlankWindowEnd (k : Fin 96) (s : State) : Host.Outcome State Fault Refusal :=
  let s := s.eventCycle
  .next (blankEnd s k)

/-- COMPARATOR_RELEASE (R291): a comparator going inactive ends a cycle trip and may release its group. -/
def execComparatorRelease (k : Fin 96) (uv : BitVec 21) (s : State) : Host.Outcome State Fault Refusal :=
  let s := s.eventCycle
  .next (cmpInput s k uv.toNat)

/-- TRIP_CLEAR (R291): a CVL_TRIPCLR write ends latched trips of inactive comparators. -/
def execTripClear (who : Requester) (hi : Bool) (mask : Word) (s : State) : Host.Outcome State Fault Refusal :=
  let s := s.accessCycle who
  .next (writeAct s who (if hi then Reg.CVL_TRIPCLR_HI else Reg.CVL_TRIPCLR_LO) fun s => tripClear s hi mask.toNat)

/-- PWM_PERIOD_END (R292): a PWM period ends, the counter reloads and the duty account updates. -/
def execPwmPeriodEnd (m : Fin 64) (fix : List (EccUnit × Nat)) (s : State) : Host.Outcome State Fault Refusal :=
  let s := s.eventCycle
  .next (pwmPeriodEnd (fixWords s fix) m)

/-- PWM_UPDATE_POINT (R295): pending PWM values become current at the pair's update point. -/
def execPwmUpdatePoint (m : Fin 64) (s : State) : Host.Outcome State Fault Refusal :=
  let s := s.eventCycle
  .next (pwmUpdatePoint s m)

/-- PWM_EDGE (R294): the PWM counter reaches a rise or fall position of W, A or B and the output changes, opening blanking windows and accruing on-time. -/
def execPwmEdge (m : Fin 64) (s : State) : Host.Outcome State Fault Refusal :=
  let s := s.eventCycle
  .next (pwmEdge s m)

/-- LOOP_SAMPLE (R301): a loop samples its cell and computes a new output through its biquads. -/
def execLoopSample (lp : Fin 64) (code : BitVec 14) (corr : Nat) (bad : Bool) (s : State) : Host.Outcome State Fault Refusal :=
  let s := s.eventCycle
  .next (loopSample s lp code.toNat corr bad)

/-- LOOP_OUTPUT (R301): the loop's output becomes pending at its target. -/
def execLoopOutput (lp : Fin 64) (cyc : Nat) (s : State) : Host.Outcome State Fault Refusal :=
  let s := s.eventCycle
  .next (loopOutput s lp cyc)

/-- TEMP_UPDATE (R300): every 10 us CVL_TEMP takes a new on-die temperature. -/
def execTempUpdate (t : BitVec 16) (s : State) : Host.Outcome State Fault Refusal :=
  let s := s.eventCycle
  .next (tempUpdate s t)

end Sys2Proof.Machine
end

