-- ==== Sys2Proof/Machine/RowsFlt.lean ====
section
/-! DEFINITION. The meanings of the rows of: Mordant: fault latches, the safe state, monitors, the watchdog (R447 to R466, R483). -/
namespace Sys2Proof.Machine

/-- FAULT_CLEAR (R483): a W1C write to FLT_STATUS clears bits whose lines are low. -/
def execFaultClear (who : Requester) (hi : Bool) (mask : Word) (s : State) : Host.Outcome State Fault Refusal :=
  let s := s.accessCycle who
  .next (writeAct s who (if hi then Reg.FLT_STATUS_HI else Reg.FLT_STATUS_LO) fun s => fltClear s hi mask)

/-- FAULT_STATUS_READ (R449): a read of FLT_STATUS_LO latches FLT_STATUS_HI. -/
def execFaultStatusRead (who : Requester) (s : State) : Host.Outcome State Fault Refusal :=
  let s := s.accessCycle who
  .next (readAct s who Reg.FLT_STATUS_LO fltReadLo)

/-- FIRST_TIME_READ (R466): a read of FLT_FIRSTT_LO latches FLT_FIRSTT_HI. -/
def execFirstTimeRead (who : Requester) (s : State) : Host.Outcome State Fault Refusal :=
  let s := s.accessCycle who
  .next (readAct s who Reg.FLT_FIRSTT_LO fltReadTime)

/-- FIRST_SOURCE_CLEAR (R451): FLT_CTL.FCLR clears FLT_FIRST. -/
def execFirstSourceClear (who : Requester) (s : State) : Host.Outcome State Fault Refusal :=
  let s := s.accessCycle who
  .next (writeAct s who Reg.FLT_CTL fun s => fltCtl s (bitsWord [(2, 2, 1)]))

/-- COLLECTOR_SELF_FAULT (R452): a parity error in Mordant enters the safe state for good. -/
def execCollectorSelfFault (s : State) : Host.Outcome State Fault Refusal :=
  let s := s.eventCycle
  .next (selfFault s)

/-- SAFE_ENTER (R453): FLT_CTL.ENTER with CODE enters the safe state. -/
def execSafeEnter (who : Requester) (code : BitVec 16) (exitToo : Bool) (s : State) : Host.Outcome State Fault Refusal :=
  let s := s.accessCycle who
  .next (writeAct s who Reg.FLT_CTL fun s => fltCtl s (bitsWord [(31, 16, code.toNat), (1, 1, b2n exitToo), (0, 0, 1)]))

/-- SAFE_EXIT_REQUEST (R455): FLT_CTL.EXIT with CODE requests an exit at the next boundary. -/
def execSafeExitRequest (who : Requester) (code : BitVec 16) (s : State) : Host.Outcome State Fault Refusal :=
  let s := s.accessCycle who
  .next (writeAct s who Reg.FLT_CTL fun s => fltCtl s (bitsWord [(31, 16, code.toNat), (1, 1, 1)]))

/-- SAFE_ESCALATION (R456): MS ms in the safe state performs the escalation reset. -/
def execSafeEscalation (s : State) : Host.Outcome State Fault Refusal :=
  let s := s.eventCycle
  .next (escalate s)

/-- SUPPLY_EXCURSION (R459): a monitored supply out of range for 1 us sets bit 52. -/
def execSupplyExcursion (rail : Fin 5) (s : State) : Host.Outcome State Fault Refusal :=
  let s := s.eventCycle
  .next (supplyExcursion s rail)

/-- TEMPERATURE_EXCURSION (R459): the on-die temperature above FLT_TLIM.HI sets bit 53. -/
def execTemperatureExcursion (t : BitVec 16) (s : State) : Host.Outcome State Fault Refusal :=
  let s := s.eventCycle
  .next (sensorAt s t true)

/-- REFCLK_DEVIATION (R459): REFCLK off by more than 500 ppm for 10 us sets bit 54. -/
def execRefclkDeviation (s : State) : Host.Outcome State Fault Refusal :=
  let s := s.eventCycle
  .next (refclkDeviation s)

/-- WATCHDOG_ENABLE (R462): FLT_WDCFG.EN starts the watchdog. -/
def execWatchdogEnable (who : Requester) (timeout : BitVec 16) (s : State) : Host.Outcome State Fault Refusal :=
  let s := s.accessCycle who
  .next (writeAct s who Reg.FLT_WDCFG fun s => wdCfgWrite s (bitsWord [(31, 31, 1), (15, 0, timeout.toNat)]))

/-- WATCHDOG_KICK (R462): FLT_WDKICK with 0x6B1D restarts stage 0. -/
def execWatchdogKick (who : Requester) (s : State) : Host.Outcome State Fault Refusal :=
  let s := s.accessCycle who
  .next (writeAct s who Reg.FLT_WDKICK fun s => wdKick s 0x6B1D)

/-- FALSE_KICK (R462): FLT_WDKICK with another key ends the current stage at once. -/
def execFalseKick (who : Requester) (key : BitVec 16) (s : State) : Host.Outcome State Fault Refusal :=
  let s := s.accessCycle who
  .next (writeAct s who Reg.FLT_WDKICK fun s => wdKick s key.toNat)

/-- WATCHDOG_STAGE_END (R463): a watchdog stage runs out, setting bit 55 or causing the watchdog reset. -/
def execWatchdogStageEnd (s : State) : Host.Outcome State Fault Refusal :=
  let s := s.eventCycle
  .next (wdStageEnd s)

/-- SUPPLY_IN_RANGE (R483): a monitored supply returns within its operating range and the lasting condition on FLT_STATUS bit 52 ends, so a clear of the bit sticks. -/
def execSupplyInRange (rail : Fin 5) (s : State) : Host.Outcome State Fault Refusal :=
  let s := s.eventCycle
  .next (supplyBack s rail)

/-- TEMPERATURE_BELOW_LIMIT (R483): the on-die temperature falls back to or below FLT_TLIM.HI and the lasting condition on bit 53 ends. -/
def execTemperatureBelowLimit (t : BitVec 16) (s : State) : Host.Outcome State Fault Refusal :=
  let s := s.eventCycle
  .next (sensorAt s t false)

/-- REFCLK_WITHIN_LIMIT (R483): REFCLK returns to within 500 ppm of the on-die reference and that cause of the lasting condition on bit 54 ends. -/
def execRefclkWithinLimit (s : State) : Host.Outcome State Fault Refusal :=
  let s := s.eventCycle
  .next (refclkBack s)

end Sys2Proof.Machine
end

