-- ==== Sys2Proof/Machine/RowsImg.lean ====
section
/-! DEFINITION. The meanings of the rows of: Genzal: images, starts, commits, the management port (R406 to R427, R445). -/
namespace Sys2Proof.Machine

/-- IMAGE_WRITE_WORD (R417): an IMG_WDATA write stores a word at IMG_WADDR, or is discarded with WPERR. -/
def execImageWriteWord (who : Requester) (v : Word) (s : State) : Host.Outcome State Fault Refusal :=
  let s := s.accessCycle who
  .next (writeAct s who Reg.IMG_WDATA fun s => imgWrite s v)

/-- IMAGE_READ_WORD (R427): an IMG_RDATA read returns the word at IMG_WADDR and advances it. -/
def execImageReadWord (who : Requester) (bad : Bool) (s : State) : Host.Outcome State Fault Refusal :=
  let s := s.accessCycle who
  .next (readAct s who Reg.IMG_RDATA fun s => imgRead (readHit s bad))

/-- IMAGE_VERIFY (R417): IMG_CTL.VERIFY starts the check of a slot. -/
def execImageVerify (who : Requester) (sl : Fin 4) (s : State) : Host.Outcome State Fault Refusal :=
  let s := s.accessCycle who
  .next (writeAct s who Reg.IMG_CTL fun s => imgVerify s sl)

/-- IMAGE_CHECK_DONE (R411): the checks of an image end with a RESULT code. -/
def execImageCheckDone (bad : List (BitVec 22)) (s : State) : Host.Outcome State Fault Refusal :=
  let s := s.eventCycle
  .next (checkDone (storeHit s bad))

/-- IMAGE_ACTIVATE (R418): IMG_CTL.ACTIVATE requests activation of a valid slot at the next boundary. -/
def execImageActivate (who : Requester) (sl : Fin 4) (s : State) : Host.Outcome State Fault Refusal :=
  let s := s.accessCycle who
  .next (writeAct s who Reg.IMG_CTL fun s => imgActivate s sl)

/-- GOLDEN_LOCK (R427): IMG_CTL.GLOCK blows the golden lock fuse, or sets CMDERR. -/
def execGoldenLock (who : Requester) (sl : Fin 4) (s : State) : Host.Outcome State Fault Refusal :=
  let s := s.accessCycle who
  .next (writeAct s who Reg.IMG_CTL fun s => goldenLock s sl)

/-- IMAGE_START (R414): the TX48 restores the journal and starts an image according to STRAP_BOOT. -/
def execImageStart (flash : List Byte) (fail : Bool) (bad : List (BitVec 22)) (s : State) : Host.Outcome State Fault Refusal :=
  let s := s.eventCycle
  .next (imageStart (storeHit s bad) (flash.map BitVec.toNat) fail)

/-- IMAGE_RUN (R419): APPLY completes and the image reaches RUN. -/
def execImageRun (bad : List (BitVec 22)) (s : State) : Host.Outcome State Fault Refusal :=
  let s := s.eventCycle
  .next (imageRun (storeHit s bad))

/-- START_OK (R420): GBL_STARTOK with 0x5A17 marks the start successful and commits a candidate. -/
def execStartOk (who : Requester) (code : BitVec 16) (s : State) : Host.Outcome State Fault Refusal :=
  let s := s.accessCycle who
  .next (writeAct s who Reg.GBL_STARTOK fun s => startOk s code.toNat)

/-- STARTOK_TIMEOUT (R439): 10 s after RUN without GBL_STARTOK sets NOSTARTOK. -/
def execStartokTimeout (s : State) : Host.Outcome State Fault Refusal :=
  let s := s.eventCycle
  .next (startOkTimeout s)

/-- JOURNAL_COMMIT_DONE (R422): a bank or image commit writes its record, or fails. -/
def execJournalCommitDone (ok : Bool) (s : State) : Host.Outcome State Fault Refusal :=
  let s := s.eventCycle
  .next (commitDone s ok)

/-- FUNCTION_LEVEL_RESET (R424): FLR or D3hot resets only the endpoint configuration and MSI-X table. -/
def execFunctionLevelReset (s : State) : Host.Outcome State Fault Refusal :=
  let s := s.eventCycle
  .next (functionReset s)

/-- PERST (R428): PERST_N restarts the PCI Express endpoint and its link. -/
def execPerst (s : State) : Host.Outcome State Fault Refusal :=
  let s := s.eventCycle
  .next (perst s)

/-- MANAGEMENT_LINK_TRAINED (R445): the PCI Express link of the management port trains again after a reset that reached PD04, and the endpoint starts answering accesses. -/
def execManagementLinkTrained (bme : Bool) (msixEn : Bool) (fmask : Bool) (s : State) : Host.Outcome State Fault Refusal :=
  let s := s.eventCycle
  .next (managementUp s bme msixEn fmask)

end Sys2Proof.Machine
end

