-- ==== Sys2Proof/Machine/RowsIrq.lean ====
section
/-! DEFINITION. The meanings of the rows of: Interrupts, mailboxes and MSI-X (R381 to R392, R425). -/
namespace Sys2Proof.Machine

/-- COALESCE_TIMEOUT (R386): a source's TIME runs out and it is presented. -/
def execCoalesceTimeout (c : Fin 32) (id : Fin 160) (s : State) : Host.Outcome State Fault Refusal :=
  let s := s.eventCycle
  .next (coalesceTimeout s c id)

/-- INTERRUPT_CLAIM (R388): a read of IRQ_CLAIM pushes the highest eligible source or returns NONE. -/
def execInterruptClaim (who : Requester) (c : Fin 32) (e : Upset) (s : State) : Host.Outcome State Fault Refusal :=
  let s := s.accessCycle who
  .next (readAct s who (Reg.IRQ_CLAIM c) fun s => irqClaim (stackUpset s c e) c)

/-- END_OF_INTERRUPT (R389): a write of IRQ_EOI pops the stack or reports ORDER. -/
def execEndOfInterrupt (who : Requester) (c : Fin 32) (id : BitVec 8) (e : Upset) (s : State) : Host.Outcome State Fault Refusal :=
  let s := s.accessCycle who
  .next (writeAct s who (Reg.IRQ_EOI c) fun s => irqEoi (stackUpset s c e) c id.toNat)

/-- SOFTWARE_SOURCE_SET (R385): IRQ_SWSET sets software sources of a core. -/
def execSoftwareSourceSet (who : Requester) (c : Fin 32) (mask : BitVec 16) (s : State) : Host.Outcome State Fault Refusal :=
  let s := s.accessCycle who
  .next (writeAct s who (Reg.IRQ_SWSET c) fun s => softSet s c mask.toNat)

/-- SOFTWARE_SOURCE_CLEAR (R385): IRQ_SWCLR clears software sources of a core. -/
def execSoftwareSourceClear (who : Requester) (c : Fin 32) (mask : BitVec 16) (s : State) : Host.Outcome State Fault Refusal :=
  let s := s.accessCycle who
  .next (writeAct s who (Reg.IRQ_SWCLR c) fun s => softClear s c mask.toNat)

/-- MAILBOX_DATA_WRITE (R390): a payload write is stored while FULL is 0, else discarded with COLL. -/
def execMailboxDataWrite (who : Requester) (m : Fin 512) (j : Fin 16) (v : Word) (s : State) : Host.Outcome State Fault Refusal :=
  let s := s.accessCycle who
  .next (writeAct s who (Reg.IRQ_MBDATA m j) fun s => mbWrite (if s.mbFull m then s else mend s (Reg.IRQ_MBDATA m j)) m j v)

/-- MAILBOX_SEND (R390): IRQ_MBSEND with GO marks the mailbox full, or sets COLL. -/
def execMailboxSend (who : Requester) (m : Fin 512) (agent : BitVec 6) (s : State) : Host.Outcome State Fault Refusal :=
  let s := s.accessCycle who
  .next (writeAct s who (Reg.IRQ_MBSEND m) fun s => mbSend s m agent.toNat)

/-- MAILBOX_ACK (R390): IRQ_MBACK with GO clears FULL. -/
def execMailboxAck (who : Requester) (m : Fin 512) (s : State) : Host.Outcome State Fault Refusal :=
  let s := s.accessCycle who
  .next (writeAct s who (Reg.IRQ_MBACK m) fun s => mbAck s m)

/-- MSIX_SPACING_END (R425): 1 us after a message to a vector, merged requests send the next message. -/
def execMsixSpacingEnd (v : Fin 64) (s : State) : Host.Outcome State Fault Refusal :=
  let s := s.eventCycle
  .next (spacingEnd s v)

/-- MSIX_UNMASK (R425): unmasking a vector with its pending bit set sends one message. -/
def execMsixUnmask (who : Requester) (v : Fin 64) (s : State) : Host.Outcome State Fault Refusal :=
  let s := s.accessCycle who
  .next (writeAct s who (Reg.IMG_MSIX_VCTL v) fun s => msixFlush (s.setFld (Reg.IMG_MSIX_VCTL_MASK v) 0) v)

end Sys2Proof.Machine
end

