-- ==== Sys2Proof/Machine/RowsLnk.lean ====
section
/-! DEFINITION. The meanings of the rows of: The lane array: bring-up, losses, taps, tests, display drive (R70 to R90). -/
namespace Sys2Proof.Machine

/-- PLL_LOCK (R74): a lane PLL locks after domain release or a rate change. -/
def execPllLock (n : Fin 48) (s : State) : Host.Outcome State Fault Refusal :=
  let s := s.eventCycle
  .next (pllLock s n)

/-- PLL_LOCK_TIMEOUT (R78): a PLL that does not lock within 2,000 cycles sets PLLERR and retries. -/
def execPllLockTimeout (n : Fin 48) (s : State) : Host.Outcome State Fault Refusal :=
  let s := s.eventCycle
  .next (pllTimeout s n)

/-- CALIBRATION_DONE (R74): impedance and offset calibration ends and the lane enters IDLE. -/
def execCalibrationDone (n : Fin 48) (s : State) : Host.Outcome State Fault Refusal :=
  let s := s.eventCycle
  .next (calDone s n)

/-- CALIBRATION_FAIL (R78): a third consecutive failed calibration puts the lane into FAULT. -/
def execCalibrationFail (n : Fin 48) (s : State) : Host.Outcome State Fault Refusal :=
  let s := s.eventCycle
  .next (calFail s n)

/-- SIGNAL_DETECT (R74): signal detect in IDLE starts CDR acquisition. -/
def execSignalDetect (n : Fin 48) (s : State) : Host.Outcome State Fault Refusal :=
  let s := s.eventCycle
  .next (signalDetect s n)

/-- CDR_LOCK (R74): CDR lock and adaptation complete, the lane is READY and MDR is notified. -/
def execCdrLock (n : Fin 48) (ctle : BitVec 5) (vga : BitVec 5) (dfe : List (BitVec 8)) (s : State) : Host.Outcome State Fault
    Refusal :=
  let s := s.eventCycle
  .next (laneReady s n ctle.toNat vga.toNat (dfe.map BitVec.toNat))

/-- RATE_CHANGE (R75): an MDR rate-change command re-locks the PLL and re-enters ACQ. -/
def execRateChange (n : Fin 48) (s : State) : Host.Outcome State Fault Refusal :=
  let s := s.eventCycle
  .next (lnkRate s n (s.wantedRate n))

/-- LOSS_OF_SIGNAL (R76): amplitude below 65 mV for 1 us in READY returns the lane to ACQ and notifies MDR. -/
def execLossOfSignal (n : Fin 48) (s : State) : Host.Outcome State Fault Refusal :=
  let s := s.eventCycle
  .next (laneLoss s n (Reg.LNK_STAT_LOS n) true)

/-- LOSS_OF_LOCK (R76): the CDR reports loss of lock in READY and the lane returns to ACQ. -/
def execLossOfLock (n : Fin 48) (s : State) : Host.Outcome State Fault Refusal :=
  let s := s.eventCycle
  .next (laneLoss s n (Reg.LNK_STAT_LOL n) false)

/-- CLOCK_GROUP_MEASURE (R71): every 10 us each LREFCLK is compared with REFCLK and LNK_GRPSTAT updated. -/
def execClockGroupMeasure (g : Fin 4) (ppm : BitVec 16) (s : State) : Host.Outcome State Fault Refusal :=
  let s := s.eventCycle
  .next (groupReport s g ppm.toInt)

/-- GROUP_CLOCK_RECOVERY (R72): after 100 us back within limits the group's lanes return through bring-up. -/
def execGroupClockRecovery (g : Fin 4) (s : State) : Host.Outcome State Fault Refusal :=
  let s := s.eventCycle
  .next (groupRecover s g)

/-- LREFCLK_EDGE_TIMEOUT (R72): no LREFCLKn edge arrives for 1 us, so a group clock fault is declared and the group's lanes move to CAL. -/
def execLrefclkEdgeTimeout (g : Fin 4) (s : State) : Host.Outcome State Fault Refusal :=
  let s := s.eventCycle
  .next (groupSilent s g)

/-- TXPRE_WRITE (R81): a write to LNK_TXPRE is held until the next LNK_TXMAIN write. -/
def execTxpreWrite (who : Requester) (n : Fin 48) (v : Word) (s : State) : Host.Outcome State Fault Refusal :=
  let s := s.accessCycle who
  .next (writeAct s who (Reg.LNK_TXPRE n) fun s => txPreWrite s n v)

/-- TXMAIN_WRITE (R81): a write to LNK_TXMAIN combines the held pre-cursors into a tap set, refused if invalid. -/
def execTxmainWrite (who : Requester) (n : Fin 48) (v : Word) (s : State) : Host.Outcome State Fault Refusal :=
  let s := s.accessCycle who
  .next (writeAct s who (Reg.LNK_TXMAIN n) fun s => txMainWrite s n v)

/-- TAP_SET_APPLY (R81): in READY a new tap set applies at the next crossing-frame boundary of the lane. -/
def execTapSetApply (n : Fin 48) (s : State) : Host.Outcome State Fault Refusal :=
  let s := s.eventCycle
  .next (tapApply s n)

/-- READAPT (R82): LNK_CTL.READAPT restarts initial adaptation in place in READY. -/
def execReadapt (who : Requester) (n : Fin 48) (ctle : BitVec 5) (vga : BitVec 5) (dfe : List (BitVec 8)) (s : State) : Host.Outcome
    State Fault Refusal :=
  let s := s.accessCycle who
  .next (writeAct s who (Reg.LNK_CTL n) fun s => readaptDone (lnkCtlWrite s n (s.rd (Reg.LNK_CTL n) ||| 4)) n ctle.toNat
    vga.toNat (dfe.map BitVec.toNat))

/-- EYE_UPDATE (R83): every 10 us in READY the eye monitor updates LNK_EYE. -/
def execEyeUpdate (n : Fin 48) (h : BitVec 8) (w : BitVec 8) (eye : BitVec 2) (snr : BitVec 10) (ctle : BitVec 5) (vga : BitVec 5)
    (dfe : List (BitVec 8)) (s : State) : Host.Outcome State Fault Refusal :=
  let s := s.eventCycle
  .next (eyeUpdate (adaptStep s n ctle.toNat vga.toNat (dfe.map BitVec.toNat)) n h.toNat w.toNat eye.toNat snr.toNat)

/-- TEST_MODE_ENTER (R84): a LNK_TEST write setting LOOP, GEN or CHK moves a Madder lane into TEST. -/
def execTestModeEnter (who : Requester) (n : Fin 48) (v : Word) (s : State) : Host.Outcome State Fault Refusal :=
  let s := s.accessCycle who
  .next (writeAct s who (Reg.LNK_TEST n) fun s => testModeWrite s n v)

/-- TEST_MODE_EXIT (R84): clearing LOOP, GEN and CHK returns the lane to IDLE at 10.3125 Gb/s. -/
def execTestModeExit (who : Requester) (n : Fin 48) (v : Word) (s : State) : Host.Outcome State Fault Refusal :=
  let s := s.accessCycle who
  .next (writeAct s who (Reg.LNK_TEST n) fun s => testModeWrite s n (v &&& ~~~(testBits)))

/-- AC_EXTEST (R86): an IEEE 1149.6 AC EXTEST runs on the lane nets and stops functional data. -/
def execAcExtest (n : Fin 48) (on : Bool) (s : State) : Host.Outcome State Fault Refusal :=
  let s := s.eventCycle
  .next (s.setLane n { s.lane n with extest := on })

/-- DP_DRIVE_WRITE (R88): a LNK_DP write sets swing and pre-emphasis, discarded during SRV link training. -/
def execDpDriveWrite (who : Requester) (n : Fin 48) (v : Word) (s : State) : Host.Outcome State Fault Refusal :=
  let s := s.accessCycle who
  .next (writeAct s who (Reg.LNK_DP n) fun s => if s.dpTraining && s.dpLane n then s else dpWrite s n v)

/-- DP_RATE_RELOCK (R88): a DisplayPort rate change completes its PLL re-lock. -/
def execDpRateRelock (n : Fin 48) (s : State) : Host.Outcome State Fault Refusal :=
  let s := s.eventCycle
  .next (dpRelock s n)

/-- PATTERN_CHECKER_SYNC (R85): the PRBS checker locks to or loses the received pattern, setting or clearing LNK_PRBSCNT.SYNC, which gates error counting. -/
def execPatternCheckerSync (n : Fin 48) (sync : Bool) (errs : Nat) (s : State) : Host.Outcome State Fault Refusal :=
  let s := s.eventCycle
  .next (checkerSync s n sync errs)

end Sys2Proof.Machine
end

