-- ==== Sys2Proof/Machine/RowsMdr.lean ====
section
/-! DEFINITION. The meanings of the rows of: The Madder protocol: locks, frames, negotiation, the control channel (R91 to R122). -/
namespace Sys2Proof.Machine

/-- CODEWORD_LOCK (R92): a receiver gains or drops codeword lock from SYNC and CWSEQ. -/
def execCodewordLock (n : Fin 48) (cws : List Codeword) (s : State) : Host.Outcome State Fault Refusal :=
  let s := s.eventCycle
  .next (lockChange s n true (codewordLockOf cws (s.mlane n).lock))

/-- BLOCK_LOCK (R93): a receiver gains or drops block lock from sync headers. -/
def execBlockLock (n : Fin 48) (hs : List (BitVec 2)) (s : State) : Host.Outcome State Fault Refusal :=
  let s := s.eventCycle
  .next (lockChange s n false (blockLockOf hs (s.mlane n).lock))

/-- FRAME_LAUNCH (R100): a sender launches the crossing frame of a slot, carrying at most one fast command. -/
def execFrameLaunch (n : Fin 48) (s : State) : Host.Outcome State Fault Refusal :=
  let s := s.eventCycle
  .next (frameLaunch s n)

/-- FRAME_RECEIVE (R99): a whole crossing frame is received, checked for failure and handed to ingress or DEC. -/
def execFrameReceive (n : Fin 48) (r : RxFrame) (s : State) : Host.Outcome State Fault Refusal :=
  let s := s.eventCycle
  .next (frameReceive s n (s.rxFrame n r))

/-- FAST_COMMAND_REQUEST (R122): a MDR_FCREQ write requests TESTPULSE or a USER command in a chosen slot. -/
def execFastCommandRequest (who : Requester) (code : BitVec 5) (sl : BitVec 16) (s : State) : Host.Outcome State Fault Refusal :=
  let s := s.accessCycle who
  .next (writeAct s who Reg.MDR_FCREQ fun s => fcreqWrite s (bitsWord [(28, 24, code.toNat), (15, 0, sl.toNat)]))

/-- HELLO_SEND (R107): the lane sends a HELLO message every 10 us, or every 1 ms when ABSENT. -/
def execHelloSend (n : Fin 48) (s : State) : Host.Outcome State Fault Refusal :=
  let s := s.eventCycle
  .next (helloSend s n)

/-- HELLO_RECEIVE (R105): a valid HELLO is taken, identity checked, and a restart of the partner recognised. -/
def execHelloReceive (n : Fin 48) (fs : List (BitVec 256)) (s : State) : Host.Outcome State Fault Refusal :=
  let s := s.eventCycle
  .next (helloReceive s n (s.rxWords n 1 fs))

/-- PROOF_RECEIVE (R111): a PROOF message's tag and epoch are verified. -/
def execProofReceive (n : Fin 48) (fs : List (BitVec 256)) (s : State) : Host.Outcome State Fault Refusal :=
  let s := s.eventCycle
  .next (proofReceive s n (s.rxWords n 2 fs))

/-- COMMIT_RECEIVE (R106): a COMMIT or its echo is received and the chosen mode taken. -/
def execCommitReceive (n : Fin 48) (fs : List (BitVec 256)) (s : State) : Host.Outcome State Fault Refusal :=
  let s := s.eventCycle
  .next (commitReceive s n (s.rxWords n 3 fs))

/-- REJECT_RECEIVE (R105): a REJECT message from the partner is received. -/
def execRejectReceive (n : Fin 48) (fs : List (BitVec 256)) (s : State) : Host.Outcome State Fault Refusal :=
  let s := s.eventCycle
  .next (rejectReceive s n (s.rxWords n 4 fs))

/-- TRAIN_START (R107): 2 us after the last COMMIT or echo the lane changes rate through LNK. -/
def execTrainStart (n : Fin 48) (s : State) : Host.Outcome State Fault Refusal :=
  let s := s.eventCycle
  .next (trainStart s n)

/-- ABSENT_TIMEOUT (R108): 100 ms in HELLO without a valid partner HELLO puts the lane in ABSENT. -/
def execAbsentTimeout (n : Fin 48) (s : State) : Host.Outcome State Fault Refusal :=
  let s := s.eventCycle
  .next (absentTimeout s n)

/-- PROOF_TIMEOUT (R108): 200 us in PROOF is a proof failure and returns to HELLO. -/
def execProofTimeout (n : Fin 48) (s : State) : Host.Outcome State Fault Refusal :=
  let s := s.eventCycle
  .next (proofTimeout s n)

/-- COMMIT_TIMEOUT (R108): 200 us without an echo returns to HELLO. -/
def execCommitTimeout (n : Fin 48) (s : State) : Host.Outcome State Fault Refusal :=
  let s := s.eventCycle
  .next (commitTimeout s n)

/-- TRAIN_TIMEOUT (R108): 4 ms from COMMIT without RUN returns to HELLO and may exclude the rate. -/
def execTrainTimeout (n : Fin 48) (s : State) : Host.Outcome State Fault Refusal :=
  let s := s.eventCycle
  .next (trainTimeout s n)

/-- HOLDOFF_EXPIRY (R108): HOLDOFF ms after FAILED the lane resumes HELLO. -/
def execHoldoffExpiry (n : Fin 48) (s : State) : Host.Outcome State Fault Refusal :=
  let s := s.eventCycle
  .next (holdoffExpiry s n)

/-- QUARANTINE_REJECT (R120): in quarantine a REJECT is sent every 1 ms. -/
def execQuarantineReject (n : Fin 48) (s : State) : Host.Outcome State Fault Refusal :=
  let s := s.eventCycle
  .next (quarReject s n)

/-- RENEGOTIATE (R122): MDR_LCTL.RENEG renegotiates from the next boundary, leaving quarantine and FAILED. -/
def execRenegotiate (who : Requester) (n : Fin 48) (s : State) : Host.Outcome State Fault Refusal :=
  let s := s.accessCycle who
  .next (writeAct s who (Reg.MDR_LCTL n) fun s => s.setFld (Reg.MDR_LCTL_RENEG n) 1)

/-- CONTROL_MESSAGE_RECEIVE (R113): a whole control message is policed, checked, tag-verified and sequenced. -/
def execControlMessageReceive (n : Fin 48) (fs : List (BitVec 256)) (fix : List (EccUnit × Nat)) (s : State) : Host.Outcome State
    Fault Refusal :=
  let s := s.eventCycle
  .next (ccReceive (fixWords s fix) n (readCc (s.fld (Reg.MDR_NEG_VER n)) fs))

/-- REMOTE_WRITE (R114): a remote WRITE message is executed against BAR0 and acknowledged. -/
def execRemoteWrite (n : Fin 48) (s : State) : Host.Outcome State Fault Refusal :=
  let s := s.eventCycle
  .next (remoteWrite s n)

/-- REMOTE_READ (R114): a remote READ message is executed and answered with READRSP. -/
def execRemoteRead (n : Fin 48) (s : State) : Host.Outcome State Fault Refusal :=
  let s := s.eventCycle
  .next (remoteRead s n)

/-- CONTROL_MESSAGE_SEND (R112): a message from the transmit queue is sent in CTRL segments with SEQ and tag. -/
def execControlMessageSend (n : Fin 48) (fix : List (EccUnit × Nat)) (s : State) : Host.Outcome State Fault Refusal :=
  let s := s.eventCycle
  .next (ccSendNext (fixWords s fix) n)

/-- POLICE_TOKEN (R113): the policing bucket gains one token every 1/RATE ms. -/
def execPoliceToken (n : Fin 48) (s : State) : Host.Outcome State Fault Refusal :=
  let s := s.eventCycle
  .next (policeToken s n)

/-- PARTNER_ID_READ (R122): a read of MDR_PID_LO latches MDR_PID_HI. -/
def execPartnerIdRead (who : Requester) (n : Fin 48) (s : State) : Host.Outcome State Fault Refusal :=
  let s := s.accessCycle who
  .next (readAct s who (Reg.MDR_PID_LO n) fun s => pidRead s n)

end Sys2Proof.Machine
end

