-- ==== Sys2Proof/Machine/RowsObj.lean ====
section
/-! DEFINITION. The meanings of the rows of: The object engines, the decision unit and the readout (R176 to R226). -/
namespace Sys2Proof.Machine

/-- ENGINE_OUTPUT_WORD (R189): a pair member emits a candidate or end word that the checker compares with its twin's. -/
def execEngineOutputWord (p : Fin 288) (mb : Bool) (back : Nat) (upset : Option EWord) (uncorr : Bool) (corr : Nat) (s : State) :
    Host.Outcome State Fault Refusal :=
  let s := s.eventCycle
  .next (backwards s back fun x => engineWord s p mb x upset uncorr corr)

/-- CHECKER_TIMEOUT (R189): CHKTO FCLK cycles pass after one member's end word without the other's. -/
def execCheckerTimeout (p : Fin 288) (back : Nat) (s : State) : Host.Outcome State Fault Refusal :=
  let s := s.eventCycle
  .next (backwards s back fun x => checkerTimeout s p x)

/-- REPLAY_VOTE (R64): the spare's words are voted against the members' and the majority goes to the sorter. -/
def execReplayVote (p : Fin 288) (back : Nat) (s : State) : Host.Outcome State Fault Refusal :=
  let s := s.eventCycle
  .next (backwards s back fun x => replayVote s p x)

/-- COLLECT (R186): with every end word in, the collector orders and keeps the first 1,024 candidates. -/
def execCollect (back : Nat) (s : State) : Host.Outcome State Fault Refusal :=
  let s := s.eventCycle
  .next (backwards s back fun x => collect s x)

/-- SORT_DONE (R187): the voted sorter output of class headers and ranked object words is complete. -/
def execSortDone (back : Nat) (dissent : Fin 3) (s : State) : Host.Outcome State Fault Refusal :=
  let s := s.eventCycle
  .next (backwards s back fun x => sortRow s x dissent)

/-- DECISION_EVALUATE (R206): DEC evaluates a crossing into the decision word, trigger record and global accept. -/
def execDecisionEvaluate (back : Nat) (faults : List DecFault) (corr : Nat) (s : State) : Host.Outcome State Fault Refusal :=
  let s := s.eventCycle
  .next (backwards s back fun x => decideRow s x faults corr)

/-- PRESCALE_RESET_REQUEST (R205): DEC_CTL.PSRST resets every prescale accumulator at the next boundary. -/
def execPrescaleResetRequest (who : Requester) (s : State) : Host.Outcome State Fault Refusal :=
  let s := s.accessCycle who
  .next (writeAct s who Reg.DEC_CTL fun s => s.setFld Reg.DEC_CTL_PSRST 1)

/-- FRAGMENT_COPY_DONE (R223): the copy of a fragment ends and the element becomes visible. -/
def execFragmentCopyDone (corr : Nat) (fix : List (EccUnit × Nat)) (s : State) : Host.Outcome State Fault Refusal :=
  let s := s.eventCycle
  .next (copyFragment (fixWords s fix) corr)

/-- RO_CUR_READ (R221): a read of RO_CUR_IDX latches RO_CUR_XID. -/
def execRoCurRead (who : Requester) (s : State) : Host.Outcome State Fault Refusal :=
  let s := s.accessCycle who
  .next (readAct s who Reg.RO_CUR_IDX roCurRead)

end Sys2Proof.Machine
end

