-- ==== Sys2Proof/Machine/RowsPf.lean ====
section
/-! DEFINITION. The meanings of the rows of: Ingress, conditioning and the playfield (R123 to R175). -/
namespace Sys2Proof.Machine

/-- FRAME_MAP_DONE (R127): the mapping of a frame completes, on time or late. -/
def execFrameMapDone (n : Fin 48) (ph : Nat) (corr : Nat) (s : State) : Host.Outcome State Fault Refusal :=
  let s := s.eventCycle
  .next (mapDone s n ph corr)

/-- CONDITION_DONE (R139): CND completes a crossing's conditioned cells and passes them to PF and the ring. -/
def execConditionDone (corr : Nat) (pedBad : List Nat) (s : State) : Host.Outcome State Fault Refusal :=
  let s := s.eventCycle
  .next (conditionRow s corr pedBad)

/-- PEDESTAL_RESET_REQUEST (R148): a write of CND_CTL.PEDRST requests a pedestal reset of a layer. -/
def execPedestalResetRequest (who : Requester) (layers : BitVec 4) (s : State) : Host.Outcome State Fault Refusal :=
  let s := s.accessCycle who
  .next (writeAct s who Reg.CND_CTL fun s => s.setFld Reg.CND_CTL_PEDRST (s.fld Reg.CND_CTL_PEDRST ||| layers.toNat))

/-- ROW_BROADCAST (R168): PF delivers one swept row to the engines, replay buffer, survey and capture units. -/
def execRowBroadcast (taken : Nat) (corr : Nat) (s : State) : Host.Outcome State Fault Refusal :=
  let s := s.eventCycle
  .next (broadcastRow s taken corr)

/-- CAPTURE_ARM (R170): PF_WMCTL.ARM arms a capture unit. -/
def execCaptureArm (who : Requester) (k : Fin 8) (v : Word) (s : State) : Host.Outcome State Fault Refusal :=
  let s := s.accessCycle who
  .next (writeAct s who (Reg.PF_WMCTL k) fun s => wmctlWrite s k (v ||| 0x80000000#32))

/-- REFLATTEN_DONE (R161): the re-flatten of a stale staged Lake layer ends and clears its STALE bit. -/
def execReflattenDone (corr : Nat) (s : State) : Host.Outcome State Fault Refusal :=
  let s := s.eventCycle
  .next (reflattenDone s corr)

/-- LAKE_REWRITE_DONE (R162): the rewrite of a live Lake layer after an uncorrectable cell ends. -/
def execLakeRewriteDone (j : Fin 32) (corr : Nat) (s : State) : Host.Outcome State Fault Refusal :=
  let s := s.eventCycle
  .next (rewriteDone s j corr)

end Sys2Proof.Machine
end

