-- ==== Sys2Proof/Machine/RowsPin.lean ====
section
/-! DEFINITION. The meanings of the rows of: The pin crossbar (R393 to R405). -/
namespace Sys2Proof.Machine

/-- OUTPUT_WRITE (R399): a PIN_OUT write sets a bank's software outputs. -/
def execOutputWrite (who : Requester) (b : Fin 6) (v : Word) (s : State) : Host.Outcome State Fault Refusal :=
  let s := s.accessCycle who
  .next (writeAct s who (Reg.PIN_OUT b) fun s => pinOutWrite s b 3 v)

/-- OUTPUT_SET (R399): PIN_OSET sets output bits. -/
def execOutputSet (who : Requester) (b : Fin 6) (v : Word) (s : State) : Host.Outcome State Fault Refusal :=
  let s := s.accessCycle who
  .next (writeAct s who (Reg.PIN_OSET b) fun s => pinOutWrite s b 0 v)

/-- OUTPUT_CLEAR (R399): PIN_OCLR clears output bits. -/
def execOutputClear (who : Requester) (b : Fin 6) (v : Word) (s : State) : Host.Outcome State Fault Refusal :=
  let s := s.accessCycle who
  .next (writeAct s who (Reg.PIN_OCLR b) fun s => pinOutWrite s b 1 v)

/-- OUTPUT_TOGGLE (R399): PIN_OTGL inverts output bits. -/
def execOutputToggle (who : Requester) (b : Fin 6) (v : Word) (s : State) : Host.Outcome State Fault Refusal :=
  let s := s.accessCycle who
  .next (writeAct s who (Reg.PIN_OTGL b) fun s => pinOutWrite s b 2 v)

/-- PIN_TAKEOVER (R400): setting a PIN_GPOV bit takes the pin over as a software output. -/
def execPinTakeover (who : Requester) (b : Fin 6) (mask : Word) (s : State) : Host.Outcome State Fault Refusal :=
  let s := s.accessCycle who
  .next (writeAct s who (Reg.PIN_GPOV b) fun s => pinGpovWrite s b (s.rd (Reg.PIN_GPOV b) ||| mask))

/-- PIN_HANDBACK (R400): clearing a PIN_GPOV bit hands the pin back to its OSEL. -/
def execPinHandback (who : Requester) (b : Fin 6) (mask : Word) (s : State) : Host.Outcome State Fault Refusal :=
  let s := s.accessCycle who
  .next (writeAct s who (Reg.PIN_GPOV b) fun s => pinGpovWrite s b (s.rd (Reg.PIN_GPOV b) &&& ~~~mask))

/-- PIN_EDGE (R403): an edge of a watched pin counts toward chatter and may end a stuck mask. -/
def execPinEdge (p : Fin 192) (lvl : Bool) (s : State) : Host.Outcome State Fault Refusal :=
  let s := s.eventCycle
  .next (pinEdge s p lvl)

/-- CHATTER_TICK (R403): at each 1 us tick the chatter window and suppression are re-judged. -/
def execChatterTick (s : State) : Host.Outcome State Fault Refusal :=
  let s := s.eventCycle
  .next (if s.up 93 then chatterTick s else s)

/-- STUCK_TIMEOUT (R404): a pin active for STK ms is masked. -/
def execStuckTimeout (p : Fin 192) (s : State) : Host.Outcome State Fault Refusal :=
  let s := s.eventCycle
  .next (stuckTimeout s p)

end Sys2Proof.Machine
end

