-- ==== Sys2Proof/Machine/RowsQm.lean ====
section
/-! DEFINITION. The meanings of the rows of: Queues, DMA channels and DRAM (R227 to R261). -/
namespace Sys2Proof.Machine

/-- QUEUE_PUSH (R234): a write of QM_PUSH submits an element written at TAIL for admission. -/
def execQueuePush (who : Requester) (a : Fin 33) (q : BitVec 14) (fix : List (EccUnit × Nat)) (s : State) : Host.Outcome State Fault
    Refusal :=
  let s := s.accessCycle who
  .next (writeAct s who (Reg.QM_PUSH a) fun s => qmPush (fixWords s fix) a q.toNat)

/-- QUEUE_POP (R234): a write of QM_POP advances HEAD past the consumed element. -/
def execQueuePop (who : Requester) (a : Fin 33) (q : BitVec 14) (fix : List (EccUnit × Nat)) (s : State) : Host.Outcome State Fault
    Refusal :=
  let s := s.accessCycle who
  .next (writeAct s who (Reg.QM_POP a) fun s => qmPop (fixWords s fix) a q.toNat)

/-- QUEUE_RESET (R238): QM_QRESET with GO clears a queue and discards its elements. -/
def execQueueReset (who : Requester) (q : BitVec 14) (s : State) : Host.Outcome State Fault Refusal :=
  let s := s.accessCycle who
  .next (writeAct s who Reg.QM_QRESET fun s => qmReset s q.toNat)

/-- ELEMENT_DELIVERED (R237): an output completes delivery of an element, late or on time. -/
def execElementDelivered (n : Fin 48) (corr : Nat) (s : State) : Host.Outcome State Fault Refusal :=
  let s := s.eventCycle
  .next (laneDeliver s n corr)

/-- DMA_KICK (R244): DMA_CHCTL.KICK re-fetches the current descriptor. -/
def execDmaKick (who : Requester) (ch : Fin 64) (s : State) : Host.Outcome State Fault Refusal :=
  let s := s.accessCycle who
  .next (writeAct s who (Reg.DMA_CHCTL ch) fun s => dmaKick s ch)

/-- DMA_POLL (R244): every POLL cycles an idle channel re-fetches its descriptor. -/
def execDmaPoll (ch : Fin 64) (s : State) : Host.Outcome State Fault Refusal :=
  let s := s.eventCycle
  .next (dmaPoll s ch)

/-- DMA_ENABLE (R250): setting DMA_CHCTL.EN starts the channel at DMA_RING. -/
def execDmaEnable (who : Requester) (ch : Fin 64) (s : State) : Host.Outcome State Fault Refusal :=
  let s := s.accessCycle who
  .next (writeAct s who (Reg.DMA_CHCTL ch) fun s => dmaEnable s ch)

/-- DMA_DISABLE (R250): clearing DMA_CHCTL.EN drops all the channel's work at once. -/
def execDmaDisable (who : Requester) (ch : Fin 64) (s : State) : Host.Outcome State Fault Refusal :=
  let s := s.accessCycle who
  .next (writeAct s who (Reg.DMA_CHCTL ch) fun s => dmaDisable s ch)

/-- DESCRIPTOR_FETCH (R244): a descriptor is read whole and its transfer starts, or the channel idles on OWN = 0. -/
def execDescriptorFetch (ch : Fin 64) (host : List Word) (fix : List (EccUnit × Nat)) (s : State) : Host.Outcome State Fault Refusal
    :=
  let s := s.eventCycle
  .next (descriptorFetch (fixWords s fix) ch (host.map BitVec.toNat))

/-- DMA_ELEMENT_READY (R246): an element arrives for a channel waiting on its queues. -/
def execDmaElementReady (ch : Fin 64) (fix : List (EccUnit × Nat)) (s : State) : Host.Outcome State Fault Refusal :=
  let s := s.eventCycle
  .next (dmaElemReady (fixWords s fix) ch)

/-- DMA_ADMIT_RETRY (R246): a channel in RETRY asks QM again for admission each REFCLK cycle. -/
def execDmaAdmitRetry (ch : Fin 64) (fix : List (EccUnit × Nat)) (s : State) : Host.Outcome State Fault Refusal :=
  let s := s.eventCycle
  .next (dmaRetry (fixWords s fix) ch)

/-- DESCRIPTOR_COMPLETE (R247): a transfer ends and the channel writes back status and OWN. -/
def execDescriptorComplete (ch : Fin 64) (host : List Byte) (fix : List (EccUnit × Nat)) (s : State) : Host.Outcome State Fault
    Refusal :=
  let s := s.eventCycle
  .next (descriptorComplete (fixWords s fix) ch (host.map BitVec.toNat))

/-- BARRIER_DONE (R248): the global-visibility wait of a BAR descriptor completes. -/
def execBarrierDone (ch : Fin 64) (s : State) : Host.Outcome State Fault Refusal :=
  let s := s.eventCycle
  .next (barrierDone s ch)

/-- DMA_ERROR (R249): a failed transfer writes back its CODE and halts the channel. -/
def execDmaError (ch : Fin 64) (dest : Bool) (count : Nat) (host : List Byte) (s : State) : Host.Outcome State Fault Refusal :=
  let s := s.eventCycle
  .next (dmaError s ch dest count (host.map BitVec.toNat))

/-- HOST_READ_TIMEOUT (R249): a host read without completion for 50 ms fails the transfer. -/
def execHostReadTimeout (ch : Fin 64) (count : Nat) (host : List Byte) (s : State) : Host.Outcome State Fault Refusal :=
  let s := s.eventCycle
  .next (hostTimeout s ch count (host.map BitVec.toNat))

/-- DRAM_TRAINING_DONE (R254): a DRAM channel completes training and becomes ready. -/
def execDramTrainingDone (c : Fin 4) (s : State) : Host.Outcome State Fault Refusal :=
  let s := s.eventCycle
  .next (trainingDone s c)

/-- DRAM_TRAINING_FAIL (R254): a third training failure marks the channel failed. -/
def execDramTrainingFail (c : Fin 4) (s : State) : Host.Outcome State Fault Refusal :=
  let s := s.eventCycle
  .next (trainingFail s c)

/-- DRAM_REFRESH (R252): the controller refreshes a bank at its refresh interval. No state that the spec names changes: a client whose access meets it waits (R255). -/
def execDramRefresh (_c : Fin 4) (_bank : Fin 16) (s : State) : Host.Outcome State Fault Refusal :=
  let s := s.eventCycle
  .next s

/-- ZQ_CALIBRATION (R252): every 100 ms a short ZQ calibration runs. No state that the spec names changes: a client whose access meets it waits (R255). -/
def execZqCalibration (_c : Fin 4) (s : State) : Host.Outcome State Fault Refusal :=
  let s := s.eventCycle
  .next s

/-- READ_RECENTER (R255): every 100 ms read re-centering holds the channel for at most 2 us. -/
def execReadRecenter (c : Fin 4) (s : State) : Host.Outcome State Fault Refusal :=
  let s := s.eventCycle
  .next (recenterDone s c)

/-- MEM_RETRAIN (R261): MEM_CTL.RETRAIN re-centres every ready channel. -/
def execMemRetrain (who : Requester) (s : State) : Host.Outcome State Fault Refusal :=
  let s := s.accessCycle who
  .next (writeAct s who Reg.MEM_CTL fun s => memCtlWrite s (s.rd Reg.MEM_CTL ||| 1))

/-- PATROL_SCRUB (R256): the patrol scrubber reads memory in the background and corrects errors. -/
def execPatrolScrub (a : Nat) (corr : Bool) (bad : Bool) (s : State) : Host.Outcome State Fault Refusal :=
  let s := s.eventCycle
  .next (patrol s a corr bad)

end Sys2Proof.Machine
end

