-- ==== Sys2Proof/Machine/RowsRel.lean ====
section
/-! DEFINITION. The meanings of the rows of: The release registers, their slack records and the core supply (R49 to R67). -/
namespace Sys2Proof.Machine

/-- RESULT_ARRIVAL (R51): the release register completes the input handshake for a crossing's word, or discards a late result. -/
def execResultArrival (st : Fin 16) (back : Nat) (ph : Nat) (s : State) : Host.Outcome State Fault Refusal :=
  let s := s.eventCycle
  .next (resultArrival s st back ph)

/-- SENTINEL_READ (R60): a read of REL_SENT[s] latches REL_SENTX[s]. -/
def execSentinelRead (who : Requester) (st : Fin 16) (s : State) : Host.Outcome State Fault Refusal :=
  let s := s.accessCycle who
  .next (readAct s who (Reg.REL_SENT st) fun s => sentRead s st)

/-- SENTINEL_CLEAR (R67): REL_CTL.SMCLR sets every sticky minimum to 0xFFFF. -/
def execSentinelClear (who : Requester) (s : State) : Host.Outcome State Fault Refusal :=
  let s := s.accessCycle who
  .next (writeAct s who Reg.REL_CTL sentClear)

/-- AVS_STATUS_RESPONSE (R62): the Status read after a voltage write completes, or finds no response or an alert. -/
def execAvsStatusResponse (resp : Option (BitVec 16)) (alert : Bool) (s : State) : Host.Outcome State Fault Refusal :=
  let s := s.eventCycle
  .next (if s.up 3 then avsStatus s (resp.map BitVec.toNat) alert else s)

/-- AVS_SETTLE_END (R62): the SETTLE time after a request runs out and further requests are allowed. -/
def execAvsSettleEnd (s : State) : Host.Outcome State Fault Refusal :=
  let s := s.eventCycle
  .next (if s.up 3 then s.setFld Reg.REL_AVSSTAT_BUSY 0 else s)

end Sys2Proof.Machine
end

