-- ==== Sys2Proof/Machine/RowsRst.lean ====
section
/-! DEFINITION. The meanings of the rows of: Resets and power domains (R428 to R446). -/
namespace Sys2Proof.Machine

/-- POWER_ON_RESET (R428): the supply monitor sees the supplies within limits and resets everything. -/
def execPowerOnReset (straps : BitVec 5) (s : State) : Host.Outcome State Fault Refusal :=
  let s := s.eventCycle
  .next (powerOn s straps.toNat)

/-- RESET_PIN (R428): RESET_N low for 1 us resets all domains. -/
def execResetPin (s : State) : Host.Outcome State Fault Refusal :=
  let s := s.eventCycle
  .next (wideReset s 2)

/-- DEVICE_RESET (R428): RST_CMD OP 0b01 resets all domains. -/
def execDeviceReset (who : Requester) (code : BitVec 16) (s : State) : Host.Outcome State Fault Refusal :=
  let s := s.accessCycle who
  .next (writeAct s who Reg.RST_CMD fun s => rstCmd s code.toNat 1)

/-- RESTART_COMMAND (R428): RST_CMD OP 0b10 resets PD05-PD95 and starts an image. -/
def execRestartCommand (who : Requester) (code : BitVec 16) (s : State) : Host.Outcome State Fault Refusal :=
  let s := s.accessCycle who
  .next (writeAct s who Reg.RST_CMD fun s => rstCmd s code.toNat 2)

/-- TRIM_LOAD_DONE (R432): a trim copy is checked and loaded, or both fail and recovery follows. -/
def execTrimLoadDone (aGood : Bool) (bGood : Bool) (s : State) : Host.Outcome State Fault Refusal :=
  let s := s.eventCycle
  .next (trimLoad s aGood bGood)

/-- DOMAIN_RELEASE (R435): the next step of the release order releases its domains. -/
def execDomainRelease (vdet : BitVec 6) (s : State) : Host.Outcome State Fault Refusal :=
  let s := s.eventCycle
  .next (domainRelease s vdet.toNat)

/-- RAIL_TIMEOUT (R437): a rail not at level 2,048 cycles after release keeps the domain isolated. -/
def execRailTimeout (pd : Fin 96) (s : State) : Host.Outcome State Fault Refusal :=
  let s := s.eventCycle
  .next (railTimeout s pd)

/-- DOMAIN_RESET (R441): RST_PDCMD OP 0b01 resets one switchable domain. -/
def execDomainReset (who : Requester) (code : BitVec 16) (pd : BitVec 7) (s : State) : Host.Outcome State Fault Refusal :=
  let s := s.accessCycle who
  .next (writeAct s who Reg.RST_PDCMD fun s => domainCmd s code.toNat 1 pd.toNat)

/-- DOMAIN_OFF (R441): RST_PDCMD OP 0b10 isolates a domain and switches it off. -/
def execDomainOff (who : Requester) (code : BitVec 16) (pd : BitVec 7) (s : State) : Host.Outcome State Fault Refusal :=
  let s := s.accessCycle who
  .next (writeAct s who Reg.RST_PDCMD fun s => domainCmd s code.toNat 2 pd.toNat)

/-- DOMAIN_ON (R441): RST_PDCMD OP 0b11 releases and reloads a domain. -/
def execDomainOn (who : Requester) (code : BitVec 16) (pd : BitVec 7) (s : State) : Host.Outcome State Fault Refusal :=
  let s := s.accessCycle who
  .next (writeAct s who Reg.RST_PDCMD fun s => domainCmd s code.toNat 3 pd.toNat)

/-- DOMAIN_OP_START (R441): a waiting domain operation starts once LOCKED and BUSY are both 0. -/
def execDomainOpStart (vdet : BitVec 6) (s : State) : Host.Outcome State Fault Refusal :=
  let s := s.eventCycle
  .next (domainOpStart s vdet.toNat)

/-- DOMAIN_RELOAD_DONE (R443): a reloaded domain has its sections and bank applied and returns to RUN. -/
def execDomainReloadDone (bad : List (BitVec 22)) (s : State) : Host.Outcome State Fault Refusal :=
  let s := s.eventCycle
  .next (reloadDone (storeHit s bad))

/-- SUPPLY_LOSS (R423): VDDA0, VDDC or VDDM falls below its power-on threshold, the monitor trips and it prevents or completes the journal record write on hold-up. -/
def execSupplyLoss (rail : Fin 3) (begun : Bool) (s : State) : Host.Outcome State Fault Refusal :=
  let s := s.eventCycle
  .next (supplyLoss (if begun then commitDone s true else s) rail)

end Sys2Proof.Machine
end

