-- ==== Sys2Proof/Machine/Float.lean ====
section
/-! DEFINITION. Binary32 arithmetic of full cores (R378, R379): exact results rounded to nearest, ties to even; subnormal values;
every NaN result is 0x7FC0_0000. -/
namespace Sys2Proof.Machine

/-- What a binary32 word holds: the finite value is (-1)^neg * m * 2^e. -/
inductive F32 where
  | nan
  | inf (neg : Bool)
  | fin (neg : Bool) (m : Nat) (e : Int)
deriving DecidableEq, Repr

def f32Of (w : Word) : F32 :=
  let neg := w.msb
  let ex := wField w 30 23
  let fr := wField w 22 0
  if ex = 255 then (if fr = 0 then .inf neg else .nan)
  else if ex = 0 then .fin neg fr (-149)
  else .fin neg (fr + 2 ^ 23) ((ex : Int) - 150)

def f32Nan : Word := 0x7FC00000
def f32Sign (neg : Bool) : Nat := if neg then 2 ^ 31 else 0
def f32Inf (neg : Bool) : Word := BitVec.ofNat 32 (f32Sign neg + 0x7F800000)
def f32Zero (neg : Bool) : Word := BitVec.ofNat 32 (f32Sign neg)

/-- Round (m + a part below 1 that is not 0 when `sticky`) * 2^e to binary32. The exponent field and the fraction are one number, so
a carry out of the fraction steps the exponent. -/
def f32Round (neg : Bool) (m : Nat) (e : Int) (sticky : Bool) : Word :=
  if m = 0 then f32Zero neg
  else
    let len := Nat.log2 m + 1
    let sh : Int := max ((len : Int) - 24) (-149 - e)
    let (q, up) : Nat × Bool :=
      if sh ≤ 0 then (m * 2 ^ (-sh).toNat, false)
      else
        let k := sh.toNat
        let q := m >>> k
        let rest := m % 2 ^ k
        let half := 2 ^ (k - 1)
        (q, decide (half < rest) || (decide (rest = half) && (sticky || decide (q % 2 = 1))))
    let q := if up then q + 1 else q
    let field := if q < 2 ^ 23 then q else (e + sh + 149).toNat * 2 ^ 23 + q
    if 0x7F800000 ≤ field then f32Inf neg else BitVec.ofNat 32 (f32Sign neg + field)

/-- The value of a finite number as an integer multiple of 2^e0, for e0 no larger than its exponent. -/
def f32At (neg : Bool) (m : Nat) (e e0 : Int) : Int :=
  let v : Int := (m * 2 ^ (e - e0).toNat : Nat)
  if neg then -v else v

def f32AddV (x y : F32) : Word :=
  match x, y with
  | .nan, _ => f32Nan
  | _, .nan => f32Nan
  | .inf a, .inf b => if a = b then f32Inf a else f32Nan
  | .inf a, _ => f32Inf a
  | _, .inf b => f32Inf b
  | .fin a m e, .fin b k f =>
    let e0 := min e f
    let v := f32At a m e e0 + f32At b k f e0
    if v = 0 then f32Zero (a && b) else f32Round (decide (v < 0)) v.natAbs e0 false

def f32Neg : F32 → F32
  | .nan => .nan
  | .inf a => .inf !a
  | .fin a m e => .fin (!a) m e

def f32Mul (x y : F32) : Word :=
  match x, y with
  | .nan, _ => f32Nan
  | _, .nan => f32Nan
  | .inf a, .inf b => f32Inf (a != b)
  | .inf a, .fin b m _ => if m = 0 then f32Nan else f32Inf (a != b)
  | .fin a m _, .inf b => if m = 0 then f32Nan else f32Inf (a != b)
  | .fin a m e, .fin b k f => f32Round (a != b) (m * k) (e + f) false

def f32Div (x y : F32) : Word :=
  match x, y with
  | .nan, _ => f32Nan
  | _, .nan => f32Nan
  | .inf _, .inf _ => f32Nan
  | .inf a, .fin b _ _ => f32Inf (a != b)
  | .fin a _ _, .inf b => f32Zero (a != b)
  | .fin a m e, .fin b k f =>
    if k = 0 then (if m = 0 then f32Nan else f32Inf (a != b))
    else f32Round (a != b) (m * 2 ^ 60 / k) (e - f - 60) (decide (m * 2 ^ 60 % k ≠ 0))

def f32Sqrt (x : F32) : Word :=
  match x with
  | .nan => f32Nan
  | .inf a => if a then f32Nan else f32Inf false
  | .fin a m e =>
    if m = 0 then f32Zero a
    else if a then f32Nan
    else
      let odd := decide (e % 2 ≠ 0)
      let n := if odd then m * 2 ^ 61 else m * 2 ^ 60
      let r := isqrtFrom n 44 0
      f32Round false r ((if odd then e - 61 else e - 60) / 2) (decide (r * r ≠ n))

/-- FTOI (R378). -/
def f32ToInt (x : F32) : Word :=
  match x with
  | .nan => 0
  | .inf a => if a then 0x80000000 else 0x7FFFFFFF
  | .fin a m e =>
    let v : Int := if 0 ≤ e then (m * 2 ^ (min e 64).toNat : Nat) else ((m >>> (-e).toNat : Nat) : Int)
    BitVec.ofNat 32 (wrapN 32 (satS 32 (if a then -v else v)))

/-- ITOF (R378). -/
def f32OfInt (w : Word) : Word := f32Round w.msb w.toInt.natAbs 0 false

/-- FCMP (R379): unordered, less, equal. -/
def f32Cmp (x y : F32) : Nzcv :=
  match x, y with
  | .nan, _ => fcmpFlags true false false
  | _, .nan => fcmpFlags true false false
  | .inf a, .inf b => fcmpFlags false (a && !b) (decide (a = b))
  | .inf a, .fin _ _ _ => fcmpFlags false a false
  | .fin _ _ _, .inf b => fcmpFlags false (!b) false
  | .fin a m e, .fin b k f =>
    let e0 := min e f
    let v := f32At a m e e0
    let u := f32At b k f e0
    fcmpFlags false (decide (v < u)) (decide (v = u))

end Sys2Proof.Machine
end

