-- ==== Sys2Proof/Machine/SepAlu.lean ====
section
/-! DEFINITION. Register instructions of the Sepia cores (R366 to R368, R378, R379): integer, multiplier, floating point and
immediate forms, each as a row's meaning. -/
namespace Sys2Proof.Machine

/-! ### T 0x00 (R368) -/

/-- The result of FN. -/
def aluVal (fn : Nat) (a b : Word) : Word :=
  let n := b.toNat % 32
  match fn with
  | 0 => a + b
  | 1 => a - b
  | 2 => a &&& b
  | 3 => a ||| b
  | 4 => a ^^^ b
  | 5 => a &&& ~~~b
  | 6 => a <<< n
  | 7 => a >>> n
  | 8 => sarW a n
  | 9 => a - b
  | 10 => if a.toInt ≤ b.toInt then a else b
  | 11 => if a.toInt ≤ b.toInt then b else a
  | 12 => if a.toNat ≤ b.toNat then a else b
  | _ => if a.toNat ≤ b.toNat then b else a

/-- The flags that FN sets with S = 1, and CMP always (R367). -/
def aluFlags (fn : Nat) (f : Nzcv) (a b : Word) : Nzcv :=
  match fn with
  | 0 => addFlags a b
  | 1 => subFlags a b
  | 9 => subFlags a b
  | 6 => shiftFlags f 0 a (aluVal 6 a b) (b.toNat % 32)
  | 7 => shiftFlags f 1 a (aluVal 7 a b) (b.toNat % 32)
  | 8 => shiftFlags f 2 a (aluVal 8 a b) (b.toNat % 32)
  | fn => nzOf f (aluVal fn a b)

/-- FN overflows: ADD and SUB alone raise the exception (R368). -/
def aluOverflow (fn : Nat) (a b : Word) : Bool :=
  match fn with
  | 0 => addOverflow a b
  | 1 => subOverflow a b
  | _ => false

/-- A T 0x00 instruction. CMP writes flags alone. An overflow exception leaves destination and flags unchanged. -/
def aluBody (c t fn rd ra rb : Nat) (sf : Bool) : Body := fun s =>
  let x := s.thr c t
  let a := x.use ra
  let b := x.use rb
  if aluOverflow fn a b && swBit x.sw 29 then Res.fault s c t 8 0
  else
    let s := if fn = 9 then s else s.setG c t rd (aluVal fn a b)
    .done (if sf || decide (fn = 9) then s.setNzcv c t (aluFlags fn (flagsOf x.sw) a b) else s) none

/-- The row of FN of T 0x00. -/
def aluRow (c t fn : Nat) (s : State) : State :=
  issue s c t fun i => match i with
    | .alu fn' rd ra rb sf => if fn' = fn then some (aluBody c t fn rd ra rb sf) else none
    | _ => none

/-! ### T 0x02 (R368) -/

/-- The 64-bit product that MUL or MULU makes. -/
def mulProduct (signed : Bool) (a b : Word) : Nat :=
  if signed then wrapN 64 (a.toInt * b.toInt) else a.toNat * b.toNat

/-- MUL and MULU: the product reaches ML and MH at distance 3 (R339). -/
def mulBody (c t fn ra rb : Nat) : Body := fun s =>
  let x := s.thr c t
  let p := mulProduct (decide (fn = 0)) (x.use ra) (x.use rb)
  .done (s.setThr c t { x with
    mul := x.mul ++ [(3, some (BitVec.ofNat 32 p), some (BitVec.ofNat 32 (p / 2 ^ 32)))] }) none

/-- DIV, DIVU and SQRT. -/
def divVal (fn : Nat) (a b : Word) : Word :=
  match fn with
  | 2 => if b = 0 then 0xFFFFFFFF else BitVec.ofNat 32 (wrapN 32 (Int.tdiv a.toInt b.toInt))
  | 3 => if b = 0 then 0xFFFFFFFF else BitVec.ofNat 32 (a.toNat / b.toNat)
  | _ => BitVec.ofNat 32 (isqrt a.toNat)

/-- DIV, DIVU, SQRT begin. -/
def divBody (c t fn rd ra rb : Nat) : Body := fun s =>
  let x := s.thr c t
  let a := x.use ra
  let b := x.use rb
  longStart s c t rd
    (if decide (fn ≠ 4) && decide (b = 0) && swBit x.sw 28 then .divZero else .value (divVal fn a b)) .none

/-- The row of FN of T 0x02. -/
def mulRow (c t fn : Nat) (s : State) : State :=
  issue s c t fun i => match i with
    | .mul fn' rd ra rb => if fn' = fn then some (if fn ≤ 1 then mulBody c t fn ra rb else divBody c t fn rd ra rb) else none
    | _ => none

/-! ### T 0x01 (R378, R379) -/

/-- The result of a floating-point FN. -/
def fpVal (fn : Nat) (a b : Word) : Word :=
  match fn with
  | 0 => f32AddV (f32Of a) (f32Of b)
  | 1 => f32AddV (f32Of a) (f32Neg (f32Of b))
  | 2 => f32Mul (f32Of a) (f32Of b)
  | 3 => f32Div (f32Of a) (f32Of b)
  | 4 => f32Sqrt (f32Of a)
  | 6 => f32ToInt (f32Of a)
  | _ => f32OfInt a

/-- A floating-point instruction of a full core. -/
def fpBody (c t fn rd ra rb : Nat) : Body := fun s =>
  let x := s.thr c t
  let a := x.use ra
  let b := x.use rb
  if fn = 5 then .done (s.setNzcv c t (f32Cmp (f32Of a) (f32Of b))) none
  else if fn = 3 ∨ fn = 4 then longStart s c t rd (.value (fpVal fn a b)) .none
  else .done (s.setG c t rd (fpVal fn a b)) none

/-- The row of FN of T 0x01. -/
def fpRow (c t fn : Nat) (s : State) : State :=
  issue s c t fun i => match i with
    | .fp fn' rd ra rb => if fn' = fn then some (fpBody c t fn rd ra rb) else none
    | _ => none

/-! ### I 0x04 to 0x0A (R368) -/

/-- A shift of SHI: kind 0 left, 1 logical right, 2 arithmetic right. -/
def shiVal (a : Word) (i : Nat) : Word :=
  let n := i % 32
  match bitsOf i 6 5 with
  | 0 => a <<< n
  | 1 => a >>> n
  | _ => sarW a n

/-- The result of an immediate form. -/
def immVal (op : Nat) (a : Word) (i : Nat) : Word :=
  match op with
  | 0x04 => a + sextW 18 i
  | 0x05 => a &&& BitVec.ofNat 32 i
  | 0x06 => a ||| BitVec.ofNat 32 i
  | 0x07 => a ^^^ BitVec.ofNat 32 i
  | 0x09 => BitVec.ofNat 32 (i % 65536 * 65536)
  | _ => shiVal a i

/-- An immediate form. -/
def immBody (c t op rd ra i : Nat) : Body := fun s =>
  let x := s.thr c t
  let a := x.use ra
  if op = 4 ∧ addOverflow a (sextW 18 i) = true ∧ swBit x.sw 29 = true then Res.fault s c t 8 0
  else if op = 8 then .done (s.setNzcv c t (subFlags a (sextW 18 i))) none
  else .done (s.setG c t rd (immVal op a i)) none

/-- The row of an immediate form. -/
def immRow (c t op : Nat) (s : State) : State :=
  issue s c t fun i => match i with
    | .imm op' rd ra k => if op' = op then some (immBody c t op rd ra k) else none
    | _ => none

end Sys2Proof.Machine
end

