-- ==== Sys2Proof/Machine/RowsSepAlu.lean ====
section
/-! DEFINITION. The meanings of the rows of: Sepia register instructions (R366 to R368, R378, R379). -/
namespace Sys2Proof.Machine

/-- ADD (R368): rd := ra + rb. -/
def execOpAdd (c : Fin 32) (t : Fin 4) (s : State) : Host.Outcome State Fault Refusal :=
  .next (aluRow c t 0 s)

/-- SUB (R368): rd := ra - rb. -/
def execOpSub (c : Fin 32) (t : Fin 4) (s : State) : Host.Outcome State Fault Refusal :=
  .next (aluRow c t 1 s)

/-- AND (R368): rd := ra and rb. -/
def execOpAnd (c : Fin 32) (t : Fin 4) (s : State) : Host.Outcome State Fault Refusal :=
  .next (aluRow c t 2 s)

/-- OR (R368): rd := ra or rb. -/
def execOpOr (c : Fin 32) (t : Fin 4) (s : State) : Host.Outcome State Fault Refusal :=
  .next (aluRow c t 3 s)

/-- XOR (R368): rd := ra xor rb. -/
def execOpXor (c : Fin 32) (t : Fin 4) (s : State) : Host.Outcome State Fault Refusal :=
  .next (aluRow c t 4 s)

/-- ANDN (R368): rd := ra and not rb. -/
def execOpAndn (c : Fin 32) (t : Fin 4) (s : State) : Host.Outcome State Fault Refusal :=
  .next (aluRow c t 5 s)

/-- SHL (R368): shifts ra left by rb[4:0]. -/
def execOpShl (c : Fin 32) (t : Fin 4) (s : State) : Host.Outcome State Fault Refusal :=
  .next (aluRow c t 6 s)

/-- SHR (R368): shifts ra logically right by rb[4:0]. -/
def execOpShr (c : Fin 32) (t : Fin 4) (s : State) : Host.Outcome State Fault Refusal :=
  .next (aluRow c t 7 s)

/-- SAR (R368): shifts ra arithmetically right by rb[4:0]. -/
def execOpSar (c : Fin 32) (t : Fin 4) (s : State) : Host.Outcome State Fault Refusal :=
  .next (aluRow c t 8 s)

/-- CMP (R368): sets the flags of ra - rb. -/
def execOpCmp (c : Fin 32) (t : Fin 4) (s : State) : Host.Outcome State Fault Refusal :=
  .next (aluRow c t 9 s)

/-- MIN (R368): rd := signed minimum of ra and rb. -/
def execOpMin (c : Fin 32) (t : Fin 4) (s : State) : Host.Outcome State Fault Refusal :=
  .next (aluRow c t 10 s)

/-- MAX (R368): rd := signed maximum of ra and rb. -/
def execOpMax (c : Fin 32) (t : Fin 4) (s : State) : Host.Outcome State Fault Refusal :=
  .next (aluRow c t 11 s)

/-- MINU (R368): rd := unsigned minimum of ra and rb. -/
def execOpMinu (c : Fin 32) (t : Fin 4) (s : State) : Host.Outcome State Fault Refusal :=
  .next (aluRow c t 12 s)

/-- MAXU (R368): rd := unsigned maximum of ra and rb. -/
def execOpMaxu (c : Fin 32) (t : Fin 4) (s : State) : Host.Outcome State Fault Refusal :=
  .next (aluRow c t 13 s)

/-- MUL (R368): (MH, ML) := signed 64-bit product of ra and rb. -/
def execOpMul (c : Fin 32) (t : Fin 4) (s : State) : Host.Outcome State Fault Refusal :=
  .next (mulRow c t 0 s)

/-- MULU (R368): (MH, ML) := unsigned 64-bit product of ra and rb. -/
def execOpMulu (c : Fin 32) (t : Fin 4) (s : State) : Host.Outcome State Fault Refusal :=
  .next (mulRow c t 1 s)

/-- DIV (R368): starts a signed divide as a long operation. -/
def execOpDiv (c : Fin 32) (t : Fin 4) (s : State) : Host.Outcome State Fault Refusal :=
  .next (mulRow c t 2 s)

/-- DIVU (R368): starts an unsigned divide as a long operation. -/
def execOpDivu (c : Fin 32) (t : Fin 4) (s : State) : Host.Outcome State Fault Refusal :=
  .next (mulRow c t 3 s)

/-- SQRT (R368): starts an integer square root as a long operation. -/
def execOpSqrt (c : Fin 32) (t : Fin 4) (s : State) : Host.Outcome State Fault Refusal :=
  .next (mulRow c t 4 s)

/-- FADD (R378): rd := ra + rb in binary32 on a full core. -/
def execOpFadd (c : Fin 32) (t : Fin 4) (s : State) : Host.Outcome State Fault Refusal :=
  .next (fpRow c t 0 s)

/-- FSUB (R378): rd := ra - rb in binary32 on a full core. -/
def execOpFsub (c : Fin 32) (t : Fin 4) (s : State) : Host.Outcome State Fault Refusal :=
  .next (fpRow c t 1 s)

/-- FMUL (R378): rd := ra x rb in binary32 on a full core. -/
def execOpFmul (c : Fin 32) (t : Fin 4) (s : State) : Host.Outcome State Fault Refusal :=
  .next (fpRow c t 2 s)

/-- FDIV (R378): starts a binary32 divide as a long operation. -/
def execOpFdiv (c : Fin 32) (t : Fin 4) (s : State) : Host.Outcome State Fault Refusal :=
  .next (fpRow c t 3 s)

/-- FSQRT (R378): starts a binary32 square root as a long operation. -/
def execOpFsqrt (c : Fin 32) (t : Fin 4) (s : State) : Host.Outcome State Fault Refusal :=
  .next (fpRow c t 4 s)

/-- FCMP (R379): sets the flags from a binary32 comparison. -/
def execOpFcmp (c : Fin 32) (t : Fin 4) (s : State) : Host.Outcome State Fault Refusal :=
  .next (fpRow c t 5 s)

/-- FTOI (R378): converts binary32 to a saturated signed integer. -/
def execOpFtoi (c : Fin 32) (t : Fin 4) (s : State) : Host.Outcome State Fault Refusal :=
  .next (fpRow c t 6 s)

/-- ITOF (R378): converts a signed integer to binary32. -/
def execOpItof (c : Fin 32) (t : Fin 4) (s : State) : Host.Outcome State Fault Refusal :=
  .next (fpRow c t 7 s)

/-- ADDI (R368): rd := ra + sign-extended immediate. -/
def execOpAddi (c : Fin 32) (t : Fin 4) (s : State) : Host.Outcome State Fault Refusal :=
  .next (immRow c t 4 s)

/-- ANDI (R368): rd := ra and zero-extended immediate. -/
def execOpAndi (c : Fin 32) (t : Fin 4) (s : State) : Host.Outcome State Fault Refusal :=
  .next (immRow c t 5 s)

/-- ORI (R368): rd := ra or zero-extended immediate. -/
def execOpOri (c : Fin 32) (t : Fin 4) (s : State) : Host.Outcome State Fault Refusal :=
  .next (immRow c t 6 s)

/-- XORI (R368): rd := ra xor zero-extended immediate. -/
def execOpXori (c : Fin 32) (t : Fin 4) (s : State) : Host.Outcome State Fault Refusal :=
  .next (immRow c t 7 s)

/-- CMPI (R368): sets the flags of ra - immediate. -/
def execOpCmpi (c : Fin 32) (t : Fin 4) (s : State) : Host.Outcome State Fault Refusal :=
  .next (immRow c t 8 s)

/-- LUI (R368): rd := immediate shifted left 16. -/
def execOpLui (c : Fin 32) (t : Fin 4) (s : State) : Host.Outcome State Fault Refusal :=
  .next (immRow c t 9 s)

/-- SHI (R368): shifts ra by an immediate count in the selected direction. -/
def execOpShi (c : Fin 32) (t : Fin 4) (s : State) : Host.Outcome State Fault Refusal :=
  .next (immRow c t 10 s)

end Sys2Proof.Machine
end

