-- ==== Sys2Proof/Machine/RowsSepFlow.lean ====
section
/-! DEFINITION. The meanings of the rows of: Sepia branches, calls and returns (R354, R367 to R370). -/
namespace Sys2Proof.Machine

/-- B (R367): branches when COND holds on the flags. -/
def execOpB (c : Fin 32) (t : Fin 4) (s : State) : Host.Outcome State Fault Refusal :=
  .next (issue s c t fun i => match i with
    | .br cond d => some (branchBody c t cond d)
    | _ => none)

/-- J (R368): jumps by a word displacement. -/
def execOpJ (c : Fin 32) (t : Fin 4) (s : State) : Host.Outcome State Fault Refusal :=
  .next (issue s c t fun i => match i with
    | .jmp d => some (jumpBody c t d)
    | _ => none)

/-- JR (R368): jumps to the address in ra. -/
def execOpJr (c : Fin 32) (t : Fin 4) (s : State) : Host.Outcome State Fault Refusal :=
  .next (issue s c t fun i => match i with
    | .jr ra => some (jumpRegBody c t ra)
    | _ => none)

/-- CALL (R369): pushes the return address and jumps, on full cores. -/
def execOpCall (c : Fin 32) (t : Fin 4) (s : State) : Host.Outcome State Fault Refusal :=
  .next (issue s c t fun i => match i with
    | .call d => some (callBody c t fun x => dispTo x.pc 26 d)
    | _ => none)

/-- CALLR (R369): as CALL with the target in ra. -/
def execOpCallr (c : Fin 32) (t : Fin 4) (s : State) : Host.Outcome State Fault Refusal :=
  .next (issue s c t fun i => match i with
    | .callr ra => some (callBody c t fun x => x.use ra)
    | _ => none)

/-- RET (R369): pops the return address into PC. -/
def execOpRet (c : Fin 32) (t : Fin 4) (e : Upset) (s : State) : Host.Outcome State Fault Refusal :=
  .next (issue s c t fun i => match i with
    | .ret => some (retBody c t e)
    | _ => none)

/-- CALLM (R370): saves the masked registers and return address and jumps to ra. -/
def execOpCallm (c : Fin 32) (t : Fin 4) (s : State) : Host.Outcome State Fault Refusal :=
  .next (issue s c t fun i => match i with
    | .callm ra mask => some (callmBody c t ra mask)
    | _ => none)

/-- RETM (R370): restores the masked registers and returns. -/
def execOpRetm (c : Fin 32) (t : Fin 4) (e : Upset) (s : State) : Host.Outcome State Fault Refusal :=
  .next (issue s c t fun i => match i with
    | .retm mask => some (retmBody c t mask e)
    | _ => none)

/-- RETX (R354): returns from an exception using the privilege shadow, or from escalation. -/
def execOpRetx (c : Fin 32) (t : Fin 4) (e : Upset) (s : State) : Host.Outcome State Fault Refusal :=
  .next (issue s c t fun i => match i with
    | .retx => some (retxBody c t e)
    | _ => none)

end Sys2Proof.Machine
end

