-- ==== Sys2Proof/Machine/SepMem.lean ====
section
/-! DEFINITION. Loads, stores, instruction-space and I/O accesses of the Sepia cores (R341 to R348, R352, R357, R368, R371). -/
namespace Sys2Proof.Machine

/-! ### Loads and stores -/

/-- The stack window holds the access when the base register is g15 (R352). -/
def Thread.windowFor (x : Thread) (ra a n : Nat) : Bool := decide (ra ≠ 15) || x.window a n

/-- The bytes of a DRAM load as they stand when it issues: forwarded, or as memory holds them after any overlapping store has
drained (R342). -/
def longBytes (s : State) (c t a n : Nat) : State × Option Nat :=
  match (s.thr c t).forward a n with
  | some (some v) => (s, some v)
  | some none => (drainAll s c t, none)
  | none => (s, none)

/-- A load from the DRAM window: a long operation (R345, R371); rights are judged with the status word at issue, a fault is detected
when it retires (R346, log 35). -/
def longLoad (s : State) (c t rd a n : Nat) (signed : Bool) (e : Upset) : Res :=
  let r := longBytes s c t a n
  match r.2 with
  | some v => longStart r.1 c t rd
      (if rightsOk c (s.thr c t).sw a n then .value (loadValue n signed v) else .load a n signed false 0) e
  | none => longStart r.1 c t rd
      (.load a n signed (rightsOk c (s.thr c t).sw a n) (leNat (memBytes r.1.dram.mem (a - 0x40000000) n))) e

/-- LD, LDH, LDHU, LDB, LDBU (R368). -/
def loadBody (c t op rd ra i : Nat) (e : Upset) : Body := fun s =>
  let x := s.thr c t
  let aw := x.addrOf ra i
  let a := aw.toNat
  let n := (loadKind op).1
  let sg := (loadKind op).2
  if !(x.windowFor ra a n) then Res.fault s c t 6 aw
  else if inDram a then longLoad s c t rd a n sg e
  else
    let k := dataCheck s c x.sw a n
    if !k.2 then Res.fault k.1 c t 4 aw
    else
      let r := dataRead k.1 c t a n e
      match r.2 with
      | none => Res.fault r.1 c t 4 aw
      | some v => loadDone r.1 c t rd (loadValue n sg v)

/-- The row of a load. -/
def loadRow (c t op : Nat) (e : Upset) (s : State) : State :=
  issue s c t fun i => match i with
    | .imm op' rd ra k => if op' = op then some (loadBody c t op rd ra k e) else none
    | _ => none

/-- ST, STH, STB (R342, R344, R368). -/
def storeBody (c t n rd ra i : Nat) : Body := fun s =>
  let x := s.thr c t
  let aw := x.addrOf ra i
  if !(x.windowFor ra aw.toNat n) then Res.fault s c t 6 aw
  else
    let k := dataCheck s c x.sw aw.toNat n
    if !k.2 then Res.fault k.1 c t 4 aw
    else .done (storePush k.1 c t aw.toNat n (x.use rd).toNat) none

/-- The row of a store. -/
def storeRow (c t op n : Nat) (s : State) : State :=
  issue s c t fun i => match i with
    | .imm op' rd ra k => if op' = op then some (storeBody c t n rd ra k) else none
    | _ => none

/-! ### Instruction space (R341, R344, R347) -/

/-- LDI. -/
def ldiBody (c t rd ra i : Nat) (e : Upset) : Body := fun s =>
  let aw := (s.thr c t).addrOf ra i
  let s := match imemKey c aw.toNat with
    | some k => if aw.toNat % 4 = 0 then sepUpset s c k 4 e else s
    | none => s
  let r := iRead s c aw.toNat
  match r.2 with
  | none => Res.fault r.1 c t 3 aw
  | some v => loadDone r.1 c t rd v

/-- STI: private instruction memory alone is writable; the access fault comes before the privilege (R351). -/
def stiBody (c t rd ra i : Nat) : Body := fun s =>
  let x := s.thr c t
  let aw := x.addrOf ra i
  match imemKey c aw.toNat with
  | none => Res.fault s c t 3 aw
  | some k =>
    if aw.toNat % 4 ≠ 0 ∨ 0x100000 ≤ aw.toNat then Res.fault s c t 3 aw
    else if s.user c t then Res.fault s c t 2 0
    else .done (sepStore s k (wordBytes (x.use rd).toNat)) none

/-! ### I/O space (R343, R347, R357) -/

/-- Word `i` of a thread's private I/O: cause, address of the instruction, address of the access, saved g15. -/
def Thread.ioWord (x : Thread) : Nat → Word
  | 0 => x.fcause
  | 1 => x.fpc
  | 2 => x.faddr
  | 3 => x.xg15
  | _ => 0

/-- A write of word `i` of a thread's private I/O. -/
def Thread.ioPut (x : Thread) (i : Nat) (v : Word) : Thread :=
  match i with
  | 0 => { x with fcause := v &&& 0xC00007FF#32 }
  | 1 => { x with fpc := v }
  | 2 => { x with faddr := v }
  | 3 => { x with xg15 := v }
  | _ => x

/-- A read of I/O address `a`: none where it is an I/O access fault. -/
def ioRead (s : State) (c a : Nat) : State × Option Word :=
  if a % 4 ≠ 0 then (s, none)
  else if a < 0x4000000 then
    let r := busRead s a
    (r.2.2, if r.2.1 then none else some r.1)
  else if a < 0x4000080 then (s, some ((s.thr c (a % 0x80 / 0x20)).ioWord (a % 0x20 / 4)))
  else (s, none)

/-- A write of I/O address `a`: true where it is an I/O access fault. -/
def ioWrite (s : State) (c a : Nat) (v : Word) : State × Bool :=
  if a % 4 ≠ 0 then (s, true)
  else if a < 0x4000000 then
    let r := busWrite s a v
    (r.2, r.1)
  else if a < 0x4000080 then
    let u := a % 0x80 / 0x20
    (s.setThr c u ((s.thr c u).ioPut (a % 0x20 / 4) v), false)
  else (s, true)

/-- IN. -/
def inBody (c t rd ra i : Nat) : Body := fun s =>
  let aw := (s.thr c t).addrOf ra i
  if s.user c t then Res.fault s c t 2 0
  else
    let r := ioRead (drainAll s c t) c aw.toNat
    match r.2 with
    | none => Res.fault r.1 c t 5 aw
    | some v => .done (if (r.1.thr c t).state = .running then r.1.setG c t rd v else r.1) none

/-- OUT. -/
def outBody (c t rd ra i : Nat) : Body := fun s =>
  let x := s.thr c t
  let aw := x.addrOf ra i
  if s.user c t then Res.fault s c t 2 0
  else
    let r := ioWrite (drainAll s c t) c aw.toNat (x.use rd)
    if r.2 then Res.fault r.1 c t 5 aw else .done r.1 none

/-- The row of an I-format access with body `f`. -/
def accessRow (c t op : Nat) (f : Nat → Nat → Nat → Body) (s : State) : State :=
  issue s c t fun i => match i with
    | .imm op' rd ra k => if op' = op then some (f rd ra k) else none
    | _ => none

end Sys2Proof.Machine
end

