-- ==== Sys2Proof/Machine/RowsSepMem.lean ====
section
/-! DEFINITION. The meanings of the rows of: Sepia loads, stores and accesses to instruction and I/O space (R341 to R348, R371). -/
namespace Sys2Proof.Machine

/-- LD (R368): loads a data word, as a long operation in the DRAM window. -/
def execOpLd (c : Fin 32) (t : Fin 4) (e : Upset) (s : State) : Host.Outcome State Fault Refusal :=
  .next (loadRow c t 16 e s)

/-- LDH (R368): loads a sign-extended half-word. -/
def execOpLdh (c : Fin 32) (t : Fin 4) (e : Upset) (s : State) : Host.Outcome State Fault Refusal :=
  .next (loadRow c t 17 e s)

/-- LDHU (R368): loads a zero-extended half-word. -/
def execOpLdhu (c : Fin 32) (t : Fin 4) (e : Upset) (s : State) : Host.Outcome State Fault Refusal :=
  .next (loadRow c t 18 e s)

/-- LDB (R368): loads a sign-extended byte. -/
def execOpLdb (c : Fin 32) (t : Fin 4) (e : Upset) (s : State) : Host.Outcome State Fault Refusal :=
  .next (loadRow c t 19 e s)

/-- LDBU (R368): loads a zero-extended byte. -/
def execOpLdbu (c : Fin 32) (t : Fin 4) (e : Upset) (s : State) : Host.Outcome State Fault Refusal :=
  .next (loadRow c t 20 e s)

/-- ST (R342): stores a word through the store buffer. -/
def execOpSt (c : Fin 32) (t : Fin 4) (s : State) : Host.Outcome State Fault Refusal :=
  .next (storeRow c t 24 4 s)

/-- STH (R342): stores a half-word through the store buffer. -/
def execOpSth (c : Fin 32) (t : Fin 4) (s : State) : Host.Outcome State Fault Refusal :=
  .next (storeRow c t 25 2 s)

/-- STB (R342): stores a byte through the store buffer. -/
def execOpStb (c : Fin 32) (t : Fin 4) (s : State) : Host.Outcome State Fault Refusal :=
  .next (storeRow c t 26 1 s)

/-- LDI (R371): loads a word from instruction space. -/
def execOpLdi (c : Fin 32) (t : Fin 4) (e : Upset) (s : State) : Host.Outcome State Fault Refusal :=
  .next (accessRow c t 28 (fun rd ra i => ldiBody c t rd ra i e) s)

/-- STI (R341): writes a word directly to instruction memory. -/
def execOpSti (c : Fin 32) (t : Fin 4) (s : State) : Host.Outcome State Fault Refusal :=
  .next (accessRow c t 29 (stiBody c t) s)

/-- IN (R343): reads an I/O register after the store buffer drains. -/
def execOpIn (c : Fin 32) (t : Fin 4) (s : State) : Host.Outcome State Fault Refusal :=
  let s := s.accessCycle (.core c t)
  .next (accessRow c t 30 (inBody c t) s)

/-- OUT (R343): writes an I/O register after the store buffer drains. -/
def execOpOut (c : Fin 32) (t : Fin 4) (s : State) : Host.Outcome State Fault Refusal :=
  let s := s.accessCycle (.core c t)
  .next (accessRow c t 31 (outBody c t) s)

end Sys2Proof.Machine
end

