-- ==== Sys2Proof/Machine/SepSys.lean ====
section
/-! DEFINITION. System instructions of the Sepia cores: special registers (R350, R366, R380), events and timed waits (R372 to
R374), barriers and breaks (R340, R343, R359), strings and repeat pairs (R375 to R377). -/
namespace Sys2Proof.Machine

/-! ### Special registers (R350, R366) -/

/-- Special register `k` as MFS reads it. -/
def State.sreg (s : State) (c t k : Nat) : Word :=
  let x := s.thr c t
  match k with
  | 0 => x.sw
  | 1 => x.epc
  | 2 => x.esw
  | 3 => x.xsp
  | 4 => x.splo
  | 5 => x.sphi
  | 6 => x.ml
  | 7 => x.mh
  | 8 => BitVec.ofNat 32 (s.evt c t)
  | 9 => x.vbr
  | _ => tidOf c t

/-- User mode may read SW, ML, MH, EVT and TID, and write ML and MH. -/
def userReads (k : Nat) : Bool := [0, 6, 7, 8, 10].contains k

def userWrites (k : Nat) : Bool := decide (k = 6 ∨ k = 7)

/-- MFS. -/
def mfsBody (c t rd k : Nat) : Body := fun s =>
  if s.user c t && !(userReads k) then Res.fault s c t 2 0 else .done (s.setG c t rd (s.sreg c t k)) none

/-- The thread after MTS of `v` to special register `k`; a product on its way to ML or MH loses that half (R380). -/
def Thread.putSreg (x : Thread) (k : Nat) (v : Word) : Thread :=
  match k with
  | 0 => { x with sw := if swPriv x.sw = 3 then swSetPriv (swMask v) 3 else swMask v }
  | 1 => { x with epc := v }
  | 2 => { x with esw := eswOf v }
  | 3 => { x with xsp := v }
  | 4 => { x with splo := v }
  | 5 => { x with sphi := v }
  | 6 => { x with ml := v, mul := x.mul.map fun m => (m.1, none, m.2.2) }
  | 7 => { x with mh := v, mul := x.mul.map fun m => (m.1, m.2.1, none) }
  | 8 => { x with ev := v.toNat % 256 }
  | 9 => { x with vbr := v }
  | _ => x

/-- MTS: in supervisor mode a PRIV of 0b1x for SW is an illegal instruction. One that sets PRECISE waits for the long operations before it,
whose exceptions are imprecise still (R345, log 35). -/
def mtsBody (c t k ra : Nat) : Body := fun s =>
  let x := s.thr c t
  let v := x.use ra
  if k = 0 ∧ swPriv x.sw = 1 ∧ 2 ≤ swPriv v then Res.fault s c t 1 0
  else if s.user c t && !(userWrites k) then Res.fault s c t 2 0
  else if k = 0 ∧ swBit v 31 = true ∧ x.longs ≠ [] then .wait
  else .done (s.setThr c t (x.putSreg k v)) none

/-! ### Events and timed waits -/

/-- The masked event bits are cleared (R372). -/
def Thread.clearEv (x : Thread) (mask : Nat) : Thread := { x with ev := x.ev - (x.ev &&& (mask % 256)) }

/-- A wait completes with result `v`, clearing the event bits of `mask`. -/
def waitResult (s : State) (c t rd mask : Nat) (v : Nat) : State :=
  (s.setThr c t ((s.thr c t).clearEv mask)).setG c t rd (BitVec.ofNat 32 v)

/-- WFE. -/
def wfeBody (c t rd mask : Nat) : Body := fun s =>
  let v := s.evt c t &&& mask
  if v ≠ 0 then .done (waitResult s c t rd mask v) none else .hold s (.wfe rd mask)

/-- The live count of timer `n` has reached `target` (R374). -/
def State.reached (s : State) (n : Nat) (target : Word) : Bool := !(s.rd (Reg.TMR_CNT n) - target).msb

/-- WAITT. The address that its I/O access fault records is not stated: a free value (log 24). -/
def waittBody (c t rd ra n mask : Nat) : Body := fun s =>
  let target := (s.thr c t).use ra
  let v := s.evt c t &&& mask
  if !(s.up 90) then Res.fault s.fresh.2 c t 5 (s.fresh.1.truncate 32)
  else if s.reached n target then .done (s.setG c t rd 0) none
  else if v ≠ 0 then .done (waitResult s c t rd mask v) none
  else .hold s (.timer rd target n mask)

/-- A thread in a WFE: an event completes it, or an interrupt that is due (R372). -/
def wfeWake (s : State) (c t : Nat) : State :=
  if !(s.coreUp c) || decide ((s.thr c t).state ≠ .running) then s
  else match (s.thr c t).wait with
    | some (.wfe rd mask) =>
      let v := s.evt c t &&& mask
      if s.irqDue c t then finish (s.setG c t rd 0x80000000) c t 4 none
      else if v ≠ 0 then finish (waitResult s c t rd mask v) c t 4 none
      else s
    | _ => s

/-- A thread in a WAITT: the count completes it before an event does (R374), or an interrupt that is due. -/
def waittWake (s : State) (c t : Nat) : State :=
  if !(s.coreUp c) || decide ((s.thr c t).state ≠ .running) then s
  else match (s.thr c t).wait with
    | some (.timer rd target n mask) =>
      let v := s.evt c t &&& mask
      if s.up 90 && s.reached n target then finish (s.setG c t rd 0) c t 4 none
      else if s.irqDue c t then finish (s.setG c t rd 0x80000000) c t 4 none
      else if v ≠ 0 then finish (waitResult s c t rd mask v) c t 4 none
      else s
    | _ => s

/-- The threads that SEV names, as core and thread (R373). -/
def sevTargets (scope core thread : Nat) : List (Nat × Nat) :=
  let all (c : Nat) : List (Nat × Nat) := (List.range 4).map fun t => (c, t)
  match scope with
  | 0 => [(core, thread)]
  | 1 => all core
  | 2 => (rangeFrom (core / 8 * 8) 8).flatMap all
  | _ => (List.range 32).flatMap all

/-- A thread receives event bit `b`; one of an unpowered cluster receives nothing. -/
def sevSet (b : Nat) (s : State) (p : Nat × Nat) : State :=
  if s.coreUp p.1 then s.setThr p.1 p.2 { s.thr p.1 p.2 with ev := (s.thr p.1 p.2).ev ||| 2 ^ b } else s

/-- SEV: after the store buffer has drained. -/
def sevBody (c t scope core thread b : Nat) : Body := fun s =>
  if s.user c t && decide (2 ≤ scope) then Res.fault s c t 2 0
  else .done ((sevTargets scope core thread).foldl (sevSet b) (drainAll s c t)) none

/-! ### Flush, barrier, break, trap -/

/-- IFLUSH (R340): the queue is fetched anew after it. -/
def iflushBody (c t : Nat) : Body := fun s => .jump s ((s.thr c t).pc + 4)

/-- BARX (R343). -/
def barxBody (c t : Nat) : Body := fun s =>
  if (s.thr c t).longs ≠ [] then .wait else .done (drainAll s c t) none

/-- BRK (R351, R359). -/
def brkBody (c t : Nat) : Body := fun s =>
  if s.flag (Reg.SEP_DCTL_BRKEN c) then .done (haltRequest s c [t]) none else Res.fault s c t 1 0

/-- TRAP: the next instruction is the return address. -/
def trapBody (c t : Nat) : Body := fun s => .trap s 0x0A ((s.thr c t).pc + 4) 0

/-! ### Strings (R375) -/

/-- How a string element ended: a fault with its address, or the state after it. -/
abbrev Elem := State × Option Word

/-- Both checks of an access that an element makes. -/
def elemCheck (s : State) (c t : Nat) (a : Word) (n : Nat) : State × Bool := dataCheck s c (s.thr c t).sw a.toNat n

/-- The element's result for Z. -/
def elemTest (s : State) (c t : Nat) (holds : Bool) : State := s.setNzcv c t (testFlags (flagsOf (s.thr c t).sw) holds)

/-- BCPY and BSET: store `n` bytes at g13. -/
def elemPut (s : State) (c t n : Nat) (a13 : Word) (v : Nat) : State :=
  (storePush s c t a13.toNat n v).setG c t 13 (a13 + BitVec.ofNat 32 n)

/-- One element: the registers as `g` reads them. -/
def strElem (c t kind sz ra rb : Nat) (g : Nat → Word) (e : Upset) (s : State) : Elem :=
  let n := szBytes sz
  let a12 := g 12
  let a13 := g 13
  let step : Word := BitVec.ofNat 32 n
  let reads12 := decide (kind = 0 ∨ kind = 2)
  let k := if reads12 then elemCheck s c t a12 n else (s, true)
  if !k.2 then (k.1, some a12)
  else
    let k := elemCheck k.1 c t a13 n
    if !k.2 then (k.1, some a13)
    else
      let r := if reads12 then dataRead k.1 c t a12.toNat n e else (k.1, some 0)
      match r.2 with
      | none => (r.1, some a12)
      | some v12 =>
        match kind with
        | 0 => (elemPut (r.1.setG c t 12 (a12 + step)) c t n a13 v12, none)
        | 1 => (elemPut r.1 c t n a13 (g ra).toNat, none)
        | _ =>
          let q := dataRead r.1 c t a13.toNat n (if kind = 3 then e else .none)
          match q.2 with
          | none => (q.1, some a13)
          | some v13 =>
            let other := if kind = 2 then v12 else (g ra).toNat
            let holds := decide ((v13 ^^^ other) &&& ((g rb).toNat % 256 ^ n) = 0)
            let s := if kind = 2 then q.1.setG c t 12 (a12 + step) else q.1
            (elemTest (s.setG c t 13 (a13 + step)) c t holds, none)

/-- A string instruction without REPB: one element. -/
def strBody (c t kind sz ra rb : Nat) (e : Upset) : Body := fun s =>
  let x := s.thr c t
  let r := strElem c t kind sz ra rb x.use e s
  match r.2 with
  | some a => Res.fault r.1 c t 4 a
  | none => .done r.1 none

/-- The row of a string instruction. -/
def strRow (c t kind : Nat) (e : Upset) (s : State) : State :=
  issue s c t fun i => match i with
    | .str k sz ra rb => if k = kind then some (strBody c t kind sz ra rb e) else none
    | _ => none

/-! ### Repeat pairs (R376, R377) -/

/-- The pair is complete: it counts as two instructions (R377). -/
def pairDone (s : State) (c t : Nat) : State :=
  let x := s.thr c t
  let n := x.queue.length
  let s := fetchInto c t (6 - n) (x.pc.toNat + 4 * n) (s.setThr c t { x with queue := x.queue.drop 2 })
  finish (s.setThr c t (s.thr c t).age) c t 8 none

/-- One element of the pair that stands at pc, with g11 as `n`. -/
def pairElem (s : State) (c t mode kind sz ra rb : Nat) (n : Word) (e : Upset) : State :=
  let r := strElem c t kind sz ra rb (s.thr c t).reg e s
  match r.2 with
  | some a => trapTo r.1 c t 4 (s.thr c t).pc a
  | none =>
    let s := r.1.setG c t 11 (n - 1)
    let z := (flagsOf (s.thr c t).sw).z
    if n - 1 = 0 ∨ (mode = 1 ∧ z = false) ∨ (mode = 2 ∧ z = true) then pairDone s c t
    else stepEnd (s.setThr c t { s.thr c t with mid := true, old := none }) c t

/-- REPB begins its pair. The word after it must be a string instruction; where that word cannot be fetched, it is an I access
fault (R364, R376). While the pair runs, the queue holds the words up to the REPB's address + 16 (R340, log 35). -/
def repbStart (s : State) (c t mode : Nat) (e : Upset) : State :=
  let x := s.thr c t
  let s := fetchInto c t (5 - x.queue.length) (x.pc.toNat + 4 * x.queue.length) s
  match x.queue with
  | _ :: none :: _ => trapTo s c t 3 x.pc (x.pc + 4)
  | _ :: some w :: _ =>
    match sepDecode w.toNat with
    | some (.str k sz ra rb) =>
      if x.use 11 = 0 then pairDone s c t
      else pairElem s c t mode k sz ra rb (x.use 11) e
    | _ => trapTo s c t 1 x.pc 0
  | _ => s

/-- REPB. -/
def repbRow (c t : Nat) (e : Upset) (s : State) : State :=
  if !(s.myTurn c t) then s else
  match s.front c t with
  | .no => s
  | .ins (.repb mode) =>
    if (s.thr c t).blocked (s.flag (Reg.SEP_CCFG_OPEN c)) (.repb mode) then s else repbStart (takeTurn s c t) c t mode e
  | .ins _ => s
  | fr => frontActs (takeTurn s c t) c t fr

/-- A further element of the pair that stands at pc. -/
def repeatElement (s : State) (c t : Nat) (e : Upset) : State :=
  let x := s.thr c t
  if !x.mid || !(s.ready c t) || !(s.myTurn c t) then s
  else match x.queue with
    | some w0 :: some w1 :: _ =>
      match sepDecode w0.toNat, sepDecode w1.toNat with
      | some (.repb mode), some (.str k sz ra rb) => pairElem (takeTurn s c t) c t mode k sz ra rb (x.reg 11) e
      | _, _ => s
    | _ => s

end Sys2Proof.Machine
end

