-- ==== Sys2Proof/Machine/RowsSepSys.lean ====
section
/-! DEFINITION. The meanings of the rows of: Sepia special registers, waits, events, string and repeat instructions (R349 to R361, R366, R372 to R380). -/
namespace Sys2Proof.Machine

/-- MFS (R366): reads a special register. -/
def execOpMfs (c : Fin 32) (t : Fin 4) (s : State) : Host.Outcome State Fault Refusal :=
  .next (issue s c t fun i => match i with
    | .mfs rd k => some (mfsBody c t rd k)
    | _ => none)

/-- MTS (R380): writes a special register, effective from the next instruction. -/
def execOpMts (c : Fin 32) (t : Fin 4) (s : State) : Host.Outcome State Fault Refusal :=
  .next (issue s c t fun i => match i with
    | .mts k ra => some (mtsBody c t k ra)
    | _ => none)

/-- TRAP (R351): enters vector 0x0A. -/
def execOpTrap (c : Fin 32) (t : Fin 4) (s : State) : Host.Outcome State Fault Refusal :=
  .next (issue s c t fun i => match i with
    | .trap => some (trapBody c t)
    | _ => none)

/-- WFE (R372): waits until a masked event bit is set. -/
def execOpWfe (c : Fin 32) (t : Fin 4) (s : State) : Host.Outcome State Fault Refusal :=
  .next (issue s c t fun i => match i with
    | .wfe rd mask => some (wfeBody c t rd mask)
    | _ => none)

/-- WFE_WAKE (R372): a waiting WFE completes on an event or a due interrupt. -/
def execWfeWake (c : Fin 32) (t : Fin 4) (s : State) : Host.Outcome State Fault Refusal :=
  .next (wfeWake s c t)

/-- SEV (R373): sets an event bit in the threads its scope names after draining stores. -/
def execOpSev (c : Fin 32) (t : Fin 4) (s : State) : Host.Outcome State Fault Refusal :=
  .next (issue s c t fun i => match i with
    | .sev scope core thread b => some (sevBody c t scope core thread b)
    | _ => none)

/-- WAITT (R374): waits until a timer count is reached or a masked event arrives. -/
def execOpWaitt (c : Fin 32) (t : Fin 4) (s : State) : Host.Outcome State Fault Refusal :=
  .next (issue s c t fun i => match i with
    | .waitt rd ra n mask => some (waittBody c t rd ra n mask)
    | _ => none)

/-- WAITT_WAKE (R374): a waiting WAITT completes on the count or an event. -/
def execWaittWake (c : Fin 32) (t : Fin 4) (s : State) : Host.Outcome State Fault Refusal :=
  .next (waittWake s c t)

/-- IFLUSH (R340): flushes the thread's prefetch queue. -/
def execOpIflush (c : Fin 32) (t : Fin 4) (s : State) : Host.Outcome State Fault Refusal :=
  .next (issue s c t fun i => match i with
    | .iflush => some (iflushBody c t)
    | _ => none)

/-- BARX (R343): waits until long operations retire and the store buffer drains. -/
def execOpBarx (c : Fin 32) (t : Fin 4) (s : State) : Host.Outcome State Fault Refusal :=
  .next (issue s c t fun i => match i with
    | .barx => some (barxBody c t)
    | _ => none)

/-- BRK (R359): halts the thread when BRKEN is 1. -/
def execOpBrk (c : Fin 32) (t : Fin 4) (s : State) : Host.Outcome State Fault Refusal :=
  .next (issue s c t fun i => match i with
    | .brk => some (brkBody c t)
    | _ => none)

/-- REPB (R376): prefixes a string instruction into a repeat pair. -/
def execOpRepb (c : Fin 32) (t : Fin 4) (e : Upset) (s : State) : Host.Outcome State Fault Refusal :=
  .next (repbRow c t e s)

/-- BCPY (R375): copies one element from g12 to g13. -/
def execOpBcpy (c : Fin 32) (t : Fin 4) (e : Upset) (s : State) : Host.Outcome State Fault Refusal :=
  .next (strRow c t 0 e s)

/-- BSET (R375): stores ra's low bytes at g13. -/
def execOpBset (c : Fin 32) (t : Fin 4) (s : State) : Host.Outcome State Fault Refusal :=
  .next (strRow c t 1 .none s)

/-- BCMP (R375): tests data at g12 against data at g13 under a mask. -/
def execOpBcmp (c : Fin 32) (t : Fin 4) (e : Upset) (s : State) : Host.Outcome State Fault Refusal :=
  .next (strRow c t 2 e s)

/-- BFND (R375): tests data at g13 against ra under a mask. -/
def execOpBfnd (c : Fin 32) (t : Fin 4) (e : Upset) (s : State) : Host.Outcome State Fault Refusal :=
  .next (strRow c t 3 e s)

/-- REPEAT_ELEMENT (R376): a repeat pair issues one further element and decrements g11. -/
def execRepeatElement (c : Fin 32) (t : Fin 4) (e : Upset) (s : State) : Host.Outcome State Fault Refusal :=
  .next (repeatElement s c t e)

/-- LONG_OP_RETIRE (R345): a long operation retires, or faults and makes an imprecise exception due. -/
def execLongOpRetire (c : Fin 32) (t : Fin 4) (fid : Nat) (e : Upset) (s : State) : Host.Outcome State Fault Refusal :=
  .next (longRetire s c t fid e)

/-- STORE_DRAIN (R342): a buffered store drains to memory. -/
def execStoreDrain (c : Fin 32) (t : Fin 4) (s : State) : Host.Outcome State Fault Refusal :=
  .next (if s.coreUp c then storeDrain s c t else s)

/-- INTERRUPT_ENTRY (R351): a due interrupt is taken between instructions of the ITHR thread. -/
def execInterruptEntry (c : Fin 32) (s : State) : Host.Outcome State Fault Refusal :=
  .next (interruptEntry s c)

/-- THREAD_HALT (R359): SEP_DCTL.HALT requests a halt of a thread. -/
def execThreadHalt (who : Requester) (c : Fin 32) (mask : BitVec 4) (all : Bool) (s : State) : Host.Outcome State Fault Refusal :=
  let s := s.accessCycle who
  .next (writeAct s who (Reg.SEP_DCTL c) fun s => sepDctlWrite s c (dctlWord s c all 0 mask.toNat))

/-- HALT_EFFECT (R359): the halt takes effect at the thread's next instruction boundary. -/
def execHaltEffect (c : Fin 32) (t : Fin 4) (s : State) : Host.Outcome State Fault Refusal :=
  .next (haltEffect s c t)

/-- THREAD_RESUME (R359): SEP_DCTL.RESUME resumes a halted thread. -/
def execThreadResume (who : Requester) (c : Fin 32) (mask : BitVec 4) (all : Bool) (s : State) : Host.Outcome State Fault Refusal :=
  let s := s.accessCycle who
  .next (writeAct s who (Reg.SEP_DCTL c) fun s => sepDctlWrite s c (dctlWord s c all 4 mask.toNat))

/-- THREAD_STEP (R359): SEP_DCTL.STEP issues one instruction and halts again. -/
def execThreadStep (who : Requester) (c : Fin 32) (mask : BitVec 4) (all : Bool) (s : State) : Host.Outcome State Fault Refusal :=
  let s := s.accessCycle who
  .next (writeAct s who (Reg.SEP_DCTL c) fun s => sepDctlWrite s c (dctlWord s c all 8 mask.toNat))

/-- DEBUG_REGISTER_ACCESS (R360): SEP_DDATA reaches a halted thread's selected register, or sets NOTHALT. -/
def execDebugRegisterAccess (who : Requester) (c : Fin 32) (wr : Option Word) (s : State) : Host.Outcome State Fault Refusal :=
  let s := s.accessCycle who
  .next (debugAct s who (Reg.SEP_DDATA c) wr.isSome fun s => dbgAccess s c wr)

/-- DEBUG_MEMORY_ACCESS (R360): SEP_MEMD reads or writes core memory and advances the address. -/
def execDebugMemoryAccess (who : Requester) (c : Fin 32) (wr : Option Word) (e : Upset) (s : State) : Host.Outcome State Fault
    Refusal :=
  let s := s.accessCycle who
  .next (debugAct s who (Reg.SEP_MEMD c) wr.isSome fun s => memdAccess s c wr e)

/-- THREAD_RESTART (R361): SEP_TCTL.RESTART restarts a not started, halted or stopped thread. -/
def execThreadRestart (who : Requester) (c : Fin 32) (t : Fin 4) (pc : BitVec 30) (s : State) : Host.Outcome State Fault Refusal :=
  let s := s.accessCycle who
  .next (writeAct s who (Reg.SEP_TCTL c t) fun s => sepTctlWrite s c t (bitsWord [(31, 2, pc.toNat), (0, 0, 1)]))

end Sys2Proof.Machine
end

