-- ==== Sys2Proof/Machine/BlitRun.lean ====
section
/-! DEFINITION. The blitter at work (R274, R276, R277): its reads and writes, rows, the row event, completion and errors. -/
namespace Sys2Proof.Machine

/-- A read of an element of `z` bytes at `a` of a space: the state after, and its value; none where the access gets an error completion or
an uncorrectable DRAM word (R277). A register in BAR0 reads as on the bus (R34). -/
def surfRead (s : State) (space a z : Nat) : State × Option Nat :=
  if space = 1 then
    if !(decide (a + z ≤ 2 ^ 30) && s.dramOk a z) then (errorCompletion s, none)
    else if wordsHit s.dram.bad a z ≠ [] then (dramMeet s a z, none)
    else (s, some (leNat ((rangeFrom a z).map s.dramByte)))
  else
    let r := busRead s a
    (r.2.2, if r.2.1 then none else some (r.1.toNat / 256 ^ (a % 4) % 256 ^ z))

/-- A row under way: the state, the elements computed so far (address and value, the latest first), and whether an access has failed. -/
structure BlitRow where
  st : State
  elems : List (Nat × Nat)
  failed : Bool
deriving DecidableEq, Repr

/-- Element `x` of row `y` (R274); after a failed access the blitter goes no further (R277). The destination is read only where the
operator needs it; one in DRAM must answer in any case. -/
def blitElem (b : Blit) (y : Nat) (w : BlitRow) (x : Nat) : BlitRow :=
  if w.failed then w else
  let fmt := sFmt b.dstF
  let z := fmtSize fmt
  let da := b.dst + y * sPitch b.dstF + x * z
  let sv := if b.op = 1 then (w.st, some (b.fill.toNat % 256 ^ z))
    else surfRead w.st (sSpace b.srcF) (b.src + y * sPitch b.srcF + x * z) z
  match sv with
  | (t, none) => { w with st := t, failed := true }
  | (t, some v) =>
    let dv := if 2 ≤ b.op then surfRead t (sSpace b.dstF) da z
      else if sSpace b.dstF = 1 ∧ t.dramOk da z = false then (errorCompletion t, none) else (t, some 0)
    match dv with
    | (u, none) => { w with st := u, failed := true }
    | (u, some d) => { w with st := u, elems := (da, elemOp fmt b.op b.fill v d) :: w.elems }

/-- Row `y`: every element inside the clip, in the blitter's order of columns (R274, R276), read before any of them is written. -/
def blitRow (s : State) (b : Blit) (y : Nat) : BlitRow :=
  let xs := (List.range b.w).filter fun x => b.inClip x y
  (if b.descending then xs.reverse else xs).foldl (blitElem b y) { st := s, elems := [], failed := false }

/-- Store one element's bytes; staged static planes take staged-bank writes (R277, R39, R161); words written while a composition runs
are remembered (R272). -/
def surfPut (s : State) (space z : Nat) (e : Nat × Nat) : State :=
  if space = 1 then
    let s := if s.srv.comp.isSome then { s with srv := { s.srv with raced := e.1 / 4 * 4 :: s.srv.raced } } else s
    dramPut s e.1 (leBytes z e.2)
  else if (s.inStaged e.1).any fun r => decide (r.staged = (s.rd Reg.PF_SPBASE).toNat) then
    let a := e.1 / 4 * 4
    let old := memWord s.sram a
    let sh := 256 ^ (e.1 % 4)
    planeWrite s a (BitVec.ofNat 32 (old - old / sh % 256 ^ z * sh + e.2 % 256 ^ z * sh))
  else sramStore s e.1 (leBytes z e.2)

/-- A row is written and counted; its watermark (R277). -/
def blitRowDone (s : State) (b : Blit) (es : List (Nat × Nat)) : State :=
  let s := es.foldl (fun s e => surfPut s (sSpace b.dstF) (fmtSize (sFmt b.dstF)) e) s
  let n := s.fld Reg.SRV_BSTAT_ROWS + 1
  let s := s.setFld Reg.SRV_BSTAT_ROWS n
  if n = b.wm then devEvent s 211 Reg.SRV_BSTAT_ROWEV else s

/-- The row stops halfway: each byte of the elements computed keeps its old value or takes its new one (R277, log 24). -/
def blitMix (s : State) (b : Blit) (es : List (Nat × Nat)) : State :=
  let z := fmtSize (sFmt b.dstF)
  let space := sSpace b.dstF
  es.foldl (fun s e =>
    let m := mixBytes s (fun i => memByte (if space = 1 then s.dram.mem else s.sram) (e.1 + i)) (fun i => e.2 / 256 ^ i % 256) z
    surfPut m.2 space z (e.1, leNat m.1)) s

/-- The blit ends in error in its current row (R277). -/
def blitError (b : Blit) (w : BlitRow) : State :=
  blitFail ({ blitMix w.st b w.elems with srv := { (blitMix w.st b w.elems).srv with blit := none } }.setFld Reg.SRV_BSTAT_BUSY 0) 5

/-- The blitter works on its next row; `last` when that is the final one (R277). -/
def blitStep (s : State) (last : Bool) : State :=
  match s.srv.blit with
  | none => s
  | some b =>
    let i := s.fld Reg.SRV_BSTAT_ROWS
    if !(s.up 85) || decide (i + 1 = b.h) != last then s
    else
      let w := blitRow s b (b.rowNo i)
      if w.failed then blitError b w
      else
        let s := blitRowDone w.st b w.elems
        if last then
          devEvent ({ s with srv := { s.srv with blit := none } }.setFld Reg.SRV_BSTAT_BUSY 0) 212 Reg.SRV_BSTAT_DONE
        else s

/-- An access of the blitter fails from outside, somewhere in its current row (R277). -/
def blitAbort (s : State) : State :=
  match s.srv.blit with
  | some b => if s.up 85 then blitError b (blitRow s b (b.rowNo (s.fld Reg.SRV_BSTAT_ROWS))) else s
  | none => s

end Sys2Proof.Machine
end

