-- ==== Sys2Proof/Machine/RowsSrv.lean ====
section
/-! DEFINITION. The meanings of the rows of: The survey, the blitter and the display (R262 to R284). -/
namespace Sys2Proof.Machine

/-- RATE_MAP_CLEAR (R265): SRV_CTL.RMCLR clears both pages and restarts counting at the next boundary. -/
def execRateMapClear (who : Requester) (s : State) : Host.Outcome State Fault Refusal :=
  let s := s.accessCycle who
  .next (writeAct s who Reg.SRV_CTL fun s => srvCtlWrite s (bitsWord [(0, 0, s.fld Reg.SRV_CTL_RMEN), (1, 1, 1)]))

/-- SRV_PAGE_READ (R284): a read of SRV_PAGE latches SRV_PAGEX. -/
def execSrvPageRead (who : Requester) (s : State) : Host.Outcome State Fault Refusal :=
  let s := s.accessCycle who
  .next (readAct s who Reg.SRV_PAGE pageRead)

/-- COMPOSITION_GO (R267): SRV_CCTL.GO requests a composition, pending while one runs. -/
def execCompositionGo (who : Requester) (s : State) : Host.Outcome State Fault Refusal :=
  let s := s.accessCycle who
  .next (writeAct s who Reg.SRV_CCTL fun s => compRequest (s.setFld Reg.SRV_CCTL_GO 1))

/-- COMPOSITION_DONE (R270): the last pass ends and a frame swap is requested. -/
def execCompositionDone (fix : List (EccUnit × Nat)) (s : State) : Host.Outcome State Fault Refusal :=
  let s := s.eventCycle
  .next (if s.up 85 then compDone (fixWords s fix) else s)

/-- VERTICAL_BLANKING (R278): scan-out reaches vertical blanking and FRAMECNT increments. -/
def execVerticalBlanking (s : State) : Host.Outcome State Fault Refusal :=
  let s := s.eventCycle
  .next (vblank s)

/-- LASTSWAP_READ (R271): a read of SRV_LASTSWAP[0] latches words 1 to 3. -/
def execLastswapRead (who : Requester) (s : State) : Host.Outcome State Fault Refusal :=
  let s := s.accessCycle who
  .next (readAct s who Reg.SRV_LASTSWAP0 lastSwapRead)

/-- SCANOUT_UNDERRUN (R278): a pixel missing from the fetch FIFO fills the rest of the line with background. -/
def execScanoutUnderrun (x : BitVec 12) (y : BitVec 12) (s : State) : Host.Outcome State Fault Refusal :=
  let s := s.eventCycle
  .next (underrun s x.toNat y.toNat)

/-- BLIT_GO (R274): SRV_BCTL.GO checks and starts a blit, or refuses it. -/
def execBlitGo (who : Requester) (op : BitVec 3) (wm : BitVec 12) (s : State) : Host.Outcome State Fault Refusal :=
  let s := s.accessCycle who
  .next (writeAct s who Reg.SRV_BCTL fun s => bctlWrite s (bitsWord [(31, 31, 1), (26, 24, op.toNat), (11, 0, wm.toNat)]))

/-- BLIT_ROW_DONE (R277): the blitter finishes a destination row and may raise the row event. -/
def execBlitRowDone (fix : List (EccUnit × Nat)) (s : State) : Host.Outcome State Fault Refusal :=
  let s := s.eventCycle
  .next (blitStep (fixWords s fix) false)

/-- BLIT_DONE (R277): the last row is finished and the blit completes. -/
def execBlitDone (fix : List (EccUnit × Nat)) (s : State) : Host.Outcome State Fault Refusal :=
  let s := s.eventCycle
  .next (blitStep (fixWords s fix) true)

/-- BLIT_ERROR (R277): an error completion or uncorrectable word stops the blit with code 5. -/
def execBlitError (s : State) : Host.Outcome State Fault Refusal :=
  let s := s.eventCycle
  .next (blitAbort s)

/-- DISPLAY_ENABLE (R278): setting SRV_DCTL.EN starts the timing generator and link bring-up. -/
def execDisplayEnable (who : Requester) (v : Word) (s : State) : Host.Outcome State Fault Refusal :=
  let s := s.accessCycle who
  .next (writeAct s who Reg.SRV_DCTL fun s => dctlWrite s (v ||| 0x80000000#32))

/-- HOT_PLUG (R281): HPD high starts capability reads and link training. -/
def execHotPlug (caps : Word) (edid : List Word) (fast : Bool) (s : State) : Host.Outcome State Fault Refusal :=
  let s := s.eventCycle
  .next (hotPlug s caps edid fast)

/-- UNPLUG (R281): HPD low for 2 ms stops the main link and waits for HPD. -/
def execUnplug (s : State) : Host.Outcome State Fault Refusal :=
  let s := s.eventCycle
  .next (unplug s)

/-- IRQ_HPD (R281): a short HPD pulse reads link status and retrains when lock is lost. -/
def execIrqHpd (lost : Bool) (s : State) : Host.Outcome State Fault Refusal :=
  let s := s.eventCycle
  .next (irqHpd s lost)

/-- LINK_TRAINING_DONE (R281): DisplayPort link training succeeds or steps down the mode. -/
def execLinkTrainingDone (r : TrainResult) (drive : BitVec 8) (s : State) : Host.Outcome State Fault Refusal :=
  let s := s.eventCycle
  .next (trainingStep s r drive)

end Sys2Proof.Machine
end

