-- ==== Sys2Proof/Machine/RowsTb.lean ====
section
/-! DEFINITION. The meanings of the rows of: The slot clock, orbit markers, the flip and the time registers (R17 to R43, R484). -/
namespace Sys2Proof.Machine

/-- SLOT_START (R17): a slot-clock rising edge begins a new slot, to which every slot-timed action of the rim is tied. -/
def execSlotStart (dt : Nat) (fix : List (EccUnit × Nat)) (s : State) : Host.Outcome State Fault Refusal :=
  let s := s.eventCycle
  .next (slotStart (fixWords s fix) dt s.tb.laneMark)

/-- ORBIT_MARKER (R484): an orbit marker seen on ORB or in lane 0's frames is sampled in a slot and judged against the slip window. -/
def execOrbitMarker (dt : Nat) (fix : List (EccUnit × Nat)) (s : State) : Host.Outcome State Fault Refusal :=
  let s := s.eventCycle
  .next (slotStart (fixWords s fix) dt true)

/-- HOLDOVER_ENTRY (R22): with no BCLK edge or crossing mark for 4 slot periods, TB enters holdover and raises the clock-monitor line. -/
def execHoldoverEntry (s : State) : Host.Outcome State Fault Refusal :=
  let s := s.eventCycle
  .next (if s.up 3 then holdoverEntry s else s)

/-- SOURCE_RETURN (R22): the return of the clock source starts a re-lock that slews the slot clock at most 1 ns per slot. -/
def execSourceReturn (s : State) : Host.Outcome State Fault Refusal :=
  let s := s.eventCycle
  .next (sourceReturn s)

/-- RELOCK_DONE (R22): the end of the re-lock slew returns TB_STAT.STATE to locked. -/
def execRelockDone (s : State) : Host.Outcome State Fault Refusal :=
  let s := s.eventCycle
  .next (relockDone s)

/-- GENERATOR_LOCK (R24): the internal generator produces its first slot-clock edge after a start. -/
def execGeneratorLock (s : State) : Host.Outcome State Fault Refusal :=
  let s := s.eventCycle
  .next (if s.up 3 && decide (s.clkMode = 2) && decide (s.tbState = 0) then firstSlot s else s)

/-- FIRST_SLOT_CLOCK_EDGE (R24): in BCLK or recovered mode the clock source first gives TB edges after reset, and TB_STAT.STATE leaves 0b00 no clock for 0b01 seeking the first marker. -/
def execFirstSlotClockEdge (s : State) : Host.Outcome State Fault Refusal :=
  let s := s.eventCycle
  .next (if s.up 3 && decide (s.clkMode ≠ 2) && decide (s.tbState = 0) then firstSlot s else s)

/-- ORBIT_LOAD_REQUEST (R25): setting TB_CTL.LOAD makes the orbit number in TB_ORBLOAD apply at the next boundary. -/
def execOrbitLoadRequest (who : Requester) (s : State) : Host.Outcome State Fault Refusal :=
  let s := s.accessCycle who
  .next (writeAct s who Reg.TB_CTL fun s => s.setFld Reg.TB_CTL_LOAD 1)

/-- TB_XID_READ (R43): a read of TB_XID_LO returns the current XID low word and latches TB_XID_HI. -/
def execTbXidRead (who : Requester) (s : State) : Host.Outcome State Fault Refusal :=
  let s := s.accessCycle who
  .next (readAct s who Reg.TB_XID_LO xidRead)

/-- TB_RTIME_READ (R43): a read of TB_RTIME_LO returns the reference time low word and latches TB_RTIME_HI. -/
def execTbRtimeRead (who : Requester) (s : State) : Host.Outcome State Fault Refusal :=
  let s := s.accessCycle who
  .next (readAct s who Reg.TB_RTIME_LO rtimeRead)

/-- FLIP_REQUEST (R35): a GBL_FLIP write with REQ = 1 makes a pending flip request, replacing any pending one. -/
def execFlipRequest (who : Requester) (journal : Bool) (aten : Bool) (at_ : BitVec 16) (s : State) : Host.Outcome State Fault
    Refusal :=
  let s := s.accessCycle who
  .next (writeAct s who Reg.GBL_FLIP fun s => flipWrite s (bitsWord [(31, 31, 1), (29, 29, b2n journal), (28, 28, b2n aten),
    (15, 0, at_.toNat)]))

/-- FLIP_CANCEL (R36): a GBL_FLIP write with CANCEL = 1 removes a pending request. -/
def execFlipCancel (who : Requester) (s : State) : Host.Outcome State Fault Refusal :=
  let s := s.accessCycle who
  .next (writeAct s who Reg.GBL_FLIP fun s => flipWrite s (bitsWord [(30, 30, 1)]))

/-- BANK_COPY_DONE (R38): the end of the bank copy clears GBL_FLIPSTAT.BUSY. -/
def execBankCopyDone (s : State) : Host.Outcome State Fault Refusal :=
  let s := s.eventCycle
  .next (copyDone s)

/-- FLIPSTAMP_READ (R42): a read of GBL_FLIPSTAMP[0] latches the other three stamp words. -/
def execFlipstampRead (who : Requester) (s : State) : Host.Outcome State Fault Refusal :=
  let s := s.accessCycle who
  .next (readAct s who Reg.GBL_FLIPSTAMP0 stampRead)

end Sys2Proof.Machine
end

