-- ==== Sys2Proof/Machine/RowsTmr.lean ====
section
/-! DEFINITION. The meanings of the rows of: Timers and event counters (R319 to R336). -/
namespace Sys2Proof.Machine

/-- TIMER_RUN (R322): setting TMR_CTL.RUN starts a timer. -/
def execTimerRun (who : Requester) (n : Fin 128) (s : State) : Host.Outcome State Fault Refusal :=
  let s := s.accessCycle who
  .next (writeAct s who (Reg.TMR_CTL n) fun s => tmrStart s n)

/-- TIMER_TICK (R323): a prescaler tick advances the count and may raise period, overflow and match events. -/
def execTimerTick (n : Fin 128) (rise : Bool) (partner : Option Bool) (s : State) : Host.Outcome State Fault Refusal :=
  let s := s.eventCycle
  .next (tmrEdge s n rise partner)

/-- COMPARE_WRITE (R324): a TMR_CMP write re-arms the match and tests it at once. -/
def execCompareWrite (who : Requester) (n : Fin 128) (v : Word) (s : State) : Host.Outcome State Fault Refusal :=
  let s := s.accessCycle who
  .next (writeAct s who (Reg.TMR_CMP n) fun s => tmrWriteVal s false n v)

/-- COUNT_WRITE (R324): a TMR_CNT write sets the count, re-arms the match and tests it at once. -/
def execCountWrite (who : Requester) (n : Fin 128) (v : Word) (s : State) : Host.Outcome State Fault Refusal :=
  let s := s.accessCycle who
  .next (writeAct s who (Reg.TMR_CNT n) fun s => tmrWriteVal s true n v)

/-- TIMER_COUNT_READ (R329): a read of a pair's low count latches the high half. -/
def execTimerCountRead (who : Requester) (n : Fin 128) (s : State) : Host.Outcome State Fault Refusal :=
  let s := s.accessCycle who
  .next (readAct s who (Reg.TMR_CNT n) fun s => tmrReadCnt s n)

/-- TIMER_CAPTURE (R330): a capture trigger stores the count in the queue or sets CAPOVF. -/
def execTimerCapture (n : Fin 128) (rise : Bool) (s : State) : Host.Outcome State Fault Refusal :=
  let s := s.eventCycle
  .next (tmrTrigger s n rise)

/-- CAPTURE_READ (R330): a read of TMR_CAP returns and removes the oldest capture. -/
def execCaptureRead (who : Requester) (n : Fin 128) (s : State) : Host.Outcome State Fault Refusal :=
  let s := s.accessCycle who
  .next (readAct s who (Reg.TMR_CAP n) fun s => tmrReadCap s n)

/-- EVENT_COUNTER_CLEAR (R335): TMR_ESEL.CLR sets one count to that cycle's contribution. -/
def execEventCounterClear (who : Requester) (k : Fin 512) (s : State) : Host.Outcome State Fault Refusal :=
  let s := s.accessCycle who
  .next (writeAct s who (Reg.TMR_ESEL k) fun s => evClear s k)

/-- EVENT_COUNTER_CLEAR_ALL (R335): TMR_EVCTL.CLRALL clears every event counter. -/
def execEventCounterClearAll (who : Requester) (s : State) : Host.Outcome State Fault Refusal :=
  let s := s.accessCycle who
  .next (writeAct s who Reg.TMR_EVCTL evClearAll)

/-- EVENT_SNAPSHOT (R335): TMR_EVCTL.SNAP copies all counts and the reference time. -/
def execEventSnapshot (who : Requester) (clr : Bool) (s : State) : Host.Outcome State Fault Refusal :=
  let s := s.accessCycle who
  .next (writeAct s who Reg.TMR_EVCTL fun s => evCtlWrite s true clr)

/-- EVENT_COUNT_READ (R334): a read of TMR_ECNT_LO latches TMR_ECNT_HI. -/
def execEventCountRead (who : Requester) (k : Fin 512) (s : State) : Host.Outcome State Fault Refusal :=
  let s := s.accessCycle who
  .next (readAct s who (Reg.TMR_ECNT_LO k) fun s => evRead s k)

/-- SNAPSHOT_TIME_READ (R336): a read of TMR_SNAPT_LO latches TMR_SNAPT_HI. -/
def execSnapshotTimeRead (who : Requester) (s : State) : Host.Outcome State Fault Refusal :=
  let s := s.accessCycle who
  .next (readAct s who Reg.TMR_SNAPT_LO snapRead)

end Sys2Proof.Machine
end

