-- ==== Sys2Proof/Machine/RowsVox.lean ====
section
/-! DEFINITION. The meanings of the rows of: Voices and their buses (R309 to R318). -/
namespace Sys2Proof.Machine

/-- BUS_SAMPLE (R313): a voice bus computes and meters its output sample from voices and inputs. -/
def execBusSample (b : Fin 16) (corr : Nat) (s : State) : Host.Outcome State Fault Refusal :=
  let s := s.eventCycle
  .next (busTick s b corr)

/-- BUS_SAMPLE_DELIVER (R311): 25 ns after the sample instant the bus sample reaches cells and loops. -/
def execBusSampleDeliver (b : Fin 16) (s : State) : Host.Outcome State Fault Refusal :=
  let s := s.eventCycle
  .next (busDeliver s b)

/-- VOICE_START (R315): VOX_VCTL.START starts or restarts a voice after TDEL samples. -/
def execVoiceStart (who : Requester) (v : Fin 64) (s : State) : Host.Outcome State Fault Refusal :=
  let s := s.accessCycle who
  .next (writeAct s who (Reg.VOX_VCTL v) fun s => voiceStartWrite s v)

/-- VOICE_STOP (R315): VOX_VCTL.STOP makes the voice contribute 0 from the next sample. -/
def execVoiceStop (who : Requester) (v : Fin 64) (s : State) : Host.Outcome State Fault Refusal :=
  let s := s.accessCycle who
  .next (writeAct s who (Reg.VOX_VCTL v) fun s => voiceStop s v)

/-- PEAK_CLEAR (R314): VOX_BMCFG.PKCLR clears a bus meter's peak and hold. -/
def execPeakClear (who : Requester) (b : Fin 16) (s : State) : Host.Outcome State Fault Refusal :=
  let s := s.accessCycle who
  .next (writeAct s who (Reg.VOX_BMCFG b) fun s => peakClear s b)

end Sys2Proof.Machine
end

