-- ==== Sys2Proof/Machine/Dispatch.lean ====
section
/-! DEFINITION. One arm per command, each a direct call of its meaning. -/
namespace Sys2Proof.Machine

def exec (i : Instr) (s : State) : Host.Outcome State Fault Refusal :=
  match i with
  | .registerWrite who off be v => Sys2Proof.Machine.execRegisterWrite who off be v s
  | .readClear who off => Sys2Proof.Machine.execReadClear who off s
  | .eccWindowRead who off fixed => Sys2Proof.Machine.execEccWindowRead who off fixed s
  | .slotStart dt fix => Sys2Proof.Machine.execSlotStart dt fix s
  | .orbitMarker dt fix => Sys2Proof.Machine.execOrbitMarker dt fix s
  | .holdoverEntry => Sys2Proof.Machine.execHoldoverEntry s
  | .sourceReturn => Sys2Proof.Machine.execSourceReturn s
  | .relockDone => Sys2Proof.Machine.execRelockDone s
  | .generatorLock => Sys2Proof.Machine.execGeneratorLock s
  | .orbitLoadRequest who => Sys2Proof.Machine.execOrbitLoadRequest who s
  | .tbXidRead who => Sys2Proof.Machine.execTbXidRead who s
  | .tbRtimeRead who => Sys2Proof.Machine.execTbRtimeRead who s
  | .flipRequest who journal aten at_ => Sys2Proof.Machine.execFlipRequest who journal aten at_ s
  | .flipCancel who => Sys2Proof.Machine.execFlipCancel who s
  | .bankCopyDone => Sys2Proof.Machine.execBankCopyDone s
  | .stagedWrite who off v => Sys2Proof.Machine.execStagedWrite who off v s
  | .flipstampRead who => Sys2Proof.Machine.execFlipstampRead who s
  | .resultArrival st back ph => Sys2Proof.Machine.execResultArrival st back ph s
  | .sentinelRead who st => Sys2Proof.Machine.execSentinelRead who st s
  | .sentinelClear who => Sys2Proof.Machine.execSentinelClear who s
  | .avsStatusResponse resp alert => Sys2Proof.Machine.execAvsStatusResponse resp alert s
  | .avsSettleEnd => Sys2Proof.Machine.execAvsSettleEnd s
  | .engineOutputWord p mb back upset uncorr corr => Sys2Proof.Machine.execEngineOutputWord p mb back upset uncorr corr s
  | .checkerTimeout p back => Sys2Proof.Machine.execCheckerTimeout p back s
  | .replayVote p back => Sys2Proof.Machine.execReplayVote p back s
  | .collect back => Sys2Proof.Machine.execCollect back s
  | .sortDone back dissent => Sys2Proof.Machine.execSortDone back dissent s
  | .pllLock n => Sys2Proof.Machine.execPllLock n s
  | .pllLockTimeout n => Sys2Proof.Machine.execPllLockTimeout n s
  | .calibrationDone n => Sys2Proof.Machine.execCalibrationDone n s
  | .calibrationFail n => Sys2Proof.Machine.execCalibrationFail n s
  | .signalDetect n => Sys2Proof.Machine.execSignalDetect n s
  | .cdrLock n ctle vga dfe => Sys2Proof.Machine.execCdrLock n ctle vga dfe s
  | .rateChange n => Sys2Proof.Machine.execRateChange n s
  | .lossOfSignal n => Sys2Proof.Machine.execLossOfSignal n s
  | .lossOfLock n => Sys2Proof.Machine.execLossOfLock n s
  | .clockGroupMeasure g ppm => Sys2Proof.Machine.execClockGroupMeasure g ppm s
  | .groupClockRecovery g => Sys2Proof.Machine.execGroupClockRecovery g s
  | .txpreWrite who n v => Sys2Proof.Machine.execTxpreWrite who n v s
  | .txmainWrite who n v => Sys2Proof.Machine.execTxmainWrite who n v s
  | .tapSetApply n => Sys2Proof.Machine.execTapSetApply n s
  | .readapt who n ctle vga dfe => Sys2Proof.Machine.execReadapt who n ctle vga dfe s
  | .eyeUpdate n h w eye snr ctle vga dfe => Sys2Proof.Machine.execEyeUpdate n h w eye snr ctle vga dfe s
  | .testModeEnter who n v => Sys2Proof.Machine.execTestModeEnter who n v s
  | .testModeExit who n v => Sys2Proof.Machine.execTestModeExit who n v s
  | .acExtest n on => Sys2Proof.Machine.execAcExtest n on s
  | .dpDriveWrite who n v => Sys2Proof.Machine.execDpDriveWrite who n v s
  | .dpRateRelock n => Sys2Proof.Machine.execDpRateRelock n s
  | .codewordLock n cws => Sys2Proof.Machine.execCodewordLock n cws s
  | .blockLock n hs => Sys2Proof.Machine.execBlockLock n hs s
  | .frameLaunch n => Sys2Proof.Machine.execFrameLaunch n s
  | .frameReceive n r => Sys2Proof.Machine.execFrameReceive n r s
  | .fastCommandRequest who code sl => Sys2Proof.Machine.execFastCommandRequest who code sl s
  | .helloSend n => Sys2Proof.Machine.execHelloSend n s
  | .helloReceive n fs => Sys2Proof.Machine.execHelloReceive n fs s
  | .proofReceive n fs => Sys2Proof.Machine.execProofReceive n fs s
  | .commitReceive n fs => Sys2Proof.Machine.execCommitReceive n fs s
  | .rejectReceive n fs => Sys2Proof.Machine.execRejectReceive n fs s
  | .trainStart n => Sys2Proof.Machine.execTrainStart n s
  | .absentTimeout n => Sys2Proof.Machine.execAbsentTimeout n s
  | .proofTimeout n => Sys2Proof.Machine.execProofTimeout n s
  | .commitTimeout n => Sys2Proof.Machine.execCommitTimeout n s
  | .trainTimeout n => Sys2Proof.Machine.execTrainTimeout n s
  | .holdoffExpiry n => Sys2Proof.Machine.execHoldoffExpiry n s
  | .quarantineReject n => Sys2Proof.Machine.execQuarantineReject n s
  | .renegotiate who n => Sys2Proof.Machine.execRenegotiate who n s
  | .controlMessageReceive n fs fix => Sys2Proof.Machine.execControlMessageReceive n fs fix s
  | .remoteWrite n => Sys2Proof.Machine.execRemoteWrite n s
  | .remoteRead n => Sys2Proof.Machine.execRemoteRead n s
  | .controlMessageSend n fix => Sys2Proof.Machine.execControlMessageSend n fix s
  | .policeToken n => Sys2Proof.Machine.execPoliceToken n s
  | .partnerIdRead who n => Sys2Proof.Machine.execPartnerIdRead who n s
  | .frameMapDone n ph corr => Sys2Proof.Machine.execFrameMapDone n ph corr s
  | .conditionDone corr pedBad => Sys2Proof.Machine.execConditionDone corr pedBad s
  | .pedestalResetRequest who layers => Sys2Proof.Machine.execPedestalResetRequest who layers s
  | .rowBroadcast taken corr => Sys2Proof.Machine.execRowBroadcast taken corr s
  | .captureArm who k v => Sys2Proof.Machine.execCaptureArm who k v s
  | .planeWrite who off v => Sys2Proof.Machine.execPlaneWrite who off v s
  | .reflattenDone corr => Sys2Proof.Machine.execReflattenDone corr s
  | .lakeRewriteDone j corr => Sys2Proof.Machine.execLakeRewriteDone j corr s
  | .decisionEvaluate back faults corr => Sys2Proof.Machine.execDecisionEvaluate back faults corr s
  | .prescaleResetRequest who => Sys2Proof.Machine.execPrescaleResetRequest who s
  | .fragmentCopyDone corr fix => Sys2Proof.Machine.execFragmentCopyDone corr fix s
  | .roCurRead who => Sys2Proof.Machine.execRoCurRead who s
  | .queuePush who a q fix => Sys2Proof.Machine.execQueuePush who a q fix s
  | .queuePop who a q fix => Sys2Proof.Machine.execQueuePop who a q fix s
  | .queueReset who q => Sys2Proof.Machine.execQueueReset who q s
  | .elementDelivered n corr => Sys2Proof.Machine.execElementDelivered n corr s
  | .dmaKick who ch => Sys2Proof.Machine.execDmaKick who ch s
  | .dmaPoll ch => Sys2Proof.Machine.execDmaPoll ch s
  | .dmaEnable who ch => Sys2Proof.Machine.execDmaEnable who ch s
  | .dmaDisable who ch => Sys2Proof.Machine.execDmaDisable who ch s
  | .descriptorFetch ch host fix => Sys2Proof.Machine.execDescriptorFetch ch host fix s
  | .dmaElementReady ch fix => Sys2Proof.Machine.execDmaElementReady ch fix s
  | .dmaAdmitRetry ch fix => Sys2Proof.Machine.execDmaAdmitRetry ch fix s
  | .descriptorComplete ch host fix => Sys2Proof.Machine.execDescriptorComplete ch host fix s
  | .barrierDone ch => Sys2Proof.Machine.execBarrierDone ch s
  | .dmaError ch dest count host => Sys2Proof.Machine.execDmaError ch dest count host s
  | .hostReadTimeout ch count host => Sys2Proof.Machine.execHostReadTimeout ch count host s
  | .dramTrainingDone c => Sys2Proof.Machine.execDramTrainingDone c s
  | .dramTrainingFail c => Sys2Proof.Machine.execDramTrainingFail c s
  | .dramRefresh c bank => Sys2Proof.Machine.execDramRefresh c bank s
  | .zqCalibration c => Sys2Proof.Machine.execZqCalibration c s
  | .readRecenter c => Sys2Proof.Machine.execReadRecenter c s
  | .memRetrain who => Sys2Proof.Machine.execMemRetrain who s
  | .patrolScrub a corr bad => Sys2Proof.Machine.execPatrolScrub a corr bad s
  | .bar2Access off n wr corr => Sys2Proof.Machine.execBar2Access off n wr corr s
  | .rateMapClear who => Sys2Proof.Machine.execRateMapClear who s
  | .srvPageRead who => Sys2Proof.Machine.execSrvPageRead who s
  | .compositionGo who => Sys2Proof.Machine.execCompositionGo who s
  | .compositionDone fix => Sys2Proof.Machine.execCompositionDone fix s
  | .verticalBlanking => Sys2Proof.Machine.execVerticalBlanking s
  | .lastswapRead who => Sys2Proof.Machine.execLastswapRead who s
  | .scanoutUnderrun x y => Sys2Proof.Machine.execScanoutUnderrun x y s
  | .blitGo who op wm => Sys2Proof.Machine.execBlitGo who op wm s
  | .blitRowDone fix => Sys2Proof.Machine.execBlitRowDone fix s
  | .blitDone fix => Sys2Proof.Machine.execBlitDone fix s
  | .blitError => Sys2Proof.Machine.execBlitError s
  | .displayEnable who v => Sys2Proof.Machine.execDisplayEnable who v s
  | .hotPlug caps edid fast => Sys2Proof.Machine.execHotPlug caps edid fast s
  | .unplug => Sys2Proof.Machine.execUnplug s
  | .irqHpd lost => Sys2Proof.Machine.execIrqHpd lost s
  | .linkTrainingDone r drive => Sys2Proof.Machine.execLinkTrainingDone r drive s
  | .conversionTrigger n code => Sys2Proof.Machine.execConversionTrigger n code s
  | .conversionDone n => Sys2Proof.Machine.execConversionDone n s
  | .echoConversion n => Sys2Proof.Machine.execEchoConversion n s
  | .comparatorTrip k uv => Sys2Proof.Machine.execComparatorTrip k uv s
  | .blankWindowEnd k => Sys2Proof.Machine.execBlankWindowEnd k s
  | .comparatorRelease k uv => Sys2Proof.Machine.execComparatorRelease k uv s
  | .tripClear who hi mask => Sys2Proof.Machine.execTripClear who hi mask s
  | .pwmPeriodEnd m fix => Sys2Proof.Machine.execPwmPeriodEnd m fix s
  | .pwmUpdatePoint m => Sys2Proof.Machine.execPwmUpdatePoint m s
  | .loopSample lp code corr bad => Sys2Proof.Machine.execLoopSample lp code corr bad s
  | .loopOutput lp cyc => Sys2Proof.Machine.execLoopOutput lp cyc s
  | .tempUpdate t => Sys2Proof.Machine.execTempUpdate t s
  | .busSample b corr => Sys2Proof.Machine.execBusSample b corr s
  | .busSampleDeliver b => Sys2Proof.Machine.execBusSampleDeliver b s
  | .voiceStart who v => Sys2Proof.Machine.execVoiceStart who v s
  | .voiceStop who v => Sys2Proof.Machine.execVoiceStop who v s
  | .peakClear who b => Sys2Proof.Machine.execPeakClear who b s
  | .timerRun who n => Sys2Proof.Machine.execTimerRun who n s
  | .timerTick n rise partner => Sys2Proof.Machine.execTimerTick n rise partner s
  | .compareWrite who n v => Sys2Proof.Machine.execCompareWrite who n v s
  | .countWrite who n v => Sys2Proof.Machine.execCountWrite who n v s
  | .timerCountRead who n => Sys2Proof.Machine.execTimerCountRead who n s
  | .timerCapture n rise => Sys2Proof.Machine.execTimerCapture n rise s
  | .captureRead who n => Sys2Proof.Machine.execCaptureRead who n s
  | .eventCounterClear who k => Sys2Proof.Machine.execEventCounterClear who k s
  | .eventCounterClearAll who => Sys2Proof.Machine.execEventCounterClearAll who s
  | .eventSnapshot who clr => Sys2Proof.Machine.execEventSnapshot who clr s
  | .eventCountRead who k => Sys2Proof.Machine.execEventCountRead who k s
  | .snapshotTimeRead who => Sys2Proof.Machine.execSnapshotTimeRead who s
  | .opAdd c t => Sys2Proof.Machine.execOpAdd c t s
  | .opSub c t => Sys2Proof.Machine.execOpSub c t s
  | .opAnd c t => Sys2Proof.Machine.execOpAnd c t s
  | .opOr c t => Sys2Proof.Machine.execOpOr c t s
  | .opXor c t => Sys2Proof.Machine.execOpXor c t s
  | .opAndn c t => Sys2Proof.Machine.execOpAndn c t s
  | .opShl c t => Sys2Proof.Machine.execOpShl c t s
  | .opShr c t => Sys2Proof.Machine.execOpShr c t s
  | .opSar c t => Sys2Proof.Machine.execOpSar c t s
  | .opCmp c t => Sys2Proof.Machine.execOpCmp c t s
  | .opMin c t => Sys2Proof.Machine.execOpMin c t s
  | .opMax c t => Sys2Proof.Machine.execOpMax c t s
  | .opMinu c t => Sys2Proof.Machine.execOpMinu c t s
  | .opMaxu c t => Sys2Proof.Machine.execOpMaxu c t s
  | .opMul c t => Sys2Proof.Machine.execOpMul c t s
  | .opMulu c t => Sys2Proof.Machine.execOpMulu c t s
  | .opDiv c t => Sys2Proof.Machine.execOpDiv c t s
  | .opDivu c t => Sys2Proof.Machine.execOpDivu c t s
  | .opSqrt c t => Sys2Proof.Machine.execOpSqrt c t s
  | .opFadd c t => Sys2Proof.Machine.execOpFadd c t s
  | .opFsub c t => Sys2Proof.Machine.execOpFsub c t s
  | .opFmul c t => Sys2Proof.Machine.execOpFmul c t s
  | .opFdiv c t => Sys2Proof.Machine.execOpFdiv c t s
  | .opFsqrt c t => Sys2Proof.Machine.execOpFsqrt c t s
  | .opFcmp c t => Sys2Proof.Machine.execOpFcmp c t s
  | .opFtoi c t => Sys2Proof.Machine.execOpFtoi c t s
  | .opItof c t => Sys2Proof.Machine.execOpItof c t s
  | .opAddi c t => Sys2Proof.Machine.execOpAddi c t s
  | .opAndi c t => Sys2Proof.Machine.execOpAndi c t s
  | .opOri c t => Sys2Proof.Machine.execOpOri c t s
  | .opXori c t => Sys2Proof.Machine.execOpXori c t s
  | .opCmpi c t => Sys2Proof.Machine.execOpCmpi c t s
  | .opLui c t => Sys2Proof.Machine.execOpLui c t s
  | .opShi c t => Sys2Proof.Machine.execOpShi c t s
  | .opLd c t e => Sys2Proof.Machine.execOpLd c t e s
  | .opLdh c t e => Sys2Proof.Machine.execOpLdh c t e s
  | .opLdhu c t e => Sys2Proof.Machine.execOpLdhu c t e s
  | .opLdb c t e => Sys2Proof.Machine.execOpLdb c t e s
  | .opLdbu c t e => Sys2Proof.Machine.execOpLdbu c t e s
  | .opSt c t => Sys2Proof.Machine.execOpSt c t s
  | .opSth c t => Sys2Proof.Machine.execOpSth c t s
  | .opStb c t => Sys2Proof.Machine.execOpStb c t s
  | .opLdi c t e => Sys2Proof.Machine.execOpLdi c t e s
  | .opSti c t => Sys2Proof.Machine.execOpSti c t s
  | .opIn c t => Sys2Proof.Machine.execOpIn c t s
  | .opOut c t => Sys2Proof.Machine.execOpOut c t s
  | .opB c t => Sys2Proof.Machine.execOpB c t s
  | .opJ c t => Sys2Proof.Machine.execOpJ c t s
  | .opJr c t => Sys2Proof.Machine.execOpJr c t s
  | .opCall c t => Sys2Proof.Machine.execOpCall c t s
  | .opCallr c t => Sys2Proof.Machine.execOpCallr c t s
  | .opRet c t e => Sys2Proof.Machine.execOpRet c t e s
  | .opCallm c t => Sys2Proof.Machine.execOpCallm c t s
  | .opRetm c t e => Sys2Proof.Machine.execOpRetm c t e s
  | .opMfs c t => Sys2Proof.Machine.execOpMfs c t s
  | .opMts c t => Sys2Proof.Machine.execOpMts c t s
  | .opTrap c t => Sys2Proof.Machine.execOpTrap c t s
  | .opRetx c t e => Sys2Proof.Machine.execOpRetx c t e s
  | .opWfe c t => Sys2Proof.Machine.execOpWfe c t s
  | .wfeWake c t => Sys2Proof.Machine.execWfeWake c t s
  | .opSev c t => Sys2Proof.Machine.execOpSev c t s
  | .opWaitt c t => Sys2Proof.Machine.execOpWaitt c t s
  | .waittWake c t => Sys2Proof.Machine.execWaittWake c t s
  | .opIflush c t => Sys2Proof.Machine.execOpIflush c t s
  | .opBarx c t => Sys2Proof.Machine.execOpBarx c t s
  | .opBrk c t => Sys2Proof.Machine.execOpBrk c t s
  | .opRepb c t e => Sys2Proof.Machine.execOpRepb c t e s
  | .opBcpy c t e => Sys2Proof.Machine.execOpBcpy c t e s
  | .opBset c t => Sys2Proof.Machine.execOpBset c t s
  | .opBcmp c t e => Sys2Proof.Machine.execOpBcmp c t e s
  | .opBfnd c t e => Sys2Proof.Machine.execOpBfnd c t e s
  | .repeatElement c t e => Sys2Proof.Machine.execRepeatElement c t e s
  | .longOpRetire c t fid e => Sys2Proof.Machine.execLongOpRetire c t fid e s
  | .storeDrain c t => Sys2Proof.Machine.execStoreDrain c t s
  | .interruptEntry c => Sys2Proof.Machine.execInterruptEntry c s
  | .threadHalt who c mask all => Sys2Proof.Machine.execThreadHalt who c mask all s
  | .haltEffect c t => Sys2Proof.Machine.execHaltEffect c t s
  | .threadResume who c mask all => Sys2Proof.Machine.execThreadResume who c mask all s
  | .threadStep who c mask all => Sys2Proof.Machine.execThreadStep who c mask all s
  | .debugRegisterAccess who c wr => Sys2Proof.Machine.execDebugRegisterAccess who c wr s
  | .debugMemoryAccess who c wr e => Sys2Proof.Machine.execDebugMemoryAccess who c wr e s
  | .threadRestart who c t pc => Sys2Proof.Machine.execThreadRestart who c t pc s
  | .coalesceTimeout c id => Sys2Proof.Machine.execCoalesceTimeout c id s
  | .interruptClaim who c e => Sys2Proof.Machine.execInterruptClaim who c e s
  | .endOfInterrupt who c id e => Sys2Proof.Machine.execEndOfInterrupt who c id e s
  | .softwareSourceSet who c mask => Sys2Proof.Machine.execSoftwareSourceSet who c mask s
  | .softwareSourceClear who c mask => Sys2Proof.Machine.execSoftwareSourceClear who c mask s
  | .mailboxDataWrite who m j v => Sys2Proof.Machine.execMailboxDataWrite who m j v s
  | .mailboxSend who m agent => Sys2Proof.Machine.execMailboxSend who m agent s
  | .mailboxAck who m => Sys2Proof.Machine.execMailboxAck who m s
  | .msixSpacingEnd v => Sys2Proof.Machine.execMsixSpacingEnd v s
  | .msixUnmask who v => Sys2Proof.Machine.execMsixUnmask who v s
  | .outputWrite who b v => Sys2Proof.Machine.execOutputWrite who b v s
  | .outputSet who b v => Sys2Proof.Machine.execOutputSet who b v s
  | .outputClear who b v => Sys2Proof.Machine.execOutputClear who b v s
  | .outputToggle who b v => Sys2Proof.Machine.execOutputToggle who b v s
  | .pinTakeover who b mask => Sys2Proof.Machine.execPinTakeover who b mask s
  | .pinHandback who b mask => Sys2Proof.Machine.execPinHandback who b mask s
  | .pinEdge p lvl => Sys2Proof.Machine.execPinEdge p lvl s
  | .chatterTick => Sys2Proof.Machine.execChatterTick s
  | .stuckTimeout p => Sys2Proof.Machine.execStuckTimeout p s
  | .imageWriteWord who v => Sys2Proof.Machine.execImageWriteWord who v s
  | .imageReadWord who bad => Sys2Proof.Machine.execImageReadWord who bad s
  | .imageVerify who sl => Sys2Proof.Machine.execImageVerify who sl s
  | .imageCheckDone bad => Sys2Proof.Machine.execImageCheckDone bad s
  | .imageActivate who sl => Sys2Proof.Machine.execImageActivate who sl s
  | .goldenLock who sl => Sys2Proof.Machine.execGoldenLock who sl s
  | .imageStart flash fail bad => Sys2Proof.Machine.execImageStart flash fail bad s
  | .imageRun bad => Sys2Proof.Machine.execImageRun bad s
  | .startOk who code => Sys2Proof.Machine.execStartOk who code s
  | .startokTimeout => Sys2Proof.Machine.execStartokTimeout s
  | .journalCommitDone ok => Sys2Proof.Machine.execJournalCommitDone ok s
  | .functionLevelReset => Sys2Proof.Machine.execFunctionLevelReset s
  | .powerOnReset straps => Sys2Proof.Machine.execPowerOnReset straps s
  | .resetPin => Sys2Proof.Machine.execResetPin s
  | .deviceReset who code => Sys2Proof.Machine.execDeviceReset who code s
  | .restartCommand who code => Sys2Proof.Machine.execRestartCommand who code s
  | .perst => Sys2Proof.Machine.execPerst s
  | .trimLoadDone aGood bGood => Sys2Proof.Machine.execTrimLoadDone aGood bGood s
  | .domainRelease vdet => Sys2Proof.Machine.execDomainRelease vdet s
  | .railTimeout pd => Sys2Proof.Machine.execRailTimeout pd s
  | .domainReset who code pd => Sys2Proof.Machine.execDomainReset who code pd s
  | .domainOff who code pd => Sys2Proof.Machine.execDomainOff who code pd s
  | .domainOn who code pd => Sys2Proof.Machine.execDomainOn who code pd s
  | .domainOpStart vdet => Sys2Proof.Machine.execDomainOpStart vdet s
  | .domainReloadDone bad => Sys2Proof.Machine.execDomainReloadDone bad s
  | .faultClear who hi mask => Sys2Proof.Machine.execFaultClear who hi mask s
  | .faultStatusRead who => Sys2Proof.Machine.execFaultStatusRead who s
  | .firstTimeRead who => Sys2Proof.Machine.execFirstTimeRead who s
  | .firstSourceClear who => Sys2Proof.Machine.execFirstSourceClear who s
  | .collectorSelfFault => Sys2Proof.Machine.execCollectorSelfFault s
  | .safeEnter who code exitToo => Sys2Proof.Machine.execSafeEnter who code exitToo s
  | .safeExitRequest who code => Sys2Proof.Machine.execSafeExitRequest who code s
  | .safeEscalation => Sys2Proof.Machine.execSafeEscalation s
  | .supplyExcursion rail => Sys2Proof.Machine.execSupplyExcursion rail s
  | .temperatureExcursion t => Sys2Proof.Machine.execTemperatureExcursion t s
  | .refclkDeviation => Sys2Proof.Machine.execRefclkDeviation s
  | .watchdogEnable who timeout => Sys2Proof.Machine.execWatchdogEnable who timeout s
  | .watchdogKick who => Sys2Proof.Machine.execWatchdogKick who s
  | .falseKick who key => Sys2Proof.Machine.execFalseKick who key s
  | .watchdogStageEnd => Sys2Proof.Machine.execWatchdogStageEnd s
  | .lrefclkEdgeTimeout g => Sys2Proof.Machine.execLrefclkEdgeTimeout g s
  | .pwmEdge m => Sys2Proof.Machine.execPwmEdge m s
  | .patternCheckerSync n sync errs => Sys2Proof.Machine.execPatternCheckerSync n sync errs s
  | .supplyLoss rail begun => Sys2Proof.Machine.execSupplyLoss rail begun s
  | .supplyInRange rail => Sys2Proof.Machine.execSupplyInRange rail s
  | .temperatureBelowLimit t => Sys2Proof.Machine.execTemperatureBelowLimit t s
  | .refclkWithinLimit => Sys2Proof.Machine.execRefclkWithinLimit s
  | .managementLinkTrained bme msixEn fmask => Sys2Proof.Machine.execManagementLinkTrained bme msixEn fmask s
  | .firstSlotClockEdge => Sys2Proof.Machine.execFirstSlotClockEdge s

end Sys2Proof.Machine
end

