-- ==== Sys2Proof/Safety.lean ====
section
/-! DEFINITION. The terms in which the claims are stated: which accesses are served, what a command's next state holds, and the
invariants of the memories. -/
namespace Sys2Proof.Machine

/-- The requester reaches `off`, the block behind it answers, and no count of the image ends before it (R5, R11, R445). -/
def Served (s : State) (who : Requester) (off : Nat) : Prop :=
  s.reaches who off = true ∧ s.silent off = false ∧ s.uncounted off = false

/-- A read that is served and meets no damaged word (R485). -/
def ServedRead (s : State) (who : Requester) (off : Nat) : Prop := Served s who off ∧ s.damagedAt off = false

/-- The state after a write that was served: `t`, with nothing to return. -/
def State.written (t : State) : State := t.answer [] false false

/-- The state after a read that was served: `t`, with the word `w` returned. -/
def State.returned (t : State) (w : Word) : State := t.answer (wordBytes w.toNat) false false

/-- Commands that a thread of a core brings about without accessing a register: cores run on FCLK, several times faster than REFCLK, and
such a command falls in the REFCLK cycle that is running (log 1). -/
def ofThread : Instr → Bool
  | .opAdd .. | .opSub .. | .opAnd .. | .opOr .. | .opXor .. | .opAndn .. | .opShl .. | .opShr .. | .opSar .. | .opCmp ..
  | .opMin .. | .opMax .. | .opMinu .. | .opMaxu .. | .opMul .. | .opMulu .. | .opDiv .. | .opDivu .. | .opSqrt .. | .opFadd ..
  | .opFsub .. | .opFmul .. | .opFdiv .. | .opFsqrt .. | .opFcmp .. | .opFtoi .. | .opItof .. | .opAddi .. | .opAndi .. | .opOri ..
  | .opXori .. | .opCmpi .. | .opLui .. | .opShi .. | .opLd .. | .opLdh .. | .opLdhu .. | .opLdb .. | .opLdbu .. | .opSt ..
  | .opSth .. | .opStb .. | .opLdi .. | .opSti .. | .opB .. | .opJ .. | .opJr .. | .opCall .. | .opCallr .. | .opRet ..
  | .opCallm .. | .opRetm .. | .opMfs .. | .opMts .. | .opTrap .. | .opRetx .. | .opWfe .. | .wfeWake .. | .opSev .. | .opWaitt ..
  | .waittWake .. | .opIflush .. | .opBarx .. | .opBrk .. | .opRepb .. | .opBcpy .. | .opBset .. | .opBcmp .. | .opBfnd ..
  | .repeatElement .. | .longOpRetire .. | .storeDrain .. | .interruptEntry .. | .haltEffect .. => true
  | _ => false

/-- Who accesses a register or I/O word by the command, if anyone. -/
def accessor : Instr → Option Requester
  | .opIn c t => some (.core c t)
  | .opOut c t => some (.core c t)
  | i => i.requester

/-- The state in which command `i` finds the machine: the REFCLK cycle in which it falls has begun (log 1). -/
def begun (i : Instr) (s : State) : State :=
  match accessor i with
  | some w => s.accessCycle w
  | none => if ofThread i then s else s.eventCycle

/-- The command answers a next state of which `P` holds. -/
def Completes (i : Instr) (s : State) (P : State → Prop) : Prop := ∃ t, exec i s = .next t ∧ P t

/-- The command answers a next state `t`, and `P` holds of the state in which it finds the machine and of `t`. -/
def CompletesIn (i : Instr) (s : State) (P : State → State → Prop) : Prop := ∃ t, exec i s = .next t ∧ P (begun i s) t

/-- Thread `t` of core `c` can issue: it is its turn, and its next instruction is `i`, which nothing keeps waiting (R338 to R346). -/
def Issues (s : State) (c t : Nat) (i : Ins) : Prop :=
  s.myTurn c t = true ∧ s.front c t = .ins i ∧ (s.thr c t).blocked (s.flag (Reg.SEP_CCFG_OPEN c)) i = false

/-- The state in which the body of an issued instruction works: the turn is taken, its word has left the queue (R338, R340). -/
def State.issued (s : State) (c t : Nat) : State := advance (takeTurn s c t) c t 1

/-- The next state is that of thread `t` of core `c`, which has taken its turn, when the body of its instruction ends in `r`. -/
def IssuesTo (i : Instr) (s : State) (c t : Nat) (r : Res) : Prop := exec i s = .next (settleRes (takeTurn s c t) c t r)

/-- The memories of the TX48 are in canonical form: pipeline SRAM, DRAM, retained store, Sepia memories. -/
def State.MemoriesWf (s : State) : Prop :=
  Memory.wf s.sram = true ∧ Memory.wf s.dram.mem = true ∧ Memory.wf s.img.store = true ∧ Memory.wf s.sep.mem = true

/-- The two states hold the same registers but those at `offs`. -/
def RegsBut (offs : List Nat) (s t : State) : Prop := ∀ o, o ∉ offs → t.rd o = s.rd o

/-- `t` is `u` but for the registers at `offs` (and what the cycle remembers of their events, R9). -/
def OnlyRegs (offs : List Nat) (u t : State) : Prop := t = { u with regs := t.regs, cyc := t.cyc } ∧ RegsBut offs u t

/-- The two states hold the same bytes in every memory. -/
def SameMemories (s t : State) : Prop :=
  ∀ a, memByte t.sram a = memByte s.sram a ∧ memByte t.dram.mem a = memByte s.dram.mem a ∧
    memByte t.img.store a = memByte s.img.store a ∧ memByte t.sep.mem a = memByte s.sep.mem a

/-- Nothing disturbs thread `t` of core `c`: no word of core memory is damaged, and it is not single-stepped (R348, R359). -/
def Quiet (s : State) (c t : Nat) : Prop := s.sep.bad = [] ∧ s.dctlBit c (8 + t) = false

/-- From `u`, thread `t` of core `c` has moved to `pc`; a load leaves `old` readable to its next instruction (R339). Its queue is fetched
anew, products come nearer to ML and MH, and nothing else has changed, in this thread or elsewhere, but for the cores' turns (R338). -/
def ThreadMoved (u s : State) (c t : Nat) (pc : Word) (old : Option (Nat × Word)) : Prop :=
  let x := u.thr c t
  let y := s.thr c t
  y = { x with
    pc := pc, queue := y.queue, old := old, mul := y.mul, ml := y.ml, mh := y.mh, wait := none, mid := false } ∧
  (x.mul = [] → y.mul = [] ∧ y.ml = x.ml ∧ y.mh = x.mh) ∧
  (∀ k, k ≠ 4 * c + t → smGet Thread.idle s.sep.threads k = smGet Thread.idle u.sep.threads k) ∧
  s = { u with sep := { u.sep with threads := s.sep.threads, turn := s.sep.turn } }

/-- So, and it has issued an instruction: the next turn is that of the thread after it (R338). -/
def ThreadAt (u s : State) (c t : Nat) (pc : Word) (old : Option (Nat × Word)) : Prop :=
  ThreadMoved u s c t pc old ∧ s.sep.turn = smSet 0 u.sep.turn c ((t + 1) % 4)

/-- So, at the end of a wait: no turn has been taken. -/
def ThreadWoken (u s : State) (c t : Nat) (pc : Word) (old : Option (Nat × Word)) : Prop :=
  ThreadMoved u s c t pc old ∧ s.sep.turn = u.sep.turn

end Sys2Proof.Machine
end

