-- ==== Sys2Proof/Certificates/Slice0/Obligations.lean ====
section
/-! DEFINITION. The statements for the provers: what the commands of the TX48 do, by the numbered rules of the spec. -/

open Sys2Proof Sys2Proof.Machine

/-- A step takes the command at the front of the queue, oldest first, and is its meaning on the state with the rest of the queue. -/
def Obligations.StepRunsFront : Prop :=
  ∀ (c : Instr) (r : List Instr) (s : State), step { s with pending := c :: r } = exec c { s with pending := r }

/-- With no command waiting a step is one REFCLK cycle (the model's choice, log 1): the reference time advances by 1; the slot clock,
the cores and the memories of the pipeline and of DRAM do not move. What one cycle decides does not carry over (log 1): a command that
is no access and not a thread's own, and an access after something else or after the requester's own last access, find a new cycle. -/
def Obligations.IdleStepIsOneCycle : Prop :=
  (∀ (i : Instr) (s : State), accessor i = none → ofThread i = false → exec i s = exec i s.eventCycle) ∧
  (∀ (i : Instr) (who : Requester) (s : State), accessor i = some who → (s.cyc.ev = true ∨ who ∈ s.cyc.users) →
    exec i s = exec i { s with cyc := Cycle.clear s.flt.status }) ∧
  ∀ s : State, s.pending = [] → s.mdr.lanes.all (fun e => decide (e.2.held = [])) = true →
    ∃ t, step s = .next t ∧ t.cycle = s.cycle + 1 ∧ t.tb = s.tb ∧ t.sep = s.sep ∧ t.sram = s.sram ∧ t.dram = s.dram

/-- What power-on reset leaves (R10, R428, R435): PD00 alone is released, every register reads its Reset column, nothing waits, no
memory lists a byte. -/
def Obligations.ResetState : Prop :=
  (∀ d, d < 96 → State.reset.up d = decide (d = 0)) ∧
  (∀ off, State.reset.rd off = resetWord off ∧ State.reset.rdStaged off = resetWord off) ∧
  State.reset.rd Reg.GBL_ID = 0x0048B100#32 ∧ State.reset.rd (Reg.TMR_CTL 5) = 0 ∧
  State.reset.rd Reg.REL_CERTPER = 0x00007D00#32 ∧ State.reset.fld Reg.FLT_TLIM_HI = 1000 ∧
  State.reset.pending = [] ∧ State.reset.rtime = 0 ∧ State.reset.safe = false ∧ State.reset.running = false

/-- At reset the memories are in canonical form. -/
def Obligations.ResetMemoriesWf : Prop :=
State.reset.MemoriesWf

/-- Every step keeps the memories in canonical form, in every state and for every command. -/
def Obligations.StepKeepsMemoriesWf : Prop :=
  ∀ s t : State, s.MemoriesWf → step s = .next t → t.MemoriesWf

/-- No command changes the queue of commands that wait: a step only takes its front away, and one with nothing waiting leaves it empty.
-/
def Obligations.QueueIsFifo : Prop :=
  ∀ s t : State, step s = .next t → t.pending = s.pending.drop 1

/-- The sampled straps stand until the next power-on reset: no other command and no idle cycle samples them again (R431). -/
def Obligations.StrapsStand : Prop :=
  ∀ s t : State, (∀ k, s.pending.head? ≠ some (.powerOnReset k)) → step s = .next t →
    t.rst.strapBoot = s.rst.strapBoot ∧ t.rst.strapClk = s.rst.strapClk ∧ t.rst.strapMst = s.rst.strapMst

/-- Offsets with nothing behind them (R5): the block slots 0x18 to 0x1F, those that no row of a register map lists, those that the image's
counts leave unlisted, and those of the SRAM slots that the image leaves undefined. A read returns 0 and a write is discarded, without a fault; a block that is unpowered gives
the error completion instead. -/
def Obligations.UndefinedOffsets : Prop :=
  (∀ (off : Nat) (s : State), 0x1800000 ≤ off → off < 0x2000000 → s.vacant off = true) ∧
  (∀ (off : Nat) (s : State), off < 0x1800000 → regDef off = none → mirrorOf off = off → s.vacant off = true) ∧
  (∀ (off : Nat) (s : State), off < 0x1800000 → s.uncounted off = true → s.vacant off = true) ∧
  (∀ (off : Nat) (s : State), 0x2000000 ≤ off → off < 0x4000000 → s.inWindow off = false → s.vacant off = true) ∧
  (∀ (who : Requester) (off : Nat) (s : State), off % 4 = 0 → s.vacant off = true →
    (s.reaches who off = true → s.silent off = false → s.damagedAt off = false →
      CompletesIn (.readClear who off) s (fun s t => t = s.returned 0)) ∧
    (s.reaches who off = true → s.silent off = false →
      ∀ be v, CompletesIn (.registerWrite who off be v) s (fun s t => t = s.written)) ∧
    (s.reaches who off = true → s.silent off = true → CompletesIn (.readClear who off) s (fun s t =>
      t = (errorCompletion s).answer [255, 255, 255, 255] true false)))

/-- Register accesses by the access codes (R6, R8, R9, R34, R39), at every offset whose register no chapter gives an effect of its own. A full
write stores the written value in the RW bits, sets the W1S bits written 1 and clears the W1C bits written 1 that no event of this cycle
has set; where no other state follows the register nothing else changes. A read of a register with RC bits returns it and clears them but
for what this cycle's events add. A write of a banked register, staged or plain, reaches its staged value alone, or is discarded with
WDROP. A write with fewer than four byte enables is discarded, in a register and in a window, and raises the IMG error line, FLT_STATUS
bit 21 (R6). Completion: on the stated conditions, which are on the state and the operands alone, `exec i s = .next t` is the conclusion
for registerWrite, readClear, stagedWrite. -/
def Obligations.PlainAccesses : Prop :=
  ((∀ (who : Requester) (off : Nat) (d : RegDef) (v : Word) (s : State), off % 4 = 0 → off < 0x2000000 → Served s who off →
     s.listed off = some d → d.banked = false → ((s.accessCycle who).regEvent off).fresh = 0 →
     s.actsLow off v = none → s.actsMid off v = none → s.actsHigh off v = none → devsOf off = [] →
     (∀ u : State, afterPlain u off = u) →
     CompletesIn (.registerWrite who off 15#4 v) s fun s t =>
       t.rd off = (maskIn (s.rd off) v d.rw ||| (v &&& BitVec.ofNat 32 d.w1s)) &&& ~~~(v &&& BitVec.ofNat 32 d.w1c) ∧
       RegsBut [off] s t ∧ SameMemories s t ∧ t.staged = s.staged ∧ t.resp.err = false) ∧
   (∀ (who : Requester) (v : Word) (s : State), Served s who Reg.TB_ORBLOAD_LO →
     CompletesIn (.registerWrite who Reg.TB_ORBLOAD_LO 15#4 v) s fun s t =>
       t.rd Reg.TB_ORBLOAD_LO = v ∧ RegsBut [Reg.TB_ORBLOAD_LO] s t ∧ SameMemories s t ∧ t.staged = s.staged ∧ t.resp.err = false) ∧
   (∀ (who : Requester) (off : Nat) (d : RegDef) (s : State), off % 4 = 0 → off < 0x2000000 → ServedRead s who off →
     s.listed off = some d → d.banked = false → d.rc ≠ 0 → s.readActs off = none → onIdx off (Reg.SEP_ECCCNT 0) 0x100 32 = none →
     (s.accessCycle who).regEvent off = { before := s.rd off, fresh := 0 } →
     CompletesIn (.readClear who off) s fun s t =>
       t.resp.data = wordBytes (s.rd off).toNat ∧ t.rd off = s.rd off &&& ~~~(BitVec.ofNat 32 d.rc) ∧ RegsBut [off] s t ∧
       SameMemories s t ∧ t.staged = s.staged) ∧
   (∀ (who : Requester) (s : State), ServedRead s who Reg.RST_ISOCNT → (s.accessCycle who).cyc.regEv = [] →
     CompletesIn (.readClear who Reg.RST_ISOCNT) s fun s t =>
       t.resp.data = wordBytes (s.rd Reg.RST_ISOCNT).toNat ∧ t.fld Reg.RST_ISOCNT_COUNT = 0 ∧ RegsBut [Reg.RST_ISOCNT] s t ∧
       SameMemories s t)) ∧
  ((∀ (who : Requester) (off : Nat) (d : RegDef) (v : Word) (s : State), off % 4 = 0 → off < 0x2000000 → Served s who off →
     s.listed off = some d → d.banked = true →
     (s.stagedOpen = true →
       CompletesIn (.stagedWrite who off v) s (fun s t =>
         t.rdStaged off = maskIn (s.rdStaged off) (clampStaged off v) d.rw ∧ RegsBut [] s t ∧ SameMemories s t ∧
           ∀ o, o ≠ off → t.rdStaged o = s.rdStaged o) ∧
       CompletesIn (.registerWrite who off 15#4 v) s (fun s t =>
         t.rdStaged off = maskIn (s.rdStaged off) (clampStaged off v) d.rw ∧ RegsBut [] s t ∧ SameMemories s t ∧
           ∀ o, o ≠ off → t.rdStaged o = s.rdStaged o)) ∧
     (s.stagedOpen = false →
       CompletesIn (.stagedWrite who off v) s (fun s t => t = (s.event Reg.GBL_FLIPSTAT_WDROP).written) ∧
       CompletesIn (.registerWrite who off 15#4 v) s (fun s t => t = (s.event Reg.GBL_FLIPSTAT_WDROP).written))) ∧
   (∀ (who : Requester) (v : Word) (s : State), Served s who Reg.TB_SLIPMAX →
     CompletesIn (.stagedWrite who Reg.TB_SLIPMAX v) s fun s t =>
       if s.stagedOpen then
         wField (t.rdStaged Reg.TB_SLIPMAX) 6 0 = min (wField v 6 0) 64 ∧ RegsBut [] s t ∧ SameMemories s t ∧
           ∀ o, o ≠ Reg.TB_SLIPMAX → t.rdStaged o = s.rdStaged o
       else t.staged = s.staged ∧ t.flag Reg.GBL_FLIPSTAT_WDROP = true ∧ RegsBut [Reg.GBL_FLIPSTAT] s t ∧ SameMemories s t)) ∧
  (∀ (who : Requester) (off : Nat) (be : BitVec 4) (v : Word) (s : State), s.reaches who off = true →
     s.silent (off / 4 * 4) = false → s.vacant (off / 4 * 4) = false → be ≠ 15#4 →
     CompletesIn (.registerWrite who off be v) s (fun s t => t = (raiseLine (s.event Reg.IMG_STAT_BEERR) 21).written))

/-- An access to a block whose domain is down gets the error completion, which counts in RST_ISOCNT and sets RST_STAT.ISOERR: a read
returns all ones with an error, a write is discarded with an error (R445, R446). A host access while the management link is down has no
effect (R445); the other requesters reach the window while their own domain is up, a lane's control channel while remote access is
enabled (R11, R114). -/
def Obligations.UnansweredAccesses : Prop :=
  (∀ (who : Requester) (off : Nat) (s : State), off % 4 = 0 → s.reaches who off = true → s.silent off = true →
     CompletesIn (.readClear who off) s (fun s t => t = (errorCompletion s).answer [255, 255, 255, 255] true false) ∧
     (∀ be v, CompletesIn (.registerWrite who off be v) s (fun s t => t = (errorCompletion s).answer [] true false)) ∧
     (errorCompletion s).fld Reg.RST_ISOCNT_COUNT = satAdd 32 (s.fld Reg.RST_ISOCNT_COUNT) 1 ∧
     (errorCompletion s).flag Reg.RST_STAT_ISOERR = true ∧ SameMemories s (errorCompletion s)) ∧
  (∀ (who : Requester) (off : Nat) (be : BitVec 4) (v : Word) (s : State), s.reaches who off = false →
     CompletesIn (.registerWrite who off be v) s (fun s t => t = s) ∧ CompletesIn (.readClear who off) s (fun s t => t = s))

/-- A register-window read of an uncorrectable SECDED word returns all ones and counts once in the owning block; one that ECC corrects counts
there and reads as it stands (R485). A write of a word of a staged static plane stores bits [18:0], a cell's level and VOID being no part
of it (R160), and marks stale the Lake layers that name the plane (R161); while the staged bank is locked or busy it is discarded with
WDROP (R39). The host reads and writes DRAM through BAR2: a read returns the bytes of memory, a write stores the bytes that its byte
enables select and no other (R257, R259). Completion: on the stated conditions, which are on the state and the operands alone, `exec i s =
.next t` is the conclusion for eccWindowRead, planeWrite, bar2Access. -/
def Obligations.WindowsAndDamage : Prop :=
  (∀ (who : Requester) (off : Nat) (f : Fld) (s : State), off % 4 = 0 → Served s who off → s.eccOwner off = some f →
     ¬(0x1340000 ≤ off ∧ off < 0x1400000) →
     (off ≠ Reg.CND_PEDVAL → s.readWords off ≠ [] → CompletesIn (.eccWindowRead who off false) s (fun s t =>
       t = (uncorrected { s with ecc := (s.readWords off).foldl nsAdd s.ecc } f).answer [255, 255, 255, 255] false false)) ∧
     CompletesIn (.eccWindowRead who off true) s (fun s t =>
       t = regRead (corrected s ⟨f.off, 31, 16⟩ 1) who off)) ∧
  (∀ (who : Requester) (off : Nat) (v : Word) (s : State), off % 4 = 0 → Served s who off → s.inWindow off = true → s.inPlane off = true →
     (s.stagedOpen = true → CompletesIn (.planeWrite who off v) s (fun s t => t = (markStale { s with
         sram := memPutWord s.sram off (planeWord v.toNat), ecc := nsDel s.ecc off } ((off - (s.rd Reg.PF_SPBASE).toNat) / 0x8000)).written)) ∧
     (s.stagedOpen = false → CompletesIn (.planeWrite who off v) s (fun s t => t = (s.event Reg.GBL_FLIPSTAT_WDROP).written))) ∧
  ((∀ (off n : Nat) (s : State), s.pcie.linkUp = true → s.dramOk off n = true → wordsHit s.dram.bad off n = [] →
     CompletesIn (.bar2Access off n none []) s (fun s t =>
       t = s.answer ((List.range n).map fun i => memByte s.dram.mem (off + i)) false false)) ∧
   (∀ (off : Nat) (bs : List (Option Byte)) (s : State), s.pcie.linkUp = true → s.dramOk off bs.length = true →
     CompletesIn (.bar2Access off bs.length (some bs) []) s fun s t =>
       (∀ i b, bs[i]? = some (some b) → memByte t.dram.mem (off + i) = b.toNat) ∧
       (∀ a, (∀ i b, bs[i]? = some (some b) → a ≠ off + i) → memByte t.dram.mem a = memByte s.dram.mem a) ∧
       RegsBut [] s t ∧ t.sram = s.sram))

/-- The clock source stops, comes back and is locked again (R22): holdover is TB_STAT.STATE 3 with error line 54; the return begins the slew;
its end leaves holdover, for locked once markers have aligned the orbit and for seeking before. The first slot-clock edge after a start
(R24): slot 0 of orbit 0 begins, TB_STAT.STATE is seeking (1), or aligned at once (2, with a load request its number, in a void period
where VOIDORB is not 0, R25, R32) where the internal generator runs with MKNONE. A load request, and the two reads that latch the upper
half of what they return (R25, R43). Completion: on the stated conditions, which are on the state and the operands alone, `exec i s =
.next t` is the conclusion for holdoverEntry, sourceReturn, relockDone, firstSlotClockEdge, generatorLock, orbitLoadRequest, tbXidRead,
tbRtimeRead. -/
def Obligations.ClockInstants : Prop :=
  ((∀ s : State, s.up 3 = true → s.clkMode ≠ 2 → s.tbState ≠ 0 → s.holdover = false →
     CompletesIn .holdoverEntry s (fun s t =>
       t = raiseLine ({ s with tb := { s.tb with slewing := false } }.setFld Reg.TB_STAT_STATE 3) 54)) ∧
   (∀ s : State, s.tbState = 3 → s.tb.slewing = false →
     CompletesIn .sourceReturn s (fun s t => t = { s with tb := { s.tb with slewing := true } })) ∧
   (∀ s : State, s.tbState = 3 → s.tb.slewing = true → CompletesIn .relockDone s fun s t =>
     t.tbState = (if s.tb.aligned then 2 else 1) ∧
       OnlyRegs [Reg.TB_STAT] { s with tb := { s.tb with slewing := false } } t)) ∧
  ((∀ s : State, s.up 3 = true → s.tbState = 0 → s.clkMode ≠ 2 → CompletesIn .firstSlotClockEdge s fun s t =>
     t.tbState = 1 ∧ t.tb.slot = 0 ∧ t.tb.orbit = 0 ∧ t.tb.n = s.tb.n + 1 ∧ t.tb.orbStart = s.tb.n + 1 ∧ t.tb.aligned = false ∧
     t.fld Reg.TB_CURLEN_LEN = s.fld Reg.TB_ORBLEN_ORBLEN) ∧
   (∀ s : State, s.up 3 = true → s.tbState = 0 → s.clkMode = 2 → CompletesIn .generatorLock s fun s t =>
     t.tb.slot = 0 ∧ t.tb.n = s.tb.n + 1 ∧ t.tb.orbStart = s.tb.n + 1 ∧
     t.tb.orbit = (if s.flag Reg.TB_CFG_MKNONE && s.flag Reg.TB_CTL_LOAD
       then s.fld Reg.TB_ORBLOAD_HI_ORB_H * 2 ^ 32 + s.fld Reg.TB_ORBLOAD_LO_ORB_L else 0) ∧
     t.tb.aligned = s.flag Reg.TB_CFG_MKNONE ∧ t.tbState = (if s.flag Reg.TB_CFG_MKNONE then 2 else 1) ∧
     (s.flag Reg.TB_CFG_MKNONE = true → s.fld Reg.TB_LOSS_VOIDORB ≠ 0 →
       t.flag Reg.TB_STAT_VOIDING = true ∧ t.tb.voiding = true) ∧
     t.fld Reg.TB_CURLEN_LEN = s.fld Reg.TB_ORBLEN_ORBLEN)) ∧
  ((∀ (who : Requester) (s : State), Served s who Reg.TB_CTL →
     CompletesIn (.orbitLoadRequest who) s (fun s t => t = (s.setFld Reg.TB_CTL_LOAD 1).written)) ∧
   (∀ (who : Requester) (s : State), ServedRead s who Reg.TB_XID_LO → CompletesIn (.tbXidRead who) s fun s t =>
     t = (s.wr Reg.TB_XID_HI (BitVec.ofNat 32 (s.tb.orbit / 65536))).returned
       (BitVec.ofNat 32 (s.tb.orbit % 65536 * 65536 + s.tb.slot))) ∧
   (∀ (who : Requester) (s : State), ServedRead s who Reg.TB_RTIME_LO → CompletesIn (.tbRtimeRead who) s fun s t =>
     t = (s.wr Reg.TB_RTIME_HI (BitVec.ofNat 32 (s.rtime / 2 ^ 32))).returned (BitVec.ofNat 32 s.rtime)))

/-- A slot-clock edge numbers the slot that it begins (R15, R17, R25, R27): the next slot of the orbit, or slot 0 of the next orbit, whose
number is the loaded one after a load request; and one of no clock is none. Completion: on the stated conditions, which are on the state
and the operands alone, `exec i s = .next t` is the conclusion for slotStart. -/
def Obligations.SlotNumbering : Prop :=
  ∀ (dt : Nat) (s : State), s.up 3 = true → s.tbState ≠ 0 → s.tb.aligned = true → s.tb.laneMark = false →
    CompletesIn (.slotStart dt []) s fun s t =>
      t.tb.n = s.tb.n + 1 ∧ t.tb.ps = s.tb.ps + dt ∧
      (s.tb.slot + 1 < s.fld Reg.TB_CURLEN_LEN →
        t.tb.slot = s.tb.slot + 1 ∧ t.tb.orbit = s.tb.orbit ∧ t.tb.orbStart = s.tb.orbStart) ∧
      (s.fld Reg.TB_CURLEN_LEN ≤ s.tb.slot + 1 →
        t.tb.slot = 0 ∧ t.tb.orbStart = s.tb.n + 1 ∧
        t.tb.orbit = (if s.flag Reg.TB_CTL_LOAD then s.fld Reg.TB_ORBLOAD_HI_ORB_H * 2 ^ 32 + s.fld Reg.TB_ORBLOAD_LO_ORB_L
          else (s.tb.orbit + 1) % 2 ^ 48))

/-- A marker that is sampled outside holdover in the slip window of an aligned time base (R27, R31, R484): in the head of the orbit it is
taken there; in the tail its deviation is kept for the next orbit; one outside it begins an orbit by itself, and a void period where
VOIDORB is not 0. Completion: on the stated conditions, which are on the state and the operands alone, `exec i s = .next t` is the
conclusion for orbitMarker. -/
def Obligations.MarkerJudged : Prop :=
  ∀ (dt : Nat) (s : State), s.up 3 = true → s.tbState ≠ 0 → s.tb.aligned = true → s.marksJudged = true → s.tb.awaitMark = false →
    s.holdover = false → s.tb.slot + 1 < s.fld Reg.TB_CURLEN_LEN →
    CompletesIn (.orbitMarker dt []) s fun s t =>
      t.tb.n = s.tb.n + 1 ∧
      (s.tb.slot + 1 ≤ s.slipMax → s.tb.seen = false →
        t.tb.slot = s.tb.slot + 1 ∧ t.tb.orbit = s.tb.orbit ∧ t.tb.seen = true) ∧
      (s.slipMax < s.tb.slot + 1 → s.fld Reg.TB_CURLEN_LEN ≤ s.tb.slot + 1 + s.slipMax → s.tb.seenNext = false →
        t.tb.slot = s.tb.slot + 1 ∧ t.tb.orbit = s.tb.orbit ∧ t.tb.seenNext = true ∧
        t.tb.nextDev = (s.tb.slot + 1 : Int) - (s.fld Reg.TB_CURLEN_LEN : Int)) ∧
      (s.slipMax < s.tb.slot + 1 → s.tb.slot + 1 + s.slipMax < s.fld Reg.TB_CURLEN_LEN →
        t.tb.slot = 0 ∧ t.tb.orbStart = s.tb.n + 1 ∧ (s.fld Reg.TB_LOSS_VOIDORB ≠ 0 → t.tb.voiding = true))

/-- A flip request becomes the pending one, in place of any that waits; a cancel removes it; neither touches a locked one (R35, R36). The bank
copy ends (R38): every staged value equals the live one, the staged planes hold the live planes' bytes, BUSY clears. The stamp read
latches the other three words of the stamp (R42). Completion: on the stated conditions, which are on the state and the operands alone,
`exec i s = .next t` is the conclusion for flipRequest, flipCancel, bankCopyDone, flipstampRead. -/
def Obligations.BankFlips : Prop :=
  ((∀ (who : Requester) (journal aten : Bool) (at_ : BitVec 16) (s : State), Served s who Reg.GBL_FLIP →
     CompletesIn (.flipRequest who journal aten at_) s fun s t =>
       t = ({ s with flip := { s.flip with
         pending := some { journal := journal, aten := aten, at_ := at_.toNat } } }.setFld Reg.GBL_FLIPSTAT_PEND 1).written ∧
       t.flag Reg.GBL_FLIPSTAT_PEND = true ∧ t.flag Reg.GBL_FLIPSTAT_LOCKED = s.flag Reg.GBL_FLIPSTAT_LOCKED) ∧
   (∀ (who : Requester) (s : State), Served s who Reg.GBL_FLIP → CompletesIn (.flipCancel who) s fun s t =>
     t = ({ s with flip := { s.flip with pending := none } }.setFld Reg.GBL_FLIPSTAT_PEND 0).written ∧
     t.flag Reg.GBL_FLIPSTAT_PEND = false ∧ t.flag Reg.GBL_FLIPSTAT_LOCKED = s.flag Reg.GBL_FLIPSTAT_LOCKED)) ∧
  ((∀ s : State, s.flip.copying = true → CompletesIn .bankCopyDone s fun s t =>
     (∀ off, isBanked off = true → t.rdStaged off = s.rd off) ∧
     t.flag Reg.GBL_FLIPSTAT_BUSY = false ∧ t.flip = { s.flip with copying := false, oldBank := false } ∧
     RegsBut [Reg.GBL_FLIPSTAT] s t ∧ t.dram = s.dram ∧ t.sep = s.sep ∧ t.img = s.img ∧
     (∀ a, s.inStaged a = none → memByte t.sram a = memByte s.sram a) ∧
     (Memory.wf s.sram = true →
       (∀ r ∈ s.bankedSram, ∀ i, i < r.size → s.inStaged (r.staged + i) = some r ∧ s.inLive (r.live + i) = some r) →
       ∀ r ∈ s.bankedSram, ∀ i, i < r.size → memByte t.sram (r.staged + i) = memByte s.sram (r.live + i))) ∧
   (∀ (who : Requester) (s : State), ServedRead s who Reg.GBL_FLIPSTAMP0 → CompletesIn (.flipstampRead who) s fun s t =>
     t.resp.data = wordBytes (s.rd Reg.GBL_FLIPSTAMP0).toNat ∧ t.rd Reg.GBL_FLIPSTAMP1 = BitVec.ofNat 32 (s.flip.stampOrbit / 2 ^ 32) ∧
     t.rd Reg.GBL_FLIPSTAMP2 = BitVec.ofNat 32 s.flip.stampTime ∧ t.rd Reg.GBL_FLIPSTAMP3 = BitVec.ofNat 32 (s.flip.stampTime / 2 ^ 32) ∧
     OnlyRegs [Reg.GBL_FLIPSTAMP1, Reg.GBL_FLIPSTAMP2, Reg.GBL_FLIPSTAMP3] (s.returned (s.rd Reg.GBL_FLIPSTAMP0)) t))

/-- A result reaches its release register (R51): the ring entry of its crossing takes the word, present from the next FCLK edge on; for a
crossing that is late, or whose release instant has passed, it is discarded and counted (R54). An exchange stream carries the word with
ACC 0 and no strobe. A read of REL_SENT[s] latches REL_SENTX[s]: the orbit of the record and its replay slack (R60). SMCLR sets every
sticky minimum to 0xFFFF (R67). Completion: on the stated conditions, which are on the state and the operands alone, `exec i s = .next t`
is the conclusion for resultArrival, sentinelRead, sentinelClear. -/
def Obligations.ReleaseUnit : Prop :=
  (∀ (st : Fin 16) (back ph x w : Nat) (strobe : Bool) (c : StreamCfg) (s : State), s.running = true → back ≤ s.tb.n →
     x = s.tb.n - back → st.val < s.fld Reg.REL_CFG_NSTREAM → s.rel.firstX ≤ x → s.img.streams[st.val]? = some c →
     s.rel.results.find? (fun r => decide (r.1 = x)) = some (x, w, strobe) → (s.relEntry st x).present = false →
     ((s.relEntry st x).late = false → s.tb.n < x + s.fld (Reg.REL_LAT_L st) → CompletesIn (.resultArrival st back ph) s (fun s t => t = (s.setRel st { s.relEntry st x with
       word := if c.dec then BitVec.ofNat 64 w else BitVec.ofNat 64 w &&& ~~~(1#64 <<< 62),
       strobe := c.dec && strobe, arrival := fclkAt s.tb.ps + ph, present := true }))) ∧
     ((s.relEntry st x).late = true ∨ x + s.fld (Reg.REL_LAT_L st) ≤ s.tb.n →
       CompletesIn (.resultArrival st back ph) s (fun s t => t = s.count (Reg.REL_LATECNT_DROP st) 1))) ∧
  ((∀ (who : Requester) (st : Fin 16) (rep : Nat) (s : State), ServedRead s who (Reg.REL_SENT st) →
     s.rel.pubRep.find? (fun e => decide (e.1 = st.val)) = some (st.val, rep) → CompletesIn (.sentinelRead who st) s fun s t =>
       t.resp.data = wordBytes (s.rd (Reg.REL_SENT st)).toNat ∧ t.fld (Reg.REL_SENTX_ORBIT_L st) = s.rel.pubOrbit % 2 ^ 16 ∧
       t.fld (Reg.REL_SENTX_RSLACK st) = rep % 2 ^ 16 ∧ OnlyRegs [Reg.REL_SENTX st] (s.returned (s.rd (Reg.REL_SENT st))) t) ∧
   (∀ (who : Requester) (s : State), Served s who Reg.REL_CTL → CompletesIn (.sentinelClear who) s fun s t =>
     (∀ st, st < 16 → t.fld (Reg.REL_SENTMIN_MIN st) = 0xFFFF) ∧
     OnlyRegs ((List.range 16).map Reg.REL_SENTMIN) s.written t))

/-- The regulator answers, or does not, and the SETTLE time ends (R62): no response sets NORESP with error line 2; a status is kept; an alert
also sets AVSERR with the line; after SETTLE a further request may be made. Tap sets (R80, R81, R89): LNK_TXPRE is held; a write of
LNK_TXMAIN, SWING clamped, makes a set of both: refused with FFEERR and error line 3 when invalid, waiting for the next frame boundary in
READY, in use at once elsewhere. Completion: on the stated conditions, which are on the state and the operands alone, `exec i s = .next t`
is the conclusion for avsStatusResponse, avsSettleEnd, txpreWrite, txmainWrite, tapSetApply. -/
def Obligations.SupplyAndTaps : Prop :=
  (∀ s : State, s.up 3 = true →
     (∀ alert, CompletesIn (.avsStatusResponse none alert) s (fun s t => t = raiseLine (s.setFld Reg.REL_AVSSTAT_NORESP 1) 2)) ∧
     (∀ st : BitVec 16, CompletesIn (.avsStatusResponse (some st) false) s fun s t =>
       t.flag Reg.REL_AVSSTAT_NORESP = false ∧ t.fld Reg.REL_AVSSTAT_LASTSTAT = st.toNat / 256 ∧ OnlyRegs [Reg.REL_AVSSTAT] s t) ∧
     (∀ st : BitVec 16, CompletesIn (.avsStatusResponse (some st) true) s (fun s t =>
       t = (raiseLine (((s.setFld Reg.REL_AVSSTAT_NORESP 0).setFld
       Reg.REL_AVSSTAT_LASTSTAT (st.toNat / 256)).event Reg.REL_STAT_AVSERR) 2))) ∧
     CompletesIn .avsSettleEnd s fun s t => t.flag Reg.REL_AVSSTAT_BUSY = false ∧ OnlyRegs [Reg.REL_AVSSTAT] s t) ∧
  (∀ (who : Requester) (n : Fin 48) (v : Word) (s : State),
     (Served s who (Reg.LNK_TXPRE n) → CompletesIn (.txpreWrite who n v) s fun s t =>
       t.rd (Reg.LNK_TXPRE n) = v &&& 0x00FFFFFF#32 ∧ OnlyRegs [Reg.LNK_TXPRE n] s.written t) ∧
     (Served s who (Reg.LNK_TXMAIN n) → CompletesIn (.txmainWrite who n v) s (fun s t => t = (
       let main := clampSwing (v &&& 0xFF00FFFF#32)
       let pre := s.rd (Reg.LNK_TXPRE n)
       let t := s.wr (Reg.LNK_TXMAIN n) main
       if tapsValid pre main then
         (if s.lnkState n = 4 then t.setLane n { s.lane n with next := some (pre, main) }
           else t.setLane n { s.lane n with pre := pre, main := main, next := none }).written
       else (raiseLine (t.event (Reg.LNK_STAT_FFEERR n)) 3).written))) ∧
     (∀ pre main, (s.lane n).next = some (pre, main) →
       CompletesIn (.tapSetApply n) s (fun s t => t = s.setLane n { s.lane n with pre := pre, main := main, next := none })))

/-- A Madder lane comes up (R74, R75): its PLL locks, calibration takes it from CAL to IDLE, signal detect to ACQ; CDR lock to READY; a rate
change back to ACQ at the rate that MDR wants, with the PLL locking again. What goes wrong on a lane (R76, R78): a PLL that does not lock
is flagged and tries again; a third failed calibration in a row is FAULT; a loss in READY is flagged and the lane acquires again at its
rate, with its line when LOSERR asks for it. MDR then takes the link down (R109). The clock groups (R71, R72): a comparison within 200
ppm, or in a group whose fault stands, is recorded alone; one beyond it, or no edge for 1 us, also declares the fault once; recovery ends
it and brings up its lanes that are in CAL, and no other. Completion: on the stated conditions, which are on the state and the operands
alone, `exec i s = .next t` is the conclusion for pllLock, calibrationDone, signalDetect, cdrLock, rateChange, pllLockTimeout,
calibrationFail, lossOfSignal, lossOfLock, clockGroupMeasure, lrefclkEdgeTimeout, groupClockRecovery. -/
def Obligations.LanesAndClocks : Prop :=
  (∀ (n : Fin 48) (s : State), s.laneUp n = true → s.madder n = true →
     ((s.lane n).pllBusy = true → s.lnk.grpFault.contains (n.val / 12) = false →
       CompletesIn (.pllLock n) s (fun s t => t = s.setLane n { s.lane n with pllBusy := false })) ∧
     (s.lnkState n = 1 → (s.lane n).pllBusy = false → CompletesIn (.calibrationDone n) s fun s t =>
       t.lnkState n = 2 ∧ OnlyRegs [Reg.LNK_STAT n] (s.setLane n { s.lane n with calFails := 0 }) t) ∧
     (s.lnkState n = 2 → CompletesIn (.signalDetect n) s fun s t =>
       t.lnkState n = 3 ∧ t.flag (Reg.LNK_STAT_SIGDET n) = true ∧ OnlyRegs [Reg.LNK_STAT n] s t) ∧
     (∀ (ctle vga : BitVec 5) (dfe : List (BitVec 8)), s.lnkState n = 3 → (s.lane n).pllBusy = false → (s.lane n).restart = false →
       s.fld (Reg.LNK_RXEQ_ADAPT n) = 0 → CompletesIn (.cdrLock n ctle vga dfe) s fun s t =>
         t.lnkState n = 4 ∧ t.fld (Reg.LNK_RXSTAT_CTLE n) = min ctle.toNat 20 ∧ t.fld (Reg.LNK_RXSTAT_VGA n) = vga.toNat ∧
         OnlyRegs [Reg.LNK_STAT n, Reg.LNK_RXSTAT n, Reg.LNK_DFE0 n, Reg.LNK_DFE1 n, Reg.LNK_DFE2 n] s t) ∧
     (s.lnkState n = 2 ∨ s.lnkState n = 3 ∨ s.lnkState n = 4 → CompletesIn (.rateChange n) s fun s t =>
       t.lnkState n = 3 ∧ t.fld (Reg.LNK_STAT_RATE n) = s.wantedRate n % 8 ∧ (t.lane n).pllBusy = true ∧ t.rd (Reg.LNK_EYE n) = 0 ∧
       RegsBut [Reg.LNK_STAT n, Reg.LNK_EYE n] s t ∧ SameMemories s t)) ∧
  (∀ (n : Fin 48) (s : State), s.laneUp n = true →
     ((s.lane n).pllBusy = true →
       CompletesIn (.pllLockTimeout n) s (fun s t => t = raiseLine (s.event (Reg.LNK_STAT_PLLERR n)) (22 + n.val / 4))) ∧
     (s.madder n = true → s.lnkState n = 1 → (s.lane n).pllBusy = false →
       CompletesIn (.calibrationFail n) s (fun s t => t = (
         let t := s.setLane n { s.lane n with calFails := (s.lane n).calFails + 1 }
         if 2 ≤ (s.lane n).calFails
         then raiseLine ((t.setFld (Reg.LNK_STAT_STATE n) 7).event (Reg.LNK_STAT_CALERR n)) (22 + n.val / 4) else t))) ∧
     (s.madder n = true → s.lnkState n = 4 → s.lstate n ≠ 4 → s.flag (Reg.LNK_CTL_LOSERR n) = false →
       (CompletesIn (.lossOfSignal n) s fun s t =>
         t.lnkState n = 3 ∧ t.flag (Reg.LNK_STAT_LOS n) = true ∧ t.flag (Reg.LNK_STAT_SIGDET n) = false ∧ t.rd (Reg.LNK_EYE n) = 0 ∧
         OnlyRegs [Reg.LNK_STAT n, Reg.LNK_EYE n] s t) ∧
       CompletesIn (.lossOfLock n) s fun s t =>
         t.lnkState n = 3 ∧ t.flag (Reg.LNK_STAT_LOL n) = true ∧ t.rd (Reg.LNK_EYE n) = 0 ∧
         OnlyRegs [Reg.LNK_STAT n, Reg.LNK_EYE n] s t) ∧
     (s.madder n = true → s.lnkState n = 4 →
       CompletesIn (.lossOfSignal n) s (fun s t => t = linkDown (lnkLoss s n (Reg.LNK_STAT_LOS n) true) n) ∧
       CompletesIn (.lossOfLock n) s (fun s t => t = linkDown (lnkLoss s n (Reg.LNK_STAT_LOL n) false) n))) ∧
  (∀ (g : Fin 4) (s : State),
     (∀ ppm : BitVec 16, (-200 ≤ ppm.toInt ∧ ppm.toInt ≤ 200) ∨ s.lnk.grpFault.contains g.val = true →
       CompletesIn (.clockGroupMeasure g ppm) s fun s t =>
         t.flag (Reg.LNK_GRPSTAT_PRESENT g) = true ∧ t.fld (Reg.LNK_GRPSTAT_PPM g) = ppm.toNat ∧ OnlyRegs [Reg.LNK_GRPSTAT g] s t) ∧
     (∀ ppm : BitVec 16, (ppm.toInt < -200 ∨ 200 < ppm.toInt) → s.lnk.grpFault.contains g.val = false →
       CompletesIn (.clockGroupMeasure g ppm) s (fun s t => t = clockFault (groupMeasure s g ppm.toInt) g)) ∧
     (s.lnk.grpFault.contains g.val = true → CompletesIn (.lrefclkEdgeTimeout g) s fun s t =>
       t.flag (Reg.LNK_GRPSTAT_PRESENT g) = false ∧ OnlyRegs [Reg.LNK_GRPSTAT g] s t) ∧
     (s.lnk.grpFault.contains g.val = false →
       CompletesIn (.lrefclkEdgeTimeout g) s (fun s t => t = clockFault (s.setFld (Reg.LNK_GRPSTAT_PRESENT g) 0) g)) ∧
     (s.lnk.grpFault.contains g.val = true → s.flag (Reg.LNK_GRPSTAT_PRESENT g) = true → -200 ≤ s.groupPpm g → s.groupPpm g ≤ 200 →
       CompletesIn (.groupClockRecovery g) s fun s t =>
         t.lnk.grpFault = nsDel s.lnk.grpFault g ∧ SameMemories s t ∧
         (∀ n, 12 * g.val ≤ n → n < 12 * g.val + 12 → s.laneUp n = true → s.madder n = true → s.lnkState n = 1 →
           t.lnkState n = 1 ∧ t.fld (Reg.LNK_STAT_RATE n) = 1 ∧ (t.lane n).pllBusy = true) ∧
         (∀ n, ¬(12 * g.val ≤ n ∧ n < 12 * g.val + 12) ∨ s.lnkState n ≠ 1 →
           t.lane n = s.lane n ∧ t.rd (Reg.LNK_STAT n) = s.rd (Reg.LNK_STAT n)) ∧
         RegsBut (((groupLanes g).map Reg.LNK_STAT) ++ (groupLanes g).map Reg.LNK_EYE) s t))

/-- The receive side in READY (R82, R83): READAPT runs adaptation again and clears; the eye monitor's values are shown, and adaptation goes on
as far as the mode lets it. Test mode (R84, R85, R86): LOOP, GEN or CHK takes a lane whose link is down to TEST at the test rate; clearing
them returns it to IDLE at 10.3125 Gb/s; the checker counts errors while it is in step; AC EXTEST only marks the lane. DisplayPort lanes
46 and 47 (R87, R88): LNK_DP takes the drive settings; a new rate starts the PLL again and shows once it locks; a write while SRV trains
is discarded. Completion: on the stated conditions, which are on the state and the operands alone, `exec i s = .next t` is the conclusion
for readapt, eyeUpdate, testModeEnter, testModeExit, patternCheckerSync, acExtest, dpDriveWrite, dpRateRelock. -/
def Obligations.ReceiversAndTests : Prop :=
  (∀ (n : Fin 48) (s : State), s.laneUp n = true → s.lnkState n = 4 →
     (∀ (who : Requester) (ctle vga : BitVec 5) (dfe : List (BitVec 8)), Served s who (Reg.LNK_CTL n) → s.fld (Reg.LNK_RXEQ_ADAPT n) = 0 →
       CompletesIn (.readapt who n ctle vga dfe) s fun s t =>
         t.flag (Reg.LNK_CTL_READAPT n) = false ∧ t.flag (Reg.LNK_CTL_TXSQ n) = s.flag (Reg.LNK_CTL_TXSQ n) ∧
         t.fld (Reg.LNK_RXSTAT_CTLE n) = min ctle.toNat 20 ∧ t.fld (Reg.LNK_RXSTAT_VGA n) = vga.toNat ∧
         OnlyRegs [Reg.LNK_CTL n, Reg.LNK_RXSTAT n, Reg.LNK_DFE0 n, Reg.LNK_DFE1 n, Reg.LNK_DFE2 n] s.written t) ∧
     (∀ (h w : BitVec 8) (eye : BitVec 2) (snr : BitVec 10) (ctle vga : BitVec 5) (dfe : List (BitVec 8)),
       CompletesIn (.eyeUpdate n h w eye snr ctle vga dfe) s fun s t =>
       t.fld (Reg.LNK_EYE_HEIGHT n) = h.toNat ∧ t.fld (Reg.LNK_EYE_WIDTH n) = w.toNat ∧ t.fld (Reg.LNK_EYE_EYE n) = eye.toNat ∧
       t.fld (Reg.LNK_EYE_SNR n) = snr.toNat ∧
       (s.fld (Reg.LNK_RXEQ_ADAPT n) = 0 →
         t.fld (Reg.LNK_RXSTAT_CTLE n) = min ctle.toNat 20 ∧ t.fld (Reg.LNK_RXSTAT_VGA n) = vga.toNat) ∧
       (s.fld (Reg.LNK_RXEQ_ADAPT n) = 0 ∨ s.fld (Reg.LNK_RXEQ_ADAPT n) = 2 →
         OnlyRegs [Reg.LNK_EYE n, Reg.LNK_RXSTAT n, Reg.LNK_DFE0 n, Reg.LNK_DFE1 n, Reg.LNK_DFE2 n] s t) ∧
       (s.fld (Reg.LNK_RXEQ_ADAPT n) ≠ 0 → t.rd (Reg.LNK_RXSTAT n) = s.rd (Reg.LNK_RXSTAT n)) ∧
       (s.fld (Reg.LNK_RXEQ_ADAPT n) = 1 ∨ s.fld (Reg.LNK_RXEQ_ADAPT n) = 3 → OnlyRegs [Reg.LNK_EYE n] s t))) ∧
  (∀ (n : Fin 48) (s : State),
     (∀ (who : Requester) (v : Word), Served s who (Reg.LNK_TEST n) → s.laneUp n = true → s.madder n = true → s.lnkState n ≠ 0 → s.lnkState n ≠ 7 →
       s.lstate n ≠ 4 → testSet v = true → CompletesIn (.testModeEnter who n v) s fun s t =>
         t.lnkState n = 5 ∧ t.fld (Reg.LNK_STAT_RATE n) = testRate v ∧ t.rd (Reg.LNK_TEST n) = v &&& BitVec.ofNat 32 RegTab.row_LNK_TEST.rw ∧
         OnlyRegs [Reg.LNK_TEST n, Reg.LNK_STAT n, Reg.LNK_EYE n, Reg.LNK_PRBSCNT n] s.written t) ∧
     (∀ (who : Requester) (v : Word), Served s who (Reg.LNK_TEST n) → s.laneUp n = true → s.madder n = true → s.lnkState n = 5 →
       CompletesIn (.testModeExit who n v) s fun s t =>
         t.lnkState n = 2 ∧ t.fld (Reg.LNK_STAT_RATE n) = 1 ∧ t.flag (Reg.LNK_PRBSCNT_SYNC n) = false ∧
         OnlyRegs [Reg.LNK_TEST n, Reg.LNK_STAT n, Reg.LNK_PRBSCNT n]
           (s.setLane n { s.lane n with restart := true, pllBusy := false }).written t) ∧
     (∀ (sync : Bool) (errs : Nat), s.laneUp n = true → s.lnkState n = 5 → s.flag (Reg.LNK_TEST_CHK n) = true →
       CompletesIn (.patternCheckerSync n sync errs) s fun s t =>
         t.flag (Reg.LNK_PRBSCNT_SYNC n) = sync ∧
         t.fld (Reg.LNK_PRBSCNT_ERR n) = (if s.flag (Reg.LNK_PRBSCNT_SYNC n) then satAdd 31 (s.fld (Reg.LNK_PRBSCNT_ERR n)) errs
           else s.fld (Reg.LNK_PRBSCNT_ERR n)) ∧ OnlyRegs [Reg.LNK_PRBSCNT n] s t) ∧
     (∀ on, CompletesIn (.acExtest n on) s (fun s t => t = s.setLane n { s.lane n with extest := on }))) ∧
  (∀ (n : Fin 48) (s : State), s.dpLane n = true → s.lnkState n = 6 →
     (∀ (who : Requester) (v : Word), Served s who (Reg.LNK_DP n) → s.dpTraining = true →
       CompletesIn (.dpDriveWrite who n v) s (fun s t => t = s.written)) ∧
     (∀ (who : Requester) (v : Word), Served s who (Reg.LNK_DP n) → s.dpTraining = false →
       CompletesIn (.dpDriveWrite who n v) s fun s t =>
       t.rd (Reg.LNK_DP n) = v &&& BitVec.ofNat 32 RegTab.row_LNK_DP.rw ∧
       (t.fld (Reg.LNK_DP_RATE n) = s.fld (Reg.LNK_DP_RATE n) → OnlyRegs [Reg.LNK_DP n] s.written t) ∧
       (t.fld (Reg.LNK_DP_RATE n) ≠ s.fld (Reg.LNK_DP_RATE n) →
         OnlyRegs [Reg.LNK_DP n] (s.setLane n { s.lane n with pllBusy := true }).written t)) ∧
     (s.laneUp n = true → (s.lane n).pllBusy = true → CompletesIn (.dpRateRelock n) s fun s t =>
       t.fld (Reg.LNK_STAT_RATE n) = 6 + s.fld (Reg.LNK_DP_RATE n) ∧
       OnlyRegs [Reg.LNK_STAT n] (s.setLane n { s.lane n with pllBusy := false }) t))

/-- Negotiation messages of a lane in HELLO, PROOF and TRAIN (R105, R106, R107, R111, R117): a HELLO leaves; one that arrives is kept, with
the sender's identity; once both sides have the other's echo the PROOF follows; a PROOF that matches goes on to TRAIN and one with another
tag or epoch is a proof failure; the COMMIT of the mode that the receiver would choose is echoed four times, and the echo completes the
exchange; a REJECT's reason is kept. A message that is not well-formed has no effect. Completion: on the stated conditions, which are on
the state and the operands alone, `exec i s = .next t` is the conclusion for helloSend, helloReceive, proofReceive, commitReceive,
rejectReceive. -/
def Obligations.NegotiationMessages : Prop :=
  ∀ (n : Fin 48) (fs : List (BitVec 256)) (s : State), s.lineUp n = true →
    let v := s.rxWords n 1 fs
    let p := s.rxWords n 2 fs
    let c := s.rxWords n 3 fs
    let r := s.rxWords n 4 fs
    let own := s.setMlane n { s.mlane n with ownHello := s.helloWords n }
    (s.lnkState n = 4 → s.lstate n = 6 ∨ (s.lstate n = 1 ∧ own.bothEcho n = false) → CompletesIn (.helloSend n) s fun s t =>
      t = s.setMlane n { s.mlane n with
        ownHello := s.helloWords n, sentNeg := some (sealMsg (s.helloWords n)),
        wire := s.onLine n (msgFlits (s.flitVer n) 1 (sealMsg (s.helloWords n))) }) ∧
    (s.lnkState n = 4 → s.lstate n = 1 → own.bothEcho n = true → CompletesIn (.helloSend n) s fun s t =>
      t.lstate n = 2 ∧ (t.mlane n).ownHello = s.helloWords n ∧ (t.mlane n).sentNeg = some (sealMsg (own.proofWords n)) ∧
      (t.mlane n).wire = s.onLine n (msgFlits (s.flitVer n) 1 (sealMsg (s.helloWords n))) ++
        s.onLine n (msgFlits (s.flitVer n) 2 (sealMsg (own.proofWords n))) ∧
      OnlyRegs [Reg.MDR_LSTAT n] (s.setMlane n (t.mlane n)) t) ∧
    (msgOk 1 v = true → s.lstate n = 1 → s.idBad n (word64 v 4) = false → CompletesIn (.helloReceive n fs) s fun s t =>
      t.lstate n = (if (s.mlane n).ownHello ≠ [] ∧ word64 v 8 = (s.mlane n).ownNonce ∧ word64 (s.mlane n).ownHello 8 = word64 v 6
        then 2 else 1) ∧
      (t.mlane n).partId = word64 v 4 ∧ (t.mlane n).partNonce = word64 v 6 ∧ (t.mlane n).partHello = v.take 15 ∧
      t.fld (Reg.MDR_PID_LO_PID_L n) = word64 v 4 % 2 ^ 32 ∧
      OnlyRegs [Reg.MDR_PID_LO n, Reg.MDR_LSTAT n] (s.setMlane n (t.mlane n)) t) ∧
    (msgOk 2 p = true → s.lstate n = 2 → s.idBad n (word64 p 4) = false → s.isSource n = false →
      (p.getD 3 0 = s.fld Reg.MDR_EPOCH_EPOCH → s.flag (Reg.MDR_LCFG_AUTH n) = false →
        CompletesIn (.proofReceive n fs) s (fun s t =>
          t = mdrTo (s.setMlane n { s.mlane n with proofFails := 0, committed := false, mode := none }) n 3)) ∧
      (p.getD 3 0 = s.fld Reg.MDR_EPOCH_EPOCH → s.flag (Reg.MDR_LCFG_AUTH n) = true →
        CompletesIn (.proofReceive n fs) s (fun s t =>
          t = if p.getD 1 0 * 2 ^ 32 + p.getD 2 0 = (s.proofTag n (s.mlane n).partNonce).toNat
            then mdrTo (s.setMlane n { s.mlane n with proofFails := 0, committed := false, mode := none }) n 3 else proofFail s n)) ∧
      (p.getD 3 0 ≠ s.fld Reg.MDR_EPOCH_EPOCH → CompletesIn (.proofReceive n fs) s (fun s t => t = proofFail s n))) ∧
    (∀ m, msgOk 3 c = true → s.lstate n = 3 → (s.mlane n).committed = false → s.isSource n = true → (s.mlane n).mode = some m →
      CompletesIn (.commitReceive n fs) s (fun s t => t = (if (c.getD 1 0, c.getD 2 0) = commitW m
        then s.setMlane n { s.mlane n with committed := true } else s))) ∧
    (∀ m, msgOk 3 c = true → s.lstate n = 3 → (s.mlane n).committed = false → s.isSource n = false →
      s.chooseMode n ((s.mlane n).partHello.getD 1 0) ((s.mlane n).partHello.getD 2 0) 255 = some m → (c.getD 1 0, c.getD 2 0) = commitW m →
      CompletesIn (.commitReceive n fs) s (fun s t =>
        (t.mlane n).committed = true ∧ (t.mlane n).mode = some m ∧
        (t.mlane n).wire = (List.replicate 4 (s.onLine n (msgFlits (s.flitVer n) 3 (sealMsg (s.commitWords n m))))).flatten ∧
        t = s.setMlane n (t.mlane n))) ∧
    (msgOk 4 r = true → s.lstate n ≠ 0 →
      CompletesIn (.rejectReceive n fs) s (fun s t => t = s.setMlane n { s.mlane n with partReject := r.getD 1 0 })) ∧
    (msgOk 1 v = false → CompletesIn (.helloReceive n fs) s (fun s t => t = s))

/-- A negotiation begins (R105, R107, R108): HOLDOFF after FAILED puts the lane back in HELLO with a new nonce, RXVALID and RENEG clear, the
count of negotiations one up. The timeouts of a negotiation (R107, R108, R109, R120, R122): 100 ms in HELLO is ABSENT; 200 us in PROOF is
a proof failure, without an echo of the COMMIT the negotiation begins anew, as it does 4 ms into TRAIN, where the third failure in a row
at one rate excludes it; TRAIN takes the negotiated mode; quarantine answers with a REJECT; RENEG is set; PID_LO latches PID_HI.
Completion: on the stated conditions, which are on the state and the operands alone, `exec i s = .next t` is the conclusion for
holdoffExpiry, absentTimeout, proofTimeout, commitTimeout, trainTimeout, trainStart, quarantineReject, renegotiate, partnerIdRead. -/
def Obligations.NegotiationTimers : Prop :=
  (∀ (n : Fin 48) (s : State), s.laneUp n = true → s.lstate n = 8 → s.fld (Reg.LNK_STAT_RATE n) = 1 →
     CompletesIn (.holdoffExpiry n) s fun s t =>
       t.lstate n = 1 ∧ t.flag (Reg.MDR_LSTAT_RXVALID n) = false ∧ t.flag (Reg.MDR_LCTL_RENEG n) = false ∧
       t.fld (Reg.MDR_NEGCNT_NEGS n) = satAdd 16 (s.fld (Reg.MDR_NEGCNT_NEGS n)) 1 ∧
       (t.mlane n).ownNonce = (Config.nonce s.freeCtr).toNat ∧ (t.mlane n).mode = none ∧ (t.mlane n).committed = false ∧
       OnlyRegs [Reg.MDR_LSTAT n, Reg.MDR_LCTL n, Reg.MDR_NEGCNT n, Reg.MDR_STAT]
         { s.setMlane n (t.mlane n) with freeCtr := s.freeCtr + 1 } t) ∧
  (∀ (n : Fin 48) (s : State),
     (s.laneUp n = true → s.lstate n = 1 → CompletesIn (.absentTimeout n) s (fun s t => t = s.setFld (Reg.MDR_LSTAT_LSTATE n) 6)) ∧
     (s.laneUp n = true → s.lstate n = 2 → CompletesIn (.proofTimeout n) s (fun s t => t = proofFail s n)) ∧
     (s.laneUp n = true → s.lstate n = 3 → (s.mlane n).committed = false → CompletesIn (.commitTimeout n) s (fun s t =>
       t = beginHello s n)) ∧
     (∀ m, s.laneUp n = true → s.lstate n = 3 → (s.mlane n).committed = true → (s.mlane n).mode = some m →
       CompletesIn (.trainTimeout n) s (fun s t => t = (
       let x := s.mlane n
       let k := if x.trainRate = m.rate then x.trainFails + 1 else 1
       beginHello (s.setMlane n (if 3 ≤ k then { x with trainRate := m.rate, trainFails := 0, excluded := nsAdd x.excluded m.rate }
         else { x with trainRate := m.rate, trainFails := k })) n))) ∧
     (∀ m, s.laneUp n = true → s.lstate n = 3 → (s.mlane n).committed = true → (s.mlane n).mode = some m →
       (s.mlane n).prevVer ≤ m.ver → (s.mlane n).prevRate ≤ m.rate → s.fld (Reg.LNK_STAT_RATE n) = m.rate →
       CompletesIn (.trainStart n) s fun s t =>
         t.fld (Reg.MDR_NEG_VER n) = m.ver % 4 ∧ t.flag (Reg.MDR_NEG_FEC n) = m.fec ∧ t.fld (Reg.MDR_NEG_RATE n) = m.rate % 8 ∧
         t.fld (Reg.MDR_NEG_K n) = m.k % 256 ∧ t.fld (Reg.MDR_NEG_D n) = frameD m.ver m.k % 65536 ∧
         OnlyRegs [Reg.MDR_NEG n] (s.setMlane n { s.mlane n with
           prevVer := m.ver, prevRate := m.rate, goodRun := 0, lock := false, prevSlot := none }) t) ∧
     (s.lineUp n = true → s.lstate n = 7 → s.fld (Reg.LNK_STAT_RATE n) = 1 → CompletesIn (.quarantineReject n) s (fun s t =>
       t = (s.setMlane n { s.mlane n with
          sentNeg := some (sealMsg (s.rejectWords n (s.mlane n).reason)),
          wire := s.onLine n (msgFlits (s.flitVer n) 4 (sealMsg (s.rejectWords n (s.mlane n).reason))) }))) ∧
     (∀ who, Served s who (Reg.MDR_LCTL n) → CompletesIn (.renegotiate who n) s (fun s t =>
       t = (s.setFld (Reg.MDR_LCTL_RENEG n) 1).written)) ∧
     (∀ who, ServedRead s who (Reg.MDR_PID_LO n) → CompletesIn (.partnerIdRead who n) s (fun s t =>
       t = (s.setFld (Reg.MDR_PID_HI_PID_H n) ((s.mlane n).partId / 2 ^ 32)).returned (s.rd (Reg.MDR_PID_LO n)))))

/-- Locks, frames and fast commands (R92, R93, R99, R100, R109, R122): eight codewords with the right SYNC in sequence, or 64 valid sync
headers, give the lock that the lane uses, and four bad codewords, or 16 bad headers in 64, take it away; the frame of the slot leaves
once; a good frame of a front-end lane in RUN goes to the ingress and ends the run of bad ones; a failed frame counts, and the sixteenth
in a row takes the link down. A write of MDR_FCREQ asks for TESTPULSE or a USER command in a slot; another code asks for nothing (R102,
R122). Completion: on the stated conditions, which are on the state and the operands alone, `exec i s = .next t` is the conclusion for
codewordLock, blockLock, frameLaunch, frameReceive, fastCommandRequest. -/
def Obligations.FramesAndCommands : Prop :=
  (∀ (n : Fin 48) (s : State),
     (∀ cws : List Codeword, s.framed n = true → s.flag (Reg.MDR_NEG_FEC n) = true →
       ((s.mlane n).lock = false → cws.length = 8 → (∀ c ∈ cws, c.sync = 0x359#10) → seqRun cws = true →
         CompletesIn (.codewordLock n cws) s (fun s t => t = s.setMlane n { s.mlane n with lock := true, goodRun := 0 })) ∧
       ((s.mlane n).lock = true → cws.length = 4 → (∀ c ∈ cws, c.bad = true ∨ c.sync ≠ 0x359#10) →
         CompletesIn (.codewordLock n cws) s (fun s t => t = s.setMlane n { s.mlane n with lock := false, goodRun := 0 }))) ∧
     (∀ hs : List (BitVec 2), s.framed n = true → s.flag (Reg.MDR_NEG_FEC n) = false →
       ((s.mlane n).lock = false → hs.length = 64 → (∀ h ∈ hs, h = 1#2 ∨ h = 2#2) →
         CompletesIn (.blockLock n hs) s (fun s t => t = s.setMlane n { s.mlane n with lock := true, goodRun := 0 })) ∧
       ((s.mlane n).lock = true → hs.length ≤ 64 → 16 ≤ (hs.filter fun h => !syncOk h).length →
         CompletesIn (.blockLock n hs) s (fun s t => t = s.setMlane n { s.mlane n with lock := false, goodRun := 0 }))) ∧
     (s.framed n = true → (s.lane n).extest = false → s.tbState ≠ 0 → (s.mlane n).sentAt ≠ some s.tb.n → (s.frameOut n).2 = 0 →
       CompletesIn (.frameLaunch n) s (fun s t => t = (s.setMlane n { s.mlane n with
         sentAt := some s.tb.n, sent := some (s.frameOut n).1, credGiven := (s.frameOut n).1.cccred, credUsed := 0,
         wire := s.onLine n (frameFlits (s.fld (Reg.MDR_NEG_VER n)) (s.fld (Reg.MDR_NEG_K n)) (s.frameOut n).1) }))) ∧
     (∀ q, let f := s.rxFrame n q; s.framed n = true → s.lstate n = 4 → s.role n = 1 → (s.lane n).extest = false → q.corr = 0 → q.newUncorr = 0 →
       frameFails f (s.mlane n).prevSlot = false →
       CompletesIn (.frameReceive n q) s (fun s t => t = (ingPlace (s.setMlane n { s.mlane n with
         prevSlot := some f.slot, partCred := f.cccred, badRun := 0 }) n f))) ∧
     (∀ q, let f := s.rxFrame n q; s.framed n = true → s.lstate n = 4 → s.role n = 3 → (s.lane n).extest = false → q.corr = 0 → q.newUncorr = 0 → f.head = true →
       frameFails f (s.mlane n).prevSlot = true → (s.mlane n).badRun < 15 → CompletesIn (.frameReceive n q) s (fun s t =>
         t = (let x := { s.mlane n with prevSlot := some f.slot }
           (countSrc ((s.setMlane n x).count (Reg.MDR_ERRCNT_CRCERR n) 1) n).setMlane n { x with badRun := (s.mlane n).badRun + 1 })))) ∧
  (∀ (who : Requester) (code : BitVec 5) (sl : BitVec 16) (s : State), Served s who Reg.MDR_FCREQ →
     CompletesIn (.fastCommandRequest who code sl) s (fun s t => t = (if code = 3#5 ∨ (0x10#5 ≤ code ∧ code ≤ 0x1B#5)
         then { s with mdr := { s.mdr with fcreq := some (code.toNat, sl.toNat) } } else s).written))

/-- What is sent is read back: the flits of a crossing frame spell its fields and its data area, with a CRC that matches (R94, R97,
R98, R129); those of a negotiation message its sixteen words (R105); those of a control message MTYPE, LEN, SEQ, payload and TAG
(R112). At every version and for every value that the fields admit. -/
def Obligations.FlitsReadBack : Prop :=
  (∀ (ver k : Nat) (f : SentFrame), 1 ≤ ver → ver ≤ 3 → 2 ≤ k → k ≤ 255 → f.stat < 16 → f.slot < 65536 →
    f.orbit < (if ver = 1 then 256 else 65536) → f.fcmd < 256 → f.fcx < 65536 → f.cccred < 256 → f.data < 2 ^ frameD ver k →
    readFrame ver k { flits := frameFlits ver k f, uncorr := 0, newUncorr := 0, corr := 0 } =
      { head := true, crcOk := true, typesOk := true, uncorr := 0, newUncorr := 0, corr := 0, om := f.om, fv := f.fv, stat := f.stat, slot := f.slot,
        orbit := f.orbit, fcmd := f.fcmd, nfcmd := 255 - f.fcmd, fcx := f.fcx, cccred := f.cccred, data := f.data }) ∧
  (∀ (ver mtype : Nat) (ws : List Nat), mtype < 16 → ws.length = 16 → (∀ w ∈ ws, w < 2 ^ 32) →
    readMsg ver mtype (msgFlits ver mtype ws) = ws) ∧
  (∀ (ver : Nat) (m : CcMsg), m.mtype < 256 → m.len ≤ 48 → m.seq < 2 ^ 48 → m.payload.length = m.len → (∀ w ∈ m.payload, w < 2 ^ 32) →
    readCc ver (ccFlits ver m) = { m with first := true, segs := ccSegs ver m.len })

/-- A control message arrives in RUN (R113, R114): one over the police rate is dropped and counted; of those within it a malformed one, and
one whose SEQ is not above the last, are dropped and counted; a remote access of lane 0 waits to be executed. Without authentication.
Remote accesses, sending and tokens (R112, R113, R114): a WRITE is executed and acknowledged; a READ is answered with its words; a reply
leaves with the next SEQ while credit is left; a token is added up to DEPTH. Completion: on the stated conditions, which are on the state
and the operands alone, `exec i s = .next t` is the conclusion for controlMessageReceive, remoteWrite, remoteRead, controlMessageSend,
policeToken. -/
def Obligations.ControlAndRemote : Prop :=
  (∀ (n : Fin 48) (fs : List (BitVec 256)) (s : State), s.lineUp n = true → s.lnkState n = 4 → s.lstate n = 4 → s.flag (Reg.MDR_LCTL_CCEN n) = true →
     s.flag (Reg.MDR_LCFG_AUTH n) = false →
     let m := readCc (s.fld (Reg.MDR_NEG_VER n)) fs
     let x := s.mlane n
     let y := { x with tokens := x.tokens - 1, credUsed := x.credUsed + 1 }
     let bad := decide (48 < m.len) || !m.first || decide (m.segs ≠ ccSegs (s.fld (Reg.MDR_NEG_VER n)) m.len)
       || decide (x.credGiven ≤ x.credUsed)
     (x.tokens = 0 ∨ s.fld (Reg.MDR_POLICE_RATE n) = 0 →
       CompletesIn (.controlMessageReceive n fs []) s (fun s t => t = s.count (Reg.MDR_CCCNT_POLICED n) 1)) ∧
     (x.tokens ≠ 0 → s.fld (Reg.MDR_POLICE_RATE n) ≠ 0 →
       (bad = true →
         CompletesIn (.controlMessageReceive n fs []) s (fun s t => t = (s.setMlane n y).count (Reg.MDR_CCCNT_MALFORM n) 1)) ∧
       (bad = false → m.seq ≤ x.rxSeq →
         CompletesIn (.controlMessageReceive n fs []) s (fun s t => t = (s.setMlane n y).count (Reg.MDR_CCCNT_REPLAY n) 1)) ∧
       (bad = false → x.rxSeq < m.seq → m.seq < 2 ^ 48 - 1 → s.remoteOn n = true → m.mtype = 1 ∨ m.mtype = 2 →
         CompletesIn (.controlMessageReceive n fs []) s (fun s t =>
           t = s.setMlane n { y with rxSeq := m.seq, remote := x.remote ++ [m] })))) ∧
  (∀ (n : Fin 48) (m : CcMsg) (r : List CcMsg) (s : State),
     (∀ off w, (s.mlane n).remote = m :: r → m.mtype = 1 → ccWords m = [off, w] → s.remoteBars off = false →
       (busWrite (remotePop s n) off (BitVec.ofNat 32 w)).1 = false → CompletesIn (.remoteWrite n) s (fun s t =>
         t = ccReply (busWrite (remotePop s n) off (BitVec.ofNat 32 w)).2 n 4 [m.seq % 2 ^ 32])) ∧
     (∀ off, (s.mlane n).remote = m :: r → m.mtype = 2 → ccWords m = [off, 1] → s.remoteBars off = false →
       (busRead (remotePop s n) off).2.1 = false → CompletesIn (.remoteRead n) s (fun s t =>
         t = ccReply (busRead (remotePop s n) off).2.2 n 3 [off, (busRead (remotePop s n) off).1.toNat])) ∧
     (s.maySend n = true → (s.mlane n).outbox = m :: r → (s.mlane n).txSeq < 2 ^ 48 - 1 → s.flag (Reg.MDR_LCFG_AUTH n) = false →
       CompletesIn (.controlMessageSend n []) s (fun s t => t = (let x := s.mlane n
         s.setMlane n { x with
           outbox := r, txSeq := x.txSeq + 1, partCred := x.partCred - 1,
           sentCc := some { m with first := true, segs := ccSegs (s.fld (Reg.MDR_NEG_VER n)) m.len, seq := x.txSeq, tag := 0 },
           wire := s.onLine n (ccFlits (s.fld (Reg.MDR_NEG_VER n))
             { m with first := true, segs := ccSegs (s.fld (Reg.MDR_NEG_VER n)) m.len, seq := x.txSeq, tag := 0 }) }))) ∧
     (s.laneUp n = true → s.fld (Reg.MDR_POLICE_RATE n) ≠ 0 → CompletesIn (.policeToken n) s (fun s t =>
       t = s.setMlane n { s.mlane n with tokens := min ((s.mlane n).tokens + 1) (s.fld (Reg.MDR_POLICE_DEPTH n)) })))

/-- The mapping of a frame completes (R127): on time it is noted with its FCLK edge; after its handover the frame is late and is let go. CND
completes its oldest crossing (R139): the crossing leaves CND, and PF takes it, with the same cells, to be swept. A pedestal reset of
layers is asked for by PEDRST (R148). One beat of PF (R168): the crossing that is swept gets one row more on each of its broadcast
channels, the rows before it unchanged; no other crossing is changed, but those that the replay buffer lets go (R63). Arming a capture
unit that is not armed (R170, R171): its settings are taken and it waits, when its source is defined. A re-flatten ends (R161): with no
damaged plane word every cell of the staged Lake layer is the blend of its planes, in order, its STALE bit is clear and the next stale
layer is taken; a rewrite of a live layer is the same from the live planes (R162). Completion: on the stated conditions, which are on the
state and the operands alone, `exec i s = .next t` is the conclusion for frameMapDone, conditionDone, pedestalResetRequest, rowBroadcast,
captureArm, reflattenDone, lakeRewriteDone. -/
def Obligations.IngressAndConditioning : Prop :=
  (∀ (n : Fin 48) (ph : Nat) (p : PendFrame) (s : State),
     (s.ingLane n).frames.find? (fun p => p.done.isNone && decide (p.x + s.dskt ≤ s.tb.n + 4)) = some p →
     (s.tb.n < p.x + s.dskt → CompletesIn (.frameMapDone n ph 0) s (fun s t => t = (s.setIngLane n { s.ingLane n with
       frames := (s.ingLane n).frames.map fun q => if q = p then { q with done := some (fclkAt s.tb.ps + ph) } else q }))) ∧
     (p.x + s.dskt ≤ s.tb.n → CompletesIn (.frameMapDone n ph 0) s (fun s t => t = (ingLate (s.setIngLane n { s.ingLane n with
       frames := (s.ingLane n).frames.filter fun q => !decide (q = p) }) n)))) ∧
  ((∀ (x : Nat) (rest : List Nat) (bad : List Nat) (s : State), s.running = true → s.up 53 = true → s.up 61 = true →
     s.cnd.started = x :: rest → CompletesIn (.conditionDone 0 bad) s fun s t =>
       t.cnd.started = rest ∧ t.tb = s.tb ∧ t.dram = s.dram ∧
       ∃ cells, cells.map Prod.fst = (s.rawOf x).map Prod.fst ∧
         t.pf.cross = s.pf.cross ++ [{ x := x, cells := cells, rows := 0, chans := List.replicate (s.fld Reg.REL_CFG_BCAST) [] }]) ∧
   (∀ (who : Requester) (layers : BitVec 4) (s : State), Served s who Reg.CND_CTL →
     CompletesIn (.pedestalResetRequest who layers) s fun s t =>
     t.fld Reg.CND_CTL_PEDRST = s.fld Reg.CND_CTL_PEDRST ||| layers.toNat ∧ OnlyRegs [Reg.CND_CTL] s.written t)) ∧
  (∀ (taken : Nat) (pc : PfCross) (s : State), s.running = true → s.up 61 = true → s.sweeping = some pc →
     CompletesIn (.rowBroadcast taken 0) s fun s t =>
       (∃ pc', pc' ∈ t.pf.cross ∧ pc'.x = pc.x ∧ pc'.cells = pc.cells ∧ pc'.rows = pc.rows + 1 ∧ pc'.chans.length = pc.chans.length ∧
         ∀ j r, r < (pc.chans.getD j []).length → (pc'.chans.getD j []).getD r [] = (pc.chans.getD j []).getD r []) ∧
       (∀ p, p ∈ t.pf.cross → p.x ≠ pc.x → p ∈ s.pf.cross)) ∧
  (∀ (who : Requester) (k : Fin 8) (v : Word) (s : State), Served s who (Reg.PF_WMCTL k) → s.flag (Reg.PF_WMCTL_ARM k) = false →
     CompletesIn (.captureArm who k v) s fun s t =>
       t.flag (Reg.PF_WMCTL_ARM k) = s.srcDefined (wField v 21 16) ∧ t.fld (Reg.PF_WMCTL_ROW k) = wField v 29 24 ∧
       t.fld (Reg.PF_WMCTL_SRC k) = wField v 21 16 ∧ t.fld (Reg.PF_WMCTL_SLOT k) = wField v 15 0 ∧
       (s.srcDefined (wField v 21 16) = false → OnlyRegs [Reg.PF_WMCTL k] s.written t) ∧
       (s.srcDefined (wField v 21 16) = true → OnlyRegs [Reg.PF_WMCTL k]
         (s.setCapture k { from_ := s.tb.n + 1 - (s.fld Reg.CND_CFG_LA + s.dskt), run := none }).written t)) ∧
  ((∀ (j : Nat) (s : State), s.pf.flattening = some j → j < 32 →
     (∀ p c, p ∈ s.lakePlanes j → c < 8192 → s.sramBad (s.planeAddr false p.2 c) = false) → CompletesIn (.reflattenDone 0) s fun s t =>
       (∀ c, c < 8192 → memWord t.sram (s.lakeAddr false j c) = s.flatCell false j c % 2 ^ 32) ∧
       (∀ a, a < s.lakeAddr false j 0 ∨ s.lakeAddr false j 8192 ≤ a → memByte t.sram a = memByte s.sram a) ∧
       bit (t.fld Reg.PF_LAKESTAT_STALE) j = false ∧
       (∀ i, i ≠ j → i < 32 → bit (t.fld Reg.PF_LAKESTAT_STALE) i = bit (s.fld Reg.PF_LAKESTAT_STALE) i) ∧
       t.pf.flattening = t.nextStale ∧ RegsBut [Reg.PF_LAKESTAT] s t) ∧
   (∀ (j : Fin 32) (s : State), s.pf.rewriting.contains j.val = true → CompletesIn (.lakeRewriteDone j 0) s (fun s t =>
     t = flatten { s with pf := { s.pf with rewriting := nsDel s.pf.rewriting j } } true j)))

/-- A pair at work (R64, R186, R189, R190): a member's next word is kept and compared with its twin's; a twin that does not end in time is a
mismatch; a vote gives the region the candidates that two of three agree on. With every region's candidates in (R186, R187): the first
1,024 of them are kept, an excess is flagged and counted; the sorter's lists follow, with the count of the crossing's objects in OBJ_NOBJ.
Completion: on the stated conditions, which are on the state and the operands alone, `exec i s = .next t` is the conclusion for
engineOutputWord, checkerTimeout, replayVote, collect, sortDone. -/
def Obligations.PairChecks : Prop :=
  (∀ (p : Fin 288) (back x : Nat) (s : State), s.running = true → back ≤ s.tb.n → x = s.tb.n - back →
     let w := s.objWork p x
     (∀ mb ws e, s.wordsFor p x = some ws → ended (if mb then w.b else w.a) = false →
       ws[(if mb then w.b else w.a).length]? = some e → CompletesIn (.engineOutputWord p mb back none false 0) s (fun s t =>
         t = checkWork (s.setWork (if mb then { w with b := w.b ++ [e] } else { w with a := w.a ++ [e] })) p x)) ∧
     (w.mism = false → ended w.a ≠ ended w.b → CompletesIn (.checkerTimeout p back) s (fun s t => t = mismatch s p x)) ∧
     (∀ u, s.rel.replays.find? (fun u => u.crossings.contains (x, p.val)) = some u → u.spare ≠ p.val →
       (s.objWork u.spare x).mism = false → ended (s.objWork u.spare x).a = true → ended (s.objWork u.spare x).b = true →
       CompletesIn (.replayVote p back) s fun s t =>
         (t.objWork p x).result = (verdict w.a w.b (s.objWork u.spare x).a false).1 ∧ t.obj.results = s.obj.results ∧ t.pf = s.pf)) ∧
  (∀ (back x : Nat) (s : State), s.running = true → back ≤ s.tb.n → x = s.tb.n - back →
     (∀ all, ((s.holdersAt x).any fun p => (s.objWork p x).result.isNone) = false → (∀ r, r ∈ s.obj.results → r.x ≠ x) →
       (∃ c, c ∈ s.pf.cross ∧ c.x = x) → all = (s.holdersAt x).flatMap (fun p => ((s.objWork p x).result).getD []) →
       CompletesIn (.collect back) s fun s t =>
         (∃ r, r ∈ t.obj.results ∧ r.x = x ∧ r.lists = none ∧ r.objs.length = min 1024 all.length ∧ r.ovf = decide (1024 < all.length)) ∧
         (∀ r, r ∈ s.obj.results → r ∈ t.obj.results) ∧
         (all.length ≤ 1024 → OnlyRegs [] { s with obj := t.obj } t) ∧
         (1024 < all.length → t.flag Reg.OBJ_STAT_OBJOVF = true ∧ OnlyRegs [Reg.OBJ_STAT, Reg.OBJ_OVFCNT] { s with obj := t.obj } t)) ∧
     (∀ r, s.up 79 = false → s.obj.results.find? (fun r => decide (r.x = x)) = some r → r.lists = none →
       CompletesIn (.sortDone back 0) s fun s t =>
       t.fld Reg.OBJ_NOBJ_SLOT = (s.xid x).2 % 2 ^ 16 ∧ t.flag Reg.OBJ_NOBJ_OVF = r.ovf ∧
       t.fld Reg.OBJ_NOBJ_COUNT = r.objs.length % 2 ^ 11 ∧
       OnlyRegs [Reg.OBJ_NOBJ] { s with obj := { s.obj with results := s.obj.results.map fun q =>
         if q.x = x then { q with lists := some (s.classLists x r.objs) } else q } } t))

/-- The decision on a crossing (R206, R208, R209): made once, in the order of crossings, when the edges that its inputs need have begun, from
the inputs that its handover brought and from its class lists, with the state that the three copies share; it gives the decision word and
the strobe to the streams. PSRST is taken at the next boundary (R205). Completion: on the stated conditions, which are on the state and
the operands alone, `exec i s = .next t` is the conclusion for decisionEvaluate, prescaleResetRequest. -/
def Obligations.Decisions : Prop :=
  (∀ (back x : Nat) (r : ObjResult) (d : DecIn) (s : State), s.running = true → s.up 78 = true → back ≤ s.tb.n → x = s.tb.n - back →
    s.obj.results.find? (fun r => decide (r.x = x)) = some r → s.dec.inputs.find? (fun d => decide (d.x = x)) = some d →
    r.lists.isSome = true → s.decDue x = true → (∀ y, s.dec.lastX = some y → y < x) → s.dec.strays = [] →
    CompletesIn (.decisionEvaluate back [] 0) s fun s t =>
      let u := decResets s x
      let o := u.evaluate u.dec.copy d r
      t.rel.results.getLast? = some (x, o.word, o.acc) ∧
      t.dec.lastX = some x ∧ t.dec.copy = u.dec.copy.after o x ∧ t.dec.strays = [] ∧ t.tb = s.tb ∧ t.pf = s.pf) ∧
  (∀ (who : Requester) (s : State), Served s who Reg.DEC_CTL → CompletesIn (.prescaleResetRequest who) s fun s t =>
    t.flag Reg.DEC_CTL_PSRST = true ∧ OnlyRegs [Reg.DEC_CTL] s.written t)

/-- The copy of a fragment ends (R221, R223, R224): its element, as long as its queue still holds it, gets the fragment's bytes and becomes
visible, and the fragment is counted; the request is served. RO_CUR_IDX latches RO_CUR_XID. Completion: on the stated conditions, which
are on the state and the operands alone, `exec i s = .next t` is the conclusion for fragmentCopyDone, roCurRead. -/
def Obligations.ReadoutFragments : Prop :=
  (∀ (r : RoReq) (off : Nat) (s : State), s.ro.reqs = [r] → s.ro.space = some off →
    (s.fragment r).missing = false → (s.fragment r).overrun = false → (s.fragment r).uncorr = [] →
    (s.qm.hidden.contains (s.fld Reg.RO_FQ_Q, off) = true → CompletesIn (.fragmentCopyDone 0 []) s (fun s t => t = (
      let q := s.fld Reg.RO_FQ_Q
      let t := countSrc ((ringStore s q ((off + 8) % s.qCap q) ((s.fragment r).bytes.take (s.fld Reg.RO_FSIZE_FSIZE))).count
        Reg.RO_FRAGCNT_FRAGS 1) 0x1CD
      { t with qm := { t.qm with hidden := t.qm.hidden.filter fun h => !decide (h = (q, off)) },
               ro := { t.ro with reqs := [], space := none } }))) ∧
    (s.qm.hidden.contains (s.fld Reg.RO_FQ_Q, off) = false →
      CompletesIn (.fragmentCopyDone 0 []) s (fun s t => t = { s with ro := { s.ro with reqs := [], space := none } }))) ∧
  (∀ (who : Requester) (x : Nat) (s : State), ServedRead s who Reg.RO_CUR_IDX → s.ro.cur = some x →
    CompletesIn (.roCurRead who) s (fun s t => t = (s.wr Reg.RO_CUR_XID (BitVec.ofNat 32 (s.xidLo x))).returned (s.rd Reg.RO_CUR_IDX)))

/-- Admission (R230 to R235, R238): a push that the limits admit stores its header at TAIL, with the deadline of its class, and zeros in the
padding of its payload, in a ring whose memory answers, and moves TAIL and BACKLOG by the element's cost; one that they refuse changes no
queue and is counted, with its reason. The queue is sound and no queue watch follows it. Completion: on the stated conditions, which are
on the state and the operands alone, `exec i s = .next t` is the conclusion for queuePush. -/
def Obligations.QueueAdmission : Prop :=
  ∀ (who : Requester) (a : Fin 33) (q : BitVec 14) (s : State), Served s who (Reg.QM_PUSH a) → s.up 80 = true → qmCheck s q.toNat = s →
    s.watches q.toNat = [] →
    let k := q.toNat
    let len := bitsOf (s.elemHdr k (s.qw k 5)) 23 0
    let tag := bitsOf (s.elemHdr k (s.qw k 5)) 39 24
    let r := s.refusal k (agentType a).1 (agentType a).2 len
    (r = 0 → s.qw k 5 % 8 = 0 → s.qw k 5 < s.qCap k → s.ringOk k (s.qw k 5) (elemCost len) = true →
     CompletesIn (.queuePush who a q []) s fun s t =>
      t.elemHdr k (s.qw k 5) = (s.tb.n + s.qBudget k) % 2 ^ 24 * 2 ^ 40 + tag * 2 ^ 24 + len ∧
      t.qw k 5 = (s.qw k 5 + elemCost len) % s.qCap k ∧ t.qBacklog k = s.qBacklog k + elemCost len ∧
      t.flag (Reg.QM_PUSHST_ADMIT a) = true ∧ t.flag (Reg.QM_PUSHST_DONE a) = true ∧
      t.fld (Reg.QM_PUSHST_DEADLINE a) = (s.tb.n + s.qBudget k) % 2 ^ 24 ∧
      RegsBut [Reg.QM_QD k 5, Reg.QM_QD k 6, Reg.QM_PUSHST a] s t ∧
      (∀ i, 8 + len ≤ i → i < elemCost len → elemCost len ≤ s.qCap k →
        (if s.qDram k then memByte t.dram.mem (s.ringAddr k (s.qw k 5) i) else memByte t.sram (s.ringAddr k (s.qw k 5) i)) = 0) ∧
      (∀ b, (∀ i, i < 8 ∨ (8 + len ≤ i ∧ i < elemCost len) → b ≠ s.ringAddr k (s.qw k 5) i) →
        memByte t.sram b = memByte s.sram b ∧ memByte t.dram.mem b = memByte s.dram.mem b)) ∧
    (r ≠ 0 → CompletesIn (.queuePush who a q []) s fun s t =>
      t.flag (Reg.QM_PUSHST_ADMIT a) = false ∧ t.fld (Reg.QM_PUSHST_REASON a) = r ∧ t.flag (Reg.QM_PUSHST_DONE a) = true ∧
      t.fld Reg.QM_LASTREF_REASON = r ∧ t.fld Reg.QM_LASTREF_Q = k ∧ t.fld Reg.QM_REFCNT_REF = satAdd 32 (s.fld Reg.QM_REFCNT_REF) 1 ∧
      (∀ p w, p < 16384 → w < 8 → t.rd (Reg.QM_QD p w) = s.rd (Reg.QM_QD p w)) ∧ SameMemories s t)

/-- Removal and reset (R234, R236, R238): a pop by the queue's own output moves HEAD and BACKLOG past the element; any other pop only sets
POPERR; a reset empties the queue and thaws it. No push was refused in this cycle and no queue watch follows the queue. A lane's element
has been delivered (R237): it leaves its queue; one delivered after its deadline is late as well. Completion: on the stated conditions,
which are on the state and the operands alone, `exec i s = .next t` is the conclusion for queuePop, queueReset, elementDelivered. -/
def Obligations.QueueRemoval : Prop :=
  (∀ (who : Requester) (a : Fin 33) (q : BitVec 14) (s : State), s.watches q.toNat = [] → (s.accessCycle who).cyc.qmRefused = [] →
     let k := q.toNat
     let can := s.qDefined k && !(s.qFrozen k) && s.headReady k && decide (a.val < 32) && decide (s.qOut k = some a.val)
     (Served s who (Reg.QM_POP a) → qmCheck s k = s → can = true → s.qCap k ≠ 0 → CompletesIn (.queuePop who a q []) s fun s t =>
       t.qw k 4 = (s.qw k 4 + elemCost (s.headLen k)) % s.qCap k ∧ t.qBacklog k = s.qBacklog k - elemCost (s.headLen k) ∧
       OnlyRegs [Reg.QM_QD k 4, Reg.QM_QD k 6] s.written t) ∧
     (Served s who (Reg.QM_POP a) → qmCheck s k = s → can = false →
       CompletesIn (.queuePop who a q []) s (fun s t => t = (s.event Reg.QM_STAT_POPERR).written)) ∧
     (Served s who Reg.QM_QRESET → k < s.fld Reg.QM_CFG_NQ → CompletesIn (.queueReset who q) s fun s t =>
       t.qw k 4 = 0 ∧ t.qw k 5 = 0 ∧ t.qBacklog k = 0 ∧ t.qFrozen k = false ∧ t.qDefined k = s.qDefined k ∧
       OnlyRegs [Reg.QM_QD k 0, Reg.QM_QD k 4, Reg.QM_QD k 5, Reg.QM_QD k 6] { s with ecc := t.ecc, qm := t.qm }.written t)) ∧
  (∀ (n : Fin 48) (q : Nat) (s : State), s.startedQ (96 + n) = some q → s.qFrozen q = false →
     (s.watches q = [] → s.qCap q ≠ 0 → diff24 s.tb.n (s.headDeadline q) ≤ 0 → CompletesIn (.elementDelivered n 0) s fun s t =>
       t.qw q 4 = (s.qw q 4 + elemCost (s.headLen q)) % s.qCap q ∧ t.qBacklog q = s.qBacklog q - elemCost (s.headLen q) ∧
       OnlyRegs [Reg.QM_QD q 4, Reg.QM_QD q 6] (qmDropStarted s (96 + n)) t) ∧
     CompletesIn (.elementDelivered n 0) s (fun s t => t = qmRemove (lateCheck (qmDropStarted s (96 + n)) q (s.headDeadline q)) q))

/-- Channel control (R244, R250): a kick fetches in an idle channel and is kept in a busy one; polling fetches; enabling starts at DMA_RING;
disabling drops the channel's work, after which its counts are undefined. A descriptor has been read whole (R243, R244, R246, R249):
without OWN the channel idles; a bad one fails with CODE 5; else its transfer starts; waiting channels try again; a barrier ends in the
write-back; a failed fetch from host memory halts the channel. DRAM channels (R252, R254 to R256, R261): training makes a channel ready;
the third failure in a row fails it, with its line; refresh and ZQ calibration change nothing that the spec names; a retrain is over with
its last channel; the patrol counts what it corrects and reports what it cannot. Completion: on the stated conditions, which are on the
state and the operands alone, `exec i s = .next t` is the conclusion for dmaKick, dmaPoll, dmaEnable, dmaDisable, descriptorFetch,
dmaElementReady, dmaAdmitRetry, barrierDone, dmaError, hostReadTimeout, dramTrainingDone, dramTrainingFail, dramRefresh, zqCalibration,
readRecenter, memRetrain, patrolScrub. -/
def Obligations.DmaAndChannels : Prop :=
  (∀ (ch : Fin 64) (s : State), s.up 80 = true →
     (∀ who, Served s who (Reg.DMA_CHCTL ch) → s.flag (Reg.DMA_CHCTL_EN ch) = true → s.dmaSt ch = 1 →
       CompletesIn (.dmaKick who ch) s fun s t =>
       t.dmaSt ch = 2 ∧ t.flag (Reg.DMA_CHCTL_KICK ch) = false ∧ OnlyRegs [Reg.DMA_CHCTL ch, Reg.DMA_CHSTAT ch]
         (s.setDmaX ch { s.dmaX ch with stopped := false, desc := [], barrier := none }).written t) ∧
     (∀ who, Served s who (Reg.DMA_CHCTL ch) → s.flag (Reg.DMA_CHCTL_EN ch) = true → s.dmaSt ch ≠ 1 →
       CompletesIn (.dmaKick who ch) s fun s t =>
       t.flag (Reg.DMA_CHCTL_KICK ch) = true ∧ OnlyRegs [Reg.DMA_CHCTL ch] s.written t) ∧
     (s.dmaSt ch = 1 → s.fld (Reg.DMA_CHCFG_POLL ch) ≠ 0 → (s.dmaX ch).stopped = false → CompletesIn (.dmaPoll ch) s fun s t =>
       t.dmaSt ch = 2 ∧ OnlyRegs [Reg.DMA_CHCTL ch, Reg.DMA_CHSTAT ch]
         (s.setDmaX ch { s.dmaX ch with stopped := false, desc := [], barrier := none }) t) ∧
     (∀ who, Served s who (Reg.DMA_CHCTL ch) → s.flag (Reg.DMA_CHCTL_EN ch) = false → CompletesIn (.dmaEnable who ch) s fun s t =>
       t.flag (Reg.DMA_CHCTL_EN ch) = true ∧ t.dmaSt ch = 2 ∧
       t.rd (Reg.DMA_CUR ch) = BitVec.ofNat 32 (s.fld (Reg.DMA_RING_ADDR ch) * 32) ∧
       OnlyRegs [Reg.DMA_CHCTL ch, Reg.DMA_CHSTAT ch, Reg.DMA_CUR ch] (s.setDmaX ch DmaX.idle).written t) ∧
     (∀ who, Served s who (Reg.DMA_CHCTL ch) → s.flag (Reg.DMA_CHCTL_EN ch) = true → s.dmaSt ch = 1 → (s.dmaX ch).space = none →
       CompletesIn (.dmaDisable who ch) s fun s t =>
         t.rd (Reg.DMA_CHCTL ch) = 0 ∧ t.dmaSt ch = 0 ∧ t.dmaX ch = DmaX.idle ∧ SameMemories s t ∧
         RegsBut [Reg.DMA_CHCTL ch, Reg.DMA_CHSTAT ch, Reg.DMA_DONECNT ch, Reg.DMA_BYTECNT ch, Reg.DMA_STAT] s t)) ∧
  (∀ (ch : Fin 64) (s : State), s.up 80 = true →
     (∀ (host : List Word) (d : List Nat), s.dmaSt ch = 2 → readDesc s ch (host.map BitVec.toNat) = (s, some d) →
       let read := fun s : State => s.setDmaX ch { s.dmaX ch with desc := d }
       (dBit d 0 31 = false → s.flag (Reg.DMA_CHCTL_KICK ch) = false →
         CompletesIn (.descriptorFetch ch host []) s (fun s t => t = (read s).setFld (Reg.DMA_CHSTAT_STATE ch) 1)) ∧
       (dBit d 0 31 = true → s.badDesc ch d = true →
         CompletesIn (.descriptorFetch ch host []) s (fun s t => t = dmaFail (read s) ch d 5 0)) ∧
       (dBit d 0 31 = true → s.badDesc ch d = false → dSsp d ≠ 3 → dDsp d ≠ 3 →
         CompletesIn (.descriptorFetch ch host []) s (fun s t => t = (read s).setFld (Reg.DMA_CHSTAT_STATE ch) 3))) ∧
     (s.dmaSt ch = 7 → CompletesIn (.dmaElementReady ch []) s (fun s t => t = dmaStart s ch)) ∧
     (s.dmaSt ch = 6 → CompletesIn (.dmaAdmitRetry ch []) s (fun s t => t = dmaAsk s ch)) ∧
     (∀ code count, (s.dmaX ch).barrier = some (code, count) →
       CompletesIn (.barrierDone ch) s (fun s t => t = dmaFinish s ch (s.dmaX ch).desc code count)) ∧
     (s.dmaSt ch = 2 → s.fld (Reg.DMA_CHCFG_RSP ch) = 2 → ∀ count host,
       CompletesIn (.dmaError ch false count host) s (fun s t =>
         t = dmaHalt s ch) ∧ CompletesIn (.hostReadTimeout ch count host) s (fun s t => t = dmaHalt s ch))) ∧
  (∀ (c : Fin 4) (s : State),
     (s.up (81 + c) = true → bit (s.fld Reg.MEM_STAT_FAIL) c = false → CompletesIn (.dramTrainingDone c) s fun s t =>
       t.fld Reg.MEM_STAT_READY = s.fld Reg.MEM_STAT_READY ||| 2 ^ c.val ∧ OnlyRegs [Reg.MEM_STAT] s t) ∧
     (s.up (81 + c) = true → bit (s.fld Reg.MEM_STAT_READY) c = false → bit (s.fld Reg.MEM_STAT_FAIL) c = false →
       CompletesIn (.dramTrainingFail c) s (fun s t => t = (
         let n := smGet 0 s.dram.fails c.val + 1
         let t := { s with dram := { s.dram with fails := smSet 0 s.dram.fails c.val n } }
         if n < 3 then t
         else raiseLine ((t.setFld Reg.MEM_STAT_FAIL (s.fld Reg.MEM_STAT_FAIL ||| 2 ^ c.val)).event Reg.MEM_STAT_ECCU) (38 + c)))) ∧
     (∀ bank, CompletesIn (.dramRefresh c bank) s (fun s t => t = s)) ∧ CompletesIn (.zqCalibration c) s (fun s t => t = s) ∧
     CompletesIn (.readRecenter c) s (fun s t =>
       t = (let t := { s with dram := { s.dram with recenter := nsDel s.dram.recenter c.val } }
       if nsDel s.dram.recenter c.val = [] then t.setFld Reg.MEM_CTL_RETRAIN 0 else t)) ∧
     (∀ who, Served s who Reg.MEM_CTL → s.dramUp ≠ [] → CompletesIn (.memRetrain who) s fun s t =>
       t.flag Reg.MEM_CTL_RETRAIN = true ∧ t.flag Reg.MEM_CTL_SCRUB = s.flag Reg.MEM_CTL_SCRUB ∧
       OnlyRegs [Reg.MEM_CTL] { s with dram := { s.dram with recenter := s.dramUp } }.written t) ∧
     (∀ a, s.flag Reg.MEM_CTL_SCRUB = true → s.dramReady a = true → s.dram.bad.contains (a / 8 * 8) = false →
       CompletesIn (.patrolScrub a true false) s (fun s t => t = countSrc (s.count (Reg.MEM_ECCCNT_CORR (dramChan a)) 1) 0x1D0) ∧
       CompletesIn (.patrolScrub a false true) s (fun s t =>
         t = dramUncorr { s with dram := { s.dram with bad := nsAdd s.dram.bad (a / 8 * 8) } } (a / 8 * 8))))

/-- A FILL of DRAM by a channel whose ring lies in DRAM (R242, R245, R247): every byte of the destination gets its byte of the pattern, the
descriptor gets its status word and loses OWN, no other byte of DRAM changes; the counts advance and CUR takes NEXT. Completion: on the
stated conditions, which are on the state and the operands alone, `exec i s = .next t` is the conclusion for descriptorComplete.
Completion: on the stated conditions, which are on the state and the operands alone, `exec i s = .next t` is the conclusion for
descriptorComplete. -/
def Obligations.DmaFillsDram : Prop :=
  ∀ (ch : Fin 64) (host : List Byte) (s : State), s.up 80 = true → s.dmaSt ch = 3 → s.fld (Reg.DMA_CHCFG_RSP ch) = 1 →
    (∀ a, s.dramReady a = true) →
    let d := (s.dmaX ch).desc
    let dst := dDst d
    let n := dLen d
    let cur := s.fld (Reg.DMA_CUR_ADDR ch) * 32
    dMode d = 1 → dDsp d = 1 → dSsp d ≠ 3 → dBit d 0 30 = false → dBit d 0 29 = false → n ≠ 0 → dst + n ≤ 2 ^ 30 → cur + 32 ≤ 2 ^ 30 →
    (dst + n ≤ cur ∨ cur + 32 ≤ dst) → CompletesIn (.descriptorComplete ch host []) s fun s t =>
      (∀ i, i < n → memByte t.dram.mem (dst + i) = dFill d / 256 ^ (i % 4) % 256) ∧
      memWord t.dram.mem (cur + 20) = 2 ^ 31 + n ∧ memWord t.dram.mem cur = d.getD 0 0 % 2 ^ 31 ∧
      (∀ a, ¬(dst ≤ a ∧ a < dst + n) → ¬(cur ≤ a ∧ a < cur + 4) → ¬(cur + 20 ≤ a ∧ a < cur + 24) →
        memByte t.dram.mem a = memByte s.dram.mem a) ∧ t.sram = s.sram ∧
      t.rd (Reg.DMA_BYTECNT ch) = s.rd (Reg.DMA_BYTECNT ch) + BitVec.ofNat 32 n ∧
      t.rd (Reg.DMA_DONECNT ch) = s.rd (Reg.DMA_DONECNT ch) + 1 ∧ t.rd (Reg.DMA_CUR ch) = BitVec.ofNat 32 (dNext d) ∧
      t.flag (Reg.DMA_CHSTAT_DONE ch) = true

/-- RMCLR clears both pages of the rate maps and ends the period (R265); a read of SRV_PAGE latches SRV_PAGEX (R284). Compositions (R267,
R270, R271): GO samples the completed page and begins, or is kept while one is under way; the last pass asks for a frame swap, taken at
the next vertical blanking. LASTSWAP[0] latches the other words. Completion: on the stated conditions, which are on the state and the
operands alone, `exec i s = .next t` is the conclusion for rateMapClear, srvPageRead, compositionGo, compositionDone, lastswapRead. -/
def Obligations.SurveyMaps : Prop :=
  ((∀ (who : Requester) (s : State), Served s who Reg.SRV_CTL → CompletesIn (.rateMapClear who) s fun s t =>
     (∀ a, s.counterAt 0 0 0 ≤ a → a < s.counterAt 0 0 0 + 0x40000 → memByte t.sram a = 0) ∧
     (∀ a, a < s.counterAt 0 0 0 ∨ s.counterAt 0 0 0 + 0x40000 ≤ a → memByte t.sram a = memByte s.sram a) ∧
     t.flag Reg.SRV_PAGE_VALID = false ∧ t.flag Reg.SRV_CTL_RMEN = s.flag Reg.SRV_CTL_RMEN ∧
     t.srv = { s.srv with period := none, waitFrom := s.tb.n } ∧
     OnlyRegs [Reg.SRV_CTL, Reg.SRV_PAGE] { s with sram := t.sram, ecc := t.ecc, srv := t.srv }.written t) ∧
   (∀ (who : Requester) (s : State), ServedRead s who Reg.SRV_PAGE → CompletesIn (.srvPageRead who) s (fun s t =>
     t = ((s.setFld Reg.SRV_PAGEX_ORBIT_L s.srv.pageX.1).setFld Reg.SRV_PAGEX_NORB s.srv.pageX.2).returned (s.rd Reg.SRV_PAGE)))) ∧
  ((∀ (who : Requester) (s : State), Served s who Reg.SRV_CCTL → s.srv.comp = none → s.srv.swapSeq = none →
     CompletesIn (.compositionGo who) s fun s t =>
       (∃ c, t.srv = { s.srv with comp := some c } ∧ c.seq = s.fld Reg.SRV_PAGE_SEQ ∧ c.valid = s.flag Reg.SRV_PAGE_VALID ∧
         c.page = s.counterAt (s.fld Reg.SRV_PAGE_IDX) 0 0) ∧
       t.flag Reg.SRV_CSTAT_BUSY = true ∧ t.flag Reg.SRV_STAT_CBUSY = true ∧ t.flag Reg.SRV_CCTL_GO = false ∧
       OnlyRegs [Reg.SRV_CCTL, Reg.SRV_CSTAT, Reg.SRV_CXID, Reg.SRV_STAT] { s with srv := t.srv }.written t) ∧
   (∀ (who : Requester) (s : State), Served s who Reg.SRV_CCTL → (s.srv.comp.isSome || s.srv.swapSeq.isSome) = true →
     CompletesIn (.compositionGo who) s fun s t =>
       t.flag Reg.SRV_CSTAT_PEND = true ∧ OnlyRegs [Reg.SRV_CCTL, Reg.SRV_CSTAT] s.written t) ∧
   (∀ (c : Comp) (s : State), s.up 85 = true → s.srv.comp = some c → (compDraw c (1 - s.srv.front) s).flag Reg.SRV_DCTL_EN = true →
     CompletesIn (.compositionDone []) s fun s t =>
       t.srv = { (compDraw c (1 - s.srv.front) s).srv with comp := none, swapSeq := some c.seq } ∧
       t.dram = (compDraw c (1 - s.srv.front) s).dram ∧
       t.flag Reg.SRV_CSTAT_BUSY = false ∧ t.flag Reg.SRV_STAT_SWPEND = true) ∧
   (∀ (who : Requester) (s : State), ServedRead s who Reg.SRV_LASTSWAP0 → CompletesIn (.lastswapRead who) s (fun s t =>
     t = ((((s.setFld Reg.SRV_LASTSWAP1_SEQ s.srv.lastSwap.1).wr Reg.SRV_LASTSWAP2 (BitVec.ofNat 32 s.srv.lastSwap.2)).wr
       Reg.SRV_LASTSWAP3 (BitVec.ofNat 32 (s.srv.lastSwap.2 / 2 ^ 32))).returned (s.rd Reg.SRV_LASTSWAP0)))))

/-- Scan-out (R271, R278, R282, R283): at vertical blanking the frame count advances; a waiting swap is done, or the frame is a repeat; a
missing pixel is counted, and the rest of its line shows SRV_BGCOLOR. The display link (R278, R281): enabling samples the timing and waits
for a plug, where the lanes that it uses are display lanes; a plug reads the capabilities and trains with TPS1; a recovered clock goes on
to the pattern for equalisation; success brings the link up with the mode trained, failure steps down or ends in error; unplugging stops
the main link and waits again; a pulse with lost lock trains anew. Completion: on the stated conditions, which are on the state and the
operands alone, `exec i s = .next t` is the conclusion for verticalBlanking, scanoutUnderrun, displayEnable, hotPlug, unplug, irqHpd,
linkTrainingDone. -/
def Obligations.ScanOutAndDisplay : Prop :=
  (∀ s : State, s.up 85 = true → s.flag Reg.SRV_DCTL_EN = true →
     (s.srv.swapSeq = none → s.fld Reg.SRV_DSTAT_LSTATE ≠ 3 → s.fld Reg.SRV_FRZCRC_CRC ≠ s.srv.prevCrc →
       CompletesIn .verticalBlanking s fun s t =>
       t.fld Reg.SRV_FRAMECNT_FRAMES = satAdd 32 (s.fld Reg.SRV_FRAMECNT_FRAMES) 1 ∧ t.flag Reg.SRV_STAT_REPEAT = true ∧
       t.srv = { s.srv with short := [], noSwap := s.srv.noSwap + 1, prevCrc := s.fld Reg.SRV_FRZCRC_CRC, frzRun := 0,
                            frzDiff := false, frzFired := false } ∧
       OnlyRegs [Reg.SRV_FRAMECNT, Reg.SRV_CNT, Reg.SRV_STAT] { s with srv := t.srv } t) ∧
     (∀ q, s.srv.swapSeq = some q → CompletesIn .verticalBlanking s (fun s t => t = (
       let u := scanRead { s with srv := { s.srv with short := [] } }
       freezeTest (frameSwap (u.setFld Reg.SRV_FRAMECNT_FRAMES (satAdd 32 (u.fld Reg.SRV_FRAMECNT_FRAMES) 1)) q)))) ∧
     (∀ x y, s.fld Reg.SRV_DSTAT_LSTATE ≠ 4 → CompletesIn (.scanoutUnderrun x y) s fun s t =>
       t.fld Reg.SRV_CNT_UNDER = satAdd 16 (s.fld Reg.SRV_CNT_UNDER) 1 ∧ t.flag Reg.SRV_STAT_UNDER = true ∧
       (∀ z, x.toNat ≤ z → s.fld Reg.SRV_DSTAT_LSTATE = 3 → t.scanPixel z y.toNat = some (let p := s.fld Reg.SRV_BGCOLOR_COLOR
         (s.depth (pixR p), s.depth (pixG p), s.depth (pixB p)))) ∧
       (∀ z w, w ≠ y.toNat ∨ z < x.toNat → t.scanPixel z w = s.scanPixel z w) ∧
       OnlyRegs [Reg.SRV_CNT, Reg.SRV_STAT] { s with srv := { s.srv with short := s.srv.short ++ [(y.toNat, x.toNat)] } } t)) ∧
  (∀ s : State, s.up 85 = true →
     (∀ who v, Served s who Reg.SRV_DCTL → s.flag Reg.SRV_DCTL_EN = false → s.dpLane 46 = true →
       (v.getLsbD 0 = false ∨ s.dpLane 47 = true) → CompletesIn (.displayEnable who v) s fun s t =>
       t.rd Reg.SRV_DCTL = (v ||| 0x80000000#32) &&& BitVec.ofNat 32 RegTab.row_SRV_DCTL.rw ∧ t.fld Reg.SRV_DSTAT_LSTATE = 1 ∧
       OnlyRegs [Reg.SRV_DCTL, Reg.SRV_DSTAT] { s with srv := { s.srv with
         noSwap := 0
         timing := [s.rd Reg.SRV_HT0, s.rd Reg.SRV_HT1, s.rd Reg.SRV_VT0, s.rd Reg.SRV_VT1, s.rd Reg.SRV_PCLK] } }.written t) ∧
     (∀ caps edid fast, s.fld Reg.SRV_DSTAT_LSTATE = 1 → CompletesIn (.hotPlug caps edid fast) s fun s t =>
       t.fld Reg.SRV_DSTAT_LSTATE = 2 ∧ t.flag Reg.SRV_DSTAT_HPD = true ∧
       t.rd Reg.SRV_DPCAP = wSetField (caps &&& BitVec.ofNat 32 RegTab.row_SRV_DPCAP.ro) 16 16 (b2n (edidOk edid)) ∧
       (∀ i w, i < 32 → edid[i]? = some w → t.rd (Reg.SRV_EDID i) = w) ∧ t.srv.fastLink = fast ∧
       t.fld (Reg.LNK_DP_RATE 46) = s.fld Reg.SRV_DCTL_RATE ∧ t.flag (Reg.LNK_DP_TXEN 46) = true ∧
       t.fld (Reg.LNK_DP_PAT 46) = 1) ∧
     (∀ caps edid fast, s.fld Reg.SRV_DSTAT_LSTATE ≠ 1 → CompletesIn (.hotPlug caps edid fast) s fun s t =>
       t.flag Reg.SRV_DSTAT_HPD = true ∧ t.fld Reg.SRV_DSTAT_LSTATE = s.fld Reg.SRV_DSTAT_LSTATE ∧ OnlyRegs [Reg.SRV_DSTAT] s t) ∧
     (s.fld Reg.SRV_DSTAT_LSTATE ≠ 0 → CompletesIn .unplug s fun s t =>
       t.flag Reg.SRV_DSTAT_HPD = false ∧ t.flag Reg.SRV_DSTAT_UNPLUG = true ∧ t.fld Reg.SRV_DSTAT_LSTATE = 1 ∧
       (∀ n, n = 46 ∨ n = 47 → s.dpLane n = true → t.flag (Reg.LNK_DP_TXEN n) = false) ∧
       OnlyRegs [Reg.SRV_DSTAT, Reg.LNK_DP 46, Reg.LNK_DP 47] s t) ∧
     (s.fld Reg.SRV_DSTAT_LSTATE ≠ 0 → CompletesIn (.irqHpd false) s fun s t =>
       t.flag Reg.SRV_DSTAT_HPDIRQ = true ∧ OnlyRegs [Reg.SRV_DSTAT] s t) ∧
     (s.fld Reg.SRV_DSTAT_LSTATE = 3 → CompletesIn (.irqHpd true) s (fun s t =>
       t = dpTrain (s.event Reg.SRV_DSTAT_HPDIRQ) s.srv.tryLanes s.srv.tryRate)) ∧
     (∀ drive, s.fld Reg.SRV_DSTAT_LSTATE = 2 →
       (CompletesIn (.linkTrainingDone .success drive) s fun s t =>
         t.fld Reg.SRV_DSTAT_LSTATE = 3 ∧ t.fld Reg.SRV_DSTAT_LANESUP = s.srv.tryLanes % 2 ∧
         t.fld Reg.SRV_DSTAT_RATEUP = s.srv.tryRate % 2 ∧ t.fld (Reg.LNK_DP_PAT 46) = 0) ∧
       (CompletesIn (.linkTrainingDone .clock drive) s fun s t =>
         t.fld Reg.SRV_DSTAT_LSTATE = 2 ∧ t.fld (Reg.LNK_DP_PAT 46) = s.eqPattern ∧
         t.fld (Reg.LNK_DP_SWING 46) = drive.toNat % 4 ∧ t.flag (Reg.LNK_DP_TXEN 46) = true) ∧
       (s.srv.tryRate = 0 → s.srv.tryLanes = 0 → CompletesIn (.linkTrainingDone .failure drive) s (fun s t =>
         t = raiseLine ((dpStop (s.event Reg.SRV_DSTAT_TRFAIL)).setFld Reg.SRV_DSTAT_LSTATE 5) 14))))

/-- The blitter (R274, R275, R277): a good GO starts it, a bad one ends with its code, one while it runs is discarded with OVR; a row is read
element by element, then written and counted, the last one ends the blit; a read that fails, or an access that fails from outside, ends it
with code 5. Completion: on the stated conditions, which are on the state and the operands alone, `exec i s = .next t` is the conclusion
for blitGo, blitRowDone, blitDone, blitError. -/
def Obligations.Blits : Prop :=
  (∀ (who : Requester) (op : BitVec 3) (wm : BitVec 12) (s : State), Served s who Reg.SRV_BCTL →
    let set := fun s : State => (s.setFld Reg.SRV_BCTL_OP op.toNat).setFld Reg.SRV_BCTL_WM wm.toNat
    let u := set s
    (s.srv.blit.isSome = true → CompletesIn (.blitGo who op wm) s (fun s t => t = (s.event Reg.SRV_BSTAT_OVR).written)) ∧
    (s.srv.blit = none → u.blitRefusal u.blitOf = 0 → CompletesIn (.blitGo who op wm) s fun s t =>
      t.flag Reg.SRV_BSTAT_BUSY = true ∧ t.fld Reg.SRV_BSTAT_ROWS = 0 ∧ t.fld Reg.SRV_BSTAT_ERRCODE = 0 ∧
      OnlyRegs [Reg.SRV_BCTL, Reg.SRV_BSTAT] { s with srv := { s.srv with blit := some u.blitOf } }.written t) ∧
    (s.srv.blit = none → u.blitRefusal u.blitOf ≠ 0 → CompletesIn (.blitGo who op wm) s (fun s t =>
      t = (blitFail (((set s).setFld Reg.SRV_BSTAT_ROWS 0).setFld Reg.SRV_BSTAT_ERRCODE 0) (u.blitRefusal u.blitOf)).written))) ∧
  (∀ (b : Blit) (s : State), s.up 85 = true → s.srv.blit = some b →
    (s.fld Reg.SRV_BSTAT_ROWS + 1 ≠ b.h → CompletesIn (.blitRowDone []) s (fun s t =>
      let w := blitRow s b (b.rowNo (s.fld Reg.SRV_BSTAT_ROWS))
      (w.failed = false → t = blitRowDone w.st b w.elems) ∧ (w.failed = true → t = blitError b w))) ∧
    (s.fld Reg.SRV_BSTAT_ROWS + 1 = b.h → CompletesIn (.blitDone []) s (fun s t =>
      let w := blitRow s b (b.rowNo (s.fld Reg.SRV_BSTAT_ROWS))
      let u := blitRowDone w.st b w.elems
      (w.failed = false → t =
        devEvent ({ u with srv := { u.srv with blit := none } }.setFld Reg.SRV_BSTAT_BUSY 0) 212 Reg.SRV_BSTAT_DONE) ∧
      (w.failed = true → t = blitError b w)))) ∧
  (∀ (b : Blit) (s : State), s.up 85 = true → s.srv.blit = some b → CompletesIn .blitError s fun _ t =>
    t.srv.blit = none ∧ t.flag Reg.SRV_BSTAT_BUSY = false ∧ t.fld Reg.SRV_BSTAT_ERRCODE = 5 ∧ t.flag Reg.SRV_BSTAT_ERR = true)

/-- Converter cells (R285, R286, R300): a free-running trigger samples the pin, one during a conversion is dropped with OVR; a conversion
delivers its code and counts it; an echo cell reads back the code that it drives; the temperature register takes a new value. Loops (R286,
R300 to R302): at its sample instant a loop that is not held takes the pin's code, computes through its two sections, clamps, and shows
what it used; a cell that still converts makes it skip; the output that becomes ready is then the pending duty or code of its target.
Completion: on the stated conditions, which are on the state and the operands alone, `exec i s = .next t` is the conclusion for
conversionTrigger, conversionDone, echoConversion, tempUpdate, loopSample, loopOutput. -/
def Obligations.CellsAndLoops : Prop :=
  ((∀ (n : Fin 48) (code : BitVec 14) (s : State), s.up 91 = true → s.loopOfCell n = none → s.fld (Reg.CVL_CCFG_MODE n) = 1 →
     ((∀ e ∈ s.cvl.conv, e.1 ≠ n.val) → CompletesIn (.conversionTrigger n code) s (fun s t =>
       t = { s with cvl := { s.cvl with conv := s.cvl.conv ++ [(n.val, code.toNat)] } })) ∧
     ((∃ e ∈ s.cvl.conv, e.1 = n.val) → CompletesIn (.conversionTrigger n code) s fun s t =>
       t.flag (Reg.CVL_CRES_OVR n) = true ∧ t.flag Reg.CVL_STAT_OVR = true ∧ t.cellRes n = s.cellRes n ∧
       OnlyRegs [Reg.CVL_CRES n, Reg.CVL_STAT] s t)) ∧
   (∀ (n : Fin 48) (k : Nat) (s : State), s.cvl.conv.find? (fun e => decide (e.1 = n.val)) = some (n.val, k) →
     CompletesIn (.conversionDone n) s fun s t =>
       t.cellRes n = k % 16384 ∧ t.fld (Reg.CVL_CRES_SEQ n) = (s.fld (Reg.CVL_CRES_SEQ n) + 1) % 32768 ∧
       t.flag (Reg.CVL_CRES_OVR n) = s.flag (Reg.CVL_CRES_OVR n) ∧
       OnlyRegs [Reg.CVL_CRES n] { s with cvl := { s.cvl with conv := s.cvl.conv.filter fun e => !decide (e.1 = n.val) } } t) ∧
   (∀ (n : Fin 48) (s : State), s.up 91 = true → s.fld (Reg.CVL_CCFG_MODE n) = 3 → CompletesIn (.echoConversion n) s fun s t =>
     t.cellRes n = s.cellCode n % 16384 ∧ t.fld (Reg.CVL_CRES_SEQ n) = (s.fld (Reg.CVL_CRES_SEQ n) + 1) % 32768 ∧
     OnlyRegs [Reg.CVL_CRES n] s t) ∧
   (∀ (v : BitVec 16) (s : State), s.up 92 = true → s.up 2 = true → v.toInt ≤ sext 16 (s.fld Reg.FLT_TLIM_HI) →
     CompletesIn (.tempUpdate v) s fun s t =>
       t.fld Reg.CVL_TEMP_TJ = v.toNat ∧ OnlyRegs [Reg.CVL_TEMP] { s with flt := { s.flt with temp := v.toInt } } t)) ∧
  ((∀ (i : Fin 64) (code : BitVec 14) (s : State), s.up 91 = true → s.up 92 = true → i.val ∈ s.loopList → (s.loopX i).due = true →
     s.fld (Reg.CVL_CCFG_MODE (s.fld (Reg.CVL_LCFG_CELL i))) = 1 → s.loopBad i = false → s.loopHeld i = false →
     (s.loopX i).held = false → (s.loopX i).seeded = true →
     (∀ e ∈ s.cvl.conv, e.1 ≠ s.fld (Reg.CVL_LCFG_CELL i)) →
     let x : Int := code.toNat
     let l := s.loopX i
     let slew : Int := s.fld (Reg.CVL_LSET_SLEW i)
     let sp := if slew = 0 then s.loopTarget i else l.sp + clampI (-slew) slew (s.loopTarget i - l.sp)
     let r0 := biquad 32 (s.loopCoef i 0) l.s0 (satS 32 ((sp - x) * 65536))
     let r1 := biquad 32 (s.loopCoef i 1) l.s1 r0.1
     let u := clampI (sext 32 (s.fld (Reg.CVL_LUMIN_LIM i))) (sext 32 (s.fld (Reg.CVL_LUMAX_LIM i))) r1.1
     CompletesIn (.loopSample i code 0 false) s fun s t =>
       t.fld (Reg.CVL_LSTAT_X i) = code.toNat ∧ t.rd (Reg.CVL_LOUT i) = BitVec.ofNat 32 (wrapN 32 u) ∧
       t.fld (Reg.CVL_LSP_SP i) = wrapN 16 sp ∧ (u ≠ r1.1 → t.flag (Reg.CVL_LSTAT_CLAMP i) = true) ∧
       (t.loopX i).out = sarI u (s.fld (Reg.CVL_LOMAP_OSH i)) + sext 21 (s.fld (Reg.CVL_LOMAP_OOFF i)) ∧
       (t.loopX i).s0 = r0.2 ∧ (t.loopX i).s1 = { r1.2 with y1 := u } ∧ (t.loopX i).sp = sp ∧ (t.loopX i).due = false ∧
       t.cvl.conv = s.cvl.conv ++ [(s.fld (Reg.CVL_LCFG_CELL i), code.toNat)] ∧
       OnlyRegs [Reg.CVL_LSTAT i, Reg.CVL_LOUT i, Reg.CVL_LSP i]
         { s with cvl := { s.cvl with conv := t.cvl.conv, loops := t.cvl.loops } } t) ∧
   (∀ (i : Fin 64) (code : BitVec 14) (s : State), s.up 91 = true → s.up 92 = true → i.val ∈ s.loopList → (s.loopX i).due = true →
     s.fld (Reg.CVL_CCFG_MODE (s.fld (Reg.CVL_LCFG_CELL i))) = 1 → (∃ e ∈ s.cvl.conv, e.1 = s.fld (Reg.CVL_LCFG_CELL i)) →
     CompletesIn (.loopSample i code 0 false) s fun s t =>
       t.flag (Reg.CVL_LSTAT_SKIP i) = true ∧ t.rd (Reg.CVL_LOUT i) = s.rd (Reg.CVL_LOUT i) ∧ (t.loopX i).due = false) ∧
   (∀ (i : Fin 64) (cyc t0 : Nat) (s : State), s.up 92 = true → (s.loopX i).ready = some t0 → s.loopHeld i = false →
     let m := s.fld (Reg.CVL_LCFG_OIDX i)
     (s.fld (Reg.CVL_LCFG_OMODE i) = 0 → s.fld (Reg.CVL_PCTL_UPD m) ≠ 0 → CompletesIn (.loopOutput i cyc) s fun s t =>
       (t.loopX i).ready = none ∧
       t.pwm m = { s.pwm m with pend := { (s.pwm m).pend with dutyA := (clampI 0 (s.pwm m).pend.pl (s.loopX i).out).toNat } } ∧
       t = { s with cvl := { s.cvl with loops := t.cvl.loops, pairs := t.cvl.pairs } }) ∧
     (s.fld (Reg.CVL_LCFG_OMODE i) = 2 → CompletesIn (.loopOutput i cyc) s fun s t =>
       (t.loopX i).ready = none ∧ smGet 0 t.cvl.loopCode i = (clampI 0 16383 (s.loopX i).out).toNat ∧
       t = { s with cvl := { s.cvl with loops := t.cvl.loops, loopCode := t.cvl.loopCode } })))

/-- Comparators (R288 to R291): an even one is active above its threshold, an odd one below; one that becomes active outside blanking trips
its group, for the cycle or latched with error line 15; blanked it acts when its window ends; becoming inactive ends its cycle trips; a
TRIPCLR write ends the latched trips of the named groups whose comparator is inactive, and none in the safe state. Completion: on the
stated conditions, which are on the state and the operands alone, `exec i s = .next t` is the conclusion for comparatorTrip,
blankWindowEnd, comparatorRelease, tripClear. Completion: on the stated conditions, which are on the state and the operands alone, `exec i
s = .next t` is the conclusion for comparatorTrip, blankWindowEnd, comparatorRelease, tripClear. -/
def Obligations.ComparatorTrips : Prop :=
  (∀ (k : Fin 96) (uv : BitVec 21) (s : State), s.up 91 = true → s.up 92 = true → s.cmpLevel k = false → s.cmpOver k uv.toNat = true →
    s.flag (Reg.CVL_CMPCFG_TEN k) = true →
    let ain := (s.cvl.ain.filter fun e => !decide (e.1 = k.val)) ++ [(k.val, uv.toNat)]
    (k.val ∈ s.cvl.blank → CompletesIn (.comparatorTrip k uv) s fun s t =>
      t.cmpLevel k = true ∧ OnlyRegs [Reg.CVL_CMPLVL (k / 32)] { s with cvl := { s.cvl with ain := ain } } t) ∧
    (k.val ∉ s.cvl.blank → s.flag (Reg.CVL_CMPCFG_CYC k) = true → CompletesIn (.comparatorTrip k uv) s fun s t =>
      t.cmpLevel k = true ∧ t.groupTripped (s.fld (Reg.CVL_CMPCFG_GRP k)) = true ∧
      (k.val, s.fld (Reg.CVL_CMPCFG_GRP k)) ∈ t.cvl.cycle ∧ t.cvl.latched = s.cvl.latched ∧ t.flag Reg.CVL_STAT_TRIP = true) ∧
    (k.val ∉ s.cvl.blank → s.flag (Reg.CVL_CMPCFG_CYC k) = false → ∃ u, CompletesIn (.comparatorTrip k uv) s (fun _ t =>
      t = raiseLine u 15) ∧
      u.cmpLevel k = true ∧ u.groupTripped (s.fld (Reg.CVL_CMPCFG_GRP k)) = true ∧
      (k.val, s.fld (Reg.CVL_CMPCFG_GRP k)) ∈ u.cvl.latched ∧ u.cvl.cycle = s.cvl.cycle ∧ u.flag Reg.CVL_STAT_TRIP = true)) ∧
  (∀ (k : Fin 96) (s : State), k.val ∈ s.cvl.blank → (s.cmpLevel k && s.flag (Reg.CVL_CMPCFG_TEN k)) = false →
    CompletesIn (.blankWindowEnd k) s (fun s t => t = { s with cvl := { s.cvl with blank := nsDel s.cvl.blank k } })) ∧
  (∀ (k : Fin 96) (uv : BitVec 21) (s : State), s.up 91 = true → s.cmpOver k uv.toNat = false →
    let ain := (s.cvl.ain.filter fun e => !decide (e.1 = k.val)) ++ [(k.val, uv.toNat)]
    CompletesIn (.comparatorRelease k uv) s fun s t =>
    t.cmpLevel k = false ∧ (∀ e, e ∈ t.cvl.cycle ↔ e ∈ s.cvl.cycle ∧ e.1 ≠ k.val) ∧
    OnlyRegs [Reg.CVL_CMPLVL (k / 32)] { s with cvl := { s.cvl with cycle := t.cvl.cycle, ain := ain } } t) ∧
  (∀ (k : Fin 96) (uv : BitVec 21) (s : State), s.cmpLevel k = false →
    s.cmpOver k uv.toNat = decide (if k.val % 2 = 0 then s.fld (Reg.CVL_CMPCFG_THR k) * 1800000 < uv.toNat * 1024
      else uv.toNat * 1024 < s.fld (Reg.CVL_CMPCFG_THR k) * 1800000)) ∧
  (∀ (who : Requester) (hi : Bool) (mask : Word) (s : State), Served s who (if hi then Reg.CVL_TRIPCLR_HI else Reg.CVL_TRIPCLR_LO) →
    (s.safe = true → CompletesIn (.tripClear who hi mask) s (fun s t => t = s.written)) ∧
    (s.safe = false → CompletesIn (.tripClear who hi mask) s fun s t =>
      t = { s with cvl := { s.cvl with latched := t.cvl.latched } }.written ∧
      ∀ k g, k < 96 → ((k, g) ∈ t.cvl.latched ↔
        (k, g) ∈ s.cvl.latched ∧ (g / 32 ≠ b2n hi ∨ mask.getLsbD (g % 32) = false ∨ s.cmpLevel k = true))))

/-- PWM (R292, R294, R295, R297): a period's end makes the pending values current and begins the next (a microstep unit of the pair that works
under UPD 0b00 then sets its duty anew); the mid-period point does so only under UPD 0b10; an edge position inside a quiet zone is
deferred, and outside one is produced, in complementary pairs with the dead times of the values in force. Completion: on the stated
conditions, which are on the state and the operands alone, `exec i s = .next t` is the conclusion for pwmPeriodEnd, pwmUpdatePoint,
pwmEdge. -/
def Obligations.PwmInstants : Prop :=
  (∀ (m : Fin 64) (s : State), s.up 92 = true → (s.pwm m).run = true → s.ecc = [] →
    (s.fld (Reg.CVL_PCTL_UPD m) ≠ 0 ∨ ∀ u, u < 16 → s.flag (Reg.CVL_MSCFG_EN u) = true → s.fld (Reg.CVL_MSCFG_PAIR0 u) ≠ m.val) →
    CompletesIn (.pwmPeriodEnd m []) s fun s t =>
    (t.pwm m).cur = (s.pwm m).pend ∧ (t.pwm m).start = (s.pwm m).start + (s.pwm m).fin * s.fine m ∧
    (t.pwm m).fin = (s.pwm m).pend.pl ∧ (t.pwm m).high = 0 ∧
    OnlyRegs (Reg.CVL_PSTAT m :: (List.range 16).map Reg.CVL_MSPOS) { s with cvl := t.cvl } t) ∧
  (∀ (m : Fin 64) (s : State), s.up 92 = true → (s.pwm m).run = true →
    (s.fld (Reg.CVL_PCTL_UPD m) ≠ 2 → CompletesIn (.pwmUpdatePoint m) s (fun s t => t = s)) ∧
    (s.fld (Reg.CVL_PCTL_UPD m) = 2 → CompletesIn (.pwmUpdatePoint m) s fun s t =>
      (t.pwm m).cur = (s.pwm m).pend ∧ (t.pwm m).start = (s.pwm m).start ∧ t = { s with cvl := t.cvl })) ∧
  (∀ (m : Fin 64) (e : PwmEdge) (rest : List PwmEdge) (s : State), s.up 92 = true → (s.pwm m).run = true →
    (s.pwm m).edges = e :: rest →
    (s.inZone m e.t = true → CompletesIn (.pwmEdge m) s fun s t =>
      t.pwm m = { s.pwm m with edges := rest, waits := (s.pwm m).waits ++ [e.ev] } ∧
      t = { s with cvl := { s.cvl with pairs := t.cvl.pairs } }) ∧
    (s.inZone m e.t = false → CompletesIn (.pwmEdge m) s fun s t =>
      t = { s with cvl := { s.cvl with pairs := t.cvl.pairs, blank := t.cvl.blank } } ∧
      (e.ev = .rise false → (t.pwm m).w = true ∧
        (s.complementary m = false → (t.pwm m).a = true) ∧
        (s.complementary m = true → (t.pwm m).b = false ∧
          ({ t := e.t + (s.pwm m).cur.dta * s.fine m, ev := .aRise } : PwmEdge) ∈ (t.pwm m).edges)) ∧
      (e.ev = .fall false → (t.pwm m).w = false ∧ (t.pwm m).a = false ∧
        (s.complementary m = true →
          ({ t := e.t + (s.pwm m).cur.dtb * s.fine m, ev := .bRise } : PwmEdge) ∈ (t.pwm m).edges)) ∧
      (e.ev = .rise true → (t.pwm m).b = true) ∧ (e.ev = .fall true → (t.pwm m).b = false) ∧
      (e.ev = .aRise → (t.pwm m).a = (s.pwm m).w) ∧ (e.ev = .bRise → (t.pwm m).b = !(s.pwm m).w)))

/-- Voices and buses (R311, R313 to R315): a start is due after TDEL samples, a stop takes the voice out; a bus's sample stays below its limit
and is shown, its code and value reach the consumers later; PKCLR clears the peak. Completion: on the stated conditions, which are on the
state and the operands alone, `exec i s = .next t` is the conclusion for voiceStart, voiceStop, busSample, busSampleDeliver, peakClear. -/
def Obligations.VoicesAndBuses : Prop :=
  (∀ (who : Requester) (v : Fin 64) (s : State), Served s who (Reg.VOX_VCTL v) → s.up 92 = true →
    (s.running = true → s.flag (Reg.VOX_VCFG_EN v) = true → CompletesIn (.voiceStart who v) s fun s t =>
      t.voice v = { s.voice v with
        starts := (s.voice v).starts ++ [s.fld (Reg.VOX_VCNT_TDEL v)], asked := some (s.fld (Reg.VOX_VCNT_TDEL v)) } ∧
      (∀ w, w ≠ v.val → t.voice w = s.voice w) ∧
      t = { s with vox := { s.vox with voices := t.vox.voices } }.written) ∧
    (CompletesIn (.voiceStop who v) s fun s t =>
      (t.voice v).run = false ∧ (∀ n, n ∈ (t.voice v).starts ↔ n ∈ (s.voice v).starts ∧ n ≠ 0) ∧
      (∀ w, w ≠ v.val → t.voice w = s.voice w) ∧ t = { s with vox := { s.vox with voices := t.vox.voices } }.written)) ∧
  (∀ (b : Fin 16) (corr : Nat) (s : State), s.up 92 = true → s.running = true → b.val < s.fld Reg.VOX_CFG_NBUS → s.ecc = [] →
    (s.fld (Reg.VOX_BCFG_RATE b) = 1 ∨ s.fld (Reg.VOX_BCFG_RATE b) = 2) →
    let lim : Int := max (s.fld (Reg.VOX_BGAIN_LIM b)) 1
    CompletesIn (.busSample b corr) s fun s t => ∃ x : Int,
      (t.bus b).flight = (s.bus b).flight ++ [(x, (clampI 0 16383 (sarI x 2 + s.fld (Reg.VOX_BOUT_DACOFF b))).toNat)] ∧
      -lim ≤ x ∧ x < lim ∧ t.fld (Reg.VOX_BSAMP_S16 b) = wrapN 16 x ∧ (t.bus b).out = (s.bus b).out ∧ (t.bus b).code = (s.bus b).code) ∧
  (∀ (b : Fin 16) (x : Int) (code : Nat) (r : List (Int × Nat)) (s : State), (s.bus b).flight = (x, code) :: r →
    CompletesIn (.busSampleDeliver b) s fun s t =>
      t.busOut b = x ∧ (t.bus b).code = code ∧ (t.bus b).flight = r ∧
      (∀ n, n < 48 → s.fld (Reg.CVL_CCFG_DSRC n) = 2 → s.fld (Reg.CVL_CCFG_DIDX n) = b.val → 2 ≤ s.fld (Reg.CVL_CCFG_MODE n) →
        smGet 0 t.cvl.busCode n = code) ∧
      t = { s with vox := { s.vox with buses := t.vox.buses }, cvl := { s.cvl with busCode := t.cvl.busCode } }) ∧
  (∀ (who : Requester) (b : Fin 16) (s : State), Served s who (Reg.VOX_BMCFG b) → s.up 92 = true →
    CompletesIn (.peakClear who b) s fun s t =>
      (t.bus b).peak = 0 ∧ (t.bus b).hold = 0 ∧ t.fld (Reg.VOX_BMETER_PEAK b) = 0 ∧
      OnlyRegs [Reg.VOX_BMETER b] { s with vox := { s.vox with buses := t.vox.buses } }.written t)

/-- A write of TMR_CMP[n] or TMR_CNT[n] re-arms the match of timer n, which fires in the same cycle, with its actions, when the count has
reached the compare value; the timer need not run (R324). Of a linked pair the write of the high half does it, with both halves.
Completion: on the stated conditions, which are on the state and the operands alone, `exec i s = .next t` is the conclusion for
compareWrite, countWrite. -/
def Obligations.CompareRearms : Prop :=
  ∀ (who : Requester) (n : Fin 128) (v : Word) (s : State),
    let rearmed := fun (u : State) (k : Nat) => (u.setFld (Reg.TMR_STAT_ARMED k) 1)
    let tested := fun (u : State) (k : Nat) =>
      if u.tval Reg.TMR_CMP k ≤ u.tval Reg.TMR_CNT k then tmrMatch (rearmed u k) k else rearmed u k
    (s.linked n = false →
      (Served s who (Reg.TMR_CMP n) → CompletesIn (.compareWrite who n v) s (fun s t =>
        t = (tested (s.wr (Reg.TMR_CMP n) v) n).written)) ∧
      (Served s who (Reg.TMR_CNT n) → CompletesIn (.countWrite who n v) s (fun s t =>
        t = (tested (s.wr (Reg.TMR_CNT n) v) n).written))) ∧
    (∀ m : Nat, s.linked n = true → n.val = m + 1 → m % 2 = 0 → ∀ w : Word,
      (Served s who (Reg.TMR_CMP n) → (s.timer m).heldCmp = some w → CompletesIn (.compareWrite who n v) s (fun s t =>
        t = (tested (((s.wr (Reg.TMR_CMP m) w).setTimer m { s.timer m with heldCmp := none }).wr (Reg.TMR_CMP n) v) m).written)) ∧
      (Served s who (Reg.TMR_CNT n) → (s.timer m).heldCnt = some w → CompletesIn (.countWrite who n v) s (fun s t =>
        t = (tested (((s.wr (Reg.TMR_CNT m) w).setTimer m { s.timer m with heldCnt := none }).wr (Reg.TMR_CNT n) v) m).written)))

/-- Ticks of a timer (R321 to R323, R328): RUN starts it with an empty accumulator; an edge of its source adds to the accumulator until the
factor is reached, then counts; the count before the period's end begins again at 0, with the period event. Accesses of a timer (R329,
R330): a read of a pair's low count latches the high half; a capture enters the queue of four, or sets CAPOVF when it is full; a read
takes the oldest one. Completion: on the stated conditions, which are on the state and the operands alone, `exec i s = .next t` is the
conclusion for timerRun, timerTick, timerCountRead, captureRead, timerCapture. -/
def Obligations.Timers : Prop :=
  ((∀ (who : Requester) (n : Fin 128) (s : State), Served s who (Reg.TMR_CTL n) →
     (s.flag (Reg.TMR_CTL_RUN n) = true → CompletesIn (.timerRun who n) s (fun s t => t = s.written)) ∧
     (s.flag (Reg.TMR_CTL_RUN n) = false → CompletesIn (.timerRun who n) s fun s t =>
       t.flag (Reg.TMR_CTL_RUN n) = true ∧ t.timer n = { s.timer n with acc := 0 } ∧
       OnlyRegs [Reg.TMR_CTL n] { s with tmr := { s.tmr with timers := t.tmr.timers } }.written t)) ∧
   (∀ (n : Fin 128) (rise : Bool) (s : State), s.up 90 = true → (s.linked n = true → n.val % 2 = 0) →
     s.flag (Reg.TMR_CTL_RUN n) = true → s.tmrFed n rise = true →
     let cnt := s.tval Reg.TMR_CNT n
     let per := s.tval Reg.TMR_PER n
     ((s.timer n).acc + 256 < s.tmrP n → CompletesIn (.timerTick n rise none) s fun s t =>
       (t.timer n).acc = (s.timer n).acc + 256 ∧ t = { s with tmr := { s.tmr with timers := t.tmr.timers } }) ∧
     (s.tmrP n ≤ (s.timer n).acc + 256 → (per = 0 ∨ cnt + 1 < per) → cnt + 1 < 2 ^ s.tbits n →
       (s.flag (Reg.TMR_STAT_ARMED n) = false ∨ cnt + 1 < s.tval Reg.TMR_CMP n) → CompletesIn (.timerTick n rise none) s fun s t =>
         t.tval Reg.TMR_CNT n = cnt + 1 ∧ (t.timer n).acc = (s.timer n).acc + 256 - s.tmrP n ∧
         OnlyRegs (Reg.TMR_CNT n :: if s.linked n then [Reg.TMR_CNT (n + 1)] else [])
           { s with tmr := { s.tmr with timers := t.tmr.timers } } t) ∧
     (s.tmrP n ≤ (s.timer n).acc + 256 → per ≠ 0 → per ≤ cnt + 1 → s.tval Reg.TMR_CMP n ≠ 0 →
       CompletesIn (.timerTick n rise none) s fun _ t =>
       t.tval Reg.TMR_CNT n = 0 ∧ t.flag (Reg.TMR_STAT_ARMED n) = true ∧ t.flag (Reg.TMR_STAT_PERIOD n) = true ∧
       t.flag (Reg.TMR_CTL_RUN n) = true))) ∧
  ((∀ (who : Requester) (n : Fin 128) (s : State), s.linked n = false →
     (ServedRead s who (Reg.TMR_CNT n) → CompletesIn (.timerCountRead who n) s (fun s t => t = s.returned (s.rd (Reg.TMR_CNT n)))) ∧
     (∀ w r, ServedRead s who (Reg.TMR_CAP n) → (s.timer n).caps = w :: r → (s.accessCycle who).cyc.capDrops = [] →
       CompletesIn (.captureRead who n) s fun s t =>
         (t.timer n).caps = r ∧ t.fld (Reg.TMR_STAT_NUM n) = r.length % 8 ∧
         OnlyRegs [Reg.TMR_STAT n] (State.returned { s with tmr := { s.tmr with timers := t.tmr.timers } } w) t)) ∧
   (∀ (who : Requester) (n : Fin 128) (s : State), s.linked n = true → n.val % 2 = 0 → ServedRead s who (Reg.TMR_CNT n) →
     CompletesIn (.timerCountRead who n) s fun s t =>
       (t.timer n).cntHi = s.rd (Reg.TMR_CNT (n + 1)) ∧
       t = State.returned { s with tmr := { s.tmr with timers := t.tmr.timers } } (s.rd (Reg.TMR_CNT n))) ∧
   (∀ (n : Fin 128) (rise : Bool) (s : State), s.up 90 = true → s.linked n = false → s.fld (Reg.TMR_CTL_CSEL n) = 2 → s.fld Reg.TB_STAT_STATE ≠ 0 →
     ((s.timer n).caps.length < 4 → CompletesIn (.timerCapture n rise) s fun s t =>
       (t.timer n).caps = (s.timer n).caps ++ [s.rd (Reg.TMR_CNT n)] ∧ t.fld (Reg.TMR_STAT_NUM n) = (s.timer n).caps.length + 1 ∧
       t.flag (Reg.TMR_STAT_CAP n) = true ∧ t.rd (Reg.TMR_CNT n) = s.rd (Reg.TMR_CNT n)) ∧
     (4 ≤ (s.timer n).caps.length → CompletesIn (.timerCapture n rise) s fun s t =>
       t.flag (Reg.TMR_STAT_CAPOVF n) = true ∧ t.timer n = s.timer n ∧ OnlyRegs [Reg.TMR_STAT n] s t)))

/-- Event counters (R334 to R336): a clear leaves this cycle's contribution; a snapshot copies every count before it, with the reference time,
and is taken before a clear that is written with it; two reads latch the upper half. Completion: on the stated conditions, which are on
the state and the operands alone, `exec i s = .next t` is the conclusion for eventCounterClear, eventCounterClearAll, eventSnapshot,
eventCountRead, snapshotTimeRead. -/
def Obligations.EventCounters : Prop :=
  (∀ (who : Requester) (k : Fin 512) (s : State), Served s who (Reg.TMR_ESEL k) →
    CompletesIn (.eventCounterClear who k) s fun s t =>
    (∀ j, smGet 0 t.tmr.evCnt j = if j = k.val then s.contrib j else smGet 0 s.tmr.evCnt j) ∧
    t = { s with tmr := { s.tmr with evCnt := t.tmr.evCnt } }.written) ∧
  (∀ (who : Requester) (s : State), Served s who Reg.TMR_EVCTL → CompletesIn (.eventCounterClearAll who) s fun s t =>
    (∀ j, smGet 0 t.tmr.evCnt j = s.contrib j) ∧ t = { s with tmr := { s.tmr with evCnt := t.tmr.evCnt } }.written) ∧
  (∀ (who : Requester) (clr : Bool) (s : State), Served s who Reg.TMR_EVCTL → CompletesIn (.eventSnapshot who clr) s fun s t =>
    (∀ k, k < 512 → t.rd (Reg.TMR_ESNAP_LO k) = BitVec.ofNat 32 (s.evBefore k) ∧
      t.fld (Reg.TMR_ESNAP_HI_SNAP_H k) = s.evBefore k / 2 ^ 32 % 65536) ∧
    t.tmr.snapT = s.rtime ∧ t.rd Reg.TMR_SNAPT_LO = BitVec.ofNat 32 s.rtime ∧
    t.fld Reg.TMR_EVSTAT_SNAPCNT = (s.fld Reg.TMR_EVSTAT_SNAPCNT + 1) % 65536 ∧
    (∀ j, smGet 0 t.tmr.evCnt j = if clr then s.contrib j else smGet 0 s.tmr.evCnt j)) ∧
  (∀ (who : Requester) (k : Fin 512) (s : State), ServedRead s who (Reg.TMR_ECNT_LO k) →
    CompletesIn (.eventCountRead who k) s (fun s t =>
      t = ((s.setFld (Reg.TMR_ECNT_HI_CNT_H k) (smGet 0 s.tmr.evCnt k / 2 ^ 32)).returned
      (BitVec.ofNat 32 (smGet 0 s.tmr.evCnt k))))) ∧
  (∀ (who : Requester) (s : State), ServedRead s who Reg.TMR_SNAPT_LO → CompletesIn (.snapshotTimeRead who) s (fun s t =>
    t = (s.wr Reg.TMR_SNAPT_HI (BitVec.ofNat 32 (s.tmr.snapT / 2 ^ 32))).returned (s.rd Reg.TMR_SNAPT_LO)))

/-- Integer and immediate forms of the Sepia cores (R366 to R368): the register written, the flags set, the overflow exception; g0 reads 0 and
discards what is written to it. Completion: on the stated conditions, which are on the state and the operands alone, `exec i s = .next t`
is the conclusion for opAdd, opSub, opAnd, opOr, opXor, opAndn, opShl, opShr, opSar, opMin, opMax, opMinu, opMaxu, opCmp, opAddi, opAndi,
opOri, opXori, opLui, opShi, opCmpi. -/
def Obligations.SepiaArithmetic : Prop :=
  (∀ (x : Thread) (r q : Nat) (v : Word), (x.setReg r v).reg q = if q = r ∧ q ≠ 0 then v else x.reg q) ∧
  (∀ (c : Fin 32) (h : Fin 4) (rd ra rb : Nat) (sf : Bool) (s : State), Quiet s c h →
    let x := s.thr c h
    let a := x.use ra
    let b := x.use rb
    let f := flagsOf x.sw
    let n := b.toNat % 32
    (∀ p ∈ ([(0, Instr.opAdd c h, a + b), (1, .opSub c h, a - b), (2, .opAnd c h, a &&& b), (3, .opOr c h, a ||| b),
        (4, .opXor c h, a ^^^ b), (5, .opAndn c h, a &&& ~~~b), (6, .opShl c h, a <<< n), (7, .opShr c h, a >>> n),
        (8, .opSar c h, a.sshiftRight n), (10, .opMin c h, if a.toInt ≤ b.toInt then a else b),
        (11, .opMax c h, if a.toInt ≤ b.toInt then b else a), (12, .opMinu c h, if a ≤ b then a else b),
        (13, .opMaxu c h, if a ≤ b then b else a)] : List (Nat × Instr × Word)),
      Issues s c h (.alu p.1 rd ra rb sf) →
      ((x.sw.getLsbD 29 = false ∨ aluOverflow p.1 a b = false) → Completes p.2.1 s fun t => ∃ g : Nzcv,
        ThreadAt ((s.setG c h rd p.2.2).setNzcv c h g) t c h (x.pc + 4) none ∧ (sf = false → g = f) ∧
        (sf = true → g.n = p.2.2.msb ∧ g.z = decide (p.2.2 = 0) ∧
          (p.1 = 0 → g.c = decide (2 ^ 32 ≤ a.toNat + b.toNat) ∧ g.v = decide (a.toInt + b.toInt ≠ p.2.2.toInt)) ∧
          (p.1 = 1 → g.c = decide (b ≤ a) ∧ g.v = decide (a.toInt - b.toInt ≠ p.2.2.toInt)) ∧
          (2 ≤ p.1 → g.v = f.v) ∧ (2 ≤ p.1 → (p.1 < 6 ∨ 8 < p.1 ∨ n = 0) → g.c = f.c) ∧
          (p.1 = 6 → n ≠ 0 → g.c = a.getLsbD (32 - n)) ∧ (7 ≤ p.1 → p.1 ≤ 8 → n ≠ 0 → g.c = a.getLsbD (n - 1)))) ∧
      (x.sw.getLsbD 29 = true → aluOverflow p.1 a b = true →
        exec p.2.1 s = .next (trapTo (s.issued c h) c h 8 x.pc 0))) ∧
    (Issues s c h (.alu 9 rd ra rb sf) → Completes (.opCmp c h) s fun t => ∃ g : Nzcv,
      ThreadAt (s.setNzcv c h g) t c h (x.pc + 4) none ∧ g.z = decide (a = b) ∧ g.c = decide (b ≤ a) ∧
      (g.n != g.v) = decide (a.toInt < b.toInt))) ∧
  (∀ (c : Fin 32) (h : Fin 4) (rd ra k : Nat) (s : State), Quiet s c h →
    let x := s.thr c h
    let a := x.use ra
    (∀ p ∈ ([(4, Instr.opAddi c h, a + sextW 18 k), (5, .opAndi c h, a &&& BitVec.ofNat 32 k),
        (6, .opOri c h, a ||| BitVec.ofNat 32 k), (7, .opXori c h, a ^^^ BitVec.ofNat 32 k),
        (9, .opLui c h, BitVec.ofNat 32 (k % 65536 * 65536)),
        (10, .opShi c h, if bitsOf k 6 5 = 0 then a <<< (k % 32) else if bitsOf k 6 5 = 1 then a >>> (k % 32)
          else a.sshiftRight (k % 32))] : List (Nat × Instr × Word)),
      Issues s c h (.imm p.1 rd ra k) →
      (p.1 ≠ 4 ∨ x.sw.getLsbD 29 = false ∨ addOverflow a (sextW 18 k) = false) → Completes p.2.1 s fun t =>
        ThreadAt (s.setG c h rd p.2.2) t c h (x.pc + 4) none) ∧
    (Issues s c h (.imm 8 rd ra k) → Completes (.opCmpi c h) s fun t =>
      ThreadAt (s.setNzcv c h (subFlags a (sextW 18 k))) t c h (x.pc + 4) none))

/-- Products, long operations and floating point (R339, R345, R368, R378, R379): a product reaches ML and MH two instructions later; a divide
or square root is outstanding, in program order, until it retires its value; the other forms write their result at once. Completion: on
the stated conditions, which are on the state and the operands alone, `exec i s = .next t` is the conclusion for opMul, opMulu, opDiv,
opDivu, opSqrt, opFdiv, opFsqrt, opFadd, opFsub, opFmul, opFtoi, opItof, opFcmp, longOpRetire. Completion: on the stated conditions, which
are on the state and the operands alone, `exec i s = .next t` is the conclusion for opMul, opMulu, opDiv, opDivu, opSqrt, opFdiv, opFsqrt,
opFadd, opFsub, opFmul, opFtoi, opItof, opFcmp, longOpRetire. -/
def Obligations.SepiaLongOperations : Prop :=
  (∀ (c : Fin 32) (h : Fin 4) (rd ra rb : Nat) (s : State), Quiet s c h →
    let x := s.thr c h
    let a := x.use ra
    let b := x.use rb
    (∀ p ∈ ([(0, Instr.opMul c h, wrapN 64 (a.toInt * b.toInt)), (1, .opMulu c h, a.toNat * b.toNat)] : List (Nat × Instr × Nat)),
      Issues s c h (.mul p.1 rd ra rb) → x.mul = [] → Completes p.2.1 s fun t =>
        (t.thr c h).mul = [(2, some (BitVec.ofNat 32 p.2.2), some (BitVec.ofNat 32 (p.2.2 / 2 ^ 32)))] ∧
        (t.thr c h).ml = x.ml ∧ (t.thr c h).mh = x.mh ∧
        ThreadAt (s.setThr c h { x with mul := (t.thr c h).mul }) t c h (x.pc + 4) none) ∧
    (∀ p ∈ ([(.mul 2 rd ra rb, Instr.opDiv c h, if b = 0 then 0xFFFFFFFF#32 else BitVec.ofNat 32 (wrapN 32 (Int.tdiv a.toInt b.toInt))),
        (.mul 3 rd ra rb, .opDivu c h, if b = 0 then 0xFFFFFFFF#32 else BitVec.ofNat 32 (a.toNat / b.toNat)),
        (.mul 4 rd ra rb, .opSqrt c h, BitVec.ofNat 32 (isqrt a.toNat)), (.fp 3 rd ra rb, .opFdiv c h, f32Div (f32Of a) (f32Of b)),
        (.fp 4 rd ra rb, .opFsqrt c h, f32Sqrt (f32Of a))] : List (Ins × Instr × Word)),
      Issues s c h p.1 → (x.sw.getLsbD 28 = false ∨ b ≠ 0) →
      (x.sw.getLsbD 31 = false → Completes p.2.1 s fun t => ThreadAt (s.setThr c h { x with
        nlong := x.nlong + 1
        longs := x.longs ++ [{ rd := rd, pc := x.pc, seq := x.nlong, kind := .value p.2.2 }] }) t c h (x.pc + 4) none) ∧
      (x.sw.getLsbD 31 = true → Completes p.2.1 s fun t => ThreadAt (s.setG c h rd p.2.2) t c h (x.pc + 4) none)) ∧
    (∀ p ∈ ([(0, Instr.opFadd c h, f32AddV (f32Of a) (f32Of b)), (1, .opFsub c h, f32AddV (f32Of a) (f32Neg (f32Of b))),
        (2, .opFmul c h, f32Mul (f32Of a) (f32Of b)), (6, .opFtoi c h, f32ToInt (f32Of a)), (7, .opItof c h, f32OfInt a)]
        : List (Nat × Instr × Word)), Issues s c h (.fp p.1 rd ra rb) → Completes p.2.1 s fun t =>
      ThreadAt (s.setG c h rd p.2.2) t c h (x.pc + 4) none) ∧
    (Issues s c h (.fp 5 rd ra rb) → Completes (.opFcmp c h) s fun t =>
      ThreadAt (s.setNzcv c h (f32Cmp (f32Of a) (f32Of b))) t c h (x.pc + 4) none)) ∧
  (∀ (c : Fin 32) (h : Fin 4) (i : Nat) (l : LongOp) (s : State), s.coreUp c = true → (s.thr c h).longs[i]? = some l →
    (∀ v, l.kind = .value v → Completes (.longOpRetire c h i .none) s fun t =>
      (∀ q, (t.thr c h).reg q = if q = l.rd ∧ q ≠ 0 then v else (s.thr c h).reg q) ∧
      t.thr c h = { s.thr c h with
        g := (t.thr c h).g
        longs := ((s.thr c h).longs.eraseIdx i).map fun m => if m.rd = l.rd ∧ m.seq < l.seq then { m with rd := 0 } else m } ∧
      t = { s with sep := { s.sep with threads := t.sep.threads } }) ∧
    (l.kind = .divZero → Completes (.longOpRetire c h i .none) s fun t =>
      t.thr c h = { s.thr c h with
        longs := (s.thr c h).longs.eraseIdx i
        due := (s.thr c h).due ++ [{ seq := l.seq, vec := 7, pc := l.pc, addr := 0 }] } ∧
      t = { s with sep := { s.sep with threads := t.sep.threads } }))

/-- Loads and stores of the Sepia cores (R339, R341, R342, R344, R368): a load gives the extended little-endian value, which open mode still
hides from the next instruction; a load of the DRAM window is outstanding; a store enters the store buffer, which drains its oldest; LDI
and STI reach instruction memory. I/O space of the Sepia cores (R343, R347, R357): IN and OUT are privileged, and reach the registers of
the window as the bus does, or the private words of the core's threads. Completion: on the stated conditions, which are on the state and
the operands alone, `exec i s = .next t` is the conclusion for opLd, opLdh, opLdhu, opLdb, opLdbu, opSt, opSth, opStb, opLdi, opSti,
storeDrain, opIn, opOut. -/
def Obligations.SepiaMemory : Prop :=
  ((∀ (c : Fin 32) (h : Fin 4) (rd ra k : Nat) (s : State), Quiet s c h →
     let x := s.thr c h
     let aw := x.addrOf ra k
     let a := aw.toNat
     (∀ p ∈ ([(16, 4, false, Instr.opLd c h .none), (17, 2, true, .opLdh c h .none), (18, 2, false, .opLdhu c h .none),
         (19, 1, true, .opLdb c h .none), (20, 1, false, .opLdbu c h .none)] : List (Nat × Nat × Bool × Instr)),
       Issues s c h (.imm p.1 rd ra k) → x.windowFor ra a p.2.1 = true → x.sb = [] →
       (∀ key, dmemKey c a = some key → rightsOk c x.sw a p.2.1 = true → Completes p.2.2.2 s fun t =>
         ThreadAt (s.setG c h rd (loadValue p.2.1 p.2.2.1 (leNat (memBytes s.sep.mem key p.2.1)))) t c h (x.pc + 4)
           (if s.flag (Reg.SEP_CCFG_OPEN c) && decide (rd ≠ 0) then some (rd, x.reg rd) else none)) ∧
       (inDram a = true → x.sw.getLsbD 31 = false → Completes p.2.2.2 s fun t => ThreadAt (s.setThr c h { x with
         nlong := x.nlong + 1
         longs := x.longs ++ [{
           rd := rd, pc := x.pc, seq := x.nlong
           kind := .load a p.2.1 p.2.2.1 (rightsOk c x.sw a p.2.1) (leNat (memBytes s.dram.mem (a - 0x40000000) p.2.1)) }] })
         t c h (x.pc + 4) none) ∧
       (inDram a = false → rightsOk c x.sw a p.2.1 = false → exec p.2.2.2 s =
         .next (trapTo (s.issued c h) c h 4 x.pc aw))) ∧
     (∀ p ∈ ([(24, 4, Instr.opSt c h), (25, 2, .opSth c h), (26, 1, .opStb c h)] : List (Nat × Nat × Instr)),
       Issues s c h (.imm p.1 rd ra k) → x.windowFor ra a p.2.1 = true → rightsOk c x.sw a p.2.1 = true →
       s.dramAnswers a p.2.1 = true → x.sb.length ≤ 1 → Completes p.2.2 s fun t =>
         ThreadAt (s.setThr c h { x with
           sb := x.sb ++ [{ addr := a, size := p.2.1, val := (x.use rd).toNat % 256 ^ p.2.1 }] }) t c h (x.pc + 4) none) ∧
     (∀ key, imemKey c a = some key → a % 4 = 0 →
       (Issues s c h (.imm 28 rd ra k) → Completes (.opLdi c h .none) s fun t =>
         ThreadAt (s.setG c h rd (BitVec.ofNat 32 (memWord s.sep.mem key))) t c h (x.pc + 4)
           (if s.flag (Reg.SEP_CCFG_OPEN c) && decide (rd ≠ 0) then some (rd, x.reg rd) else none)) ∧
       (Issues s c h (.imm 29 rd ra k) → a < 0x100000 → swPriv x.sw ≠ 0 → Completes (.opSti c h) s fun t =>
         ThreadAt { s with sep := { s.sep with mem := memPutWord s.sep.mem key (x.use rd).toNat } } t c h (x.pc + 4) none))) ∧
   (∀ (c : Fin 32) (h : Fin 4) (e : SbEntry) (r : List SbEntry) (key : Nat) (s : State), s.coreUp c = true →
     (s.thr c h).sb = e :: r → e.size ≠ 0 → e.addr % e.size = 0 → dmemKey c e.addr = some key → Completes (.storeDrain c h) s fun t =>
       (∀ i, i < e.size → memByte t.sep.mem (key + i) = e.val / 256 ^ i % 256) ∧
       (∀ b, b < key ∨ key + e.size ≤ b → memByte t.sep.mem b = memByte s.sep.mem b) ∧
       t.thr c h = { s.thr c h with sb := r } ∧ t = { s with sep := t.sep })) ∧
  (∀ (c : Fin 32) (h : Fin 4) (rd ra k : Nat) (s : State), Quiet s c h →
     let x := s.thr c h
     let aw := x.addrOf ra k
     let a := aw.toNat
     let u := a % 0x80 / 0x20
     (Issues s c h (.imm 30 rd ra k) →
       (swPriv x.sw = 0 → CompletesIn (.opIn c h) s (fun s t => t = trapTo (s.issued c h) c h 2 x.pc 0)) ∧
       (swPriv x.sw ≠ 0 → x.sb = [] → a % 4 = 0 → 0x4000000 ≤ a → a < 0x4000080 → CompletesIn (.opIn c h) s fun s t =>
         ThreadAt (s.setG c h rd ((s.thr c u).ioWord (a % 0x20 / 4))) t c h (x.pc + 4) none) ∧
       (swPriv x.sw ≠ 0 → x.sb = [] → a % 4 = 0 → a < 0x4000000 →
         let r := busRead (s.issued c h) a
         r.2.1 = false → (r.2.2.thr c h).state = .running →
           CompletesIn (.opIn c h) s (fun s t =>
             t = (let r := busRead (s.issued c h) a
               finish (r.2.2.setG c h rd r.1) c h 4 none)))) ∧
     (Issues s c h (.imm 31 rd ra k) →
       (swPriv x.sw = 0 → CompletesIn (.opOut c h) s (fun s t => t = trapTo (s.issued c h) c h 2 x.pc 0)) ∧
       (swPriv x.sw ≠ 0 → x.sb = [] → a % 4 = 0 → 0x4000000 ≤ a → a < 0x4000080 → CompletesIn (.opOut c h) s fun s t =>
         ThreadAt (s.setThr c u ((s.thr c u).ioPut (a % 0x20 / 4) (x.use rd))) t c h (x.pc + 4) none) ∧
       (swPriv x.sw ≠ 0 → x.sb = [] → a % 4 = 0 → a < 0x4000000 →
         let r := busWrite (s.issued c h) a (x.use rd)
         r.1 = false → CompletesIn (.opOut c h) s (fun s t =>
           t = finish (busWrite (s.issued c h) a (x.use rd)).2 c h 4 none))))

/-- Branches, calls and returns (R340, R363, R367 to R370): where the thread goes on, the stack pointer, the words pushed and loaded.
Completion: on the stated conditions, which are on the state and the operands alone, `exec i s = .next t` is the conclusion for opB, opJ,
opJr, opCall, opCallr, opRet, opCallm, opRetm, opIflush. -/
def Obligations.SepiaFlow : Prop :=
  ∀ (c : Fin 32) (h : Fin 4) (s : State), Quiet s c h →
    let x := s.thr c h
    let f := flagsOf x.sw
    let sp := x.use 15
    (∀ p ∈ [(0, true), (1, f.z), (2, !f.z), (3, !f.c), (4, f.c), (5, f.c && !f.z), (6, !f.c || f.z), (7, f.n != f.v), (8, f.n == f.v),
        (9, !f.z && f.n == f.v), (10, f.z || f.n != f.v), (11, f.n), (12, !f.n), (13, f.v), (14, !f.v)], ∀ d,
      Issues s c h (.br p.1 d) → Completes (.opB c h) s fun t =>
        ThreadAt s t c h (if p.2 then x.pc + BitVec.ofNat 32 (wrapN 32 (4 * sext 22 d)) else x.pc + 4) none) ∧
    (∀ d, Issues s c h (.jmp d) → Completes (.opJ c h) s fun t =>
      ThreadAt s t c h (x.pc + BitVec.ofNat 32 (wrapN 32 (4 * sext 26 d))) none) ∧
    (∀ ra, Issues s c h (.jr ra) → Completes (.opJr c h) s fun t => ThreadAt s t c h (x.use ra) none) ∧
    (x.sb.length ≤ 1 → x.window (sp - 4).toNat 4 = true → rightsOk c x.sw (sp - 4).toNat 4 = true →
        s.dramAnswers (sp - 4).toNat 4 = true →
      let u := storePush (s.setG c h 15 (sp - 4)) c h (sp - 4).toNat 4 (x.pc + 4).toNat
      (∀ d, Issues s c h (.call d) → Completes (.opCall c h) s fun t =>
        ThreadAt u t c h (x.pc + BitVec.ofNat 32 (wrapN 32 (4 * sext 26 d))) none) ∧
      (∀ ra, Issues s c h (.callr ra) → Completes (.opCallr c h) s fun t => ThreadAt u t c h (x.use ra) none)) ∧
    (∀ key, Issues s c h .ret → x.sb = [] → x.window sp.toNat 4 = true → rightsOk c x.sw sp.toNat 4 = true →
      dmemKey c sp.toNat = some key → Completes (.opRet c h .none) s fun t =>
        ThreadAt (s.setG c h 15 (sp + 4)) t c h (BitVec.ofNat 32 (memWord s.sep.mem key)) none) ∧
    (∀ ra mask, Issues s c h (.callm ra mask) →
      let n := 4 * ((maskRegs mask).length + 1)
      let a := sp - BitVec.ofNat 32 n
      x.window a.toNat n = true → rightsOk c x.sw a.toNat n = true → (s.issued c h).dramAnswers a.toNat n = true →
      exec (.opCallm c h) s = .next (jumpTo (pushWords c h a ((x.pc + 4) :: (maskRegs mask).map x.use)
        ((s.issued c h).setG c h 15 a)) c h (x.use ra))) ∧
    (∀ mask key, Issues s c h (.retm mask) →
      let rs := maskRegs mask
      let n := 4 * (rs.length + 1)
      x.sb = [] → x.window sp.toNat n = true → rightsOk c x.sw sp.toNat n = true → dmemKey c sp.toNat = some key →
      Completes (.opRetm c h .none) s fun t =>
        ThreadAt (((rs.zipIdx).foldl (fun s p => s.setG c h p.1 (BitVec.ofNat 32 (memWord s.sep.mem (key + 4 + 4 * p.2)))) s).setG c h 15
          (sp + BitVec.ofNat 32 n)) t c h (BitVec.ofNat 32 (memWord s.sep.mem key)) none) ∧
    (Issues s c h .iflush → Completes (.opIflush c h) s fun t => ThreadAt s t c h (x.pc + 4) none)

/-- Exceptions of the Sepia cores (R351 to R356): what an entry saves and where it goes, for TRAP and for a due interrupt; why it escalates;
what an exception in escalation stops; and the return by RETX in supervisor mode and in escalation, and its exception in user mode.
Completion: on the stated conditions, which are on the state and the operands alone, `exec i s = .next t` is the conclusion for opTrap,
interruptEntry, opRetx. -/
def Obligations.SepiaExceptions : Prop :=
  (∀ (c : Fin 32) (h : Fin 4) (s : State), Quiet s c h → Issues s c h .trap →
    let x := s.thr c h
    let a := x.reg 15 - 8
    swPriv x.sw ≠ 3 → entryCheck (s.issued c h) c h 0x0A = (s.issued c h, 0) → x.sb = [] → Completes (.opTrap c h) s fun t =>
      let y := t.thr c h
      y.pc = x.vbr + 0xA0 ∧ y.epc = x.pc + 4 ∧ y.esw = x.sw ∧ y.reg 15 = a ∧ y.shadow = swPriv x.sw :: x.shadow ∧
      swPriv y.sw = 1 ∧ y.sw.getLsbD 27 = false ∧ (∀ b, b < 24 ∨ 27 < b → y.sw.getLsbD b = x.sw.getLsbD b) ∧
      y.fcause = 0x0A ∧ y.fpc = x.pc ∧ y.faddr = 0 ∧
      y.sb = [{ addr := a.toNat, size := 4, val := (x.pc + 4).toNat }, { addr := (a + 4).toNat, size := 4, val := x.sw.toNat }] ∧
      (∀ q, q ≠ 15 → y.reg q = x.reg q) ∧ t = { s with sep := { s.sep with threads := t.sep.threads, turn := smSet 0 s.sep.turn c ((h + 1) % 4) } }) ∧
  (∀ (c : Fin 32) (h : Nat) (s : State), s.fld (Reg.SEP_CCFG_ITHR c) = h → Quiet s c h → s.coreUp c = true →
    let x := s.thr c h
    x.state = .running → x.wait = none → s.dctlBit c h = false → x.due = [] → s.irqDue c h = true →
    entryCheck s c h 0x10 = (s, 0) → Completes (.interruptEntry c) s fun t =>
      let y := t.thr c h
      y.pc = x.vbr + 0x100 ∧ y.epc = x.pc ∧ y.esw = x.sw ∧ y.shadow = swPriv x.sw :: x.shadow ∧ swPriv y.sw = 1 ∧
      y.sw.getLsbD 27 = false ∧ y.fcause = 0x10 ∧ y.faddr = 0) ∧
  (∀ (c h vec : Nat) (s : State), s.sep.bad = [] →
    let x := s.thr c h
    let a := (x.reg 15 - 8).toNat
    (x.window a 8 = false → (entryCheck s c h vec).2 = 1) ∧
    (x.window a 8 = true → rightsOk c x.sw a 8 = false → entryCheck s c h vec = (s, 2)) ∧
    (x.window a 8 = true → rightsOk c x.sw a 8 = true → s.dramAnswers a 8 = true →
      (a % 4 ≠ 0 → entryCheck s c h vec = (s, 3)) ∧
      (a % 4 = 0 → 4 ≤ x.shadow.length → entryCheck s c h vec = (s, 4)) ∧
      (a % 4 = 0 → x.shadow.length < 4 →
        (x.vbr.toNat % 256 ≠ 0 ∨ imemKey c (handlerOf x vec).toNat = none → entryCheck s c h vec = (s, 5)) ∧
        (x.vbr.toNat % 256 = 0 → (imemKey c (handlerOf x vec).toNat).isSome = true → entryCheck s c h vec = (s, 0))))) ∧
  (∀ (c : Fin 32) (h : Fin 4) (s : State), Quiet s c h → Issues s c h .trap → swPriv (s.thr c h).sw = 3 →
    exec (.opTrap c h) s = .next (trapTo (s.issued c h) c h 0x0A ((s.thr c h).pc + 4) 0) ∧
    ((s.thr c h).sb.length ≤ 2 → ∀ k : Cause,
      ((enterExc s c h k).thr c h).state = .stopped ∧ ((enterExc s c h k).thr c h).sb = [])) ∧
  (∀ (c : Fin 32) (h : Fin 4) (s : State), Quiet s c h → Issues s c h .retx →
    let x := s.thr c h
    let sp := x.use 15
    (swPriv x.sw = 0 → exec (.opRetx c h .none) s = .next (trapTo (s.issued c h) c h 2 x.pc 0)) ∧
    (∀ e, swPriv x.sw = 3 → x.esw.getLsbD 31 = true → x.longs ≠ [] → exec (.opRetx c h e) s = .next (takeTurn s c h)) ∧
    (swPriv x.sw = 3 → (x.esw.getLsbD 31 = false ∨ x.longs = []) → Completes (.opRetx c h .none) s fun t =>
      ThreadAt (s.setThr c h (Thread.setReg { x with sw := x.esw, shadow := [] } 15 x.xg15)) t c h x.epc none) ∧
    (swPriv x.sw ≠ 0 → swPriv x.sw ≠ 3 → x.sb = [] → x.window sp.toNat 8 = true → rightsOk c x.sw sp.toNat 8 = true →
      ∀ key, dmemKey c sp.toNat = some key →
      let fsw : Word := BitVec.ofNat 32 (memWord s.sep.mem (key + 4))
      (∀ p rest, x.shadow = p :: rest → swPriv fsw = p → (fsw.getLsbD 31 = false ∨ x.longs = []) → Completes (.opRetx c h .none) s fun t =>
        ThreadAt (s.setThr c h (Thread.setReg { x with shadow := rest, sw := swSetPriv (swMask fsw) p } 15 (sp + 8))) t c h
          (BitVec.ofNat 32 (memWord s.sep.mem key)) none) ∧
      ((∀ p ∈ x.shadow.head?, swPriv fsw ≠ p) →
        exec (.opRetx c h .none) s = .next (trapTo (s.issued c h) c h 9 x.pc 0))))

/-- Special registers, events, waits, barrier and break (R338, R343, R345, R349, R350, R359, R366, R372 to R374, R380). Completion: on the
stated conditions, which are on the state and the operands alone, `exec i s = .next t` is the conclusion for opMfs, opMts, opWfe, opWaitt,
wfeWake, waittWake, opSev, opBarx, opBrk. Completion: on the stated conditions, which are on the state and the operands alone, `exec i s =
.next t` is the conclusion for opMfs, opMts, opWfe, opWaitt, wfeWake, waittWake, opSev, opBarx, opBrk. -/
def Obligations.SepiaSystem : Prop :=
  ∀ (c : Fin 32) (h : Fin 4) (s : State), Quiet s c h →
    let x := s.thr c h
    let waits := fun (w : Waiting) (t : State) => (t.thr c h).wait = some w ∧ (t.thr c h).pc = x.pc ∧
      (∀ q, (t.thr c h).reg q = x.reg q) ∧
      t = { s with sep := { s.sep with threads := t.sep.threads, turn := smSet 0 s.sep.turn c ((h + 1) % 4) } }
    let ev := fun (rd mask : Nat) => (s.setThr c h (x.clearEv mask)).setG c h rd (BitVec.ofNat 32 (s.evt c h &&& mask))
    (∀ rd, ∀ p ∈ ([(0, x.sw), (1, x.epc), (2, x.esw), (3, x.xsp), (4, x.splo), (5, x.sphi), (6, x.ml), (7, x.mh),
        (8, BitVec.ofNat 32 (s.evt c h)), (9, x.vbr), (10, tidOf c h)] : List (Nat × Word)),
      Issues s c h (.mfs rd p.1) →
      ((swPriv x.sw ≠ 0 ∨ p.1 ∈ [0, 6, 7, 8, 10]) → Completes (.opMfs c h) s fun t =>
        ThreadAt (s.setG c h rd p.2) t c h (x.pc + 4) none) ∧
      (swPriv x.sw = 0 → p.1 ∉ [0, 6, 7, 8, 10] → exec (.opMfs c h) s = .next (trapTo (s.issued c h) c h 2 x.pc 0))) ∧
    (∀ k ra, Issues s c h (.mts k ra) →
      ((swPriv x.sw = 1 ∧ (k = 0 → swPriv (x.use ra) < 2) ∨ swPriv x.sw = 3 ∨ (swPriv x.sw = 0 ∧ (k = 6 ∨ k = 7))) →
        (k ≠ 0 ∨ (x.use ra).getLsbD 31 = false ∨ x.longs = []) → Completes (.opMts c h) s fun t => ThreadAt (s.setThr c h (x.putSreg k (x.use ra))) t c h (x.pc + 4) none) ∧
      (k = 0 → (swPriv x.sw = 1 ∧ swPriv (x.use ra) < 2 ∨ swPriv x.sw = 3) → (x.use ra).getLsbD 31 = true → x.longs ≠ [] →
        exec (.opMts c h) s = .next (takeTurn s c h)) ∧
      (swPriv x.sw = 1 → k = 0 → 2 ≤ swPriv (x.use ra) → exec (.opMts c h) s = .next (trapTo (s.issued c h) c h 1 x.pc 0)) ∧
      (swPriv x.sw = 0 → k ≠ 6 → k ≠ 7 → exec (.opMts c h) s = .next (trapTo (s.issued c h) c h 2 x.pc 0))) ∧
    (∀ rd mask, Issues s c h (.wfe rd mask) →
      (s.evt c h &&& mask ≠ 0 → Completes (.opWfe c h) s fun t => ThreadAt (ev rd mask) t c h (x.pc + 4) none) ∧
      (s.evt c h &&& mask = 0 → Completes (.opWfe c h) s (waits (.wfe rd mask)))) ∧
    (∀ rd ra n mask, Issues s c h (.waitt rd ra n mask) → s.up 90 = true →
      (s.reached n (x.use ra) = true → Completes (.opWaitt c h) s fun t => ThreadAt (s.setG c h rd 0) t c h (x.pc + 4) none) ∧
      (s.reached n (x.use ra) = false → s.evt c h &&& mask ≠ 0 → Completes (.opWaitt c h) s fun t =>
        ThreadAt (ev rd mask) t c h (x.pc + 4) none) ∧
      (s.reached n (x.use ra) = false → s.evt c h &&& mask = 0 → Completes (.opWaitt c h) s (waits (.timer rd (x.use ra) n mask)))) ∧
    (s.coreUp c = true → x.state = .running → s.irqDue c h = false →
      (∀ rd mask, x.wait = some (.wfe rd mask) → s.evt c h &&& mask ≠ 0 → Completes (.wfeWake c h) s fun t =>
        ThreadWoken (ev rd mask) t c h (x.pc + 4) none) ∧
      (∀ rd target n mask, x.wait = some (.timer rd target n mask) → s.up 90 = true → s.reached n target = true →
        Completes (.waittWake c h) s fun t => ThreadWoken (s.setG c h rd 0) t c h (x.pc + 4) none)) ∧
    (∀ scope core thread b, Issues s c h (.sev scope core thread b) → x.sb = [] →
      ((swPriv x.sw ≠ 0 ∨ scope < 2) → Completes (.opSev c h) s fun t =>
        ThreadAt ((sevTargets scope core thread).foldl (sevSet b) s) t c h (x.pc + 4) none) ∧
      (swPriv x.sw = 0 → 2 ≤ scope → exec (.opSev c h) s = .next (trapTo (s.issued c h) c h 2 x.pc 0))) ∧
    (Issues s c h .barx →
      (x.longs ≠ [] → exec (.opBarx c h) s = .next (takeTurn s c h)) ∧
      (x.longs = [] → x.sb = [] → Completes (.opBarx c h) s fun t => ThreadAt s t c h (x.pc + 4) none)) ∧
    (Issues s c h .brk →
      (s.flag (Reg.SEP_DCTL_BRKEN c) = true → Completes (.opBrk c h) s fun t =>
        ThreadAt (setDctlBit s c h true) t c h (x.pc + 4) none) ∧
      (s.flag (Reg.SEP_DCTL_BRKEN c) = false → exec (.opBrk c h) s = .next (trapTo (s.issued c h) c h 1 x.pc 0)))

/-- Strings and repeat pairs (R375 to R377): one element of each string instruction; a repeat pair with g11 = 0 does none; a further element
counts g11 down and stops the pair at 0. Completion: on the stated conditions, which are on the state and the operands alone, `exec i s =
.next t` is the conclusion for opBset, opBfnd, opBcpy, opBcmp, opRepb, repeatElement. -/
def Obligations.SepiaStrings : Prop :=
  ∀ (c : Fin 32) (h : Fin 4) (sz ra rb : Nat) (s : State), Quiet s c h → (s.thr c h).sb = [] →
    let x := s.thr c h
    let n := 2 ^ sz
    let st : Word := BitVec.ofNat 32 n
    let a12 := x.use 12
    let a13 := x.use 13
    let put := fun (v : Nat) (u : State) => (u.setThr c h { u.thr c h with sb := [{ addr := a13.toNat, size := n, val := v % 256 ^ n }] }).setG
      c h 13 (a13 + st)
    sz ≤ 2 → rightsOk c x.sw a13.toNat n = true → ∀ k13, dmemKey c a13.toNat = some k13 →
    let v13 := leNat (memBytes s.sep.mem k13 n)
    let m := (x.use rb).toNat % 256 ^ n
    (Issues s c h (.str 1 sz ra rb) → Completes (.opBset c h) s fun t =>
      ThreadAt (put (x.use ra).toNat s) t c h (x.pc + 4) none) ∧
    (Issues s c h (.str 3 sz ra rb) → Completes (.opBfnd c h .none) s fun t =>
      ThreadAt ((s.setG c h 13 (a13 + st)).setNzcv c h (testFlags (flagsOf x.sw)
        (decide ((v13 ^^^ (x.use ra).toNat) &&& m = 0)))) t c h (x.pc + 4) none) ∧
    (∀ k12, dmemKey c a12.toNat = some k12 → rightsOk c x.sw a12.toNat n = true →
      let v12 := leNat (memBytes s.sep.mem k12 n)
      (Issues s c h (.str 0 sz ra rb) → Completes (.opBcpy c h .none) s fun t =>
        ThreadAt (put v12 (s.setG c h 12 (a12 + st))) t c h (x.pc + 4) none) ∧
      (Issues s c h (.str 2 sz ra rb) → Completes (.opBcmp c h .none) s fun t =>
        ThreadAt (((s.setG c h 12 (a12 + st)).setG c h 13 (a13 + st)).setNzcv c h (testFlags (flagsOf x.sw)
          (decide ((v13 ^^^ v12) &&& m = 0)))) t c h (x.pc + 4) none)) ∧
    (∀ mode kind w0 w rest, Issues s c h (.repb mode) → x.queue = w0 :: some w :: rest → sepDecode w.toNat = some (.str kind sz ra rb) →
      x.blocked (s.flag (Reg.SEP_CCFG_OPEN c)) (.str kind sz ra rb) = false →
      (x.use 11 = 0 → Completes (.opRepb c h .none) s fun t => ThreadAt s t c h (x.pc + 8) none) ∧
      (x.use 11 ≠ 0 → kind = 1 → mode = 0 → x.use 11 ≠ 1 → ra ≠ 11 → x.old = none → Completes (.opRepb c h .none) s fun t =>
        (t.thr c h).mid = true ∧ (t.thr c h).pc = x.pc ∧ (t.thr c h).reg 11 = x.use 11 - 1 ∧ (t.thr c h).reg 13 = a13 + st ∧
        (t.thr c h).sb = [{ addr := a13.toNat, size := n, val := (x.use ra).toNat % 256 ^ n }] ∧
        t = { s with sep := { s.sep with threads := t.sep.threads, turn := smSet 0 s.sep.turn c ((h + 1) % 4) } })) ∧
    (∀ mode w0 w1 rest, x.mid = true → s.ready c h = true → s.myTurn c h = true → x.old = none →
      x.queue = some w0 :: some w1 :: rest → sepDecode w0.toNat = some (.repb mode) → sepDecode w1.toNat = some (.str 1 sz ra rb) →
      (x.reg 11 = 1 → Completes (.repeatElement c h .none) s fun t =>
        ThreadAt ((put (x.reg ra).toNat s).setG c h 11 0) t c h (x.pc + 8) none) ∧
      (x.reg 11 ≠ 1 → mode = 0 → Completes (.repeatElement c h .none) s fun t =>
        (t.thr c h).mid = true ∧ (t.thr c h).pc = x.pc ∧ (t.thr c h).reg 11 = x.reg 11 - 1))

/-- Debugging (R359, R360): HALT asks for a halt, which takes effect at an instruction boundary; RESUME and STEP of a halted thread; SEP_DDATA
reaches a halted thread alone; SEP_MEMD reaches core memory and counts the address on. Completion: on the stated conditions, which are on
the state and the operands alone, `exec i s = .next t` is the conclusion for threadHalt, threadResume, threadStep, haltEffect,
debugRegisterAccess, debugMemoryAccess. -/
def Obligations.SepiaDebug : Prop :=
  (∀ (who : Requester) (c : Fin 32) (mask : BitVec 4) (s : State), Served s who (Reg.SEP_DCTL c) →
    (CompletesIn (.threadHalt who c mask false) s fun s t =>
      (∀ h, h < 4 → t.dctlBit c h = (s.dctlBit c h || (mask.getLsbD h && decide ((s.thr c h).state = .running)))) ∧
      OnlyRegs [Reg.SEP_DCTL c] s.written t) ∧
    (CompletesIn (.threadResume who c mask false) s fun s t =>
      (∀ h, h < 4 → t.thr c h = if mask.getLsbD h = true ∧ (s.thr c h).state = .halted then { s.thr c h with state := .running }
        else s.thr c h) ∧
      OnlyRegs [Reg.SEP_DCTL c] { s with sep := { s.sep with threads := t.sep.threads } }.written t) ∧
    (CompletesIn (.threadStep who c mask false) s fun s t =>
      (∀ h, h < 4 → mask.getLsbD h = true → (s.thr c h).state = .halted →
        t.thr c h = { s.thr c h with state := .running } ∧ t.dctlBit c (8 + h) = true) ∧
      OnlyRegs [Reg.SEP_DCTL c] { s with sep := { s.sep with threads := t.sep.threads } }.written t)) ∧
  (∀ (c : Fin 32) (h : Fin 4) (s : State), s.coreUp c = true → s.dctlBit c h = true → (s.thr c h).state = .running →
    Completes (.haltEffect c h) s fun t =>
      t.thr c h = { s.thr c h with state := .halted, mid := false } ∧ t.dctlBit c h = false ∧ t.dctlBit c (8 + h) = false ∧
      OnlyRegs [Reg.SEP_DCTL c] { s with sep := { s.sep with threads := t.sep.threads } } t) ∧
  (∀ (who : Requester) (c : Fin 32) (s : State), Served s who (Reg.SEP_DDATA c) →
    let h := s.fld (Reg.SEP_DSEL_THREAD c)
    let i := s.fld (Reg.SEP_DSEL_INDEX c)
    ((s.thr c h).state ≠ .halted → ∀ v, CompletesIn (.debugRegisterAccess who c (some v)) s (fun s t =>
      t = (s.event (Reg.SEP_DSTAT_NOTHALT c)).written)) ∧
    ((s.thr c h).state = .halted →
      (ServedRead s who (Reg.SEP_DDATA c) → CompletesIn (.debugRegisterAccess who c none) s (fun s t =>
        t = s.returned (s.dbgReg c h i))) ∧
      (∀ v, 0 < i → i < 16 → (s.thr c h).old = none → CompletesIn (.debugRegisterAccess who c (some v)) s fun s t =>
        (∀ q, (t.thr c h).reg q = if q = i then v else (s.thr c h).reg q) ∧
        t = { s with sep := { s.sep with threads := t.sep.threads } }.written))) ∧
  (∀ (who : Requester) (c : Fin 32) (key : Nat) (s : State), s.memaKey c = some key → s.sep.bad = [] →
    (∀ v, Served s who (Reg.SEP_MEMD c) → CompletesIn (.debugMemoryAccess who c (some v) .none) s fun s t =>
      t.sep.mem = memPutWord s.sep.mem key v.toNat ∧
      OnlyRegs [Reg.SEP_MEMA c] { s with sep := { s.sep with mem := t.sep.mem } }.written t) ∧
    (ServedRead s who (Reg.SEP_MEMD c) → CompletesIn (.debugMemoryAccess who c none .none) s fun s t =>
      t.fld (Reg.SEP_MEMA_ADDR c) = (s.fld (Reg.SEP_MEMA_ADDR c) + 1) % 2 ^ ((Reg.SEP_MEMA_ADDR c).hi + 1 - (Reg.SEP_MEMA_ADDR c).lo) ∧
      OnlyRegs [Reg.SEP_MEMA c] (s.returned (BitVec.ofNat 32 (memWord s.sep.mem key))) t))

/-- A write of SEP_TCTL with RESTART (R361): on a running thread it is discarded and NOTHALT is set; any other thread begins at TCTL.PC with
SW 0x0100_0000, its shadow, store buffer and long operations empty and its queue filled anew from there, and its other registers as they
were. Completion: on the stated conditions, which are on the state and the operands alone, `exec i s = .next t` is the conclusion for
threadRestart. -/
def Obligations.ThreadRestarts : Prop :=
  ∀ (who : Requester) (c : Fin 32) (h : Fin 4) (pc : BitVec 30) (s : State), Served s who (Reg.SEP_TCTL c h) →
    ((s.thr c h).state = .running → CompletesIn (.threadRestart who c h pc) s (fun s t =>
      t = (s.event (Reg.SEP_DSTAT_NOTHALT c)).written)) ∧
    ((s.thr c h).state ≠ .running → s.sep.bad = [] → CompletesIn (.threadRestart who c h pc) s fun s t =>
      let x := s.thr c h
      t.thr c h = { x with
        state := .running, sw := 0x01000000, pc := BitVec.ofNat 32 (4 * pc.toNat)
        queue := (List.range 4).map fun i =>
          (imemKey c ((4 * pc.toNat + 4 * i) % 2 ^ 32)).map fun k => BitVec.ofNat 32 (memWord s.sep.mem k)
        old := none, mul := [], longs := [], due := [], sb := [], shadow := [], wait := none, mid := false } ∧
      OnlyRegs [Reg.SEP_TCTL c h] { s with sep := { s.sep with threads := t.sep.threads } }.written t)

/-- Interrupts (R385 to R389): a source is presented when its TIME runs out; a claim takes the source of highest priority, ties to the lower
ID, onto the stack, or returns NONE; the end of the top one takes it off, another ID is an ORDER error with line 58; software sources are
set and cleared. Completion: on the stated conditions, which are on the state and the operands alone, `exec i s = .next t` is the
conclusion for coalesceTimeout, interruptClaim, endOfInterrupt, softwareSourceSet, softwareSourceClear. -/
def Obligations.InterruptService : Prop :=
  (∀ (c : Fin 32) (id : Fin 160) (s : State), s.up (86 + c / 8) = true → s.levelOf c id = true → (s.cfgOf c id).en = true →
    (s.cfgOf c id).time ≠ 0 → (s.srcOf c id).occ ≠ 0 → (s.srcOf c id).presented = false →
      CompletesIn (.coalesceTimeout c id) s fun s t =>
      t.srcOf c id = { s.srcOf c id with presented := true } ∧
      t = { s with irq := { s.irq with priv := t.irq.priv, shared := t.irq.shared } }) ∧
  (∀ (who : Requester) (c : Fin 32) (s : State), ServedRead s who (Reg.IRQ_CLAIM c) → (s.irqCore c).stack = (s.irqCore c).shadow →
    (s.claimable c = [] → CompletesIn (.interruptClaim who c .none) s fun s t =>
      t.flag (Reg.IRQ_CSTAT_SPUR c) = true ∧ OnlyRegs [Reg.IRQ_CSTAT c] (s.returned 0x80000000#32) t) ∧
    (s.claimable c ≠ [] → (s.irqCore c).stack.length < 16 → ∃ prio id, (prio, id) ∈ s.claimable c ∧
      (∀ q ∈ s.claimable c, q.1 < prio ∨ (q.1 = prio ∧ id ≤ q.2)) ∧
      CompletesIn (.interruptClaim who c .none) s fun s t =>
        (t.irqCore c).stack = (prio, id) :: (s.irqCore c).stack ∧ (t.irqCore c).shadow = (prio, id) :: (s.irqCore c).shadow ∧
        t.srcOf c id = { s.srcOf c id with inService := true } ∧
        t = State.returned { s with irq := t.irq } (BitVec.ofNat 32 (prio * 65536 + id)))) ∧
  (∀ (who : Requester) (c : Fin 32) (id : BitVec 8) (s : State), Served s who (Reg.IRQ_EOI c) →
    (s.irqCore c).stack = (s.irqCore c).shadow →
    (∀ prio rest, (s.irqCore c).stack = (prio, id.toNat) :: rest → CompletesIn (.endOfInterrupt who c id .none) s fun s t =>
      (t.irqCore c).stack = rest ∧ (t.irqCore c).shadow = rest ∧ (t.srcOf c id.toNat).inService = false ∧
      (t.srcOf c id.toNat).presented = s.levelOf c id.toNat ∧ t = { s with irq := t.irq }.written) ∧
    ((∀ p ∈ (s.irqCore c).stack.head?, p.2 ≠ id.toNat) → ∃ u, CompletesIn (.endOfInterrupt who c id .none) s (fun _ t =>
      t = (raiseLine u 58).written) ∧
      u.irqCore c = s.irqCore c ∧ u.flag (Reg.IRQ_CSTAT_ORDER c) = true ∧ u.flag Reg.IRQ_STAT_ORDER = true)) ∧
  (∀ (who : Requester) (c : Fin 32) (m : BitVec 16) (s : State),
    (Served s who (Reg.IRQ_SWSET c) → CompletesIn (.softwareSourceSet who c m) s fun s t =>
      (∀ i, i < 16 → (t.rd (Reg.IRQ_SWSET c)).getLsbD i = ((s.rd (Reg.IRQ_SWSET c)).getLsbD i || m.getLsbD i)) ∧
      OnlyRegs [Reg.IRQ_SWSET c] { s with irq := t.irq }.written t) ∧
    (Served s who (Reg.IRQ_SWCLR c) → CompletesIn (.softwareSourceClear who c m) s fun s t =>
      (∀ i, i < 16 → (t.rd (Reg.IRQ_SWSET c)).getLsbD i = ((s.rd (Reg.IRQ_SWSET c)).getLsbD i && !m.getLsbD i)) ∧
      OnlyRegs [Reg.IRQ_SWSET c] { s with irq := t.irq }.written t))

/-- Mailboxes (R390) and MSI-X messages (R425): the payload of an empty mailbox is written, SEND fills it with its sender, ACK empties it, and
what meets a full one is discarded with COLL; 1 us after a message a merged request sends the next one, and the unmasking of a pending
vector sends one. The management endpoint (R424, R428, R445): a Function Level Reset clears the MSI-X table and the function's settings
and nothing else; PERST takes the link down as well; the link that trains again answers the host. Completion: on the stated conditions,
which are on the state and the operands alone, `exec i s = .next t` is the conclusion for mailboxDataWrite, mailboxSend, mailboxAck,
msixSpacingEnd, msixUnmask, functionLevelReset, perst, managementLinkTrained. -/
def Obligations.MailboxesAndEndpoint : Prop :=
  ((∀ (who : Requester) (m : Fin 512) (j : Fin 16) (v : Word) (s : State), Served s who (Reg.IRQ_MBDATA m j) →
     (s.mbFull m = false → CompletesIn (.mailboxDataWrite who m j v) s fun s t =>
       t.rd (Reg.IRQ_MBDATA m j) = v ∧ OnlyRegs [Reg.IRQ_MBDATA m j] { s with ecc := t.ecc }.written t ∧
       (∀ e, e ∈ t.ecc → e ∈ s.ecc)) ∧
     (s.mbFull m = true → CompletesIn (.mailboxDataWrite who m j v) s (fun s t => t = (s.event (Reg.IRQ_MBSTAT_COLL m)).written))) ∧
   (∀ (who : Requester) (m : Fin 512) (agent : BitVec 6) (s : State), Served s who (Reg.IRQ_MBSEND m) →
     (s.mbFull m = false → CompletesIn (.mailboxSend who m agent) s fun s t =>
       t.mbFull m = true ∧ t.fld (Reg.IRQ_MBSTAT_SENDER m) = agent.toNat ∧ t.flag (Reg.IRQ_MBSTAT_ABORTED m) = false ∧
       t.flag (Reg.IRQ_MBSTAT_COLL m) = s.flag (Reg.IRQ_MBSTAT_COLL m) ∧ OnlyRegs [Reg.IRQ_MBSTAT m] s.written t) ∧
     (s.mbFull m = true → CompletesIn (.mailboxSend who m agent) s fun s t =>
       t.mbFull m = true ∧ t.fld (Reg.IRQ_MBSTAT_SENDER m) = s.fld (Reg.IRQ_MBSTAT_SENDER m) ∧
       t.flag (Reg.IRQ_MBSTAT_COLL m) = true ∧ OnlyRegs [Reg.IRQ_MBSTAT m] s.written t)) ∧
   (∀ (who : Requester) (m : Fin 512) (s : State), Served s who (Reg.IRQ_MBACK m) → (s.accessCycle who).cyc.mbSends = [] →
     CompletesIn (.mailboxAck who m) s (fun s t => t = (s.setFld (Reg.IRQ_MBSTAT_FULL m) 0).written)) ∧
   (∀ (v : Fin 64) (s : State), v.val ∈ s.pcie.spacing →
     (v.val ∉ s.pcie.merged → CompletesIn (.msixSpacingEnd v) s fun s t =>
       v.val ∉ t.pcie.spacing ∧ smGet 0 t.pcie.sent v = smGet 0 s.pcie.sent v ∧
       t = { s with pcie := { s.pcie with spacing := t.pcie.spacing, merged := t.pcie.merged } }) ∧
     (v.val ∈ s.pcie.merged → s.pcie.msixEnable = true → s.msixMasked v = false → CompletesIn (.msixSpacingEnd v) s fun s t =>
       smGet 0 t.pcie.sent v = smGet 0 s.pcie.sent v + 1 ∧ v.val ∈ t.pcie.spacing ∧ v.val ∉ t.pcie.merged ∧ t = { s with pcie := t.pcie })) ∧
   (∀ (who : Requester) (v : Fin 64) (s : State), Served s who (Reg.IMG_MSIX_VCTL v) → s.pcie.msixEnable = true → s.pcie.funcMask = false →
     v.val ∉ s.pcie.spacing → s.flag ⟨Reg.IMG_MSIX_PBA (v / 32), v % 32, v % 32⟩ = true →
       CompletesIn (.msixUnmask who v) s fun s t =>
       smGet 0 t.pcie.sent v = smGet 0 s.pcie.sent v + 1 ∧ t.flag ⟨Reg.IMG_MSIX_PBA (v / 32), v % 32, v % 32⟩ = false ∧
       t.flag (Reg.IMG_MSIX_VCTL_MASK v) = false ∧
       OnlyRegs [Reg.IMG_MSIX_VCTL v, Reg.IMG_MSIX_PBA (v / 32)] { s with pcie := t.pcie }.written t)) ∧
  (∀ s : State, s.up 4 = true →
     (CompletesIn .functionLevelReset s fun s t =>
       (∀ v, v < 64 → t.rd (Reg.IMG_MSIX_VCTL v) = resetWord (Reg.IMG_MSIX_VCTL v)) ∧
       (∀ o, o < Reg.IMG_MSIX_ADDR_LO 0 ∨ Reg.IMG_MSIX_PBA 1 < o → t.rd o = s.rd o) ∧
       t.pcie.linkUp = s.pcie.linkUp ∧ t.pcie.busMaster = false ∧ t.pcie.msixEnable = false ∧
       t = { s with regs := t.regs, pcie := t.pcie }) ∧
     (CompletesIn .perst s fun s t =>
       t.pcie.linkUp = false ∧ t.reach .host = false ∧ (∀ o, o < Reg.IMG_MSIX_ADDR_LO 0 ∨ Reg.IMG_MSIX_PBA 1 < o → t.rd o = s.rd o) ∧
       t = { s with regs := t.regs, pcie := t.pcie }) ∧
     (∀ bme fmask, CompletesIn (.managementLinkTrained bme false fmask) s fun s t =>
       t = { s with pcie := { s.pcie with linkUp := true, busMaster := bme, msixEnable := false, funcMask := fmask } }))

/-- Pins (R399, R400, R403, R404): the four output registers; taking over and handing back; an edge of a pin that nothing watches is only its
level, one of a watched pin counts toward chatter; the tick ends windows; a pin that is active too long is masked with error line 59.
Completion: on the stated conditions, which are on the state and the operands alone, `exec i s = .next t` is the conclusion for
outputWrite, outputSet, outputClear, outputToggle, pinTakeover, pinHandback, pinEdge, chatterTick, stuckTimeout. -/
def Obligations.Pins : Prop :=
  (∀ (who : Requester) (b : Fin 6) (v : Word) (s : State), (s.accessCycle who).cyc.pinWrites = [] → (s.accessCycle who).cyc.pinBase = [] →
    ∀ p ∈ ([(Instr.outputWrite who b v, Reg.PIN_OUT b, v), (.outputSet who b v, Reg.PIN_OSET b, s.rd (Reg.PIN_OUT b) ||| v),
      (.outputClear who b v, Reg.PIN_OCLR b, s.rd (Reg.PIN_OUT b) &&& ~~~v),
      (.outputToggle who b v, Reg.PIN_OTGL b, s.rd (Reg.PIN_OUT b) ^^^ v)] : List (Instr × Nat × Word)),
    Served s who p.2.1 → CompletesIn p.1 s fun s t =>
      t.rd (Reg.PIN_OUT b) = p.2.2 ∧ OnlyRegs [Reg.PIN_OUT b] s.written t) ∧
  (∀ (who : Requester) (b : Fin 6) (m : Word) (s : State), Served s who (Reg.PIN_GPOV b) →
    (CompletesIn (.pinTakeover who b m) s fun s t => t.rd (Reg.PIN_GPOV b) = s.rd (Reg.PIN_GPOV b) ||| m ∧
      OnlyRegs [Reg.PIN_GPOV b] { s with pin := t.pin }.written t) ∧
    (CompletesIn (.pinHandback who b m) s fun s t => t.rd (Reg.PIN_GPOV b) = s.rd (Reg.PIN_GPOV b) &&& ~~~m ∧
      OnlyRegs [Reg.PIN_GPOV b] { s with pin := t.pin }.written t)) ∧
  (∀ (p : Fin 192) (lvl : Bool) (s : State), (s.pinX p).masked = false →
    (s.pinWatched p = false → CompletesIn (.pinEdge p lvl) s fun s t =>
      t.pinX p = { s.pinX p with ext := lvl } ∧ t = { s with pin := t.pin }) ∧
    (s.up 93 = true → s.pinWatched p = true → (s.pinX p).suppressed = true →
      (s.setPinX p { s.pinX p with ext := lvl }).padLevel p ≠ s.padLevel p → CompletesIn (.pinEdge p lvl) s fun s t =>
        (t.pinX p).cnt = (s.pinX p).cnt + 1 ∧ (t.pinX p).last = s.cycle ∧ (t.pinX p).suppressed = true ∧ t = { s with pin := t.pin })) ∧
  (∀ s : State, s.up 93 = true → CompletesIn .chatterTick s fun s t =>
    (∀ p, (t.pinX p).suppressed = true → (s.pinX p).suppressed = true) ∧ t = { s with regs := t.regs, pin := t.pin }) ∧
  (∀ (p : Fin 192) (s : State), s.up 93 = true → s.pinWatched p = true → s.padLevel p = s.flag (Reg.PIN_CFG_ACTHI p) →
    (s.pinX p).masked = false → ∃ u, CompletesIn (.stuckTimeout p) s (fun _ t => t = raiseLine u 59) ∧
      u.pinX p = { s.pinX p with masked := true } ∧ u.flag (bankFld Reg.PIN_STK p) = true ∧ u.flag (bankFld Reg.PIN_SUPP p) = true ∧
      u.flag Reg.PIN_STAT_STUCK = true)

/-- The retained store and the image commands (R411, R417, R418, R427): the word port advances and stores, or is refused with WPERR; VERIFY
and ACTIVATE begin, or are refused with CMDERR; a check ends with its RESULT; the golden lock. Completion: on the stated conditions, which
are on the state and the operands alone, `exec i s = .next t` is the conclusion for imageWriteWord, imageReadWord, imageVerify,
imageActivate, goldenLock, imageCheckDone. -/
def Obligations.ImageCommands : Prop :=
  (∀ (who : Requester) (v : Word) (s : State), Served s who Reg.IMG_WDATA →
    let r := s.fld Reg.IMG_WADDR_REGION
    let o := 4 * s.fld Reg.IMG_WADDR_ADDR
    (r < 2 → s.slotState r = 0 → s.runSlot ≠ r → o < 0x600000 → CompletesIn (.imageWriteWord who v) s fun s t =>
      t.img.store = memPutWord s.img.store (0x600000 * r + o) v.toNat ∧
      OnlyRegs [Reg.IMG_WADDR] { s with img := { s.img with store := t.img.store, storeBad := t.img.storeBad } }.written t) ∧
    ((r = 3 ∨ s.slotState r = 3 ∨ s.runSlot = r) → CompletesIn (.imageWriteWord who v) s fun s t =>
      t.flag Reg.IMG_STAT_WPERR = true ∧ OnlyRegs [Reg.IMG_WADDR, Reg.IMG_STAT] s.written t)) ∧
  (∀ (who : Requester) (s : State), ServedRead s who Reg.IMG_RDATA →
    let r := s.fld Reg.IMG_WADDR_REGION
    let o := 4 * s.fld Reg.IMG_WADDR_ADDR
    (r < 2 → o < 0x600000 → (0x600000 * r + o) ∉ s.img.storeBad → CompletesIn (.imageReadWord who false) s fun s t =>
      OnlyRegs [Reg.IMG_WADDR] (s.returned (BitVec.ofNat 32 (memWord s.img.store (0x600000 * r + o)))) t ∧
      t.fld Reg.IMG_WADDR_ADDR = (s.fld Reg.IMG_WADDR_ADDR + 1) % 2 ^ (Reg.IMG_WADDR_ADDR.hi + 1 - Reg.IMG_WADDR_ADDR.lo)) ∧
    (r < 2 → o < 0x600000 → ∃ u, (CompletesIn (.imageReadWord who true) s fun _ t => t = (raiseLine u 51).returned 0xFFFFFFFF) ∧
      u.flag Reg.IMG_STAT_RSERR = true ∧ (0x600000 * r + o) ∈ u.img.storeBad)) ∧
  (∀ (who : Requester) (sl : Fin 4) (s : State), Served s who Reg.IMG_CTL →
    (s.imgOpCode = 0 → sl.val ≠ 3 → CompletesIn (.imageVerify who sl) s fun s t =>
      t.img = { s.img with op := .check sl } ∧ OnlyRegs [Reg.IMG_CTL] { s with img := t.img }.written t) ∧
    (s.imgOpCode = 0 → sl.val ≠ 3 → s.slotState sl = 1 → s.runSlot ≠ sl → 2 ≤ s.tbState →
      CompletesIn (.imageActivate who sl) s fun s t =>
      t.img = { s.img with activate := some sl } ∧ OnlyRegs [Reg.IMG_CTL] { s with img := t.img }.written t) ∧
    (s.imgOpCode = 0 → sl.val ≠ 3 → s.slotState sl = 1 → s.runSlot ≠ sl → s.tbState < 2 →
      CompletesIn (.imageActivate who sl) s (fun s t => t = (activateNow (s.setFld Reg.IMG_CTL_SLOT sl) sl).written)) ∧
    ((s.imgOpCode ≠ 0 ∨ sl.val = 3) → (CompletesIn (.imageVerify who sl) s fun s t => t.flag Reg.IMG_STAT_CMDERR = true ∧
        OnlyRegs [Reg.IMG_CTL, Reg.IMG_STAT] s.written t) ∧
      (CompletesIn (.imageActivate who sl) s fun s t => t.flag Reg.IMG_STAT_CMDERR = true ∧
        OnlyRegs [Reg.IMG_CTL, Reg.IMG_STAT] s.written t)) ∧
    (sl.val = 2 → s.slotState 2 = 1 → CompletesIn (.goldenLock who sl) s fun s t =>
      t.goldLock = true ∧ OnlyRegs [Reg.IMG_CTL] { s with img := { s.img with goldLocked := true } }.written t) ∧
    ((sl.val ≠ 2 ∨ s.slotState 2 ≠ 1) → CompletesIn (.goldenLock who sl) s fun s t => t.flag Reg.IMG_STAT_CMDERR = true ∧
      t.img.goldLocked = s.img.goldLocked ∧ OnlyRegs [Reg.IMG_CTL, Reg.IMG_STAT] s.written t)) ∧
  (∀ (i : Nat) (bad : List (BitVec 22)) (s : State), i < 2 → s.img.op = .check i →
    let lost := (storeHit s bad).storeDamaged (0x600000 * i) (checkSpan s.img.store (0x600000 * i) 0x600000)
    let code := checkImage s.img.store (0x600000 * i) 0x600000 lost
    CompletesIn (.imageCheckDone bad) s fun s t =>
      (lost = true → t.flag Reg.IMG_STAT_RSERR = true) ∧
      t.fld Reg.IMG_STAT_RESULT = code ∧ t.fld (Reg.IMG_SLOT_RESULT i) = code ∧ t.img.op = .none ∧
      (code ≠ 0 → t.slotState i = 0 ∧ t.flag Reg.IMG_STAT_VFAIL = true) ∧
      (code = 0 → (s.slotState i = 0 ∨ s.slotState i = 4) → t.slotState i = 1) ∧
      (code = 0 → s.slotState i ≠ 0 → s.slotState i ≠ 4 → t.slotState i = s.slotState i))

/-- The success of a start and its end (R420, R438 to R440): STARTOK in time is seen, sets FAILS to 0 and commits a candidate; after 10 s
without one NOSTARTOK is set, and a later one sets LATEOK alone; a start by the retained store counts, and enters recovery mode after four
failures. Completion: on the stated conditions, which are on the state and the operands alone, `exec i s = .next t` is the conclusion for
startOk, startokTimeout, journalCommitDone, imageStart, imageRun. -/
def Obligations.StartSuccess : Prop :=
  (∀ (who : Requester) (code : BitVec 16) (s : State), Served s who Reg.GBL_STARTOK →
    ((code ≠ 0x5A17 ∨ s.running = false) → CompletesIn (.startOk who code) s (fun s t => t = s.written)) ∧
    (code = 0x5A17 → s.running = true → s.img.okWindowOver = true →
      CompletesIn (.startOk who code) s (fun s t => t = (s.event Reg.RST_STAT_LATEOK).written)) ∧
    (code = 0x5A17 → s.running = true → s.img.okWindowOver = false → s.flag Reg.GBL_STATE_OKSEEN = false →
      CompletesIn (.startOk who code) s fun s t =>
        t.flag Reg.GBL_STATE_OKSEEN = true ∧ t.fld Reg.IMG_BOOTCNT_FAILS = 0 ∧
        (s.flag Reg.GBL_STATE_CAND = true → t.img.commits = s.img.commits ++ [.image s.runSlot] ∧ t.flag Reg.IMG_JSTAT_BUSY = true) ∧
        (s.flag Reg.GBL_STATE_CAND = false → t.img.commits = s.img.commits))) ∧
  (∀ s : State, s.running = true → s.flag Reg.GBL_STATE_OKSEEN = false → s.img.okWindowOver = false →
    CompletesIn .startokTimeout s fun s t =>
    t.flag Reg.RST_STAT_NOSTARTOK = true ∧ t.img.okWindowOver = true ∧
    OnlyRegs [Reg.RST_STAT] { s with img := { s.img with okWindowOver := true } } t) ∧
  (∀ (i : Nat) (rest : List Commit) (s : State), i < 2 → s.img.commits = .image i :: rest → s.slotIn 3 = none →
    CompletesIn (.journalCommitDone true) s fun _ t =>
    t.slotState i = 3 ∧ t.flag Reg.GBL_STATE_CAND = false ∧ t.img.commits = rest ∧
    t.flag Reg.IMG_JSTAT_BUSY = decide (rest ≠ [])) ∧
  (∀ (b : BankImage) (id orb : Nat) (rest : List Commit) (s : State), s.img.commits = .bank b id orb :: rest →
    CompletesIn (.journalCommitDone false) s fun s t =>
      t.flag Reg.GBL_FLIPSTAT_JERR = true ∧ t.img.commits = rest ∧ t.img.area0 = s.img.area0 ∧ t.img.area1 = s.img.area1 ∧
      t.img.store = s.img.store) ∧
  (∀ (flash : List Byte) (fail : Bool) (bad : List (BitVec 22)) (s : State), s.up 4 = true → s.rst.plan = [] →
    s.fld Reg.GBL_STATE_STATE = 0 →
    ((restoreJournal (storeHit s bad)).fld Reg.IMG_BOOTCNT_FAILS < 4 → s.flag Reg.RST_STAT_TRIMERR = false → s.rst.strapBoot = 0 →
      CompletesIn (.imageStart flash fail bad) s (fun s t => t = startWith (restoreJournal (storeHit s bad)) (restoreJournal (storeHit s bad)).startOrder)) ∧
    (4 ≤ (restoreJournal (storeHit s bad)).fld Reg.IMG_BOOTCNT_FAILS ∨ s.flag Reg.RST_STAT_TRIMERR = true →
      CompletesIn (.imageStart flash fail bad) s fun _ t =>
      t.fld Reg.GBL_STATE_STATE = 5 ∧ t.flag Reg.GBL_STATE_RECOV = true ∧ t.img.op = .load 2 false []) ∧
    ((startWith (restoreJournal s) (restoreJournal s).startOrder).fld Reg.IMG_BOOTCNT_FAILS =
        min ((restoreJournal s).fld Reg.IMG_BOOTCNT_FAILS + 1) 15 ∧
      (startWith (restoreJournal s) (restoreJournal s).startOrder).fld Reg.GBL_STATE_STATE = 1)) ∧
  (∀ (i : Nat) (cand : Bool) (rest : List (Nat × Bool)) (bad : List (BitVec 22)) (s : State), s.img.op = .apply i cand rest →
    s.rst.plan = [] → (sectionsOf s.img.store (regionBase i)).any s.sectionFails = false → CompletesIn (.imageRun bad) s fun _ t =>
      t.fld Reg.GBL_STATE_STATE = 3 ∧ t.flag Reg.GBL_STATE_OKSEEN = false ∧ t.img.op = .none)

/-- Resets by width (R428, R429, R431, R447): a reset of all domains keeps the straps, the reference time and the retained store, and begins
the release order with PD00 alone up, and mailboxes that were full show that they were aborted; the restart leaves PD00 to PD04 as they
are and drops the others; a wrong code is CMDERR; a supply loss leaves nothing powered. A power-on reset takes the straps that it samples,
and GBL_STRAP shows them; cause 1 (R428, R431). Completion: on the stated conditions, which are on the state and the operands alone, `exec
i s = .next t` is the conclusion for resetPin, deviceReset, watchdogStageEnd, restartCommand, supplyLoss, powerOnReset. -/
def Obligations.Resets : Prop :=
  ((∀ (s : State), s.up 0 = true →
     let wide := fun (cause : Nat) (t : State) =>
       (∀ d, d < 96 → t.up d = decide (d = 0)) ∧ t.fld Reg.RST_CAUSE_CAUSE = cause ∧ t.rst.plan = wideSteps ∧ t.cycle = s.cycle ∧
       t.rst.strapBoot = s.rst.strapBoot ∧ t.rst.strapClk = s.rst.strapClk ∧ t.rst.strapMst = s.rst.strapMst ∧
       t.img.store = s.img.store ∧ t.sram = [] ∧ t.dram.mem = [] ∧ t.sep.mem = [] ∧
       (∀ o, domOf o ≠ 0 → (∀ m, m < 512 → o ≠ Reg.IRQ_MBSTAT m) → t.rd o = resetWord o) ∧
       (∀ m, m < 512 → (s.mbFull m = false → t.rd (Reg.IRQ_MBSTAT m) = resetWord (Reg.IRQ_MBSTAT m)) ∧
         (s.mbFull m = true → t.mbFull m = false ∧ t.flag (Reg.IRQ_MBSTAT_ABORTED m) = true ∧
           t.fld (Reg.IRQ_MBSTAT_SENDER m) = s.fld (Reg.IRQ_MBSTAT_SENDER m)))
     Completes .resetPin s (wide 2) ∧
     (∀ who, Served s who Reg.RST_CMD → Completes (.deviceReset who 0xA5C3) s (wide 4)) ∧
     (s.flag Reg.FLT_WDCFG_EN = true → s.fld Reg.FLT_WDSTAT_STAGE ≠ 0 → Completes .watchdogStageEnd s (wide 3))) ∧
   (∀ (who : Requester) (code : BitVec 16) (s : State), Served s who Reg.RST_CMD → code ≠ 0xA5C3 →
     CompletesIn (.deviceReset who code) s (fun s t => t = (s.event Reg.RST_STAT_CMDERR).written) ∧
     CompletesIn (.restartCommand who code) s (fun s t => t = (s.event Reg.RST_STAT_CMDERR).written)) ∧
   (∀ (who : Requester) (s : State), Served s who Reg.RST_CMD → s.up 4 = true →
     CompletesIn (.restartCommand who 0xA5C3) s fun s t =>
     (∀ d, 5 ≤ d → d ≤ 95 → t.up d = false) ∧ (∀ d, d < 5 → t.up d = s.up d) ∧ t.fld Reg.RST_CAUSE_CAUSE = 5 ∧
     t.fld Reg.GBL_STATE_STATE = 0 ∧ t.sram = [] ∧ t.cycle = s.cycle) ∧
   (∀ (rail : Fin 3) (s : State), CompletesIn (.supplyLoss rail false) s fun s t =>
     (∀ d, d < 96 → t.up d = false) ∧ t.img.store = s.img.store ∧ t.sram = [] ∧ t.dram.mem = [])) ∧
  (∀ (k : BitVec 5) (s : State), CompletesIn (.powerOnReset k) s fun s t =>
     t.rst.strapBoot = k.toNat / 8 ∧ t.rst.strapClk = k.toNat / 2 % 4 ∧ t.rst.strapMst = k.toNat % 2 ∧
     t.fld Reg.GBL_STRAP_BOOT = k.toNat / 8 ∧ t.fld Reg.GBL_STRAP_CLK = k.toNat / 2 % 4 ∧ t.fld Reg.GBL_STRAP_MST = k.toNat % 2 ∧
     t.fld Reg.RST_CAUSE_CAUSE = 1 ∧ t.cycle = 0 ∧ t.img.store = s.img.store ∧ t.rst.plan = wideSteps)

/-- The release order (R432, R435, R437): trims are loaded from the copy that passes its check, or recovery follows; step 3 waits for them; a
step releases its domains; a domain whose rail fails stays isolated with error line 62. Domains at run time (R441 to R443): RST_PDCMD with
its code names a switchable domain while RUN goes on and nothing else does, or is CMDERR; the operation waits for flips to be over, drops
or releases the domain, and its reload returns to RUN. Completion: on the stated conditions, which are on the state and the operands
alone, `exec i s = .next t` is the conclusion for trimLoadDone, domainRelease, railTimeout, domainReset, domainOff, domainOn,
domainOpStart, domainReloadDone. -/
def Obligations.ReleaseAndDomains : Prop :=
  ((∀ (b : Bool) (s : State), s.up 1 = true → s.rst.trimDone = false →
     (CompletesIn (.trimLoadDone true b) s fun s t => t.flag Reg.RST_STAT_TRIMVALID = true ∧
       OnlyRegs [Reg.RST_STAT] { s with rst := { s.rst with trimDone := true } } t) ∧
     (∃ u, CompletesIn (.trimLoadDone false true) s (fun _ t => t = raiseLine u 62) ∧ u.flag Reg.RST_STAT_TRIMVALID = true ∧
       u.flag Reg.RST_STAT_TRIMCOPY = true ∧ u.flag Reg.RST_STAT_TRIMFIX = true ∧ u.rst.trimDone = true) ∧
     (∃ u, CompletesIn (.trimLoadDone false false) s (fun _ t => t = raiseLine u 62) ∧ u.flag Reg.RST_STAT_TRIMERR = true ∧
       u.flag Reg.RST_STAT_TRIMVALID = s.flag Reg.RST_STAT_TRIMVALID ∧ u.rst.trimDone = true)) ∧
   (∀ (vdet : BitVec 6) (ds : List Nat) (rest : List (Nat × List Nat)) (s : State),
     (s.rst.plan = (3, ds) :: rest → s.rst.trimDone = false → CompletesIn (.domainRelease vdet) s (fun s t => t = s)) ∧
     (∀ step d, s.rst.plan = (step, [d]) :: rest → step ≠ 3 → step < 16 → (d = 1 ∨ d = 4 ∨ 53 ≤ d ∧ d ≤ 95) →
       CompletesIn (.domainRelease vdet) s fun s t =>
       t.up d = true ∧ (∀ e, e < 96 → e ≠ d → t.up e = s.up e) ∧ t.rst.plan = rest ∧
       t.fld Reg.RST_SEQ_PD = d ∧ t.flag Reg.RST_SEQ_BUSY = decide (rest ≠ []) ∧
       t.fld Reg.RST_SEQ_STEP = (if rest = [] then 0 else step))) ∧
   (∀ (d : Fin 96) (s : State), d.val ≠ 0 → s.up d = true → ∃ u, CompletesIn (.railTimeout d) s (fun _ t => t = raiseLine u 62) ∧
     u.up d = false ∧ u.flag Reg.RST_STAT_PWRERR = true ∧ d.val ∈ u.rst.railFailed)) ∧
  ((∀ (who : Requester) (pd : BitVec 7) (s : State), Served s who Reg.RST_PDCMD →
     ∀ p ∈ [(1, Instr.domainReset who 0xA5C3 pd, Instr.domainReset who 0 pd), (2, .domainOff who 0xA5C3 pd, .domainOff who 0 pd),
       (3, .domainOn who 0xA5C3 pd, .domainOn who 0 pd)],
       (switchable pd.toNat = true → s.fld Reg.GBL_STATE_STATE = 3 → s.flag Reg.RST_SEQ_BUSY = false → s.rst.domainOp = none →
         CompletesIn p.2.1 s (fun s t =>
           t = { s with rst := { s.rst with domainOp := some { op := p.1, pd := pd.toNat, started := false } } }.written)) ∧
       ((switchable pd.toNat = false ∨ s.fld Reg.GBL_STATE_STATE ≠ 3 ∨ s.flag Reg.RST_SEQ_BUSY = true ∨ s.rst.domainOp ≠ none) →
         CompletesIn p.2.1 s (fun s t => t = (s.event Reg.RST_STAT_CMDERR).written)) ∧
       CompletesIn p.2.2 s (fun s t => t = (s.event Reg.RST_STAT_CMDERR).written)) ∧
   (∀ (vdet : BitVec 6) (o : DomainOp) (s : State), s.rst.domainOp = some o → o.started = false →
     ((s.flag Reg.GBL_FLIPSTAT_LOCKED = true ∨ s.flag Reg.GBL_FLIPSTAT_BUSY = true) →
       CompletesIn (.domainOpStart vdet) s (fun s t => t = s)) ∧
     (s.flag Reg.GBL_FLIPSTAT_LOCKED = false → s.flag Reg.GBL_FLIPSTAT_BUSY = false →
       (o.op = 2 → (53 ≤ o.pd ∧ o.pd ≤ 95) → CompletesIn (.domainOpStart vdet) s fun s t =>
         t.up o.pd = false ∧ t.rst.domainOp = none ∧ (∀ e, e < 96 → e ≠ o.pd → t.up e = s.up e)) ∧
       (o.op = 3 → (53 ≤ o.pd ∧ o.pd ≤ 95) → CompletesIn (.domainOpStart vdet) s fun _ t =>
         t.up o.pd = true ∧ t.fld Reg.GBL_STATE_STATE = 6 ∧ t.flag Reg.RST_SEQ_BUSY = true ∧
         t.rst.domainOp = some { o with started := true }))) ∧
   (∀ (o : DomainOp) (bad : List (BitVec 22)) (s : State), s.rst.domainOp = some o → o.started = true →
     CompletesIn (.domainReloadDone bad) s fun _ t =>
     t.fld Reg.GBL_STATE_STATE = 3 ∧ t.flag Reg.RST_SEQ_BUSY = false))

/-- Mordant's word (R449, R451, R452, R466): a W1C write clears the bits whose lines are 0 and leaves those whose lines are 1; two reads latch
their upper halves; FCLR empties the first source; the self-fault is for good. The safe state by command (R453, R455, R456): ENTER with
its code enters with cause 3; a wrong code is CMDERR; EXIT with the code waits for the orbit's boundary while nothing that the mask names
is set; the escalation ends the safe state with its reset. Completion: on the stated conditions, which are on the state and the operands
alone, `exec i s = .next t` is the conclusion for faultClear, faultStatusRead, firstTimeRead, firstSourceClear, collectorSelfFault,
safeEnter, safeExitRequest, safeEscalation. -/
def Obligations.FaultWordAndSafeState : Prop :=
  ((∀ (who : Requester) (hi : Bool) (m : Word) (s : State), Served s who (if hi then Reg.FLT_STATUS_HI else Reg.FLT_STATUS_LO) →
     (s.flag Reg.FLT_SAFE_SELF = true → CompletesIn (.faultClear who hi m) s (fun s t => t = s.written)) ∧
     (s.flag Reg.FLT_SAFE_SELF = false → CompletesIn (.faultClear who hi m) s fun s t => ∀ b, b < 64 →
       t.flt.status.getLsbD b = (s.flt.status.getLsbD b &&
         !(decide (b / 32 = b2n hi) && m.getLsbD (b % 32) && !(s.cyc.lines.getLsbD b) && !(s.lasting b))))) ∧
   (∀ (who : Requester) (s : State),
     (ServedRead s who Reg.FLT_STATUS_LO → CompletesIn (.faultStatusRead who) s (fun s t =>
       t = (s.wr Reg.FLT_STATUS_HI (BitVec.ofNat 32 (s.flt.status.toNat / 2 ^ 32))).returned (BitVec.ofNat 32 s.flt.status.toNat))) ∧
     (ServedRead s who Reg.FLT_FIRSTT_LO → CompletesIn (.firstTimeRead who) s (fun s t =>
       t = (s.wr Reg.FLT_FIRSTT_HI (BitVec.ofNat 32 s.flt.firstT)).returned (s.rd Reg.FLT_FIRSTT_LO))) ∧
     (Served s who Reg.FLT_CTL → s.safe = false → s.flag Reg.FLT_SAFE_SELF = false → (s.accessCycle who).cyc.lines = 0 →
       CompletesIn (.firstSourceClear who) s fun s t =>
       t.flag Reg.FLT_FIRST_VALID = false ∧ t.flag Reg.FLT_FIRST_OVF = false ∧ OnlyRegs [Reg.FLT_FIRST] s.written t)) ∧
   (∀ s : State, s.up 2 = true → CompletesIn .collectorSelfFault s fun s t =>
     t.flag Reg.FLT_SAFE_SELF = true ∧ t.safe = true ∧ t.fld Reg.FLT_SAFE_CAUSE = 2 ∧ t.flt.status = s.flt.status)) ∧
  ((∀ (who : Requester) (s : State), Served s who Reg.FLT_CTL →
     (s.safe = false → CompletesIn (.safeEnter who 0xA5C3 false) s fun s t =>
       t.safe = true ∧ t.fld Reg.FLT_SAFE_CAUSE = 3 ∧ t.flag Reg.FLT_SAFE_EXITPEND = false ∧ t.flt.safeStart = s.cycle ∧
       t.flt.exitOrbit = none) ∧
     (∀ code : BitVec 16, code ≠ 0xA5C3 → s.safe = false → ∀ both,
       CompletesIn (.safeEnter who code both) s (fun s t => t = (s.event Reg.FLT_SAFE_CMDERR).written) ∧
       CompletesIn (.safeExitRequest who code) s (fun s t => t = (s.event Reg.FLT_SAFE_CMDERR).written)) ∧
     (s.safe = true → s.flag Reg.FLT_SAFE_SELF = false → s.maskedPending = false → 2 ≤ s.fld Reg.TB_STAT_STATE →
       CompletesIn (.safeExitRequest who 0xA5C3) s fun s t =>
         t.safe = true ∧ t.flag Reg.FLT_SAFE_EXITPEND = true ∧ OnlyRegs [Reg.FLT_SAFE] { s with cvl := t.cvl }.written t) ∧
     (s.safe = true → s.flag Reg.FLT_SAFE_SELF = false → s.maskedPending = false → s.fld Reg.TB_STAT_STATE < 2 →
       CompletesIn (.safeExitRequest who 0xA5C3) s fun _ t => t.safe = false ∧ t.flag Reg.FLT_SAFE_EXITPEND = false)) ∧
   (∀ s : State, s.up 4 = true → s.safe = true → s.flag Reg.FLT_SAFE_SELF = false → s.fld Reg.FLT_ESCTO_MS ≠ 0 →
     s.flag Reg.TB_STAT_STRAPERR = false → s.flag Reg.REL_STAT_FAST = false → s.flt.supplyOut = [] → s.tempHigh = false →
     s.fld Reg.TB_STAT_STATE ≠ 3 → s.flt.refclkBad = false → CompletesIn .safeEscalation s fun _ t =>
       t.safe = false ∧ t.flt.status = 0 ∧ t.fld Reg.RST_CAUSE_CAUSE = 6 ∧ (∀ d, 5 ≤ d → d ≤ 95 → t.up d = false)))

/-- The environment's monitors (R459, R483): an excursion is remembered as a lasting condition with its error line, and its end ends the
condition and leaves the latched bit. The watchdog (R462, R463): enabling starts stage 0 with its timeout, which no later write changes;
the right key starts stage 0 again; another key ends the stage at once, as its running out does: bit 55 with stage 1. Completion: on the
stated conditions, which are on the state and the operands alone, `exec i s = .next t` is the conclusion for supplyExcursion,
supplyInRange, temperatureExcursion, temperatureBelowLimit, refclkDeviation, refclkWithinLimit, watchdogEnable, watchdogKick, falseKick,
watchdogStageEnd. Completion: on the stated conditions, which are on the state and the operands alone, `exec i s = .next t` is the
conclusion for supplyExcursion, supplyInRange, temperatureExcursion, temperatureBelowLimit, refclkDeviation, refclkWithinLimit,
watchdogEnable, watchdogKick, falseKick, watchdogStageEnd. -/
def Obligations.MonitorsAndWatchdog : Prop :=
  ((∀ (rail : Fin 5) (s : State), s.up 2 = true →
     CompletesIn (.supplyExcursion rail) s (fun s t =>
       t = raiseLine { s with flt := { s.flt with supplyOut := nsAdd s.flt.supplyOut rail } } 52) ∧
     (CompletesIn (.supplyInRange rail) s fun s t => rail.val ∉ t.flt.supplyOut ∧
       (∀ r, r ≠ rail.val → (r ∈ t.flt.supplyOut ↔ r ∈ s.flt.supplyOut)) ∧ t.flt.status = s.flt.status ∧
       t = { s with flt := { s.flt with supplyOut := t.flt.supplyOut } })) ∧
   (∀ (v : BitVec 16) (s : State), s.up 2 = true →
     (sext 16 (s.fld Reg.FLT_TLIM_HI) < v.toInt → CompletesIn (.temperatureExcursion v) s (fun s t =>
       t = raiseLine { s with flt := { s.flt with temp := v.toInt } } 53)) ∧
     (v.toInt ≤ sext 16 (s.fld Reg.FLT_TLIM_HI) → CompletesIn (.temperatureBelowLimit v) s (fun s t =>
       t = { s with flt := { s.flt with temp := v.toInt } }))) ∧
   (∀ s : State, s.up 2 = true →
     CompletesIn .refclkDeviation s (fun s t => t = raiseLine { s with flt := { s.flt with refclkBad := true } } 54) ∧
     CompletesIn .refclkWithinLimit s (fun s t => t = { s with flt := { s.flt with refclkBad := false } })) ∧
   (∀ (b : Nat) (s : State), b < 64 → s.up 2 = true → s.flag Reg.FLT_SAFE_SELF = false →
     (raiseLine s b).flt.status = s.flt.status ||| BitVec.twoPow 64 b ∧
     (s.safeMask b = true → (raiseLine s b).safe = true) ∧ (s.safeMask b = false → (raiseLine s b).safe = s.safe))) ∧
  ((∀ (who : Requester) (timeout : BitVec 16) (s : State), Served s who Reg.FLT_WDCFG →
     (s.flag Reg.FLT_WDCFG_EN = false → CompletesIn (.watchdogEnable who timeout) s fun s t =>
       t.flag Reg.FLT_WDCFG_EN = true ∧ t.fld Reg.FLT_WDCFG_TIMEOUT = timeout.toNat ∧ t.fld Reg.FLT_WDSTAT_STAGE = 0 ∧
       t.flt.wdStart = s.cycle ∧ OnlyRegs [Reg.FLT_WDCFG, Reg.FLT_WDSTAT] { s with flt := { s.flt with wdStart := s.cycle } }.written t) ∧
     (s.flag Reg.FLT_WDCFG_EN = true → CompletesIn (.watchdogEnable who timeout) s (fun s t => t = s.written))) ∧
   (∀ (who : Requester) (s : State), Served s who Reg.FLT_WDKICK → s.flag Reg.FLT_WDCFG_EN = true →
     (CompletesIn (.watchdogKick who) s fun s t => t.fld Reg.FLT_WDSTAT_STAGE = 0 ∧ t.flt.wdStart = s.cycle ∧
       OnlyRegs [Reg.FLT_WDSTAT] { s with flt := { s.flt with wdStart := s.cycle } }.written t) ∧
     (∀ key : BitVec 16, key ≠ 0x6B1D → s.fld Reg.FLT_WDSTAT_STAGE = 0 → CompletesIn (.falseKick who key) s (fun s t =>
       t = (raiseLine (wdStage s 1) 55).written))) ∧
   (∀ s : State, s.flag Reg.FLT_WDCFG_EN = true → s.fld Reg.FLT_WDSTAT_STAGE = 0 →
     CompletesIn .watchdogStageEnd s (fun s t => t = raiseLine (wdStage s 1) 55) ∧ (wdStage s 1).fld Reg.FLT_WDSTAT_STAGE = 1 ∧
     (wdStage s 1).flt.wdStart = s.cycle))
end

