-- ==== Sys2Proof/Laws/Maps.lean ====
section
/-! SUPPORT. Sparse maps: what a read finds after a write, and the canonical form that every operation keeps. -/
namespace Sys2Proof.Machine

/-! ### Reads after writes -/

theorem smGet_smErase_same {α : Type} (d : α) (m : List (Nat × α)) (k : Nat) : smGet d (smErase m k) k = d := by
  induction m with
  | nil => rfl
  | cons p r ih =>
    obtain ⟨a, v⟩ := p
    by_cases h : a = k <;> simp [smErase, smGet, h, ih]

theorem smGet_smErase_other {α : Type} (d : α) (m : List (Nat × α)) (k j : Nat) (hj : j ≠ k) :
    smGet d (smErase m k) j = smGet d m j := by
  induction m with
  | nil => rfl
  | cons p r ih =>
    obtain ⟨a, v⟩ := p
    by_cases h : a = k
    · have : ¬ a = j := by omega
      simp [smErase, smGet, h, ih]
      intro e; omega
    · simp [smErase, smGet, h, ih]

theorem smGet_smInsert_other {α : Type} (d : α) (m : List (Nat × α)) (k j : Nat) (v : α) (hj : j ≠ k) :
    smGet d (smInsert m k v) j = smGet d m j := by
  induction m with
  | nil => simp [smInsert, smGet]; omega
  | cons p r ih =>
    obtain ⟨a, w⟩ := p
    have hk : ¬ k = j := by omega
    by_cases h : k < a <;> simp [smInsert, smGet, h, ih, hk]

theorem smGet_smInsert_same {α : Type} (d : α) (m : List (Nat × α)) (k : Nat) (v : α) (hm : ∀ e ∈ m, e.1 ≠ k) :
    smGet d (smInsert m k v) k = v := by
  induction m with
  | nil => simp [smInsert, smGet]
  | cons p r ih =>
    obtain ⟨a, w⟩ := p
    have ha : ¬ a = k := hm (a, w) (by simp)
    have hr := ih fun e he => hm e (by simp [he])
    by_cases h : k < a <;> simp [smInsert, smGet, h, hr, ha]

theorem smErase_key {α : Type} (m : List (Nat × α)) (k : Nat) : ∀ e ∈ smErase m k, e ∈ m ∧ e.1 ≠ k := by
  induction m with
  | nil => simp [smErase]
  | cons p r ih =>
    obtain ⟨a, v⟩ := p
    by_cases h : a = k
    · intro e he
      simp [smErase, h] at he
      have := ih e he
      exact ⟨by simp [this.1], this.2⟩
    · intro e he
      simp [smErase, h] at he
      rcases he with rfl | he
      · exact ⟨by simp, h⟩
      · have := ih e he
        exact ⟨by simp [this.1], this.2⟩

@[simp] theorem smGet_smSet_same {α : Type} [DecidableEq α] (d : α) (m : List (Nat × α)) (k : Nat) (v : α) :
    smGet d (smSet d m k v) k = v := by
  by_cases h : v = d
  · simp [smSet, h, smGet_smErase_same]
  · simp only [smSet, h, if_false]
    exact smGet_smInsert_same d _ k v fun e he => (smErase_key m k e he).2

theorem smGet_smSet_other {α : Type} [DecidableEq α] (c d : α) (m : List (Nat × α)) (k j : Nat) (v : α) (hj : j ≠ k) :
    smGet c (smSet d m k v) j = smGet c m j := by
  by_cases h : v = d
  · simp [smSet, h, smGet_smErase_other _ _ _ _ hj]
  · simp only [smSet, h, if_false]
    rw [smGet_smInsert_other _ _ _ _ _ hj, smGet_smErase_other _ _ _ _ hj]

theorem smGet_smDrop {α : Type} (d : α) (p : Nat → Bool) (m : List (Nat × α)) (k : Nat) :
    smGet d (smDrop p m) k = if p k then d else smGet d m k := by
  induction m with
  | nil => simp [smDrop, smGet]
  | cons e r ih =>
    obtain ⟨a, v⟩ := e
    simp only [smDrop] at ih ⊢
    by_cases hp : p a <;> by_cases h : a = k
    · subst h; simp [List.filter, hp, ih]
    · simp [List.filter, hp, ih, smGet, h]
    · subst h; simp [List.filter, hp, smGet]
    · simp [List.filter, hp, ih, smGet, h]

/-! ### The canonical form -/

/-- Every key of `m` is above `k`. -/
def keysAbove {α : Type} (k : Nat) (m : List (Nat × α)) : Prop := ∀ e ∈ m, k < e.1

theorem smSorted_cons {α : Type} (k : Nat) (v : α) (m : List (Nat × α)) :
    smSorted ((k, v) :: m) = true ↔ keysAbove k m ∧ smSorted m = true := by
  induction m generalizing k v with
  | nil => simp [smSorted, keysAbove]
  | cons p r ih =>
    obtain ⟨a, w⟩ := p
    simp only [smSorted, Bool.and_eq_true, decide_eq_true_eq]
    constructor
    · intro h
      refine ⟨?_, h.2⟩
      intro e he
      rcases List.mem_cons.1 he with rfl | he
      · exact h.1
      · have := ((ih a w).1 h.2).1 e he
        have := h.1
        omega
    · intro h
      exact ⟨h.1 (a, w) (by simp), h.2⟩

theorem smSorted_smErase {α : Type} (m : List (Nat × α)) (k : Nat) (h : smSorted m = true) : smSorted (smErase m k) = true := by
  induction m with
  | nil => rfl
  | cons p r ih =>
    obtain ⟨a, v⟩ := p
    have hs := (smSorted_cons a v r).1 h
    by_cases e : a = k
    · simp [smErase, e, ih hs.2]
    · simp only [smErase, e, if_false]
      exact (smSorted_cons a v _).2 ⟨fun x hx => hs.1 x (smErase_key r k x hx).1, ih hs.2⟩

theorem smInsert_key {α : Type} (m : List (Nat × α)) (k : Nat) (v : α) :
    ∀ e ∈ smInsert m k v, e = (k, v) ∨ e ∈ m := by
  induction m with
  | nil => simp [smInsert]
  | cons p r ih =>
    obtain ⟨a, w⟩ := p
    intro e he
    by_cases h : k < a
    · simp [smInsert, h] at he; simpa using he
    · simp only [smInsert, h, if_false, List.mem_cons] at he
      rcases he with rfl | he
      · simp
      · rcases ih e he with rfl | h' <;> simp [*]

theorem smSorted_smInsert {α : Type} (m : List (Nat × α)) (k : Nat) (v : α) (h : smSorted m = true)
    (hk : ∀ e ∈ m, e.1 ≠ k) : smSorted (smInsert m k v) = true := by
  induction m with
  | nil => rfl
  | cons p r ih =>
    obtain ⟨a, w⟩ := p
    have hs := (smSorted_cons a w r).1 h
    have hne : a ≠ k := hk (a, w) (by simp)
    by_cases c : k < a
    · simp only [smInsert, c, if_true]
      refine (smSorted_cons k v _).2 ⟨?_, h⟩
      intro e he
      rcases List.mem_cons.1 he with rfl | he
      · exact c
      · have := hs.1 e he
        omega
    · simp only [smInsert, c, if_false]
      refine (smSorted_cons a w _).2 ⟨?_, ih hs.2 fun e he => hk e (by simp [he])⟩
      intro e he
      rcases smInsert_key r k v e he with rfl | he
      · simp; omega
      · exact hs.1 e he

theorem smWf_iff {α : Type} [DecidableEq α] (d : Nat → α) (m : List (Nat × α)) :
    smWf d m = true ↔ smSorted m = true ∧ ∀ e ∈ m, e.2 ≠ d e.1 := by
  simp [smWf, List.all_eq_true]

theorem smWf_smSet {α : Type} [DecidableEq α] (d : Nat → α) (m : List (Nat × α)) (k : Nat) (v : α) (h : smWf d m = true) :
    smWf d (smSet (d k) m k v) = true := by
  rw [smWf_iff] at h ⊢
  by_cases e : v = d k
  · simp only [smSet, e, if_true]
    exact ⟨smSorted_smErase m k h.1, fun x hx => h.2 x (smErase_key m k x hx).1⟩
  · simp only [smSet, e, if_false]
    refine ⟨smSorted_smInsert _ k v (smSorted_smErase m k h.1) fun x hx => (smErase_key m k x hx).2, ?_⟩
    intro x hx
    rcases smInsert_key _ k v x hx with rfl | hx
    · exact e
    · exact h.2 x (smErase_key m k x hx).1

theorem smSorted_filter {α : Type} (p : Nat × α → Bool) (m : List (Nat × α)) (h : smSorted m = true) :
    smSorted (m.filter p) = true := by
  induction m with
  | nil => rfl
  | cons e r ih =>
    obtain ⟨a, v⟩ := e
    have hs := (smSorted_cons a v r).1 h
    by_cases c : p (a, v)
    · simp only [List.filter, c]
      exact (smSorted_cons a v _).2 ⟨fun x hx => hs.1 x (List.mem_filter.1 hx).1, ih hs.2⟩
    · simp only [List.filter, c]
      exact ih hs.2

theorem smWf_filter {α : Type} [DecidableEq α] (d : Nat → α) (p : Nat × α → Bool) (m : List (Nat × α)) (h : smWf d m = true) :
    smWf d (m.filter p) = true := by
  rw [smWf_iff] at h ⊢
  exact ⟨smSorted_filter p m h.1, fun x hx => h.2 x (List.mem_filter.1 hx).1⟩

/-! ### Memories -/

/-- A byte reads as it was written. -/
theorem memByte_memPut_same (m : List Host.Cell) (a v : Nat) : memByte (memPut m a v) a = v % 256 := by
  simp [memByte, memPut]

/-- A write of one byte leaves every other byte. -/
theorem memByte_memPut_other (m : List Host.Cell) (a b v : Nat) (h : b ≠ a) : memByte (memPut m a v) b = memByte m b := by
  simp [memByte, memPut, smGet_smSet_other _ _ _ _ _ _ h]

theorem Memory.wf_nil : Memory.wf [] = true := rfl

/-- A write keeps the canonical form. -/
theorem Memory.wf_memPut (m : List Host.Cell) (a v : Nat) (h : Memory.wf m = true) : Memory.wf (memPut m a v) = true :=
  smWf_smSet (fun _ => (0 : BitVec 8)) m a _ h

theorem Memory.wf_memStore (bs : List Nat) (m : List Host.Cell) (a : Nat) (h : Memory.wf m = true) :
    Memory.wf (memStore m a bs) = true := by
  induction bs generalizing m a with
  | nil => exact h
  | cons b r ih => exact ih _ _ (Memory.wf_memPut m a b h)

theorem Memory.wf_memPutWord (m : List Host.Cell) (a w : Nat) (h : Memory.wf m = true) : Memory.wf (memPutWord m a w) = true :=
  Memory.wf_memStore _ m a h

theorem Memory.wf_filter (m : List Host.Cell) (p : Host.Cell → Bool) (h : Memory.wf m = true) : Memory.wf (m.filter p) = true :=
  smWf_filter _ p m h

theorem Memory.wf_smDrop (m : List Host.Cell) (p : Nat → Bool) (h : Memory.wf m = true) : Memory.wf (smDrop p m) = true :=
  smWf_filter _ _ m h

/-- Bytes outside those stored read as before. -/
theorem memByte_memStore_other (bs : List Nat) (m : List Host.Cell) (a b : Nat) (h : b < a ∨ a + bs.length ≤ b) :
    memByte (memStore m a bs) b = memByte m b := by
  induction bs generalizing m a with
  | nil => rfl
  | cons c r ih =>
    simp only [List.length_cons] at h
    simp only [memStore]
    rw [ih _ _ (by omega), memByte_memPut_other _ _ _ _ (by omega)]

/-- Byte `i` of those stored. -/
theorem memByte_memStore (bs : List Nat) (m : List Host.Cell) (a i : Nat) (h : i < bs.length) :
    memByte (memStore m a bs) (a + i) = bs.getD i 0 % 256 := by
  induction bs generalizing m a i with
  | nil => simp at h
  | cons c r ih =>
    simp only [memStore]
    cases i with
    | zero => rw [memByte_memStore_other _ _ _ _ (by omega)]; simp [memByte_memPut_same]
    | succ j =>
      have := ih (memPut m a c) (a + 1) j (by simpa using h)
      rw [show a + (j + 1) = a + 1 + j by omega, this]; simp

end Sys2Proof.Machine
end

