-- ==== Sys2Proof/Laws/Fields.lean ====
section
/-! SUPPORT. Fields of register words: what a field reads as after a field is set, and what a set leaves. -/
namespace Sys2Proof.Machine

theorem setBitsOf_eq (n hi lo v : Nat) (h : lo ≤ hi) :
    setBitsOf n hi lo v = (n / 2 ^ (hi + 1) * 2 ^ (hi + 1 - lo) + v % 2 ^ (hi + 1 - lo)) * 2 ^ lo + n % 2 ^ lo := by
  simp only [setBitsOf, bitsOf, Nat.shiftRight_eq_div_pow]
  have hp : 2 ^ (hi + 1) = 2 ^ lo * 2 ^ (hi + 1 - lo) := by rw [← Nat.pow_add]; congr 1; omega
  rw [hp, ← Nat.div_div_eq_div_mul]
  generalize 2 ^ (hi + 1 - lo) = K
  generalize hL : 2 ^ lo = L
  generalize v % K = u
  have h1 : n = L * (n / L) + n % L := (Nat.div_add_mod n L).symm
  have h2 : n / L = K * (n / L / K) + n / L % K := (Nat.div_add_mod (n / L) K).symm
  generalize hq : n / L = q at *
  generalize hr : n % L = r at *
  generalize hqk : q / K = qk at *
  generalize hqr : q % K = qr at *
  have e : n - qr * L = qk * K * L + r := by
    rw [h1, h2]
    have : L * (K * qk + qr) + r = qk * K * L + r + qr * L := by
      rw [Nat.mul_add, Nat.mul_comm L (K * qk), Nat.mul_comm K qk, Nat.mul_comm L qr]; omega
    rw [this]; omega
  rw [e, Nat.add_mul]; omega

theorem bitsOf_lt (n hi lo : Nat) : bitsOf n hi lo < 2 ^ (hi + 1 - lo) := Nat.mod_lt _ (Nat.two_pow_pos _)

theorem wField_lt (w : Word) (hi lo : Nat) : wField w hi lo < 2 ^ (hi + 1 - lo) := bitsOf_lt _ _ _

theorem setBitsOf_lt (n hi lo v : Nat) (h : lo ≤ hi) (hh : hi < 32) (hn : n < 2 ^ 32) : setBitsOf n hi lo v < 2 ^ 32 := by
  rw [setBitsOf_eq n hi lo v h]
  have hp : 2 ^ 32 = 2 ^ (31 - hi) * (2 ^ (hi + 1 - lo) * 2 ^ lo) := by
    rw [← Nat.pow_add, ← Nat.pow_add]; congr 1; omega
  have hv : v % 2 ^ (hi + 1 - lo) < 2 ^ (hi + 1 - lo) := Nat.mod_lt _ (Nat.two_pow_pos _)
  have hr : n % 2 ^ lo < 2 ^ lo := Nat.mod_lt _ (Nat.two_pow_pos _)
  have hd : n / 2 ^ (hi + 1) < 2 ^ (31 - hi) := by
    rw [Nat.div_lt_iff_lt_mul (Nat.two_pow_pos _), ← Nat.pow_add]
    rw [show 31 - hi + (hi + 1) = 32 by omega]; exact hn
  rw [hp]
  generalize 2 ^ (hi + 1 - lo) = K at *
  generalize 2 ^ lo = L at *
  generalize 2 ^ (31 - hi) = D at *
  generalize n / 2 ^ (hi + 1) = d at *
  generalize v % K = u at *
  generalize n % L = r at *
  have h1 : d * K + u + 1 ≤ D * K := by
    have : (d + 1) * K ≤ D * K := Nat.mul_le_mul_right K hd
    rw [Nat.add_mul] at this; omega
  have h2 : (d * K + u + 1) * L ≤ D * K * L := Nat.mul_le_mul_right L h1
  rw [← Nat.mul_assoc]
  rw [Nat.add_mul] at h2
  omega

theorem bitsOf_setBitsOf_same (n hi lo v : Nat) (h : lo ≤ hi) :
    bitsOf (setBitsOf n hi lo v) hi lo = v % 2 ^ (hi + 1 - lo) := by
  rw [setBitsOf_eq n hi lo v h, bitsOf, Nat.shiftRight_eq_div_pow]
  have hr : n % 2 ^ lo < 2 ^ lo := Nat.mod_lt _ (Nat.two_pow_pos _)
  rw [Nat.mul_comm _ (2 ^ lo), Nat.mul_add_div (Nat.two_pow_pos lo), Nat.div_eq_of_lt hr, Nat.add_zero,
    Nat.mul_comm _ (2 ^ (hi + 1 - lo)), Nat.mul_add_mod, Nat.mod_mod]

theorem setBitsOf_high (n hi lo v : Nat) (h : lo ≤ hi) : setBitsOf n hi lo v / 2 ^ (hi + 1) = n / 2 ^ (hi + 1) := by
  rw [setBitsOf_eq n hi lo v h]
  have hp : 2 ^ (hi + 1) = 2 ^ lo * 2 ^ (hi + 1 - lo) := by rw [← Nat.pow_add]; congr 1; omega
  have hr : n % 2 ^ lo < 2 ^ lo := Nat.mod_lt _ (Nat.two_pow_pos _)
  have hv : v % 2 ^ (hi + 1 - lo) < 2 ^ (hi + 1 - lo) := Nat.mod_lt _ (Nat.two_pow_pos _)
  conv => lhs; rw [hp]
  rw [← Nat.div_div_eq_div_mul, Nat.mul_comm _ (2 ^ lo), Nat.mul_add_div (Nat.two_pow_pos lo), Nat.div_eq_of_lt hr, Nat.add_zero,
    Nat.mul_comm _ (2 ^ (hi + 1 - lo)), Nat.mul_add_div (Nat.two_pow_pos _), Nat.div_eq_of_lt hv, Nat.add_zero, ← hp]

theorem setBitsOf_low (n hi lo v : Nat) (h : lo ≤ hi) : setBitsOf n hi lo v % 2 ^ lo = n % 2 ^ lo := by
  rw [setBitsOf_eq n hi lo v h, Nat.mul_comm _ (2 ^ lo), Nat.mul_add_mod, Nat.mod_mod]

theorem bitsOf_setBitsOf_above (n hi lo v hi' lo' : Nat) (h : lo ≤ hi) (hd : hi < lo') :
    bitsOf (setBitsOf n hi lo v) hi' lo' = bitsOf n hi' lo' := by
  have e (m : Nat) : m >>> lo' = m / 2 ^ (hi + 1) / 2 ^ (lo' - (hi + 1)) := by
    rw [Nat.shiftRight_eq_div_pow, Nat.div_div_eq_div_mul, ← Nat.pow_add]; congr 2; omega
  rw [bitsOf, bitsOf, e, e, setBitsOf_high n hi lo v h]

theorem bitsOf_mod (n hi lo k : Nat) (h : lo ≤ hi) (hk : hi < k) : bitsOf (n % 2 ^ k) hi lo = bitsOf n hi lo := by
  apply Nat.eq_of_testBit_eq
  intro i
  simp only [bitsOf, Nat.testBit_mod_two_pow, Nat.testBit_shiftRight]
  by_cases c : i < hi + 1 - lo
  · simp [c]; intro; omega
  · simp [c]

theorem bitsOf_setBitsOf_below (n hi lo v hi' lo' : Nat) (h : lo ≤ hi) (h' : lo' ≤ hi') (hd : hi' < lo) :
    bitsOf (setBitsOf n hi lo v) hi' lo' = bitsOf n hi' lo' := by
  rw [← bitsOf_mod _ hi' lo' lo h' hd, setBitsOf_low n hi lo v h, bitsOf_mod _ hi' lo' lo h' hd]

theorem wSetField_toNat (w : Word) (hi lo v : Nat) (h : lo ≤ hi) (hh : hi < 32) :
    (wSetField w hi lo v).toNat = setBitsOf w.toNat hi lo v := by
  rw [wSetField, BitVec.toNat_ofNat, Nat.mod_eq_of_lt (setBitsOf_lt _ _ _ _ h hh w.isLt)]

/-- The field that was set. -/
theorem wField_wSetField_same (w : Word) (hi lo v : Nat) (h : lo ≤ hi) (hh : hi < 32) :
    wField (wSetField w hi lo v) hi lo = v % 2 ^ (hi + 1 - lo) := by
  rw [wField, wSetField_toNat w hi lo v h hh, bitsOf_setBitsOf_same _ _ _ _ h]

/-- A field that does not overlap the one that was set. -/
theorem wField_wSetField_other (w : Word) (hi lo v hi' lo' : Nat) (h : lo ≤ hi) (hh : hi < 32) (h' : lo' ≤ hi')
    (hd : hi' < lo ∨ hi < lo') : wField (wSetField w hi lo v) hi' lo' = wField w hi' lo' := by
  rw [wField, wSetField_toNat w hi lo v h hh, wField]
  rcases hd with hd | hd
  · exact bitsOf_setBitsOf_below _ _ _ _ _ _ h h' hd
  · exact bitsOf_setBitsOf_above _ _ _ _ _ _ h hd

/-! ### Live registers of a state -/

@[simp] theorem State.rd_wr_same (s : State) (off : Nat) (w : Word) : (s.wr off w).rd off = w := by
  simp [State.rd, State.wr]

theorem State.rd_wr_other (s : State) (off o : Nat) (w : Word) (h : o ≠ off) : (s.wr off w).rd o = s.rd o := by
  simp [State.rd, State.wr, smGet_smSet_other _ _ _ _ _ _ h]

@[simp] theorem State.rdStaged_wrStaged_same (s : State) (off : Nat) (w : Word) : (s.wrStaged off w).rdStaged off = w := by
  simp [State.rdStaged, State.wrStaged]

theorem State.rdStaged_wrStaged_other (s : State) (off o : Nat) (w : Word) (h : o ≠ off) :
    (s.wrStaged off w).rdStaged o = s.rdStaged o := by
  simp [State.rdStaged, State.wrStaged, smGet_smSet_other _ _ _ _ _ _ h]

/-- The fields of the register map lie in a word. -/
def Fld.ok (f : Fld) : Prop := f.lo ≤ f.hi ∧ f.hi < 32

theorem State.fld_setFld_same (s : State) (f : Fld) (v : Nat) (h : Fld.ok f) :
    (s.setFld f v).fld f = v % 2 ^ (f.hi + 1 - f.lo) := by
  simp [State.fld, State.setFld, wField_wSetField_same _ _ _ _ h.1 h.2]

theorem State.fld_setFld_other (s : State) (f g : Fld) (v : Nat) (hf : Fld.ok f) (hg : Fld.ok g)
    (h : g.off ≠ f.off ∨ g.hi < f.lo ∨ f.hi < g.lo) : (s.setFld f v).fld g = s.fld g := by
  by_cases e : g.off = f.off
  · rw [State.fld, State.setFld, e, State.rd_wr_same, State.fld, e]
    exact wField_wSetField_other _ _ _ _ _ _ hf.1 hf.2 hg.1 (by omega)
  · rw [State.fld, State.setFld, State.rd_wr_other _ _ _ _ e, State.fld]

theorem State.rd_setFld_other (s : State) (f : Fld) (v o : Nat) (h : o ≠ f.off) : (s.setFld f v).rd o = s.rd o :=
  State.rd_wr_other _ _ _ _ h

theorem State.flag_setFlag_same (s : State) (f : Fld) (b : Bool) (h : Fld.ok f) : (s.setFlag f b).flag f = b := by
  rw [State.flag, State.setFlag, State.fld_setFld_same _ _ _ h]
  have : 1 < 2 ^ (f.hi + 1 - f.lo) := Nat.one_lt_two_pow (by have := h.1; omega)
  cases b
  · simp [b2n]
  · simp only [b2n, if_true]; rw [Nat.mod_eq_of_lt this]; simp

end Sys2Proof.Machine
end

