-- ==== Sys2Proof/Laws/State.lean ====
section
/-! SUPPORT. What each named update of the state leaves: one lemma per update and field. -/
namespace Sys2Proof.Machine

/-! ### wr -/

@[simp] theorem State.wr_pending (s : State) (off : Nat) (w : Word) : (s.wr off w).pending = s.pending := rfl
@[simp] theorem State.wr_cycle (s : State) (off : Nat) (w : Word) : (s.wr off w).cycle = s.cycle := rfl
@[simp] theorem State.wr_cyc (s : State) (off : Nat) (w : Word) : (s.wr off w).cyc = s.cyc := rfl
@[simp] theorem State.wr_staged (s : State) (off : Nat) (w : Word) : (s.wr off w).staged = s.staged := rfl
@[simp] theorem State.wr_ecc (s : State) (off : Nat) (w : Word) : (s.wr off w).ecc = s.ecc := rfl
@[simp] theorem State.wr_irqEcc (s : State) (off : Nat) (w : Word) : (s.wr off w).irqEcc = s.irqEcc := rfl
@[simp] theorem State.wr_freeCtr (s : State) (off : Nat) (w : Word) : (s.wr off w).freeCtr = s.freeCtr := rfl
@[simp] theorem State.wr_sram (s : State) (off : Nat) (w : Word) : (s.wr off w).sram = s.sram := rfl
@[simp] theorem State.wr_irq (s : State) (off : Nat) (w : Word) : (s.wr off w).irq = s.irq := rfl
@[simp] theorem State.wr_tmr (s : State) (off : Nat) (w : Word) : (s.wr off w).tmr = s.tmr := rfl
@[simp] theorem State.wr_pin (s : State) (off : Nat) (w : Word) : (s.wr off w).pin = s.pin := rfl
@[simp] theorem State.wr_img (s : State) (off : Nat) (w : Word) : (s.wr off w).img = s.img := rfl
@[simp] theorem State.wr_pcie (s : State) (off : Nat) (w : Word) : (s.wr off w).pcie = s.pcie := rfl
@[simp] theorem State.wr_rst (s : State) (off : Nat) (w : Word) : (s.wr off w).rst = s.rst := rfl
@[simp] theorem State.wr_flt (s : State) (off : Nat) (w : Word) : (s.wr off w).flt = s.flt := rfl
@[simp] theorem State.wr_tb (s : State) (off : Nat) (w : Word) : (s.wr off w).tb = s.tb := rfl
@[simp] theorem State.wr_flip (s : State) (off : Nat) (w : Word) : (s.wr off w).flip = s.flip := rfl
@[simp] theorem State.wr_rel (s : State) (off : Nat) (w : Word) : (s.wr off w).rel = s.rel := rfl
@[simp] theorem State.wr_lnk (s : State) (off : Nat) (w : Word) : (s.wr off w).lnk = s.lnk := rfl
@[simp] theorem State.wr_mdr (s : State) (off : Nat) (w : Word) : (s.wr off w).mdr = s.mdr := rfl
@[simp] theorem State.wr_ing (s : State) (off : Nat) (w : Word) : (s.wr off w).ing = s.ing := rfl
@[simp] theorem State.wr_cnd (s : State) (off : Nat) (w : Word) : (s.wr off w).cnd = s.cnd := rfl
@[simp] theorem State.wr_pf (s : State) (off : Nat) (w : Word) : (s.wr off w).pf = s.pf := rfl
@[simp] theorem State.wr_obj (s : State) (off : Nat) (w : Word) : (s.wr off w).obj = s.obj := rfl
@[simp] theorem State.wr_dec (s : State) (off : Nat) (w : Word) : (s.wr off w).dec = s.dec := rfl
@[simp] theorem State.wr_ro (s : State) (off : Nat) (w : Word) : (s.wr off w).ro = s.ro := rfl
@[simp] theorem State.wr_qm (s : State) (off : Nat) (w : Word) : (s.wr off w).qm = s.qm := rfl
@[simp] theorem State.wr_dma (s : State) (off : Nat) (w : Word) : (s.wr off w).dma = s.dma := rfl
@[simp] theorem State.wr_dram (s : State) (off : Nat) (w : Word) : (s.wr off w).dram = s.dram := rfl
@[simp] theorem State.wr_resp (s : State) (off : Nat) (w : Word) : (s.wr off w).resp = s.resp := rfl
@[simp] theorem State.wr_srv (s : State) (off : Nat) (w : Word) : (s.wr off w).srv = s.srv := rfl
@[simp] theorem State.wr_cvl (s : State) (off : Nat) (w : Word) : (s.wr off w).cvl = s.cvl := rfl
@[simp] theorem State.wr_vox (s : State) (off : Nat) (w : Word) : (s.wr off w).vox = s.vox := rfl
@[simp] theorem State.wr_sep (s : State) (off : Nat) (w : Word) : (s.wr off w).sep = s.sep := rfl

/-! ### wrStaged -/

@[simp] theorem State.wrStaged_pending (s : State) (off : Nat) (w : Word) : (s.wrStaged off w).pending = s.pending := rfl
@[simp] theorem State.wrStaged_cycle (s : State) (off : Nat) (w : Word) : (s.wrStaged off w).cycle = s.cycle := rfl
@[simp] theorem State.wrStaged_cyc (s : State) (off : Nat) (w : Word) : (s.wrStaged off w).cyc = s.cyc := rfl
@[simp] theorem State.wrStaged_regs (s : State) (off : Nat) (w : Word) : (s.wrStaged off w).regs = s.regs := rfl
@[simp] theorem State.wrStaged_ecc (s : State) (off : Nat) (w : Word) : (s.wrStaged off w).ecc = s.ecc := rfl
@[simp] theorem State.wrStaged_irqEcc (s : State) (off : Nat) (w : Word) : (s.wrStaged off w).irqEcc = s.irqEcc := rfl
@[simp] theorem State.wrStaged_freeCtr (s : State) (off : Nat) (w : Word) : (s.wrStaged off w).freeCtr = s.freeCtr := rfl
@[simp] theorem State.wrStaged_sram (s : State) (off : Nat) (w : Word) : (s.wrStaged off w).sram = s.sram := rfl
@[simp] theorem State.wrStaged_irq (s : State) (off : Nat) (w : Word) : (s.wrStaged off w).irq = s.irq := rfl
@[simp] theorem State.wrStaged_tmr (s : State) (off : Nat) (w : Word) : (s.wrStaged off w).tmr = s.tmr := rfl
@[simp] theorem State.wrStaged_pin (s : State) (off : Nat) (w : Word) : (s.wrStaged off w).pin = s.pin := rfl
@[simp] theorem State.wrStaged_img (s : State) (off : Nat) (w : Word) : (s.wrStaged off w).img = s.img := rfl
@[simp] theorem State.wrStaged_pcie (s : State) (off : Nat) (w : Word) : (s.wrStaged off w).pcie = s.pcie := rfl
@[simp] theorem State.wrStaged_rst (s : State) (off : Nat) (w : Word) : (s.wrStaged off w).rst = s.rst := rfl
@[simp] theorem State.wrStaged_flt (s : State) (off : Nat) (w : Word) : (s.wrStaged off w).flt = s.flt := rfl
@[simp] theorem State.wrStaged_tb (s : State) (off : Nat) (w : Word) : (s.wrStaged off w).tb = s.tb := rfl
@[simp] theorem State.wrStaged_flip (s : State) (off : Nat) (w : Word) : (s.wrStaged off w).flip = s.flip := rfl
@[simp] theorem State.wrStaged_rel (s : State) (off : Nat) (w : Word) : (s.wrStaged off w).rel = s.rel := rfl
@[simp] theorem State.wrStaged_lnk (s : State) (off : Nat) (w : Word) : (s.wrStaged off w).lnk = s.lnk := rfl
@[simp] theorem State.wrStaged_mdr (s : State) (off : Nat) (w : Word) : (s.wrStaged off w).mdr = s.mdr := rfl
@[simp] theorem State.wrStaged_ing (s : State) (off : Nat) (w : Word) : (s.wrStaged off w).ing = s.ing := rfl
@[simp] theorem State.wrStaged_cnd (s : State) (off : Nat) (w : Word) : (s.wrStaged off w).cnd = s.cnd := rfl
@[simp] theorem State.wrStaged_pf (s : State) (off : Nat) (w : Word) : (s.wrStaged off w).pf = s.pf := rfl
@[simp] theorem State.wrStaged_obj (s : State) (off : Nat) (w : Word) : (s.wrStaged off w).obj = s.obj := rfl
@[simp] theorem State.wrStaged_dec (s : State) (off : Nat) (w : Word) : (s.wrStaged off w).dec = s.dec := rfl
@[simp] theorem State.wrStaged_ro (s : State) (off : Nat) (w : Word) : (s.wrStaged off w).ro = s.ro := rfl
@[simp] theorem State.wrStaged_qm (s : State) (off : Nat) (w : Word) : (s.wrStaged off w).qm = s.qm := rfl
@[simp] theorem State.wrStaged_dma (s : State) (off : Nat) (w : Word) : (s.wrStaged off w).dma = s.dma := rfl
@[simp] theorem State.wrStaged_dram (s : State) (off : Nat) (w : Word) : (s.wrStaged off w).dram = s.dram := rfl
@[simp] theorem State.wrStaged_resp (s : State) (off : Nat) (w : Word) : (s.wrStaged off w).resp = s.resp := rfl
@[simp] theorem State.wrStaged_srv (s : State) (off : Nat) (w : Word) : (s.wrStaged off w).srv = s.srv := rfl
@[simp] theorem State.wrStaged_cvl (s : State) (off : Nat) (w : Word) : (s.wrStaged off w).cvl = s.cvl := rfl
@[simp] theorem State.wrStaged_vox (s : State) (off : Nat) (w : Word) : (s.wrStaged off w).vox = s.vox := rfl
@[simp] theorem State.wrStaged_sep (s : State) (off : Nat) (w : Word) : (s.wrStaged off w).sep = s.sep := rfl
@[simp] theorem State.wrStaged_rd (s : State) (off : Nat) (w : Word) (o : Nat) : (s.wrStaged off w).rd o = s.rd o := rfl
@[simp] theorem State.wrStaged_fld (s : State) (off : Nat) (w : Word) (g : Fld) : (s.wrStaged off w).fld g = s.fld g := rfl
@[simp] theorem State.wrStaged_flag (s : State) (off : Nat) (w : Word) (g : Fld) : (s.wrStaged off w).flag g = s.flag g := rfl
@[simp] theorem State.wrStaged_up (s : State) (off : Nat) (w : Word) (d : Nat) : (s.wrStaged off w).up d = s.up d := rfl

/-! ### setFld -/

@[simp] theorem State.setFld_pending (s : State) (f : Fld) (v : Nat) : (s.setFld f v).pending = s.pending := rfl
@[simp] theorem State.setFld_cycle (s : State) (f : Fld) (v : Nat) : (s.setFld f v).cycle = s.cycle := rfl
@[simp] theorem State.setFld_cyc (s : State) (f : Fld) (v : Nat) : (s.setFld f v).cyc = s.cyc := rfl
@[simp] theorem State.setFld_staged (s : State) (f : Fld) (v : Nat) : (s.setFld f v).staged = s.staged := rfl
@[simp] theorem State.setFld_ecc (s : State) (f : Fld) (v : Nat) : (s.setFld f v).ecc = s.ecc := rfl
@[simp] theorem State.setFld_irqEcc (s : State) (f : Fld) (v : Nat) : (s.setFld f v).irqEcc = s.irqEcc := rfl
@[simp] theorem State.setFld_freeCtr (s : State) (f : Fld) (v : Nat) : (s.setFld f v).freeCtr = s.freeCtr := rfl
@[simp] theorem State.setFld_sram (s : State) (f : Fld) (v : Nat) : (s.setFld f v).sram = s.sram := rfl
@[simp] theorem State.setFld_irq (s : State) (f : Fld) (v : Nat) : (s.setFld f v).irq = s.irq := rfl
@[simp] theorem State.setFld_tmr (s : State) (f : Fld) (v : Nat) : (s.setFld f v).tmr = s.tmr := rfl
@[simp] theorem State.setFld_pin (s : State) (f : Fld) (v : Nat) : (s.setFld f v).pin = s.pin := rfl
@[simp] theorem State.setFld_img (s : State) (f : Fld) (v : Nat) : (s.setFld f v).img = s.img := rfl
@[simp] theorem State.setFld_pcie (s : State) (f : Fld) (v : Nat) : (s.setFld f v).pcie = s.pcie := rfl
@[simp] theorem State.setFld_rst (s : State) (f : Fld) (v : Nat) : (s.setFld f v).rst = s.rst := rfl
@[simp] theorem State.setFld_flt (s : State) (f : Fld) (v : Nat) : (s.setFld f v).flt = s.flt := rfl
@[simp] theorem State.setFld_tb (s : State) (f : Fld) (v : Nat) : (s.setFld f v).tb = s.tb := rfl
@[simp] theorem State.setFld_flip (s : State) (f : Fld) (v : Nat) : (s.setFld f v).flip = s.flip := rfl
@[simp] theorem State.setFld_rel (s : State) (f : Fld) (v : Nat) : (s.setFld f v).rel = s.rel := rfl
@[simp] theorem State.setFld_lnk (s : State) (f : Fld) (v : Nat) : (s.setFld f v).lnk = s.lnk := rfl
@[simp] theorem State.setFld_mdr (s : State) (f : Fld) (v : Nat) : (s.setFld f v).mdr = s.mdr := rfl
@[simp] theorem State.setFld_ing (s : State) (f : Fld) (v : Nat) : (s.setFld f v).ing = s.ing := rfl
@[simp] theorem State.setFld_cnd (s : State) (f : Fld) (v : Nat) : (s.setFld f v).cnd = s.cnd := rfl
@[simp] theorem State.setFld_pf (s : State) (f : Fld) (v : Nat) : (s.setFld f v).pf = s.pf := rfl
@[simp] theorem State.setFld_obj (s : State) (f : Fld) (v : Nat) : (s.setFld f v).obj = s.obj := rfl
@[simp] theorem State.setFld_dec (s : State) (f : Fld) (v : Nat) : (s.setFld f v).dec = s.dec := rfl
@[simp] theorem State.setFld_ro (s : State) (f : Fld) (v : Nat) : (s.setFld f v).ro = s.ro := rfl
@[simp] theorem State.setFld_qm (s : State) (f : Fld) (v : Nat) : (s.setFld f v).qm = s.qm := rfl
@[simp] theorem State.setFld_dma (s : State) (f : Fld) (v : Nat) : (s.setFld f v).dma = s.dma := rfl
@[simp] theorem State.setFld_dram (s : State) (f : Fld) (v : Nat) : (s.setFld f v).dram = s.dram := rfl
@[simp] theorem State.setFld_resp (s : State) (f : Fld) (v : Nat) : (s.setFld f v).resp = s.resp := rfl
@[simp] theorem State.setFld_srv (s : State) (f : Fld) (v : Nat) : (s.setFld f v).srv = s.srv := rfl
@[simp] theorem State.setFld_cvl (s : State) (f : Fld) (v : Nat) : (s.setFld f v).cvl = s.cvl := rfl
@[simp] theorem State.setFld_vox (s : State) (f : Fld) (v : Nat) : (s.setFld f v).vox = s.vox := rfl
@[simp] theorem State.setFld_sep (s : State) (f : Fld) (v : Nat) : (s.setFld f v).sep = s.sep := rfl

/-! ### setFlag -/

@[simp] theorem State.setFlag_pending (s : State) (f : Fld) (b : Bool) : (s.setFlag f b).pending = s.pending := rfl
@[simp] theorem State.setFlag_cycle (s : State) (f : Fld) (b : Bool) : (s.setFlag f b).cycle = s.cycle := rfl
@[simp] theorem State.setFlag_cyc (s : State) (f : Fld) (b : Bool) : (s.setFlag f b).cyc = s.cyc := rfl
@[simp] theorem State.setFlag_staged (s : State) (f : Fld) (b : Bool) : (s.setFlag f b).staged = s.staged := rfl
@[simp] theorem State.setFlag_ecc (s : State) (f : Fld) (b : Bool) : (s.setFlag f b).ecc = s.ecc := rfl
@[simp] theorem State.setFlag_irqEcc (s : State) (f : Fld) (b : Bool) : (s.setFlag f b).irqEcc = s.irqEcc := rfl
@[simp] theorem State.setFlag_freeCtr (s : State) (f : Fld) (b : Bool) : (s.setFlag f b).freeCtr = s.freeCtr := rfl
@[simp] theorem State.setFlag_sram (s : State) (f : Fld) (b : Bool) : (s.setFlag f b).sram = s.sram := rfl
@[simp] theorem State.setFlag_irq (s : State) (f : Fld) (b : Bool) : (s.setFlag f b).irq = s.irq := rfl
@[simp] theorem State.setFlag_tmr (s : State) (f : Fld) (b : Bool) : (s.setFlag f b).tmr = s.tmr := rfl
@[simp] theorem State.setFlag_pin (s : State) (f : Fld) (b : Bool) : (s.setFlag f b).pin = s.pin := rfl
@[simp] theorem State.setFlag_img (s : State) (f : Fld) (b : Bool) : (s.setFlag f b).img = s.img := rfl
@[simp] theorem State.setFlag_pcie (s : State) (f : Fld) (b : Bool) : (s.setFlag f b).pcie = s.pcie := rfl
@[simp] theorem State.setFlag_rst (s : State) (f : Fld) (b : Bool) : (s.setFlag f b).rst = s.rst := rfl
@[simp] theorem State.setFlag_flt (s : State) (f : Fld) (b : Bool) : (s.setFlag f b).flt = s.flt := rfl
@[simp] theorem State.setFlag_tb (s : State) (f : Fld) (b : Bool) : (s.setFlag f b).tb = s.tb := rfl
@[simp] theorem State.setFlag_flip (s : State) (f : Fld) (b : Bool) : (s.setFlag f b).flip = s.flip := rfl
@[simp] theorem State.setFlag_rel (s : State) (f : Fld) (b : Bool) : (s.setFlag f b).rel = s.rel := rfl
@[simp] theorem State.setFlag_lnk (s : State) (f : Fld) (b : Bool) : (s.setFlag f b).lnk = s.lnk := rfl
@[simp] theorem State.setFlag_mdr (s : State) (f : Fld) (b : Bool) : (s.setFlag f b).mdr = s.mdr := rfl
@[simp] theorem State.setFlag_ing (s : State) (f : Fld) (b : Bool) : (s.setFlag f b).ing = s.ing := rfl
@[simp] theorem State.setFlag_cnd (s : State) (f : Fld) (b : Bool) : (s.setFlag f b).cnd = s.cnd := rfl
@[simp] theorem State.setFlag_pf (s : State) (f : Fld) (b : Bool) : (s.setFlag f b).pf = s.pf := rfl
@[simp] theorem State.setFlag_obj (s : State) (f : Fld) (b : Bool) : (s.setFlag f b).obj = s.obj := rfl
@[simp] theorem State.setFlag_dec (s : State) (f : Fld) (b : Bool) : (s.setFlag f b).dec = s.dec := rfl
@[simp] theorem State.setFlag_ro (s : State) (f : Fld) (b : Bool) : (s.setFlag f b).ro = s.ro := rfl
@[simp] theorem State.setFlag_qm (s : State) (f : Fld) (b : Bool) : (s.setFlag f b).qm = s.qm := rfl
@[simp] theorem State.setFlag_dma (s : State) (f : Fld) (b : Bool) : (s.setFlag f b).dma = s.dma := rfl
@[simp] theorem State.setFlag_dram (s : State) (f : Fld) (b : Bool) : (s.setFlag f b).dram = s.dram := rfl
@[simp] theorem State.setFlag_resp (s : State) (f : Fld) (b : Bool) : (s.setFlag f b).resp = s.resp := rfl
@[simp] theorem State.setFlag_srv (s : State) (f : Fld) (b : Bool) : (s.setFlag f b).srv = s.srv := rfl
@[simp] theorem State.setFlag_cvl (s : State) (f : Fld) (b : Bool) : (s.setFlag f b).cvl = s.cvl := rfl
@[simp] theorem State.setFlag_vox (s : State) (f : Fld) (b : Bool) : (s.setFlag f b).vox = s.vox := rfl
@[simp] theorem State.setFlag_sep (s : State) (f : Fld) (b : Bool) : (s.setFlag f b).sep = s.sep := rfl

/-! ### noteEvent -/

@[simp] theorem State.noteEvent_pending (s : State) (off : Nat) (e : RegEvent) : (s.noteEvent off e).pending = s.pending := rfl
@[simp] theorem State.noteEvent_cycle (s : State) (off : Nat) (e : RegEvent) : (s.noteEvent off e).cycle = s.cycle := rfl
@[simp] theorem State.noteEvent_regs (s : State) (off : Nat) (e : RegEvent) : (s.noteEvent off e).regs = s.regs := rfl
@[simp] theorem State.noteEvent_staged (s : State) (off : Nat) (e : RegEvent) : (s.noteEvent off e).staged = s.staged := rfl
@[simp] theorem State.noteEvent_ecc (s : State) (off : Nat) (e : RegEvent) : (s.noteEvent off e).ecc = s.ecc := rfl
@[simp] theorem State.noteEvent_irqEcc (s : State) (off : Nat) (e : RegEvent) : (s.noteEvent off e).irqEcc = s.irqEcc := rfl
@[simp] theorem State.noteEvent_freeCtr (s : State) (off : Nat) (e : RegEvent) : (s.noteEvent off e).freeCtr = s.freeCtr := rfl
@[simp] theorem State.noteEvent_sram (s : State) (off : Nat) (e : RegEvent) : (s.noteEvent off e).sram = s.sram := rfl
@[simp] theorem State.noteEvent_irq (s : State) (off : Nat) (e : RegEvent) : (s.noteEvent off e).irq = s.irq := rfl
@[simp] theorem State.noteEvent_tmr (s : State) (off : Nat) (e : RegEvent) : (s.noteEvent off e).tmr = s.tmr := rfl
@[simp] theorem State.noteEvent_pin (s : State) (off : Nat) (e : RegEvent) : (s.noteEvent off e).pin = s.pin := rfl
@[simp] theorem State.noteEvent_img (s : State) (off : Nat) (e : RegEvent) : (s.noteEvent off e).img = s.img := rfl
@[simp] theorem State.noteEvent_pcie (s : State) (off : Nat) (e : RegEvent) : (s.noteEvent off e).pcie = s.pcie := rfl
@[simp] theorem State.noteEvent_rst (s : State) (off : Nat) (e : RegEvent) : (s.noteEvent off e).rst = s.rst := rfl
@[simp] theorem State.noteEvent_flt (s : State) (off : Nat) (e : RegEvent) : (s.noteEvent off e).flt = s.flt := rfl
@[simp] theorem State.noteEvent_tb (s : State) (off : Nat) (e : RegEvent) : (s.noteEvent off e).tb = s.tb := rfl
@[simp] theorem State.noteEvent_flip (s : State) (off : Nat) (e : RegEvent) : (s.noteEvent off e).flip = s.flip := rfl
@[simp] theorem State.noteEvent_rel (s : State) (off : Nat) (e : RegEvent) : (s.noteEvent off e).rel = s.rel := rfl
@[simp] theorem State.noteEvent_lnk (s : State) (off : Nat) (e : RegEvent) : (s.noteEvent off e).lnk = s.lnk := rfl
@[simp] theorem State.noteEvent_mdr (s : State) (off : Nat) (e : RegEvent) : (s.noteEvent off e).mdr = s.mdr := rfl
@[simp] theorem State.noteEvent_ing (s : State) (off : Nat) (e : RegEvent) : (s.noteEvent off e).ing = s.ing := rfl
@[simp] theorem State.noteEvent_cnd (s : State) (off : Nat) (e : RegEvent) : (s.noteEvent off e).cnd = s.cnd := rfl
@[simp] theorem State.noteEvent_pf (s : State) (off : Nat) (e : RegEvent) : (s.noteEvent off e).pf = s.pf := rfl
@[simp] theorem State.noteEvent_obj (s : State) (off : Nat) (e : RegEvent) : (s.noteEvent off e).obj = s.obj := rfl
@[simp] theorem State.noteEvent_dec (s : State) (off : Nat) (e : RegEvent) : (s.noteEvent off e).dec = s.dec := rfl
@[simp] theorem State.noteEvent_ro (s : State) (off : Nat) (e : RegEvent) : (s.noteEvent off e).ro = s.ro := rfl
@[simp] theorem State.noteEvent_qm (s : State) (off : Nat) (e : RegEvent) : (s.noteEvent off e).qm = s.qm := rfl
@[simp] theorem State.noteEvent_dma (s : State) (off : Nat) (e : RegEvent) : (s.noteEvent off e).dma = s.dma := rfl
@[simp] theorem State.noteEvent_dram (s : State) (off : Nat) (e : RegEvent) : (s.noteEvent off e).dram = s.dram := rfl
@[simp] theorem State.noteEvent_resp (s : State) (off : Nat) (e : RegEvent) : (s.noteEvent off e).resp = s.resp := rfl
@[simp] theorem State.noteEvent_srv (s : State) (off : Nat) (e : RegEvent) : (s.noteEvent off e).srv = s.srv := rfl
@[simp] theorem State.noteEvent_cvl (s : State) (off : Nat) (e : RegEvent) : (s.noteEvent off e).cvl = s.cvl := rfl
@[simp] theorem State.noteEvent_vox (s : State) (off : Nat) (e : RegEvent) : (s.noteEvent off e).vox = s.vox := rfl
@[simp] theorem State.noteEvent_sep (s : State) (off : Nat) (e : RegEvent) : (s.noteEvent off e).sep = s.sep := rfl
@[simp] theorem State.noteEvent_rd (s : State) (off : Nat) (e : RegEvent) (o : Nat) : (s.noteEvent off e).rd o = s.rd o := rfl
@[simp] theorem State.noteEvent_fld (s : State) (off : Nat) (e : RegEvent) (g : Fld) : (s.noteEvent off e).fld g = s.fld g := rfl
@[simp] theorem State.noteEvent_flag (s : State) (off : Nat) (e : RegEvent) (g : Fld) : (s.noteEvent off e).flag g = s.flag g := rfl
@[simp] theorem State.noteEvent_up (s : State) (off : Nat) (e : RegEvent) (d : Nat) : (s.noteEvent off e).up d = s.up d := rfl

/-! ### event -/

@[simp] theorem State.event_pending (s : State) (f : Fld) : (s.event f).pending = s.pending := rfl
@[simp] theorem State.event_cycle (s : State) (f : Fld) : (s.event f).cycle = s.cycle := rfl
@[simp] theorem State.event_staged (s : State) (f : Fld) : (s.event f).staged = s.staged := rfl
@[simp] theorem State.event_ecc (s : State) (f : Fld) : (s.event f).ecc = s.ecc := rfl
@[simp] theorem State.event_irqEcc (s : State) (f : Fld) : (s.event f).irqEcc = s.irqEcc := rfl
@[simp] theorem State.event_freeCtr (s : State) (f : Fld) : (s.event f).freeCtr = s.freeCtr := rfl
@[simp] theorem State.event_sram (s : State) (f : Fld) : (s.event f).sram = s.sram := rfl
@[simp] theorem State.event_irq (s : State) (f : Fld) : (s.event f).irq = s.irq := rfl
@[simp] theorem State.event_tmr (s : State) (f : Fld) : (s.event f).tmr = s.tmr := rfl
@[simp] theorem State.event_pin (s : State) (f : Fld) : (s.event f).pin = s.pin := rfl
@[simp] theorem State.event_img (s : State) (f : Fld) : (s.event f).img = s.img := rfl
@[simp] theorem State.event_pcie (s : State) (f : Fld) : (s.event f).pcie = s.pcie := rfl
@[simp] theorem State.event_rst (s : State) (f : Fld) : (s.event f).rst = s.rst := rfl
@[simp] theorem State.event_flt (s : State) (f : Fld) : (s.event f).flt = s.flt := rfl
@[simp] theorem State.event_tb (s : State) (f : Fld) : (s.event f).tb = s.tb := rfl
@[simp] theorem State.event_flip (s : State) (f : Fld) : (s.event f).flip = s.flip := rfl
@[simp] theorem State.event_rel (s : State) (f : Fld) : (s.event f).rel = s.rel := rfl
@[simp] theorem State.event_lnk (s : State) (f : Fld) : (s.event f).lnk = s.lnk := rfl
@[simp] theorem State.event_mdr (s : State) (f : Fld) : (s.event f).mdr = s.mdr := rfl
@[simp] theorem State.event_ing (s : State) (f : Fld) : (s.event f).ing = s.ing := rfl
@[simp] theorem State.event_cnd (s : State) (f : Fld) : (s.event f).cnd = s.cnd := rfl
@[simp] theorem State.event_pf (s : State) (f : Fld) : (s.event f).pf = s.pf := rfl
@[simp] theorem State.event_obj (s : State) (f : Fld) : (s.event f).obj = s.obj := rfl
@[simp] theorem State.event_dec (s : State) (f : Fld) : (s.event f).dec = s.dec := rfl
@[simp] theorem State.event_ro (s : State) (f : Fld) : (s.event f).ro = s.ro := rfl
@[simp] theorem State.event_qm (s : State) (f : Fld) : (s.event f).qm = s.qm := rfl
@[simp] theorem State.event_dma (s : State) (f : Fld) : (s.event f).dma = s.dma := rfl
@[simp] theorem State.event_dram (s : State) (f : Fld) : (s.event f).dram = s.dram := rfl
@[simp] theorem State.event_resp (s : State) (f : Fld) : (s.event f).resp = s.resp := rfl
@[simp] theorem State.event_srv (s : State) (f : Fld) : (s.event f).srv = s.srv := rfl
@[simp] theorem State.event_cvl (s : State) (f : Fld) : (s.event f).cvl = s.cvl := rfl
@[simp] theorem State.event_vox (s : State) (f : Fld) : (s.event f).vox = s.vox := rfl
@[simp] theorem State.event_sep (s : State) (f : Fld) : (s.event f).sep = s.sep := rfl

/-! ### count -/

@[simp] theorem State.count_pending (s : State) (f : Fld) (n : Nat) : (s.count f n).pending = s.pending := rfl
@[simp] theorem State.count_cycle (s : State) (f : Fld) (n : Nat) : (s.count f n).cycle = s.cycle := rfl
@[simp] theorem State.count_staged (s : State) (f : Fld) (n : Nat) : (s.count f n).staged = s.staged := rfl
@[simp] theorem State.count_ecc (s : State) (f : Fld) (n : Nat) : (s.count f n).ecc = s.ecc := rfl
@[simp] theorem State.count_irqEcc (s : State) (f : Fld) (n : Nat) : (s.count f n).irqEcc = s.irqEcc := rfl
@[simp] theorem State.count_freeCtr (s : State) (f : Fld) (n : Nat) : (s.count f n).freeCtr = s.freeCtr := rfl
@[simp] theorem State.count_sram (s : State) (f : Fld) (n : Nat) : (s.count f n).sram = s.sram := rfl
@[simp] theorem State.count_irq (s : State) (f : Fld) (n : Nat) : (s.count f n).irq = s.irq := rfl
@[simp] theorem State.count_tmr (s : State) (f : Fld) (n : Nat) : (s.count f n).tmr = s.tmr := rfl
@[simp] theorem State.count_pin (s : State) (f : Fld) (n : Nat) : (s.count f n).pin = s.pin := rfl
@[simp] theorem State.count_img (s : State) (f : Fld) (n : Nat) : (s.count f n).img = s.img := rfl
@[simp] theorem State.count_pcie (s : State) (f : Fld) (n : Nat) : (s.count f n).pcie = s.pcie := rfl
@[simp] theorem State.count_rst (s : State) (f : Fld) (n : Nat) : (s.count f n).rst = s.rst := rfl
@[simp] theorem State.count_flt (s : State) (f : Fld) (n : Nat) : (s.count f n).flt = s.flt := rfl
@[simp] theorem State.count_tb (s : State) (f : Fld) (n : Nat) : (s.count f n).tb = s.tb := rfl
@[simp] theorem State.count_flip (s : State) (f : Fld) (n : Nat) : (s.count f n).flip = s.flip := rfl
@[simp] theorem State.count_rel (s : State) (f : Fld) (n : Nat) : (s.count f n).rel = s.rel := rfl
@[simp] theorem State.count_lnk (s : State) (f : Fld) (n : Nat) : (s.count f n).lnk = s.lnk := rfl
@[simp] theorem State.count_mdr (s : State) (f : Fld) (n : Nat) : (s.count f n).mdr = s.mdr := rfl
@[simp] theorem State.count_ing (s : State) (f : Fld) (n : Nat) : (s.count f n).ing = s.ing := rfl
@[simp] theorem State.count_cnd (s : State) (f : Fld) (n : Nat) : (s.count f n).cnd = s.cnd := rfl
@[simp] theorem State.count_pf (s : State) (f : Fld) (n : Nat) : (s.count f n).pf = s.pf := rfl
@[simp] theorem State.count_obj (s : State) (f : Fld) (n : Nat) : (s.count f n).obj = s.obj := rfl
@[simp] theorem State.count_dec (s : State) (f : Fld) (n : Nat) : (s.count f n).dec = s.dec := rfl
@[simp] theorem State.count_ro (s : State) (f : Fld) (n : Nat) : (s.count f n).ro = s.ro := rfl
@[simp] theorem State.count_qm (s : State) (f : Fld) (n : Nat) : (s.count f n).qm = s.qm := rfl
@[simp] theorem State.count_dma (s : State) (f : Fld) (n : Nat) : (s.count f n).dma = s.dma := rfl
@[simp] theorem State.count_dram (s : State) (f : Fld) (n : Nat) : (s.count f n).dram = s.dram := rfl
@[simp] theorem State.count_resp (s : State) (f : Fld) (n : Nat) : (s.count f n).resp = s.resp := rfl
@[simp] theorem State.count_srv (s : State) (f : Fld) (n : Nat) : (s.count f n).srv = s.srv := rfl
@[simp] theorem State.count_cvl (s : State) (f : Fld) (n : Nat) : (s.count f n).cvl = s.cvl := rfl
@[simp] theorem State.count_vox (s : State) (f : Fld) (n : Nat) : (s.count f n).vox = s.vox := rfl
@[simp] theorem State.count_sep (s : State) (f : Fld) (n : Nat) : (s.count f n).sep = s.sep := rfl

/-! ### answer -/

@[simp] theorem State.answer_pending (s : State) (data : List Nat) (err poison : Bool) : (s.answer data err poison).pending = s.pending := rfl
@[simp] theorem State.answer_cycle (s : State) (data : List Nat) (err poison : Bool) : (s.answer data err poison).cycle = s.cycle := rfl
@[simp] theorem State.answer_cyc (s : State) (data : List Nat) (err poison : Bool) : (s.answer data err poison).cyc = s.cyc := rfl
@[simp] theorem State.answer_regs (s : State) (data : List Nat) (err poison : Bool) : (s.answer data err poison).regs = s.regs := rfl
@[simp] theorem State.answer_staged (s : State) (data : List Nat) (err poison : Bool) : (s.answer data err poison).staged = s.staged := rfl
@[simp] theorem State.answer_ecc (s : State) (data : List Nat) (err poison : Bool) : (s.answer data err poison).ecc = s.ecc := rfl
@[simp] theorem State.answer_irqEcc (s : State) (data : List Nat) (err poison : Bool) : (s.answer data err poison).irqEcc = s.irqEcc := rfl
@[simp] theorem State.answer_freeCtr (s : State) (data : List Nat) (err poison : Bool) : (s.answer data err poison).freeCtr = s.freeCtr := rfl
@[simp] theorem State.answer_sram (s : State) (data : List Nat) (err poison : Bool) : (s.answer data err poison).sram = s.sram := rfl
@[simp] theorem State.answer_irq (s : State) (data : List Nat) (err poison : Bool) : (s.answer data err poison).irq = s.irq := rfl
@[simp] theorem State.answer_tmr (s : State) (data : List Nat) (err poison : Bool) : (s.answer data err poison).tmr = s.tmr := rfl
@[simp] theorem State.answer_pin (s : State) (data : List Nat) (err poison : Bool) : (s.answer data err poison).pin = s.pin := rfl
@[simp] theorem State.answer_img (s : State) (data : List Nat) (err poison : Bool) : (s.answer data err poison).img = s.img := rfl
@[simp] theorem State.answer_pcie (s : State) (data : List Nat) (err poison : Bool) : (s.answer data err poison).pcie = s.pcie := rfl
@[simp] theorem State.answer_rst (s : State) (data : List Nat) (err poison : Bool) : (s.answer data err poison).rst = s.rst := rfl
@[simp] theorem State.answer_flt (s : State) (data : List Nat) (err poison : Bool) : (s.answer data err poison).flt = s.flt := rfl
@[simp] theorem State.answer_tb (s : State) (data : List Nat) (err poison : Bool) : (s.answer data err poison).tb = s.tb := rfl
@[simp] theorem State.answer_flip (s : State) (data : List Nat) (err poison : Bool) : (s.answer data err poison).flip = s.flip := rfl
@[simp] theorem State.answer_rel (s : State) (data : List Nat) (err poison : Bool) : (s.answer data err poison).rel = s.rel := rfl
@[simp] theorem State.answer_lnk (s : State) (data : List Nat) (err poison : Bool) : (s.answer data err poison).lnk = s.lnk := rfl
@[simp] theorem State.answer_mdr (s : State) (data : List Nat) (err poison : Bool) : (s.answer data err poison).mdr = s.mdr := rfl
@[simp] theorem State.answer_ing (s : State) (data : List Nat) (err poison : Bool) : (s.answer data err poison).ing = s.ing := rfl
@[simp] theorem State.answer_cnd (s : State) (data : List Nat) (err poison : Bool) : (s.answer data err poison).cnd = s.cnd := rfl
@[simp] theorem State.answer_pf (s : State) (data : List Nat) (err poison : Bool) : (s.answer data err poison).pf = s.pf := rfl
@[simp] theorem State.answer_obj (s : State) (data : List Nat) (err poison : Bool) : (s.answer data err poison).obj = s.obj := rfl
@[simp] theorem State.answer_dec (s : State) (data : List Nat) (err poison : Bool) : (s.answer data err poison).dec = s.dec := rfl
@[simp] theorem State.answer_ro (s : State) (data : List Nat) (err poison : Bool) : (s.answer data err poison).ro = s.ro := rfl
@[simp] theorem State.answer_qm (s : State) (data : List Nat) (err poison : Bool) : (s.answer data err poison).qm = s.qm := rfl
@[simp] theorem State.answer_dma (s : State) (data : List Nat) (err poison : Bool) : (s.answer data err poison).dma = s.dma := rfl
@[simp] theorem State.answer_dram (s : State) (data : List Nat) (err poison : Bool) : (s.answer data err poison).dram = s.dram := rfl
@[simp] theorem State.answer_srv (s : State) (data : List Nat) (err poison : Bool) : (s.answer data err poison).srv = s.srv := rfl
@[simp] theorem State.answer_cvl (s : State) (data : List Nat) (err poison : Bool) : (s.answer data err poison).cvl = s.cvl := rfl
@[simp] theorem State.answer_vox (s : State) (data : List Nat) (err poison : Bool) : (s.answer data err poison).vox = s.vox := rfl
@[simp] theorem State.answer_sep (s : State) (data : List Nat) (err poison : Bool) : (s.answer data err poison).sep = s.sep := rfl
@[simp] theorem State.answer_rd (s : State) (data : List Nat) (err poison : Bool) (o : Nat) : (s.answer data err poison).rd o = s.rd o := rfl
@[simp] theorem State.answer_fld (s : State) (data : List Nat) (err poison : Bool) (g : Fld) : (s.answer data err poison).fld g = s.fld g := rfl
@[simp] theorem State.answer_flag (s : State) (data : List Nat) (err poison : Bool) (g : Fld) : (s.answer data err poison).flag g = s.flag g := rfl
@[simp] theorem State.answer_up (s : State) (data : List Nat) (err poison : Bool) (d : Nat) : (s.answer data err poison).up d = s.up d := rfl

/-! ### setLane -/

@[simp] theorem State.setLane_pending (s : State) (n : Nat) (x : LaneX) : (s.setLane n x).pending = s.pending := rfl
@[simp] theorem State.setLane_cycle (s : State) (n : Nat) (x : LaneX) : (s.setLane n x).cycle = s.cycle := rfl
@[simp] theorem State.setLane_cyc (s : State) (n : Nat) (x : LaneX) : (s.setLane n x).cyc = s.cyc := rfl
@[simp] theorem State.setLane_regs (s : State) (n : Nat) (x : LaneX) : (s.setLane n x).regs = s.regs := rfl
@[simp] theorem State.setLane_staged (s : State) (n : Nat) (x : LaneX) : (s.setLane n x).staged = s.staged := rfl
@[simp] theorem State.setLane_ecc (s : State) (n : Nat) (x : LaneX) : (s.setLane n x).ecc = s.ecc := rfl
@[simp] theorem State.setLane_irqEcc (s : State) (n : Nat) (x : LaneX) : (s.setLane n x).irqEcc = s.irqEcc := rfl
@[simp] theorem State.setLane_freeCtr (s : State) (n : Nat) (x : LaneX) : (s.setLane n x).freeCtr = s.freeCtr := rfl
@[simp] theorem State.setLane_sram (s : State) (n : Nat) (x : LaneX) : (s.setLane n x).sram = s.sram := rfl
@[simp] theorem State.setLane_irq (s : State) (n : Nat) (x : LaneX) : (s.setLane n x).irq = s.irq := rfl
@[simp] theorem State.setLane_tmr (s : State) (n : Nat) (x : LaneX) : (s.setLane n x).tmr = s.tmr := rfl
@[simp] theorem State.setLane_pin (s : State) (n : Nat) (x : LaneX) : (s.setLane n x).pin = s.pin := rfl
@[simp] theorem State.setLane_img (s : State) (n : Nat) (x : LaneX) : (s.setLane n x).img = s.img := rfl
@[simp] theorem State.setLane_pcie (s : State) (n : Nat) (x : LaneX) : (s.setLane n x).pcie = s.pcie := rfl
@[simp] theorem State.setLane_rst (s : State) (n : Nat) (x : LaneX) : (s.setLane n x).rst = s.rst := rfl
@[simp] theorem State.setLane_flt (s : State) (n : Nat) (x : LaneX) : (s.setLane n x).flt = s.flt := rfl
@[simp] theorem State.setLane_tb (s : State) (n : Nat) (x : LaneX) : (s.setLane n x).tb = s.tb := rfl
@[simp] theorem State.setLane_flip (s : State) (n : Nat) (x : LaneX) : (s.setLane n x).flip = s.flip := rfl
@[simp] theorem State.setLane_rel (s : State) (n : Nat) (x : LaneX) : (s.setLane n x).rel = s.rel := rfl
@[simp] theorem State.setLane_mdr (s : State) (n : Nat) (x : LaneX) : (s.setLane n x).mdr = s.mdr := rfl
@[simp] theorem State.setLane_ing (s : State) (n : Nat) (x : LaneX) : (s.setLane n x).ing = s.ing := rfl
@[simp] theorem State.setLane_cnd (s : State) (n : Nat) (x : LaneX) : (s.setLane n x).cnd = s.cnd := rfl
@[simp] theorem State.setLane_pf (s : State) (n : Nat) (x : LaneX) : (s.setLane n x).pf = s.pf := rfl
@[simp] theorem State.setLane_obj (s : State) (n : Nat) (x : LaneX) : (s.setLane n x).obj = s.obj := rfl
@[simp] theorem State.setLane_dec (s : State) (n : Nat) (x : LaneX) : (s.setLane n x).dec = s.dec := rfl
@[simp] theorem State.setLane_ro (s : State) (n : Nat) (x : LaneX) : (s.setLane n x).ro = s.ro := rfl
@[simp] theorem State.setLane_qm (s : State) (n : Nat) (x : LaneX) : (s.setLane n x).qm = s.qm := rfl
@[simp] theorem State.setLane_dma (s : State) (n : Nat) (x : LaneX) : (s.setLane n x).dma = s.dma := rfl
@[simp] theorem State.setLane_dram (s : State) (n : Nat) (x : LaneX) : (s.setLane n x).dram = s.dram := rfl
@[simp] theorem State.setLane_resp (s : State) (n : Nat) (x : LaneX) : (s.setLane n x).resp = s.resp := rfl
@[simp] theorem State.setLane_srv (s : State) (n : Nat) (x : LaneX) : (s.setLane n x).srv = s.srv := rfl
@[simp] theorem State.setLane_cvl (s : State) (n : Nat) (x : LaneX) : (s.setLane n x).cvl = s.cvl := rfl
@[simp] theorem State.setLane_vox (s : State) (n : Nat) (x : LaneX) : (s.setLane n x).vox = s.vox := rfl
@[simp] theorem State.setLane_sep (s : State) (n : Nat) (x : LaneX) : (s.setLane n x).sep = s.sep := rfl
@[simp] theorem State.setLane_rd (s : State) (n : Nat) (x : LaneX) (o : Nat) : (s.setLane n x).rd o = s.rd o := rfl
@[simp] theorem State.setLane_fld (s : State) (n : Nat) (x : LaneX) (g : Fld) : (s.setLane n x).fld g = s.fld g := rfl
@[simp] theorem State.setLane_flag (s : State) (n : Nat) (x : LaneX) (g : Fld) : (s.setLane n x).flag g = s.flag g := rfl
@[simp] theorem State.setLane_up (s : State) (n : Nat) (x : LaneX) (d : Nat) : (s.setLane n x).up d = s.up d := rfl

/-! ### setMlane -/

@[simp] theorem State.setMlane_pending (s : State) (n : Nat) (x : MdrX) : (s.setMlane n x).pending = s.pending := rfl
@[simp] theorem State.setMlane_cycle (s : State) (n : Nat) (x : MdrX) : (s.setMlane n x).cycle = s.cycle := rfl
@[simp] theorem State.setMlane_cyc (s : State) (n : Nat) (x : MdrX) : (s.setMlane n x).cyc = s.cyc := rfl
@[simp] theorem State.setMlane_regs (s : State) (n : Nat) (x : MdrX) : (s.setMlane n x).regs = s.regs := rfl
@[simp] theorem State.setMlane_staged (s : State) (n : Nat) (x : MdrX) : (s.setMlane n x).staged = s.staged := rfl
@[simp] theorem State.setMlane_ecc (s : State) (n : Nat) (x : MdrX) : (s.setMlane n x).ecc = s.ecc := rfl
@[simp] theorem State.setMlane_irqEcc (s : State) (n : Nat) (x : MdrX) : (s.setMlane n x).irqEcc = s.irqEcc := rfl
@[simp] theorem State.setMlane_freeCtr (s : State) (n : Nat) (x : MdrX) : (s.setMlane n x).freeCtr = s.freeCtr := rfl
@[simp] theorem State.setMlane_sram (s : State) (n : Nat) (x : MdrX) : (s.setMlane n x).sram = s.sram := rfl
@[simp] theorem State.setMlane_irq (s : State) (n : Nat) (x : MdrX) : (s.setMlane n x).irq = s.irq := rfl
@[simp] theorem State.setMlane_tmr (s : State) (n : Nat) (x : MdrX) : (s.setMlane n x).tmr = s.tmr := rfl
@[simp] theorem State.setMlane_pin (s : State) (n : Nat) (x : MdrX) : (s.setMlane n x).pin = s.pin := rfl
@[simp] theorem State.setMlane_img (s : State) (n : Nat) (x : MdrX) : (s.setMlane n x).img = s.img := rfl
@[simp] theorem State.setMlane_pcie (s : State) (n : Nat) (x : MdrX) : (s.setMlane n x).pcie = s.pcie := rfl
@[simp] theorem State.setMlane_rst (s : State) (n : Nat) (x : MdrX) : (s.setMlane n x).rst = s.rst := rfl
@[simp] theorem State.setMlane_flt (s : State) (n : Nat) (x : MdrX) : (s.setMlane n x).flt = s.flt := rfl
@[simp] theorem State.setMlane_tb (s : State) (n : Nat) (x : MdrX) : (s.setMlane n x).tb = s.tb := rfl
@[simp] theorem State.setMlane_flip (s : State) (n : Nat) (x : MdrX) : (s.setMlane n x).flip = s.flip := rfl
@[simp] theorem State.setMlane_rel (s : State) (n : Nat) (x : MdrX) : (s.setMlane n x).rel = s.rel := rfl
@[simp] theorem State.setMlane_lnk (s : State) (n : Nat) (x : MdrX) : (s.setMlane n x).lnk = s.lnk := rfl
@[simp] theorem State.setMlane_ing (s : State) (n : Nat) (x : MdrX) : (s.setMlane n x).ing = s.ing := rfl
@[simp] theorem State.setMlane_cnd (s : State) (n : Nat) (x : MdrX) : (s.setMlane n x).cnd = s.cnd := rfl
@[simp] theorem State.setMlane_pf (s : State) (n : Nat) (x : MdrX) : (s.setMlane n x).pf = s.pf := rfl
@[simp] theorem State.setMlane_obj (s : State) (n : Nat) (x : MdrX) : (s.setMlane n x).obj = s.obj := rfl
@[simp] theorem State.setMlane_dec (s : State) (n : Nat) (x : MdrX) : (s.setMlane n x).dec = s.dec := rfl
@[simp] theorem State.setMlane_ro (s : State) (n : Nat) (x : MdrX) : (s.setMlane n x).ro = s.ro := rfl
@[simp] theorem State.setMlane_qm (s : State) (n : Nat) (x : MdrX) : (s.setMlane n x).qm = s.qm := rfl
@[simp] theorem State.setMlane_dma (s : State) (n : Nat) (x : MdrX) : (s.setMlane n x).dma = s.dma := rfl
@[simp] theorem State.setMlane_dram (s : State) (n : Nat) (x : MdrX) : (s.setMlane n x).dram = s.dram := rfl
@[simp] theorem State.setMlane_resp (s : State) (n : Nat) (x : MdrX) : (s.setMlane n x).resp = s.resp := rfl
@[simp] theorem State.setMlane_srv (s : State) (n : Nat) (x : MdrX) : (s.setMlane n x).srv = s.srv := rfl
@[simp] theorem State.setMlane_cvl (s : State) (n : Nat) (x : MdrX) : (s.setMlane n x).cvl = s.cvl := rfl
@[simp] theorem State.setMlane_vox (s : State) (n : Nat) (x : MdrX) : (s.setMlane n x).vox = s.vox := rfl
@[simp] theorem State.setMlane_sep (s : State) (n : Nat) (x : MdrX) : (s.setMlane n x).sep = s.sep := rfl
@[simp] theorem State.setMlane_rd (s : State) (n : Nat) (x : MdrX) (o : Nat) : (s.setMlane n x).rd o = s.rd o := rfl
@[simp] theorem State.setMlane_fld (s : State) (n : Nat) (x : MdrX) (g : Fld) : (s.setMlane n x).fld g = s.fld g := rfl
@[simp] theorem State.setMlane_flag (s : State) (n : Nat) (x : MdrX) (g : Fld) : (s.setMlane n x).flag g = s.flag g := rfl
@[simp] theorem State.setMlane_up (s : State) (n : Nat) (x : MdrX) (d : Nat) : (s.setMlane n x).up d = s.up d := rfl

/-! ### setIngLane -/

@[simp] theorem State.setIngLane_pending (s : State) (n : Nat) (x : IngLane) : (s.setIngLane n x).pending = s.pending := rfl
@[simp] theorem State.setIngLane_cycle (s : State) (n : Nat) (x : IngLane) : (s.setIngLane n x).cycle = s.cycle := rfl
@[simp] theorem State.setIngLane_cyc (s : State) (n : Nat) (x : IngLane) : (s.setIngLane n x).cyc = s.cyc := rfl
@[simp] theorem State.setIngLane_regs (s : State) (n : Nat) (x : IngLane) : (s.setIngLane n x).regs = s.regs := rfl
@[simp] theorem State.setIngLane_staged (s : State) (n : Nat) (x : IngLane) : (s.setIngLane n x).staged = s.staged := rfl
@[simp] theorem State.setIngLane_ecc (s : State) (n : Nat) (x : IngLane) : (s.setIngLane n x).ecc = s.ecc := rfl
@[simp] theorem State.setIngLane_irqEcc (s : State) (n : Nat) (x : IngLane) : (s.setIngLane n x).irqEcc = s.irqEcc := rfl
@[simp] theorem State.setIngLane_freeCtr (s : State) (n : Nat) (x : IngLane) : (s.setIngLane n x).freeCtr = s.freeCtr := rfl
@[simp] theorem State.setIngLane_sram (s : State) (n : Nat) (x : IngLane) : (s.setIngLane n x).sram = s.sram := rfl
@[simp] theorem State.setIngLane_irq (s : State) (n : Nat) (x : IngLane) : (s.setIngLane n x).irq = s.irq := rfl
@[simp] theorem State.setIngLane_tmr (s : State) (n : Nat) (x : IngLane) : (s.setIngLane n x).tmr = s.tmr := rfl
@[simp] theorem State.setIngLane_pin (s : State) (n : Nat) (x : IngLane) : (s.setIngLane n x).pin = s.pin := rfl
@[simp] theorem State.setIngLane_img (s : State) (n : Nat) (x : IngLane) : (s.setIngLane n x).img = s.img := rfl
@[simp] theorem State.setIngLane_pcie (s : State) (n : Nat) (x : IngLane) : (s.setIngLane n x).pcie = s.pcie := rfl
@[simp] theorem State.setIngLane_rst (s : State) (n : Nat) (x : IngLane) : (s.setIngLane n x).rst = s.rst := rfl
@[simp] theorem State.setIngLane_flt (s : State) (n : Nat) (x : IngLane) : (s.setIngLane n x).flt = s.flt := rfl
@[simp] theorem State.setIngLane_tb (s : State) (n : Nat) (x : IngLane) : (s.setIngLane n x).tb = s.tb := rfl
@[simp] theorem State.setIngLane_flip (s : State) (n : Nat) (x : IngLane) : (s.setIngLane n x).flip = s.flip := rfl
@[simp] theorem State.setIngLane_rel (s : State) (n : Nat) (x : IngLane) : (s.setIngLane n x).rel = s.rel := rfl
@[simp] theorem State.setIngLane_lnk (s : State) (n : Nat) (x : IngLane) : (s.setIngLane n x).lnk = s.lnk := rfl
@[simp] theorem State.setIngLane_mdr (s : State) (n : Nat) (x : IngLane) : (s.setIngLane n x).mdr = s.mdr := rfl
@[simp] theorem State.setIngLane_cnd (s : State) (n : Nat) (x : IngLane) : (s.setIngLane n x).cnd = s.cnd := rfl
@[simp] theorem State.setIngLane_pf (s : State) (n : Nat) (x : IngLane) : (s.setIngLane n x).pf = s.pf := rfl
@[simp] theorem State.setIngLane_obj (s : State) (n : Nat) (x : IngLane) : (s.setIngLane n x).obj = s.obj := rfl
@[simp] theorem State.setIngLane_dec (s : State) (n : Nat) (x : IngLane) : (s.setIngLane n x).dec = s.dec := rfl
@[simp] theorem State.setIngLane_ro (s : State) (n : Nat) (x : IngLane) : (s.setIngLane n x).ro = s.ro := rfl
@[simp] theorem State.setIngLane_qm (s : State) (n : Nat) (x : IngLane) : (s.setIngLane n x).qm = s.qm := rfl
@[simp] theorem State.setIngLane_dma (s : State) (n : Nat) (x : IngLane) : (s.setIngLane n x).dma = s.dma := rfl
@[simp] theorem State.setIngLane_dram (s : State) (n : Nat) (x : IngLane) : (s.setIngLane n x).dram = s.dram := rfl
@[simp] theorem State.setIngLane_resp (s : State) (n : Nat) (x : IngLane) : (s.setIngLane n x).resp = s.resp := rfl
@[simp] theorem State.setIngLane_srv (s : State) (n : Nat) (x : IngLane) : (s.setIngLane n x).srv = s.srv := rfl
@[simp] theorem State.setIngLane_cvl (s : State) (n : Nat) (x : IngLane) : (s.setIngLane n x).cvl = s.cvl := rfl
@[simp] theorem State.setIngLane_vox (s : State) (n : Nat) (x : IngLane) : (s.setIngLane n x).vox = s.vox := rfl
@[simp] theorem State.setIngLane_sep (s : State) (n : Nat) (x : IngLane) : (s.setIngLane n x).sep = s.sep := rfl
@[simp] theorem State.setIngLane_rd (s : State) (n : Nat) (x : IngLane) (o : Nat) : (s.setIngLane n x).rd o = s.rd o := rfl
@[simp] theorem State.setIngLane_fld (s : State) (n : Nat) (x : IngLane) (g : Fld) : (s.setIngLane n x).fld g = s.fld g := rfl
@[simp] theorem State.setIngLane_flag (s : State) (n : Nat) (x : IngLane) (g : Fld) : (s.setIngLane n x).flag g = s.flag g := rfl
@[simp] theorem State.setIngLane_up (s : State) (n : Nat) (x : IngLane) (d : Nat) : (s.setIngLane n x).up d = s.up d := rfl

/-! ### setPwm -/

@[simp] theorem State.setPwm_pending (s : State) (m : Nat) (x : PwmX) : (s.setPwm m x).pending = s.pending := rfl
@[simp] theorem State.setPwm_cycle (s : State) (m : Nat) (x : PwmX) : (s.setPwm m x).cycle = s.cycle := rfl
@[simp] theorem State.setPwm_cyc (s : State) (m : Nat) (x : PwmX) : (s.setPwm m x).cyc = s.cyc := rfl
@[simp] theorem State.setPwm_regs (s : State) (m : Nat) (x : PwmX) : (s.setPwm m x).regs = s.regs := rfl
@[simp] theorem State.setPwm_staged (s : State) (m : Nat) (x : PwmX) : (s.setPwm m x).staged = s.staged := rfl
@[simp] theorem State.setPwm_ecc (s : State) (m : Nat) (x : PwmX) : (s.setPwm m x).ecc = s.ecc := rfl
@[simp] theorem State.setPwm_irqEcc (s : State) (m : Nat) (x : PwmX) : (s.setPwm m x).irqEcc = s.irqEcc := rfl
@[simp] theorem State.setPwm_freeCtr (s : State) (m : Nat) (x : PwmX) : (s.setPwm m x).freeCtr = s.freeCtr := rfl
@[simp] theorem State.setPwm_sram (s : State) (m : Nat) (x : PwmX) : (s.setPwm m x).sram = s.sram := rfl
@[simp] theorem State.setPwm_irq (s : State) (m : Nat) (x : PwmX) : (s.setPwm m x).irq = s.irq := rfl
@[simp] theorem State.setPwm_tmr (s : State) (m : Nat) (x : PwmX) : (s.setPwm m x).tmr = s.tmr := rfl
@[simp] theorem State.setPwm_pin (s : State) (m : Nat) (x : PwmX) : (s.setPwm m x).pin = s.pin := rfl
@[simp] theorem State.setPwm_img (s : State) (m : Nat) (x : PwmX) : (s.setPwm m x).img = s.img := rfl
@[simp] theorem State.setPwm_pcie (s : State) (m : Nat) (x : PwmX) : (s.setPwm m x).pcie = s.pcie := rfl
@[simp] theorem State.setPwm_rst (s : State) (m : Nat) (x : PwmX) : (s.setPwm m x).rst = s.rst := rfl
@[simp] theorem State.setPwm_flt (s : State) (m : Nat) (x : PwmX) : (s.setPwm m x).flt = s.flt := rfl
@[simp] theorem State.setPwm_tb (s : State) (m : Nat) (x : PwmX) : (s.setPwm m x).tb = s.tb := rfl
@[simp] theorem State.setPwm_flip (s : State) (m : Nat) (x : PwmX) : (s.setPwm m x).flip = s.flip := rfl
@[simp] theorem State.setPwm_rel (s : State) (m : Nat) (x : PwmX) : (s.setPwm m x).rel = s.rel := rfl
@[simp] theorem State.setPwm_lnk (s : State) (m : Nat) (x : PwmX) : (s.setPwm m x).lnk = s.lnk := rfl
@[simp] theorem State.setPwm_mdr (s : State) (m : Nat) (x : PwmX) : (s.setPwm m x).mdr = s.mdr := rfl
@[simp] theorem State.setPwm_ing (s : State) (m : Nat) (x : PwmX) : (s.setPwm m x).ing = s.ing := rfl
@[simp] theorem State.setPwm_cnd (s : State) (m : Nat) (x : PwmX) : (s.setPwm m x).cnd = s.cnd := rfl
@[simp] theorem State.setPwm_pf (s : State) (m : Nat) (x : PwmX) : (s.setPwm m x).pf = s.pf := rfl
@[simp] theorem State.setPwm_obj (s : State) (m : Nat) (x : PwmX) : (s.setPwm m x).obj = s.obj := rfl
@[simp] theorem State.setPwm_dec (s : State) (m : Nat) (x : PwmX) : (s.setPwm m x).dec = s.dec := rfl
@[simp] theorem State.setPwm_ro (s : State) (m : Nat) (x : PwmX) : (s.setPwm m x).ro = s.ro := rfl
@[simp] theorem State.setPwm_qm (s : State) (m : Nat) (x : PwmX) : (s.setPwm m x).qm = s.qm := rfl
@[simp] theorem State.setPwm_dma (s : State) (m : Nat) (x : PwmX) : (s.setPwm m x).dma = s.dma := rfl
@[simp] theorem State.setPwm_dram (s : State) (m : Nat) (x : PwmX) : (s.setPwm m x).dram = s.dram := rfl
@[simp] theorem State.setPwm_resp (s : State) (m : Nat) (x : PwmX) : (s.setPwm m x).resp = s.resp := rfl
@[simp] theorem State.setPwm_srv (s : State) (m : Nat) (x : PwmX) : (s.setPwm m x).srv = s.srv := rfl
@[simp] theorem State.setPwm_vox (s : State) (m : Nat) (x : PwmX) : (s.setPwm m x).vox = s.vox := rfl
@[simp] theorem State.setPwm_sep (s : State) (m : Nat) (x : PwmX) : (s.setPwm m x).sep = s.sep := rfl
@[simp] theorem State.setPwm_rd (s : State) (m : Nat) (x : PwmX) (o : Nat) : (s.setPwm m x).rd o = s.rd o := rfl
@[simp] theorem State.setPwm_fld (s : State) (m : Nat) (x : PwmX) (g : Fld) : (s.setPwm m x).fld g = s.fld g := rfl
@[simp] theorem State.setPwm_flag (s : State) (m : Nat) (x : PwmX) (g : Fld) : (s.setPwm m x).flag g = s.flag g := rfl
@[simp] theorem State.setPwm_up (s : State) (m : Nat) (x : PwmX) (d : Nat) : (s.setPwm m x).up d = s.up d := rfl

/-! ### setLoop -/

@[simp] theorem State.setLoop_pending (s : State) (i : Nat) (x : LoopX) : (s.setLoop i x).pending = s.pending := rfl
@[simp] theorem State.setLoop_cycle (s : State) (i : Nat) (x : LoopX) : (s.setLoop i x).cycle = s.cycle := rfl
@[simp] theorem State.setLoop_cyc (s : State) (i : Nat) (x : LoopX) : (s.setLoop i x).cyc = s.cyc := rfl
@[simp] theorem State.setLoop_regs (s : State) (i : Nat) (x : LoopX) : (s.setLoop i x).regs = s.regs := rfl
@[simp] theorem State.setLoop_staged (s : State) (i : Nat) (x : LoopX) : (s.setLoop i x).staged = s.staged := rfl
@[simp] theorem State.setLoop_ecc (s : State) (i : Nat) (x : LoopX) : (s.setLoop i x).ecc = s.ecc := rfl
@[simp] theorem State.setLoop_irqEcc (s : State) (i : Nat) (x : LoopX) : (s.setLoop i x).irqEcc = s.irqEcc := rfl
@[simp] theorem State.setLoop_freeCtr (s : State) (i : Nat) (x : LoopX) : (s.setLoop i x).freeCtr = s.freeCtr := rfl
@[simp] theorem State.setLoop_sram (s : State) (i : Nat) (x : LoopX) : (s.setLoop i x).sram = s.sram := rfl
@[simp] theorem State.setLoop_irq (s : State) (i : Nat) (x : LoopX) : (s.setLoop i x).irq = s.irq := rfl
@[simp] theorem State.setLoop_tmr (s : State) (i : Nat) (x : LoopX) : (s.setLoop i x).tmr = s.tmr := rfl
@[simp] theorem State.setLoop_pin (s : State) (i : Nat) (x : LoopX) : (s.setLoop i x).pin = s.pin := rfl
@[simp] theorem State.setLoop_img (s : State) (i : Nat) (x : LoopX) : (s.setLoop i x).img = s.img := rfl
@[simp] theorem State.setLoop_pcie (s : State) (i : Nat) (x : LoopX) : (s.setLoop i x).pcie = s.pcie := rfl
@[simp] theorem State.setLoop_rst (s : State) (i : Nat) (x : LoopX) : (s.setLoop i x).rst = s.rst := rfl
@[simp] theorem State.setLoop_flt (s : State) (i : Nat) (x : LoopX) : (s.setLoop i x).flt = s.flt := rfl
@[simp] theorem State.setLoop_tb (s : State) (i : Nat) (x : LoopX) : (s.setLoop i x).tb = s.tb := rfl
@[simp] theorem State.setLoop_flip (s : State) (i : Nat) (x : LoopX) : (s.setLoop i x).flip = s.flip := rfl
@[simp] theorem State.setLoop_rel (s : State) (i : Nat) (x : LoopX) : (s.setLoop i x).rel = s.rel := rfl
@[simp] theorem State.setLoop_lnk (s : State) (i : Nat) (x : LoopX) : (s.setLoop i x).lnk = s.lnk := rfl
@[simp] theorem State.setLoop_mdr (s : State) (i : Nat) (x : LoopX) : (s.setLoop i x).mdr = s.mdr := rfl
@[simp] theorem State.setLoop_ing (s : State) (i : Nat) (x : LoopX) : (s.setLoop i x).ing = s.ing := rfl
@[simp] theorem State.setLoop_cnd (s : State) (i : Nat) (x : LoopX) : (s.setLoop i x).cnd = s.cnd := rfl
@[simp] theorem State.setLoop_pf (s : State) (i : Nat) (x : LoopX) : (s.setLoop i x).pf = s.pf := rfl
@[simp] theorem State.setLoop_obj (s : State) (i : Nat) (x : LoopX) : (s.setLoop i x).obj = s.obj := rfl
@[simp] theorem State.setLoop_dec (s : State) (i : Nat) (x : LoopX) : (s.setLoop i x).dec = s.dec := rfl
@[simp] theorem State.setLoop_ro (s : State) (i : Nat) (x : LoopX) : (s.setLoop i x).ro = s.ro := rfl
@[simp] theorem State.setLoop_qm (s : State) (i : Nat) (x : LoopX) : (s.setLoop i x).qm = s.qm := rfl
@[simp] theorem State.setLoop_dma (s : State) (i : Nat) (x : LoopX) : (s.setLoop i x).dma = s.dma := rfl
@[simp] theorem State.setLoop_dram (s : State) (i : Nat) (x : LoopX) : (s.setLoop i x).dram = s.dram := rfl
@[simp] theorem State.setLoop_resp (s : State) (i : Nat) (x : LoopX) : (s.setLoop i x).resp = s.resp := rfl
@[simp] theorem State.setLoop_srv (s : State) (i : Nat) (x : LoopX) : (s.setLoop i x).srv = s.srv := rfl
@[simp] theorem State.setLoop_vox (s : State) (i : Nat) (x : LoopX) : (s.setLoop i x).vox = s.vox := rfl
@[simp] theorem State.setLoop_sep (s : State) (i : Nat) (x : LoopX) : (s.setLoop i x).sep = s.sep := rfl
@[simp] theorem State.setLoop_rd (s : State) (i : Nat) (x : LoopX) (o : Nat) : (s.setLoop i x).rd o = s.rd o := rfl
@[simp] theorem State.setLoop_fld (s : State) (i : Nat) (x : LoopX) (g : Fld) : (s.setLoop i x).fld g = s.fld g := rfl
@[simp] theorem State.setLoop_flag (s : State) (i : Nat) (x : LoopX) (g : Fld) : (s.setLoop i x).flag g = s.flag g := rfl
@[simp] theorem State.setLoop_up (s : State) (i : Nat) (x : LoopX) (d : Nat) : (s.setLoop i x).up d = s.up d := rfl

/-! ### setVoice -/

@[simp] theorem State.setVoice_pending (s : State) (v : Nat) (x : Voice) : (s.setVoice v x).pending = s.pending := rfl
@[simp] theorem State.setVoice_cycle (s : State) (v : Nat) (x : Voice) : (s.setVoice v x).cycle = s.cycle := rfl
@[simp] theorem State.setVoice_cyc (s : State) (v : Nat) (x : Voice) : (s.setVoice v x).cyc = s.cyc := rfl
@[simp] theorem State.setVoice_regs (s : State) (v : Nat) (x : Voice) : (s.setVoice v x).regs = s.regs := rfl
@[simp] theorem State.setVoice_staged (s : State) (v : Nat) (x : Voice) : (s.setVoice v x).staged = s.staged := rfl
@[simp] theorem State.setVoice_ecc (s : State) (v : Nat) (x : Voice) : (s.setVoice v x).ecc = s.ecc := rfl
@[simp] theorem State.setVoice_irqEcc (s : State) (v : Nat) (x : Voice) : (s.setVoice v x).irqEcc = s.irqEcc := rfl
@[simp] theorem State.setVoice_freeCtr (s : State) (v : Nat) (x : Voice) : (s.setVoice v x).freeCtr = s.freeCtr := rfl
@[simp] theorem State.setVoice_sram (s : State) (v : Nat) (x : Voice) : (s.setVoice v x).sram = s.sram := rfl
@[simp] theorem State.setVoice_irq (s : State) (v : Nat) (x : Voice) : (s.setVoice v x).irq = s.irq := rfl
@[simp] theorem State.setVoice_tmr (s : State) (v : Nat) (x : Voice) : (s.setVoice v x).tmr = s.tmr := rfl
@[simp] theorem State.setVoice_pin (s : State) (v : Nat) (x : Voice) : (s.setVoice v x).pin = s.pin := rfl
@[simp] theorem State.setVoice_img (s : State) (v : Nat) (x : Voice) : (s.setVoice v x).img = s.img := rfl
@[simp] theorem State.setVoice_pcie (s : State) (v : Nat) (x : Voice) : (s.setVoice v x).pcie = s.pcie := rfl
@[simp] theorem State.setVoice_rst (s : State) (v : Nat) (x : Voice) : (s.setVoice v x).rst = s.rst := rfl
@[simp] theorem State.setVoice_flt (s : State) (v : Nat) (x : Voice) : (s.setVoice v x).flt = s.flt := rfl
@[simp] theorem State.setVoice_tb (s : State) (v : Nat) (x : Voice) : (s.setVoice v x).tb = s.tb := rfl
@[simp] theorem State.setVoice_flip (s : State) (v : Nat) (x : Voice) : (s.setVoice v x).flip = s.flip := rfl
@[simp] theorem State.setVoice_rel (s : State) (v : Nat) (x : Voice) : (s.setVoice v x).rel = s.rel := rfl
@[simp] theorem State.setVoice_lnk (s : State) (v : Nat) (x : Voice) : (s.setVoice v x).lnk = s.lnk := rfl
@[simp] theorem State.setVoice_mdr (s : State) (v : Nat) (x : Voice) : (s.setVoice v x).mdr = s.mdr := rfl
@[simp] theorem State.setVoice_ing (s : State) (v : Nat) (x : Voice) : (s.setVoice v x).ing = s.ing := rfl
@[simp] theorem State.setVoice_cnd (s : State) (v : Nat) (x : Voice) : (s.setVoice v x).cnd = s.cnd := rfl
@[simp] theorem State.setVoice_pf (s : State) (v : Nat) (x : Voice) : (s.setVoice v x).pf = s.pf := rfl
@[simp] theorem State.setVoice_obj (s : State) (v : Nat) (x : Voice) : (s.setVoice v x).obj = s.obj := rfl
@[simp] theorem State.setVoice_dec (s : State) (v : Nat) (x : Voice) : (s.setVoice v x).dec = s.dec := rfl
@[simp] theorem State.setVoice_ro (s : State) (v : Nat) (x : Voice) : (s.setVoice v x).ro = s.ro := rfl
@[simp] theorem State.setVoice_qm (s : State) (v : Nat) (x : Voice) : (s.setVoice v x).qm = s.qm := rfl
@[simp] theorem State.setVoice_dma (s : State) (v : Nat) (x : Voice) : (s.setVoice v x).dma = s.dma := rfl
@[simp] theorem State.setVoice_dram (s : State) (v : Nat) (x : Voice) : (s.setVoice v x).dram = s.dram := rfl
@[simp] theorem State.setVoice_resp (s : State) (v : Nat) (x : Voice) : (s.setVoice v x).resp = s.resp := rfl
@[simp] theorem State.setVoice_srv (s : State) (v : Nat) (x : Voice) : (s.setVoice v x).srv = s.srv := rfl
@[simp] theorem State.setVoice_cvl (s : State) (v : Nat) (x : Voice) : (s.setVoice v x).cvl = s.cvl := rfl
@[simp] theorem State.setVoice_sep (s : State) (v : Nat) (x : Voice) : (s.setVoice v x).sep = s.sep := rfl
@[simp] theorem State.setVoice_rd (s : State) (v : Nat) (x : Voice) (o : Nat) : (s.setVoice v x).rd o = s.rd o := rfl
@[simp] theorem State.setVoice_fld (s : State) (v : Nat) (x : Voice) (g : Fld) : (s.setVoice v x).fld g = s.fld g := rfl
@[simp] theorem State.setVoice_flag (s : State) (v : Nat) (x : Voice) (g : Fld) : (s.setVoice v x).flag g = s.flag g := rfl
@[simp] theorem State.setVoice_up (s : State) (v : Nat) (x : Voice) (d : Nat) : (s.setVoice v x).up d = s.up d := rfl

/-! ### setBus -/

@[simp] theorem State.setBus_pending (s : State) (b : Nat) (x : Bus) : (s.setBus b x).pending = s.pending := rfl
@[simp] theorem State.setBus_cycle (s : State) (b : Nat) (x : Bus) : (s.setBus b x).cycle = s.cycle := rfl
@[simp] theorem State.setBus_cyc (s : State) (b : Nat) (x : Bus) : (s.setBus b x).cyc = s.cyc := rfl
@[simp] theorem State.setBus_regs (s : State) (b : Nat) (x : Bus) : (s.setBus b x).regs = s.regs := rfl
@[simp] theorem State.setBus_staged (s : State) (b : Nat) (x : Bus) : (s.setBus b x).staged = s.staged := rfl
@[simp] theorem State.setBus_ecc (s : State) (b : Nat) (x : Bus) : (s.setBus b x).ecc = s.ecc := rfl
@[simp] theorem State.setBus_irqEcc (s : State) (b : Nat) (x : Bus) : (s.setBus b x).irqEcc = s.irqEcc := rfl
@[simp] theorem State.setBus_freeCtr (s : State) (b : Nat) (x : Bus) : (s.setBus b x).freeCtr = s.freeCtr := rfl
@[simp] theorem State.setBus_sram (s : State) (b : Nat) (x : Bus) : (s.setBus b x).sram = s.sram := rfl
@[simp] theorem State.setBus_irq (s : State) (b : Nat) (x : Bus) : (s.setBus b x).irq = s.irq := rfl
@[simp] theorem State.setBus_tmr (s : State) (b : Nat) (x : Bus) : (s.setBus b x).tmr = s.tmr := rfl
@[simp] theorem State.setBus_pin (s : State) (b : Nat) (x : Bus) : (s.setBus b x).pin = s.pin := rfl
@[simp] theorem State.setBus_img (s : State) (b : Nat) (x : Bus) : (s.setBus b x).img = s.img := rfl
@[simp] theorem State.setBus_pcie (s : State) (b : Nat) (x : Bus) : (s.setBus b x).pcie = s.pcie := rfl
@[simp] theorem State.setBus_rst (s : State) (b : Nat) (x : Bus) : (s.setBus b x).rst = s.rst := rfl
@[simp] theorem State.setBus_flt (s : State) (b : Nat) (x : Bus) : (s.setBus b x).flt = s.flt := rfl
@[simp] theorem State.setBus_tb (s : State) (b : Nat) (x : Bus) : (s.setBus b x).tb = s.tb := rfl
@[simp] theorem State.setBus_flip (s : State) (b : Nat) (x : Bus) : (s.setBus b x).flip = s.flip := rfl
@[simp] theorem State.setBus_rel (s : State) (b : Nat) (x : Bus) : (s.setBus b x).rel = s.rel := rfl
@[simp] theorem State.setBus_lnk (s : State) (b : Nat) (x : Bus) : (s.setBus b x).lnk = s.lnk := rfl
@[simp] theorem State.setBus_mdr (s : State) (b : Nat) (x : Bus) : (s.setBus b x).mdr = s.mdr := rfl
@[simp] theorem State.setBus_ing (s : State) (b : Nat) (x : Bus) : (s.setBus b x).ing = s.ing := rfl
@[simp] theorem State.setBus_cnd (s : State) (b : Nat) (x : Bus) : (s.setBus b x).cnd = s.cnd := rfl
@[simp] theorem State.setBus_pf (s : State) (b : Nat) (x : Bus) : (s.setBus b x).pf = s.pf := rfl
@[simp] theorem State.setBus_obj (s : State) (b : Nat) (x : Bus) : (s.setBus b x).obj = s.obj := rfl
@[simp] theorem State.setBus_dec (s : State) (b : Nat) (x : Bus) : (s.setBus b x).dec = s.dec := rfl
@[simp] theorem State.setBus_ro (s : State) (b : Nat) (x : Bus) : (s.setBus b x).ro = s.ro := rfl
@[simp] theorem State.setBus_qm (s : State) (b : Nat) (x : Bus) : (s.setBus b x).qm = s.qm := rfl
@[simp] theorem State.setBus_dma (s : State) (b : Nat) (x : Bus) : (s.setBus b x).dma = s.dma := rfl
@[simp] theorem State.setBus_dram (s : State) (b : Nat) (x : Bus) : (s.setBus b x).dram = s.dram := rfl
@[simp] theorem State.setBus_resp (s : State) (b : Nat) (x : Bus) : (s.setBus b x).resp = s.resp := rfl
@[simp] theorem State.setBus_srv (s : State) (b : Nat) (x : Bus) : (s.setBus b x).srv = s.srv := rfl
@[simp] theorem State.setBus_cvl (s : State) (b : Nat) (x : Bus) : (s.setBus b x).cvl = s.cvl := rfl
@[simp] theorem State.setBus_sep (s : State) (b : Nat) (x : Bus) : (s.setBus b x).sep = s.sep := rfl
@[simp] theorem State.setBus_rd (s : State) (b : Nat) (x : Bus) (o : Nat) : (s.setBus b x).rd o = s.rd o := rfl
@[simp] theorem State.setBus_fld (s : State) (b : Nat) (x : Bus) (g : Fld) : (s.setBus b x).fld g = s.fld g := rfl
@[simp] theorem State.setBus_flag (s : State) (b : Nat) (x : Bus) (g : Fld) : (s.setBus b x).flag g = s.flag g := rfl
@[simp] theorem State.setBus_up (s : State) (b : Nat) (x : Bus) (d : Nat) : (s.setBus b x).up d = s.up d := rfl

/-! ### setDmaX -/

@[simp] theorem State.setDmaX_pending (s : State) (ch : Nat) (x : DmaX) : (s.setDmaX ch x).pending = s.pending := rfl
@[simp] theorem State.setDmaX_cycle (s : State) (ch : Nat) (x : DmaX) : (s.setDmaX ch x).cycle = s.cycle := rfl
@[simp] theorem State.setDmaX_cyc (s : State) (ch : Nat) (x : DmaX) : (s.setDmaX ch x).cyc = s.cyc := rfl
@[simp] theorem State.setDmaX_regs (s : State) (ch : Nat) (x : DmaX) : (s.setDmaX ch x).regs = s.regs := rfl
@[simp] theorem State.setDmaX_staged (s : State) (ch : Nat) (x : DmaX) : (s.setDmaX ch x).staged = s.staged := rfl
@[simp] theorem State.setDmaX_ecc (s : State) (ch : Nat) (x : DmaX) : (s.setDmaX ch x).ecc = s.ecc := rfl
@[simp] theorem State.setDmaX_irqEcc (s : State) (ch : Nat) (x : DmaX) : (s.setDmaX ch x).irqEcc = s.irqEcc := rfl
@[simp] theorem State.setDmaX_freeCtr (s : State) (ch : Nat) (x : DmaX) : (s.setDmaX ch x).freeCtr = s.freeCtr := rfl
@[simp] theorem State.setDmaX_sram (s : State) (ch : Nat) (x : DmaX) : (s.setDmaX ch x).sram = s.sram := rfl
@[simp] theorem State.setDmaX_irq (s : State) (ch : Nat) (x : DmaX) : (s.setDmaX ch x).irq = s.irq := rfl
@[simp] theorem State.setDmaX_tmr (s : State) (ch : Nat) (x : DmaX) : (s.setDmaX ch x).tmr = s.tmr := rfl
@[simp] theorem State.setDmaX_pin (s : State) (ch : Nat) (x : DmaX) : (s.setDmaX ch x).pin = s.pin := rfl
@[simp] theorem State.setDmaX_img (s : State) (ch : Nat) (x : DmaX) : (s.setDmaX ch x).img = s.img := rfl
@[simp] theorem State.setDmaX_pcie (s : State) (ch : Nat) (x : DmaX) : (s.setDmaX ch x).pcie = s.pcie := rfl
@[simp] theorem State.setDmaX_rst (s : State) (ch : Nat) (x : DmaX) : (s.setDmaX ch x).rst = s.rst := rfl
@[simp] theorem State.setDmaX_flt (s : State) (ch : Nat) (x : DmaX) : (s.setDmaX ch x).flt = s.flt := rfl
@[simp] theorem State.setDmaX_tb (s : State) (ch : Nat) (x : DmaX) : (s.setDmaX ch x).tb = s.tb := rfl
@[simp] theorem State.setDmaX_flip (s : State) (ch : Nat) (x : DmaX) : (s.setDmaX ch x).flip = s.flip := rfl
@[simp] theorem State.setDmaX_rel (s : State) (ch : Nat) (x : DmaX) : (s.setDmaX ch x).rel = s.rel := rfl
@[simp] theorem State.setDmaX_lnk (s : State) (ch : Nat) (x : DmaX) : (s.setDmaX ch x).lnk = s.lnk := rfl
@[simp] theorem State.setDmaX_mdr (s : State) (ch : Nat) (x : DmaX) : (s.setDmaX ch x).mdr = s.mdr := rfl
@[simp] theorem State.setDmaX_ing (s : State) (ch : Nat) (x : DmaX) : (s.setDmaX ch x).ing = s.ing := rfl
@[simp] theorem State.setDmaX_cnd (s : State) (ch : Nat) (x : DmaX) : (s.setDmaX ch x).cnd = s.cnd := rfl
@[simp] theorem State.setDmaX_pf (s : State) (ch : Nat) (x : DmaX) : (s.setDmaX ch x).pf = s.pf := rfl
@[simp] theorem State.setDmaX_obj (s : State) (ch : Nat) (x : DmaX) : (s.setDmaX ch x).obj = s.obj := rfl
@[simp] theorem State.setDmaX_dec (s : State) (ch : Nat) (x : DmaX) : (s.setDmaX ch x).dec = s.dec := rfl
@[simp] theorem State.setDmaX_ro (s : State) (ch : Nat) (x : DmaX) : (s.setDmaX ch x).ro = s.ro := rfl
@[simp] theorem State.setDmaX_qm (s : State) (ch : Nat) (x : DmaX) : (s.setDmaX ch x).qm = s.qm := rfl
@[simp] theorem State.setDmaX_dram (s : State) (ch : Nat) (x : DmaX) : (s.setDmaX ch x).dram = s.dram := rfl
@[simp] theorem State.setDmaX_resp (s : State) (ch : Nat) (x : DmaX) : (s.setDmaX ch x).resp = s.resp := rfl
@[simp] theorem State.setDmaX_srv (s : State) (ch : Nat) (x : DmaX) : (s.setDmaX ch x).srv = s.srv := rfl
@[simp] theorem State.setDmaX_cvl (s : State) (ch : Nat) (x : DmaX) : (s.setDmaX ch x).cvl = s.cvl := rfl
@[simp] theorem State.setDmaX_vox (s : State) (ch : Nat) (x : DmaX) : (s.setDmaX ch x).vox = s.vox := rfl
@[simp] theorem State.setDmaX_sep (s : State) (ch : Nat) (x : DmaX) : (s.setDmaX ch x).sep = s.sep := rfl
@[simp] theorem State.setDmaX_rd (s : State) (ch : Nat) (x : DmaX) (o : Nat) : (s.setDmaX ch x).rd o = s.rd o := rfl
@[simp] theorem State.setDmaX_fld (s : State) (ch : Nat) (x : DmaX) (g : Fld) : (s.setDmaX ch x).fld g = s.fld g := rfl
@[simp] theorem State.setDmaX_flag (s : State) (ch : Nat) (x : DmaX) (g : Fld) : (s.setDmaX ch x).flag g = s.flag g := rfl
@[simp] theorem State.setDmaX_up (s : State) (ch : Nat) (x : DmaX) (d : Nat) : (s.setDmaX ch x).up d = s.up d := rfl

/-! ### setIrqCore -/

@[simp] theorem State.setIrqCore_pending (s : State) (c : Nat) (x : IrqCore) : (s.setIrqCore c x).pending = s.pending := rfl
@[simp] theorem State.setIrqCore_cycle (s : State) (c : Nat) (x : IrqCore) : (s.setIrqCore c x).cycle = s.cycle := rfl
@[simp] theorem State.setIrqCore_cyc (s : State) (c : Nat) (x : IrqCore) : (s.setIrqCore c x).cyc = s.cyc := rfl
@[simp] theorem State.setIrqCore_regs (s : State) (c : Nat) (x : IrqCore) : (s.setIrqCore c x).regs = s.regs := rfl
@[simp] theorem State.setIrqCore_staged (s : State) (c : Nat) (x : IrqCore) : (s.setIrqCore c x).staged = s.staged := rfl
@[simp] theorem State.setIrqCore_ecc (s : State) (c : Nat) (x : IrqCore) : (s.setIrqCore c x).ecc = s.ecc := rfl
@[simp] theorem State.setIrqCore_irqEcc (s : State) (c : Nat) (x : IrqCore) : (s.setIrqCore c x).irqEcc = s.irqEcc := rfl
@[simp] theorem State.setIrqCore_freeCtr (s : State) (c : Nat) (x : IrqCore) : (s.setIrqCore c x).freeCtr = s.freeCtr := rfl
@[simp] theorem State.setIrqCore_sram (s : State) (c : Nat) (x : IrqCore) : (s.setIrqCore c x).sram = s.sram := rfl
@[simp] theorem State.setIrqCore_tmr (s : State) (c : Nat) (x : IrqCore) : (s.setIrqCore c x).tmr = s.tmr := rfl
@[simp] theorem State.setIrqCore_pin (s : State) (c : Nat) (x : IrqCore) : (s.setIrqCore c x).pin = s.pin := rfl
@[simp] theorem State.setIrqCore_img (s : State) (c : Nat) (x : IrqCore) : (s.setIrqCore c x).img = s.img := rfl
@[simp] theorem State.setIrqCore_pcie (s : State) (c : Nat) (x : IrqCore) : (s.setIrqCore c x).pcie = s.pcie := rfl
@[simp] theorem State.setIrqCore_rst (s : State) (c : Nat) (x : IrqCore) : (s.setIrqCore c x).rst = s.rst := rfl
@[simp] theorem State.setIrqCore_flt (s : State) (c : Nat) (x : IrqCore) : (s.setIrqCore c x).flt = s.flt := rfl
@[simp] theorem State.setIrqCore_tb (s : State) (c : Nat) (x : IrqCore) : (s.setIrqCore c x).tb = s.tb := rfl
@[simp] theorem State.setIrqCore_flip (s : State) (c : Nat) (x : IrqCore) : (s.setIrqCore c x).flip = s.flip := rfl
@[simp] theorem State.setIrqCore_rel (s : State) (c : Nat) (x : IrqCore) : (s.setIrqCore c x).rel = s.rel := rfl
@[simp] theorem State.setIrqCore_lnk (s : State) (c : Nat) (x : IrqCore) : (s.setIrqCore c x).lnk = s.lnk := rfl
@[simp] theorem State.setIrqCore_mdr (s : State) (c : Nat) (x : IrqCore) : (s.setIrqCore c x).mdr = s.mdr := rfl
@[simp] theorem State.setIrqCore_ing (s : State) (c : Nat) (x : IrqCore) : (s.setIrqCore c x).ing = s.ing := rfl
@[simp] theorem State.setIrqCore_cnd (s : State) (c : Nat) (x : IrqCore) : (s.setIrqCore c x).cnd = s.cnd := rfl
@[simp] theorem State.setIrqCore_pf (s : State) (c : Nat) (x : IrqCore) : (s.setIrqCore c x).pf = s.pf := rfl
@[simp] theorem State.setIrqCore_obj (s : State) (c : Nat) (x : IrqCore) : (s.setIrqCore c x).obj = s.obj := rfl
@[simp] theorem State.setIrqCore_dec (s : State) (c : Nat) (x : IrqCore) : (s.setIrqCore c x).dec = s.dec := rfl
@[simp] theorem State.setIrqCore_ro (s : State) (c : Nat) (x : IrqCore) : (s.setIrqCore c x).ro = s.ro := rfl
@[simp] theorem State.setIrqCore_qm (s : State) (c : Nat) (x : IrqCore) : (s.setIrqCore c x).qm = s.qm := rfl
@[simp] theorem State.setIrqCore_dma (s : State) (c : Nat) (x : IrqCore) : (s.setIrqCore c x).dma = s.dma := rfl
@[simp] theorem State.setIrqCore_dram (s : State) (c : Nat) (x : IrqCore) : (s.setIrqCore c x).dram = s.dram := rfl
@[simp] theorem State.setIrqCore_resp (s : State) (c : Nat) (x : IrqCore) : (s.setIrqCore c x).resp = s.resp := rfl
@[simp] theorem State.setIrqCore_srv (s : State) (c : Nat) (x : IrqCore) : (s.setIrqCore c x).srv = s.srv := rfl
@[simp] theorem State.setIrqCore_cvl (s : State) (c : Nat) (x : IrqCore) : (s.setIrqCore c x).cvl = s.cvl := rfl
@[simp] theorem State.setIrqCore_vox (s : State) (c : Nat) (x : IrqCore) : (s.setIrqCore c x).vox = s.vox := rfl
@[simp] theorem State.setIrqCore_sep (s : State) (c : Nat) (x : IrqCore) : (s.setIrqCore c x).sep = s.sep := rfl
@[simp] theorem State.setIrqCore_rd (s : State) (c : Nat) (x : IrqCore) (o : Nat) : (s.setIrqCore c x).rd o = s.rd o := rfl
@[simp] theorem State.setIrqCore_fld (s : State) (c : Nat) (x : IrqCore) (g : Fld) : (s.setIrqCore c x).fld g = s.fld g := rfl
@[simp] theorem State.setIrqCore_flag (s : State) (c : Nat) (x : IrqCore) (g : Fld) : (s.setIrqCore c x).flag g = s.flag g := rfl
@[simp] theorem State.setIrqCore_up (s : State) (c : Nat) (x : IrqCore) (d : Nat) : (s.setIrqCore c x).up d = s.up d := rfl

/-! ### setPriv -/

@[simp] theorem State.setPriv_pending (s : State) (c i : Nat) (x : IrqSrc) : (s.setPriv c i x).pending = s.pending := rfl
@[simp] theorem State.setPriv_cycle (s : State) (c i : Nat) (x : IrqSrc) : (s.setPriv c i x).cycle = s.cycle := rfl
@[simp] theorem State.setPriv_cyc (s : State) (c i : Nat) (x : IrqSrc) : (s.setPriv c i x).cyc = s.cyc := rfl
@[simp] theorem State.setPriv_regs (s : State) (c i : Nat) (x : IrqSrc) : (s.setPriv c i x).regs = s.regs := rfl
@[simp] theorem State.setPriv_staged (s : State) (c i : Nat) (x : IrqSrc) : (s.setPriv c i x).staged = s.staged := rfl
@[simp] theorem State.setPriv_ecc (s : State) (c i : Nat) (x : IrqSrc) : (s.setPriv c i x).ecc = s.ecc := rfl
@[simp] theorem State.setPriv_irqEcc (s : State) (c i : Nat) (x : IrqSrc) : (s.setPriv c i x).irqEcc = s.irqEcc := rfl
@[simp] theorem State.setPriv_freeCtr (s : State) (c i : Nat) (x : IrqSrc) : (s.setPriv c i x).freeCtr = s.freeCtr := rfl
@[simp] theorem State.setPriv_sram (s : State) (c i : Nat) (x : IrqSrc) : (s.setPriv c i x).sram = s.sram := rfl
@[simp] theorem State.setPriv_tmr (s : State) (c i : Nat) (x : IrqSrc) : (s.setPriv c i x).tmr = s.tmr := rfl
@[simp] theorem State.setPriv_pin (s : State) (c i : Nat) (x : IrqSrc) : (s.setPriv c i x).pin = s.pin := rfl
@[simp] theorem State.setPriv_img (s : State) (c i : Nat) (x : IrqSrc) : (s.setPriv c i x).img = s.img := rfl
@[simp] theorem State.setPriv_pcie (s : State) (c i : Nat) (x : IrqSrc) : (s.setPriv c i x).pcie = s.pcie := rfl
@[simp] theorem State.setPriv_rst (s : State) (c i : Nat) (x : IrqSrc) : (s.setPriv c i x).rst = s.rst := rfl
@[simp] theorem State.setPriv_flt (s : State) (c i : Nat) (x : IrqSrc) : (s.setPriv c i x).flt = s.flt := rfl
@[simp] theorem State.setPriv_tb (s : State) (c i : Nat) (x : IrqSrc) : (s.setPriv c i x).tb = s.tb := rfl
@[simp] theorem State.setPriv_flip (s : State) (c i : Nat) (x : IrqSrc) : (s.setPriv c i x).flip = s.flip := rfl
@[simp] theorem State.setPriv_rel (s : State) (c i : Nat) (x : IrqSrc) : (s.setPriv c i x).rel = s.rel := rfl
@[simp] theorem State.setPriv_lnk (s : State) (c i : Nat) (x : IrqSrc) : (s.setPriv c i x).lnk = s.lnk := rfl
@[simp] theorem State.setPriv_mdr (s : State) (c i : Nat) (x : IrqSrc) : (s.setPriv c i x).mdr = s.mdr := rfl
@[simp] theorem State.setPriv_ing (s : State) (c i : Nat) (x : IrqSrc) : (s.setPriv c i x).ing = s.ing := rfl
@[simp] theorem State.setPriv_cnd (s : State) (c i : Nat) (x : IrqSrc) : (s.setPriv c i x).cnd = s.cnd := rfl
@[simp] theorem State.setPriv_pf (s : State) (c i : Nat) (x : IrqSrc) : (s.setPriv c i x).pf = s.pf := rfl
@[simp] theorem State.setPriv_obj (s : State) (c i : Nat) (x : IrqSrc) : (s.setPriv c i x).obj = s.obj := rfl
@[simp] theorem State.setPriv_dec (s : State) (c i : Nat) (x : IrqSrc) : (s.setPriv c i x).dec = s.dec := rfl
@[simp] theorem State.setPriv_ro (s : State) (c i : Nat) (x : IrqSrc) : (s.setPriv c i x).ro = s.ro := rfl
@[simp] theorem State.setPriv_qm (s : State) (c i : Nat) (x : IrqSrc) : (s.setPriv c i x).qm = s.qm := rfl
@[simp] theorem State.setPriv_dma (s : State) (c i : Nat) (x : IrqSrc) : (s.setPriv c i x).dma = s.dma := rfl
@[simp] theorem State.setPriv_dram (s : State) (c i : Nat) (x : IrqSrc) : (s.setPriv c i x).dram = s.dram := rfl
@[simp] theorem State.setPriv_resp (s : State) (c i : Nat) (x : IrqSrc) : (s.setPriv c i x).resp = s.resp := rfl
@[simp] theorem State.setPriv_srv (s : State) (c i : Nat) (x : IrqSrc) : (s.setPriv c i x).srv = s.srv := rfl
@[simp] theorem State.setPriv_cvl (s : State) (c i : Nat) (x : IrqSrc) : (s.setPriv c i x).cvl = s.cvl := rfl
@[simp] theorem State.setPriv_vox (s : State) (c i : Nat) (x : IrqSrc) : (s.setPriv c i x).vox = s.vox := rfl
@[simp] theorem State.setPriv_sep (s : State) (c i : Nat) (x : IrqSrc) : (s.setPriv c i x).sep = s.sep := rfl
@[simp] theorem State.setPriv_rd (s : State) (c i : Nat) (x : IrqSrc) (o : Nat) : (s.setPriv c i x).rd o = s.rd o := rfl
@[simp] theorem State.setPriv_fld (s : State) (c i : Nat) (x : IrqSrc) (g : Fld) : (s.setPriv c i x).fld g = s.fld g := rfl
@[simp] theorem State.setPriv_flag (s : State) (c i : Nat) (x : IrqSrc) (g : Fld) : (s.setPriv c i x).flag g = s.flag g := rfl
@[simp] theorem State.setPriv_up (s : State) (c i : Nat) (x : IrqSrc) (d : Nat) : (s.setPriv c i x).up d = s.up d := rfl

/-! ### setShared -/

@[simp] theorem State.setShared_pending (s : State) (k sl : Nat) (x : IrqSrc) : (s.setShared k sl x).pending = s.pending := rfl
@[simp] theorem State.setShared_cycle (s : State) (k sl : Nat) (x : IrqSrc) : (s.setShared k sl x).cycle = s.cycle := rfl
@[simp] theorem State.setShared_cyc (s : State) (k sl : Nat) (x : IrqSrc) : (s.setShared k sl x).cyc = s.cyc := rfl
@[simp] theorem State.setShared_regs (s : State) (k sl : Nat) (x : IrqSrc) : (s.setShared k sl x).regs = s.regs := rfl
@[simp] theorem State.setShared_staged (s : State) (k sl : Nat) (x : IrqSrc) : (s.setShared k sl x).staged = s.staged := rfl
@[simp] theorem State.setShared_ecc (s : State) (k sl : Nat) (x : IrqSrc) : (s.setShared k sl x).ecc = s.ecc := rfl
@[simp] theorem State.setShared_irqEcc (s : State) (k sl : Nat) (x : IrqSrc) : (s.setShared k sl x).irqEcc = s.irqEcc := rfl
@[simp] theorem State.setShared_freeCtr (s : State) (k sl : Nat) (x : IrqSrc) : (s.setShared k sl x).freeCtr = s.freeCtr := rfl
@[simp] theorem State.setShared_sram (s : State) (k sl : Nat) (x : IrqSrc) : (s.setShared k sl x).sram = s.sram := rfl
@[simp] theorem State.setShared_tmr (s : State) (k sl : Nat) (x : IrqSrc) : (s.setShared k sl x).tmr = s.tmr := rfl
@[simp] theorem State.setShared_pin (s : State) (k sl : Nat) (x : IrqSrc) : (s.setShared k sl x).pin = s.pin := rfl
@[simp] theorem State.setShared_img (s : State) (k sl : Nat) (x : IrqSrc) : (s.setShared k sl x).img = s.img := rfl
@[simp] theorem State.setShared_pcie (s : State) (k sl : Nat) (x : IrqSrc) : (s.setShared k sl x).pcie = s.pcie := rfl
@[simp] theorem State.setShared_rst (s : State) (k sl : Nat) (x : IrqSrc) : (s.setShared k sl x).rst = s.rst := rfl
@[simp] theorem State.setShared_flt (s : State) (k sl : Nat) (x : IrqSrc) : (s.setShared k sl x).flt = s.flt := rfl
@[simp] theorem State.setShared_tb (s : State) (k sl : Nat) (x : IrqSrc) : (s.setShared k sl x).tb = s.tb := rfl
@[simp] theorem State.setShared_flip (s : State) (k sl : Nat) (x : IrqSrc) : (s.setShared k sl x).flip = s.flip := rfl
@[simp] theorem State.setShared_rel (s : State) (k sl : Nat) (x : IrqSrc) : (s.setShared k sl x).rel = s.rel := rfl
@[simp] theorem State.setShared_lnk (s : State) (k sl : Nat) (x : IrqSrc) : (s.setShared k sl x).lnk = s.lnk := rfl
@[simp] theorem State.setShared_mdr (s : State) (k sl : Nat) (x : IrqSrc) : (s.setShared k sl x).mdr = s.mdr := rfl
@[simp] theorem State.setShared_ing (s : State) (k sl : Nat) (x : IrqSrc) : (s.setShared k sl x).ing = s.ing := rfl
@[simp] theorem State.setShared_cnd (s : State) (k sl : Nat) (x : IrqSrc) : (s.setShared k sl x).cnd = s.cnd := rfl
@[simp] theorem State.setShared_pf (s : State) (k sl : Nat) (x : IrqSrc) : (s.setShared k sl x).pf = s.pf := rfl
@[simp] theorem State.setShared_obj (s : State) (k sl : Nat) (x : IrqSrc) : (s.setShared k sl x).obj = s.obj := rfl
@[simp] theorem State.setShared_dec (s : State) (k sl : Nat) (x : IrqSrc) : (s.setShared k sl x).dec = s.dec := rfl
@[simp] theorem State.setShared_ro (s : State) (k sl : Nat) (x : IrqSrc) : (s.setShared k sl x).ro = s.ro := rfl
@[simp] theorem State.setShared_qm (s : State) (k sl : Nat) (x : IrqSrc) : (s.setShared k sl x).qm = s.qm := rfl
@[simp] theorem State.setShared_dma (s : State) (k sl : Nat) (x : IrqSrc) : (s.setShared k sl x).dma = s.dma := rfl
@[simp] theorem State.setShared_dram (s : State) (k sl : Nat) (x : IrqSrc) : (s.setShared k sl x).dram = s.dram := rfl
@[simp] theorem State.setShared_resp (s : State) (k sl : Nat) (x : IrqSrc) : (s.setShared k sl x).resp = s.resp := rfl
@[simp] theorem State.setShared_srv (s : State) (k sl : Nat) (x : IrqSrc) : (s.setShared k sl x).srv = s.srv := rfl
@[simp] theorem State.setShared_cvl (s : State) (k sl : Nat) (x : IrqSrc) : (s.setShared k sl x).cvl = s.cvl := rfl
@[simp] theorem State.setShared_vox (s : State) (k sl : Nat) (x : IrqSrc) : (s.setShared k sl x).vox = s.vox := rfl
@[simp] theorem State.setShared_sep (s : State) (k sl : Nat) (x : IrqSrc) : (s.setShared k sl x).sep = s.sep := rfl
@[simp] theorem State.setShared_rd (s : State) (k sl : Nat) (x : IrqSrc) (o : Nat) : (s.setShared k sl x).rd o = s.rd o := rfl
@[simp] theorem State.setShared_fld (s : State) (k sl : Nat) (x : IrqSrc) (g : Fld) : (s.setShared k sl x).fld g = s.fld g := rfl
@[simp] theorem State.setShared_flag (s : State) (k sl : Nat) (x : IrqSrc) (g : Fld) : (s.setShared k sl x).flag g = s.flag g := rfl
@[simp] theorem State.setShared_up (s : State) (k sl : Nat) (x : IrqSrc) (d : Nat) : (s.setShared k sl x).up d = s.up d := rfl

/-! ### setWork -/

@[simp] theorem State.setWork_pending (s : State) (w : ObjWork) : (s.setWork w).pending = s.pending := rfl
@[simp] theorem State.setWork_cycle (s : State) (w : ObjWork) : (s.setWork w).cycle = s.cycle := rfl
@[simp] theorem State.setWork_cyc (s : State) (w : ObjWork) : (s.setWork w).cyc = s.cyc := rfl
@[simp] theorem State.setWork_regs (s : State) (w : ObjWork) : (s.setWork w).regs = s.regs := rfl
@[simp] theorem State.setWork_staged (s : State) (w : ObjWork) : (s.setWork w).staged = s.staged := rfl
@[simp] theorem State.setWork_ecc (s : State) (w : ObjWork) : (s.setWork w).ecc = s.ecc := rfl
@[simp] theorem State.setWork_irqEcc (s : State) (w : ObjWork) : (s.setWork w).irqEcc = s.irqEcc := rfl
@[simp] theorem State.setWork_freeCtr (s : State) (w : ObjWork) : (s.setWork w).freeCtr = s.freeCtr := rfl
@[simp] theorem State.setWork_sram (s : State) (w : ObjWork) : (s.setWork w).sram = s.sram := rfl
@[simp] theorem State.setWork_irq (s : State) (w : ObjWork) : (s.setWork w).irq = s.irq := rfl
@[simp] theorem State.setWork_tmr (s : State) (w : ObjWork) : (s.setWork w).tmr = s.tmr := rfl
@[simp] theorem State.setWork_pin (s : State) (w : ObjWork) : (s.setWork w).pin = s.pin := rfl
@[simp] theorem State.setWork_img (s : State) (w : ObjWork) : (s.setWork w).img = s.img := rfl
@[simp] theorem State.setWork_pcie (s : State) (w : ObjWork) : (s.setWork w).pcie = s.pcie := rfl
@[simp] theorem State.setWork_rst (s : State) (w : ObjWork) : (s.setWork w).rst = s.rst := rfl
@[simp] theorem State.setWork_flt (s : State) (w : ObjWork) : (s.setWork w).flt = s.flt := rfl
@[simp] theorem State.setWork_tb (s : State) (w : ObjWork) : (s.setWork w).tb = s.tb := rfl
@[simp] theorem State.setWork_flip (s : State) (w : ObjWork) : (s.setWork w).flip = s.flip := rfl
@[simp] theorem State.setWork_rel (s : State) (w : ObjWork) : (s.setWork w).rel = s.rel := rfl
@[simp] theorem State.setWork_lnk (s : State) (w : ObjWork) : (s.setWork w).lnk = s.lnk := rfl
@[simp] theorem State.setWork_mdr (s : State) (w : ObjWork) : (s.setWork w).mdr = s.mdr := rfl
@[simp] theorem State.setWork_ing (s : State) (w : ObjWork) : (s.setWork w).ing = s.ing := rfl
@[simp] theorem State.setWork_cnd (s : State) (w : ObjWork) : (s.setWork w).cnd = s.cnd := rfl
@[simp] theorem State.setWork_pf (s : State) (w : ObjWork) : (s.setWork w).pf = s.pf := rfl
@[simp] theorem State.setWork_dec (s : State) (w : ObjWork) : (s.setWork w).dec = s.dec := rfl
@[simp] theorem State.setWork_ro (s : State) (w : ObjWork) : (s.setWork w).ro = s.ro := rfl
@[simp] theorem State.setWork_qm (s : State) (w : ObjWork) : (s.setWork w).qm = s.qm := rfl
@[simp] theorem State.setWork_dma (s : State) (w : ObjWork) : (s.setWork w).dma = s.dma := rfl
@[simp] theorem State.setWork_dram (s : State) (w : ObjWork) : (s.setWork w).dram = s.dram := rfl
@[simp] theorem State.setWork_resp (s : State) (w : ObjWork) : (s.setWork w).resp = s.resp := rfl
@[simp] theorem State.setWork_srv (s : State) (w : ObjWork) : (s.setWork w).srv = s.srv := rfl
@[simp] theorem State.setWork_cvl (s : State) (w : ObjWork) : (s.setWork w).cvl = s.cvl := rfl
@[simp] theorem State.setWork_vox (s : State) (w : ObjWork) : (s.setWork w).vox = s.vox := rfl
@[simp] theorem State.setWork_sep (s : State) (w : ObjWork) : (s.setWork w).sep = s.sep := rfl
@[simp] theorem State.setWork_rd (s : State) (w : ObjWork) (o : Nat) : (s.setWork w).rd o = s.rd o := rfl
@[simp] theorem State.setWork_fld (s : State) (w : ObjWork) (g : Fld) : (s.setWork w).fld g = s.fld g := rfl
@[simp] theorem State.setWork_flag (s : State) (w : ObjWork) (g : Fld) : (s.setWork w).flag g = s.flag g := rfl
@[simp] theorem State.setWork_up (s : State) (w : ObjWork) (d : Nat) : (s.setWork w).up d = s.up d := rfl

/-! ### setRel -/

@[simp] theorem State.setRel_pending (s : State) (st : Nat) (e : RelEntry) : (s.setRel st e).pending = s.pending := rfl
@[simp] theorem State.setRel_cycle (s : State) (st : Nat) (e : RelEntry) : (s.setRel st e).cycle = s.cycle := rfl
@[simp] theorem State.setRel_cyc (s : State) (st : Nat) (e : RelEntry) : (s.setRel st e).cyc = s.cyc := rfl
@[simp] theorem State.setRel_regs (s : State) (st : Nat) (e : RelEntry) : (s.setRel st e).regs = s.regs := rfl
@[simp] theorem State.setRel_staged (s : State) (st : Nat) (e : RelEntry) : (s.setRel st e).staged = s.staged := rfl
@[simp] theorem State.setRel_ecc (s : State) (st : Nat) (e : RelEntry) : (s.setRel st e).ecc = s.ecc := rfl
@[simp] theorem State.setRel_irqEcc (s : State) (st : Nat) (e : RelEntry) : (s.setRel st e).irqEcc = s.irqEcc := rfl
@[simp] theorem State.setRel_freeCtr (s : State) (st : Nat) (e : RelEntry) : (s.setRel st e).freeCtr = s.freeCtr := rfl
@[simp] theorem State.setRel_sram (s : State) (st : Nat) (e : RelEntry) : (s.setRel st e).sram = s.sram := rfl
@[simp] theorem State.setRel_irq (s : State) (st : Nat) (e : RelEntry) : (s.setRel st e).irq = s.irq := rfl
@[simp] theorem State.setRel_tmr (s : State) (st : Nat) (e : RelEntry) : (s.setRel st e).tmr = s.tmr := rfl
@[simp] theorem State.setRel_pin (s : State) (st : Nat) (e : RelEntry) : (s.setRel st e).pin = s.pin := rfl
@[simp] theorem State.setRel_img (s : State) (st : Nat) (e : RelEntry) : (s.setRel st e).img = s.img := rfl
@[simp] theorem State.setRel_pcie (s : State) (st : Nat) (e : RelEntry) : (s.setRel st e).pcie = s.pcie := rfl
@[simp] theorem State.setRel_rst (s : State) (st : Nat) (e : RelEntry) : (s.setRel st e).rst = s.rst := rfl
@[simp] theorem State.setRel_flt (s : State) (st : Nat) (e : RelEntry) : (s.setRel st e).flt = s.flt := rfl
@[simp] theorem State.setRel_tb (s : State) (st : Nat) (e : RelEntry) : (s.setRel st e).tb = s.tb := rfl
@[simp] theorem State.setRel_flip (s : State) (st : Nat) (e : RelEntry) : (s.setRel st e).flip = s.flip := rfl
@[simp] theorem State.setRel_lnk (s : State) (st : Nat) (e : RelEntry) : (s.setRel st e).lnk = s.lnk := rfl
@[simp] theorem State.setRel_mdr (s : State) (st : Nat) (e : RelEntry) : (s.setRel st e).mdr = s.mdr := rfl
@[simp] theorem State.setRel_ing (s : State) (st : Nat) (e : RelEntry) : (s.setRel st e).ing = s.ing := rfl
@[simp] theorem State.setRel_cnd (s : State) (st : Nat) (e : RelEntry) : (s.setRel st e).cnd = s.cnd := rfl
@[simp] theorem State.setRel_pf (s : State) (st : Nat) (e : RelEntry) : (s.setRel st e).pf = s.pf := rfl
@[simp] theorem State.setRel_obj (s : State) (st : Nat) (e : RelEntry) : (s.setRel st e).obj = s.obj := rfl
@[simp] theorem State.setRel_dec (s : State) (st : Nat) (e : RelEntry) : (s.setRel st e).dec = s.dec := rfl
@[simp] theorem State.setRel_ro (s : State) (st : Nat) (e : RelEntry) : (s.setRel st e).ro = s.ro := rfl
@[simp] theorem State.setRel_qm (s : State) (st : Nat) (e : RelEntry) : (s.setRel st e).qm = s.qm := rfl
@[simp] theorem State.setRel_dma (s : State) (st : Nat) (e : RelEntry) : (s.setRel st e).dma = s.dma := rfl
@[simp] theorem State.setRel_dram (s : State) (st : Nat) (e : RelEntry) : (s.setRel st e).dram = s.dram := rfl
@[simp] theorem State.setRel_resp (s : State) (st : Nat) (e : RelEntry) : (s.setRel st e).resp = s.resp := rfl
@[simp] theorem State.setRel_srv (s : State) (st : Nat) (e : RelEntry) : (s.setRel st e).srv = s.srv := rfl
@[simp] theorem State.setRel_cvl (s : State) (st : Nat) (e : RelEntry) : (s.setRel st e).cvl = s.cvl := rfl
@[simp] theorem State.setRel_vox (s : State) (st : Nat) (e : RelEntry) : (s.setRel st e).vox = s.vox := rfl
@[simp] theorem State.setRel_sep (s : State) (st : Nat) (e : RelEntry) : (s.setRel st e).sep = s.sep := rfl
@[simp] theorem State.setRel_rd (s : State) (st : Nat) (e : RelEntry) (o : Nat) : (s.setRel st e).rd o = s.rd o := rfl
@[simp] theorem State.setRel_fld (s : State) (st : Nat) (e : RelEntry) (g : Fld) : (s.setRel st e).fld g = s.fld g := rfl
@[simp] theorem State.setRel_flag (s : State) (st : Nat) (e : RelEntry) (g : Fld) : (s.setRel st e).flag g = s.flag g := rfl
@[simp] theorem State.setRel_up (s : State) (st : Nat) (e : RelEntry) (d : Nat) : (s.setRel st e).up d = s.up d := rfl

/-! ### setSentRec -/

@[simp] theorem State.setSentRec_pending (s : State) (st : Nat) (r : SentRec) : (s.setSentRec st r).pending = s.pending := rfl
@[simp] theorem State.setSentRec_cycle (s : State) (st : Nat) (r : SentRec) : (s.setSentRec st r).cycle = s.cycle := rfl
@[simp] theorem State.setSentRec_cyc (s : State) (st : Nat) (r : SentRec) : (s.setSentRec st r).cyc = s.cyc := rfl
@[simp] theorem State.setSentRec_regs (s : State) (st : Nat) (r : SentRec) : (s.setSentRec st r).regs = s.regs := rfl
@[simp] theorem State.setSentRec_staged (s : State) (st : Nat) (r : SentRec) : (s.setSentRec st r).staged = s.staged := rfl
@[simp] theorem State.setSentRec_ecc (s : State) (st : Nat) (r : SentRec) : (s.setSentRec st r).ecc = s.ecc := rfl
@[simp] theorem State.setSentRec_irqEcc (s : State) (st : Nat) (r : SentRec) : (s.setSentRec st r).irqEcc = s.irqEcc := rfl
@[simp] theorem State.setSentRec_freeCtr (s : State) (st : Nat) (r : SentRec) : (s.setSentRec st r).freeCtr = s.freeCtr := rfl
@[simp] theorem State.setSentRec_sram (s : State) (st : Nat) (r : SentRec) : (s.setSentRec st r).sram = s.sram := rfl
@[simp] theorem State.setSentRec_irq (s : State) (st : Nat) (r : SentRec) : (s.setSentRec st r).irq = s.irq := rfl
@[simp] theorem State.setSentRec_tmr (s : State) (st : Nat) (r : SentRec) : (s.setSentRec st r).tmr = s.tmr := rfl
@[simp] theorem State.setSentRec_pin (s : State) (st : Nat) (r : SentRec) : (s.setSentRec st r).pin = s.pin := rfl
@[simp] theorem State.setSentRec_img (s : State) (st : Nat) (r : SentRec) : (s.setSentRec st r).img = s.img := rfl
@[simp] theorem State.setSentRec_pcie (s : State) (st : Nat) (r : SentRec) : (s.setSentRec st r).pcie = s.pcie := rfl
@[simp] theorem State.setSentRec_rst (s : State) (st : Nat) (r : SentRec) : (s.setSentRec st r).rst = s.rst := rfl
@[simp] theorem State.setSentRec_flt (s : State) (st : Nat) (r : SentRec) : (s.setSentRec st r).flt = s.flt := rfl
@[simp] theorem State.setSentRec_tb (s : State) (st : Nat) (r : SentRec) : (s.setSentRec st r).tb = s.tb := rfl
@[simp] theorem State.setSentRec_flip (s : State) (st : Nat) (r : SentRec) : (s.setSentRec st r).flip = s.flip := rfl
@[simp] theorem State.setSentRec_lnk (s : State) (st : Nat) (r : SentRec) : (s.setSentRec st r).lnk = s.lnk := rfl
@[simp] theorem State.setSentRec_mdr (s : State) (st : Nat) (r : SentRec) : (s.setSentRec st r).mdr = s.mdr := rfl
@[simp] theorem State.setSentRec_ing (s : State) (st : Nat) (r : SentRec) : (s.setSentRec st r).ing = s.ing := rfl
@[simp] theorem State.setSentRec_cnd (s : State) (st : Nat) (r : SentRec) : (s.setSentRec st r).cnd = s.cnd := rfl
@[simp] theorem State.setSentRec_pf (s : State) (st : Nat) (r : SentRec) : (s.setSentRec st r).pf = s.pf := rfl
@[simp] theorem State.setSentRec_obj (s : State) (st : Nat) (r : SentRec) : (s.setSentRec st r).obj = s.obj := rfl
@[simp] theorem State.setSentRec_dec (s : State) (st : Nat) (r : SentRec) : (s.setSentRec st r).dec = s.dec := rfl
@[simp] theorem State.setSentRec_ro (s : State) (st : Nat) (r : SentRec) : (s.setSentRec st r).ro = s.ro := rfl
@[simp] theorem State.setSentRec_qm (s : State) (st : Nat) (r : SentRec) : (s.setSentRec st r).qm = s.qm := rfl
@[simp] theorem State.setSentRec_dma (s : State) (st : Nat) (r : SentRec) : (s.setSentRec st r).dma = s.dma := rfl
@[simp] theorem State.setSentRec_dram (s : State) (st : Nat) (r : SentRec) : (s.setSentRec st r).dram = s.dram := rfl
@[simp] theorem State.setSentRec_resp (s : State) (st : Nat) (r : SentRec) : (s.setSentRec st r).resp = s.resp := rfl
@[simp] theorem State.setSentRec_srv (s : State) (st : Nat) (r : SentRec) : (s.setSentRec st r).srv = s.srv := rfl
@[simp] theorem State.setSentRec_cvl (s : State) (st : Nat) (r : SentRec) : (s.setSentRec st r).cvl = s.cvl := rfl
@[simp] theorem State.setSentRec_vox (s : State) (st : Nat) (r : SentRec) : (s.setSentRec st r).vox = s.vox := rfl
@[simp] theorem State.setSentRec_sep (s : State) (st : Nat) (r : SentRec) : (s.setSentRec st r).sep = s.sep := rfl
@[simp] theorem State.setSentRec_rd (s : State) (st : Nat) (r : SentRec) (o : Nat) : (s.setSentRec st r).rd o = s.rd o := rfl
@[simp] theorem State.setSentRec_fld (s : State) (st : Nat) (r : SentRec) (g : Fld) : (s.setSentRec st r).fld g = s.fld g := rfl
@[simp] theorem State.setSentRec_flag (s : State) (st : Nat) (r : SentRec) (g : Fld) : (s.setSentRec st r).flag g = s.flag g := rfl
@[simp] theorem State.setSentRec_up (s : State) (st : Nat) (r : SentRec) (d : Nat) : (s.setSentRec st r).up d = s.up d := rfl

/-! ### setCapture -/

@[simp] theorem State.setCapture_pending (s : State) (k : Nat) (c : Capture) : (s.setCapture k c).pending = s.pending := rfl
@[simp] theorem State.setCapture_cycle (s : State) (k : Nat) (c : Capture) : (s.setCapture k c).cycle = s.cycle := rfl
@[simp] theorem State.setCapture_cyc (s : State) (k : Nat) (c : Capture) : (s.setCapture k c).cyc = s.cyc := rfl
@[simp] theorem State.setCapture_regs (s : State) (k : Nat) (c : Capture) : (s.setCapture k c).regs = s.regs := rfl
@[simp] theorem State.setCapture_staged (s : State) (k : Nat) (c : Capture) : (s.setCapture k c).staged = s.staged := rfl
@[simp] theorem State.setCapture_ecc (s : State) (k : Nat) (c : Capture) : (s.setCapture k c).ecc = s.ecc := rfl
@[simp] theorem State.setCapture_irqEcc (s : State) (k : Nat) (c : Capture) : (s.setCapture k c).irqEcc = s.irqEcc := rfl
@[simp] theorem State.setCapture_freeCtr (s : State) (k : Nat) (c : Capture) : (s.setCapture k c).freeCtr = s.freeCtr := rfl
@[simp] theorem State.setCapture_sram (s : State) (k : Nat) (c : Capture) : (s.setCapture k c).sram = s.sram := rfl
@[simp] theorem State.setCapture_irq (s : State) (k : Nat) (c : Capture) : (s.setCapture k c).irq = s.irq := rfl
@[simp] theorem State.setCapture_tmr (s : State) (k : Nat) (c : Capture) : (s.setCapture k c).tmr = s.tmr := rfl
@[simp] theorem State.setCapture_pin (s : State) (k : Nat) (c : Capture) : (s.setCapture k c).pin = s.pin := rfl
@[simp] theorem State.setCapture_img (s : State) (k : Nat) (c : Capture) : (s.setCapture k c).img = s.img := rfl
@[simp] theorem State.setCapture_pcie (s : State) (k : Nat) (c : Capture) : (s.setCapture k c).pcie = s.pcie := rfl
@[simp] theorem State.setCapture_rst (s : State) (k : Nat) (c : Capture) : (s.setCapture k c).rst = s.rst := rfl
@[simp] theorem State.setCapture_flt (s : State) (k : Nat) (c : Capture) : (s.setCapture k c).flt = s.flt := rfl
@[simp] theorem State.setCapture_tb (s : State) (k : Nat) (c : Capture) : (s.setCapture k c).tb = s.tb := rfl
@[simp] theorem State.setCapture_flip (s : State) (k : Nat) (c : Capture) : (s.setCapture k c).flip = s.flip := rfl
@[simp] theorem State.setCapture_rel (s : State) (k : Nat) (c : Capture) : (s.setCapture k c).rel = s.rel := rfl
@[simp] theorem State.setCapture_lnk (s : State) (k : Nat) (c : Capture) : (s.setCapture k c).lnk = s.lnk := rfl
@[simp] theorem State.setCapture_mdr (s : State) (k : Nat) (c : Capture) : (s.setCapture k c).mdr = s.mdr := rfl
@[simp] theorem State.setCapture_ing (s : State) (k : Nat) (c : Capture) : (s.setCapture k c).ing = s.ing := rfl
@[simp] theorem State.setCapture_cnd (s : State) (k : Nat) (c : Capture) : (s.setCapture k c).cnd = s.cnd := rfl
@[simp] theorem State.setCapture_obj (s : State) (k : Nat) (c : Capture) : (s.setCapture k c).obj = s.obj := rfl
@[simp] theorem State.setCapture_dec (s : State) (k : Nat) (c : Capture) : (s.setCapture k c).dec = s.dec := rfl
@[simp] theorem State.setCapture_ro (s : State) (k : Nat) (c : Capture) : (s.setCapture k c).ro = s.ro := rfl
@[simp] theorem State.setCapture_qm (s : State) (k : Nat) (c : Capture) : (s.setCapture k c).qm = s.qm := rfl
@[simp] theorem State.setCapture_dma (s : State) (k : Nat) (c : Capture) : (s.setCapture k c).dma = s.dma := rfl
@[simp] theorem State.setCapture_dram (s : State) (k : Nat) (c : Capture) : (s.setCapture k c).dram = s.dram := rfl
@[simp] theorem State.setCapture_resp (s : State) (k : Nat) (c : Capture) : (s.setCapture k c).resp = s.resp := rfl
@[simp] theorem State.setCapture_srv (s : State) (k : Nat) (c : Capture) : (s.setCapture k c).srv = s.srv := rfl
@[simp] theorem State.setCapture_cvl (s : State) (k : Nat) (c : Capture) : (s.setCapture k c).cvl = s.cvl := rfl
@[simp] theorem State.setCapture_vox (s : State) (k : Nat) (c : Capture) : (s.setCapture k c).vox = s.vox := rfl
@[simp] theorem State.setCapture_sep (s : State) (k : Nat) (c : Capture) : (s.setCapture k c).sep = s.sep := rfl
@[simp] theorem State.setCapture_rd (s : State) (k : Nat) (c : Capture) (o : Nat) : (s.setCapture k c).rd o = s.rd o := rfl
@[simp] theorem State.setCapture_fld (s : State) (k : Nat) (c : Capture) (g : Fld) : (s.setCapture k c).fld g = s.fld g := rfl
@[simp] theorem State.setCapture_flag (s : State) (k : Nat) (c : Capture) (g : Fld) : (s.setCapture k c).flag g = s.flag g := rfl
@[simp] theorem State.setCapture_up (s : State) (k : Nat) (c : Capture) (d : Nat) : (s.setCapture k c).up d = s.up d := rfl

/-! ### setPinX -/

@[simp] theorem State.setPinX_pending (s : State) (p : Nat) (x : PinX) : (s.setPinX p x).pending = s.pending := rfl
@[simp] theorem State.setPinX_cycle (s : State) (p : Nat) (x : PinX) : (s.setPinX p x).cycle = s.cycle := rfl
@[simp] theorem State.setPinX_cyc (s : State) (p : Nat) (x : PinX) : (s.setPinX p x).cyc = s.cyc := rfl
@[simp] theorem State.setPinX_regs (s : State) (p : Nat) (x : PinX) : (s.setPinX p x).regs = s.regs := rfl
@[simp] theorem State.setPinX_staged (s : State) (p : Nat) (x : PinX) : (s.setPinX p x).staged = s.staged := rfl
@[simp] theorem State.setPinX_ecc (s : State) (p : Nat) (x : PinX) : (s.setPinX p x).ecc = s.ecc := rfl
@[simp] theorem State.setPinX_irqEcc (s : State) (p : Nat) (x : PinX) : (s.setPinX p x).irqEcc = s.irqEcc := rfl
@[simp] theorem State.setPinX_freeCtr (s : State) (p : Nat) (x : PinX) : (s.setPinX p x).freeCtr = s.freeCtr := rfl
@[simp] theorem State.setPinX_sram (s : State) (p : Nat) (x : PinX) : (s.setPinX p x).sram = s.sram := rfl
@[simp] theorem State.setPinX_irq (s : State) (p : Nat) (x : PinX) : (s.setPinX p x).irq = s.irq := rfl
@[simp] theorem State.setPinX_tmr (s : State) (p : Nat) (x : PinX) : (s.setPinX p x).tmr = s.tmr := rfl
@[simp] theorem State.setPinX_img (s : State) (p : Nat) (x : PinX) : (s.setPinX p x).img = s.img := rfl
@[simp] theorem State.setPinX_pcie (s : State) (p : Nat) (x : PinX) : (s.setPinX p x).pcie = s.pcie := rfl
@[simp] theorem State.setPinX_rst (s : State) (p : Nat) (x : PinX) : (s.setPinX p x).rst = s.rst := rfl
@[simp] theorem State.setPinX_flt (s : State) (p : Nat) (x : PinX) : (s.setPinX p x).flt = s.flt := rfl
@[simp] theorem State.setPinX_tb (s : State) (p : Nat) (x : PinX) : (s.setPinX p x).tb = s.tb := rfl
@[simp] theorem State.setPinX_flip (s : State) (p : Nat) (x : PinX) : (s.setPinX p x).flip = s.flip := rfl
@[simp] theorem State.setPinX_rel (s : State) (p : Nat) (x : PinX) : (s.setPinX p x).rel = s.rel := rfl
@[simp] theorem State.setPinX_lnk (s : State) (p : Nat) (x : PinX) : (s.setPinX p x).lnk = s.lnk := rfl
@[simp] theorem State.setPinX_mdr (s : State) (p : Nat) (x : PinX) : (s.setPinX p x).mdr = s.mdr := rfl
@[simp] theorem State.setPinX_ing (s : State) (p : Nat) (x : PinX) : (s.setPinX p x).ing = s.ing := rfl
@[simp] theorem State.setPinX_cnd (s : State) (p : Nat) (x : PinX) : (s.setPinX p x).cnd = s.cnd := rfl
@[simp] theorem State.setPinX_pf (s : State) (p : Nat) (x : PinX) : (s.setPinX p x).pf = s.pf := rfl
@[simp] theorem State.setPinX_obj (s : State) (p : Nat) (x : PinX) : (s.setPinX p x).obj = s.obj := rfl
@[simp] theorem State.setPinX_dec (s : State) (p : Nat) (x : PinX) : (s.setPinX p x).dec = s.dec := rfl
@[simp] theorem State.setPinX_ro (s : State) (p : Nat) (x : PinX) : (s.setPinX p x).ro = s.ro := rfl
@[simp] theorem State.setPinX_qm (s : State) (p : Nat) (x : PinX) : (s.setPinX p x).qm = s.qm := rfl
@[simp] theorem State.setPinX_dma (s : State) (p : Nat) (x : PinX) : (s.setPinX p x).dma = s.dma := rfl
@[simp] theorem State.setPinX_dram (s : State) (p : Nat) (x : PinX) : (s.setPinX p x).dram = s.dram := rfl
@[simp] theorem State.setPinX_resp (s : State) (p : Nat) (x : PinX) : (s.setPinX p x).resp = s.resp := rfl
@[simp] theorem State.setPinX_srv (s : State) (p : Nat) (x : PinX) : (s.setPinX p x).srv = s.srv := rfl
@[simp] theorem State.setPinX_cvl (s : State) (p : Nat) (x : PinX) : (s.setPinX p x).cvl = s.cvl := rfl
@[simp] theorem State.setPinX_vox (s : State) (p : Nat) (x : PinX) : (s.setPinX p x).vox = s.vox := rfl
@[simp] theorem State.setPinX_sep (s : State) (p : Nat) (x : PinX) : (s.setPinX p x).sep = s.sep := rfl
@[simp] theorem State.setPinX_rd (s : State) (p : Nat) (x : PinX) (o : Nat) : (s.setPinX p x).rd o = s.rd o := rfl
@[simp] theorem State.setPinX_fld (s : State) (p : Nat) (x : PinX) (g : Fld) : (s.setPinX p x).fld g = s.fld g := rfl
@[simp] theorem State.setPinX_flag (s : State) (p : Nat) (x : PinX) (g : Fld) : (s.setPinX p x).flag g = s.flag g := rfl
@[simp] theorem State.setPinX_up (s : State) (p : Nat) (x : PinX) (d : Nat) : (s.setPinX p x).up d = s.up d := rfl

/-! ### setTimer -/

@[simp] theorem State.setTimer_pending (s : State) (n : Nat) (x : TimerX) : (s.setTimer n x).pending = s.pending := rfl
@[simp] theorem State.setTimer_cycle (s : State) (n : Nat) (x : TimerX) : (s.setTimer n x).cycle = s.cycle := rfl
@[simp] theorem State.setTimer_cyc (s : State) (n : Nat) (x : TimerX) : (s.setTimer n x).cyc = s.cyc := rfl
@[simp] theorem State.setTimer_regs (s : State) (n : Nat) (x : TimerX) : (s.setTimer n x).regs = s.regs := rfl
@[simp] theorem State.setTimer_staged (s : State) (n : Nat) (x : TimerX) : (s.setTimer n x).staged = s.staged := rfl
@[simp] theorem State.setTimer_ecc (s : State) (n : Nat) (x : TimerX) : (s.setTimer n x).ecc = s.ecc := rfl
@[simp] theorem State.setTimer_irqEcc (s : State) (n : Nat) (x : TimerX) : (s.setTimer n x).irqEcc = s.irqEcc := rfl
@[simp] theorem State.setTimer_freeCtr (s : State) (n : Nat) (x : TimerX) : (s.setTimer n x).freeCtr = s.freeCtr := rfl
@[simp] theorem State.setTimer_sram (s : State) (n : Nat) (x : TimerX) : (s.setTimer n x).sram = s.sram := rfl
@[simp] theorem State.setTimer_irq (s : State) (n : Nat) (x : TimerX) : (s.setTimer n x).irq = s.irq := rfl
@[simp] theorem State.setTimer_pin (s : State) (n : Nat) (x : TimerX) : (s.setTimer n x).pin = s.pin := rfl
@[simp] theorem State.setTimer_img (s : State) (n : Nat) (x : TimerX) : (s.setTimer n x).img = s.img := rfl
@[simp] theorem State.setTimer_pcie (s : State) (n : Nat) (x : TimerX) : (s.setTimer n x).pcie = s.pcie := rfl
@[simp] theorem State.setTimer_rst (s : State) (n : Nat) (x : TimerX) : (s.setTimer n x).rst = s.rst := rfl
@[simp] theorem State.setTimer_flt (s : State) (n : Nat) (x : TimerX) : (s.setTimer n x).flt = s.flt := rfl
@[simp] theorem State.setTimer_tb (s : State) (n : Nat) (x : TimerX) : (s.setTimer n x).tb = s.tb := rfl
@[simp] theorem State.setTimer_flip (s : State) (n : Nat) (x : TimerX) : (s.setTimer n x).flip = s.flip := rfl
@[simp] theorem State.setTimer_rel (s : State) (n : Nat) (x : TimerX) : (s.setTimer n x).rel = s.rel := rfl
@[simp] theorem State.setTimer_lnk (s : State) (n : Nat) (x : TimerX) : (s.setTimer n x).lnk = s.lnk := rfl
@[simp] theorem State.setTimer_mdr (s : State) (n : Nat) (x : TimerX) : (s.setTimer n x).mdr = s.mdr := rfl
@[simp] theorem State.setTimer_ing (s : State) (n : Nat) (x : TimerX) : (s.setTimer n x).ing = s.ing := rfl
@[simp] theorem State.setTimer_cnd (s : State) (n : Nat) (x : TimerX) : (s.setTimer n x).cnd = s.cnd := rfl
@[simp] theorem State.setTimer_pf (s : State) (n : Nat) (x : TimerX) : (s.setTimer n x).pf = s.pf := rfl
@[simp] theorem State.setTimer_obj (s : State) (n : Nat) (x : TimerX) : (s.setTimer n x).obj = s.obj := rfl
@[simp] theorem State.setTimer_dec (s : State) (n : Nat) (x : TimerX) : (s.setTimer n x).dec = s.dec := rfl
@[simp] theorem State.setTimer_ro (s : State) (n : Nat) (x : TimerX) : (s.setTimer n x).ro = s.ro := rfl
@[simp] theorem State.setTimer_qm (s : State) (n : Nat) (x : TimerX) : (s.setTimer n x).qm = s.qm := rfl
@[simp] theorem State.setTimer_dma (s : State) (n : Nat) (x : TimerX) : (s.setTimer n x).dma = s.dma := rfl
@[simp] theorem State.setTimer_dram (s : State) (n : Nat) (x : TimerX) : (s.setTimer n x).dram = s.dram := rfl
@[simp] theorem State.setTimer_resp (s : State) (n : Nat) (x : TimerX) : (s.setTimer n x).resp = s.resp := rfl
@[simp] theorem State.setTimer_srv (s : State) (n : Nat) (x : TimerX) : (s.setTimer n x).srv = s.srv := rfl
@[simp] theorem State.setTimer_cvl (s : State) (n : Nat) (x : TimerX) : (s.setTimer n x).cvl = s.cvl := rfl
@[simp] theorem State.setTimer_vox (s : State) (n : Nat) (x : TimerX) : (s.setTimer n x).vox = s.vox := rfl
@[simp] theorem State.setTimer_sep (s : State) (n : Nat) (x : TimerX) : (s.setTimer n x).sep = s.sep := rfl
@[simp] theorem State.setTimer_rd (s : State) (n : Nat) (x : TimerX) (o : Nat) : (s.setTimer n x).rd o = s.rd o := rfl
@[simp] theorem State.setTimer_fld (s : State) (n : Nat) (x : TimerX) (g : Fld) : (s.setTimer n x).fld g = s.fld g := rfl
@[simp] theorem State.setTimer_flag (s : State) (n : Nat) (x : TimerX) (g : Fld) : (s.setTimer n x).flag g = s.flag g := rfl
@[simp] theorem State.setTimer_up (s : State) (n : Nat) (x : TimerX) (d : Nat) : (s.setTimer n x).up d = s.up d := rfl

/-! ### setThr -/

@[simp] theorem State.setThr_pending (s : State) (c t : Nat) (x : Thread) : (s.setThr c t x).pending = s.pending := rfl
@[simp] theorem State.setThr_cycle (s : State) (c t : Nat) (x : Thread) : (s.setThr c t x).cycle = s.cycle := rfl
@[simp] theorem State.setThr_cyc (s : State) (c t : Nat) (x : Thread) : (s.setThr c t x).cyc = s.cyc := rfl
@[simp] theorem State.setThr_regs (s : State) (c t : Nat) (x : Thread) : (s.setThr c t x).regs = s.regs := rfl
@[simp] theorem State.setThr_staged (s : State) (c t : Nat) (x : Thread) : (s.setThr c t x).staged = s.staged := rfl
@[simp] theorem State.setThr_ecc (s : State) (c t : Nat) (x : Thread) : (s.setThr c t x).ecc = s.ecc := rfl
@[simp] theorem State.setThr_irqEcc (s : State) (c t : Nat) (x : Thread) : (s.setThr c t x).irqEcc = s.irqEcc := rfl
@[simp] theorem State.setThr_freeCtr (s : State) (c t : Nat) (x : Thread) : (s.setThr c t x).freeCtr = s.freeCtr := rfl
@[simp] theorem State.setThr_sram (s : State) (c t : Nat) (x : Thread) : (s.setThr c t x).sram = s.sram := rfl
@[simp] theorem State.setThr_irq (s : State) (c t : Nat) (x : Thread) : (s.setThr c t x).irq = s.irq := rfl
@[simp] theorem State.setThr_tmr (s : State) (c t : Nat) (x : Thread) : (s.setThr c t x).tmr = s.tmr := rfl
@[simp] theorem State.setThr_pin (s : State) (c t : Nat) (x : Thread) : (s.setThr c t x).pin = s.pin := rfl
@[simp] theorem State.setThr_img (s : State) (c t : Nat) (x : Thread) : (s.setThr c t x).img = s.img := rfl
@[simp] theorem State.setThr_pcie (s : State) (c t : Nat) (x : Thread) : (s.setThr c t x).pcie = s.pcie := rfl
@[simp] theorem State.setThr_rst (s : State) (c t : Nat) (x : Thread) : (s.setThr c t x).rst = s.rst := rfl
@[simp] theorem State.setThr_flt (s : State) (c t : Nat) (x : Thread) : (s.setThr c t x).flt = s.flt := rfl
@[simp] theorem State.setThr_tb (s : State) (c t : Nat) (x : Thread) : (s.setThr c t x).tb = s.tb := rfl
@[simp] theorem State.setThr_flip (s : State) (c t : Nat) (x : Thread) : (s.setThr c t x).flip = s.flip := rfl
@[simp] theorem State.setThr_rel (s : State) (c t : Nat) (x : Thread) : (s.setThr c t x).rel = s.rel := rfl
@[simp] theorem State.setThr_lnk (s : State) (c t : Nat) (x : Thread) : (s.setThr c t x).lnk = s.lnk := rfl
@[simp] theorem State.setThr_mdr (s : State) (c t : Nat) (x : Thread) : (s.setThr c t x).mdr = s.mdr := rfl
@[simp] theorem State.setThr_ing (s : State) (c t : Nat) (x : Thread) : (s.setThr c t x).ing = s.ing := rfl
@[simp] theorem State.setThr_cnd (s : State) (c t : Nat) (x : Thread) : (s.setThr c t x).cnd = s.cnd := rfl
@[simp] theorem State.setThr_pf (s : State) (c t : Nat) (x : Thread) : (s.setThr c t x).pf = s.pf := rfl
@[simp] theorem State.setThr_obj (s : State) (c t : Nat) (x : Thread) : (s.setThr c t x).obj = s.obj := rfl
@[simp] theorem State.setThr_dec (s : State) (c t : Nat) (x : Thread) : (s.setThr c t x).dec = s.dec := rfl
@[simp] theorem State.setThr_ro (s : State) (c t : Nat) (x : Thread) : (s.setThr c t x).ro = s.ro := rfl
@[simp] theorem State.setThr_qm (s : State) (c t : Nat) (x : Thread) : (s.setThr c t x).qm = s.qm := rfl
@[simp] theorem State.setThr_dma (s : State) (c t : Nat) (x : Thread) : (s.setThr c t x).dma = s.dma := rfl
@[simp] theorem State.setThr_dram (s : State) (c t : Nat) (x : Thread) : (s.setThr c t x).dram = s.dram := rfl
@[simp] theorem State.setThr_resp (s : State) (c t : Nat) (x : Thread) : (s.setThr c t x).resp = s.resp := rfl
@[simp] theorem State.setThr_srv (s : State) (c t : Nat) (x : Thread) : (s.setThr c t x).srv = s.srv := rfl
@[simp] theorem State.setThr_cvl (s : State) (c t : Nat) (x : Thread) : (s.setThr c t x).cvl = s.cvl := rfl
@[simp] theorem State.setThr_vox (s : State) (c t : Nat) (x : Thread) : (s.setThr c t x).vox = s.vox := rfl
@[simp] theorem State.setThr_rd (s : State) (c t : Nat) (x : Thread) (o : Nat) : (s.setThr c t x).rd o = s.rd o := rfl
@[simp] theorem State.setThr_fld (s : State) (c t : Nat) (x : Thread) (g : Fld) : (s.setThr c t x).fld g = s.fld g := rfl
@[simp] theorem State.setThr_flag (s : State) (c t : Nat) (x : Thread) (g : Fld) : (s.setThr c t x).flag g = s.flag g := rfl
@[simp] theorem State.setThr_up (s : State) (c t : Nat) (x : Thread) (d : Nat) : (s.setThr c t x).up d = s.up d := rfl

/-! ### What was set reads back; the others are as before -/

@[simp] theorem State.lane_setLane_same (s : State) (n : Nat) (x : LaneX) : (s.setLane n x).lane n = x := by
  simp [State.lane, State.setLane]

theorem State.lane_setLane_other (s : State) (n j : Nat) (x : LaneX) (h : j ≠ n) : (s.setLane n x).lane j = s.lane j := by
  simp [State.lane, State.setLane, smGet_smSet_other _ _ _ _ _ _ h]

@[simp] theorem State.mlane_setMlane_same (s : State) (n : Nat) (x : MdrX) : (s.setMlane n x).mlane n = x := by
  simp [State.mlane, State.setMlane]

theorem State.mlane_setMlane_other (s : State) (n j : Nat) (x : MdrX) (h : j ≠ n) : (s.setMlane n x).mlane j = s.mlane j := by
  simp [State.mlane, State.setMlane, smGet_smSet_other _ _ _ _ _ _ h]

@[simp] theorem State.ingLane_setIngLane_same (s : State) (n : Nat) (x : IngLane) : (s.setIngLane n x).ingLane n = x := by
  simp [State.ingLane, State.setIngLane]

theorem State.ingLane_setIngLane_other (s : State) (n j : Nat) (x : IngLane) (h : j ≠ n) : (s.setIngLane n x).ingLane j = s.ingLane j := by
  simp [State.ingLane, State.setIngLane, smGet_smSet_other _ _ _ _ _ _ h]

@[simp] theorem State.pwm_setPwm_same (s : State) (m : Nat) (x : PwmX) : (s.setPwm m x).pwm m = x := by
  simp [State.pwm, State.setPwm]

theorem State.pwm_setPwm_other (s : State) (m j : Nat) (x : PwmX) (h : j ≠ m) : (s.setPwm m x).pwm j = s.pwm j := by
  simp [State.pwm, State.setPwm, smGet_smSet_other _ _ _ _ _ _ h]

@[simp] theorem State.loopX_setLoop_same (s : State) (i : Nat) (x : LoopX) : (s.setLoop i x).loopX i = x := by
  simp [State.loopX, State.setLoop]

theorem State.loopX_setLoop_other (s : State) (i j : Nat) (x : LoopX) (h : j ≠ i) : (s.setLoop i x).loopX j = s.loopX j := by
  simp [State.loopX, State.setLoop, smGet_smSet_other _ _ _ _ _ _ h]

@[simp] theorem State.voice_setVoice_same (s : State) (v : Nat) (x : Voice) : (s.setVoice v x).voice v = x := by
  simp [State.voice, State.setVoice]

theorem State.voice_setVoice_other (s : State) (v j : Nat) (x : Voice) (h : j ≠ v) : (s.setVoice v x).voice j = s.voice j := by
  simp [State.voice, State.setVoice, smGet_smSet_other _ _ _ _ _ _ h]

@[simp] theorem State.bus_setBus_same (s : State) (b : Nat) (x : Bus) : (s.setBus b x).bus b = x := by
  simp [State.bus, State.setBus]

theorem State.bus_setBus_other (s : State) (b j : Nat) (x : Bus) (h : j ≠ b) : (s.setBus b x).bus j = s.bus j := by
  simp [State.bus, State.setBus, smGet_smSet_other _ _ _ _ _ _ h]

@[simp] theorem State.dmaX_setDmaX_same (s : State) (ch : Nat) (x : DmaX) : (s.setDmaX ch x).dmaX ch = x := by
  simp [State.dmaX, State.setDmaX]

theorem State.dmaX_setDmaX_other (s : State) (ch j : Nat) (x : DmaX) (h : j ≠ ch) : (s.setDmaX ch x).dmaX j = s.dmaX j := by
  simp [State.dmaX, State.setDmaX, smGet_smSet_other _ _ _ _ _ _ h]

@[simp] theorem State.irqCore_setIrqCore_same (s : State) (c : Nat) (x : IrqCore) : (s.setIrqCore c x).irqCore c = x := by
  simp [State.irqCore, State.setIrqCore]

theorem State.irqCore_setIrqCore_other (s : State) (c j : Nat) (x : IrqCore) (h : j ≠ c) : (s.setIrqCore c x).irqCore j = s.irqCore j := by
  simp [State.irqCore, State.setIrqCore, smGet_smSet_other _ _ _ _ _ _ h]

@[simp] theorem State.sentRec_setSentRec_same (s : State) (st : Nat) (x : SentRec) : (s.setSentRec st x).sentRec st = x := by
  simp [State.sentRec, State.setSentRec]

theorem State.sentRec_setSentRec_other (s : State) (st j : Nat) (x : SentRec) (h : j ≠ st) : (s.setSentRec st x).sentRec j = s.sentRec j := by
  simp [State.sentRec, State.setSentRec, smGet_smSet_other _ _ _ _ _ _ h]

@[simp] theorem State.capture_setCapture_same (s : State) (k : Nat) (x : Capture) : (s.setCapture k x).capture k = x := by
  simp [State.capture, State.setCapture]

theorem State.capture_setCapture_other (s : State) (k j : Nat) (x : Capture) (h : j ≠ k) : (s.setCapture k x).capture j = s.capture j := by
  simp [State.capture, State.setCapture, smGet_smSet_other _ _ _ _ _ _ h]

@[simp] theorem State.pinX_setPinX_same (s : State) (p : Nat) (x : PinX) : (s.setPinX p x).pinX p = x := by
  simp [State.pinX, State.setPinX]

theorem State.pinX_setPinX_other (s : State) (p j : Nat) (x : PinX) (h : j ≠ p) : (s.setPinX p x).pinX j = s.pinX j := by
  simp [State.pinX, State.setPinX, smGet_smSet_other _ _ _ _ _ _ h]

@[simp] theorem State.timer_setTimer_same (s : State) (n : Nat) (x : TimerX) : (s.setTimer n x).timer n = x := by
  simp [State.timer, State.setTimer]

theorem State.timer_setTimer_other (s : State) (n j : Nat) (x : TimerX) (h : j ≠ n) : (s.setTimer n x).timer j = s.timer j := by
  simp [State.timer, State.setTimer, smGet_smSet_other _ _ _ _ _ _ h]

@[simp] theorem State.thr_setThr_same (s : State) (c t : Nat) (x : Thread) : (s.setThr c t x).thr c t = x := by
  simp [State.thr, State.setThr]

/-- Threads of the 32 cores are told apart by core and number. -/
theorem State.thr_setThr_other (s : State) (c t d u : Nat) (x : Thread) (ht : t < 4) (hu : u < 4) (h : d ≠ c ∨ u ≠ t) :
    (s.setThr c t x).thr d u = s.thr d u := by
  simp [State.thr, State.setThr, smGet_smSet_other _ _ _ _ _ _ (show 4 * d + u ≠ 4 * c + t by omega)]

/-! ### Setting fields, events and counts through the reads of other registers -/

theorem State.rd_event_other (s : State) (f : Fld) (o : Nat) (h : o ≠ f.off) : (s.event f).rd o = s.rd o :=
  State.rd_setFld_other _ _ _ _ h

theorem State.rd_count_other (s : State) (f : Fld) (n o : Nat) (h : o ≠ f.off) : (s.count f n).rd o = s.rd o :=
  State.rd_setFld_other _ _ _ _ h

/-- An event leaves its bits 1. -/
theorem State.fld_event_same (s : State) (f : Fld) (h : Fld.ok f) : (s.event f).fld f = 2 ^ (f.hi + 1 - f.lo) - 1 := by
  rw [State.event, State.fld_setFld_same _ _ _ h]
  exact Nat.mod_eq_of_lt (by have := Nat.two_pow_pos (f.hi + 1 - f.lo); omega)

/-- A count advances and saturates. -/
theorem State.fld_count_same (s : State) (f : Fld) (n : Nat) (h : Fld.ok f) :
    (s.count f n).fld f = satAdd (f.hi + 1 - f.lo) (s.fld f) n := by
  rw [State.count, State.fld_setFld_same _ _ _ h]
  apply Nat.mod_eq_of_lt
  unfold satAdd
  have := Nat.two_pow_pos (f.hi + 1 - f.lo)
  split <;> omega

end Sys2Proof.Machine
end

