-- ==== Sys2Proof/Tests/Slice0.lean ====
section
/-! SUPPORT. Tests: ill-formed commands are refused, the hypotheses of each statement can be met, a few commands of each family do on a
small state what the spec says. -/
namespace Sys2Proof.Tests
open Sys2Proof.Machine Sys2Proof.Machine.Reg
set_option Elab.async false

/-- Every domain is up, the host's link too, TB is locked, the part runs. -/
def up : State :=
  (((({ State.reset with pcie := { PcieState.reset with linkUp := true } }.wr (RST_PDSTAT 0) 0xFFFFFFFF#32).wr
    (RST_PDSTAT 1) 0xFFFFFFFF#32).wr (RST_PDSTAT 2) 0xFFFFFFFF#32).setFld GBL_STATE_STATE 3).setFld TB_STAT_STATE 2

/-- `s` with these fields set. -/
def put (s : State) (l : List (Fld × Nat)) : State := l.foldl (fun s e => s.setFld e.1 e.2) s

/-- Lane 0 in READY at rate 1 as a front-end lane, in state `l` of R107. -/
def lane (l : Nat) (fs : List (Fld × Nat)) (x : MdrX) : State :=
  (put up ([(LNK_CFG_MODE 0, 1), (LNK_STAT_STATE 0, 4), (LNK_STAT_RATE 0, 1), (MDR_LCFG_ROLE 0, 1), (MDR_NEG_VER 0, 1),
    (MDR_NEG_K 0, 4), (MDR_LSTAT_LSTATE 0, l), (MDR_LCFG_IDANY 0, 1)] ++ fs)).setMlane 0 x

/-- The flits of a well-formed message of type `t` with these words after the first. -/
def message (t : Nat) (ws : List Nat) : List (BitVec 256) :=
  let a := (0xC0DA0100 + 16 * t) :: (List.range 14).map fun i => ws.getD i 0
  msgFlits 1 t (a ++ [crc32 (beBytes a)])

/-- A thread runs with these words in its queue and these registers. -/
def thread (ws : List Word) (g : List (Nat × Word)) : Thread :=
  { Thread.idle with state := .running, queue := ws.map some, g := g }

/-- `up` with this thread 3 in core 31. -/
def sepia (x : Thread) : State := up.setThr 31 3 x

/-- Pair 0 holds a region, and crossing 99 has been swept, at slot 100. -/
def objs : State :=
  { up with
    tb := { up.tb with n := 100 }, pf := { up.pf with cross := [⟨99, [], 64, []⟩] } }

/-- An interrupt of core 31 waits for thread 3. -/
def irqs : State :=
  (put (up.setThr 31 3 { thread [0] [(15, 0x108)] with sw := 0x09000000 })
    [(SEP_CCFG_ITHR 31, 3), (IRQ_PCFG_EN 31 0, 1), (IRQ_PCFG_PRIO 31 0, 5), (⟨IRQ_SWSET 31, 0, 0⟩, 1)]).setPriv 31 0
      { IrqSrc.idle with occ := 1, presented := true }

/-- Queue 5 has this word 0, a ring of 4 KiB in the window at 0x2000000, and the budget of class 0. -/
def queue (w0 : Nat) : State :=
  put { up with img := { up.img with windows := [⟨0x2000000, 0x10000, true⟩] } }
    [(QM_CFG_NQ, 16384), (QM_QD_W 5 0, w0), (QM_QD_W 5 1, 0x2001000), (QM_QD_W 5 2, 4096), (QM_QD_W 5 3, 256),
      (QM_CLASS_EN 0, 1), (QM_CLASS_B 0, 65535)]

/-- A fill of one element in a window that the blitter may write. -/
def blits : State :=
  put { up with img := { up.img with windows := [⟨0x2000000, 0x10000, true⟩] } }
    [(SRV_BDST_ADDR, 0x2001000), (SRV_BDSTF_FMT, 3), (SRV_BDSTF_PITCH, 1), (SRV_BSIZE_W, 1), (SRV_BSIZE_H, 1)]

/-- DMA channel 0 copies from a descriptor of its ring in DRAM: a fill of 4 bytes. -/
def fills : State :=
  (put up [(DMA_CHSTAT_STATE 0, 3), (DMA_CHCFG_RSP 0, 1), (MEM_STAT_READY, 15)]).setDmaX 0
    { DmaX.idle with desc := [0x84400000, 0, 0x10000, 4, 0xA5A5A5A5, 0, 0, 0] }

theorem fills_dramReady (a : Nat) : fills.dramReady a = true :=
  (by decide +kernel : ∀ c : Fin 4, (fills.up (81 + c) && bit (fills.fld MEM_STAT_READY) c && !(bit (fills.fld MEM_STAT_FAIL) c)) = true)
    ⟨a / 32 % 4, Nat.mod_lt _ (by decide)⟩

/-! ### The hypotheses of the statements can be met -/

theorem witness_IdleStepIsOneCycle :
    (∃ (i : Instr), accessor i = none ∧ ofThread i = false) ∧
    (∃ (i : Instr) (who : Requester) (s : State), accessor i = some who ∧ (s.cyc.ev = true ∨ who ∈ s.cyc.users)) ∧
    (∃ (s : State), s.pending = [] ∧ (s.mdr.lanes.all fun e => decide (e.snd.held = [])) = true) :=
  ⟨⟨.holdoverEntry, by decide +kernel⟩,
   ⟨.tbXidRead .host, .host, { State.reset with cyc := { State.reset.cyc with users := [.host] } }, by decide +kernel⟩,
   ⟨State.reset, by decide +kernel⟩⟩

theorem witness_ResetState :
    (∃ (d : Nat), d < 96) :=
  ⟨95, by decide +kernel⟩

theorem witness_StepKeepsMemoriesWf :
    (∃ (s : State) (t : State), s.MemoriesWf ∧ step s = Host.Outcome.next t) :=
  ⟨up, idleCycle up, ⟨by unfold State.MemoriesWf; decide +kernel, rfl⟩⟩

theorem witness_QueueIsFifo :
    (∃ (s : State) (t : State), step s = Host.Outcome.next t) :=
  ⟨up, idleCycle up, rfl⟩

theorem witness_StrapsStand :
    (∃ (s : State) (t : State), (∀ (k : BitVec 5), s.pending.head? ≠ some (Instr.powerOnReset k)) ∧ step s = Host.Outcome.next t) :=
  ⟨up, idleCycle up, ⟨by decide, rfl⟩⟩

theorem witness_UndefinedOffsets :
    (∃ (off : Nat), 25165824 ≤ off ∧ off < 33554432) ∧
    (∃ (off : Nat), off < 25165824 ∧ regDef off = none ∧ mirrorOf off = off) ∧
    (∃ (off : Nat) (s : State), off < 25165824 ∧ s.uncounted off = true) ∧
    (∃ (off : Nat) (s : State), 33554432 ≤ off ∧ off < 67108864 ∧ s.inWindow off = false) ∧
    (∃ (who : Requester) (off : Nat) (s : State), off % 4 = 0 ∧ s.vacant off = true ∧ s.reaches who off = true ∧ s.silent off = false
      ∧ s.damagedAt off = false) ∧
    (∃ (who : Requester) (off : Nat) (s : State), off % 4 = 0 ∧ s.vacant off = true ∧ s.reaches who off = true ∧ s.silent off = false) ∧
    (∃ (who : Requester) (off : Nat) (s : State), off % 4 = 0 ∧ s.vacant off = true ∧ s.reaches who off = true ∧ s.silent off = true) :=
  ⟨⟨0x1FFFFFC, by decide +kernel⟩,
   ⟨0x17FFFFC, by decide +kernel⟩,
   ⟨DEC_EOPT 255, up, by decide +kernel⟩,
   ⟨0x3FFFFFC, up, by decide +kernel⟩,
   ⟨.host, 0x1800000, up, by decide +kernel⟩,
   ⟨.host, 0x1FFFFFC, up, by decide +kernel⟩,
   ⟨.host, 0x1FFFFC, { State.reset with pcie := { PcieState.reset with linkUp := true } }, by decide +kernel⟩⟩

theorem witness_PlainAccesses :
    (∃ (who : Requester) (off : Nat) (d : RegDef) (v : Word) (s : State), off % 4 = 0 ∧ off < 33554432 ∧ Served s who off ∧ s.listed
      off = some d ∧ d.banked = false ∧ ((s.accessCycle who).regEvent off).fresh = 0 ∧ s.actsLow off v = none ∧ s.actsMid off v = none ∧
      s.actsHigh off v = none ∧ devsOf off = [] ∧ (∀ (u : State), afterPlain u off = u)) ∧
    (∃ (who : Requester) (s : State), Served s who TB_ORBLOAD_LO) ∧
    (∃ (who : Requester) (off : Nat) (d : RegDef) (s : State), off % 4 = 0 ∧ off < 33554432 ∧ ServedRead s who off ∧ s.listed off =
      some d ∧ d.banked = false ∧ d.rc ≠ 0 ∧ s.readActs off = none ∧ onIdx off (SEP_ECCCNT 0) 256 32 = none ∧ (s.accessCycle
      who).regEvent off = { before := s.rd off, fresh := 0 }) ∧
    (∃ (who : Requester) (s : State), ServedRead s who RST_ISOCNT ∧ (s.accessCycle who).cyc.regEv = []) ∧
    (∃ (who : Requester) (off : Nat) (d : RegDef) (s : State), off % 4 = 0 ∧ off < 33554432 ∧ Served s who off ∧ s.listed off = some d
      ∧ d.banked = true ∧ s.stagedOpen = true) ∧
    (∃ (who : Requester) (off : Nat) (d : RegDef) (s : State), off % 4 = 0 ∧ off < 33554432 ∧ Served s who off ∧ s.listed off = some d
      ∧ d.banked = true ∧ s.stagedOpen = false) ∧
    (∃ (who : Requester) (s : State), Served s who TB_SLIPMAX) ∧
    (∃ (who : Requester) (off : Nat) (be : BitVec 4) (s : State), s.reaches who off = true ∧ s.silent (off / 4 * 4) = false ∧ s.vacant
      (off / 4 * 4) = false ∧ be ≠ 15#4) :=
  ⟨⟨.host, SEP_DSEL 31, RegTab.row_SEP_DSEL, 5, up, by decide +kernel, by decide +kernel, by unfold Served; decide +kernel,
     by decide +kernel, rfl, by decide +kernel, by decide +kernel, by decide +kernel, by decide +kernel, by decide +kernel, fun _ =>
     rfl⟩,
   ⟨.host, up, by unfold Served; decide +kernel⟩,
   ⟨.host, PF_ECCCNT, RegTab.row_PF_ECCCNT, put up [(PF_ECCCNT_CORR, 5)], by unfold ServedRead Served; decide +kernel⟩,
   ⟨.host, put up [(RST_ISOCNT_COUNT, 5)], by unfold ServedRead Served; decide +kernel⟩,
   ⟨.host, TB_SLIPMAX, RegTab.row_TB_SLIPMAX, up, by unfold Served; decide +kernel⟩,
   ⟨.host, TB_SLIPMAX, RegTab.row_TB_SLIPMAX, put up [(GBL_FLIPSTAT_BUSY, 1)], by unfold Served; decide +kernel⟩,
   ⟨.host, up, by unfold Served; decide +kernel⟩,
   ⟨.host, TB_SLIPMAX + 3, 7, up, by decide +kernel⟩⟩

theorem witness_UnansweredAccesses :
    (∃ (who : Requester) (off : Nat) (s : State), off % 4 = 0 ∧ s.reaches who off = true ∧ s.silent off = true) ∧
    (∃ (who : Requester) (off : Nat) (s : State), off % 4 = 0 ∧ s.reaches who off = true ∧ s.silent off = true) ∧
    (∃ (who : Requester) (off : Nat) (s : State), s.reaches who off = false) :=
  ⟨⟨.host, 0x100000, { State.reset with pcie := { PcieState.reset with linkUp := true } }, by decide +kernel⟩,
   ⟨.host, 0x1700000, { State.reset with pcie := { PcieState.reset with linkUp := true } }, by decide +kernel⟩,
   ⟨.host, 0, State.reset, by decide +kernel⟩⟩

theorem witness_WindowsAndDamage :
    (∃ (who : Requester) (off : Nat) (f : Fld) (s : State), off % 4 = 0 ∧ Served s who off ∧ s.eccOwner off = some f ∧ ¬(20185088 ≤
      off ∧ off < 20971520) ∧ off ≠ CND_PEDVAL ∧ s.readWords off ≠ []) ∧
    (∃ (who : Requester) (off : Nat) (f : Fld) (s : State), off % 4 = 0 ∧ Served s who off ∧ s.eccOwner off = some f ∧ ¬(20185088 ≤
      off ∧ off < 20971520)) ∧
    (∃ (who : Requester) (off : Nat) (s : State), off % 4 = 0 ∧ Served s who off ∧ s.inWindow off = true ∧ s.inPlane off = true ∧
      s.stagedOpen = true) ∧
    (∃ (who : Requester) (off : Nat) (s : State), off % 4 = 0 ∧ Served s who off ∧ s.inWindow off = true ∧ s.inPlane off = true ∧
      s.stagedOpen = false) ∧
    (∃ (off : Nat) (n : Nat) (s : State), s.pcie.linkUp = true ∧ s.dramOk off n = true ∧ wordsHit s.dram.bad off n = []) ∧
    (∃ (off : Nat) (bs : List (Option Byte)) (s : State), s.pcie.linkUp = true ∧ s.dramOk off bs.length = true) :=
  ⟨⟨.host, 0x2000000, PF_ECCCNT_UNCORR, (fun s =>
     { s with img := { s.img with windows := [⟨0x2000000, 0x10000, false⟩] }, ecc := [0x2000000] }) (put up [(PF_CFG_NSP, 1),
     (PF_SPBASE_BASE, 0x2000000)]), by unfold Served; decide +kernel⟩,
   ⟨.host, 0x2000000, PF_ECCCNT_UNCORR, (fun s =>
     { s with img := { s.img with windows := [⟨0x2000000, 0x10000, false⟩] }, ecc := [0x2000000] }) (put up [(PF_CFG_NSP, 1),
     (PF_SPBASE_BASE, 0x2000000)]), by unfold Served; decide +kernel⟩,
   ⟨.host, 0x2000000, (fun s => { s with img := { s.img with windows := [⟨0x2000000, 0x10000, false⟩] } }) (put up [(PF_CFG_NSP, 1),
     (PF_SPBASE_BASE, 0x2000000)]), by unfold Served; decide +kernel⟩,
   ⟨.host, 0x2000000, (fun s => { s with img := { s.img with windows := [⟨0x2000000, 0x10000, false⟩] } }) (put up [(PF_CFG_NSP, 1),
     (PF_SPBASE_BASE, 0x2000000), (GBL_FLIPSTAT_BUSY, 1)]), by unfold Served; decide +kernel⟩,
   ⟨2 ^ 30 - 4, 4, put up [(MEM_STAT_READY, 15)], by decide +kernel⟩,
   ⟨2 ^ 30 - 4, [some 1, none, some 3, some 4], put up [(MEM_STAT_READY, 15)], by decide +kernel⟩⟩

theorem witness_ClockInstants :
    (∃ (s : State), s.up 3 = true ∧ s.clkMode ≠ 2 ∧ s.tbState ≠ 0 ∧ s.holdover = false) ∧
    (∃ (s : State), s.tbState = 3 ∧ s.tb.slewing = false) ∧
    (∃ (s : State), s.tbState = 3 ∧ s.tb.slewing = true) ∧
    (∃ (s : State), s.up 3 = true ∧ s.tbState = 0 ∧ s.clkMode ≠ 2) ∧
    (∃ (s : State), s.up 3 = true ∧ s.tbState = 0 ∧ s.clkMode = 2) ∧
    (∃ (who : Requester) (s : State), Served s who TB_CTL) ∧
    (∃ (who : Requester) (s : State), ServedRead s who TB_XID_LO) ∧
    (∃ (who : Requester) (s : State), ServedRead s who TB_RTIME_LO) :=
  ⟨⟨up, by decide +kernel⟩,
   ⟨put up [(TB_STAT_STATE, 3)], by decide +kernel⟩,
   ⟨(fun s => { s with tb := { s.tb with slewing := true } }) (put up [(TB_STAT_STATE, 3)]), by decide +kernel⟩,
   ⟨put up [(TB_STAT_STATE, 0)], by decide +kernel⟩,
   ⟨(fun s => { s with rst := { s.rst with strapClk := 2 } }) (put up [(TB_STAT_STATE, 0)]), by decide +kernel⟩,
   ⟨.host, up, by unfold Served; decide +kernel⟩,
   ⟨.host, up, by unfold ServedRead Served; decide +kernel⟩,
   ⟨.host, up, by unfold ServedRead Served; decide +kernel⟩⟩

theorem witness_SlotNumbering :
    (∃ (s : State), s.up 3 = true ∧ s.tbState ≠ 0 ∧ s.tb.aligned = true ∧ s.tb.laneMark = false) :=
  ⟨(fun s => { s with tb := { s.tb with aligned := true } }) (put up [(TB_CURLEN_LEN, 3564)]), by decide +kernel⟩

theorem witness_MarkerJudged :
    (∃ (s : State), s.up 3 = true ∧ s.tbState ≠ 0 ∧ s.tb.aligned = true ∧ s.marksJudged = true ∧ s.tb.awaitMark = false ∧ s.holdover =
      false ∧ s.tb.slot + 1 < s.fld TB_CURLEN_LEN) :=
  ⟨(fun s => { s with tb := { s.tb with aligned := true, n := 100, orbStart := 98, slot := 2 } }) (put up [(TB_CURLEN_LEN, 3564)]),
    by decide +kernel⟩

theorem witness_BankFlips :
    (∃ (who : Requester) (s : State), Served s who GBL_FLIP) ∧
    (∃ (who : Requester) (s : State), Served s who GBL_FLIP) ∧
    (∃ (s : State), s.flip.copying = true) ∧
    (∃ (who : Requester) (s : State), ServedRead s who GBL_FLIPSTAMP0) :=
  ⟨⟨.host, up, by unfold Served; decide +kernel⟩,
   ⟨.host, up, by unfold Served; decide +kernel⟩,
   ⟨{ up with flip := { up.flip with copying := true } }, by decide +kernel⟩,
   ⟨.host, up, by unfold ServedRead Served; decide +kernel⟩⟩

theorem witness_ReleaseUnit :
    (∃ (st : Fin 16) (back : Nat) (x : Nat) (w : Nat) (strobe : Bool) (c : StreamCfg) (s : State), s.running = true ∧ back ≤ s.tb.n ∧
      x = s.tb.n - back ∧ ↑st < s.fld REL_CFG_NSTREAM ∧ s.rel.firstX ≤ x ∧ s.img.streams[↑st]? = some c ∧ List.find? (fun r => decide
      (r.fst = x)) s.rel.results = some (x, w, strobe) ∧ (s.relEntry (↑st) x).present = false ∧ (s.relEntry (↑st) x).late = false ∧
      s.tb.n < x + s.fld (REL_LAT_L ↑st)) ∧
    (∃ (st : Fin 16) (back : Nat) (x : Nat) (w : Nat) (strobe : Bool) (c : StreamCfg) (s : State), s.running = true ∧ back ≤ s.tb.n ∧
      x = s.tb.n - back ∧ ↑st < s.fld REL_CFG_NSTREAM ∧ s.rel.firstX ≤ x ∧ s.img.streams[↑st]? = some c ∧ List.find? (fun r => decide
      (r.fst = x)) s.rel.results = some (x, w, strobe) ∧ (s.relEntry (↑st) x).present = false ∧ ((s.relEntry (↑st) x).late = true ∨ x +
      s.fld (REL_LAT_L ↑st) ≤ s.tb.n)) ∧
    (∃ (who : Requester) (st : Fin 16) (rep : Nat) (s : State), ServedRead s who (REL_SENT ↑st) ∧ List.find? (fun e => decide (e.fst =
      ↑st)) s.rel.pubRep = some (↑st, rep)) ∧
    (∃ (who : Requester) (s : State), Served s who REL_CTL) :=
  ⟨⟨15, 1, 99, 5, true, ⟨true, 0, false⟩, (fun s =>
     { s with tb := { s.tb with n := 100 }, img := { s.img with streams := List.replicate 16 ⟨true, 0, false⟩ }, rel := { s.rel with results := [(99, 5, true)] } })
     (put up [(REL_CFG_NSTREAM, 16), (REL_LAT_L 15, 50)]), by decide +kernel⟩,
   ⟨15, 1, 99, 5, true, ⟨true, 0, false⟩, (fun s => (fun s =>
     { s with tb := { s.tb with n := 100 }, img := { s.img with streams := List.replicate 16 ⟨true, 0, false⟩ }, rel := { s.rel with results := [(99, 5, true)] } })
     (s.setRel 15 { RelEntry.empty with x := 99, late := true })) (put up [(REL_CFG_NSTREAM, 16)]), by decide +kernel⟩,
   ⟨.host, 15, 7, (fun s => { s with rel := { s.rel with pubRep := [(15, 7)] } }) (put up [(REL_CFG_NSTREAM, 16)]),
     by unfold ServedRead Served; decide +kernel⟩,
   ⟨.host, up, by unfold Served; decide +kernel⟩⟩

theorem witness_SupplyAndTaps :
    (∃ (s : State), s.up 3 = true) ∧
    (∃ (s : State), s.up 3 = true) ∧
    (∃ (s : State), s.up 3 = true) ∧
    (∃ (who : Requester) (n : Fin 48) (s : State), Served s who (LNK_TXPRE ↑n)) ∧
    (∃ (who : Requester) (n : Fin 48) (s : State), Served s who (LNK_TXMAIN ↑n)) ∧
    (∃ (n : Fin 48) (s : State) (pre : Word) (main : Word), (s.lane ↑n).next = some (pre, main)) :=
  ⟨⟨up, by decide +kernel⟩,
   ⟨up, by decide +kernel⟩,
   ⟨up, by decide +kernel⟩,
   ⟨.host, 47, up, by unfold Served; decide +kernel⟩,
   ⟨.host, 47, up, by unfold Served; decide +kernel⟩,
   ⟨47, (fun s => s.setLane 47 { LaneX.idle with next := some (1, 2) }) (up), 1, 2, by decide +kernel⟩⟩

theorem witness_LanesAndClocks :
    (∃ (n : Fin 48) (s : State), s.laneUp ↑n = true ∧ s.madder ↑n = true ∧ (s.lane ↑n).pllBusy = true ∧ s.lnk.grpFault.contains (↑n /
      12) = false) ∧
    (∃ (n : Fin 48) (s : State), s.laneUp ↑n = true ∧ s.madder ↑n = true ∧ s.lnkState ↑n = 1 ∧ (s.lane ↑n).pllBusy = false) ∧
    (∃ (n : Fin 48) (s : State), s.laneUp ↑n = true ∧ s.madder ↑n = true ∧ s.lnkState ↑n = 2) ∧
    (∃ (n : Fin 48) (s : State), s.laneUp ↑n = true ∧ s.madder ↑n = true ∧ s.lnkState ↑n = 3 ∧ (s.lane ↑n).pllBusy = false ∧ (s.lane
      ↑n).restart = false ∧ s.fld (LNK_RXEQ_ADAPT ↑n) = 0) ∧
    (∃ (n : Fin 48) (s : State), s.laneUp ↑n = true ∧ s.madder ↑n = true ∧ (s.lnkState ↑n = 2 ∨ s.lnkState ↑n = 3 ∨ s.lnkState ↑n =
      4)) ∧
    (∃ (n : Fin 48) (s : State), s.laneUp ↑n = true ∧ (s.lane ↑n).pllBusy = true) ∧
    (∃ (n : Fin 48) (s : State), s.laneUp ↑n = true ∧ s.madder ↑n = true ∧ s.lnkState ↑n = 4 ∧ s.lstate ↑n ≠ 4 ∧ s.flag
      (LNK_CTL_LOSERR ↑n) = false) ∧
    (∃ (n : Fin 48) (s : State), s.laneUp ↑n = true ∧ s.madder ↑n = true ∧ s.lnkState ↑n = 4) ∧
    (∃ (g : Fin 4) (s : State) (ppm : BitVec 16), (-200 ≤ ppm.toInt ∧ ppm.toInt ≤ 200 ∨ s.lnk.grpFault.contains ↑g = true)) ∧
    (∃ (g : Fin 4) (s : State) (ppm : BitVec 16), (ppm.toInt < -200 ∨ 200 < ppm.toInt) ∧ s.lnk.grpFault.contains ↑g = false) ∧
    (∃ (g : Fin 4) (s : State), s.lnk.grpFault.contains ↑g = true) ∧
    (∃ (g : Fin 4) (s : State), s.lnk.grpFault.contains ↑g = false) ∧
    (∃ (g : Fin 4) (s : State), s.lnk.grpFault.contains ↑g = true ∧ s.flag (LNK_GRPSTAT_PRESENT ↑g) = true ∧ -200 ≤ s.groupPpm ↑g ∧
      s.groupPpm ↑g ≤ 200) :=
  ⟨⟨0, (lane 1 [(LNK_STAT_STATE 0, 1)] MdrX.idle).setLane 0 { LaneX.idle with pllBusy := true }, by decide +kernel⟩,
   ⟨0, (lane 1 [(LNK_STAT_STATE 0, 1)] MdrX.idle).setLane 0 LaneX.idle, by decide +kernel⟩,
   ⟨0, (lane 1 [(LNK_STAT_STATE 0, 2)] MdrX.idle).setLane 0 LaneX.idle, by decide +kernel⟩,
   ⟨0, (lane 1 [(LNK_STAT_STATE 0, 3), (LNK_RXEQ_ADAPT 0, 0)] MdrX.idle).setLane 0 { LaneX.idle with restart := false },
     by decide +kernel⟩,
   ⟨0, (lane 1 [(LNK_STAT_STATE 0, 4)] MdrX.idle).setLane 0 LaneX.idle, by decide +kernel⟩,
   ⟨47, (fun s => s.setLane 47 { LaneX.idle with pllBusy := true }) (up), by decide +kernel⟩,
   ⟨0, (lane 1 [(LNK_STAT_STATE 0, 4), (LNK_CTL_LOSERR 0, 0)] MdrX.idle).setLane 0 LaneX.idle, by decide +kernel⟩,
   ⟨0, (lane 1 [(LNK_STAT_STATE 0, 4)] MdrX.idle).setLane 0 LaneX.idle, by decide +kernel⟩,
   ⟨3, up, -200, by decide +kernel⟩,
   ⟨3, up, 201, by decide +kernel⟩,
   ⟨3, (fun s => { s with lnk := { s.lnk with grpFault := [3] } }) (up), by decide +kernel⟩,
   ⟨3, up, by decide +kernel⟩,
   ⟨3, (fun s => { s with lnk := { s.lnk with grpFault := [3] } }) (put up [(LNK_GRPSTAT_PRESENT 3, 1), (LNK_GRPSTAT_PPM 3, 200)]),
     by decide +kernel⟩⟩

theorem witness_ReceiversAndTests :
    (∃ (n : Fin 48) (s : State) (who : Requester), s.laneUp ↑n = true ∧ s.lnkState ↑n = 4 ∧ Served s who (LNK_CTL ↑n) ∧ s.fld
      (LNK_RXEQ_ADAPT ↑n) = 0) ∧
    (∃ (n : Fin 48) (s : State), s.laneUp ↑n = true ∧ s.lnkState ↑n = 4) ∧
    (∃ (n : Fin 48) (s : State) (who : Requester) (v : Word), Served s who (LNK_TEST ↑n) ∧ s.laneUp ↑n = true ∧ s.madder ↑n = true ∧
      s.lnkState ↑n ≠ 0 ∧ s.lnkState ↑n ≠ 7 ∧ s.lstate ↑n ≠ 4 ∧ testSet v = true) ∧
    (∃ (n : Fin 48) (s : State) (who : Requester), Served s who (LNK_TEST ↑n) ∧ s.laneUp ↑n = true ∧ s.madder ↑n = true ∧ s.lnkState
      ↑n = 5) ∧
    (∃ (n : Fin 48) (s : State), s.laneUp ↑n = true ∧ s.lnkState ↑n = 5 ∧ s.flag (LNK_TEST_CHK ↑n) = true) ∧
    (∃ (n : Fin 48) (s : State) (who : Requester), s.dpLane ↑n = true ∧ s.lnkState ↑n = 6 ∧ Served s who (LNK_DP ↑n) ∧ s.dpTraining =
      true) ∧
    (∃ (n : Fin 48) (s : State) (who : Requester), s.dpLane ↑n = true ∧ s.lnkState ↑n = 6 ∧ Served s who (LNK_DP ↑n) ∧ s.dpTraining =
      false) ∧
    (∃ (n : Fin 48) (s : State), s.dpLane ↑n = true ∧ s.lnkState ↑n = 6 ∧ s.laneUp ↑n = true ∧ (s.lane ↑n).pllBusy = true) :=
  ⟨⟨0, (lane 1 [(LNK_STAT_STATE 0, 4), (LNK_RXEQ_ADAPT 0, 0)] MdrX.idle).setLane 0 LaneX.idle, .host,
     by unfold Served; decide +kernel⟩,
   ⟨0, (lane 1 [(LNK_STAT_STATE 0, 4)] MdrX.idle).setLane 0 LaneX.idle, by decide +kernel⟩,
   ⟨0, (lane 1 [(LNK_STAT_STATE 0, 2)] MdrX.idle).setLane 0 LaneX.idle, .host, 0x20, by unfold Served; decide +kernel⟩,
   ⟨0, (lane 1 [(LNK_STAT_STATE 0, 5)] MdrX.idle).setLane 0 LaneX.idle, .host, by unfold Served; decide +kernel⟩,
   ⟨0, (lane 1 [(LNK_STAT_STATE 0, 5), (LNK_TEST_CHK 0, 1)] MdrX.idle).setLane 0 LaneX.idle, by decide +kernel⟩,
   ⟨46, put up [(LNK_CFG_MODE 46, 2), (LNK_STAT_STATE 46, 6), (SRV_DSTAT_LSTATE, 2)], .host, by unfold Served; decide +kernel⟩,
   ⟨47, put up [(LNK_CFG_MODE 47, 2), (LNK_STAT_STATE 47, 6), (SRV_DSTAT_LSTATE, 0)], .host, by unfold Served; decide +kernel⟩,
   ⟨47, (fun s => s.setLane 47 { LaneX.idle with pllBusy := true }) (put up [(LNK_CFG_MODE 47, 2), (LNK_STAT_STATE 47, 6)]),
     by decide +kernel⟩⟩

theorem witness_NegotiationMessages :
    (∃ (n : Fin 48) (s : State), s.lineUp ↑n = true ∧ s.lnkState ↑n = 4 ∧ (s.lstate n.val = 6 ∨ (s.lstate n.val = 1 ∧ (s.setMlane
      n.val { s.mlane n.val with ownHello := s.helloWords n.val }).bothEcho n.val = false))) ∧
    (∃ (n : Fin 48) (s : State), s.lineUp ↑n = true ∧ s.lnkState ↑n = 4 ∧ s.lstate ↑n = 1 ∧ (s.setMlane n.val
      { s.mlane n.val with ownHello := s.helloWords n.val }).bothEcho n.val = true) ∧
    (∃ (n : Fin 48) (fs : List (BitVec 256)) (s : State), s.lineUp ↑n = true ∧ msgOk 1 (s.rxWords (↑n) 1 fs) = true ∧ s.lstate ↑n = 1
      ∧ s.idBad (↑n) (word64 (s.rxWords (↑n) 1 fs) 4) = false) ∧
    (∃ (n : Fin 48) (fs : List (BitVec 256)) (s : State), s.lineUp ↑n = true ∧ msgOk 2 (s.rxWords (↑n) 2 fs) = true ∧ s.lstate ↑n = 2
      ∧ s.idBad (↑n) (word64 (s.rxWords (↑n) 2 fs) 4) = false ∧ s.isSource ↑n = false ∧ (s.rxWords (↑n) 2 fs).getD 3 0 = s.fld
      MDR_EPOCH_EPOCH ∧ s.flag (MDR_LCFG_AUTH ↑n) = false) ∧
    (∃ (n : Fin 48) (fs : List (BitVec 256)) (s : State), s.lineUp ↑n = true ∧ msgOk 2 (s.rxWords (↑n) 2 fs) = true ∧ s.lstate ↑n = 2
      ∧ s.idBad (↑n) (word64 (s.rxWords (↑n) 2 fs) 4) = false ∧ s.isSource ↑n = false ∧ (s.rxWords (↑n) 2 fs).getD 3 0 = s.fld
      MDR_EPOCH_EPOCH ∧ s.flag (MDR_LCFG_AUTH ↑n) = true) ∧
    (∃ (n : Fin 48) (fs : List (BitVec 256)) (s : State), s.lineUp ↑n = true ∧ msgOk 2 (s.rxWords (↑n) 2 fs) = true ∧ s.lstate ↑n = 2
      ∧ s.idBad (↑n) (word64 (s.rxWords (↑n) 2 fs) 4) = false ∧ s.isSource ↑n = false ∧ (s.rxWords (↑n) 2 fs).getD 3 0 ≠ s.fld
      MDR_EPOCH_EPOCH) ∧
    (∃ (n : Fin 48) (fs : List (BitVec 256)) (s : State) (m : Mode), s.lineUp ↑n = true ∧ msgOk 3 (s.rxWords (↑n) 3 fs) = true ∧
      s.lstate ↑n = 3 ∧ (s.mlane ↑n).committed = false ∧ s.isSource ↑n = true ∧ (s.mlane ↑n).mode = some m) ∧
    (∃ (n : Fin 48) (fs : List (BitVec 256)) (s : State) (m : Mode), s.lineUp ↑n = true ∧ msgOk 3 (s.rxWords (↑n) 3 fs) = true ∧
      s.lstate ↑n = 3 ∧ (s.mlane ↑n).committed = false ∧ s.isSource ↑n = false ∧ s.chooseMode (↑n) ((s.mlane ↑n).partHello.getD 1 0)
      ((s.mlane ↑n).partHello.getD 2 0) 255 = some m ∧ ((s.rxWords (↑n) 3 fs).getD 1 0, (s.rxWords (↑n) 3 fs).getD 2 0) = commitW m) ∧
    (∃ (n : Fin 48) (fs : List (BitVec 256)) (s : State), s.lineUp ↑n = true ∧ msgOk 4 (s.rxWords (↑n) 4 fs) = true ∧ s.lstate ↑n ≠ 0) ∧
    (∃ (n : Fin 48) (fs : List (BitVec 256)) (s : State), s.lineUp ↑n = true ∧ msgOk 1 (s.rxWords (↑n) 1 fs) = false) :=
  ⟨⟨0, lane 1 [] MdrX.idle, by decide +kernel⟩,
   ⟨0, lane 1 [] { MdrX.idle with partHello := List.replicate 15 0 }, by decide +kernel⟩,
   ⟨0, message 1 [], lane 1 [] MdrX.idle, by decide +kernel⟩,
   ⟨0, message 2 [], lane 2 [(MDR_LCFG_ROLE 0, 2), (MDR_LCFG_AUTH 0, 0)] MdrX.idle, by decide +kernel⟩,
   ⟨0, message 2 [], lane 2 [(MDR_LCFG_ROLE 0, 2), (MDR_LCFG_AUTH 0, 1)] MdrX.idle, by decide +kernel⟩,
   ⟨0, message 2 [0, 0, 7], lane 2 [(MDR_LCFG_ROLE 0, 2)] MdrX.idle, by decide +kernel⟩,
   ⟨0, message 3 [], lane 3 [] { MdrX.idle with mode := some ⟨1, 1, false, 4⟩ }, ⟨1, 1, false, 4⟩, by decide +kernel⟩,
   ⟨0, message 3 [7 * 2 ^ 24 + 2 ^ 12 + 1, frameD 1 7], lane 3 [(MDR_LCFG_ROLE 0, 2), (MDR_LCFG_VERS 0, 1), (LNK_CFG_RATES 0, 1)]
     { MdrX.idle with partHello := [0, 0x101, 100000] }, ⟨1, 1, false, 7⟩, by decide +kernel⟩,
   ⟨0, message 4 [6], lane 3 [] MdrX.idle, by decide +kernel⟩,
   ⟨0, [], lane 3 [] MdrX.idle, by decide +kernel⟩⟩

theorem witness_NegotiationTimers :
    (∃ (n : Fin 48) (s : State), s.laneUp ↑n = true ∧ s.lstate ↑n = 8 ∧ s.fld (LNK_STAT_RATE ↑n) = 1) ∧
    (∃ (n : Fin 48) (s : State), s.laneUp ↑n = true ∧ s.lstate ↑n = 1) ∧
    (∃ (n : Fin 48) (s : State), s.laneUp ↑n = true ∧ s.lstate ↑n = 2) ∧
    (∃ (n : Fin 48) (s : State), s.laneUp ↑n = true ∧ s.lstate ↑n = 3 ∧ (s.mlane ↑n).committed = false) ∧
    (∃ (n : Fin 48) (s : State) (m : Mode), s.laneUp ↑n = true ∧ s.lstate ↑n = 3 ∧ (s.mlane ↑n).committed = true ∧ (s.mlane ↑n).mode =
      some m) ∧
    (∃ (n : Fin 48) (s : State) (m : Mode), s.laneUp ↑n = true ∧ s.lstate ↑n = 3 ∧ (s.mlane ↑n).committed = true ∧ (s.mlane ↑n).mode =
      some m ∧ (s.mlane ↑n).prevVer ≤ m.ver ∧ (s.mlane ↑n).prevRate ≤ m.rate ∧ s.fld (LNK_STAT_RATE ↑n) = m.rate) ∧
    (∃ (n : Fin 48) (s : State), s.lineUp ↑n = true ∧ s.lstate ↑n = 7 ∧ s.fld (LNK_STAT_RATE ↑n) = 1) ∧
    (∃ (n : Fin 48) (s : State) (who : Requester), Served s who (MDR_LCTL ↑n)) ∧
    (∃ (n : Fin 48) (s : State) (who : Requester), ServedRead s who (MDR_PID_LO ↑n)) :=
  ⟨⟨0, lane 8 [] MdrX.idle, by decide +kernel⟩,
   ⟨0, lane 1 [] MdrX.idle, by decide +kernel⟩,
   ⟨0, lane 2 [] MdrX.idle, by decide +kernel⟩,
   ⟨0, lane 3 [] MdrX.idle, by decide +kernel⟩,
   ⟨0, lane 3 [] { MdrX.idle with mode := some ⟨1, 1, false, 4⟩, committed := true }, ⟨1, 1, false, 4⟩, by decide +kernel⟩,
   ⟨0, lane 3 [] { MdrX.idle with mode := some ⟨1, 1, false, 4⟩, committed := true }, ⟨1, 1, false, 4⟩, by decide +kernel⟩,
   ⟨0, lane 7 [] MdrX.idle, by decide +kernel⟩,
   ⟨0, up, .host, by unfold Served; decide +kernel⟩,
   ⟨0, up, .host, by unfold ServedRead Served; decide +kernel⟩⟩

theorem witness_FramesAndCommands :
    (∃ (n : Fin 48) (s : State) (cws : List Codeword), s.framed ↑n = true ∧ s.flag (MDR_NEG_FEC ↑n) = true ∧ (s.mlane ↑n).lock = false
      ∧ cws.length = 8 ∧ (∀ (c : Codeword), c ∈ cws → c.sync = 857#10) ∧ seqRun cws = true) ∧
    (∃ (n : Fin 48) (s : State) (cws : List Codeword), s.framed ↑n = true ∧ s.flag (MDR_NEG_FEC ↑n) = true ∧ (s.mlane ↑n).lock = true
      ∧ cws.length = 4 ∧ (∀ (c : Codeword), c ∈ cws → c.bad = true ∨ c.sync ≠ 857#10)) ∧
    (∃ (n : Fin 48) (s : State) (hs : List (BitVec 2)), s.framed ↑n = true ∧ s.flag (MDR_NEG_FEC ↑n) = false ∧ (s.mlane ↑n).lock =
      false ∧ hs.length = 64 ∧ (∀ (h : BitVec 2), h ∈ hs → h = 1#2 ∨ h = 2#2)) ∧
    (∃ (n : Fin 48) (s : State) (hs : List (BitVec 2)), s.framed ↑n = true ∧ s.flag (MDR_NEG_FEC ↑n) = false ∧ (s.mlane ↑n).lock =
      true ∧ hs.length ≤ 64 ∧ 16 ≤ (List.filter (fun h => !syncOk h) hs).length) ∧
    (∃ (n : Fin 48) (s : State), s.framed ↑n = true ∧ (s.lane ↑n).extest = false ∧ s.tbState ≠ 0 ∧ (s.mlane ↑n).sentAt ≠ some s.tb.n ∧
      (s.frameOut ↑n).snd = 0) ∧
    (∃ (n : Fin 48) (s : State) (q : RxFrame), s.framed ↑n = true ∧ s.lstate ↑n = 4 ∧ s.role ↑n = 1 ∧ (s.lane ↑n).extest = false ∧
      q.corr = 0 ∧ q.newUncorr = 0 ∧ frameFails (s.rxFrame (↑n) q) (s.mlane ↑n).prevSlot = false) ∧
    (∃ (n : Fin 48) (s : State) (q : RxFrame), s.framed ↑n = true ∧ s.lstate ↑n = 4 ∧ s.role ↑n = 3 ∧ (s.lane ↑n).extest = false ∧
      q.corr = 0 ∧ q.newUncorr = 0 ∧ (s.rxFrame (↑n) q).head = true ∧ frameFails (s.rxFrame (↑n) q) (s.mlane ↑n).prevSlot = true ∧
      (s.mlane ↑n).badRun < 15) ∧
    (∃ (who : Requester) (s : State), Served s who MDR_FCREQ) :=
  ⟨⟨0, lane 4 [(MDR_NEG_FEC 0, 1)] MdrX.idle, (List.range 8).map fun i => ⟨0x359, BitVec.ofNat 4 (12 + i), false⟩, by decide +kernel⟩,
   ⟨0, lane 4 [(MDR_NEG_FEC 0, 1)] { MdrX.idle with lock := true }, [⟨0x359, 0, true⟩, ⟨0, 0, false⟩, ⟨1, 0, false⟩, ⟨2, 0, false⟩],
     by decide +kernel⟩,
   ⟨0, lane 4 [(MDR_NEG_FEC 0, 0)] MdrX.idle, List.replicate 63 1 ++ [2], by decide +kernel⟩,
   ⟨0, lane 4 [(MDR_NEG_FEC 0, 0)] { MdrX.idle with lock := true }, List.replicate 48 1 ++ List.replicate 16 3, by decide +kernel⟩,
   ⟨0, lane 4 [(MDR_NEG_FEC 0, 0)] { MdrX.idle with sentAt := some 5 }, by decide +kernel⟩,
   ⟨0, lane 4 [(MDR_NEG_FEC 0, 0)] MdrX.idle, ⟨frameFlits 1 4 ⟨true, true, 15, 0, 255, 0, 0, 4, 12345⟩, 0, 0, 0⟩, by decide +kernel⟩,
   ⟨0, lane 4 [(MDR_LCFG_ROLE 0, 3)] { MdrX.idle with badRun := 14 }, ⟨[mkFlit 1 1 0 0], 0, 0, 0⟩, by decide +kernel⟩,
   ⟨.host, up, by unfold Served; decide +kernel⟩⟩

theorem witness_FlitsReadBack :
    (∃ (ver : Nat) (k : Nat) (f : SentFrame), 1 ≤ ver ∧ ver ≤ 3 ∧ 2 ≤ k ∧ k ≤ 255 ∧ f.stat < 16 ∧ f.slot < 65536 ∧ (f.orbit < if ver =
      1 then 256 else 65536) ∧ f.fcmd < 256 ∧ f.fcx < 65536 ∧ f.cccred < 256 ∧ f.data < 2 ^ frameD ver k) ∧
    (∃ (mtype : Nat) (ws : List Nat), mtype < 16 ∧ ws.length = 16 ∧ (∀ (w : Nat), w ∈ ws → w < 2 ^ 32)) ∧
    (∃ (m : CcMsg), m.mtype < 256 ∧ m.len ≤ 48 ∧ m.seq < 2 ^ 48 ∧ m.payload.length = m.len ∧ (∀ (w : Nat), w ∈ m.payload → w < 2 ^
      32)) :=
  ⟨⟨3, 4, ⟨true, true, 15, 65535, 65535, 255, 65535, 255, 2 ^ 800 + 12345⟩, by decide +kernel⟩,
   ⟨15, List.replicate 16 0xFFFFFFFF, by decide +kernel⟩,
   ⟨⟨true, 0, 255, 3, 2 ^ 48 - 1, [1, 2, 0xFFFFFFFF], 7⟩, by decide +kernel⟩⟩

theorem witness_ControlAndRemote :
    (∃ (n : Fin 48) (s : State), s.lineUp ↑n = true ∧ s.lnkState ↑n = 4 ∧ s.lstate ↑n = 4 ∧ s.flag (MDR_LCTL_CCEN ↑n) = true ∧ s.flag
      (MDR_LCFG_AUTH ↑n) = false ∧ ((s.mlane ↑n).tokens = 0 ∨ s.fld (MDR_POLICE_RATE ↑n) = 0)) ∧
    (∃ (n : Fin 48) (fs : List (BitVec 256)) (s : State), s.lineUp ↑n = true ∧ s.lnkState ↑n = 4 ∧ s.lstate ↑n = 4 ∧ s.flag
      (MDR_LCTL_CCEN ↑n) = true ∧ s.flag (MDR_LCFG_AUTH ↑n) = false ∧ (s.mlane ↑n).tokens ≠ 0 ∧ s.fld (MDR_POLICE_RATE ↑n) ≠ 0 ∧ (decide
      (48 < (readCc (s.fld (MDR_NEG_VER ↑n)) fs).len) || !(readCc (s.fld (MDR_NEG_VER ↑n)) fs).first || decide ((readCc (s.fld
      (MDR_NEG_VER ↑n)) fs).segs ≠ ccSegs (s.fld (MDR_NEG_VER ↑n)) (readCc (s.fld (MDR_NEG_VER ↑n)) fs).len) || decide ((s.mlane
      ↑n).credGiven ≤ (s.mlane ↑n).credUsed)) = true) ∧
    (∃ (n : Fin 48) (fs : List (BitVec 256)) (s : State), s.lineUp ↑n = true ∧ s.lnkState ↑n = 4 ∧ s.lstate ↑n = 4 ∧ s.flag
      (MDR_LCTL_CCEN ↑n) = true ∧ s.flag (MDR_LCFG_AUTH ↑n) = false ∧ (s.mlane ↑n).tokens ≠ 0 ∧ s.fld (MDR_POLICE_RATE ↑n) ≠ 0 ∧ (decide
      (48 < (readCc (s.fld (MDR_NEG_VER ↑n)) fs).len) || !(readCc (s.fld (MDR_NEG_VER ↑n)) fs).first || decide ((readCc (s.fld
      (MDR_NEG_VER ↑n)) fs).segs ≠ ccSegs (s.fld (MDR_NEG_VER ↑n)) (readCc (s.fld (MDR_NEG_VER ↑n)) fs).len) || decide ((s.mlane
      ↑n).credGiven ≤ (s.mlane ↑n).credUsed)) = false ∧ (readCc (s.fld (MDR_NEG_VER ↑n)) fs).seq ≤ (s.mlane ↑n).rxSeq) ∧
    (∃ (n : Fin 48) (fs : List (BitVec 256)) (s : State), s.lineUp ↑n = true ∧ s.lnkState ↑n = 4 ∧ s.lstate ↑n = 4 ∧ s.flag
      (MDR_LCTL_CCEN ↑n) = true ∧ s.flag (MDR_LCFG_AUTH ↑n) = false ∧ (s.mlane ↑n).tokens ≠ 0 ∧ s.fld (MDR_POLICE_RATE ↑n) ≠ 0 ∧ (decide
      (48 < (readCc (s.fld (MDR_NEG_VER ↑n)) fs).len) || !(readCc (s.fld (MDR_NEG_VER ↑n)) fs).first || decide ((readCc (s.fld
      (MDR_NEG_VER ↑n)) fs).segs ≠ ccSegs (s.fld (MDR_NEG_VER ↑n)) (readCc (s.fld (MDR_NEG_VER ↑n)) fs).len) || decide ((s.mlane
      ↑n).credGiven ≤ (s.mlane ↑n).credUsed)) = false ∧ (s.mlane ↑n).rxSeq < (readCc (s.fld (MDR_NEG_VER ↑n)) fs).seq ∧ (readCc (s.fld
      (MDR_NEG_VER ↑n)) fs).seq < 2 ^ 48 - 1 ∧ s.remoteOn ↑n = true ∧ ((readCc (s.fld (MDR_NEG_VER ↑n)) fs).mtype = 1 ∨ (readCc (s.fld
      (MDR_NEG_VER ↑n)) fs).mtype = 2)) ∧
    (∃ (n : Fin 48) (m : CcMsg) (r : List CcMsg) (s : State) (off : Nat) (w : Nat), (s.mlane ↑n).remote = m :: r ∧ m.mtype = 1 ∧
      ccWords m = [off, w] ∧ s.remoteBars off = false ∧ (busWrite (remotePop s ↑n) off (BitVec.ofNat 32 w)).fst = false) ∧
    (∃ (n : Fin 48) (m : CcMsg) (r : List CcMsg) (s : State) (off : Nat), (s.mlane ↑n).remote = m :: r ∧ m.mtype = 2 ∧ ccWords m =
      [off, 1] ∧ s.remoteBars off = false ∧ (busRead (remotePop s ↑n) off).snd.fst = false) ∧
    (∃ (n : Fin 48) (m : CcMsg) (r : List CcMsg) (s : State), s.maySend ↑n = true ∧ (s.mlane ↑n).outbox = m :: r ∧ (s.mlane ↑n).txSeq
      < 2 ^ 48 - 1 ∧ s.flag (MDR_LCFG_AUTH ↑n) = false) ∧
    (∃ (n : Fin 48) (s : State), s.laneUp ↑n = true ∧ s.fld (MDR_POLICE_RATE ↑n) ≠ 0) :=
  ⟨⟨0, lane 4 [(MDR_LCTL_CCEN 0, 1), (MDR_LCFG_AUTH 0, 0)] { MdrX.idle with tokens := 0 }, by decide +kernel⟩,
   ⟨0, [], lane 4 [(MDR_LCTL_CCEN 0, 1), (MDR_LCFG_AUTH 0, 0), (MDR_POLICE_RATE 0, 1)] MdrX.idle, by decide +kernel⟩,
   ⟨0, ccFlits 1 ⟨true, 2, 1, 2, 0, [8, 5], 0⟩, lane 4 [(MDR_LCTL_CCEN 0, 1), (MDR_LCFG_AUTH 0, 0), (MDR_POLICE_RATE 0, 1)] MdrX.idle,
     by decide +kernel⟩,
   ⟨0, ccFlits 1 ⟨true, 2, 1, 2, 2 ^ 48 - 2, [8, 5], 0⟩, lane 4 [(MDR_LCTL_CCEN 0, 1), (MDR_LCFG_AUTH 0, 0), (MDR_POLICE_RATE 0, 1),
     (GBL_CTL_REMOTE_EN, 1)] MdrX.idle, by decide +kernel⟩,
   ⟨0, ⟨true, 2, 1, 2, 9, [0x700014, 5], 0⟩, [], lane 4 [(MDR_LCTL_CCEN 0, 1), (MDR_LCFG_AUTH 0, 0)]
     { MdrX.idle with remote := [⟨true, 2, 1, 2, 9, [0x700014, 5], 0⟩] }, 0x700014, 5, by decide +kernel⟩,
   ⟨0, ⟨true, 2, 2, 2, 9, [0x700014, 1], 0⟩, [], lane 4 [(MDR_LCTL_CCEN 0, 1), (MDR_LCFG_AUTH 0, 0)]
     { MdrX.idle with remote := [⟨true, 2, 2, 2, 9, [0x700014, 1], 0⟩] }, 0x700014, by decide +kernel⟩,
   ⟨0, ⟨true, 2, 4, 1, 0, [7], 0⟩, [], lane 4 [(MDR_LCTL_CCEN 0, 1), (MDR_LCFG_AUTH 0, 0)]
     { MdrX.idle with outbox := [⟨true, 2, 4, 1, 0, [7], 0⟩], partCred := 1 }, by decide +kernel⟩,
   ⟨47, put up [(MDR_POLICE_RATE 47, 1), (MDR_POLICE_DEPTH 47, 9)], by decide +kernel⟩⟩

theorem witness_IngressAndConditioning :
    (∃ (n : Fin 48) (p : PendFrame) (s : State), List.find? (fun p => p.done.isNone && decide (p.x + s.dskt ≤ s.tb.n + 4)) (s.ingLane
      ↑n).frames = some p ∧ s.tb.n < p.x + s.dskt) ∧
    (∃ (n : Fin 48) (p : PendFrame) (s : State), List.find? (fun p => p.done.isNone && decide (p.x + s.dskt ≤ s.tb.n + 4)) (s.ingLane
      ↑n).frames = some p ∧ p.x + s.dskt ≤ s.tb.n) ∧
    (∃ (x : Nat) (rest : List Nat) (s : State), s.running = true ∧ s.up 53 = true ∧ s.up 61 = true ∧ s.cnd.started = x :: rest) ∧
    (∃ (who : Requester) (s : State), Served s who CND_CTL) ∧
    (∃ (pc : PfCross) (s : State), s.running = true ∧ s.up 61 = true ∧ s.sweeping = some pc) ∧
    (∃ (who : Requester) (k : Fin 8) (s : State), Served s who (PF_WMCTL ↑k) ∧ s.flag (PF_WMCTL_ARM ↑k) = false) ∧
    (∃ (j : Nat) (s : State), s.pf.flattening = some j ∧ j < 32 ∧ (∀ (p : Nat × Nat) (c : Nat), p ∈ s.lakePlanes j → c < 8192 →
      s.sramBad (s.planeAddr false p.snd c) = false)) ∧
    (∃ (j : Fin 32) (s : State), s.pf.rewriting.contains ↑j = true) :=
  ⟨⟨47, ⟨1000, readFrame 1 4 ⟨[], 0, 0, 0⟩, 0, none, false⟩, (fun s =>
     { s.setIngLane 47 { IngLane.idle with frames := [⟨1000, readFrame 1 4 ⟨[], 0, 0, 0⟩, 0, none, false⟩] } with tb := { s.tb with n := 1004 } })
     (put up [(ING_CFG_DSKT, 5)]), by decide +kernel⟩,
   ⟨47, ⟨1000, readFrame 1 4 ⟨[], 0, 0, 0⟩, 0, none, false⟩, (fun s =>
     { s.setIngLane 47 { IngLane.idle with frames := [⟨1000, readFrame 1 4 ⟨[], 0, 0, 0⟩, 0, none, false⟩] } with tb := { s.tb with n := 1005 } })
     (put up [(ING_CFG_DSKT, 5)]), by decide +kernel⟩,
   ⟨9, [], (fun s => { s with cnd := { s.cnd with started := [9] } }) (up), by decide +kernel⟩,
   ⟨.host, up, by unfold Served; decide +kernel⟩,
   ⟨⟨9, [], 0, []⟩, (fun s => { s with pf := { s.pf with cross := [⟨9, [], 0, []⟩] } }) (put up [(PF_CFG_NROWS, 64)]),
     by decide +kernel⟩,
   ⟨.host, 7, up, by unfold Served; decide +kernel⟩,
   ⟨31, (fun s => { s with pf := { s.pf with flattening := some 31 } }) (up), ⟨by decide +kernel, by decide, fun _ _ _ _ => rfl⟩⟩,
   ⟨31, (fun s => { s with pf := { s.pf with rewriting := [31] } }) (up), by decide +kernel⟩⟩

theorem witness_PairChecks :
    (∃ (p : Fin 288) (back : Nat) (x : Nat) (s : State) (mb : Bool) (ws : List EWord) (e : EWord), s.running = true ∧ back ≤ s.tb.n ∧
      x = s.tb.n - back ∧ s.wordsFor (↑p) x = some ws ∧ (ended (if mb = true then (s.objWork (↑p) x).b else (s.objWork (↑p) x).a) =
      false) ∧ (ws[(if mb = true then (s.objWork (↑p) x).b else (s.objWork (↑p) x).a).length]? = some e)) ∧
    (∃ (p : Fin 288) (back : Nat) (x : Nat) (s : State), s.running = true ∧ back ≤ s.tb.n ∧ x = s.tb.n - back ∧ (s.objWork (↑p)
      x).mism = false ∧ ended (s.objWork (↑p) x).a ≠ ended (s.objWork (↑p) x).b) ∧
    (∃ (p : Fin 288) (back : Nat) (x : Nat) (s : State) (u : ReplayUse), s.running = true ∧ back ≤ s.tb.n ∧ x = s.tb.n - back ∧
      List.find? (fun u => u.crossings.contains (x, ↑p)) s.rel.replays = some u ∧ u.spare ≠ ↑p ∧ (s.objWork u.spare x).mism = false ∧
      ended (s.objWork u.spare x).a = true ∧ ended (s.objWork u.spare x).b = true) ∧
    (∃ (back : Nat) (x : Nat) (s : State) (all : List Cand), s.running = true ∧ back ≤ s.tb.n ∧ x = s.tb.n - back ∧ ((s.holdersAt
      x).any fun p => (s.objWork p x).result.isNone) = false ∧ (∀ (r : ObjResult), r ∈ s.obj.results → r.x ≠ x) ∧ (∃ c, c ∈ s.pf.cross ∧
      c.x = x) ∧ all = List.flatMap (fun p => (s.objWork p x).result.getD []) (s.holdersAt x)) ∧
    (∃ (back : Nat) (x : Nat) (s : State) (r : ObjResult), s.running = true ∧ back ≤ s.tb.n ∧ x = s.tb.n - back ∧ s.up 79 = false ∧
      List.find? (fun r => decide (r.x = x)) s.obj.results = some r ∧ r.lists = none) :=
  ⟨⟨0, 1, 99, objs, false, [.fin 0 0], .fin 0 0, by decide +kernel⟩,
   ⟨0, 1, 99, { objs with obj := { objs.obj with work := [⟨0, 99, [.fin 0 0], [], false, none⟩] } }, by decide +kernel⟩,
   ⟨0, 1, 99,
     { objs with obj := { objs.obj with work := [⟨287, 99, [.fin 0 0], [.fin 0 0], false, none⟩] }, rel := { objs.rel with replays := [⟨287, 0, [(99, 0)]⟩] } },
     ⟨287, 0, [(99, 0)]⟩, by decide +kernel⟩,
   ⟨1, 99, { objs with obj := { objs.obj with work := (List.range 288).map fun p => ⟨p, 99, [], [], false, some []⟩ } }, [],
     by decide +kernel⟩,
   ⟨1, 99, { objs.wr (RST_PDSTAT 2) 0xFFFF7FFF#32 with obj := { objs.obj with results := [⟨99, false, [], none⟩] } }, ⟨99, false, [],
     none⟩, by decide +kernel⟩⟩

theorem witness_Decisions :
    (∃ (back : Nat) (x : Nat) (r : ObjResult) (d : DecIn) (s : State), s.running = true ∧ s.up 78 = true ∧ back ≤ s.tb.n ∧ x = s.tb.n
      - back ∧ List.find? (fun r => decide (r.x = x)) s.obj.results = some r ∧ List.find? (fun d => decide (d.x = x)) s.dec.inputs =
      some d ∧ r.lists.isSome = true ∧ s.decDue x = true ∧ (∀ (y : Nat), s.dec.lastX = some y → y < x) ∧ s.dec.strays = []) ∧
    (∃ (who : Requester) (s : State), Served s who DEC_CTL) :=
  ⟨⟨1, 99, ⟨99, false, [], some []⟩, ⟨99, [], [], false, true, false⟩, (fun s =>
     { s with tb := { s.tb with n := 100 }, obj := { s.obj with results := [⟨99, false, [], some []⟩] }, dec := { s.dec with inputs := [⟨99, [], [], false, true, false⟩] } })
     (up), by decide +kernel⟩,
   ⟨.host, up, by unfold Served; decide +kernel⟩⟩

theorem witness_ReadoutFragments :
    (∃ (r : RoReq) (off : Nat) (s : State), s.ro.reqs = [r] ∧ s.ro.space = some off ∧ (s.fragment r).missing = false ∧ (s.fragment
      r).overrun = false ∧ (s.fragment r).uncorr = [] ∧ s.qm.hidden.contains (s.fld RO_FQ_Q, off) = true) ∧
    (∃ (r : RoReq) (off : Nat) (s : State), s.ro.reqs = [r] ∧ s.ro.space = some off ∧ (s.fragment r).missing = false ∧ (s.fragment
      r).overrun = false ∧ (s.fragment r).uncorr = [] ∧ s.qm.hidden.contains (s.fld RO_FQ_Q, off) = false) ∧
    (∃ (who : Requester) (x : Nat) (s : State), ServedRead s who RO_CUR_IDX ∧ s.ro.cur = some x) :=
  ⟨⟨⟨0, 0, 0, 0⟩, 64, (fun s =>
     { s with ro := { s.ro with reqs := [⟨0, 0, 0, 0⟩], space := some 64 }, qm := { s.qm with hidden := [(3, 64)] } }) (put up
     [(RO_FQ_Q, 3), (QM_QD_W 3 2, 4096)]), by decide +kernel⟩,
   ⟨⟨0, 0, 0, 0⟩, 64, (fun s => { s with ro := { s.ro with reqs := [⟨0, 0, 0, 0⟩], space := some 64 } }) (up), by decide +kernel⟩,
   ⟨.host, 9, (fun s => { s with ro := { s.ro with cur := some 9 } }) (up), by unfold ServedRead Served; decide +kernel⟩⟩

theorem witness_QueueAdmission :
    (∃ (who : Requester) (a : Fin 33) (q : BitVec 14) (s : State), Served s who (QM_PUSH ↑a) ∧ s.up 80 = true ∧ qmCheck s q.toNat = s
      ∧ s.watches q.toNat = [] ∧ s.refusal q.toNat (agentType ↑a).fst (agentType ↑a).snd (bitsOf (s.elemHdr q.toNat (s.qw q.toNat 5)) 23
      0) = 0 ∧ s.qw q.toNat 5 % 8 = 0 ∧ s.qw q.toNat 5 < s.qCap q.toNat ∧ s.ringOk q.toNat (s.qw q.toNat 5) (elemCost (bitsOf (s.elemHdr
      q.toNat (s.qw q.toNat 5)) 23 0)) = true) ∧
    (∃ (who : Requester) (a : Fin 33) (q : BitVec 14) (s : State), Served s who (QM_PUSH ↑a) ∧ s.up 80 = true ∧ qmCheck s q.toNat = s
      ∧ s.watches q.toNat = [] ∧ s.refusal q.toNat (agentType ↑a).fst (agentType ↑a).snd (bitsOf (s.elemHdr q.toNat (s.qw q.toNat 5)) 23
      0) ≠ 0) :=
  ⟨⟨.host, 31, 5, (fun s => { s with sram := memPut s.sram 0x2001000 64 }) (queue 0x800003E0), by unfold Served; decide +kernel⟩,
   ⟨.host, 31, 16383, up, by unfold Served; decide +kernel⟩⟩

theorem witness_QueueRemoval :
    (∃ (who : Requester) (a : Fin 33) (q : BitVec 14) (s : State), s.watches q.toNat = [] ∧ (s.accessCycle who).cyc.qmRefused = [] ∧
      Served s who (QM_POP ↑a) ∧ qmCheck s q.toNat = s ∧ (s.qDefined q.toNat && !s.qFrozen q.toNat && s.headReady q.toNat && decide (↑a
      < 32) && decide (s.qOut q.toNat = some ↑a)) = true ∧ s.qCap q.toNat ≠ 0) ∧
    (∃ (who : Requester) (a : Fin 33) (q : BitVec 14) (s : State), s.watches q.toNat = [] ∧ (s.accessCycle who).cyc.qmRefused = [] ∧
      Served s who (QM_POP ↑a) ∧ qmCheck s q.toNat = s ∧ (s.qDefined q.toNat && !s.qFrozen q.toNat && s.headReady q.toNat && decide (↑a
      < 32) && decide (s.qOut q.toNat = some ↑a)) = false) ∧
    (∃ (who : Requester) (q : BitVec 14) (s : State), s.watches q.toNat = [] ∧ (s.accessCycle who).cyc.qmRefused = [] ∧ Served s who
      QM_QRESET ∧ q.toNat < s.fld QM_CFG_NQ) ∧
    (∃ (n : Fin 48) (q : Nat) (s : State), s.startedQ (96 + ↑n) = some q ∧ s.qFrozen q = false ∧ s.watches q = [] ∧ s.qCap q ≠ 0 ∧
      diff24 s.tb.n (s.headDeadline q) ≤ 0) ∧
    (∃ (n : Fin 48) (q : Nat) (s : State), s.startedQ (96 + ↑n) = some q ∧ s.qFrozen q = false) :=
  ⟨⟨.host, 31, 5, put (queue 0x8007C000) [(QM_QD_W 5 6, 16)], by unfold Served; decide +kernel⟩,
   ⟨.host, 32, 5, queue 0x8007C000, by unfold Served; decide +kernel⟩,
   ⟨.host, 16383, put up [(QM_CFG_NQ, 16384)], by unfold Served; decide +kernel⟩,
   ⟨47, 5, (fun s => { s with qm := { s.qm with started := [(143, 5)] } }) (put (queue 0x8027C000) [(QM_QD_W 5 6, 16)]),
     by decide +kernel⟩,
   ⟨47, 5, (fun s => { s with qm := { s.qm with started := [(143, 5)] } }) (queue 0x80000000), by decide +kernel⟩⟩

theorem witness_DmaAndChannels :
    (∃ (ch : Fin 64) (s : State) (who : Requester), s.up 80 = true ∧ Served s who (DMA_CHCTL ↑ch) ∧ s.flag (DMA_CHCTL_EN ↑ch) = true ∧
      s.dmaSt ↑ch = 1) ∧
    (∃ (ch : Fin 64) (s : State) (who : Requester), s.up 80 = true ∧ Served s who (DMA_CHCTL ↑ch) ∧ s.flag (DMA_CHCTL_EN ↑ch) = true ∧
      s.dmaSt ↑ch ≠ 1) ∧
    (∃ (ch : Fin 64) (s : State), s.up 80 = true ∧ s.dmaSt ↑ch = 1 ∧ s.fld (DMA_CHCFG_POLL ↑ch) ≠ 0 ∧ (s.dmaX ↑ch).stopped = false) ∧
    (∃ (ch : Fin 64) (s : State) (who : Requester), s.up 80 = true ∧ Served s who (DMA_CHCTL ↑ch) ∧ s.flag (DMA_CHCTL_EN ↑ch) = false) ∧
    (∃ (ch : Fin 64) (s : State) (who : Requester), s.up 80 = true ∧ Served s who (DMA_CHCTL ↑ch) ∧ s.flag (DMA_CHCTL_EN ↑ch) = true ∧
      s.dmaSt ↑ch = 1 ∧ (s.dmaX ↑ch).space = none) ∧
    (∃ (ch : Fin 64) (s : State) (host : List Word) (d : List Nat), s.up 80 = true ∧ s.dmaSt ↑ch = 2 ∧ readDesc s (↑ch) (List.map
      BitVec.toNat host) = (s, some d) ∧ dBit d 0 31 = false ∧ s.flag (DMA_CHCTL_KICK ↑ch) = false) ∧
    (∃ (ch : Fin 64) (s : State) (host : List Word) (d : List Nat), s.up 80 = true ∧ s.dmaSt ↑ch = 2 ∧ readDesc s (↑ch) (List.map
      BitVec.toNat host) = (s, some d) ∧ dBit d 0 31 = true ∧ s.badDesc (↑ch) d = true) ∧
    (∃ (ch : Fin 64) (s : State) (host : List Word) (d : List Nat), s.up 80 = true ∧ s.dmaSt ↑ch = 2 ∧ readDesc s (↑ch) (List.map
      BitVec.toNat host) = (s, some d) ∧ dBit d 0 31 = true ∧ s.badDesc (↑ch) d = false ∧ dSsp d ≠ 3 ∧ dDsp d ≠ 3) ∧
    (∃ (ch : Fin 64) (s : State), s.up 80 = true ∧ s.dmaSt ↑ch = 7) ∧
    (∃ (ch : Fin 64) (s : State), s.up 80 = true ∧ s.dmaSt ↑ch = 6) ∧
    (∃ (ch : Fin 64) (s : State) (code : Nat) (count : Nat), s.up 80 = true ∧ (s.dmaX ↑ch).barrier = some (code, count)) ∧
    (∃ (ch : Fin 64) (s : State), s.up 80 = true ∧ s.dmaSt ↑ch = 2 ∧ s.fld (DMA_CHCFG_RSP ↑ch) = 2) ∧
    (∃ (c : Fin 4) (s : State), s.up (81 + ↑c) = true ∧ bit (s.fld MEM_STAT_FAIL) ↑c = false) ∧
    (∃ (c : Fin 4) (s : State), s.up (81 + ↑c) = true ∧ bit (s.fld MEM_STAT_READY) ↑c = false ∧ bit (s.fld MEM_STAT_FAIL) ↑c = false) ∧
    (∃ (s : State) (who : Requester), Served s who MEM_CTL ∧ s.dramUp ≠ []) ∧
    (∃ (s : State) (a : Nat), s.flag MEM_CTL_SCRUB = true ∧ s.dramReady a = true ∧ s.dram.bad.contains (a / 8 * 8) = false) :=
  ⟨⟨63, (put up [(DMA_CHCTL_EN 63, 1), (DMA_CHSTAT_STATE 63, 1)]).setDmaX 63 DmaX.idle, .host, by unfold Served; decide +kernel⟩,
   ⟨63, (put up [(DMA_CHCTL_EN 63, 1), (DMA_CHSTAT_STATE 63, 3)]).setDmaX 63 DmaX.idle, .host, by unfold Served; decide +kernel⟩,
   ⟨63, (put up [(DMA_CHCTL_EN 63, 1), (DMA_CHSTAT_STATE 63, 1), (DMA_CHCFG_POLL 63, 1)]).setDmaX 63 DmaX.idle, by decide +kernel⟩,
   ⟨63, put up [(DMA_RING_ADDR 63, 5)], .host, by unfold Served; decide +kernel⟩,
   ⟨63, (put up [(DMA_CHCTL_EN 63, 1), (DMA_CHSTAT_STATE 63, 1)]).setDmaX 63 DmaX.idle, .host, by unfold Served; decide +kernel⟩,
   ⟨63, (put up [(DMA_CHCTL_EN 63, 1), (DMA_CHSTAT_STATE 63, 2), (DMA_CHCFG_RSP 63, 1), (MEM_STAT_READY, 15)]).setDmaX 63 DmaX.idle,
     [], [0, 0, 0, 0, 0, 0, 0, 0], by decide +kernel⟩,
   ⟨63, (fun s => { s with dram := { s.dram with mem := [(3, 0x80#8)] } }) ((put up [(DMA_CHCTL_EN 63, 1), (DMA_CHSTAT_STATE 63, 2),
     (DMA_CHCFG_RSP 63, 1), (MEM_STAT_READY, 15)]).setDmaX 63 DmaX.idle), [], [2 ^ 31, 0, 0, 0, 0, 0, 0, 0], by decide +kernel⟩,
   ⟨63, (fun s => { s with dram := { s.dram with mem := [(2, 0x40#8), (3, 0x84#8), (12, 4#8)] } }) ((put up [(DMA_CHCTL_EN 63, 1),
     (DMA_CHSTAT_STATE 63, 2), (DMA_CHCFG_RSP 63, 1), (MEM_STAT_READY, 15)]).setDmaX 63 DmaX.idle), [], [0x84400000, 0, 0, 4, 0, 0, 0,
     0], by decide +kernel⟩,
   ⟨63, (put up [(DMA_CHCTL_EN 63, 1), (DMA_CHSTAT_STATE 63, 7)]).setDmaX 63 DmaX.idle, by decide +kernel⟩,
   ⟨63, (put up [(DMA_CHCTL_EN 63, 1), (DMA_CHSTAT_STATE 63, 6)]).setDmaX 63 DmaX.idle, by decide +kernel⟩,
   ⟨63, (put up [(DMA_CHCTL_EN 63, 1), (DMA_CHSTAT_STATE 63, 5)]).setDmaX 63 { DmaX.idle with barrier := some (1, 5) }, 1, 5,
     by decide +kernel⟩,
   ⟨63, (put up [(DMA_CHCTL_EN 63, 1), (DMA_CHSTAT_STATE 63, 2), (DMA_CHCFG_RSP 63, 2)]).setDmaX 63 DmaX.idle, by decide +kernel⟩,
   ⟨3, up, by decide +kernel⟩,
   ⟨3, up, by decide +kernel⟩,
   ⟨put up [(MEM_STAT_READY, 15)], .host, by unfold Served; decide +kernel⟩,
   ⟨put up [(MEM_STAT_READY, 15), (MEM_CTL_SCRUB, 1)], 2 ^ 30 - 8, by decide +kernel⟩⟩

theorem witness_DmaFillsDram :
    (∃ (ch : Fin 64) (s : State), s.up 80 = true ∧ s.dmaSt ↑ch = 3 ∧ s.fld (DMA_CHCFG_RSP ↑ch) = 1 ∧ (∀ (a : Nat), s.dramReady a =
      true) ∧ dMode (s.dmaX ↑ch).desc = 1 ∧ dDsp (s.dmaX ↑ch).desc = 1 ∧ dSsp (s.dmaX ↑ch).desc ≠ 3 ∧ dBit (s.dmaX ↑ch).desc 0 30 =
      false ∧ dBit (s.dmaX ↑ch).desc 0 29 = false ∧ dLen (s.dmaX ↑ch).desc ≠ 0 ∧ dDst (s.dmaX ↑ch).desc + dLen (s.dmaX ↑ch).desc ≤ 2 ^
      30 ∧ s.fld (DMA_CUR_ADDR ↑ch) * 32 + 32 ≤ 2 ^ 30 ∧ (dDst (s.dmaX ↑ch).desc + dLen (s.dmaX ↑ch).desc ≤ s.fld (DMA_CUR_ADDR ↑ch) *
      32 ∨ s.fld (DMA_CUR_ADDR ↑ch) * 32 + 32 ≤ dDst (s.dmaX ↑ch).desc)) :=
  ⟨0, fills, ⟨by decide +kernel, by decide +kernel, by decide +kernel, fills_dramReady, by decide +kernel⟩⟩

theorem witness_SurveyMaps :
    (∃ (who : Requester) (s : State), Served s who SRV_CTL) ∧
    (∃ (who : Requester) (s : State), ServedRead s who SRV_PAGE) ∧
    (∃ (who : Requester) (s : State), Served s who SRV_CCTL ∧ s.srv.comp = none ∧ s.srv.swapSeq = none) ∧
    (∃ (who : Requester) (s : State), Served s who SRV_CCTL ∧ (s.srv.comp.isSome || s.srv.swapSeq.isSome) = true) ∧
    (∃ (c : Comp) (s : State), s.up 85 = true ∧ s.srv.comp = some c ∧ (compDraw c (1 - s.srv.front) s).flag SRV_DCTL_EN = true) ∧
    (∃ (who : Requester) (s : State), ServedRead s who SRV_LASTSWAP0) :=
  ⟨⟨.host, up, by unfold Served; decide +kernel⟩,
   ⟨.host, up, by unfold ServedRead Served; decide +kernel⟩,
   ⟨.host, up, by unfold Served; decide +kernel⟩,
   ⟨.host, (fun s => { s with srv := { s.srv with swapSeq := some 3 } }) (up), by unfold Served; decide +kernel⟩,
   ⟨⟨0, true, [], 0, [], false, []⟩, (fun s => { s with srv := { s.srv with comp := some ⟨0, true, [], 0, [], false, []⟩ } }) (put up
     [(SRV_DCTL_EN, 1)]), by decide +kernel⟩,
   ⟨.host, up, by unfold ServedRead Served; decide +kernel⟩⟩

theorem witness_ScanOutAndDisplay :
    (∃ (s : State), s.up 85 = true ∧ s.flag SRV_DCTL_EN = true ∧ s.srv.swapSeq = none ∧ s.fld SRV_DSTAT_LSTATE ≠ 3 ∧ s.fld
      SRV_FRZCRC_CRC ≠ s.srv.prevCrc) ∧
    (∃ (s : State) (q : Nat), s.up 85 = true ∧ s.flag SRV_DCTL_EN = true ∧ s.srv.swapSeq = some q) ∧
    (∃ (s : State), s.up 85 = true ∧ s.flag SRV_DCTL_EN = true ∧ s.fld SRV_DSTAT_LSTATE ≠ 4) ∧
    (∃ (s : State) (who : Requester) (v : Word), s.up 85 = true ∧ Served s who SRV_DCTL ∧ s.flag SRV_DCTL_EN = false ∧ s.dpLane 46 =
      true ∧ (BitVec.getLsbD v 0 = false ∨ s.dpLane 47 = true)) ∧
    (∃ (s : State), s.up 85 = true ∧ s.fld SRV_DSTAT_LSTATE = 1) ∧
    (∃ (s : State), s.up 85 = true ∧ s.fld SRV_DSTAT_LSTATE ≠ 1) ∧
    (∃ (s : State), s.up 85 = true ∧ s.fld SRV_DSTAT_LSTATE ≠ 0) ∧
    (∃ (s : State), s.up 85 = true ∧ s.fld SRV_DSTAT_LSTATE = 3) ∧
    (∃ (s : State), s.up 85 = true ∧ s.fld SRV_DSTAT_LSTATE = 2) ∧
    (∃ (s : State), s.up 85 = true ∧ s.fld SRV_DSTAT_LSTATE = 2 ∧ s.srv.tryRate = 0 ∧ s.srv.tryLanes = 0) :=
  ⟨⟨(fun s => { s with srv := { s.srv with prevCrc := 5 } }) (put up [(SRV_DCTL_EN, 1)]), by decide +kernel⟩,
   ⟨(fun s => { s with srv := { s.srv with swapSeq := some 7 } }) (put up [(SRV_DCTL_EN, 1)]), 7, by decide +kernel⟩,
   ⟨put up [(SRV_DCTL_EN, 1)], by decide +kernel⟩,
   ⟨put up [(LNK_CFG_MODE 46, 2), (LNK_CFG_MODE 47, 2)], .host, 0xC0000000#32, by unfold Served; decide +kernel⟩,
   ⟨put up [(SRV_DSTAT_LSTATE, 1)], by decide +kernel⟩,
   ⟨up, by decide +kernel⟩,
   ⟨put up [(SRV_DSTAT_LSTATE, 3)], by decide +kernel⟩,
   ⟨put up [(SRV_DSTAT_LSTATE, 3)], by decide +kernel⟩,
   ⟨put up [(SRV_DSTAT_LSTATE, 2)], by decide +kernel⟩,
   ⟨put up [(SRV_DSTAT_LSTATE, 2)], by decide +kernel⟩⟩

theorem witness_Blits :
    (∃ (who : Requester) (s : State), Served s who SRV_BCTL ∧ s.srv.blit.isSome = true) ∧
    (∃ (who : Requester) (op : BitVec 3) (wm : BitVec 12) (s : State), Served s who SRV_BCTL ∧ s.srv.blit = none ∧ ((fun s : State =>
      (s.setFld SRV_BCTL_OP op.toNat).setFld SRV_BCTL_WM wm.toNat) s).blitRefusal ((fun s : State => (s.setFld SRV_BCTL_OP
      op.toNat).setFld SRV_BCTL_WM wm.toNat) s).blitOf = 0) ∧
    (∃ (who : Requester) (op : BitVec 3) (wm : BitVec 12) (s : State), Served s who SRV_BCTL ∧ s.srv.blit = none ∧ ((fun s : State =>
      (s.setFld SRV_BCTL_OP op.toNat).setFld SRV_BCTL_WM wm.toNat) s).blitRefusal ((fun s : State => (s.setFld SRV_BCTL_OP
      op.toNat).setFld SRV_BCTL_WM wm.toNat) s).blitOf ≠ 0) ∧
    (∃ (b : Blit) (s : State), s.up 85 = true ∧ s.srv.blit = some b ∧ s.fld SRV_BSTAT_ROWS + 1 ≠ b.h) ∧
    (∃ (b : Blit) (s : State), s.up 85 = true ∧ s.srv.blit = some b ∧ s.fld SRV_BSTAT_ROWS + 1 = b.h) ∧
    (∃ (b : Blit) (s : State), s.up 85 = true ∧ s.srv.blit = some b) :=
  ⟨⟨.host, (fun s =>
     { s with srv := { s.srv with blit := some ⟨0x2000000, 0x03000001, 0x2001000, 0x03000001, 1, 2, 0, 0, 0, 0, 0⟩ } }) (up),
     by unfold Served; decide +kernel⟩,
   ⟨.host, 1, 4095, blits, by unfold Served; decide +kernel⟩,
   ⟨.host, 7, 0, up, by unfold Served; decide +kernel⟩,
   ⟨⟨0x2000000, 0x03000001, 0x2001000, 0x03000001, 1, 2, 0, 0, 0, 0, 0⟩, (fun s =>
     { s with srv := { s.srv with blit := some ⟨0x2000000, 0x03000001, 0x2001000, 0x03000001, 1, 2, 0, 0, 0, 0, 0⟩ } }) (up),
     by decide +kernel⟩,
   ⟨⟨0x2000000, 0x03000001, 0x2001000, 0x03000001, 1, 1, 0, 0, 0, 0, 0⟩, (fun s =>
     { s with srv := { s.srv with blit := some ⟨0x2000000, 0x03000001, 0x2001000, 0x03000001, 1, 1, 0, 0, 0, 0, 0⟩ } }) (up),
     by decide +kernel⟩,
   ⟨⟨0x2000000, 0x03000001, 0x2001000, 0x03000001, 1, 1, 0, 0, 0, 0, 0⟩, (fun s =>
     { s with srv := { s.srv with blit := some ⟨0x2000000, 0x03000001, 0x2001000, 0x03000001, 1, 1, 0, 0, 0, 0, 0⟩ } }) (up),
     by decide +kernel⟩⟩

theorem witness_CellsAndLoops :
    (∃ (n : Fin 48) (s : State), s.up 91 = true ∧ s.loopOfCell ↑n = none ∧ s.fld (CVL_CCFG_MODE ↑n) = 1 ∧ (∀ (e : Nat × Nat), e ∈
      s.cvl.conv → e.fst ≠ ↑n)) ∧
    (∃ (n : Fin 48) (s : State), s.up 91 = true ∧ s.loopOfCell ↑n = none ∧ s.fld (CVL_CCFG_MODE ↑n) = 1 ∧ (∃ e, e ∈ s.cvl.conv ∧ e.fst
      = ↑n)) ∧
    (∃ (n : Fin 48) (k : Nat) (s : State), List.find? (fun e => decide (e.fst = ↑n)) s.cvl.conv = some (↑n, k)) ∧
    (∃ (n : Fin 48) (s : State), s.up 91 = true ∧ s.fld (CVL_CCFG_MODE ↑n) = 3) ∧
    (∃ (v : BitVec 16) (s : State), s.up 92 = true ∧ s.up 2 = true ∧ v.toInt ≤ sext 16 (s.fld FLT_TLIM_HI)) ∧
    (∃ (i : Fin 64) (s : State), s.up 91 = true ∧ s.up 92 = true ∧ ↑i ∈ s.loopList ∧ (s.loopX ↑i).due = true ∧ s.fld (CVL_CCFG_MODE
      (s.fld (CVL_LCFG_CELL ↑i))) = 1 ∧ s.loopBad ↑i = false ∧ s.loopHeld ↑i = false ∧ (s.loopX ↑i).held = false ∧ (s.loopX ↑i).seeded =
      true ∧ (∀ (e : Nat × Nat), e ∈ s.cvl.conv → e.fst ≠ s.fld (CVL_LCFG_CELL ↑i))) ∧
    (∃ (i : Fin 64) (s : State), s.up 91 = true ∧ s.up 92 = true ∧ ↑i ∈ s.loopList ∧ (s.loopX ↑i).due = true ∧ s.fld (CVL_CCFG_MODE
      (s.fld (CVL_LCFG_CELL ↑i))) = 1 ∧ (∃ e, e ∈ s.cvl.conv ∧ e.fst = s.fld (CVL_LCFG_CELL ↑i))) ∧
    (∃ (i : Fin 64) (t0 : Nat) (s : State), s.up 92 = true ∧ (s.loopX ↑i).ready = some t0 ∧ s.loopHeld ↑i = false ∧ s.fld
      (CVL_LCFG_OMODE ↑i) = 0 ∧ s.fld (CVL_PCTL_UPD (s.fld (CVL_LCFG_OIDX ↑i))) ≠ 0) ∧
    (∃ (i : Fin 64) (t0 : Nat) (s : State), s.up 92 = true ∧ (s.loopX ↑i).ready = some t0 ∧ s.loopHeld ↑i = false ∧ s.fld
      (CVL_LCFG_OMODE ↑i) = 2) :=
  ⟨⟨47, put up [(CVL_CCFG_MODE 47, 1)], by decide +kernel⟩,
   ⟨47, (fun s => { s with cvl := { s.cvl with conv := [(47, 3)] } }) (put up [(CVL_CCFG_MODE 47, 1)]), by decide +kernel⟩,
   ⟨47, 3, (fun s => { s with cvl := { s.cvl with conv := [(47, 3)] } }) (up), by decide +kernel⟩,
   ⟨47, put up [(CVL_CCFG_MODE 47, 3)], by decide +kernel⟩,
   ⟨1000, up, by decide +kernel⟩,
   ⟨63, (fun s => s.setLoop 63 { LoopX.idle with due := true, seeded := true }) (put up [(CVL_CFG_NLOOP, 64), (CVL_LCFG_EN 63, 1),
     (CVL_LCFG_CELL 63, 5), (CVL_CCFG_MODE 5, 1)]), by decide +kernel⟩,
   ⟨63, (fun s =>
     { s.setLoop 63 { LoopX.idle with due := true, seeded := true } with cvl := { (s.setLoop 63 { LoopX.idle with due := true, seeded := true }).cvl with conv := [(5, 3)] } })
     (put up [(CVL_CFG_NLOOP, 64), (CVL_LCFG_EN 63, 1), (CVL_LCFG_CELL 63, 5), (CVL_CCFG_MODE 5, 1)]), by decide +kernel⟩,
   ⟨63, 9, (fun s => s.setLoop 63 { LoopX.idle with ready := some 9, out := 77 }) (put up [(CVL_PCTL_UPD 0, 1)]), by decide +kernel⟩,
   ⟨63, 9, (fun s => s.setLoop 63 { LoopX.idle with ready := some 9 }) (put up [(CVL_LCFG_OMODE 63, 2)]), by decide +kernel⟩⟩

theorem witness_ComparatorTrips :
    (∃ (k : Fin 96) (uv : BitVec 21) (s : State), s.up 91 = true ∧ s.up 92 = true ∧ s.cmpLevel ↑k = false ∧ s.cmpOver (↑k) uv.toNat =
      true ∧ s.flag (CVL_CMPCFG_TEN ↑k) = true ∧ ↑k ∈ s.cvl.blank) ∧
    (∃ (k : Fin 96) (uv : BitVec 21) (s : State), s.up 91 = true ∧ s.up 92 = true ∧ s.cmpLevel ↑k = false ∧ s.cmpOver (↑k) uv.toNat =
      true ∧ s.flag (CVL_CMPCFG_TEN ↑k) = true ∧ ¬↑k ∈ s.cvl.blank ∧ s.flag (CVL_CMPCFG_CYC ↑k) = true) ∧
    (∃ (k : Fin 96) (uv : BitVec 21) (s : State), s.up 91 = true ∧ s.up 92 = true ∧ s.cmpLevel ↑k = false ∧ s.cmpOver (↑k) uv.toNat =
      true ∧ s.flag (CVL_CMPCFG_TEN ↑k) = true ∧ ¬↑k ∈ s.cvl.blank ∧ s.flag (CVL_CMPCFG_CYC ↑k) = false) ∧
    (∃ (k : Fin 96) (s : State), ↑k ∈ s.cvl.blank ∧ (s.cmpLevel ↑k && s.flag (CVL_CMPCFG_TEN ↑k)) = false) ∧
    (∃ (k : Fin 96) (uv : BitVec 21) (s : State), s.up 91 = true ∧ s.cmpOver (↑k) uv.toNat = false) ∧
    (∃ (k : Fin 96) (s : State), s.cmpLevel ↑k = false) ∧
    (∃ (who : Requester) (hi : Bool) (s : State), (Served s who (if hi = true then CVL_TRIPCLR_HI else CVL_TRIPCLR_LO)) ∧ s.safe =
      true) ∧
    (∃ (who : Requester) (hi : Bool) (s : State), (Served s who (if hi = true then CVL_TRIPCLR_HI else CVL_TRIPCLR_LO)) ∧ s.safe =
      false) :=
  ⟨⟨95, 0, (fun s => { s with cvl := { s.cvl with blank := [95] } }) (put up [(CVL_CMPCFG_TEN 95, 1), (CVL_CMPCFG_THR 95, 1)]),
     by decide +kernel⟩,
   ⟨95, 0, put up [(CVL_CMPCFG_TEN 95, 1), (CVL_CMPCFG_THR 95, 1), (CVL_CMPCFG_CYC 95, 1), (CVL_CMPCFG_GRP 95, 63)],
     by decide +kernel⟩,
   ⟨95, 0, put up [(CVL_CMPCFG_TEN 95, 1), (CVL_CMPCFG_THR 95, 1), (CVL_CMPCFG_GRP 95, 63)], by decide +kernel⟩,
   ⟨95, (fun s => { s with cvl := { s.cvl with blank := [95] } }) (up), by decide +kernel⟩,
   ⟨94, 0, up, by decide +kernel⟩,
   ⟨95, up, by decide +kernel⟩,
   ⟨.host, true, put up [(FLT_SAFE_SAFE, 1)], by unfold Served; decide +kernel⟩,
   ⟨.host, false, up, by unfold Served; decide +kernel⟩⟩

theorem witness_PwmInstants :
    (∃ (m : Fin 64) (s : State), s.up 92 = true ∧ (s.pwm ↑m).run = true ∧ s.ecc = [] ∧ (s.fld (CVL_PCTL_UPD ↑m) ≠ 0 ∨ ∀ (u : Nat), u <
      16 → s.flag (CVL_MSCFG_EN u) = true → s.fld (CVL_MSCFG_PAIR0 u) ≠ ↑m)) ∧
    (∃ (m : Fin 64) (s : State), s.up 92 = true ∧ (s.pwm ↑m).run = true ∧ s.fld (CVL_PCTL_UPD ↑m) ≠ 2) ∧
    (∃ (m : Fin 64) (s : State), s.up 92 = true ∧ (s.pwm ↑m).run = true ∧ s.fld (CVL_PCTL_UPD ↑m) = 2) ∧
    (∃ (m : Fin 64) (e : PwmEdge) (rest : List PwmEdge) (s : State), s.up 92 = true ∧ (s.pwm ↑m).run = true ∧ (s.pwm ↑m).edges = e ::
      rest ∧ s.inZone (↑m) e.t = true) ∧
    (∃ (m : Fin 64) (e : PwmEdge) (rest : List PwmEdge) (s : State), s.up 92 = true ∧ (s.pwm ↑m).run = true ∧ (s.pwm ↑m).edges = e ::
      rest ∧ s.inZone (↑m) e.t = false) :=
  ⟨⟨63, (fun s => s.setPwm 63 { PwmX.idle with run := true }) (put up [(CVL_PCTL_UPD 63, 1)]), by decide +kernel⟩,
   ⟨63, (fun s => s.setPwm 63 { PwmX.idle with run := true }) (up), by decide +kernel⟩,
   ⟨63, (fun s => s.setPwm 63 { PwmX.idle with run := true }) (put up [(CVL_PCTL_UPD 63, 2)]), by decide +kernel⟩,
   ⟨63, ⟨5, .rise false⟩, [], (fun s => s.setPwm 63 { PwmX.idle with run := true, edges := [⟨5, .rise false⟩] }) (put up
     [(CVL_PCFG_QEN 63, 1), (⟨CVL_QMASK 0 0, 0, 0⟩, 1)]), by decide +kernel⟩,
   ⟨63, ⟨5, .fall true⟩, [], (fun s => s.setPwm 63 { PwmX.idle with run := true, edges := [⟨5, .fall true⟩] }) (up),
     by decide +kernel⟩⟩

theorem witness_VoicesAndBuses :
    (∃ (who : Requester) (v : Fin 64) (s : State), Served s who (VOX_VCTL ↑v) ∧ s.up 92 = true ∧ s.running = true ∧ s.flag
      (VOX_VCFG_EN ↑v) = true) ∧
    (∃ (who : Requester) (v : Fin 64) (s : State), Served s who (VOX_VCTL ↑v) ∧ s.up 92 = true) ∧
    (∃ (b : Fin 16) (s : State), s.up 92 = true ∧ s.running = true ∧ ↑b < s.fld VOX_CFG_NBUS ∧ s.ecc = [] ∧ (s.fld (VOX_BCFG_RATE ↑b)
      = 1 ∨ s.fld (VOX_BCFG_RATE ↑b) = 2)) ∧
    (∃ (b : Fin 16) (x : Int) (code : Nat) (r : List (Int × Nat)) (s : State), (s.bus ↑b).flight = (x, code) :: r) ∧
    (∃ (who : Requester) (b : Fin 16) (s : State), Served s who (VOX_BMCFG ↑b) ∧ s.up 92 = true) :=
  ⟨⟨.host, 63, put up [(VOX_VCFG_EN 63, 1), (VOX_CFG_NVOICE, 64), (VOX_CFG_NBUS, 16)], by unfold Served; decide +kernel⟩,
   ⟨.host, 63, put up [(VOX_CFG_NVOICE, 64)], by unfold Served; decide +kernel⟩,
   ⟨15, put up [(VOX_CFG_NBUS, 16), (VOX_BCFG_RATE 15, 2)], by decide +kernel⟩,
   ⟨15, -5, 9, [], (fun s => s.setBus 15 { Bus.idle with flight := [(-5, 9)] }) (up), by decide +kernel⟩,
   ⟨.host, 15, put up [(VOX_CFG_NBUS, 16)], by unfold Served; decide +kernel⟩⟩

theorem witness_CompareRearms :
    (∃ (who : Requester) (n : Fin 128) (s : State), s.linked ↑n = false ∧ Served s who (TMR_CMP ↑n)) ∧
    (∃ (who : Requester) (n : Fin 128) (s : State), s.linked ↑n = false ∧ Served s who (TMR_CNT ↑n)) ∧
    (∃ (who : Requester) (n : Fin 128) (s : State) (m : Nat) (w : Word), s.linked ↑n = true ∧ ↑n = m + 1 ∧ m % 2 = 0 ∧ Served s who
      (TMR_CMP ↑n) ∧ (s.timer m).heldCmp = some w) ∧
    (∃ (who : Requester) (n : Fin 128) (s : State) (m : Nat) (w : Word), s.linked ↑n = true ∧ ↑n = m + 1 ∧ m % 2 = 0 ∧ Served s who
      (TMR_CNT ↑n) ∧ (s.timer m).heldCnt = some w) :=
  ⟨⟨.host, 0, up, by unfold Served; decide +kernel⟩,
   ⟨.host, 127, up, by unfold Served; decide +kernel⟩,
   ⟨.host, 1, (fun s => s.setTimer 0 { TimerX.idle with heldCmp := some 5 }) (put up [(TMR_CTL_LINK 0, 1)]), 0, 5,
     by unfold Served; decide +kernel⟩,
   ⟨.host, 127, (fun s => s.setTimer 126 { TimerX.idle with heldCnt := some 5 }) (put up [(TMR_CTL_LINK 126, 1)]), 126, 5,
     by unfold Served; decide +kernel⟩⟩

theorem witness_Timers :
    (∃ (who : Requester) (n : Fin 128) (s : State), Served s who (TMR_CTL ↑n) ∧ s.flag (TMR_CTL_RUN ↑n) = true) ∧
    (∃ (who : Requester) (n : Fin 128) (s : State), Served s who (TMR_CTL ↑n) ∧ s.flag (TMR_CTL_RUN ↑n) = false) ∧
    (∃ (n : Fin 128) (rise : Bool) (s : State), s.up 90 = true ∧ (s.linked ↑n = true → ↑n % 2 = 0) ∧ s.flag (TMR_CTL_RUN ↑n) = true ∧
      s.tmrFed (↑n) rise = true ∧ (s.timer ↑n).acc + 256 < s.tmrP ↑n) ∧
    (∃ (n : Fin 128) (rise : Bool) (s : State), s.up 90 = true ∧ (s.linked ↑n = true → ↑n % 2 = 0) ∧ s.flag (TMR_CTL_RUN ↑n) = true ∧
      s.tmrFed (↑n) rise = true ∧ s.tmrP ↑n ≤ (s.timer ↑n).acc + 256 ∧ (s.tval TMR_PER ↑n = 0 ∨ s.tval TMR_CNT ↑n + 1 < s.tval TMR_PER
      ↑n) ∧ s.tval TMR_CNT ↑n + 1 < 2 ^ s.tbits ↑n ∧ (s.flag (TMR_STAT_ARMED ↑n) = false ∨ s.tval TMR_CNT ↑n + 1 < s.tval TMR_CMP ↑n)) ∧
    (∃ (n : Fin 128) (rise : Bool) (s : State), s.up 90 = true ∧ (s.linked ↑n = true → ↑n % 2 = 0) ∧ s.flag (TMR_CTL_RUN ↑n) = true ∧
      s.tmrFed (↑n) rise = true ∧ s.tmrP ↑n ≤ (s.timer ↑n).acc + 256 ∧ s.tval TMR_PER ↑n ≠ 0 ∧ s.tval TMR_PER ↑n ≤ s.tval TMR_CNT ↑n + 1
      ∧ s.tval TMR_CMP ↑n ≠ 0) ∧
    (∃ (who : Requester) (n : Fin 128) (s : State), s.linked ↑n = false ∧ ServedRead s who (TMR_CNT ↑n)) ∧
    (∃ (who : Requester) (n : Fin 128) (s : State) (w : Word) (r : List Word), s.linked ↑n = false ∧ ServedRead s who (TMR_CAP ↑n) ∧
      (s.timer ↑n).caps = w :: r ∧ (s.accessCycle who).cyc.capDrops = []) ∧
    (∃ (who : Requester) (n : Fin 128) (s : State), s.linked ↑n = true ∧ ↑n % 2 = 0 ∧ ServedRead s who (TMR_CNT ↑n)) ∧
    (∃ (n : Fin 128) (s : State), s.up 90 = true ∧ s.linked ↑n = false ∧ s.fld (TMR_CTL_CSEL ↑n) = 2 ∧ s.fld TB_STAT_STATE ≠ 0 ∧
      (s.timer ↑n).caps.length < 4) ∧
    (∃ (n : Fin 128) (s : State), s.up 90 = true ∧ s.linked ↑n = false ∧ s.fld (TMR_CTL_CSEL ↑n) = 2 ∧ s.fld TB_STAT_STATE ≠ 0 ∧ 4 ≤
      (s.timer ↑n).caps.length) :=
  ⟨⟨.host, 127, put up [(TMR_CTL_RUN 127, 1)], by unfold Served; decide +kernel⟩,
   ⟨.host, 127, up, by unfold Served; decide +kernel⟩,
   ⟨127, false, put up [(TMR_CTL_RUN 127, 1), (TMR_CTL_SRC 127, 0), (TMR_PRE_PINT 127, 2)], by decide +kernel⟩,
   ⟨127, false, put up [(TMR_CTL_RUN 127, 1), (TMR_CTL_SRC 127, 0)], by decide +kernel⟩,
   ⟨127, false, put up [(TMR_CTL_RUN 127, 1), (TMR_CTL_SRC 127, 0), (TMR_PER_PER 127, 1), (TMR_CMP_CMP 127, 1)], by decide +kernel⟩,
   ⟨.host, 127, up, by unfold ServedRead Served; decide +kernel⟩,
   ⟨.host, 127, (fun s => s.setTimer 127 { TimerX.idle with caps := [5, 6] }) (up), 5, [6],
     by unfold ServedRead Served; decide +kernel⟩,
   ⟨.host, 126, put up [(TMR_CTL_LINK 126, 1)], by unfold ServedRead Served; decide +kernel⟩,
   ⟨127, put up [(TMR_CTL_CSEL 127, 2)], by decide +kernel⟩,
   ⟨127, (fun s => s.setTimer 127 { TimerX.idle with caps := [5, 6, 7, 8] }) (put up [(TMR_CTL_CSEL 127, 2)]), by decide +kernel⟩⟩

theorem witness_EventCounters :
    (∃ (who : Requester) (k : Fin 512) (s : State), Served s who (TMR_ESEL ↑k)) ∧
    (∃ (who : Requester) (s : State), Served s who TMR_EVCTL) ∧
    (∃ (who : Requester) (s : State), Served s who TMR_EVCTL) ∧
    (∃ (who : Requester) (k : Fin 512) (s : State), ServedRead s who (TMR_ECNT_LO ↑k)) ∧
    (∃ (who : Requester) (s : State), ServedRead s who TMR_SNAPT_LO) :=
  ⟨⟨.host, 511, up, by unfold Served; decide +kernel⟩,
   ⟨.host, up, by unfold Served; decide +kernel⟩,
   ⟨.host, up, by unfold Served; decide +kernel⟩,
   ⟨.host, 511, up, by unfold ServedRead Served; decide +kernel⟩,
   ⟨.host, up, by unfold ServedRead Served; decide +kernel⟩⟩

theorem witness_SepiaArithmetic :
    (∃ (c : Fin 32) (h : Fin 4) (rd : Nat) (ra : Nat) (rb : Nat) (sf : Bool) (s : State), Quiet s ↑c ↑h ∧ Issues s (↑c) (↑h) (Ins.alu
      0 rd ra rb sf) ∧ (BitVec.getLsbD (s.thr ↑c ↑h).sw 29 = false ∨ aluOverflow 0 ((s.thr ↑c ↑h).use ra) ((s.thr ↑c ↑h).use rb) =
      false)) ∧
    (∃ (c : Fin 32) (h : Fin 4) (rd : Nat) (ra : Nat) (rb : Nat) (sf : Bool) (s : State), Quiet s ↑c ↑h ∧ Issues s (↑c) (↑h) (Ins.alu
      0 rd ra rb sf) ∧ BitVec.getLsbD (s.thr ↑c ↑h).sw 29 = true ∧ aluOverflow 0 ((s.thr ↑c ↑h).use ra) ((s.thr ↑c ↑h).use rb) = true) ∧
    (∃ (c : Fin 32) (h : Fin 4) (rd : Nat) (ra : Nat) (rb : Nat) (sf : Bool) (s : State), Quiet s ↑c ↑h ∧ Issues s (↑c) (↑h) (Ins.alu
      9 rd ra rb sf)) ∧
    (∃ (c : Fin 32) (h : Fin 4) (rd : Nat) (ra : Nat) (k : Nat) (s : State), Quiet s ↑c ↑h ∧ Issues s (↑c) (↑h) (Ins.imm 9 rd ra k) ∧
      (9 ≠ 4 ∨ BitVec.getLsbD (s.thr ↑c ↑h).sw 29 = false ∨ addOverflow ((s.thr ↑c ↑h).use ra) (sextW 18 k) = false)) ∧
    (∃ (c : Fin 32) (h : Fin 4) (rd : Nat) (ra : Nat) (k : Nat) (s : State), Quiet s ↑c ↑h ∧ Issues s (↑c) (↑h) (Ins.imm 8 rd ra k)) :=
  ⟨⟨31, 3, 3, 1, 2, false, sepia (thread [0x00C48000] [(1, 1), (2, 2)]), by unfold Quiet Issues; decide +kernel⟩,
   ⟨31, 3, 3, 1, 2, false, sepia { thread [0x00C48000] [(1, 0x7FFFFFFF), (2, 2)] with sw := 0x21000000 },
     by unfold Quiet Issues; decide +kernel⟩,
   ⟨31, 3, 0, 1, 2, true, sepia (thread [0x0004A009] [(1, 1), (2, 2)]), by unfold Quiet Issues; decide +kernel⟩,
   ⟨31, 3, 3, 0, 65535, sepia (thread [0x24C0FFFF] [(1, 1), (2, 2)]), by unfold Quiet Issues; decide +kernel⟩,
   ⟨31, 3, 0, 1, 0x3FFFF, sepia (thread [0x2007FFFF] [(1, 1), (2, 2)]), by unfold Quiet Issues; decide +kernel⟩⟩

theorem witness_SepiaLongOperations :
    (∃ (c : Fin 32) (h : Fin 4) (rd : Nat) (ra : Nat) (rb : Nat) (s : State), Quiet s ↑c ↑h ∧ Issues s (↑c) (↑h) (Ins.mul 0 rd ra rb)
      ∧ (s.thr ↑c ↑h).mul = []) ∧
    (∃ (c : Fin 32) (h : Fin 4) (rb : Nat) (s : State), Quiet s ↑c ↑h ∧ Issues s (↑c) (↑h) (.mul 3 3 1 2) ∧ (BitVec.getLsbD (s.thr ↑c
      ↑h).sw 28 = false ∨ (s.thr ↑c ↑h).use rb ≠ 0) ∧ BitVec.getLsbD (s.thr ↑c ↑h).sw 31 = false) ∧
    (∃ (c : Fin 32) (h : Fin 4) (rb : Nat) (s : State), Quiet s ↑c ↑h ∧ Issues s (↑c) (↑h) (.mul 3 3 1 2) ∧ (BitVec.getLsbD (s.thr ↑c
      ↑h).sw 28 = false ∨ (s.thr ↑c ↑h).use rb ≠ 0) ∧ BitVec.getLsbD (s.thr ↑c ↑h).sw 31 = true) ∧
    (∃ (c : Fin 32) (h : Fin 4) (rd : Nat) (ra : Nat) (rb : Nat) (s : State), Quiet s ↑c ↑h ∧ Issues s (↑c) (↑h) (Ins.fp 0 rd ra rb)) ∧
    (∃ (c : Fin 32) (h : Fin 4) (rd : Nat) (ra : Nat) (rb : Nat) (s : State), Quiet s ↑c ↑h ∧ Issues s (↑c) (↑h) (Ins.fp 5 rd ra rb)) ∧
    (∃ (c : Fin 32) (h : Fin 4) (i : Nat) (l : LongOp) (s : State) (v : Word), s.coreUp ↑c = true ∧ (s.thr ↑c ↑h).longs[i]? = some l ∧
      l.kind = LongKind.value v) ∧
    (∃ (c : Fin 32) (h : Fin 4) (i : Nat) (l : LongOp) (s : State), s.coreUp ↑c = true ∧ (s.thr ↑c ↑h).longs[i]? = some l ∧ l.kind =
      LongKind.divZero) :=
  ⟨⟨31, 3, 0, 1, 2, sepia (thread [0x08048000] [(1, 0xFFFFFFFF), (2, 2)]), by unfold Quiet Issues; decide +kernel⟩,
   ⟨31, 3, 2, sepia (thread [0x08C48003] [(1, 7)]), by unfold Quiet Issues; decide +kernel⟩,
   ⟨31, 3, 2, sepia { thread [0x08C48003] [(1, 7), (2, 2)] with sw := 0x81000000 }, by unfold Quiet Issues; decide +kernel⟩,
   ⟨31, 3, 3, 1, 2, sepia (thread [0x04C48000] [(1, 0x3F800000), (2, 0x3F800000)]), by unfold Quiet Issues; decide +kernel⟩,
   ⟨31, 3, 0, 1, 2, sepia (thread [0x04048005] [(1, 0x3F800000), (2, 0x7FC00000)]), by unfold Quiet Issues; decide +kernel⟩,
   ⟨31, 3, 0, ⟨3, 0x40, 0, .value 7⟩, sepia { thread [] [] with longs := [⟨3, 0x40, 0, .value 7⟩] }, 7, by decide +kernel⟩,
   ⟨31, 3, 0, ⟨3, 0x40, 0, .divZero⟩, sepia { thread [] [] with longs := [⟨3, 0x40, 0, .divZero⟩] }, by decide +kernel⟩⟩

theorem witness_SepiaMemory :
    (∃ (c : Fin 32) (h : Fin 4) (rd : Nat) (ra : Nat) (k : Nat) (s : State) (key : Nat), Quiet s ↑c ↑h ∧ Issues s (↑c) (↑h) (Ins.imm
      16 rd ra k) ∧ (s.thr ↑c ↑h).windowFor ra (BitVec.toNat ((s.thr ↑c ↑h).addrOf ra k)) 4 = true ∧ (s.thr ↑c ↑h).sb = [] ∧ dmemKey
      (↑c) (BitVec.toNat ((s.thr ↑c ↑h).addrOf ra k)) = some key ∧ rightsOk (↑c) (s.thr ↑c ↑h).sw (BitVec.toNat ((s.thr ↑c ↑h).addrOf ra
      k)) 4 = true) ∧
    (∃ (c : Fin 32) (h : Fin 4) (rd : Nat) (ra : Nat) (k : Nat) (s : State), Quiet s ↑c ↑h ∧ Issues s (↑c) (↑h) (Ins.imm 17 rd ra k) ∧
      (s.thr ↑c ↑h).windowFor ra (BitVec.toNat ((s.thr ↑c ↑h).addrOf ra k)) 2 = true ∧ (s.thr ↑c ↑h).sb = [] ∧ inDram (BitVec.toNat
      ((s.thr ↑c ↑h).addrOf ra k)) = true ∧ BitVec.getLsbD (s.thr ↑c ↑h).sw 31 = false) ∧
    (∃ (c : Fin 32) (h : Fin 4) (rd : Nat) (ra : Nat) (k : Nat) (s : State), Quiet s ↑c ↑h ∧ Issues s (↑c) (↑h) (Ins.imm 20 rd ra k) ∧
      (s.thr ↑c ↑h).windowFor ra (BitVec.toNat ((s.thr ↑c ↑h).addrOf ra k)) 1 = true ∧ (s.thr ↑c ↑h).sb = [] ∧ inDram (BitVec.toNat
      ((s.thr ↑c ↑h).addrOf ra k)) = false ∧ rightsOk (↑c) (s.thr ↑c ↑h).sw (BitVec.toNat ((s.thr ↑c ↑h).addrOf ra k)) 1 = false) ∧
    (∃ (c : Fin 32) (h : Fin 4) (rd : Nat) (ra : Nat) (k : Nat) (s : State), Quiet s ↑c ↑h ∧ Issues s (↑c) (↑h) (Ins.imm 25 rd ra k) ∧
      (s.thr ↑c ↑h).windowFor ra (BitVec.toNat ((s.thr ↑c ↑h).addrOf ra k)) 2 = true ∧ rightsOk (↑c) (s.thr ↑c ↑h).sw (BitVec.toNat
      ((s.thr ↑c ↑h).addrOf ra k)) 2 = true ∧ s.dramAnswers (BitVec.toNat ((s.thr ↑c ↑h).addrOf ra k)) 2 = true ∧ (s.thr ↑c
      ↑h).sb.length ≤ 1) ∧
    (∃ (c : Fin 32) (h : Fin 4) (rd : Nat) (ra : Nat) (k : Nat) (s : State) (key : Nat), Quiet s ↑c ↑h ∧ imemKey (↑c) (BitVec.toNat
      ((s.thr ↑c ↑h).addrOf ra k)) = some key ∧ BitVec.toNat ((s.thr ↑c ↑h).addrOf ra k) % 4 = 0 ∧ Issues s (↑c) (↑h) (Ins.imm 28 rd ra
      k)) ∧
    (∃ (c : Fin 32) (h : Fin 4) (rd : Nat) (ra : Nat) (k : Nat) (s : State) (key : Nat), Quiet s ↑c ↑h ∧ imemKey (↑c) (BitVec.toNat
      ((s.thr ↑c ↑h).addrOf ra k)) = some key ∧ BitVec.toNat ((s.thr ↑c ↑h).addrOf ra k) % 4 = 0 ∧ Issues s (↑c) (↑h) (Ins.imm 29 rd ra
      k) ∧ BitVec.toNat ((s.thr ↑c ↑h).addrOf ra k) < 1048576 ∧ swPriv (s.thr ↑c ↑h).sw ≠ 0) ∧
    (∃ (c : Fin 32) (h : Fin 4) (e : SbEntry) (r : List SbEntry) (key : Nat) (s : State), s.coreUp ↑c = true ∧ (s.thr ↑c ↑h).sb = e ::
      r ∧ e.size ≠ 0 ∧ e.addr % e.size = 0 ∧ dmemKey (↑c) e.addr = some key) ∧
    (∃ (c : Fin 32) (h : Fin 4) (rd : Nat) (ra : Nat) (k : Nat) (s : State), Quiet s ↑c ↑h ∧ Issues s (↑c) (↑h) (Ins.imm 30 rd ra k) ∧
      swPriv (s.thr ↑c ↑h).sw = 0) ∧
    (∃ (c : Fin 32) (h : Fin 4) (rd : Nat) (ra : Nat) (k : Nat) (s : State), Quiet s ↑c ↑h ∧ Issues s (↑c) (↑h) (Ins.imm 30 rd ra k) ∧
      swPriv (s.thr ↑c ↑h).sw ≠ 0 ∧ (s.thr ↑c ↑h).sb = [] ∧ BitVec.toNat ((s.thr ↑c ↑h).addrOf ra k) % 4 = 0 ∧ 67108864 ≤ BitVec.toNat
      ((s.thr ↑c ↑h).addrOf ra k) ∧ BitVec.toNat ((s.thr ↑c ↑h).addrOf ra k) < 67108992) ∧
    (∃ (c : Fin 32) (h : Fin 4) (rd : Nat) (ra : Nat) (k : Nat) (s : State), Quiet s ↑c ↑h ∧ Issues s (↑c) (↑h) (Ins.imm 30 rd ra k) ∧
      swPriv (s.thr ↑c ↑h).sw ≠ 0 ∧ (s.thr ↑c ↑h).sb = [] ∧ BitVec.toNat ((s.thr ↑c ↑h).addrOf ra k) % 4 = 0 ∧ BitVec.toNat ((s.thr ↑c
      ↑h).addrOf ra k) < 67108864 ∧ (busRead (s.issued ↑c ↑h) (BitVec.toNat ((s.thr ↑c ↑h).addrOf ra k))).snd.fst = false ∧ ((busRead
      (s.issued ↑c ↑h) (BitVec.toNat ((s.thr ↑c ↑h).addrOf ra k))).snd.snd.thr ↑c ↑h).state = ThrState.running) ∧
    (∃ (c : Fin 32) (h : Fin 4) (rd : Nat) (ra : Nat) (k : Nat) (s : State), Quiet s ↑c ↑h ∧ Issues s (↑c) (↑h) (Ins.imm 31 rd ra k) ∧
      swPriv (s.thr ↑c ↑h).sw = 0) ∧
    (∃ (c : Fin 32) (h : Fin 4) (rd : Nat) (ra : Nat) (k : Nat) (s : State), Quiet s ↑c ↑h ∧ Issues s (↑c) (↑h) (Ins.imm 31 rd ra k) ∧
      swPriv (s.thr ↑c ↑h).sw ≠ 0 ∧ (s.thr ↑c ↑h).sb = [] ∧ BitVec.toNat ((s.thr ↑c ↑h).addrOf ra k) % 4 = 0 ∧ 67108864 ≤ BitVec.toNat
      ((s.thr ↑c ↑h).addrOf ra k) ∧ BitVec.toNat ((s.thr ↑c ↑h).addrOf ra k) < 67108992) ∧
    (∃ (c : Fin 32) (h : Fin 4) (rd : Nat) (ra : Nat) (k : Nat) (s : State), Quiet s ↑c ↑h ∧ Issues s (↑c) (↑h) (Ins.imm 31 rd ra k) ∧
      swPriv (s.thr ↑c ↑h).sw ≠ 0 ∧ (s.thr ↑c ↑h).sb = [] ∧ BitVec.toNat ((s.thr ↑c ↑h).addrOf ra k) % 4 = 0 ∧ BitVec.toNat ((s.thr ↑c
      ↑h).addrOf ra k) < 67108864 ∧ (busWrite (s.issued ↑c ↑h) (BitVec.toNat ((s.thr ↑c ↑h).addrOf ra k)) ((s.thr ↑c ↑h).use rd)).fst =
      false) :=
  ⟨⟨31, 3, 1, 2, 4, sepia (thread [0x40480004] [(2, 0x100)]), 0x2F00104, by unfold Quiet Issues; decide +kernel⟩,
   ⟨31, 3, 1, 2, 4, sepia { thread [0x44480004] [(2, 0x40000000)] with sw := 0x01000000 }, by unfold Quiet Issues; decide +kernel⟩,
   ⟨31, 3, 1, 2, 4, sepia (thread [0x50480004] [(2, 0x500000)]), by unfold Quiet Issues; decide +kernel⟩,
   ⟨31, 3, 1, 2, 0, sepia (thread [0x64480000] [(2, 0xFFFFC)]), by unfold Quiet Issues; decide +kernel⟩,
   ⟨31, 3, 1, 2, 4, sepia (thread [0x70480004] [(2, 0x100)]), 0xF80104, by unfold Quiet Issues; decide +kernel⟩,
   ⟨31, 3, 1, 2, 4, sepia (thread [0x74480004] [(2, 0x100)]), 0xF80104, by unfold Quiet Issues; decide +kernel⟩,
   ⟨31, 3, ⟨0x100, 4, 7⟩, [], 0x2F00100, sepia { thread [] [] with sb := [⟨0x100, 4, 7⟩] }, by decide +kernel⟩,
   ⟨31, 3, 1, 2, 4, sepia { thread [0x78480004] [(2, 0x100)] with sw := 0 }, by unfold Quiet Issues; decide +kernel⟩,
   ⟨31, 3, 1, 2, 4, sepia (thread [0x78480004] [(2, 67108984)]), by unfold Quiet Issues; decide +kernel⟩,
   ⟨31, 3, 1, 2, 0, sepia (thread [0x78480000] [(2, 0x400000)]), by unfold Quiet Issues; decide +kernel⟩,
   ⟨31, 3, 1, 2, 4, sepia { thread [0x7C480004] [(2, 0x100)] with sw := 0 }, by unfold Quiet Issues; decide +kernel⟩,
   ⟨31, 3, 1, 2, 4, sepia (thread [0x7C480004] [(2, 67108984)]), by unfold Quiet Issues; decide +kernel⟩,
   ⟨31, 3, 1, 2, 0, sepia (thread [0x7C480000] [(2, 0x400000)]), by unfold Quiet Issues; decide +kernel⟩⟩

theorem witness_SepiaFlow :
    (∃ (c : Fin 32) (h : Fin 4) (s : State) (d : Nat), Quiet s ↑c ↑h ∧ Issues s (↑c) (↑h) (Ins.br 0 d)) ∧
    (∃ (c : Fin 32) (h : Fin 4) (s : State) (d : Nat), Quiet s ↑c ↑h ∧ Issues s (↑c) (↑h) (Ins.jmp d)) ∧
    (∃ (c : Fin 32) (h : Fin 4) (s : State) (ra : Nat), Quiet s ↑c ↑h ∧ Issues s (↑c) (↑h) (Ins.jr ra)) ∧
    (∃ (c : Fin 32) (h : Fin 4) (s : State) (d : Nat), Quiet s ↑c ↑h ∧ (s.thr ↑c ↑h).sb.length ≤ 1 ∧ (s.thr ↑c ↑h).window
      (BitVec.toNat ((s.thr ↑c ↑h).use 15 - 4)) 4 = true ∧ rightsOk (↑c) (s.thr ↑c ↑h).sw (BitVec.toNat ((s.thr ↑c ↑h).use 15 - 4)) 4 =
      true ∧ s.dramAnswers (BitVec.toNat ((s.thr ↑c ↑h).use 15 - 4)) 4 = true ∧ Issues s (↑c) (↑h) (Ins.call d)) ∧
    (∃ (c : Fin 32) (h : Fin 4) (s : State) (ra : Nat), Quiet s ↑c ↑h ∧ (s.thr ↑c ↑h).sb.length ≤ 1 ∧ (s.thr ↑c ↑h).window
      (BitVec.toNat ((s.thr ↑c ↑h).use 15 - 4)) 4 = true ∧ rightsOk (↑c) (s.thr ↑c ↑h).sw (BitVec.toNat ((s.thr ↑c ↑h).use 15 - 4)) 4 =
      true ∧ s.dramAnswers (BitVec.toNat ((s.thr ↑c ↑h).use 15 - 4)) 4 = true ∧ Issues s (↑c) (↑h) (Ins.callr ra)) ∧
    (∃ (c : Fin 32) (h : Fin 4) (s : State) (key : Nat), Quiet s ↑c ↑h ∧ Issues s (↑c) (↑h) Ins.ret ∧ (s.thr ↑c ↑h).sb = [] ∧ (s.thr
      ↑c ↑h).window (BitVec.toNat ((s.thr ↑c ↑h).use 15)) 4 = true ∧ rightsOk (↑c) (s.thr ↑c ↑h).sw (BitVec.toNat ((s.thr ↑c ↑h).use
      15)) 4 = true ∧ dmemKey (↑c) (BitVec.toNat ((s.thr ↑c ↑h).use 15)) = some key) ∧
    (∃ (c : Fin 32) (h : Fin 4) (s : State) (ra : Nat) (mask : Nat), Quiet s ↑c ↑h ∧ Issues s (↑c) (↑h) (Ins.callm ra mask) ∧ (s.thr
      ↑c ↑h).window (BitVec.toNat ((s.thr ↑c ↑h).use 15 - BitVec.ofNat 32 (4 * ((maskRegs mask).length + 1)))) (4 * ((maskRegs
      mask).length + 1)) = true ∧ rightsOk (↑c) (s.thr ↑c ↑h).sw (BitVec.toNat ((s.thr ↑c ↑h).use 15 - BitVec.ofNat 32 (4 * ((maskRegs
      mask).length + 1)))) (4 * ((maskRegs mask).length + 1)) = true ∧ (s.issued ↑c ↑h).dramAnswers (BitVec.toNat ((s.thr ↑c ↑h).use 15
      - BitVec.ofNat 32 (4 * ((maskRegs mask).length + 1)))) (4 * ((maskRegs mask).length + 1)) = true) ∧
    (∃ (c : Fin 32) (h : Fin 4) (s : State) (mask : Nat) (key : Nat), Quiet s ↑c ↑h ∧ Issues s (↑c) (↑h) (Ins.retm mask) ∧ (s.thr ↑c
      ↑h).sb = [] ∧ (s.thr ↑c ↑h).window (BitVec.toNat ((s.thr ↑c ↑h).use 15)) (4 * ((maskRegs mask).length + 1)) = true ∧ rightsOk (↑c)
      (s.thr ↑c ↑h).sw (BitVec.toNat ((s.thr ↑c ↑h).use 15)) (4 * ((maskRegs mask).length + 1)) = true ∧ dmemKey (↑c) (BitVec.toNat
      ((s.thr ↑c ↑h).use 15)) = some key) ∧
    (∃ (c : Fin 32) (h : Fin 4) (s : State), Quiet s ↑c ↑h ∧ Issues s (↑c) (↑h) Ins.iflush) :=
  ⟨⟨31, 3, sepia (thread [0x80000000] []), 0, by unfold Quiet Issues; decide +kernel⟩,
   ⟨31, 3, sepia (thread [0x84000005] []), 5, by unfold Quiet Issues; decide +kernel⟩,
   ⟨31, 3, sepia (thread [0x880C0000] [(3, 0x40)]), 3, by unfold Quiet Issues; decide +kernel⟩,
   ⟨31, 3, sepia (thread [0x90000005] [(15, 0x100)]), 5, by unfold Quiet Issues; decide +kernel⟩,
   ⟨31, 3, sepia (thread [0x940C0000] [(15, 0x100)]), 3, by unfold Quiet Issues; decide +kernel⟩,
   ⟨31, 3, sepia (thread [0x98000000] [(15, 0x100)]), 0x2F00100, by unfold Quiet Issues; decide +kernel⟩,
   ⟨31, 3, sepia (thread [0xA0C00006] [(15, 0x100)]), 3, 6, by unfold Quiet Issues; decide +kernel⟩,
   ⟨31, 3, sepia (thread [0xA4000006] [(15, 0x100)]), 6, 0x2F00100, by unfold Quiet Issues; decide +kernel⟩,
   ⟨31, 3, sepia (thread [0xE0000000] []), by unfold Quiet Issues; decide +kernel⟩⟩

theorem witness_SepiaExceptions :
    (∃ (c : Fin 32) (h : Fin 4) (s : State), Quiet s ↑c ↑h ∧ Issues s (↑c) (↑h) Ins.trap ∧ swPriv (s.thr ↑c ↑h).sw ≠ 3 ∧ entryCheck
      (s.issued ↑c ↑h) (↑c) (↑h) 10 = (s.issued ↑c ↑h, 0) ∧ (s.thr ↑c ↑h).sb = []) ∧
    (∃ (c : Fin 32) (h : Nat) (s : State), s.fld (SEP_CCFG_ITHR ↑c) = h ∧ Quiet s (↑c) h ∧ s.coreUp ↑c = true ∧ (s.thr (↑c) h).state =
      ThrState.running ∧ (s.thr (↑c) h).wait = none ∧ s.dctlBit (↑c) h = false ∧ (s.thr (↑c) h).due = [] ∧ s.irqDue (↑c) h = true ∧
      entryCheck s (↑c) h 16 = (s, 0)) ∧
    (∃ (c : Nat) (h : Nat) (s : State), s.sep.bad = [] ∧ (s.thr c h).window (BitVec.toNat ((s.thr c h).reg 15 - 8)) 8 = false) ∧
    (∃ (c : Nat) (h : Nat) (s : State), s.sep.bad = [] ∧ (s.thr c h).window (BitVec.toNat ((s.thr c h).reg 15 - 8)) 8 = true ∧
      rightsOk c (s.thr c h).sw (BitVec.toNat ((s.thr c h).reg 15 - 8)) 8 = false) ∧
    (∃ (c : Nat) (h : Nat) (s : State), s.sep.bad = [] ∧ (s.thr c h).window (BitVec.toNat ((s.thr c h).reg 15 - 8)) 8 = true ∧
      rightsOk c (s.thr c h).sw (BitVec.toNat ((s.thr c h).reg 15 - 8)) 8 = true ∧ s.dramAnswers (BitVec.toNat ((s.thr c h).reg 15 - 8))
      8 = true ∧ BitVec.toNat ((s.thr c h).reg 15 - 8) % 4 ≠ 0) ∧
    (∃ (c : Nat) (h : Nat) (s : State), s.sep.bad = [] ∧ (s.thr c h).window (BitVec.toNat ((s.thr c h).reg 15 - 8)) 8 = true ∧
      rightsOk c (s.thr c h).sw (BitVec.toNat ((s.thr c h).reg 15 - 8)) 8 = true ∧ s.dramAnswers (BitVec.toNat ((s.thr c h).reg 15 - 8))
      8 = true ∧ BitVec.toNat ((s.thr c h).reg 15 - 8) % 4 = 0 ∧ 4 ≤ (s.thr c h).shadow.length) ∧
    (∃ (c : Nat) (h : Nat) (vec : Nat) (s : State), s.sep.bad = [] ∧ (s.thr c h).window (BitVec.toNat ((s.thr c h).reg 15 - 8)) 8 =
      true ∧ rightsOk c (s.thr c h).sw (BitVec.toNat ((s.thr c h).reg 15 - 8)) 8 = true ∧ s.dramAnswers (BitVec.toNat ((s.thr c h).reg
      15 - 8)) 8 = true ∧ BitVec.toNat ((s.thr c h).reg 15 - 8) % 4 = 0 ∧ (s.thr c h).shadow.length < 4 ∧ (BitVec.toNat (s.thr c h).vbr
      % 256 ≠ 0 ∨ imemKey c (BitVec.toNat (handlerOf (s.thr c h) vec)) = none)) ∧
    (∃ (c : Nat) (h : Nat) (vec : Nat) (s : State), s.sep.bad = [] ∧ (s.thr c h).window (BitVec.toNat ((s.thr c h).reg 15 - 8)) 8 =
      true ∧ rightsOk c (s.thr c h).sw (BitVec.toNat ((s.thr c h).reg 15 - 8)) 8 = true ∧ s.dramAnswers (BitVec.toNat ((s.thr c h).reg
      15 - 8)) 8 = true ∧ BitVec.toNat ((s.thr c h).reg 15 - 8) % 4 = 0 ∧ (s.thr c h).shadow.length < 4 ∧ BitVec.toNat (s.thr c h).vbr %
      256 = 0 ∧ (imemKey c (BitVec.toNat (handlerOf (s.thr c h) vec))).isSome = true) ∧
    (∃ (c : Fin 32) (h : Fin 4) (s : State), Quiet s ↑c ↑h ∧ Issues s (↑c) (↑h) Ins.trap ∧ swPriv (s.thr ↑c ↑h).sw = 3) ∧
    (∃ (c : Fin 32) (h : Fin 4) (s : State), Quiet s ↑c ↑h ∧ Issues s (↑c) (↑h) Ins.trap ∧ swPriv (s.thr ↑c ↑h).sw = 3 ∧ (s.thr ↑c
      ↑h).sb.length ≤ 2) ∧
    (∃ (c : Fin 32) (h : Fin 4) (s : State), Quiet s ↑c ↑h ∧ Issues s (↑c) (↑h) Ins.retx ∧ swPriv (s.thr ↑c ↑h).sw = 0) ∧
    (∃ (c : Fin 32) (h : Fin 4) (s : State), Quiet s ↑c ↑h ∧ Issues s (↑c) (↑h) Ins.retx ∧ swPriv (s.thr ↑c ↑h).sw = 3 ∧
      BitVec.getLsbD (s.thr ↑c ↑h).esw 31 = true ∧ (s.thr ↑c ↑h).longs ≠ []) ∧
    (∃ (c : Fin 32) (h : Fin 4) (s : State), Quiet s ↑c ↑h ∧ Issues s (↑c) (↑h) Ins.retx ∧ swPriv (s.thr ↑c ↑h).sw = 3 ∧
      (BitVec.getLsbD (s.thr ↑c ↑h).esw 31 = false ∨ (s.thr ↑c ↑h).longs = [])) ∧
    (∃ (c : Fin 32) (h : Fin 4) (s : State) (key : Nat) (p : Nat) (rest : List Nat), Quiet s ↑c ↑h ∧ Issues s (↑c) (↑h) Ins.retx ∧
      swPriv (s.thr ↑c ↑h).sw ≠ 0 ∧ swPriv (s.thr ↑c ↑h).sw ≠ 3 ∧ (s.thr ↑c ↑h).sb = [] ∧ (s.thr ↑c ↑h).window (BitVec.toNat ((s.thr ↑c
      ↑h).use 15)) 8 = true ∧ rightsOk (↑c) (s.thr ↑c ↑h).sw (BitVec.toNat ((s.thr ↑c ↑h).use 15)) 8 = true ∧ dmemKey (↑c) (BitVec.toNat
      ((s.thr ↑c ↑h).use 15)) = some key ∧ (s.thr ↑c ↑h).shadow = p :: rest ∧ swPriv (BitVec.ofNat 32 (memWord s.sep.mem (key + 4))) = p
      ∧ ((BitVec.ofNat 32 (memWord s.sep.mem (key + 4))).getLsbD 31 = false ∨ (s.thr ↑c ↑h).longs = [])) ∧
    (∃ (c : Fin 32) (h : Fin 4) (s : State) (key : Nat), Quiet s ↑c ↑h ∧ Issues s (↑c) (↑h) Ins.retx ∧ swPriv (s.thr ↑c ↑h).sw ≠ 0 ∧
      swPriv (s.thr ↑c ↑h).sw ≠ 3 ∧ (s.thr ↑c ↑h).sb = [] ∧ (s.thr ↑c ↑h).window (BitVec.toNat ((s.thr ↑c ↑h).use 15)) 8 = true ∧
      rightsOk (↑c) (s.thr ↑c ↑h).sw (BitVec.toNat ((s.thr ↑c ↑h).use 15)) 8 = true ∧ dmemKey (↑c) (BitVec.toNat ((s.thr ↑c ↑h).use 15))
      = some key ∧ (∀ (p : Nat), p ∈ (s.thr ↑c ↑h).shadow.head? → swPriv (BitVec.ofNat 32 (memWord s.sep.mem (key + 4))) ≠ p)) :=
  ⟨⟨31, 3, sepia (thread [0xC8000000] [(15, 0x200)]), by unfold Quiet Issues; decide +kernel⟩,
   ⟨31, 3, irqs, by unfold Quiet; decide +kernel⟩,
   ⟨31, 3, sepia (thread [] [(15, 0x40)]) |> fun s => s.setThr 31 3 { s.thr 31 3 with splo := 0x100, sphi := 0x200 },
     by decide +kernel⟩,
   ⟨31, 3, sepia (thread [] [(15, 0x500008)]), by decide +kernel⟩,
   ⟨31, 3, sepia (thread [] [(15, 0x10A)]), by decide +kernel⟩,
   ⟨31, 3, sepia { thread [] [(15, 0x108)] with shadow := [1, 1, 1, 1] }, by decide +kernel⟩,
   ⟨31, 3, 16, sepia { thread [] [(15, 0x108)] with vbr := 4 }, by decide +kernel⟩,
   ⟨31, 3, 16, sepia { thread [] [(15, 0x108)] with shadow := [1, 1, 1] }, by decide +kernel⟩,
   ⟨31, 3, sepia { thread [0xC8000000] [] with sw := 0x03000000 }, by unfold Quiet Issues; decide +kernel⟩,
   ⟨31, 3, sepia { thread [0xC8000000] [] with sw := 0x03000000, sb := [⟨0, 4, 1⟩, ⟨4, 4, 1⟩] },
     by unfold Quiet Issues; decide +kernel⟩,
   ⟨31, 3, sepia { thread [0xCC000000] [] with sw := 0 }, by unfold Quiet Issues; decide +kernel⟩,
   ⟨31, 3, sepia { thread [0xCC000000] [] with sw := 0x03000000, esw := 0x80000000, longs := [⟨1, 0, 0, .divZero⟩] },
     by unfold Quiet Issues; decide +kernel⟩,
   ⟨31, 3, sepia { thread [0xCC000000] [] with sw := 0x03000000 }, by unfold Quiet Issues; decide +kernel⟩,
   ⟨31, 3, sepia { thread [0xCC000000] [(15, 0x100)] with shadow := [0] }, 0x2F00100, 0, [], by unfold Quiet Issues; decide +kernel⟩,
   ⟨31, 3, sepia { thread [0xCC000000] [(15, 0x100)] with shadow := [1] }, 0x2F00100, by unfold Quiet Issues; decide +kernel⟩⟩

theorem witness_SepiaSystem :
    (∃ (c : Fin 32) (h : Fin 4) (s : State) (rd : Nat), Quiet s ↑c ↑h ∧ Issues s (↑c) (↑h) (Ins.mfs rd 9) ∧ (swPriv (s.thr ↑c ↑h).sw ≠
      0 ∨ 9 ∈ [0, 6, 7, 8, 10])) ∧
    (∃ (c : Fin 32) (h : Fin 4) (s : State) (rd : Nat), Quiet s ↑c ↑h ∧ Issues s (↑c) (↑h) (Ins.mfs rd 9) ∧ swPriv (s.thr ↑c ↑h).sw =
      0 ∧ ¬9 ∈ [0, 6, 7, 8, 10]) ∧
    (∃ (c : Fin 32) (h : Fin 4) (s : State) (k : Nat) (ra : Nat), Quiet s ↑c ↑h ∧ Issues s (↑c) (↑h) (Ins.mts k ra) ∧ (swPriv (s.thr
      ↑c ↑h).sw = 1 ∧ (k = 0 → swPriv ((s.thr ↑c ↑h).use ra) < 2) ∨ swPriv (s.thr ↑c ↑h).sw = 3 ∨ swPriv (s.thr ↑c ↑h).sw = 0 ∧ (k = 6 ∨
      k = 7)) ∧ (k ≠ 0 ∨ BitVec.getLsbD ((s.thr ↑c ↑h).use ra) 31 = false ∨ (s.thr ↑c ↑h).longs = [])) ∧
    (∃ (c : Fin 32) (h : Fin 4) (s : State) (k : Nat) (ra : Nat), Quiet s ↑c ↑h ∧ Issues s (↑c) (↑h) (Ins.mts k ra) ∧ k = 0 ∧ (swPriv
      (s.thr ↑c ↑h).sw = 1 ∧ swPriv ((s.thr ↑c ↑h).use ra) < 2 ∨ swPriv (s.thr ↑c ↑h).sw = 3) ∧ BitVec.getLsbD ((s.thr ↑c ↑h).use ra) 31
      = true ∧ (s.thr ↑c ↑h).longs ≠ []) ∧
    (∃ (c : Fin 32) (h : Fin 4) (s : State) (k : Nat) (ra : Nat), Quiet s ↑c ↑h ∧ Issues s (↑c) (↑h) (Ins.mts k ra) ∧ swPriv (s.thr ↑c
      ↑h).sw = 1 ∧ k = 0 ∧ 2 ≤ swPriv ((s.thr ↑c ↑h).use ra)) ∧
    (∃ (c : Fin 32) (h : Fin 4) (s : State) (k : Nat) (ra : Nat), Quiet s ↑c ↑h ∧ Issues s (↑c) (↑h) (Ins.mts k ra) ∧ swPriv (s.thr ↑c
      ↑h).sw = 0 ∧ k ≠ 6 ∧ k ≠ 7) ∧
    (∃ (c : Fin 32) (h : Fin 4) (s : State) (rd : Nat) (mask : Nat), Quiet s ↑c ↑h ∧ Issues s (↑c) (↑h) (Ins.wfe rd mask) ∧ s.evt ↑c
      ↑h &&& mask ≠ 0) ∧
    (∃ (c : Fin 32) (h : Fin 4) (s : State) (rd : Nat) (mask : Nat), Quiet s ↑c ↑h ∧ Issues s (↑c) (↑h) (Ins.wfe rd mask) ∧ s.evt ↑c
      ↑h &&& mask = 0) ∧
    (∃ (c : Fin 32) (h : Fin 4) (s : State) (rd : Nat) (ra : Nat) (n : Nat) (mask : Nat), Quiet s ↑c ↑h ∧ Issues s (↑c) (↑h)
      (Ins.waitt rd ra n mask) ∧ s.up 90 = true ∧ s.reached n ((s.thr ↑c ↑h).use ra) = true) ∧
    (∃ (c : Fin 32) (h : Fin 4) (s : State) (rd : Nat) (ra : Nat) (n : Nat) (mask : Nat), Quiet s ↑c ↑h ∧ Issues s (↑c) (↑h)
      (Ins.waitt rd ra n mask) ∧ s.up 90 = true ∧ s.reached n ((s.thr ↑c ↑h).use ra) = false ∧ s.evt ↑c ↑h &&& mask ≠ 0) ∧
    (∃ (c : Fin 32) (h : Fin 4) (s : State) (rd : Nat) (ra : Nat) (n : Nat) (mask : Nat), Quiet s ↑c ↑h ∧ Issues s (↑c) (↑h)
      (Ins.waitt rd ra n mask) ∧ s.up 90 = true ∧ s.reached n ((s.thr ↑c ↑h).use ra) = false ∧ s.evt ↑c ↑h &&& mask = 0) ∧
    (∃ (c : Fin 32) (h : Fin 4) (s : State) (rd : Nat) (mask : Nat), Quiet s ↑c ↑h ∧ s.coreUp ↑c = true ∧ (s.thr ↑c ↑h).state =
      ThrState.running ∧ s.irqDue ↑c ↑h = false ∧ (s.thr ↑c ↑h).wait = some (Waiting.wfe rd mask) ∧ s.evt ↑c ↑h &&& mask ≠ 0) ∧
    (∃ (c : Fin 32) (h : Fin 4) (s : State) (rd : Nat) (target : Word) (n : Nat) (mask : Nat), Quiet s ↑c ↑h ∧ s.coreUp ↑c = true ∧
      (s.thr ↑c ↑h).state = ThrState.running ∧ s.irqDue ↑c ↑h = false ∧ (s.thr ↑c ↑h).wait = some (Waiting.timer rd target n mask) ∧
      s.up 90 = true ∧ s.reached n target = true) ∧
    (∃ (c : Fin 32) (h : Fin 4) (s : State) (scope : Nat) (core : Nat) (thread : Nat) (b : Nat), Quiet s ↑c ↑h ∧ Issues s (↑c) (↑h)
      (Ins.sev scope core thread b) ∧ (s.thr ↑c ↑h).sb = [] ∧ (swPriv (s.thr ↑c ↑h).sw ≠ 0 ∨ scope < 2)) ∧
    (∃ (c : Fin 32) (h : Fin 4) (s : State) (scope : Nat) (core : Nat) (thread : Nat) (b : Nat), Quiet s ↑c ↑h ∧ Issues s (↑c) (↑h)
      (Ins.sev scope core thread b) ∧ (s.thr ↑c ↑h).sb = [] ∧ swPriv (s.thr ↑c ↑h).sw = 0 ∧ 2 ≤ scope) ∧
    (∃ (c : Fin 32) (h : Fin 4) (s : State), Quiet s ↑c ↑h ∧ Issues s (↑c) (↑h) Ins.barx ∧ (s.thr ↑c ↑h).longs ≠ []) ∧
    (∃ (c : Fin 32) (h : Fin 4) (s : State), Quiet s ↑c ↑h ∧ Issues s (↑c) (↑h) Ins.barx ∧ (s.thr ↑c ↑h).longs = [] ∧ (s.thr ↑c ↑h).sb
      = []) ∧
    (∃ (c : Fin 32) (h : Fin 4) (s : State), Quiet s ↑c ↑h ∧ Issues s (↑c) (↑h) Ins.brk ∧ s.flag (SEP_DCTL_BRKEN ↑c) = true) ∧
    (∃ (c : Fin 32) (h : Fin 4) (s : State), Quiet s ↑c ↑h ∧ Issues s (↑c) (↑h) Ins.brk ∧ s.flag (SEP_DCTL_BRKEN ↑c) = false) :=
  ⟨⟨31, 3, sepia (thread [0xC0400009] []), 1, by unfold Quiet Issues; decide +kernel⟩,
   ⟨31, 3, sepia { thread [0xC0400009] [] with sw := 0 }, 1, by unfold Quiet Issues; decide +kernel⟩,
   ⟨31, 3, sepia (thread [0xC4080009] []), 9, 2, by unfold Quiet Issues; decide +kernel⟩,
   ⟨31, 3, sepia { thread [0xC4080000] [(2, 0x81000000)] with longs := [⟨1, 0, 0, .divZero⟩] }, 0, 2,
     by unfold Quiet Issues; decide +kernel⟩,
   ⟨31, 3, sepia (thread [0xC4080000] [(2, 0x02000000)]), 0, 2, by unfold Quiet Issues; decide +kernel⟩,
   ⟨31, 3, sepia { thread [0xC4080009] [] with sw := 0 }, 9, 2, by unfold Quiet Issues; decide +kernel⟩,
   ⟨31, 3, sepia { thread [0xD0400003] [] with ev := 2 }, 1, 3, by unfold Quiet Issues; decide +kernel⟩,
   ⟨31, 3, sepia (thread [0xD0400003] []), 1, 3, by unfold Quiet Issues; decide +kernel⟩,
   ⟨31, 3, sepia (thread [0xD84BF803] []), 1, 2, 127, 3, by unfold Quiet Issues; decide +kernel⟩,
   ⟨31, 3, sepia { thread [0xD84BF803] [(2, 9)] with ev := 2 }, 1, 2, 127, 3, by unfold Quiet Issues; decide +kernel⟩,
   ⟨31, 3, sepia (thread [0xD84BF803] [(2, 9)]), 1, 2, 127, 3, by unfold Quiet Issues; decide +kernel⟩,
   ⟨31, 3, sepia { thread [] [] with ev := 2, wait := some (.wfe 1 3) }, 1, 3, by unfold Quiet; decide +kernel⟩,
   ⟨31, 3, sepia { thread [] [] with wait := some (.timer 1 0 127 3) }, 1, 0, 127, 3, by unfold Quiet; decide +kernel⟩,
   ⟨31, 3, sepia (thread [0xD5FE0007] []), 1, 31, 3, 7, by unfold Quiet Issues; decide +kernel⟩,
   ⟨31, 3, sepia { thread [0xD6FE0007] [] with sw := 0 }, 2, 31, 3, 7, by unfold Quiet Issues; decide +kernel⟩,
   ⟨31, 3, sepia { thread [0xE4000000] [] with longs := [⟨1, 0, 0, .divZero⟩] }, by unfold Quiet Issues; decide +kernel⟩,
   ⟨31, 3, sepia (thread [0xE4000000] []), by unfold Quiet Issues; decide +kernel⟩,
   ⟨31, 3, put (sepia (thread [0xE8000000] [])) [(SEP_DCTL_BRKEN 31, 1)], by unfold Quiet Issues; decide +kernel⟩,
   ⟨31, 3, sepia (thread [0xE8000000] []), by unfold Quiet Issues; decide +kernel⟩⟩

theorem witness_SepiaStrings :
    (∃ (c : Fin 32) (h : Fin 4) (sz : Nat) (ra : Nat) (rb : Nat) (s : State) (k13 : Nat), Quiet s ↑c ↑h ∧ (s.thr ↑c ↑h).sb = [] ∧ sz ≤
      2 ∧ rightsOk (↑c) (s.thr ↑c ↑h).sw (BitVec.toNat ((s.thr ↑c ↑h).use 13)) (2 ^ sz) = true ∧ dmemKey (↑c) (BitVec.toNat ((s.thr ↑c
      ↑h).use 13)) = some k13 ∧ Issues s (↑c) (↑h) (Ins.str 1 sz ra rb)) ∧
    (∃ (c : Fin 32) (h : Fin 4) (sz : Nat) (ra : Nat) (rb : Nat) (s : State) (k13 : Nat), Quiet s ↑c ↑h ∧ (s.thr ↑c ↑h).sb = [] ∧ sz ≤
      2 ∧ rightsOk (↑c) (s.thr ↑c ↑h).sw (BitVec.toNat ((s.thr ↑c ↑h).use 13)) (2 ^ sz) = true ∧ dmemKey (↑c) (BitVec.toNat ((s.thr ↑c
      ↑h).use 13)) = some k13 ∧ Issues s (↑c) (↑h) (Ins.str 3 sz ra rb)) ∧
    (∃ (c : Fin 32) (h : Fin 4) (sz : Nat) (ra : Nat) (rb : Nat) (s : State) (k13 : Nat) (k12 : Nat), Quiet s ↑c ↑h ∧ (s.thr ↑c ↑h).sb
      = [] ∧ sz ≤ 2 ∧ rightsOk (↑c) (s.thr ↑c ↑h).sw (BitVec.toNat ((s.thr ↑c ↑h).use 13)) (2 ^ sz) = true ∧ dmemKey (↑c) (BitVec.toNat
      ((s.thr ↑c ↑h).use 13)) = some k13 ∧ dmemKey (↑c) (BitVec.toNat ((s.thr ↑c ↑h).use 12)) = some k12 ∧ rightsOk (↑c) (s.thr ↑c
      ↑h).sw (BitVec.toNat ((s.thr ↑c ↑h).use 12)) (2 ^ sz) = true ∧ Issues s (↑c) (↑h) (Ins.str 0 sz ra rb)) ∧
    (∃ (c : Fin 32) (h : Fin 4) (sz : Nat) (ra : Nat) (rb : Nat) (s : State) (k13 : Nat) (k12 : Nat), Quiet s ↑c ↑h ∧ (s.thr ↑c ↑h).sb
      = [] ∧ sz ≤ 2 ∧ rightsOk (↑c) (s.thr ↑c ↑h).sw (BitVec.toNat ((s.thr ↑c ↑h).use 13)) (2 ^ sz) = true ∧ dmemKey (↑c) (BitVec.toNat
      ((s.thr ↑c ↑h).use 13)) = some k13 ∧ dmemKey (↑c) (BitVec.toNat ((s.thr ↑c ↑h).use 12)) = some k12 ∧ rightsOk (↑c) (s.thr ↑c
      ↑h).sw (BitVec.toNat ((s.thr ↑c ↑h).use 12)) (2 ^ sz) = true ∧ Issues s (↑c) (↑h) (Ins.str 2 sz ra rb)) ∧
    (∃ (c : Fin 32) (h : Fin 4) (sz : Nat) (ra : Nat) (rb : Nat) (s : State) (k13 : Nat) (mode : Nat) (kind : Nat) (w0 : Option Word)
      (w : Word) (rest : List (Option Word)), Quiet s ↑c ↑h ∧ (s.thr ↑c ↑h).sb = [] ∧ sz ≤ 2 ∧ rightsOk (↑c) (s.thr ↑c ↑h).sw
      (BitVec.toNat ((s.thr ↑c ↑h).use 13)) (2 ^ sz) = true ∧ dmemKey (↑c) (BitVec.toNat ((s.thr ↑c ↑h).use 13)) = some k13 ∧ Issues s
      (↑c) (↑h) (Ins.repb mode) ∧ (s.thr ↑c ↑h).queue = w0 :: some w :: rest ∧ sepDecode (BitVec.toNat w) = some (Ins.str kind sz ra rb)
      ∧ (s.thr ↑c ↑h).blocked (s.flag (SEP_CCFG_OPEN ↑c)) (Ins.str kind sz ra rb) = false ∧ (s.thr ↑c ↑h).use 11 = 0) ∧
    (∃ (c : Fin 32) (h : Fin 4) (sz : Nat) (ra : Nat) (rb : Nat) (s : State) (k13 : Nat) (mode : Nat) (kind : Nat) (w0 : Option Word)
      (w : Word) (rest : List (Option Word)), Quiet s ↑c ↑h ∧ (s.thr ↑c ↑h).sb = [] ∧ sz ≤ 2 ∧ rightsOk (↑c) (s.thr ↑c ↑h).sw
      (BitVec.toNat ((s.thr ↑c ↑h).use 13)) (2 ^ sz) = true ∧ dmemKey (↑c) (BitVec.toNat ((s.thr ↑c ↑h).use 13)) = some k13 ∧ Issues s
      (↑c) (↑h) (Ins.repb mode) ∧ (s.thr ↑c ↑h).queue = w0 :: some w :: rest ∧ sepDecode (BitVec.toNat w) = some (Ins.str kind sz ra rb)
      ∧ (s.thr ↑c ↑h).blocked (s.flag (SEP_CCFG_OPEN ↑c)) (Ins.str kind sz ra rb) = false ∧ (s.thr ↑c ↑h).use 11 ≠ 0 ∧ kind = 1 ∧ mode =
      0 ∧ (s.thr ↑c ↑h).use 11 ≠ 1 ∧ ra ≠ 11 ∧ (s.thr ↑c ↑h).old = none) ∧
    (∃ (c : Fin 32) (h : Fin 4) (sz : Nat) (ra : Nat) (rb : Nat) (s : State) (k13 : Nat) (mode : Nat) (w0 : Word) (w1 : Word) (rest :
      List (Option Word)), Quiet s ↑c ↑h ∧ (s.thr ↑c ↑h).sb = [] ∧ sz ≤ 2 ∧ rightsOk (↑c) (s.thr ↑c ↑h).sw (BitVec.toNat ((s.thr ↑c
      ↑h).use 13)) (2 ^ sz) = true ∧ dmemKey (↑c) (BitVec.toNat ((s.thr ↑c ↑h).use 13)) = some k13 ∧ (s.thr ↑c ↑h).mid = true ∧ s.ready
      ↑c ↑h = true ∧ s.myTurn ↑c ↑h = true ∧ (s.thr ↑c ↑h).old = none ∧ (s.thr ↑c ↑h).queue = some w0 :: some w1 :: rest ∧ sepDecode
      (BitVec.toNat w0) = some (Ins.repb mode) ∧ sepDecode (BitVec.toNat w1) = some (Ins.str 1 sz ra rb) ∧ (s.thr ↑c ↑h).reg 11 = 1) ∧
    (∃ (c : Fin 32) (h : Fin 4) (sz : Nat) (ra : Nat) (rb : Nat) (s : State) (k13 : Nat) (mode : Nat) (w0 : Word) (w1 : Word) (rest :
      List (Option Word)), Quiet s ↑c ↑h ∧ (s.thr ↑c ↑h).sb = [] ∧ sz ≤ 2 ∧ rightsOk (↑c) (s.thr ↑c ↑h).sw (BitVec.toNat ((s.thr ↑c
      ↑h).use 13)) (2 ^ sz) = true ∧ dmemKey (↑c) (BitVec.toNat ((s.thr ↑c ↑h).use 13)) = some k13 ∧ (s.thr ↑c ↑h).mid = true ∧ s.ready
      ↑c ↑h = true ∧ s.myTurn ↑c ↑h = true ∧ (s.thr ↑c ↑h).old = none ∧ (s.thr ↑c ↑h).queue = some w0 :: some w1 :: rest ∧ sepDecode
      (BitVec.toNat w0) = some (Ins.repb mode) ∧ sepDecode (BitVec.toNat w1) = some (Ins.str 1 sz ra rb) ∧ (s.thr ↑c ↑h).reg 11 ≠ 1 ∧
      mode = 0) :=
  ⟨⟨31, 3, 2, 1, 0, sepia (thread [0xF5840000] [(11, 3), (12, 0x180), (13, 0x100)]), 0x2F00100,
     by unfold Quiet Issues; decide +kernel⟩,
   ⟨31, 3, 0, 1, 2, sepia (thread [0xF7048000] [(11, 3), (12, 0x180), (13, 0x100)]), 0x2F00100,
     by unfold Quiet Issues; decide +kernel⟩,
   ⟨31, 3, 2, 1, 0, sepia (thread [0xF4840000] [(11, 3), (12, 0x180), (13, 0x100)]), 0x2F00100, 0x2F00180,
     by unfold Quiet Issues; decide +kernel⟩,
   ⟨31, 3, 1, 1, 2, sepia (thread [0xF6448000] [(11, 3), (12, 0x180), (13, 0x100)]), 0x2F00100, 0x2F00180,
     by unfold Quiet Issues; decide +kernel⟩,
   ⟨31, 3, 2, 1, 0, sepia (thread [0xF2000000, 0xF5840000] [(12, 0x180), (13, 0x100)]), 0x2F00100, 2, 1, some 0xF2000000, 0xF5840000,
     [], by unfold Quiet Issues; decide +kernel⟩,
   ⟨31, 3, 2, 1, 0, sepia (thread [0xF0000000, 0xF5840000] [(11, 3), (12, 0x180), (13, 0x100)]), 0x2F00100, 0, 1, some 0xF0000000,
     0xF5840000, [], by unfold Quiet Issues; decide +kernel⟩,
   ⟨31, 3, 2, 1, 0, sepia { thread [0xF0000000, 0xF5840000] [(11, 1), (12, 0x180), (13, 0x100)] with mid := true }, 0x2F00100, 0,
     0xF0000000, 0xF5840000, [], by unfold Quiet; decide +kernel⟩,
   ⟨31, 3, 2, 1, 0, sepia { thread [0xF0000000, 0xF5840000] [(11, 3), (12, 0x180), (13, 0x100)] with mid := true }, 0x2F00100, 0,
     0xF0000000, 0xF5840000, [], by unfold Quiet; decide +kernel⟩⟩

theorem witness_SepiaDebug :
    (∃ (who : Requester) (c : Fin 32) (s : State), Served s who (SEP_DCTL ↑c)) ∧
    (∃ (c : Fin 32) (h : Fin 4) (s : State), s.coreUp ↑c = true ∧ s.dctlBit ↑c ↑h = true ∧ (s.thr ↑c ↑h).state = ThrState.running) ∧
    (∃ (who : Requester) (c : Fin 32) (s : State), Served s who (SEP_DDATA ↑c) ∧ (s.thr (↑c) (s.fld (SEP_DSEL_THREAD ↑c))).state ≠
      ThrState.halted) ∧
    (∃ (who : Requester) (c : Fin 32) (s : State), Served s who (SEP_DDATA ↑c) ∧ (s.thr (↑c) (s.fld (SEP_DSEL_THREAD ↑c))).state =
      ThrState.halted ∧ ServedRead s who (SEP_DDATA ↑c)) ∧
    (∃ (who : Requester) (c : Fin 32) (s : State), Served s who (SEP_DDATA ↑c) ∧ (s.thr (↑c) (s.fld (SEP_DSEL_THREAD ↑c))).state =
      ThrState.halted ∧ 0 < s.fld (SEP_DSEL_INDEX ↑c) ∧ s.fld (SEP_DSEL_INDEX ↑c) < 16 ∧ (s.thr (↑c) (s.fld (SEP_DSEL_THREAD ↑c))).old =
      none) ∧
    (∃ (who : Requester) (c : Fin 32) (key : Nat) (s : State), s.memaKey ↑c = some key ∧ s.sep.bad = [] ∧ Served s who (SEP_MEMD ↑c)) ∧
    (∃ (who : Requester) (c : Fin 32) (key : Nat) (s : State), s.memaKey ↑c = some key ∧ s.sep.bad = [] ∧ ServedRead s who (SEP_MEMD
      ↑c)) :=
  ⟨⟨.host, 31, up, by unfold Served; decide +kernel⟩,
   ⟨31, 3, put (sepia (thread [] [])) [(SEP_DCTL_HALT 31, 8)], by decide +kernel⟩,
   ⟨.host, 31, put (sepia (thread [] [])) [(SEP_DSEL_THREAD 31, 3)], by unfold Served; decide +kernel⟩,
   ⟨.host, 31, put (sepia { thread [] [] with state := .halted }) [(SEP_DSEL_THREAD 31, 3), (SEP_DSEL_INDEX 31, 15)],
     by unfold ServedRead Served; decide +kernel⟩,
   ⟨.host, 31, put (sepia { thread [] [] with state := .halted }) [(SEP_DSEL_THREAD 31, 3), (SEP_DSEL_INDEX 31, 15)],
     by unfold Served; decide +kernel⟩,
   ⟨.host, 31, 0x2FFFFFC, put up [(SEP_MEMA_SPACE 31, 1), (SEP_MEMA_ADDR 31, 0x3FFFF)], by unfold Served; decide +kernel⟩,
   ⟨.host, 31, 0x2FFFFFC, put up [(SEP_MEMA_SPACE 31, 1), (SEP_MEMA_ADDR 31, 0x3FFFF)], by unfold ServedRead Served; decide +kernel⟩⟩

theorem witness_ThreadRestarts :
    (∃ (who : Requester) (c : Fin 32) (h : Fin 4) (s : State), Served s who (SEP_TCTL ↑c ↑h) ∧ (s.thr ↑c ↑h).state = ThrState.running) ∧
    (∃ (who : Requester) (c : Fin 32) (h : Fin 4) (s : State), Served s who (SEP_TCTL ↑c ↑h) ∧ (s.thr ↑c ↑h).state ≠ ThrState.running
      ∧ s.sep.bad = []) :=
  ⟨⟨.host, 31, 3, sepia (thread [] []), by unfold Served; decide +kernel⟩,
   ⟨.host, 31, 3, up, by unfold Served; decide +kernel⟩⟩

theorem witness_InterruptService :
    (∃ (c : Fin 32) (id : Fin 160) (s : State), s.up (86 + ↑c / 8) = true ∧ s.levelOf ↑c ↑id = true ∧ (s.cfgOf ↑c ↑id).en = true ∧
      (s.cfgOf ↑c ↑id).time ≠ 0 ∧ (s.srcOf ↑c ↑id).occ ≠ 0 ∧ (s.srcOf ↑c ↑id).presented = false) ∧
    (∃ (who : Requester) (c : Fin 32) (s : State), ServedRead s who (IRQ_CLAIM ↑c) ∧ (s.irqCore ↑c).stack = (s.irqCore ↑c).shadow ∧
      s.claimable ↑c = []) ∧
    (∃ (who : Requester) (c : Fin 32) (s : State), ServedRead s who (IRQ_CLAIM ↑c) ∧ (s.irqCore ↑c).stack = (s.irqCore ↑c).shadow ∧
      s.claimable ↑c ≠ [] ∧ (s.irqCore ↑c).stack.length < 16) ∧
    (∃ (who : Requester) (c : Fin 32) (id : BitVec 8) (s : State) (prio : Nat) (rest : List (Nat × Nat)), Served s who (IRQ_EOI ↑c) ∧
      (s.irqCore ↑c).stack = (s.irqCore ↑c).shadow ∧ (s.irqCore ↑c).stack = (prio, id.toNat) :: rest) ∧
    (∃ (who : Requester) (c : Fin 32) (id : BitVec 8) (s : State), Served s who (IRQ_EOI ↑c) ∧ (s.irqCore ↑c).stack = (s.irqCore
      ↑c).shadow ∧ (∀ (p : Nat × Nat), p ∈ (s.irqCore ↑c).stack.head? → p.snd ≠ id.toNat)) ∧
    (∃ (who : Requester) (c : Fin 32) (s : State), Served s who (IRQ_SWSET ↑c)) ∧
    (∃ (who : Requester) (c : Fin 32) (s : State), Served s who (IRQ_SWCLR ↑c)) :=
  ⟨⟨31, 0, (fun s => s.setPriv 31 0 { IrqSrc.idle with occ := 1 }) (put up [(IRQ_PCFG_EN 31 0, 1), (IRQ_PCFG_TIME 31 0, 5),
     (IRQ_SWSET_SW 31, 1)]), by decide +kernel⟩,
   ⟨.host, 31, up, by unfold ServedRead Served; decide +kernel⟩,
   ⟨.host, 31, (fun s => s.setPriv 31 0 { IrqSrc.idle with occ := 1, presented := true }) (put up [(IRQ_PCFG_EN 31 0, 1),
     (IRQ_PCFG_PRIO 31 0, 5), (IRQ_SWSET_SW 31, 1)]), by unfold ServedRead Served; decide +kernel⟩,
   ⟨.host, 31, 159, (fun s => s.setIrqCore 31 ⟨[(5, 159)], [(5, 159)]⟩) (up), 5, [], by unfold Served; decide +kernel⟩,
   ⟨.host, 31, 159, up, by unfold Served; decide +kernel⟩,
   ⟨.host, 31, up, by unfold Served; decide +kernel⟩,
   ⟨.host, 31, up, by unfold Served; decide +kernel⟩⟩

theorem witness_MailboxesAndEndpoint :
    (∃ (who : Requester) (m : Fin 512) (j : Fin 16) (s : State), Served s who (IRQ_MBDATA ↑m ↑j) ∧ s.mbFull ↑m = false) ∧
    (∃ (who : Requester) (m : Fin 512) (j : Fin 16) (s : State), Served s who (IRQ_MBDATA ↑m ↑j) ∧ s.mbFull ↑m = true) ∧
    (∃ (who : Requester) (m : Fin 512) (s : State), Served s who (IRQ_MBSEND ↑m) ∧ s.mbFull ↑m = false) ∧
    (∃ (who : Requester) (m : Fin 512) (s : State), Served s who (IRQ_MBSEND ↑m) ∧ s.mbFull ↑m = true) ∧
    (∃ (who : Requester) (m : Fin 512) (s : State), Served s who (IRQ_MBACK ↑m) ∧ (s.accessCycle who).cyc.mbSends = []) ∧
    (∃ (v : Fin 64) (s : State), ↑v ∈ s.pcie.spacing ∧ ¬↑v ∈ s.pcie.merged) ∧
    (∃ (v : Fin 64) (s : State), ↑v ∈ s.pcie.spacing ∧ ↑v ∈ s.pcie.merged ∧ s.pcie.msixEnable = true ∧ s.msixMasked ↑v = false) ∧
    (∃ (who : Requester) (v : Fin 64) (s : State), Served s who (IMG_MSIX_VCTL ↑v) ∧ s.pcie.msixEnable = true ∧ s.pcie.funcMask =
      false ∧ ¬↑v ∈ s.pcie.spacing ∧ s.flag { off := IMG_MSIX_PBA (↑v / 32), hi := ↑v % 32, lo := ↑v % 32 } = true) ∧
    (∃ (s : State), s.up 4 = true) ∧
    (∃ (s : State), s.up 4 = true) :=
  ⟨⟨.host, 511, 15, up, by unfold Served; decide +kernel⟩,
   ⟨.host, 511, 15, put up [(IRQ_MBSTAT_FULL 511, 1)], by unfold Served; decide +kernel⟩,
   ⟨.host, 511, up, by unfold Served; decide +kernel⟩,
   ⟨.host, 511, put up [(IRQ_MBSTAT_FULL 511, 1)], by unfold Served; decide +kernel⟩,
   ⟨.host, 511, put up [(IRQ_MBSTAT_FULL 511, 1)], by unfold Served; decide +kernel⟩,
   ⟨63, (fun s => { s with pcie := { s.pcie with spacing := [63] } }) (up), by decide +kernel⟩,
   ⟨63, (fun s => { s with pcie := { s.pcie with spacing := [63], merged := [63], msixEnable := true } }) (put up [(IMG_MSIX_VCTL_MASK
     63, 0)]), by decide +kernel⟩,
   ⟨.host, 63, put { up with pcie := { up.pcie with msixEnable := true } } [(⟨IMG_MSIX_PBA 1, 31, 31⟩, 1)],
     by unfold Served; decide +kernel⟩,
   ⟨up, by decide +kernel⟩,
   ⟨up, by decide +kernel⟩⟩

theorem witness_Pins :
    (∃ (who : Requester) (s : State), (s.accessCycle who).cyc.pinWrites = [] ∧ (s.accessCycle who).cyc.pinBase = [] ∧ Served s who
      (PIN_OTGL 5)) ∧
    (∃ (who : Requester) (b : Fin 6) (s : State), Served s who (PIN_GPOV ↑b)) ∧
    (∃ (p : Fin 192) (s : State), (s.pinX ↑p).masked = false ∧ s.pinWatched ↑p = false) ∧
    (∃ (p : Fin 192) (lvl : Bool) (s : State), (s.pinX ↑p).masked = false ∧ s.up 93 = true ∧ s.pinWatched ↑p = true ∧ (s.pinX
      ↑p).suppressed = true ∧ (s.setPinX (↑p) (have __src := s.pinX ↑p;
      { level := __src.level, level1 := __src.level1, drove := __src.drove, ext := lvl, keeper := __src.keeper, idleLeft := __src.idleLeft, cnt := __src.cnt, t0 := __src.t0, last := __src.last, suppressed := __src.suppressed, masked := __src.masked })).padLevel
      ↑p ≠ s.padLevel ↑p) ∧
    (∃ (s : State), s.up 93 = true) ∧
    (∃ (p : Fin 192) (s : State), s.up 93 = true ∧ s.pinWatched ↑p = true ∧ s.padLevel ↑p = s.flag (PIN_CFG_ACTHI ↑p) ∧ (s.pinX
      ↑p).masked = false) :=
  ⟨⟨.host, up, by unfold Served; decide +kernel⟩,
   ⟨.host, 5, up, by unfold Served; decide +kernel⟩,
   ⟨191, up, by decide +kernel⟩,
   ⟨191, true, (fun s => s.setPinX 191 { PinX.idle with suppressed := true }) (put up [(PIN_ISEL_EN 0, 1), (PIN_ISEL_PIN 0, 191)]),
     by decide +kernel⟩,
   ⟨up, by decide +kernel⟩,
   ⟨191, put up [(PIN_ISEL_EN 0, 1), (PIN_ISEL_PIN 0, 191), (PIN_CFG_ACTHI 191, 0)], by decide +kernel⟩⟩

theorem witness_ImageCommands :
    (∃ (who : Requester) (s : State), Served s who IMG_WDATA ∧ s.fld IMG_WADDR_REGION < 2 ∧ s.slotState (s.fld IMG_WADDR_REGION) = 0 ∧
      s.runSlot ≠ s.fld IMG_WADDR_REGION ∧ 4 * s.fld IMG_WADDR_ADDR < 6291456) ∧
    (∃ (who : Requester) (s : State), Served s who IMG_WDATA ∧ (s.fld IMG_WADDR_REGION = 3 ∨ s.slotState (s.fld IMG_WADDR_REGION) = 3
      ∨ s.runSlot = s.fld IMG_WADDR_REGION)) ∧
    (∃ (who : Requester) (s : State), ServedRead s who IMG_RDATA ∧ s.fld IMG_WADDR_REGION < 2 ∧ 4 * s.fld IMG_WADDR_ADDR < 6291456 ∧
      ¬6291456 * s.fld IMG_WADDR_REGION + 4 * s.fld IMG_WADDR_ADDR ∈ s.img.storeBad) ∧
    (∃ (who : Requester) (s : State), ServedRead s who IMG_RDATA ∧ s.fld IMG_WADDR_REGION < 2 ∧ 4 * s.fld IMG_WADDR_ADDR < 6291456) ∧
    (∃ (who : Requester) (sl : Fin 4) (s : State), Served s who IMG_CTL ∧ s.imgOpCode = 0 ∧ ↑sl ≠ 3) ∧
    (∃ (who : Requester) (sl : Fin 4) (s : State), Served s who IMG_CTL ∧ s.imgOpCode = 0 ∧ ↑sl ≠ 3 ∧ s.slotState ↑sl = 1 ∧ s.runSlot
      ≠ ↑sl ∧ 2 ≤ s.tbState) ∧
    (∃ (who : Requester) (sl : Fin 4) (s : State), Served s who IMG_CTL ∧ s.imgOpCode = 0 ∧ ↑sl ≠ 3 ∧ s.slotState ↑sl = 1 ∧ s.runSlot
      ≠ ↑sl ∧ s.tbState < 2) ∧
    (∃ (who : Requester) (sl : Fin 4) (s : State), Served s who IMG_CTL ∧ (s.imgOpCode ≠ 0 ∨ ↑sl = 3)) ∧
    (∃ (who : Requester) (sl : Fin 4) (s : State), Served s who IMG_CTL ∧ ↑sl = 2 ∧ s.slotState 2 = 1) ∧
    (∃ (who : Requester) (sl : Fin 4) (s : State), Served s who IMG_CTL ∧ (↑sl ≠ 2 ∨ s.slotState 2 ≠ 1)) ∧
    (∃ (i : Nat) (s : State), i < 2 ∧ s.img.op = ImgOp.check i) :=
  ⟨⟨.host, up, by unfold Served; decide +kernel⟩,
   ⟨.host, put up [(IMG_WADDR_REGION, 3)], by unfold Served; decide +kernel⟩,
   ⟨.host, up, by unfold ServedRead Served; decide +kernel⟩,
   ⟨.host, up, by unfold ServedRead Served; decide +kernel⟩,
   ⟨.host, 0, up, by unfold Served; decide +kernel⟩,
   ⟨.host, 0, put up [(IMG_SLOT_STATE 0, 1), (GBL_STATE_SLOT, 1)], by unfold Served; decide +kernel⟩,
   ⟨.host, 0, put up [(IMG_SLOT_STATE 0, 1), (GBL_STATE_SLOT, 1), (TB_STAT_STATE, 1)], by unfold Served; decide +kernel⟩,
   ⟨.host, 3, up, by unfold Served; decide +kernel⟩,
   ⟨.host, 2, put up [(IMG_SLOT_STATE 2, 1)], by unfold Served; decide +kernel⟩,
   ⟨.host, 0, up, by unfold Served; decide +kernel⟩,
   ⟨1, (fun s => { s with img := { s.img with op := .check 1 } }) (up), by decide +kernel⟩⟩

theorem witness_StartSuccess :
    (∃ (who : Requester) (code : BitVec 16) (s : State), Served s who GBL_STARTOK ∧ (code ≠ 23063 ∨ s.running = false)) ∧
    (∃ (who : Requester) (code : BitVec 16) (s : State), Served s who GBL_STARTOK ∧ code = 23063 ∧ s.running = true ∧
      s.img.okWindowOver = true) ∧
    (∃ (who : Requester) (code : BitVec 16) (s : State), Served s who GBL_STARTOK ∧ code = 23063 ∧ s.running = true ∧
      s.img.okWindowOver = false ∧ s.flag GBL_STATE_OKSEEN = false) ∧
    (∃ (s : State), s.running = true ∧ s.flag GBL_STATE_OKSEEN = false ∧ s.img.okWindowOver = false) ∧
    (∃ (i : Nat) (rest : List Commit) (s : State), i < 2 ∧ s.img.commits = Commit.image i :: rest ∧ s.slotIn 3 = none) ∧
    (∃ (b : BankImage) (id : Nat) (orb : Nat) (rest : List Commit) (s : State), s.img.commits = Commit.bank b id orb :: rest) ∧
    (∃ (bad : List (BitVec 22)) (s : State), s.up 4 = true ∧ s.rst.plan = [] ∧ s.fld GBL_STATE_STATE = 0 ∧ (restoreJournal (storeHit s
      bad)).fld IMG_BOOTCNT_FAILS < 4 ∧ s.flag RST_STAT_TRIMERR = false ∧ s.rst.strapBoot = 0) ∧
    (∃ (bad : List (BitVec 22)) (s : State), s.up 4 = true ∧ s.rst.plan = [] ∧ s.fld GBL_STATE_STATE = 0 ∧ (4 ≤ (restoreJournal
      (storeHit s bad)).fld IMG_BOOTCNT_FAILS ∨ s.flag RST_STAT_TRIMERR = true)) ∧
    (∃ (s : State), s.up 4 = true ∧ s.rst.plan = [] ∧ s.fld GBL_STATE_STATE = 0) ∧
    (∃ (i : Nat) (cand : Bool) (rest : List (Nat × Bool)) (s : State), s.img.op = ImgOp.apply i cand rest ∧ s.rst.plan = [] ∧
      (sectionsOf s.img.store (regionBase i)).any s.sectionFails = false) :=
  ⟨⟨.host, 0, up, by unfold Served; decide +kernel⟩,
   ⟨.host, 0x5A17, (fun s => { s with img := { s.img with okWindowOver := true } }) (up), by unfold Served; decide +kernel⟩,
   ⟨.host, 0x5A17, up, by unfold Served; decide +kernel⟩,
   ⟨up, by decide +kernel⟩,
   ⟨1, [], (fun s => { s with img := { s.img with commits := [.image 1] } }) (up), by decide +kernel⟩,
   ⟨⟨[], []⟩, 0, 0, [], (fun s => { s with img := { s.img with commits := [.bank ⟨[], []⟩ 0 0] } }) (up), by decide +kernel⟩,
   ⟨[], (fun s => { s with rst := { s.rst with plan := [] } }) (put up [(GBL_STATE_STATE, 0)]), by decide +kernel⟩,
   ⟨[], (fun s => { s with rst := { s.rst with plan := [] } }) (put up [(GBL_STATE_STATE, 0), (RST_STAT_TRIMERR, 1)]),
     by decide +kernel⟩,
   ⟨(fun s => { s with rst := { s.rst with plan := [] } }) (put up [(GBL_STATE_STATE, 0)]), by decide +kernel⟩,
   ⟨0, false, [], (fun s => { s with rst := { s.rst with plan := [] }, img := { s.img with op := .apply 0 false [] } }) (up),
     by decide +kernel⟩⟩

theorem witness_Resets :
    (∃ (s : State), s.up 0 = true) ∧
    (∃ (s : State) (who : Requester), s.up 0 = true ∧ Served s who RST_CMD) ∧
    (∃ (s : State), s.up 0 = true ∧ s.flag FLT_WDCFG_EN = true ∧ s.fld FLT_WDSTAT_STAGE ≠ 0) ∧
    (∃ (who : Requester) (code : BitVec 16) (s : State), Served s who RST_CMD ∧ code ≠ 42435) ∧
    (∃ (who : Requester) (s : State), Served s who RST_CMD ∧ s.up 4 = true) :=
  ⟨⟨up, by decide +kernel⟩,
   ⟨up, .host, by unfold Served; decide +kernel⟩,
   ⟨put up [(FLT_WDCFG_EN, 1), (FLT_WDSTAT_STAGE, 1)], by decide +kernel⟩,
   ⟨.host, 0xA5C2, up, by unfold Served; decide +kernel⟩,
   ⟨.host, up, by unfold Served; decide +kernel⟩⟩

theorem witness_ReleaseAndDomains :
    (∃ (s : State), s.up 1 = true ∧ s.rst.trimDone = false) ∧
    (∃ (ds : List Nat) (rest : List (Nat × List Nat)) (s : State), s.rst.plan = (3, ds) :: rest ∧ s.rst.trimDone = false) ∧
    (∃ (rest : List (Nat × List Nat)) (s : State) (step : Nat) (d : Nat), s.rst.plan = (step, [d]) :: rest ∧ step ≠ 3 ∧ step < 16 ∧ (d
      = 1 ∨ d = 4 ∨ 53 ≤ d ∧ d ≤ 95)) ∧
    (∃ (d : Fin 96) (s : State), ↑d ≠ 0 ∧ s.up ↑d = true) ∧
    (∃ (who : Requester) (pd : BitVec 7) (s : State), Served s who RST_PDCMD ∧ switchable pd.toNat = true ∧ s.fld GBL_STATE_STATE = 3
      ∧ s.flag RST_SEQ_BUSY = false ∧ s.rst.domainOp = none) ∧
    (∃ (who : Requester) (pd : BitVec 7) (s : State), Served s who RST_PDCMD ∧ (switchable pd.toNat = false ∨ s.fld GBL_STATE_STATE ≠
      3 ∨ s.flag RST_SEQ_BUSY = true ∨ s.rst.domainOp ≠ none)) ∧
    (∃ (who : Requester) (s : State), Served s who RST_PDCMD) ∧
    (∃ (o : DomainOp) (s : State), s.rst.domainOp = some o ∧ o.started = false ∧ (s.flag GBL_FLIPSTAT_LOCKED = true ∨ s.flag
      GBL_FLIPSTAT_BUSY = true)) ∧
    (∃ (o : DomainOp) (s : State), s.rst.domainOp = some o ∧ o.started = false ∧ s.flag GBL_FLIPSTAT_LOCKED = false ∧ s.flag
      GBL_FLIPSTAT_BUSY = false ∧ o.op = 2 ∧ 53 ≤ o.pd ∧ o.pd ≤ 95) ∧
    (∃ (o : DomainOp) (s : State), s.rst.domainOp = some o ∧ o.started = false ∧ s.flag GBL_FLIPSTAT_LOCKED = false ∧ s.flag
      GBL_FLIPSTAT_BUSY = false ∧ o.op = 3 ∧ 53 ≤ o.pd ∧ o.pd ≤ 95) ∧
    (∃ (o : DomainOp) (s : State), s.rst.domainOp = some o ∧ o.started = true) :=
  ⟨⟨up, by decide +kernel⟩,
   ⟨[2], [], (fun s => { s with rst := { s.rst with plan := [(3, [2])] } }) (up), by decide +kernel⟩,
   ⟨[], (fun s => { s with rst := { s.rst with plan := [(15, [95])] } }) (up), 15, 95, by decide +kernel⟩,
   ⟨95, up, by decide +kernel⟩,
   ⟨.host, 95, up, by unfold Served; decide +kernel⟩,
   ⟨.host, 53, up, by unfold Served; decide +kernel⟩,
   ⟨.host, up, by unfold Served; decide +kernel⟩,
   ⟨⟨1, 95, false⟩, (fun s => { s with rst := { s.rst with domainOp := some ⟨1, 95, false⟩ } }) (put up [(GBL_FLIPSTAT_BUSY, 1)]),
     by decide +kernel⟩,
   ⟨⟨2, 95, false⟩, (fun s => { s with rst := { s.rst with domainOp := some ⟨2, 95, false⟩ } }) (up), by decide +kernel⟩,
   ⟨⟨3, 53, false⟩, (fun s => { s with rst := { s.rst with domainOp := some ⟨3, 53, false⟩ } }) (up), by decide +kernel⟩,
   ⟨⟨3, 53, true⟩, (fun s => { s with rst := { s.rst with domainOp := some ⟨3, 53, true⟩ } }) (up), by decide +kernel⟩⟩

theorem witness_FaultWordAndSafeState :
    (∃ (who : Requester) (hi : Bool) (s : State), (Served s who (if hi = true then FLT_STATUS_HI else FLT_STATUS_LO)) ∧ s.flag
      FLT_SAFE_SELF = true) ∧
    (∃ (who : Requester) (hi : Bool) (s : State), (Served s who (if hi = true then FLT_STATUS_HI else FLT_STATUS_LO)) ∧ s.flag
      FLT_SAFE_SELF = false) ∧
    (∃ (who : Requester) (s : State), ServedRead s who FLT_STATUS_LO) ∧
    (∃ (who : Requester) (s : State), ServedRead s who FLT_FIRSTT_LO) ∧
    (∃ (who : Requester) (s : State), Served s who FLT_CTL ∧ s.safe = false ∧ s.flag FLT_SAFE_SELF = false ∧ (s.accessCycle
      who).cyc.lines = 0) ∧
    (∃ (s : State), s.up 2 = true) ∧
    (∃ (who : Requester) (s : State), Served s who FLT_CTL ∧ s.safe = false) ∧
    (∃ (who : Requester) (s : State) (code : BitVec 16), Served s who FLT_CTL ∧ code ≠ 42435 ∧ s.safe = false) ∧
    (∃ (who : Requester) (s : State), Served s who FLT_CTL ∧ s.safe = true ∧ s.flag FLT_SAFE_SELF = false ∧ s.maskedPending = false ∧
      2 ≤ s.fld TB_STAT_STATE) ∧
    (∃ (who : Requester) (s : State), Served s who FLT_CTL ∧ s.safe = true ∧ s.flag FLT_SAFE_SELF = false ∧ s.maskedPending = false ∧
      s.fld TB_STAT_STATE < 2) ∧
    (∃ (s : State), s.up 4 = true ∧ s.safe = true ∧ s.flag FLT_SAFE_SELF = false ∧ s.fld FLT_ESCTO_MS ≠ 0 ∧ s.flag TB_STAT_STRAPERR =
      false ∧ s.flag REL_STAT_FAST = false ∧ s.flt.supplyOut = [] ∧ s.tempHigh = false ∧ s.fld TB_STAT_STATE ≠ 3 ∧ s.flt.refclkBad =
      false) :=
  ⟨⟨.host, true, put up [(FLT_SAFE_SELF, 1)], by unfold Served; decide +kernel⟩,
   ⟨.host, false, up, by unfold Served; decide +kernel⟩,
   ⟨.host, up, by unfold ServedRead Served; decide +kernel⟩,
   ⟨.host, up, by unfold ServedRead Served; decide +kernel⟩,
   ⟨.host, up, by unfold Served; decide +kernel⟩,
   ⟨up, by decide +kernel⟩,
   ⟨.host, up, by unfold Served; decide +kernel⟩,
   ⟨.host, up, 0, by unfold Served; decide +kernel⟩,
   ⟨.host, put up [(FLT_SAFE_SAFE, 1)], by unfold Served; decide +kernel⟩,
   ⟨.host, put up [(FLT_SAFE_SAFE, 1), (TB_STAT_STATE, 1)], by unfold Served; decide +kernel⟩,
   ⟨put up [(FLT_SAFE_SAFE, 1), (FLT_ESCTO_MS, 5)], by decide +kernel⟩⟩

theorem witness_MonitorsAndWatchdog :
    (∃ (s : State), s.up 2 = true) ∧
    (∃ (v : BitVec 16) (s : State), s.up 2 = true ∧ sext 16 (s.fld FLT_TLIM_HI) < v.toInt) ∧
    (∃ (v : BitVec 16) (s : State), s.up 2 = true ∧ v.toInt ≤ sext 16 (s.fld FLT_TLIM_HI)) ∧
    (∃ (s : State), s.up 2 = true) ∧
    (∃ (b : Nat) (s : State), b < 64 ∧ s.up 2 = true ∧ s.flag FLT_SAFE_SELF = false) ∧
    (∃ (b : Nat) (s : State), b < 64 ∧ s.up 2 = true ∧ s.flag FLT_SAFE_SELF = false ∧ s.safeMask b = true) ∧
    (∃ (b : Nat) (s : State), b < 64 ∧ s.up 2 = true ∧ s.flag FLT_SAFE_SELF = false ∧ s.safeMask b = false) ∧
    (∃ (who : Requester) (s : State), Served s who FLT_WDCFG ∧ s.flag FLT_WDCFG_EN = false) ∧
    (∃ (who : Requester) (s : State), Served s who FLT_WDCFG ∧ s.flag FLT_WDCFG_EN = true) ∧
    (∃ (who : Requester) (s : State), Served s who FLT_WDKICK ∧ s.flag FLT_WDCFG_EN = true) ∧
    (∃ (who : Requester) (s : State) (key : BitVec 16), Served s who FLT_WDKICK ∧ s.flag FLT_WDCFG_EN = true ∧ key ≠ 27421 ∧ s.fld
      FLT_WDSTAT_STAGE = 0) ∧
    (∃ (s : State), s.flag FLT_WDCFG_EN = true ∧ s.fld FLT_WDSTAT_STAGE = 0) :=
  ⟨⟨up, by decide +kernel⟩,
   ⟨1001, up, by decide +kernel⟩,
   ⟨1000, up, by decide +kernel⟩,
   ⟨up, by decide +kernel⟩,
   ⟨63, up, by decide +kernel⟩,
   ⟨62, put up [(FLT_SAFEMASK_HI_MASK_H, 0x7FFFFFFF)], by decide +kernel⟩,
   ⟨0, put up [(FLT_SAFEMASK_LO_MASK_L, 0)], by decide +kernel⟩,
   ⟨.host, up, by unfold Served; decide +kernel⟩,
   ⟨.host, put up [(FLT_WDCFG_EN, 1)], by unfold Served; decide +kernel⟩,
   ⟨.host, put up [(FLT_WDCFG_EN, 1)], by unfold Served; decide +kernel⟩,
   ⟨.host, put up [(FLT_WDCFG_EN, 1)], 0x6B1C, by unfold Served; decide +kernel⟩,
   ⟨put up [(FLT_WDCFG_EN, 1)], by decide +kernel⟩⟩

/-! ### Ill-formed commands are refused -/

theorem test_well_formed_write : (Instr.registerWrite .host 0x1000 15#4 0#32).wellFormed = true := by decide
theorem test_core_32_refused : (Instr.registerWrite (.core 32 0) 0x1000 15#4 0#32).wellFormed = false := by decide
theorem test_thread_4_refused : (Instr.readClear (.core 0 4) 0x1000).wellFormed = false := by decide
theorem test_dma_64_refused : (Instr.queuePop (.dma 64) 0 0#14 []).wellFormed = false := by decide
theorem test_lane_48_refused : (Instr.falseKick (.lane 48) 0#16).wellFormed = false := by decide
theorem test_misaligned_write_refused : (Instr.registerWrite .host 0x1002 15#4 0#32).wellFormed = false := by decide
theorem test_read_beyond_bar0_refused : (Instr.readClear .host 0x4000000).wellFormed = false := by decide
theorem test_misaligned_window_refused : (Instr.eccWindowRead .host 0x1001 false).wellFormed = false := by decide
theorem test_misaligned_staged_refused : (Instr.stagedWrite .host 0x1003 0#32).wellFormed = false := by decide
theorem test_plane_below_planes_refused : (Instr.planeWrite .host 0x1FFFFFC 0#32).wellFormed = false := by decide
theorem test_bar2_length_refused : (Instr.bar2Access 0 4 (some [none, none]) []).wellFormed = false := by decide
theorem test_bar2_read_beyond_refused : (Instr.bar2Access 0x3FFFFFFD 4 none []).wellFormed = false := by decide
theorem test_bar2_write_beyond_refused : (Instr.bar2Access 0x40000000 1 (some [none]) []).wellFormed = false := by decide
theorem test_lock_without_taps_refused : (Instr.cdrLock 0 0#5 0#5 []).wellFormed = false := by decide
theorem test_readapt_without_taps_refused : (Instr.readapt .host 0 0#5 0#5 [0#8]).wellFormed = false := by decide
theorem test_short_descriptor_refused : (Instr.descriptorFetch 0 [0#32] []).wellFormed = false := by decide
theorem test_patrol_beyond_dram_refused : (Instr.patrolScrub 0x40000000 false false).wellFormed = false := by decide
theorem test_true_kick_as_false_refused : (Instr.falseKick .host 0x6B1D#16).wellFormed = false := by decide
theorem test_slot_without_time_refused : (Instr.slotStart 0 []).wellFormed = false := by decide
theorem test_marker_without_time_refused : (Instr.orbitMarker 0 []).wellFormed = false := by decide

/-! ### Values of the spec's worked examples -/

/-- Chapter 4: the payload bits of a v3 frame of 12 flits and of a v2 frame of 6. -/
theorem test_frame_sizes : frameD 3 12 = 2824 ∧ frameD 2 6 = 1336 := by decide

/-- Chapter 6: pulse in cell (12, 36) of layer 0; samples of crossings 92 to 101. -/
def pulse : State :=
  let s := ((up.wr (CND_COEF 0 3 0) 0x06000#32).wr (CND_COEF 0 3 1) 0x04000#32).wr (CND_COEF 0 3 2) 0x3E000#32
  let s := (s.wr (CND_COEF 0 3 3) 0x3D000#32).wr (CND_COEF 0 3 4) 0x3F000#32
  let s := put s [(CND_LCFG_EN 0, 1), (CND_LCFG_PK 0, 1), (CND_LGAIN_GAIN 0, 1024), (CND_LPED_K 0, 12), (CND_LPED_HOLD 0, 1),
    (CND_CURVCFG_SH 0, 4), (CND_CURVE_VAL 0 151, 9060), (CND_CURVE_VAL 0 152, 9120), (CND_LOPT_SATLVL 0, 0xFFFF)]
  let s := s.wr (CND_CELL 0 1572) 0xCC400800#32
  { s with cnd := { s.cnd with hist := (List.range 10).map fun i =>
      (92 + i, [(1572, ⟨[392, 392, 392, 392, 392, 392, 392, 1000, 1600, 900].getD i 0, false, false, false, false⟩)]) } }

/-- The filter outputs, and the value 9,075 of crossing 100. -/
theorem test_conditioning :
    ((pulse.filt 100 0 3 1572 99).map (·.y), (pulse.filt 100 0 3 1572 100).map (·.y), (pulse.filt 100 0 3 1572 101).map (·.y))
      = (some 1304, some 2812, some 2058) ∧
    condCell pulse [] 100 1572 ⟨1600, false, false, false, false⟩ (some (392 * 65536)) false
      = ⟨9075, some (392 * 65536), false, false, false⟩ := by decide +kernel

/-- Chapter 8: the classes' settings, and K0 and the preshower around cell (12, 36). -/
def electron : State :=
  let s := ((up.wr (OBJ_CCFG 0) 0x9988A504#32).wr (OBJ_WGT 0) 0x00111111#32).wr (OBJ_COPT 0) 0x1C2800C8#32
  let s := ((s.wr (OBJ_CORETHR 0) 2000#32).wr (OBJ_PANE 0 0) 0x41110000#32).wr (OBJ_PANE 0 1) 0x41210000#32
  let s := ((s.wr (OBJ_PANE 0 2) 0x80003000#32).wr (OBJ_PANE 0 3) 0x83003000#32).wr (OBJ_PANE 0 4) 0x81010000#32
  put (s.wr (OBJ_PANE 0 5) 0x81310000#32) [(PF_CFG_NROWS, 64), (PF_CFG_NCOLS, 96)]

def electronCells : PfCross :=
  let row (l : List Nat) : List Nat := List.replicate 35 0 ++ l
  ⟨100, [], 64, [List.replicate 11 [] ++ [row [10, 20, 15, 5], row [30, 9075, 2100, 12], row [25, 1800, 640, 8], row [5, 10, 20, 0]],
    List.replicate 12 [] ++ [row [0, 850, 850], row [0, 850, 850]]]⟩

/-- The object word of the electron. -/
theorem test_electron :
    (electron.candidate [] electronCells 0 12 36).map (fun c => (c.core, c.ring, objectWord 0 c false))
      = some (13615, 160, 0x00C4806A5E050061) := by decide +kernel

/-- The sorter's list of class 0 in the crossing of chapter 9. -/
def threeObjects : ObjResult :=
  let c (r k core : Nat) (hit : Bool) (sh : Nat) : Cand × Bool :=
    (⟨0, r, k, core, b2n hit * 160, false, false, false, false, hit, hit, sh⟩, false)
  ⟨100, false, [], some [⟨0, 3, [c 12 36 13615 true 1, c 33 10 4210 false 0, c 40 80 4210 false 0]⟩]⟩

/-- A register word with these fields. -/
def word (l : List (Fld × Nat)) : Word := l.foldl (fun w e => wSetField w e.1.hi e.1.lo e.2) 0#32

/-- Chapter 9: the reference menu. -/
def menu : State :=
  { State.reset with
    regs := [(DEC_SIZE, word [(DEC_SIZE_NALG, 3), (DEC_SIZE_NELEM, 3)]), (PF_CFG, word [(PF_CFG_NCOLS, 96)]),
      (DEC_DEAD, word [(DEC_DEAD_DEAD, 3)]), (DEC_WIN 0, 0x8001000C#32), (DEC_VSRC 0, 0xE0000000#32),
      (DEC_ETYPE 0, 0x10000000#32), (DEC_EFLG 0, 0x00600060#32), (DEC_ETHR 0, 5000#32), (DEC_EOPT 0, 1#32),
      (DEC_ETYPE 1, 0x30000000#32), (DEC_ETHR 1, 15000#32),
      (DEC_ESEP 1, word [(DEC_ESEP_DRMIN 1, 2), (DEC_ESEP_DRMAX 1, 63), (DEC_ESEP_DCMIN 1, 2), (DEC_ESEP_DCMAX 1, 48)]),
      (DEC_EOPT 1, word [(DEC_EOPT_WRAP 1, 1), (DEC_EOPT_PKM1 1, 3)]), (DEC_ETYPE 2, 0x60000000#32),
      (DEC_ACFG 0, 0xC0000000#32), (DEC_ACFG 1, 0xC0000001#32), (DEC_ACFG 2, 0xC0000002#32), (DEC_ALEAF 1 0, 1#32),
      (DEC_ALEAF 2 0, 2#32), (DEC_ATT 0 0, 2#32), (DEC_ATT 1 0, 2#32), (DEC_ATT 2 0, 2#32), (DEC_LCTL 0, 0x80000001#32),
      (DEC_LCTL 1, 0x80000001#32), (DEC_LCTL 2, 0x80000000#32), (DEC_LPS 0, 0x100#32), (DEC_LPS 1, 0x280#32),
      (DEC_LPS 2, 0x7A1200#32)]
    dec := { DecState.reset with copy := ⟨[(1, 0x180)], none, []⟩ } }

/-- The trigger word of crossing Y, and that line 1's accumulator returns to 0. -/
theorem test_decision :
    (fun o => (o.word, o.accs)) (menu.evaluate menu.dec.copy ⟨100, [], [], false, true, true⟩ threeObjects)
      = (0x4000000100000003, [(2, 0x100)]) := by decide +kernel

/-- Dead time and window: crossings Y to Y+13 with Y = 100. -/
theorem test_dead_time :
    [(100, none, []), (102, some 100, [100]), (104, some 100, [100]), (109, some 104, [104, 100]), (111, some 104, [104, 100]),
      (113, some 104, [104, 100])].map (fun (e : Nat × Option Nat × List Nat) =>
        menu.deadTime ⟨[], e.2.1, e.2.2⟩ e.1)
      = [false, true, false, true, true, false] := by decide +kernel

/-- Chapter 13: the setpoint of loop 0 at 30 °C. -/
theorem test_loop_target :
    State.loopTarget (((up.wr (CVL_LCFG 0) 0x80000131#32).wr (CVL_LSET 0) 0x00103C00#32).wr (CVL_LTC 0) 0x002B1AAB#32 |>.setFld
      (CVL_CCFG_MODE 24) 1 |>.setFld (CVL_CRES_CODE 24) 7282) 0 = 15436 := by decide +kernel

/-- Chapter 14: the high sample of a test pulse, as the converter cell gets it. -/
theorem test_pulse_code :
    ((busSample (({ up with vox := { up.vox with voices := [(0, { Voice.idle with run := true })] } }.wr (VOX_VCFG 0) 0x86800000#32).wr
      (VOX_VFREQ 0) 0x80000000#32 |>.wr (VOX_VPW 0) 0x80000000#32 |>.wr (VOX_VAMP 0) 0x4000#32 |>.wr (VOX_BGAIN 0) 0x80004000#32
      |>.setFld VOX_CFG_NBUS 16) 0 0).bus 0).flight = [(16383, 4095)] := by decide +kernel

/-- Chapter 15: the 32nd slot after the start of the microsecond timer ticks. -/
theorem test_microsecond_timer :
    (fun t : State => (t.rd (TMR_CNT 4), (t.timer 4).acc)) (tmrEdge ((put up [(TMR_CTL_RUN 4, 1), (TMR_CTL_SRC 4, 2), (TMR_PRE_PINT 4, 31),
      (TMR_PRE_PFRAC 4, 64)]).setTimer 4 { TimerX.idle with acc := 31 * 256 }) 4 true none) = (1#32, 192) := by decide +kernel

/-- Chapter 17: the words of the worked examples. -/
theorem test_sepia_words :
    sepDecode 0xD8482001 = some (.waitt 1 2 4 1) ∧ sepDecode 0xF0000000 = some (.repb 0) ∧ sepDecode 0xF4800000 = some (.str 0 2 0 0) := by
  decide

/-- Chapter 18: timer 4's source waits above DMA channel 0's: the claim of core 24. -/
def twoSources : State :=
  let x : IrqSrc := { IrqSrc.idle with presented := true }
  { State.reset with
    regs := [(IRQ_TGT 128, 0x80000305#32), (IRQ_TGT 4, 0x80000306#32), (IRQ_SCFG 3 5, 0x83080032#32), (IRQ_SCFG 3 6, 0x89010000#32),
      (TMR_STAT 4, 2#32), (TMR_CTL 4, 0x200#32)]
    irq := { IrqState.reset with shared := [(389, x), (390, x)], dmaLatch := [0] } }

theorem test_claim : (irqClaim twoSources 24).1 = 0x00090026#32 := by decide +kernel

/-- The check value of CRC-32 (R105 names the polynomial). -/
theorem test_crc32 : crc32 [0x31, 0x32, 0x33, 0x34, 0x35, 0x36, 0x37, 0x38, 0x39] = 0xCBF43926 := by decide +kernel

/-- Log 1: a slot of 25 ns is two REFCLK cycles (100 MHz, R43), of which an idle step may have told one. -/
theorem test_slot_passes_cycles :
    (slotStart up 25000 false).rtime = 2 ∧ (slotStart (idleCycle up) 25000 false).rtime = 2 := by decide +kernel

/-- R9 and log 1: an isolation error of an earlier cycle is cleared by the read that returns its count; one of another requester's access
in the same cycle is not. -/
theorem test_read_clear_cycles :
    ((regRead ((errorCompletion up.eventCycle).accessCycle .host) .host RST_ISOCNT).fld RST_ISOCNT_COUNT,
      (regRead ((errorCompletion (up.accessCycle (.core 0 0))).accessCycle .host) .host RST_ISOCNT).fld RST_ISOCNT_COUNT) = (0, 1) := by
  decide +kernel

/-- NIST SP 800-38B, AES-256: the CMAC of no bytes. -/
theorem test_cmac_of_nothing :
    cmac 0x603deb1015ca71be2b73aef0857d77811f352c073b6108d72d9810a30914dff4#256 [] = 0x028962f61b7bf89efc6b551f4667d983#128 := by
  decide +kernel

/-- FIPS 180-4: SHA-384 of the bytes abc. -/
theorem test_sha384_of_abc :
    sha384 [0x61, 0x62, 0x63] = 0xcb00753f45a35e8bb5a03d699ac65007272c32ab0eded1631a8b605a43ff5bed8086072ba1e7cc2358baeca134c825a7 := by
  decide +kernel

end Sys2Proof.Tests
end

section
/-! SUPPORT. What every step keeps of the memories: a bank swap over regions that overlap does not keep their canonical form (O5). -/
namespace Sys2Proof.Machine
open Reg

/-! ### A bank swap over regions that overlap -/

/-- PF's registers lay the live copy of static plane 0 over the staged copy of the first Lake page (R160, R172), each copy from which the
swap moves a byte there holds one, and the next slot begins an orbit at whose boundary a locked flip request swaps the banks (R37). -/
def overlappingBanks : State :=
  let s := ((((((State.reset.wr (RST_PDSTAT 0) 0xFFFFFFFF#32).setFld TB_STAT_STATE 2).setFld GBL_FLIPSTAT_LOCKED 1).wr
    PF_SPBASE 0x2100000#32).wr PF_LAKEBASE 0x2080000#32).setFld PF_CFG_NSP 1).setFld PF_CFG_NLAKE 1
  { s with
    pending := [.slotStart 25000 []], sram := [(0x2080000, 1), (0x2100000, 2)], tb := { s.tb with slot := 3563 },
    flip := { s.flip with locked := some { journal := false, aten := false, at_ := 0 } } }

/-- The swap moves the two bytes to one address. -/
theorem swapAddr_overlappingBanks :
    overlappingBanks.swapAddr 0x2080000 = 0x2180000 ∧ overlappingBanks.swapAddr 0x2100000 = 0x2180000 := by decide +kernel

theorem memoriesWf_overlappingBanks : overlappingBanks.MemoriesWf := by unfold State.MemoriesWf; decide +kernel

/-- The state after the slot that begins the orbit. -/
def overlappingBanksSwapped : State := slotStart (fixWords { overlappingBanks with pending := [] }.eventCycle []) 25000 false

theorem step_overlappingBanks : step overlappingBanks = .next overlappingBanksSwapped := rfl

/-- After the slot each byte stands where the swap moves it. -/
theorem sram_overlappingBanksSwapped : overlappingBanksSwapped.sram =
    [(overlappingBanks.swapAddr 0x2080000, 1), (overlappingBanks.swapAddr 0x2100000, 2)] := by decide +kernel

/-- Refutes O5: the statement is about every state, and nothing in it keeps the banked regions apart. Where two of them overlap, the bank
swap of a flip moves two bytes to one address, which the SRAM then lists twice. -/
theorem not_stepKeepsMemoriesWf : ¬ Obligations.StepKeepsMemoriesWf := by
  intro h
  obtain ⟨hsram, -⟩ := h _ _ memoriesWf_overlappingBanks step_overlappingBanks
  obtain ⟨hlake, hplane⟩ := swapAddr_overlappingBanks
  rw [sram_overlappingBanksSwapped, hlake, hplane] at hsram
  exact absurd hsram (by decide)

end Sys2Proof.Machine
end

section
/-! SUPPORT. The state that power-on reset leaves (O3). -/
namespace Sys2Proof.Machine

/-! ### The reset state -/

/-- Nothing is listed at reset, so that a register reads its Reset column (R10). -/
theorem rd_reset (off : Nat) : State.reset.rd off = resetWord off ∧ State.reset.rdStaged off = resetWord off := ⟨rfl, rfl⟩

/-- The Reset columns of RST_PDSTAT show PD00 alone (R428, R435). -/
theorem up_reset : ∀ d, d < 96 → State.reset.up d = decide (d = 0) := by decide +kernel

/-- Settles O3: the domains from RST_PDSTAT's Reset columns, the registers from theirs. -/
theorem resetState : Obligations.ResetState :=
  ⟨up_reset, rd_reset, by decide +kernel, by decide +kernel, by decide +kernel, by decide +kernel, rfl, rfl, by decide +kernel,
    by decide +kernel⟩

end Sys2Proof.Machine
end

section
/-! SUPPORT. The register window as an access meets it: the cycle that it begins, the commands that bring it about, what stands behind
an offset. -/
namespace Sys2Proof.Machine

/-! ### The REFCLK cycle of an access -/

/-- Beginning the cycle of an access touches only what the cycle remembers (log 1). -/
theorem accessCycle_eq_with_cyc (s : State) (who : Requester) : ∃ c, s.accessCycle who = { s with cyc := c } := by
  unfold State.accessCycle
  split <;> exact ⟨_, rfl⟩

/-- What does not look at the record of the cycle is the same after an access has begun. -/
theorem accessCycle_congr {α : Type} (f : State → α) (hf : ∀ (s : State) (c : Cycle), f { s with cyc := c } = f s) (s : State)
    (who : Requester) : f (s.accessCycle who) = f s := by
  obtain ⟨c, hc⟩ := accessCycle_eq_with_cyc s who
  rw [hc, hf]

@[simp] theorem rd_accessCycle (s : State) (who : Requester) (off : Nat) : (s.accessCycle who).rd off = s.rd off :=
  accessCycle_congr (·.rd off) (fun _ _ => rfl) s who

@[simp] theorem stagedOpen_accessCycle (s : State) (who : Requester) : (s.accessCycle who).stagedOpen = s.stagedOpen :=
  accessCycle_congr (·.stagedOpen) (fun _ _ => rfl) s who

@[simp] theorem reaches_accessCycle (s : State) (who w : Requester) (off : Nat) :
    (s.accessCycle who).reaches w off = s.reaches w off :=
  accessCycle_congr (·.reaches w off) (fun _ _ => rfl) s who

@[simp] theorem silent_accessCycle (s : State) (who : Requester) (off : Nat) : (s.accessCycle who).silent off = s.silent off :=
  accessCycle_congr (·.silent off) (fun _ _ => rfl) s who

@[simp] theorem uncounted_accessCycle (s : State) (who : Requester) (off : Nat) :
    (s.accessCycle who).uncounted off = s.uncounted off :=
  accessCycle_congr (·.uncounted off) (fun _ _ => rfl) s who

@[simp] theorem listed_accessCycle (s : State) (who : Requester) (off : Nat) : (s.accessCycle who).listed off = s.listed off :=
  accessCycle_congr (·.listed off) (fun _ _ => rfl) s who

@[simp] theorem vacant_accessCycle (s : State) (who : Requester) (off : Nat) : (s.accessCycle who).vacant off = s.vacant off :=
  accessCycle_congr (·.vacant off) (fun _ _ => rfl) s who

@[simp] theorem damagedAt_accessCycle (s : State) (who : Requester) (off : Nat) :
    (s.accessCycle who).damagedAt off = s.damagedAt off :=
  accessCycle_congr (·.damagedAt off) (fun _ _ => rfl) s who

theorem Served.accessCycle {s : State} {w : Requester} {off : Nat} (h : Served s w off) (who : Requester) :
    Served (s.accessCycle who) w off := by
  simpa [Served] using h

theorem ServedRead.accessCycle {s : State} {w : Requester} {off : Nat} (h : ServedRead s w off) (who : Requester) :
    ServedRead (s.accessCycle who) w off :=
  ⟨h.1.accessCycle who, by simpa using h.2⟩

/-! ### The commands of an access -/

/-- REGISTER_WRITE completes with the write that its requester makes. -/
theorem completesIn_registerWrite {who : Requester} {off : Nat} {be : BitVec 4} {v : Word} {s : State} {P : State → State → Prop}
    (h : P (s.accessCycle who) (regWriteBe (s.accessCycle who) who off be.toNat v)) :
    CompletesIn (.registerWrite who off be v) s P :=
  ⟨_, rfl, h⟩

/-- READ_CLEAR completes with the read that its requester makes. -/
theorem completesIn_readClear {who : Requester} {off : Nat} {s : State} {P : State → State → Prop}
    (h : P (s.accessCycle who) (regRead (s.accessCycle who) who off)) : CompletesIn (.readClear who off) s P :=
  ⟨_, rfl, h⟩

/-- STAGED_WRITE of a banked register completes with the write that its requester makes. -/
theorem completesIn_stagedWrite {who : Requester} {off : Nat} {v : Word} {s : State} {P : State → State → Prop}
    (hb : isBanked off = true) (h : P (s.accessCycle who) (regWrite (s.accessCycle who) who off v)) :
    CompletesIn (.stagedWrite who off v) s P :=
  ⟨_, congrArg Host.Outcome.next (if_pos hb), h⟩

/-! ### What stands behind an offset -/

theorem aligned_of_mod {off : Nat} (h : off % 4 = 0) : off / 4 * 4 = off := by omega

/-- A register is listed where the map has one and no count of the image ends before it (R5). -/
theorem listed_eq_some {s : State} {off : Nat} {d : RegDef} :
    s.listed off = some d ↔ s.uncounted off = false ∧ regDef off = some d := by
  cases h : s.uncounted off <;> simp [State.listed, h]

theorem isBanked_of_regDef {off : Nat} {d : RegDef} (h : regDef off = some d) : isBanked off = d.banked := by
  simp [isBanked, h]

/-- No register stands at a vacant offset below the windows. -/
theorem listed_of_vacant {s : State} {off : Nat} (h : s.vacant off = true) (hw : off < 0x2000000) : s.listed off = none := by
  have hw' : ¬ 0x2000000 ≤ off := by omega
  rw [State.vacant, if_neg hw', Bool.or_eq_true] at h
  rcases h with h | h
  · simp [State.listed, h]
  · have : regDef off = none := by simp_all
    simp [State.listed, this]

/-- Nor does the live mirror of one. -/
theorem mirrorOf_of_vacant {s : State} {off : Nat} (h : s.vacant off = true) (hw : off < 0x2000000) :
    mirrorOf off = off ∨ s.uncounted off = true := by
  have hw' : ¬ 0x2000000 ≤ off := by omega
  rw [State.vacant, if_neg hw', Bool.or_eq_true] at h
  rcases h with h | h
  · exact .inr h
  · exact .inl (by simp_all)

theorem inWindow_of_vacant {s : State} {off : Nat} (h : s.vacant off = true) (hw : 0x2000000 ≤ off) : s.inWindow off = false := by
  simpa [State.vacant, hw] using h

theorem findRow_mem {off : Nat} {rows : List RegDef} {d : RegDef} (h : findRow off rows = some d) : d ∈ rows := by
  induction rows with
  | nil => cases h
  | cons e r ih =>
    rw [findRow] at h
    split at h
    · cases h; exact List.mem_cons_self
    · exact List.mem_cons_of_mem _ (ih h)

/-- The slots from 0x18 on have no register map (R3). -/
theorem slotRows_of_ge {n : Nat} (h : 0x18 ≤ n) : slotRows n = [] := by
  obtain ⟨k, rfl⟩ := Nat.exists_eq_add_of_le' h
  rfl

/-- Mordant's map, the last, has no banked register. -/
theorem fltRows_not_banked : ∀ d ∈ RegTab.fltRows, d.banked = false := by decide

/-- No register from Mordant's slot on is banked. -/
theorem isBanked_of_ge {off : Nat} (h : 0x1700000 ≤ off) : isBanked off = false := by
  have hrows : ∀ d ∈ slotRows (off / 0x100000), d.banked = false := by
    by_cases e : off / 0x100000 = 0x17
    · rw [e]; exact fltRows_not_banked
    · rw [slotRows_of_ge (by omega)]; simp
  cases hd : regDef off with
  | none => simp [isBanked, hd]
  | some d => rw [isBanked_of_regDef hd]; exact hrows d (findRow_mem hd)

end Sys2Proof.Machine
end

section
/-! SUPPORT. Offsets with nothing behind them (O8). -/
namespace Sys2Proof.Machine

/-! ### Accesses of offsets with nothing behind them (R5) -/

theorem readPlain_vacant {s : State} {off : Nat} (h : s.vacant off = true) : readPlain s off = (0, s) := by
  by_cases hw : 0x2000000 ≤ off
  · simp [readPlain, hw, inWindow_of_vacant h hw]
  · have hw' : off < 0x2000000 := by omega
    rcases mirrorOf_of_vacant h hw' with hm | hu
    · simp [readPlain, hw, listed_of_vacant h hw', hm]
    · simp [readPlain, hw, listed_of_vacant h hw', hu]

theorem busWrite_vacant {s : State} {off : Nat} (v : Word) (ha : off % 4 = 0) (hs : s.silent off = false)
    (h : s.vacant off = true) : busWrite s off v = (false, s) := by
  by_cases hw : 0x2000000 ≤ off
  · simp [busWrite, aligned_of_mod ha, hs, hw, writeWindow, inWindow_of_vacant h hw]
  · simp [busWrite, aligned_of_mod ha, hs, hw, listed_of_vacant h (by omega)]

theorem busWritePart_vacant {s : State} {off : Nat} (ha : off % 4 = 0) (hs : s.silent off = false) (h : s.vacant off = true) :
    busWritePart s off = (false, s) := by
  simp [busWritePart, aligned_of_mod ha, hs, h]

/-- Whatever the byte enables, a write of a vacant offset that answers is discarded. -/
theorem regWriteBe_vacant {s : State} {who : Requester} {off be : Nat} {v : Word} (ha : off % 4 = 0)
    (hr : s.reaches who off = true) (hs : s.silent off = false) (h : s.vacant off = true) :
    regWriteBe s who off be v = s.written := by
  have hb : busWriteBe s off be v = (false, s) := by
    unfold busWriteBe
    split
    · exact busWrite_vacant v ha hs h
    · exact busWritePart_vacant ha hs h
  simp [regWriteBe, hr, hb, State.written]

theorem regRead_vacant {s : State} {who : Requester} {off : Nat} (ha : off % 4 = 0) (hr : s.reaches who off = true)
    (hs : s.silent off = false) (hd : s.damagedAt off = false) (h : s.vacant off = true) : regRead s who off = s.returned 0 := by
  simp [regRead, hr, busRead, aligned_of_mod ha, hs, hd, readPlain_vacant h, State.returned]

/-- A read of a block that does not answer gets the error completion (R445, R446). -/
theorem regRead_silent {s : State} {who : Requester} {off : Nat} (ha : off % 4 = 0) (hr : s.reaches who off = true)
    (hs : s.silent off = true) : regRead s who off = (errorCompletion s).answer [255, 255, 255, 255] true false := by
  simp [regRead, hr, busRead, aligned_of_mod ha, hs, wordBytes]

/-- The slots 0x18 to 0x1F hold nothing: no register, and no live mirror of one. -/
theorem vacant_of_undefinedSlot (s : State) {off : Nat} (h : 0x1800000 ≤ off) (hw : off < 0x2000000) : s.vacant off = true := by
  have hreg : regDef off = none := by rw [regDef, slotRows_of_ge (by omega)]; rfl
  have hmir : mirrorOf off = off := by simp [mirrorOf, isBanked_of_ge (off := off - 0x80000) (by omega)]
  have hw' : ¬ 0x2000000 ≤ off := by omega
  simp [State.vacant, hw', hreg, hmir]

/-- Settles O8: what makes an offset vacant, then what a read and a write of a vacant offset do. -/
theorem undefinedOffsets : Obligations.UndefinedOffsets := by
  refine ⟨fun off s h hw => vacant_of_undefinedSlot s h hw, ?_, ?_, ?_, ?_⟩
  · intro off s hw hreg hmir
    have hw' : ¬ 0x2000000 ≤ off := by omega
    simp [State.vacant, hw', hreg, hmir]
  · intro off s hw hu
    have hw' : ¬ 0x2000000 ≤ off := by omega
    simp [State.vacant, hw', hu]
  · intro off s hw _ hwin
    simp [State.vacant, hw, hwin]
  · intro who off s ha hv
    refine ⟨fun hr hs hd => ?_, fun hr hs be v => ?_, fun hr hs => ?_⟩
    · exact completesIn_readClear (regRead_vacant ha (by simpa) (by simpa) (by simpa) (by simpa))
    · exact completesIn_registerWrite (regWriteBe_vacant ha (by simpa) (by simpa) (by simpa))
    · exact completesIn_readClear (regRead_silent ha (by simpa) (by simpa))

end Sys2Proof.Machine
end

section
/-! SUPPORT. Register accesses by the access codes (O9). -/
namespace Sys2Proof.Machine

/-! ### Registers whose accesses have an effect of their own -/

theorem ite_some_eq_none {α : Type} {c : Prop} [Decidable c] {a : α} {o : Option α} :
    (if c then some a else o) = none ↔ ¬c ∧ o = none := by
  by_cases h : c <;> simp [h]

theorem onReg_eq_none {α : Type} {off base stride n : Nat} {f : Nat → α} :
    onReg off base stride n f = none ↔ onIdx off base stride n = none :=
  Option.map_eq_none_iff

/-- Whether a write acts is a matter of its offset, whatever the state. -/
theorem actsLow_eq_none {s : State} {off : Nat} {v : Word} (h : s.actsLow off v = none) (t : State) : t.actsLow off v = none := by
  unfold State.actsLow at h ⊢
  split <;> simp_all [onReg_eq_none, ite_some_eq_none]

theorem actsMid_eq_none {s : State} {off : Nat} {v : Word} (h : s.actsMid off v = none) (t : State) : t.actsMid off v = none := by
  unfold State.actsMid at h ⊢
  split <;> simp_all [onReg_eq_none, ite_some_eq_none]

theorem actsHigh_eq_none {s : State} {off : Nat} {v : Word} (h : s.actsHigh off v = none) (t : State) : t.actsHigh off v = none := by
  unfold State.actsHigh at h ⊢
  split <;> simp_all [onReg_eq_none, ite_some_eq_none]

/-- So it is for a read. -/
theorem readActs_eq_none {s : State} {off : Nat} (h : s.readActs off = none) (t : State) : t.readActs off = none := by
  unfold State.readActs at h ⊢
  split <;> simp_all [onReg_eq_none, ite_some_eq_none]

/-! ### Served accesses -/

@[simp] theorem rd_written (s : State) (off : Nat) : s.written.rd off = s.rd off := rfl
@[simp] theorem rdStaged_written (s : State) (off : Nat) : s.written.rdStaged off = s.rdStaged off := rfl
@[simp] theorem rd_mend (s : State) (a off : Nat) : (mend s a).rd off = s.rd off := rfl
@[simp] theorem rdStaged_mend (s : State) (a off : Nat) : (mend s a).rdStaged off = s.rdStaged off := rfl

/-- States with the same memories in the records that hold them have the same bytes. -/
theorem sameMemories_of_eq {s t : State} (hsram : t.sram = s.sram) (hdram : t.dram = s.dram) (himg : t.img = s.img)
    (hsep : t.sep = s.sep) : SameMemories s t := by
  simp [SameMemories, hsram, hdram, himg, hsep]

/-- A write with all four byte enables is a whole one (R6). -/
theorem regWriteBe_full (s : State) (who : Requester) (off : Nat) (v : Word) :
    regWriteBe s who off (15#4).toNat v = regWrite s who off v := rfl

/-- A served write of a listed register. -/
theorem regWrite_listed {s : State} {who : Requester} {off : Nat} {d : RegDef} {v : Word} (ha : off % 4 = 0)
    (hw : off < 0x2000000) (hs : Served s who off) (hl : s.listed off = some d) :
    regWrite s who off v = (writeReg s off d v).written := by
  obtain ⟨hreach, hsilent, -⟩ := hs
  have hw' : ¬ 0x2000000 ≤ off := by omega
  simp [regWrite, hreach, busWrite, aligned_of_mod ha, hsilent, hw', hl, State.written]

/-- A write by the access codes alone: nothing acts on it, no source's level follows it. -/
theorem writeReg_plain {s : State} {off : Nat} {d : RegDef} {v : Word} (hb : d.banked = false) (hlow : s.actsLow off v = none)
    (hmid : s.actsMid off v = none) (hhigh : s.actsHigh off v = none) (hdevs : devsOf off = [])
    (hafter : ∀ u : State, afterPlain u off = u) : writeReg s off d v = writePlain s off d v := by
  simp [writeReg, hb, hlow, hmid, hhigh, hdevs, hafter, withDevs]

theorem rd_writePlain (s : State) (off : Nat) (d : RegDef) (v : Word) :
    (writePlain s off d v).rd off =
      ((maskIn (s.rd off) v d.rw ||| (v &&& BitVec.ofNat 32 d.w1s)) &&& ~~~(v &&& BitVec.ofNat 32 d.w1c)) |||
        ((s.regEvent off).fresh &&& (v &&& BitVec.ofNat 32 d.w1c)) := by
  simp [writePlain]

theorem regsBut_writePlain (s : State) (off : Nat) (d : RegDef) (v : Word) : RegsBut [off] s (writePlain s off d v).written := by
  intro o ho
  simp only [writePlain, rd_written, rd_mend]
  exact State.rd_wr_other _ _ _ _ (by simpa using ho)

theorem sameMemories_writePlain (s : State) (off : Nat) (d : RegDef) (v : Word) :
    SameMemories s (writePlain s off d v).written :=
  sameMemories_of_eq rfl rfl rfl rfl

/-- A served read of a register with RC bits, which nothing else acts on. -/
theorem regRead_clearing {s : State} {who : Requester} {off : Nat} {d : RegDef} (ha : off % 4 = 0) (hw : off < 0x2000000)
    (hs : ServedRead s who off) (hl : s.listed off = some d) (hb : d.banked = false) (hrc : d.rc ≠ 0)
    (hacts : s.readActs off = none) (hecc : onIdx off (Reg.SEP_ECCCNT 0) 0x100 32 = none) :
    regRead s who off = (readClear s off d.rc).2.returned (readClear s off d.rc).1 := by
  obtain ⟨⟨hreach, hsilent, -⟩, hdamaged⟩ := hs
  have hw' : ¬ 0x2000000 ≤ off := by omega
  simp [regRead, hreach, busRead, aligned_of_mod ha, hsilent, hdamaged, readPlain, hw', hl, readReg, hacts, hb, hrc, eccCleared,
    hecc, State.returned]

/-- In a cycle with no event of the register, the read returns it whole and leaves its other bits. -/
theorem readClear_of_noEvent {s : State} {off rc : Nat} (h : s.regEvent off = { before := s.rd off, fresh := 0 }) :
    (readClear s off rc).1 = s.rd off ∧ (readClear s off rc).2.rd off = s.rd off &&& ~~~(BitVec.ofNat 32 rc) := by
  have hsplit (w m : Word) : (w &&& ~~~m) ||| (w &&& m) = w := by
    ext i hi
    cases hbit : m[i] <;> simp [hbit]
  constructor
  · simp only [readClear, h, hsplit]
  · simp [readClear, h]

theorem regsBut_readClear (s : State) (off rc : Nat) (w : Word) : RegsBut [off] s ((readClear s off rc).2.returned w) := by
  intro o ho
  exact State.rd_wr_other (s.noteEvent off _) _ _ _ (by simpa using ho)

theorem sameMemories_readClear (s : State) (off rc : Nat) (w : Word) : SameMemories s ((readClear s off rc).2.returned w) :=
  sameMemories_of_eq rfl rfl rfl rfl

/-! ### Banked registers -/

/-- A banked register's write goes to the staged bank. -/
theorem regWrite_banked {s : State} {who : Requester} {off : Nat} {d : RegDef} {v : Word} (ha : off % 4 = 0)
    (hw : off < 0x2000000) (hs : Served s who off) (hl : s.listed off = some d) (hb : d.banked = true) :
    regWrite s who off v = (writeStaged s off d v).written := by
  rw [regWrite_listed ha hw hs hl, writeReg, if_pos hb]

/-- While the staged bank is open the write reaches the staged value of `off` and nothing else (R34). -/
theorem writeStaged_open {s : State} {off : Nat} {d : RegDef} {v : Word} (h : s.stagedOpen = true) :
    (writeStaged s off d v).written.rdStaged off = maskIn (s.rdStaged off) (clampStaged off v) d.rw ∧
      RegsBut [] s (writeStaged s off d v).written ∧ SameMemories s (writeStaged s off d v).written ∧
        ∀ o, o ≠ off → (writeStaged s off d v).written.rdStaged o = s.rdStaged o := by
  rw [writeStaged, if_pos h]
  refine ⟨by simp, fun o _ => rfl, sameMemories_of_eq rfl rfl rfl rfl, fun o ho => ?_⟩
  simp [State.rdStaged_wrStaged_other _ _ _ _ ho]

/-- While it is closed the write is discarded with WDROP (R39). -/
theorem writeStaged_closed {s : State} {off : Nat} {d : RegDef} {v : Word} (h : s.stagedOpen = false) :
    writeStaged s off d v = s.event Reg.GBL_FLIPSTAT_WDROP := by
  rw [writeStaged, if_neg (by simp [h])]

/-- The bits of `m` take the written value. -/
theorem maskIn_and (old v : Word) (m : Nat) : maskIn old v m &&& BitVec.ofNat 32 m = v &&& BitVec.ofNat 32 m := by
  unfold maskIn
  ext i hi
  cases h : (BitVec.ofNat 32 m)[i] <;> simp_all

theorem wField_low_seven (w : Word) : wField w 6 0 = (w &&& 0x7F#32).toNat := by
  have h := Nat.and_two_pow_sub_one_eq_mod w.toNat 7
  simpa [wField, bitsOf] using h.symm

/-- A staged value of TB_SLIPMAX is 64 at most (R29). -/
theorem slipMax_stored (old v : Word) :
    wField (maskIn old (clampStaged Reg.TB_SLIPMAX v) RegTab.row_TB_SLIPMAX.rw) 6 0 = min (wField v 6 0) 64 := by
  have hclamp : clampStaged Reg.TB_SLIPMAX v = wSetField v 6 0 (min (wField v 6 0) 64) := rfl
  rw [hclamp, wField_low_seven, show RegTab.row_TB_SLIPMAX.rw = 0x7F from rfl, maskIn_and, ← wField_low_seven,
    wField_wSetField_same _ _ _ _ (by omega) (by omega)]
  exact Nat.mod_eq_of_lt (by omega)

/-! ### The clauses of O9 -/

/-- A full write of a register that nothing follows and no event of the cycle touched (R8, R9). -/
theorem registerWrite_plain (who : Requester) (off : Nat) (d : RegDef) (v : Word) (s : State) (ha : off % 4 = 0)
    (hw : off < 0x2000000) (hs : Served s who off) (hl : s.listed off = some d) (hb : d.banked = false)
    (hfresh : ((s.accessCycle who).regEvent off).fresh = 0) (hlow : s.actsLow off v = none) (hmid : s.actsMid off v = none)
    (hhigh : s.actsHigh off v = none) (hdevs : devsOf off = []) (hafter : ∀ u : State, afterPlain u off = u) :
    CompletesIn (.registerWrite who off 15#4 v) s fun s t =>
      t.rd off = (maskIn (s.rd off) v d.rw ||| (v &&& BitVec.ofNat 32 d.w1s)) &&& ~~~(v &&& BitVec.ofNat 32 d.w1c) ∧
      RegsBut [off] s t ∧ SameMemories s t ∧ t.staged = s.staged ∧ t.resp.err = false := by
  apply completesIn_registerWrite
  rw [regWriteBe_full, regWrite_listed ha hw (hs.accessCycle who) (by simpa using hl),
    writeReg_plain hb (actsLow_eq_none hlow _) (actsMid_eq_none hmid _) (actsHigh_eq_none hhigh _) hdevs hafter]
  exact ⟨by simp [rd_writePlain, hfresh], regsBut_writePlain _ _ _ _, sameMemories_writePlain _ _ _ _, rfl, rfl⟩

/-- TB_ORBLOAD_LO has RW bits alone, so that no event of the cycle matters (R8). -/
theorem registerWrite_orbload (who : Requester) (v : Word) (s : State) (hs : Served s who Reg.TB_ORBLOAD_LO) :
    CompletesIn (.registerWrite who Reg.TB_ORBLOAD_LO 15#4 v) s fun s t =>
      t.rd Reg.TB_ORBLOAD_LO = v ∧ RegsBut [Reg.TB_ORBLOAD_LO] s t ∧ SameMemories s t ∧ t.staged = s.staged ∧
        t.resp.err = false := by
  have hl : s.listed Reg.TB_ORBLOAD_LO = some RegTab.row_TB_ORBLOAD_LO := listed_eq_some.2 ⟨hs.2.2, by decide⟩
  apply completesIn_registerWrite
  rw [regWriteBe_full, regWrite_listed (by decide) (by decide) (hs.accessCycle who) (by simpa using hl),
    writeReg_plain rfl rfl rfl rfl rfl fun _ => rfl]
  refine ⟨?_, regsBut_writePlain _ _ _ _, sameMemories_writePlain _ _ _ _, rfl, rfl⟩
  have hall : v &&& 0xFFFFFFFF#32 = v := BitVec.and_allOnes
  simp [rd_writePlain, maskIn, RegTab.row_TB_ORBLOAD_LO, hall]

/-- A clearing read in a cycle with no event of the register (R8, R9). -/
theorem readClear_plain (who : Requester) (off : Nat) (d : RegDef) (s : State) (ha : off % 4 = 0) (hw : off < 0x2000000)
    (hs : ServedRead s who off) (hl : s.listed off = some d) (hb : d.banked = false) (hrc : d.rc ≠ 0)
    (hacts : s.readActs off = none) (hecc : onIdx off (Reg.SEP_ECCCNT 0) 0x100 32 = none)
    (hev : (s.accessCycle who).regEvent off = { before := s.rd off, fresh := 0 }) :
    CompletesIn (.readClear who off) s fun s t =>
      t.resp.data = wordBytes (s.rd off).toNat ∧ t.rd off = s.rd off &&& ~~~(BitVec.ofNat 32 d.rc) ∧ RegsBut [off] s t ∧
      SameMemories s t ∧ t.staged = s.staged := by
  apply completesIn_readClear
  rw [regRead_clearing ha hw (hs.accessCycle who) (by simpa using hl) hb hrc (readActs_eq_none hacts _) hecc]
  obtain ⟨hword, hleft⟩ := readClear_of_noEvent (rc := d.rc) (hev.trans (by rw [rd_accessCycle]))
  exact ⟨by rw [hword]; rfl, hleft, regsBut_readClear _ _ _ _, sameMemories_readClear _ _ _ _, rfl⟩

/-- RST_ISOCNT is RC throughout: its count reads 0 after it (R8, R446). -/
theorem readClear_isocnt (who : Requester) (s : State) (hs : ServedRead s who Reg.RST_ISOCNT)
    (hev : (s.accessCycle who).cyc.regEv = []) :
    CompletesIn (.readClear who Reg.RST_ISOCNT) s fun s t =>
      t.resp.data = wordBytes (s.rd Reg.RST_ISOCNT).toNat ∧ t.fld Reg.RST_ISOCNT_COUNT = 0 ∧ RegsBut [Reg.RST_ISOCNT] s t ∧
      SameMemories s t := by
  have hl : s.listed Reg.RST_ISOCNT = some RegTab.row_RST_ISOCNT := listed_eq_some.2 ⟨hs.1.2.2, by decide⟩
  have hnone : (s.accessCycle who).regEvent Reg.RST_ISOCNT = { before := s.rd Reg.RST_ISOCNT, fresh := 0 } := by
    simp [State.regEvent, hev, smGet]
  obtain ⟨t, ht, hdata, hrd, hregs, hmem, -⟩ :=
    readClear_plain who _ _ s (by decide) (by decide) hs hl rfl (by decide) rfl (by decide) hnone
  refine ⟨t, ht, hdata, ?_, hregs, hmem⟩
  rw [State.fld, hrd]
  simp [RegTab.row_RST_ISOCNT, wField, bitsOf]

/-- A write of a banked register, staged or plain, is one of the staged bank (R34). -/
theorem bankedWrite (who : Requester) (off : Nat) (d : RegDef) (v : Word) (s : State) (ha : off % 4 = 0)
    (hw : off < 0x2000000) (hs : Served s who off) (hl : s.listed off = some d) (hb : d.banked = true)
    {P : State → State → Prop} (h : P (s.accessCycle who) (writeStaged (s.accessCycle who) off d v).written) :
    CompletesIn (.stagedWrite who off v) s P ∧ CompletesIn (.registerWrite who off 15#4 v) s P := by
  have hbank : isBanked off = true := by rw [isBanked_of_regDef (listed_eq_some.1 hl).2, hb]
  rw [← regWrite_banked ha hw (hs.accessCycle who) (by simpa using hl) hb] at h
  exact ⟨completesIn_stagedWrite hbank h, completesIn_registerWrite h⟩

/-- A write of TB_SLIPMAX stores 64 at most, or is discarded with WDROP (R29, R39). -/
theorem stagedWrite_slipMax (who : Requester) (v : Word) (s : State) (hs : Served s who Reg.TB_SLIPMAX) :
    CompletesIn (.stagedWrite who Reg.TB_SLIPMAX v) s fun s t =>
      if s.stagedOpen then
        wField (t.rdStaged Reg.TB_SLIPMAX) 6 0 = min (wField v 6 0) 64 ∧ RegsBut [] s t ∧ SameMemories s t ∧
          ∀ o, o ≠ Reg.TB_SLIPMAX → t.rdStaged o = s.rdStaged o
      else t.staged = s.staged ∧ t.flag Reg.GBL_FLIPSTAT_WDROP = true ∧ RegsBut [Reg.GBL_FLIPSTAT] s t ∧ SameMemories s t := by
  have hl : s.listed Reg.TB_SLIPMAX = some RegTab.row_TB_SLIPMAX := listed_eq_some.2 ⟨hs.2.2, by decide⟩
  refine (bankedWrite who _ _ v s (by decide) (by decide) hs hl rfl ?_).1
  split
  next hopen =>
    obtain ⟨hstored, hrest⟩ := writeStaged_open (d := RegTab.row_TB_SLIPMAX) (off := Reg.TB_SLIPMAX) (v := v) hopen
    exact ⟨by rw [hstored, slipMax_stored], hrest⟩
  next hopen =>
    rw [writeStaged_closed (by simpa using hopen)]
    refine ⟨rfl, ?_, fun o ho => State.rd_event_other _ _ _ (by simpa using ho), sameMemories_of_eq rfl rfl rfl rfl⟩
    have hset := State.fld_event_same (s.accessCycle who) Reg.GBL_FLIPSTAT_WDROP (by unfold Fld.ok; decide)
    change decide ((State.event _ _).fld _ ≠ 0) = true
    rw [hset]; decide

/-- A write with fewer than four byte enables is discarded and raises the IMG error line (R6). -/
theorem registerWrite_partial (who : Requester) (off : Nat) (be : BitVec 4) (v : Word) (s : State)
    (hr : s.reaches who off = true) (hs : s.silent (off / 4 * 4) = false) (hv : s.vacant (off / 4 * 4) = false) (hbe : be ≠ 15#4) :
    CompletesIn (.registerWrite who off be v) s fun s t => t = (raiseLine (s.event Reg.IMG_STAT_BEERR) 21).written := by
  have hbe' : ¬ be.toNat % 16 = 15 := fun h => hbe (BitVec.eq_of_toNat_eq (by have := be.isLt; simp; omega))
  apply completesIn_registerWrite
  simp [regWriteBe, hr, busWriteBe, hbe', busWritePart, hs, hv, State.written]

/-- Settles O9: plain writes and clearing reads, writes of banked registers, partial writes. -/
theorem plainAccesses : Obligations.PlainAccesses := by
  refine ⟨⟨registerWrite_plain, registerWrite_orbload, readClear_plain, readClear_isocnt⟩, ⟨?_, stagedWrite_slipMax⟩,
    registerWrite_partial⟩
  intro who off d v s ha hw hs hl hb
  refine ⟨fun hopen => ?_, fun hclosed => ?_⟩
  · refine bankedWrite who off d v s ha hw hs hl hb ?_
    exact writeStaged_open (by simpa using hopen)
  · refine bankedWrite who off d v s ha hw hs hl hb ?_
    rw [writeStaged_closed (by simpa using hclosed)]

end Sys2Proof.Machine
end

section
/-! SUPPORT. Damaged words of the register window: a routing word of the interrupts (O11). -/
namespace Sys2Proof.Machine
open Reg

/-! ### A damaged routing word -/

/-- The host's link is up, and domains 64 to 95, that of the interrupts among them (R435). -/
def linkedUp : State :=
  { State.reset with pcie := { PcieState.reset with linkUp := true } }.wr (RST_PDSTAT 2) 0xFFFFFFFF#32

theorem served_routingWord : Served linkedUp .host (IRQ_TGT 0) := by unfold Served; decide +kernel

/-- A read that meets a damaged IRQ_TGT word also raises IRQ's own status bit (R392). -/
theorem eccWindowRead_routingWord :
    (eccRead (linkedUp.accessCycle .host) .host (IRQ_TGT 0) false).flag IRQ_STAT_ECCU = true ∧
    ((uncorrected { linkedUp.accessCycle .host with ecc := (linkedUp.readWords (IRQ_TGT 0)).foldl nsAdd linkedUp.ecc }
      IRQ_ECCCNT_UNCORR).answer [255, 255, 255, 255] false false).flag IRQ_STAT_ECCU = false := by decide +kernel

/-- Refutes O11: its first clause leaves out the mailbox words of IRQ but not IRQ_TGT, and a read that meets a damaged IRQ_TGT word sets
IRQ_STAT.ECCU beside the count (R392). -/
theorem not_windowsAndDamage : ¬ Obligations.WindowsAndDamage := by
  intro h
  obtain ⟨hread, -⟩ := h.1 .host (IRQ_TGT 0) IRQ_ECCCNT_UNCORR linkedUp (by decide) served_routingWord (by decide +kernel) (by decide)
  obtain ⟨t, ht, heq⟩ := hread (by decide) (by decide +kernel)
  obtain ⟨hset, hclear⟩ := eccWindowRead_routingWord
  cases ht
  rw [heq] at hset
  exact absurd (hset.symm.trans hclear) (by decide)

end Sys2Proof.Machine
end

section
/-! SUPPORT. Commands whose effect on a register has a row of its own, and what stays as it was beside the registers they set. -/
namespace Sys2Proof.Machine

/-! ### Accesses that are served (R5, R11, R445) -/

/-- A served write answers with its effect. -/
theorem writeAct_served {s : State} {who : Requester} {off : Nat} {f : State → State} (h : Served s who off) :
    writeAct s who off f = (f s).written := by
  obtain ⟨hreach, hsilent, hcounted⟩ := h
  simp [writeAct, hreach, hsilent, hcounted, State.written]

/-- A served read answers with its word, after its effect. -/
theorem readAct_served {s : State} {who : Requester} {off : Nat} {f : State → Word × State} (h : ServedRead s who off) :
    readAct s who off f = (f s).2.returned (f s).1 := by
  obtain ⟨⟨hreach, hsilent, hcounted⟩, hdamaged⟩ := h
  simp [readAct, hreach, hsilent, hcounted, hdamaged, State.returned]

@[simp] theorem fld_written (s : State) (f : Fld) : s.written.fld f = s.fld f := rfl
@[simp] theorem fld_returned (s : State) (w : Word) (f : Fld) : (s.returned w).fld f = s.fld f := rfl

/-! ### What is left unchanged but for some registers -/

theorem OnlyRegs.refl (offs : List Nat) (s : State) : OnlyRegs offs s s := ⟨rfl, fun _ _ => rfl⟩

/-- Setting a register of `offs` keeps to `offs`. -/
theorem OnlyRegs.wr {offs : List Nat} {u t : State} (h : OnlyRegs offs u t) {off : Nat} (ho : off ∈ offs) (w : Word) :
    OnlyRegs offs u (t.wr off w) := by
  obtain ⟨hrest, hregs⟩ := h
  refine ⟨by rw [hrest]; rfl, fun o hout => ?_⟩
  have hne : o ≠ off := fun e => hout (e ▸ ho)
  rw [State.rd_wr_other _ _ _ _ hne, hregs o hout]

/-- So does setting a field of one. -/
theorem OnlyRegs.setFld {offs : List Nat} {u t : State} (h : OnlyRegs offs u t) {f : Fld} (hf : f.off ∈ offs) (v : Nat) :
    OnlyRegs offs u (t.setFld f v) := h.wr hf _

/-- So do effects one after the other, each of which does. -/
theorem OnlyRegs.foldl {offs : List Nat} {u t : State} (h : OnlyRegs offs u t) {l : List Nat} {f : State → Nat → State}
    (hf : ∀ t, ∀ k ∈ l, OnlyRegs offs u t → OnlyRegs offs u (f t k)) : OnlyRegs offs u (l.foldl f t) := by
  induction l generalizing t with
  | nil => exact h
  | cons k r ih => exact ih (hf t k (by simp) h) fun t j hj => hf t j (by simp [hj])

/-- The same answer on both sides is no difference. -/
theorem OnlyRegs.answer {offs : List Nat} {u t : State} (h : OnlyRegs offs u t) (data : List Nat) (err poison : Bool) :
    OnlyRegs offs (u.answer data err poison) (t.answer data err poison) := by
  obtain ⟨hrest, hregs⟩ := h
  exact ⟨by rw [hrest]; rfl, hregs⟩

end Sys2Proof.Machine
end

section
/-! SUPPORT. Results at the release registers, sentinel records (O16). -/
namespace Sys2Proof.Machine

/-! ### Arrivals (R51, R54) -/

/-- An arrival that nothing keeps out, of a word that is made, reaches the release register: whole on a decision stream, with ACC 0 and no
strobe on an exchange stream (R51). -/
theorem resultArrival_eq_relArrive {s : State} {st back ph x w : Nat} {strobe : Bool} {c : StreamCfg} (hrun : s.running = true)
    (hback : back ≤ s.tb.n) (hx : x = s.tb.n - back) (hst : st < s.fld Reg.REL_CFG_NSTREAM) (hfirst : s.rel.firstX ≤ x)
    (hc : s.img.streams[st]? = some c) (hres : s.rel.results.find? (fun r => decide (r.1 = x)) = some (x, w, strobe))
    (hp : (s.relEntry st x).present = false) :
    resultArrival s st back ph = relArrive s st x
      (if c.dec then BitVec.ofNat 64 w else BitVec.ofNat 64 w &&& ~~~(1#64 <<< 62)) (c.dec && strobe) ph := by
  subst hx
  have hdefined : s.streams.contains st = true := by simpa [State.streams] using hst
  simp only [resultArrival, backwards, hrun, hback, hdefined, Nat.not_lt.2 hfirst, hp, hc, hres]
  cases c.dec <;> simp

/-- Before the release instant of a crossing that is not late, the ring entry takes the word (R51). -/
theorem relArrive_inTime {s : State} {st x ph : Nat} {word : BitVec 64} {strobe : Bool} (hlate : (s.relEntry st x).late = false)
    (hn : s.tb.n < x + s.fld (Reg.REL_LAT_L st)) :
    relArrive s st x word strobe ph =
      s.setRel st { s.relEntry st x with word := word, strobe := strobe, arrival := fclkAt s.tb.ps + ph, present := true } := by
  simp [relArrive, hlate, Nat.not_le.2 hn]

/-- A result for a late crossing, or after the release instant, is dropped and counted (R54). -/
theorem relArrive_tooLate {s : State} {st x ph : Nat} {word : BitVec 64} {strobe : Bool}
    (h : (s.relEntry st x).late = true ∨ x + s.fld (Reg.REL_LAT_L st) ≤ s.tb.n) :
    relArrive s st x word strobe ph = s.count (Reg.REL_LATECNT_DROP st) 1 := by
  simp [relArrive, h, relDrop]

/-! ### Sentinel records (R60, R67) -/

theorem fieldsOk_sentx (st : Nat) : Fld.ok (Reg.REL_SENTX_ORBIT_L st) ∧ Fld.ok (Reg.REL_SENTX_RSLACK st) := by
  simp [Fld.ok]

/-- A read of REL_SENT[s] returns it; REL_SENTX[s] then holds the orbit of the record and the replay slack that was published. -/
theorem sentRead_latches {s : State} {st rep : Nat}
    (h : s.rel.pubRep.find? (fun e => decide (e.1 = st)) = some (st, rep)) :
    (sentRead s st).1 = s.rd (Reg.REL_SENT st) ∧
      (sentRead s st).2.fld (Reg.REL_SENTX_ORBIT_L st) = s.rel.pubOrbit % 2 ^ 16 ∧
      (sentRead s st).2.fld (Reg.REL_SENTX_RSLACK st) = rep % 2 ^ 16 ∧ OnlyRegs [Reg.REL_SENTX st] s (sentRead s st).2 := by
  obtain ⟨horbit, hslack⟩ := fieldsOk_sentx st
  simp only [sentRead, h]
  refine ⟨trivial, ?_, ?_, ?_⟩
  · rw [State.fld_setFld_other _ _ _ _ hslack horbit (by simp)]
    exact State.fld_setFld_same _ _ _ horbit
  · exact State.fld_setFld_same _ _ _ hslack
  · exact ((OnlyRegs.refl _ s).setFld (by simp) _).setFld (by simp) _

/-- SMCLR's effect on one stream. -/
def clearMinimum (s : State) (st : Nat) : State := s.setFld (Reg.REL_SENTMIN_MIN st) 0xFFFF

theorem sentClear_eq (s : State) : sentClear s = (List.range 16).foldl clearMinimum s := rfl

theorem fieldOk_sentMin (st : Nat) : Fld.ok (Reg.REL_SENTMIN_MIN st) := by simp [Fld.ok]

theorem sentMin_clearMinimum_same (s : State) (st : Nat) : (clearMinimum s st).fld (Reg.REL_SENTMIN_MIN st) = 0xFFFF := by
  rw [clearMinimum, State.fld_setFld_same _ _ _ (fieldOk_sentMin st)]
  exact Nat.mod_eq_of_lt (show 0xFFFF < 2 ^ 16 by decide)

theorem sentMin_clearMinimum_other (s : State) {st k : Nat} (h : st ≠ k) :
    (clearMinimum s k).fld (Reg.REL_SENTMIN_MIN st) = s.fld (Reg.REL_SENTMIN_MIN st) := by
  have hoff : Reg.REL_SENTMIN st ≠ Reg.REL_SENTMIN k := by unfold Reg.REL_SENTMIN; omega
  exact State.fld_setFld_other _ _ _ _ (fieldOk_sentMin k) (fieldOk_sentMin st) (.inl hoff)

/-- A minimum that is 0xFFFF already, or that is among those cleared, is 0xFFFF after it. -/
theorem sentMin_clearMinima (s : State) (l : List Nat) (st : Nat) (h : s.fld (Reg.REL_SENTMIN_MIN st) = 0xFFFF ∨ st ∈ l) :
    (l.foldl clearMinimum s).fld (Reg.REL_SENTMIN_MIN st) = 0xFFFF := by
  induction l generalizing s with
  | nil => simpa using h
  | cons k r ih =>
    apply ih
    by_cases e : st = k
    · rw [e]
      exact .inl (sentMin_clearMinimum_same s k)
    · rw [sentMin_clearMinimum_other s e]
      simpa [e] using h

/-- SMCLR sets every sticky minimum to 0xFFFF and nothing else (R67). -/
theorem sentClear_minima (s : State) :
    (∀ st, st < 16 → (sentClear s).fld (Reg.REL_SENTMIN_MIN st) = 0xFFFF) ∧
      OnlyRegs ((List.range 16).map Reg.REL_SENTMIN) s (sentClear s) := by
  rw [sentClear_eq]
  refine ⟨fun st h => sentMin_clearMinima s _ st (.inr (List.mem_range.2 h)), (OnlyRegs.refl _ s).foldl fun t st hst ht => ?_⟩
  exact ht.setFld (f := Reg.REL_SENTMIN_MIN st) (List.mem_map_of_mem hst) _

/-! ### The commands of O16 -/

/-- SENTINEL_READ that is served completes with the read's effect. -/
theorem completesIn_sentinelRead {who : Requester} {st : Fin 16} {s : State} {P : State → State → Prop}
    (hs : ServedRead s who (Reg.REL_SENT st))
    (h : P (s.accessCycle who) ((sentRead (s.accessCycle who) st).2.returned (sentRead (s.accessCycle who) st).1)) :
    CompletesIn (.sentinelRead who st) s P :=
  ⟨_, congrArg Host.Outcome.next (readAct_served (hs.accessCycle who)), h⟩

/-- SENTINEL_CLEAR that is served completes with the write's effect. -/
theorem completesIn_sentinelClear {who : Requester} {s : State} {P : State → State → Prop} (hs : Served s who Reg.REL_CTL)
    (h : P (s.accessCycle who) (sentClear (s.accessCycle who)).written) : CompletesIn (.sentinelClear who) s P :=
  ⟨_, congrArg Host.Outcome.next (writeAct_served (hs.accessCycle who)), h⟩

/-- A served read of REL_SENT[s] (R60). -/
theorem sentinelRead_served (who : Requester) (st : Fin 16) (rep : Nat) (s : State) (hs : ServedRead s who (Reg.REL_SENT st))
    (hrep : s.rel.pubRep.find? (fun e => decide (e.1 = st.val)) = some (st.val, rep)) :
    CompletesIn (.sentinelRead who st) s fun s t =>
      t.resp.data = wordBytes (s.rd (Reg.REL_SENT st)).toNat ∧ t.fld (Reg.REL_SENTX_ORBIT_L st) = s.rel.pubOrbit % 2 ^ 16 ∧
      t.fld (Reg.REL_SENTX_RSLACK st) = rep % 2 ^ 16 ∧ OnlyRegs [Reg.REL_SENTX st] (s.returned (s.rd (Reg.REL_SENT st))) t := by
  have hpub : (s.accessCycle who).rel.pubRep.find? (fun e => decide (e.1 = st.val)) = some (st.val, rep) := by
    rwa [accessCycle_congr (·.rel) (fun _ _ => rfl)]
  obtain ⟨hword, horbit, hslack, hrest⟩ := sentRead_latches hpub
  apply completesIn_sentinelRead hs
  rw [hword]
  exact ⟨rfl, (fld_returned _ _ _).trans horbit, (fld_returned _ _ _).trans hslack, hrest.answer _ _ _⟩

/-- A served write of REL_CTL.SMCLR (R67). -/
theorem sentinelClear_served (who : Requester) (s : State) (hs : Served s who Reg.REL_CTL) :
    CompletesIn (.sentinelClear who) s fun s t =>
      (∀ st, st < 16 → t.fld (Reg.REL_SENTMIN_MIN st) = 0xFFFF) ∧
        OnlyRegs ((List.range 16).map Reg.REL_SENTMIN) s.written t := by
  obtain ⟨hmin, hrest⟩ := sentClear_minima (s.accessCycle who)
  exact completesIn_sentinelClear hs ⟨fun st h => (fld_written _ _).trans (hmin st h), hrest.answer _ _ _⟩

/-- Settles O16: an arrival is judged by its crossing's lateness and release instant; then the sentinel registers. -/
theorem releaseUnit : Obligations.ReleaseUnit := by
  refine ⟨?_, sentinelRead_served, sentinelClear_served⟩
  intro st back ph x w strobe c s hrun hback hx hst hfirst hc hres hp
  have harrive := resultArrival_eq_relArrive (s := s.eventCycle) (ph := ph) hrun hback hx hst hfirst hc hres hp
  refine ⟨fun hlate hn => ⟨_, congrArg Host.Outcome.next harrive, ?_⟩, fun htoo => ⟨_, congrArg Host.Outcome.next harrive, ?_⟩⟩
  · exact relArrive_inTime (s := s.eventCycle) hlate hn
  · exact relArrive_tooLate (s := s.eventCycle) htoo

end Sys2Proof.Machine
end

section
/-! SUPPORT. Core supply adaptation and the tap sets of the lanes (O17). -/
namespace Sys2Proof.Machine

/-! ### The regulator's answer (R62) -/

/-- A status without an alert is kept, and NORESP clears. -/
theorem avsStatus_kept (s : State) (st : BitVec 16) :
    (avsStatus s (some st.toNat) false).flag Reg.REL_AVSSTAT_NORESP = false ∧
      (avsStatus s (some st.toNat) false).fld Reg.REL_AVSSTAT_LASTSTAT = st.toNat / 256 ∧
      OnlyRegs [Reg.REL_AVSSTAT] s (avsStatus s (some st.toNat) false) := by
  have hnoresp : Fld.ok Reg.REL_AVSSTAT_NORESP := by simp [Fld.ok]
  have hstat : Fld.ok Reg.REL_AVSSTAT_LASTSTAT := by simp [Fld.ok]
  have heq : avsStatus s (some st.toNat) false =
      (s.setFld Reg.REL_AVSSTAT_NORESP 0).setFld Reg.REL_AVSSTAT_LASTSTAT (st.toNat / 256) := rfl
  rw [heq]
  refine ⟨?_, ?_, ((OnlyRegs.refl _ s).setFld (by simp) _).setFld (by simp) _⟩
  · rw [State.flag, State.fld_setFld_other _ _ _ _ hstat hnoresp (by simp), State.fld_setFld_same _ _ _ hnoresp]
    simp
  · rw [State.fld_setFld_same _ _ _ hstat]
    exact Nat.mod_eq_of_lt (by have := st.isLt; simp; omega)

/-- The end of SETTLE clears BUSY, so that a further request may be made. -/
theorem avsBusy_cleared (s : State) :
    (s.setFld Reg.REL_AVSSTAT_BUSY 0).flag Reg.REL_AVSSTAT_BUSY = false ∧
      OnlyRegs [Reg.REL_AVSSTAT] s (s.setFld Reg.REL_AVSSTAT_BUSY 0) := by
  refine ⟨?_, (OnlyRegs.refl _ s).setFld (by simp) _⟩
  rw [State.flag, State.fld_setFld_same _ _ _ (by simp [Fld.ok])]
  simp

/-- While PD03, the domain of the release unit, is up, the regulator's answer is taken (R62, R435). -/
theorem exec_avsStatusResponse {s : State} (h : s.up 3 = true) (resp : Option (BitVec 16)) (alert : Bool) :
    exec (.avsStatusResponse resp alert) s = .next (avsStatus s.eventCycle (resp.map BitVec.toNat) alert) :=
  congrArg Host.Outcome.next (if_pos h)

/-- So is the end of SETTLE. -/
theorem exec_avsSettleEnd {s : State} (h : s.up 3 = true) :
    exec .avsSettleEnd s = .next (s.eventCycle.setFld Reg.REL_AVSSTAT_BUSY 0) :=
  congrArg Host.Outcome.next (if_pos h)

/-! ### Tap sets (R80, R81, R89) -/

/-- A write of LNK_TXPRE is held there and has no other effect. -/
theorem txPreWrite_held (s : State) (n : Nat) (v : Word) :
    (txPreWrite s n v).rd (Reg.LNK_TXPRE n) = v &&& 0x00FFFFFF#32 ∧ OnlyRegs [Reg.LNK_TXPRE n] s (txPreWrite s n v) :=
  ⟨State.rd_wr_same _ _ _, (OnlyRegs.refl _ s).wr (by simp) _⟩

/-- LNK_TXPRE and LNK_STAT are other registers than the one that a write of LNK_TXMAIN sets. -/
theorem wr_txMain_leaves (s : State) (n : Nat) (w : Word) :
    (s.wr (Reg.LNK_TXMAIN n) w).rd (Reg.LNK_TXPRE n) = s.rd (Reg.LNK_TXPRE n) ∧
      (s.wr (Reg.LNK_TXMAIN n) w).lnkState n = s.lnkState n := by
  refine ⟨State.rd_wr_other _ _ _ _ (by simp), ?_⟩
  rw [State.lnkState, State.fld, State.rd_wr_other _ _ _ _ (by simp)]
  rfl

/-- An invalid set reads back but is refused. -/
theorem txMainWrite_invalid {s : State} {n : Nat} {v main : Word} (hmain : clampSwing (v &&& 0xFF00FFFF#32) = main)
    (h : tapsValid (s.rd (Reg.LNK_TXPRE n)) main = false) :
    txMainWrite s n v = raiseLine ((s.wr (Reg.LNK_TXMAIN n) main).event (Reg.LNK_STAT_FFEERR n)) 3 := by
  obtain ⟨hpre, -⟩ := wr_txMain_leaves s n main
  simp [txMainWrite, RegTab.row_LNK_TXMAIN, hmain, hpre, h]

/-- In READY a valid set waits for the next frame boundary. -/
theorem txMainWrite_ready {s : State} {n : Nat} {v main : Word} (hmain : clampSwing (v &&& 0xFF00FFFF#32) = main)
    (h : tapsValid (s.rd (Reg.LNK_TXPRE n)) main = true) (hready : s.lnkState n = 4) :
    txMainWrite s n v =
      (s.wr (Reg.LNK_TXMAIN n) main).setLane n { s.lane n with next := some (s.rd (Reg.LNK_TXPRE n), main) } := by
  obtain ⟨hpre, hstate⟩ := wr_txMain_leaves s n main
  simp [txMainWrite, RegTab.row_LNK_TXMAIN, hmain, hpre, h, hstate, hready, State.lane]

/-- Elsewhere it is in use at once. -/
theorem txMainWrite_notReady {s : State} {n : Nat} {v main : Word} (hmain : clampSwing (v &&& 0xFF00FFFF#32) = main)
    (h : tapsValid (s.rd (Reg.LNK_TXPRE n)) main = true) (hready : s.lnkState n ≠ 4) :
    txMainWrite s n v =
      (s.wr (Reg.LNK_TXMAIN n) main).setLane n
        { s.lane n with pre := s.rd (Reg.LNK_TXPRE n), main := main, next := none } := by
  obtain ⟨hpre, hstate⟩ := wr_txMain_leaves s n main
  simp [txMainWrite, RegTab.row_LNK_TXMAIN, hmain, hpre, h, hstate, hready, State.lane]

/-- The frame boundary takes the set that waits. -/
theorem tapApply_waiting {s : State} {n : Nat} {pre main : Word} (h : (s.lane n).next = some (pre, main)) :
    tapApply s n = s.setLane n { s.lane n with pre := pre, main := main, next := none } := by
  simp [tapApply, h]

/-! ### The commands of O17 -/

/-- A served write of LNK_TXPRE (R81). -/
theorem txpreWrite_served (who : Requester) (n : Fin 48) (v : Word) (s : State) (hs : Served s who (Reg.LNK_TXPRE n)) :
    CompletesIn (.txpreWrite who n v) s fun s t =>
      t.rd (Reg.LNK_TXPRE n) = v &&& 0x00FFFFFF#32 ∧ OnlyRegs [Reg.LNK_TXPRE n] s.written t := by
  obtain ⟨hheld, hrest⟩ := txPreWrite_held (s.accessCycle who) n v
  exact ⟨_, congrArg Host.Outcome.next (writeAct_served (hs.accessCycle who)), hheld, hrest.answer _ _ _⟩

/-- A served write of LNK_TXMAIN completes with what becomes of its set (R81). -/
theorem completesIn_txmainWrite {who : Requester} {n : Fin 48} {v : Word} {s : State} {P : State → State → Prop}
    (hs : Served s who (Reg.LNK_TXMAIN n)) (h : P (s.accessCycle who) (txMainWrite (s.accessCycle who) n v).written) :
    CompletesIn (.txmainWrite who n v) s P :=
  ⟨_, congrArg Host.Outcome.next (writeAct_served (hs.accessCycle who)), h⟩

/-- Settles O17: the regulator's answers, then a set of taps by its validity and the lane's state, and the frame boundary. -/
theorem supplyAndTaps : Obligations.SupplyAndTaps := by
  refine ⟨fun s hup => ⟨fun alert => ?_, fun st => ?_, fun st => ?_, ?_⟩,
    fun who n v s => ⟨txpreWrite_served who n v s, fun hs => ?_, fun pre main hnext => ?_⟩⟩
  · exact ⟨_, exec_avsStatusResponse hup none alert, rfl⟩
  · exact ⟨_, exec_avsStatusResponse hup (some st) false, avsStatus_kept _ st⟩
  · exact ⟨_, exec_avsStatusResponse hup (some st) true, rfl⟩
  · exact ⟨_, exec_avsSettleEnd hup, avsBusy_cleared _⟩
  · apply completesIn_txmainWrite hs
    dsimp only
    split
    next hvalid =>
      split
      next hready => rw [txMainWrite_ready rfl hvalid hready]
      next hready => rw [txMainWrite_notReady rfl hvalid hready]
    next hinvalid => rw [txMainWrite_invalid rfl (by simpa using hinvalid)]
  · exact ⟨_, congrArg Host.Outcome.next (tapApply_waiting (s := s.eventCycle) hnext), rfl⟩

end Sys2Proof.Machine
end

section
/-! SUPPORT. What stays as it was beside the registers that a command sets: their fields, the lanes' records, the power domains. -/
namespace Sys2Proof.Machine

/-! ### Effects that keep to some registers -/

/-- What the cycle remembers of an event is no register. -/
theorem OnlyRegs.noteEvent {offs : List Nat} {u t : State} (h : OnlyRegs offs u t) (off : Nat) (e : RegEvent) :
    OnlyRegs offs u (t.noteEvent off e) := by
  obtain ⟨hrest, hregs⟩ := h
  exact ⟨by rw [hrest]; rfl, hregs⟩

theorem OnlyRegs.event {offs : List Nat} {u t : State} (h : OnlyRegs offs u t) {f : Fld} (hf : f.off ∈ offs) :
    OnlyRegs offs u (t.event f) := (h.noteEvent _ _).setFld hf _

theorem OnlyRegs.count {offs : List Nat} {u t : State} (h : OnlyRegs offs u t) {f : Fld} (hf : f.off ∈ offs) (n : Nat) :
    OnlyRegs offs u (t.count f n) := (h.noteEvent _ _).setFld hf _

/-- One effect after another. -/
theorem OnlyRegs.trans {offs : List Nat} {u t v : State} (h : OnlyRegs offs u t) (h' : OnlyRegs offs t v) : OnlyRegs offs u v := by
  obtain ⟨hrest, hregs⟩ := h
  obtain ⟨hrest', hregs'⟩ := h'
  exact ⟨by rw [hrest', hrest], fun o ho => (hregs' o ho).trans (hregs o ho)⟩

theorem OnlyRegs.mono {offs offs' : List Nat} {u t : State} (h : OnlyRegs offs u t) (hsub : offs ⊆ offs') : OnlyRegs offs' u t :=
  ⟨h.1, fun o ho => h.2 o fun hin => ho (hsub hin)⟩

/-- The same record of a lane put on both sides is no difference. -/
theorem OnlyRegs.setLane {offs : List Nat} {u t : State} (h : OnlyRegs offs u t) (n : Nat) (x : LaneX) :
    OnlyRegs offs (u.setLane n x) (t.setLane n x) := by
  obtain ⟨hrest, hregs⟩ := h
  exact ⟨by rw [hrest]; rfl, hregs⟩

/-! ### What they leave -/

theorem OnlyRegs.fld {offs : List Nat} {u t : State} (h : OnlyRegs offs u t) {f : Fld} (hf : f.off ∉ offs) : t.fld f = u.fld f := by
  rw [State.fld, h.2 _ hf, State.fld]

theorem OnlyRegs.flag {offs : List Nat} {u t : State} (h : OnlyRegs offs u t) {f : Fld} (hf : f.off ∉ offs) : t.flag f = u.flag f := by
  rw [State.flag, h.fld hf, State.flag]

theorem OnlyRegs.lane {offs : List Nat} {u t : State} (h : OnlyRegs offs u t) (n : Nat) : t.lane n = u.lane n := by
  rw [h.1]
  rfl

/-- Registers below RST_PDSTAT have no part in what is powered. -/
theorem OnlyRegs.laneUp {offs : List Nat} {u t : State} (h : OnlyRegs offs u t) (ho : ∀ o ∈ offs, o < Reg.RST_PDSTAT 0) (n : Nat) :
    t.laneUp n = u.laneUp n := by
  have hout : Reg.RST_PDSTAT ((5 + n) / 32) ∉ offs := fun hin => absurd (ho _ hin) (by simp)
  rw [State.laneUp, State.up, h.2 _ hout]
  rfl

/-! ### Effects that keep to some registers and the lanes' records -/

/-- `t` is `u` but for the registers at `offs` and what the lanes hold beside their registers. -/
def OnlyLanes (offs : List Nat) (u t : State) : Prop :=
  t = { u with regs := t.regs, lnk := { u.lnk with lanes := t.lnk.lanes } } ∧ RegsBut offs u t

theorem OnlyLanes.refl (offs : List Nat) (s : State) : OnlyLanes offs s s := ⟨rfl, fun _ _ => rfl⟩

theorem OnlyLanes.wr {offs : List Nat} {u t : State} (h : OnlyLanes offs u t) {off : Nat} (ho : off ∈ offs) (w : Word) :
    OnlyLanes offs u (t.wr off w) := by
  obtain ⟨hrest, hregs⟩ := h
  refine ⟨by rw [hrest]; rfl, fun o hout => ?_⟩
  have hne : o ≠ off := fun e => hout (e ▸ ho)
  rw [State.rd_wr_other _ _ _ _ hne, hregs o hout]

theorem OnlyLanes.setFld {offs : List Nat} {u t : State} (h : OnlyLanes offs u t) {f : Fld} (hf : f.off ∈ offs) (v : Nat) :
    OnlyLanes offs u (t.setFld f v) := h.wr hf _

theorem OnlyLanes.setLane {offs : List Nat} {u t : State} (h : OnlyLanes offs u t) (n : Nat) (x : LaneX) :
    OnlyLanes offs u (t.setLane n x) := by
  obtain ⟨hrest, hregs⟩ := h
  exact ⟨by rw [hrest]; rfl, hregs⟩

theorem OnlyLanes.foldl {offs : List Nat} {u t : State} (h : OnlyLanes offs u t) {l : List Nat} {f : State → Nat → State}
    (hf : ∀ t, ∀ k ∈ l, OnlyLanes offs u t → OnlyLanes offs u (f t k)) : OnlyLanes offs u (l.foldl f t) := by
  induction l generalizing t with
  | nil => exact h
  | cons k r ih => exact ih (hf t k (by simp) h) fun t j hj => hf t j (by simp [hj])

theorem OnlyLanes.sameMemories {offs : List Nat} {u t : State} (h : OnlyLanes offs u t) : SameMemories u t := by
  rw [h.1]
  exact sameMemories_of_eq rfl rfl rfl rfl

theorem OnlyLanes.grpFault {offs : List Nat} {u t : State} (h : OnlyLanes offs u t) : t.lnk.grpFault = u.lnk.grpFault := by
  rw [h.1]

/-! ### Fields after a field is set, for `simp` (its discharger does not see through `Fld.ok`) -/

@[simp] theorem fld_setFld_self (s : State) {f : Fld} (v : Nat) (hlo : f.lo ≤ f.hi) (hhi : f.hi < 32) :
    (s.setFld f v).fld f = v % 2 ^ (f.hi + 1 - f.lo) := State.fld_setFld_same s f v ⟨hlo, hhi⟩

@[simp] theorem fld_setFld_disjoint (s : State) {f g : Fld} (v : Nat) (hlo : f.lo ≤ f.hi) (hhi : f.hi < 32) (hlo' : g.lo ≤ g.hi)
    (hhi' : g.hi < 32) (h : g.off ≠ f.off ∨ g.hi < f.lo ∨ f.hi < g.lo) : (s.setFld f v).fld g = s.fld g :=
  State.fld_setFld_other s f g v ⟨hlo, hhi⟩ ⟨hlo', hhi'⟩ h

@[simp] theorem fld_wr_other (s : State) {off : Nat} {g : Fld} (w : Word) (h : g.off ≠ off) : (s.wr off w).fld g = s.fld g := by
  rw [State.fld, State.rd_wr_other _ _ _ _ h, State.fld]

/-- A flag is its register's bit. -/
theorem flag_eq_getLsbD (s : State) (off i : Nat) : s.flag ⟨off, i, i⟩ = (s.rd off).getLsbD i := by
  simp [State.flag, State.fld, wField, bitsOf, BitVec.getLsbD, Nat.testBit_eq_decide_div_mod_eq, Nat.shiftRight_eq_div_pow]

/-! ### Accesses -/

/-- A served write by command `i` completes with its effect on the state in which the cycle of the access has begun. -/
theorem completesIn_served {i : Instr} {who : Requester} {off : Nat} {s : State} {f : State → State} {P : State → State → Prop}
    (hexec : exec i s = .next (writeAct (s.accessCycle who) who off f)) (hbegun : begun i s = s.accessCycle who)
    (hs : Served s who off) (h : ∀ c : Cycle, P { s with cyc := c } (f { s with cyc := c }).written) : CompletesIn i s P := by
  refine ⟨_, hexec.trans (congrArg Host.Outcome.next (writeAct_served (hs.accessCycle who))), ?_⟩
  obtain ⟨c, hc⟩ := accessCycle_eq_with_cyc s who
  rw [hbegun, hc]
  exact h c

end Sys2Proof.Machine
end

section
/-! SUPPORT. The lane array: bring-up and faults of lanes, clock groups (O18). -/
namespace Sys2Proof.Machine

/-! ### The registers of a lane -/

theorem lnkState_lnkTo (s : State) (n : Nat) {st : Nat} (h : st < 8) : (lnkTo s n st).lnkState n = st := by
  simpa [State.lnkState, lnkTo] using Nat.mod_eq_of_lt h

@[simp] theorem lane_wr (s : State) (off : Nat) (w : Word) (n : Nat) : (s.wr off w).lane n = s.lane n := rfl
@[simp] theorem lane_setFld (s : State) (f : Fld) (v n : Nat) : (s.setFld f v).lane n = s.lane n := rfl
@[simp] theorem lane_lnkTo (s : State) (k st n : Nat) : (lnkTo s k st).lane n = s.lane n := rfl
@[simp] theorem lane_eyeOff (s : State) (k n : Nat) : (eyeOff s k).lane n = s.lane n := rfl

theorem rd_eyeOff (s : State) (n : Nat) : (eyeOff s n).rd (Reg.LNK_EYE n) = 0 := State.rd_wr_same _ _ _

theorem dpLane_of_madder {s : State} {n : Nat} (h : s.madder n = true) : s.dpLane n = false := by
  simp_all [State.madder, State.dpLane]

/-! ### Bring-up (R74) -/

/-- Outside a group clock fault the PLL locks. -/
theorem pllLock_of_madder {s : State} {n : Nat} (hup : s.laneUp n = true) (hm : s.madder n = true)
    (hbusy : (s.lane n).pllBusy = true) (hgrp : s.lnk.grpFault.contains (n / 12) = false) :
    pllLock s n = s.setLane n { s.lane n with pllBusy := false } := by
  rw [pllLock, hup, hbusy, hgrp, dpLane_of_madder hm]
  rfl

/-- Calibration ends in IDLE. -/
theorem calDone_calibrating {s : State} {n : Nat} (hup : s.laneUp n = true) (hm : s.madder n = true) (hcal : s.lnkState n = 1)
    (hbusy : (s.lane n).pllBusy = false) : calDone s n = lnkTo (s.setLane n { s.lane n with calFails := 0 }) n 2 := by
  simp [calDone, hup, hm, hcal, hbusy]

/-- A signal in IDLE begins acquisition. -/
theorem signalDetect_idle {s : State} {n : Nat} (hup : s.laneUp n = true) (hm : s.madder n = true) (hidle : s.lnkState n = 2) :
    signalDetect s n = lnkTo (s.setFld (Reg.LNK_STAT_SIGDET n) 1) n 3 := by
  have hstate : (s.setFld (Reg.LNK_STAT_SIGDET n) 1).lnkState n = 2 := by simpa [State.lnkState] using hidle
  simp [signalDetect, hup, hm, hstate]

theorem signalDetect_acquires {s : State} {n : Nat} (hup : s.laneUp n = true) (hm : s.madder n = true) (hidle : s.lnkState n = 2) :
    (signalDetect s n).lnkState n = 3 ∧ (signalDetect s n).flag (Reg.LNK_STAT_SIGDET n) = true ∧
      OnlyRegs [Reg.LNK_STAT n] s (signalDetect s n) := by
  rw [signalDetect_idle hup hm hidle]
  refine ⟨lnkState_lnkTo _ _ (by decide), ?_, ((OnlyRegs.refl _ s).setFld (by simp) _).setFld (by simp) _⟩
  simp [State.flag, lnkTo]

/-! ### Rate changes (R75) -/

/-- From IDLE, ACQ and READY a rate change leads to ACQ at the new rate, with the PLL locking again. -/
theorem lnkRate_active {s : State} {n : Nat} (r : Nat) (hup : s.laneUp n = true) (hm : s.madder n = true)
    (hst : s.lnkState n = 2 ∨ s.lnkState n = 3 ∨ s.lnkState n = 4) :
    lnkRate s n r =
      (lnkTo ((eyeOff s n).setLane n { s.lane n with pllBusy := true }) n 3).setFld (Reg.LNK_STAT_RATE n) r := by
  simp [lnkRate, hup, hm, hst]

theorem onlyLanes_lnkRate (s : State) (n r : Nat) : OnlyLanes [Reg.LNK_STAT n, Reg.LNK_EYE n] s (lnkRate s n r) := by
  unfold lnkRate
  split
  · exact ((((OnlyLanes.refl _ s).wr (by simp) _).setLane _ _).setFld (by simp) _).setFld (by simp) _
  · exact OnlyLanes.refl _ s

theorem lnkRate_shows {s : State} {n : Nat} (r : Nat) (hup : s.laneUp n = true) (hm : s.madder n = true)
    (hst : s.lnkState n = 2 ∨ s.lnkState n = 3 ∨ s.lnkState n = 4) :
    (lnkRate s n r).lnkState n = 3 ∧ (lnkRate s n r).fld (Reg.LNK_STAT_RATE n) = r % 8 ∧
      ((lnkRate s n r).lane n).pllBusy = true ∧ (lnkRate s n r).rd (Reg.LNK_EYE n) = 0 := by
  rw [lnkRate_active r hup hm hst]
  refine ⟨?_, ?_, ?_, ?_⟩
  · simp [State.lnkState, lnkTo]
  · simp
  · simp
  · rw [State.rd_setFld_other _ _ _ _ (by simp), lnkTo, State.rd_setFld_other _ _ _ _ (by simp)]
    exact rd_eyeOff s n

/-! ### Adaptation (R82) -/

/-- The twelve DFE taps. -/
def dfeSet (s : State) (n : Nat) (dfe : List Nat) : State :=
  let w (i : Nat) : Word := BitVec.ofNat 32 (leNat ((dfe.drop (4 * i)).take 4 ++ [0, 0, 0, 0]))
  ((s.wr (Reg.LNK_DFE0 n) (w 0)).wr (Reg.LNK_DFE1 n) (w 1)).wr (Reg.LNK_DFE2 n) (w 2)

/-- The registers that show the equalizer of a lane. -/
def eqRegs (n : Nat) : List Nat := [Reg.LNK_RXSTAT n, Reg.LNK_DFE0 n, Reg.LNK_DFE1 n, Reg.LNK_DFE2 n]

theorem OnlyRegs.dfeSet {offs : List Nat} {u t : State} {n : Nat} (h : OnlyRegs offs u t)
    (hoffs : [Reg.LNK_DFE0 n, Reg.LNK_DFE1 n, Reg.LNK_DFE2 n] ⊆ offs) (dfe : List Nat) : OnlyRegs offs u (dfeSet t n dfe) :=
  ((h.wr (hoffs (by simp)) _).wr (hoffs (by simp)) _).wr (hoffs (by simp)) _

/-- In mode 0 CTLE, VGA and the taps are adapted. -/
theorem adapted_all {s : State} {n : Nat} (ctle vga : Nat) (dfe : List Nat) (h : s.fld (Reg.LNK_RXEQ_ADAPT n) = 0) :
    adapted s n ctle vga dfe =
      dfeSet ((s.setFld (Reg.LNK_RXSTAT_CTLE n) (min ctle 20)).setFld (Reg.LNK_RXSTAT_VGA n) vga) n dfe := by
  simp [adapted, h, dfeSet]

/-- In mode 2 the taps alone. -/
theorem adapted_taps {s : State} {n : Nat} (ctle vga : Nat) (dfe : List Nat) (h : s.fld (Reg.LNK_RXEQ_ADAPT n) = 2) :
    adapted s n ctle vga dfe = dfeSet s n dfe := by
  simp [adapted, h, dfeSet]

/-- In modes 1 and 3 nothing. -/
theorem adapted_none {s : State} {n : Nat} (ctle vga : Nat) (dfe : List Nat)
    (h : s.fld (Reg.LNK_RXEQ_ADAPT n) = 1 ∨ s.fld (Reg.LNK_RXEQ_ADAPT n) = 3) : adapted s n ctle vga dfe = s := by
  rcases h with h | h <;> simp [adapted, h]

/-- ADAPT has two bits. -/
theorem adapt_cases (s : State) (n : Nat) :
    s.fld (Reg.LNK_RXEQ_ADAPT n) = 0 ∨ s.fld (Reg.LNK_RXEQ_ADAPT n) = 2 ∨
      s.fld (Reg.LNK_RXEQ_ADAPT n) = 1 ∨ s.fld (Reg.LNK_RXEQ_ADAPT n) = 3 := by
  have h : s.fld (Reg.LNK_RXEQ_ADAPT n) < 2 ^ 2 := wField_lt _ 31 30
  omega

/-- Adaptation keeps to the equalizer's registers. -/
theorem onlyRegs_adapted (s : State) (n ctle vga : Nat) (dfe : List Nat) : OnlyRegs (eqRegs n) s (adapted s n ctle vga dfe) := by
  rcases adapt_cases s n with h | h | h
  · rw [adapted_all _ _ _ h]
    exact (((OnlyRegs.refl _ s).setFld (by simp [eqRegs]) _).setFld (by simp [eqRegs]) _).dfeSet (by simp [eqRegs]) _
  · rw [adapted_taps _ _ _ h]
    exact (OnlyRegs.refl _ s).dfeSet (by simp [eqRegs]) _
  · rw [adapted_none _ _ _ h]
    exact OnlyRegs.refl _ s

/-- In mode 0 the values arrived at show. -/
theorem adapted_shows {s : State} {n ctle vga : Nat} (dfe : List Nat) (hvga : vga < 32) (h : s.fld (Reg.LNK_RXEQ_ADAPT n) = 0) :
    (adapted s n ctle vga dfe).fld (Reg.LNK_RXSTAT_CTLE n) = min ctle 20 ∧
      (adapted s n ctle vga dfe).fld (Reg.LNK_RXSTAT_VGA n) = vga := by
  have htaps (t : State) {f : Fld} (hf : f.off = Reg.LNK_RXSTAT n) : (dfeSet t n dfe).fld f = t.fld f :=
    ((OnlyRegs.refl _ t).dfeSet (List.Subset.refl _) dfe).fld (by simp [hf])
  have hctle : min ctle 20 % 32 = min ctle 20 := Nat.mod_eq_of_lt (by omega)
  rw [adapted_all _ _ _ h, htaps _ rfl, htaps _ rfl]
  simp [hctle, Nat.mod_eq_of_lt hvga]

/-! ### Acquisition ends (R74) -/

/-- CDR lock of a lane on which no negotiation is to begin: READY, adapted. -/
theorem laneReady_locked {s : State} {n : Nat} (ctle vga : Nat) (dfe : List Nat) (hup : s.laneUp n = true) (hm : s.madder n = true)
    (hacq : s.lnkState n = 3) (hbusy : (s.lane n).pllBusy = false) (hstart : (s.lane n).restart = false) :
    laneReady s n ctle vga dfe = adapted (lnkTo s n 4) n ctle vga dfe := by
  have hlane : (adapted (lnkTo s n 4) n ctle vga dfe).lane n = s.lane n := (onlyRegs_adapted _ _ _ _ _).lane n
  simp [laneReady, State.canLock, hup, hm, hacq, hbusy, hlane, hstart]

theorem laneReady_shows {s : State} {n ctle vga : Nat} (dfe : List Nat) (hup : s.laneUp n = true) (hm : s.madder n = true)
    (hacq : s.lnkState n = 3) (hbusy : (s.lane n).pllBusy = false) (hstart : (s.lane n).restart = false) (hvga : vga < 32)
    (hmode : s.fld (Reg.LNK_RXEQ_ADAPT n) = 0) :
    (laneReady s n ctle vga dfe).lnkState n = 4 ∧ (laneReady s n ctle vga dfe).fld (Reg.LNK_RXSTAT_CTLE n) = min ctle 20 ∧
      (laneReady s n ctle vga dfe).fld (Reg.LNK_RXSTAT_VGA n) = vga ∧
      OnlyRegs (Reg.LNK_STAT n :: eqRegs n) s (laneReady s n ctle vga dfe) := by
  have hready : OnlyRegs [Reg.LNK_STAT n] s (lnkTo s n 4) := (OnlyRegs.refl _ s).setFld (by simp) _
  have hadapt := onlyRegs_adapted (lnkTo s n 4) n ctle vga dfe
  obtain ⟨hctle, hvga⟩ := adapted_shows dfe hvga ((hready.fld (by simp)).trans hmode)
  rw [laneReady_locked ctle vga dfe hup hm hacq hbusy hstart]
  refine ⟨?_, hctle, hvga, (hready.mono (by simp)).trans (hadapt.mono (by simp))⟩
  exact (hadapt.fld (by simp [eqRegs])).trans (lnkState_lnkTo s n (by decide))

/-! ### What goes wrong on a lane (R76, R78, R109) -/

/-- A PLL that does not lock. -/
theorem pllTimeout_busy {s : State} {n : Nat} (hup : s.laneUp n = true) (hbusy : (s.lane n).pllBusy = true) :
    pllTimeout s n = laneLine (s.event (Reg.LNK_STAT_PLLERR n)) n := by
  rw [pllTimeout, hup, hbusy]
  rfl

/-- A failed calibration is counted; the third in a row is FAULT. -/
theorem calFail_calibrating {s : State} {n : Nat} (hup : s.laneUp n = true) (hm : s.madder n = true) (hcal : s.lnkState n = 1)
    (hbusy : (s.lane n).pllBusy = false) :
    calFail s n =
      (let t := s.setLane n { s.lane n with calFails := (s.lane n).calFails + 1 }
       if 2 ≤ (s.lane n).calFails then laneLine ((lnkTo t n 7).event (Reg.LNK_STAT_CALERR n)) n else t) := by
  simp [calFail, hup, hm, hcal, hbusy]

/-- What a loss in READY leaves in the lane's registers before its line is raised. -/
def lossShown (s : State) (n : Nat) (f : Fld) (sig : Bool) : State :=
  let t := lnkTo (eyeOff (s.event f) n) n 3
  if sig then t.setFld (Reg.LNK_STAT_SIGDET n) 0 else t

theorem onlyRegs_lossShown (s : State) {n : Nat} {f : Fld} (hf : f.off = Reg.LNK_STAT n) (sig : Bool) :
    OnlyRegs [Reg.LNK_STAT n, Reg.LNK_EYE n] s (lossShown s n f sig) := by
  have hstate : OnlyRegs [Reg.LNK_STAT n, Reg.LNK_EYE n] s (lnkTo (eyeOff (s.event f) n) n 3) :=
    (((OnlyRegs.refl _ s).event (by simp [hf])).wr (by simp) _).setFld (by simp) _
  cases sig
  · exact hstate
  · exact hstate.setFld (by simp) _

/-- Without LOSERR a loss raises no line. -/
theorem lnkLoss_quiet {s : State} {n : Nat} {f : Fld} (hf : f.off = Reg.LNK_STAT n) (sig : Bool)
    (h : s.flag (Reg.LNK_CTL_LOSERR n) = false) : lnkLoss s n f sig = lossShown s n f sig := by
  have hquiet : (lossShown s n f sig).flag (Reg.LNK_CTL_LOSERR n) = false :=
    ((onlyRegs_lossShown s hf sig).flag (by simp)).trans h
  exact if_neg (by simpa [lossShown] using hquiet)

/-- A loss in READY also takes the link down (R109). -/
theorem laneLoss_ready {s : State} {n : Nat} (f : Fld) (sig : Bool) (hup : s.laneUp n = true) (hm : s.madder n = true)
    (hready : s.lnkState n = 4) : laneLoss s n f sig = linkDown (lnkLoss s n f sig) n := by
  simp [laneLoss, State.lossCounts, hup, hm, hready]

/-- A link that is not in RUN has nothing to take down. -/
theorem linkDown_of_ne {s : State} {n : Nat} (h : s.lstate n ≠ 4) : linkDown s n = s := if_neg h

/-- MDR's registers are others than LNK's. -/
theorem OnlyRegs.lstate {s t : State} {n : Nat}
    (h : OnlyRegs [Reg.LNK_TEST n, Reg.LNK_STAT n, Reg.LNK_EYE n, Reg.LNK_PRBSCNT n] s t) : t.lstate n = s.lstate n := by
  refine h.fld (?_ : Reg.MDR_LSTAT n ∉ _)
  unfold Reg.MDR_LSTAT Reg.LNK_TEST Reg.LNK_STAT Reg.LNK_EYE Reg.LNK_PRBSCNT
  simp
  omega

/-- A loss without LOSERR on a lane whose link is not in RUN shows in the lane's registers alone. -/
theorem laneLoss_quiet {s : State} {n : Nat} {f : Fld} (hf : f.off = Reg.LNK_STAT n) (sig : Bool) (hup : s.laneUp n = true)
    (hm : s.madder n = true) (hready : s.lnkState n = 4) (hlink : s.lstate n ≠ 4) (h : s.flag (Reg.LNK_CTL_LOSERR n) = false) :
    laneLoss s n f sig = lossShown s n f sig := by
  rw [laneLoss_ready f sig hup hm hready, lnkLoss_quiet hf sig h]
  have hsame : (lossShown s n f sig).lstate n = s.lstate n := ((onlyRegs_lossShown s hf sig).mono (by simp)).lstate
  exact linkDown_of_ne (by rwa [hsame])

/-- A loss of signal: ACQ, LOS set, no signal, no eye. -/
theorem lossOfSignal_shown (s : State) (n : Nat) :
    (lossShown s n (Reg.LNK_STAT_LOS n) true).lnkState n = 3 ∧
      (lossShown s n (Reg.LNK_STAT_LOS n) true).flag (Reg.LNK_STAT_LOS n) = true ∧
      (lossShown s n (Reg.LNK_STAT_LOS n) true).flag (Reg.LNK_STAT_SIGDET n) = false ∧
      (lossShown s n (Reg.LNK_STAT_LOS n) true).rd (Reg.LNK_EYE n) = 0 := by
  have hset := State.fld_event_same s (Reg.LNK_STAT_LOS n) (by simp [Fld.ok])
  refine ⟨?_, ?_, ?_, ?_⟩
  · simp [lossShown, State.lnkState, lnkTo]
  · simp [lossShown, State.flag, lnkTo, eyeOff, hset]
  · simp [lossShown, State.flag]
  · simp [lossShown, lnkTo, State.rd_setFld_other, rd_eyeOff]

/-- A loss of lock: ACQ, LOL set, no eye. -/
theorem lossOfLock_shown (s : State) (n : Nat) :
    (lossShown s n (Reg.LNK_STAT_LOL n) false).lnkState n = 3 ∧
      (lossShown s n (Reg.LNK_STAT_LOL n) false).flag (Reg.LNK_STAT_LOL n) = true ∧
      (lossShown s n (Reg.LNK_STAT_LOL n) false).rd (Reg.LNK_EYE n) = 0 := by
  have hset := State.fld_event_same s (Reg.LNK_STAT_LOL n) (by simp [Fld.ok])
  refine ⟨lnkState_lnkTo _ _ (by decide), ?_, ?_⟩
  · simp [lossShown, State.flag, lnkTo, eyeOff, hset]
  · simp [lossShown, lnkTo, State.rd_setFld_other, rd_eyeOff]

/-! ### Clock groups (R71, R72) -/

/-- Sixteen bits of a two's complement number are its word. -/
theorem wrapN_toInt (x : BitVec 16) : wrapN 16 x.toInt = x.toNat := by
  have hx := x.isLt
  rw [wrapN, BitVec.toInt_eq_toNat_bmod, Int.bmod_emod]
  omega

/-- A comparison shows that the clock is there, and its deviation. -/
theorem groupMeasure_shows (s : State) (g : Nat) (ppm : BitVec 16) :
    (groupMeasure s g ppm.toInt).flag (Reg.LNK_GRPSTAT_PRESENT g) = true ∧
      (groupMeasure s g ppm.toInt).fld (Reg.LNK_GRPSTAT_PPM g) = ppm.toNat ∧
      OnlyRegs [Reg.LNK_GRPSTAT g] s (groupMeasure s g ppm.toInt) := by
  have hppm : ppm.toNat % 65536 = ppm.toNat := Nat.mod_eq_of_lt ppm.isLt
  refine ⟨?_, ?_, ((OnlyRegs.refl _ s).setFld (by simp) _).setFld (by simp) _⟩
  · simp [groupMeasure, State.flag]
  · simp [groupMeasure, wrapN_toInt, hppm]

/-- Within limits, or in a group whose fault stands, the comparison is recorded alone. -/
theorem groupReport_recorded {s : State} {g : Nat} {ppm : Int}
    (h : (-200 ≤ ppm ∧ ppm ≤ 200) ∨ s.lnk.grpFault.contains g = true) : groupReport s g ppm = groupMeasure s g ppm := by
  refine if_neg ?_
  rcases h with h | h
  · have hin : ppmBad ppm = false := by simp [ppmBad]; omega
    simp [hin]
  · rw [h]
    simp

/-- Beyond them it declares the fault. -/
theorem groupReport_faulty {s : State} {g : Nat} {ppm : Int} (h : ppm < -200 ∨ 200 < ppm)
    (hnew : s.lnk.grpFault.contains g = false) : groupReport s g ppm = clockFault (groupMeasure s g ppm) g := by
  have hout : ppmBad ppm = true := by simpa [ppmBad] using h
  exact if_pos (by rw [hout, hnew]; rfl)

/-- A clock without edges is absent. -/
theorem groupAbsent_shows (s : State) (g : Nat) :
    (s.setFld (Reg.LNK_GRPSTAT_PRESENT g) 0).flag (Reg.LNK_GRPSTAT_PRESENT g) = false ∧
      OnlyRegs [Reg.LNK_GRPSTAT g] s (s.setFld (Reg.LNK_GRPSTAT_PRESENT g) 0) :=
  ⟨by simp [State.flag], (OnlyRegs.refl _ s).setFld (by simp) _⟩

theorem groupSilent_standing {s : State} {g : Nat} (h : s.lnk.grpFault.contains g = true) :
    groupSilent s g = s.setFld (Reg.LNK_GRPSTAT_PRESENT g) 0 := if_pos h

theorem groupSilent_new {s : State} {g : Nat} (h : s.lnk.grpFault.contains g = false) :
    groupSilent s g = clockFault (s.setFld (Reg.LNK_GRPSTAT_PRESENT g) 0) g := if_neg (by rw [h]; decide)

/-! ### The lanes of a group come up again (R72, R74) -/

/-- What bring-up does to a lane that is in use: the PLL starts, CAL, a rate, which is 10.3125 Gb/s for Madder. -/
theorem laneBringUp_used {s : State} {n : Nat} (h : (s.madder n || s.dpLane n) = true) :
    ∃ r, laneBringUp s n = (lnkTo ((eyeOff s n).setLane n { s.lane n with pllBusy := true, calFails := 0 }) n 1).setFld
      (Reg.LNK_STAT_RATE n) r ∧ (s.madder n = true → r = 1) := by
  refine ⟨_, if_neg (by rw [h]; decide), fun hm => if_neg ?_⟩
  have hmode : ((eyeOff s n).setLane n { s.lane n with pllBusy := true, calFails := 0 }).dpLane n = s.dpLane n := by
    rw [State.dpLane, State.lnkMode, State.setLane_fld, eyeOff, fld_wr_other _ _ (by simp)]
    rfl
  rw [hmode, dpLane_of_madder hm]
  decide

theorem laneBringUp_unused {s : State} {n : Nat} (h : (s.madder n || s.dpLane n) = false) : laneBringUp s n = s :=
  if_pos (by rw [h]; rfl)

theorem onlyLanes_laneBringUp {offs : List Nat} {u t : State} (h : OnlyLanes offs u t) {n : Nat} (hstat : Reg.LNK_STAT n ∈ offs)
    (heye : Reg.LNK_EYE n ∈ offs) : OnlyLanes offs u (laneBringUp t n) := by
  cases huse : t.madder n || t.dpLane n
  · rwa [laneBringUp_unused huse]
  · obtain ⟨r, heq, -⟩ := laneBringUp_used huse
    rw [heq]
    exact (((h.wr heye _).setLane _ _).setFld hstat _).setFld hstat _

/-- Bring-up touches no other lane's record. -/
theorem lane_laneBringUp_other (s : State) {n k : Nat} (h : n ≠ k) : (laneBringUp s k).lane n = s.lane n := by
  cases huse : s.madder k || s.dpLane k
  · rw [laneBringUp_unused huse]
  · obtain ⟨r, heq, -⟩ := laneBringUp_used huse
    rw [heq]
    simp [State.lane_setLane_other, h]

/-- The lane is in CAL at 10.3125 Gb/s and its PLL locks. -/
def InBringUp (s : State) (n : Nat) : Prop :=
  s.lnkState n = 1 ∧ s.fld (Reg.LNK_STAT_RATE n) = 1 ∧ (s.lane n).pllBusy = true

theorem inBringUp_laneBringUp {s : State} {n : Nat} (hm : s.madder n = true) : InBringUp (laneBringUp s n) n := by
  obtain ⟨r, heq, hrate⟩ := laneBringUp_used (s := s) (n := n) (by simp [hm])
  rw [heq, hrate hm]
  refine ⟨?_, ?_, ?_⟩
  · simp [State.lnkState, lnkTo]
  · simp
  · simp

/-- What the end of a group clock fault does to one lane of the group: it comes up if it is in CAL. -/
def laneRecover (s : State) (n : Nat) : State := if s.laneUp n && decide (s.lnkState n = 1) then laneBringUp s n else s

theorem groupRecover_ended {s : State} {g : Nat} (hfault : s.lnk.grpFault.contains g = true)
    (hpresent : s.flag (Reg.LNK_GRPSTAT_PRESENT g) = true) (hlo : -200 ≤ s.groupPpm g) (hhi : s.groupPpm g ≤ 200) :
    groupRecover s g =
      (groupLanes g).foldl laneRecover { s with lnk := { s.lnk with grpFault := nsDel s.lnk.grpFault g } } := by
  have hin : ppmBad (s.groupPpm g) = false := by simp [ppmBad]; omega
  exact if_pos (by rw [hfault, hpresent, hin]; rfl)

theorem laneRecover_inCal {s : State} {n : Nat} (hup : s.laneUp n = true) (hcal : s.lnkState n = 1) :
    laneRecover s n = laneBringUp s n := if_pos (by simp [hup, hcal])

theorem laneRecover_notCal {s : State} {n : Nat} (h : s.lnkState n ≠ 1) : laneRecover s n = s := if_neg (by simp [h])

theorem OnlyLanes.laneRecover {offs : List Nat} {u t : State} (h : OnlyLanes offs u t) {n : Nat} (hstat : Reg.LNK_STAT n ∈ offs)
    (heye : Reg.LNK_EYE n ∈ offs) : OnlyLanes offs u (laneRecover t n) := by
  unfold Machine.laneRecover
  split
  · exact onlyLanes_laneBringUp h hstat heye
  · exact h

/-- It leaves the registers of the other lanes, of every lane but LNK_STAT and LNK_EYE, and of the power domains. -/
theorem rd_laneRecover {s : State} {k o : Nat} (hstat : o ≠ Reg.LNK_STAT k) (heye : o ≠ Reg.LNK_EYE k) :
    (laneRecover s k).rd o = s.rd o :=
  ((OnlyLanes.refl [Reg.LNK_STAT k, Reg.LNK_EYE k] s).laneRecover (by simp) (by simp)).2 o (by simp [hstat, heye])

theorem rd_lnkStat_laneRecover_other (s : State) {n k : Nat} (h : n ≠ k) :
    (laneRecover s k).rd (Reg.LNK_STAT n) = s.rd (Reg.LNK_STAT n) :=
  rd_laneRecover (by unfold Reg.LNK_STAT; omega) (by unfold Reg.LNK_STAT Reg.LNK_EYE; omega)

theorem lane_laneRecover_other (s : State) {n k : Nat} (h : n ≠ k) : (laneRecover s k).lane n = s.lane n := by
  unfold laneRecover
  split
  · exact lane_laneBringUp_other s h
  · rfl

theorem madder_laneRecover (s : State) (n k : Nat) : (laneRecover s k).madder n = s.madder n := by
  have hcfg : (laneRecover s k).rd (Reg.LNK_CFG n) = s.rd (Reg.LNK_CFG n) :=
    rd_laneRecover (by unfold Reg.LNK_STAT Reg.LNK_CFG; omega) (by unfold Reg.LNK_EYE Reg.LNK_CFG; omega)
  rw [State.madder, State.lnkMode, State.fld, hcfg]
  rfl

theorem laneUp_laneRecover (s : State) (n : Nat) {k : Nat} (hk : k < 48) : (laneRecover s k).laneUp n = s.laneUp n := by
  have hpd : (laneRecover s k).rd (Reg.RST_PDSTAT ((5 + n) / 32)) = s.rd (Reg.RST_PDSTAT ((5 + n) / 32)) :=
    rd_laneRecover (by unfold Reg.LNK_STAT Reg.RST_PDSTAT; omega) (by unfold Reg.LNK_EYE Reg.RST_PDSTAT; omega)
  rw [State.laneUp, State.up, hpd]
  rfl

theorem lnkState_of_rd {s t : State} {n : Nat} (h : t.rd (Reg.LNK_STAT n) = s.rd (Reg.LNK_STAT n)) : t.lnkState n = s.lnkState n := by
  rw [State.lnkState, State.fld, h, State.lnkState, State.fld]

/-- A lane that is not among those that recover, or not in CAL, is left as it is. -/
theorem foldl_laneRecover_untouched (l : List Nat) {s : State} {n : Nat} (h : n ∉ l ∨ s.lnkState n ≠ 1) :
    (l.foldl laneRecover s).lane n = s.lane n ∧ (l.foldl laneRecover s).rd (Reg.LNK_STAT n) = s.rd (Reg.LNK_STAT n) := by
  induction l generalizing s with
  | nil => exact ⟨rfl, rfl⟩
  | cons k r ih =>
    rw [List.foldl_cons]
    by_cases e : n = k
    · subst e
      have hnot : s.lnkState n ≠ 1 := h.resolve_left (by simp)
      rw [laneRecover_notCal hnot]
      exact ih (.inr hnot)
    · have hstat := rd_lnkStat_laneRecover_other s e
      obtain ⟨hlane', hstat'⟩ := ih (s := laneRecover s k) (by simpa [e, lnkState_of_rd hstat] using h)
      exact ⟨hlane'.trans (lane_laneRecover_other s e), hstat'.trans hstat⟩

/-- Those that are powered Madder lanes in CAL come up; one that has begun to stays so. -/
theorem foldl_laneRecover_inBringUp (l : List Nat) (hl : ∀ k ∈ l, k < 48) {s : State} {n : Nat} (hup : s.laneUp n = true)
    (hm : s.madder n = true) (hcal : s.lnkState n = 1) (h : n ∈ l ∨ InBringUp s n) : InBringUp (l.foldl laneRecover s) n := by
  induction l generalizing s with
  | nil => exact h.resolve_left (by simp)
  | cons k r ih =>
    have hup' := (laneUp_laneRecover s n (hl k (by simp))).trans hup
    have hm' := (madder_laneRecover s n k).trans hm
    rw [List.foldl_cons]
    by_cases e : n = k
    · subst e
      have hnow : InBringUp (laneRecover s n) n := by
        rw [laneRecover_inCal hup hcal]
        exact inBringUp_laneBringUp hm
      exact ih (fun j hj => hl j (by simp [hj])) hup' hm' hnow.1 (.inr hnow)
    · have hstat := rd_lnkStat_laneRecover_other s e
      have hstate := lnkState_of_rd hstat
      have hkept : InBringUp s n → InBringUp (laneRecover s k) n := by
        rintro ⟨-, hrate, hbusy⟩
        exact ⟨hstate.trans hcal, by rw [State.fld, hstat]; exact hrate, by rw [lane_laneRecover_other s e]; exact hbusy⟩
      exact ih (fun j hj => hl j (by simp [hj])) hup' hm' (hstate.trans hcal) ((by simpa [e] using h : n ∈ r ∨ _).imp_right hkept)

theorem mem_groupLanes {n g : Nat} : n ∈ groupLanes g ↔ 12 * g ≤ n ∧ n < 12 * g + 12 := by
  simp only [groupLanes, rangeFrom, List.mem_map, List.mem_range]
  exact ⟨fun ⟨i, hi, he⟩ => by omega, fun h => ⟨n - 12 * g, by omega, by omega⟩⟩

/-- The end of a group's fault. -/
theorem groupRecover_effect {s : State} {g : Nat} (hg : g < 4) (hfault : s.lnk.grpFault.contains g = true)
    (hpresent : s.flag (Reg.LNK_GRPSTAT_PRESENT g) = true) (hlo : -200 ≤ s.groupPpm g) (hhi : s.groupPpm g ≤ 200) :
    (groupRecover s g).lnk.grpFault = nsDel s.lnk.grpFault g ∧ SameMemories s (groupRecover s g) ∧
      (∀ n, 12 * g ≤ n → n < 12 * g + 12 → s.laneUp n = true → s.madder n = true → s.lnkState n = 1 →
        InBringUp (groupRecover s g) n) ∧
      (∀ n, ¬(12 * g ≤ n ∧ n < 12 * g + 12) ∨ s.lnkState n ≠ 1 →
        (groupRecover s g).lane n = s.lane n ∧ (groupRecover s g).rd (Reg.LNK_STAT n) = s.rd (Reg.LNK_STAT n)) ∧
      RegsBut ((groupLanes g).map Reg.LNK_STAT ++ (groupLanes g).map Reg.LNK_EYE) s (groupRecover s g) := by
  rw [groupRecover_ended hfault hpresent hlo hhi]
  have hlanes := (OnlyLanes.refl ((groupLanes g).map Reg.LNK_STAT ++ (groupLanes g).map Reg.LNK_EYE)
    { s with lnk := { s.lnk with grpFault := nsDel s.lnk.grpFault g } }).foldl (f := laneRecover) fun t k hk ht =>
      ht.laneRecover (List.mem_append_left _ (List.mem_map_of_mem hk)) (List.mem_append_right _ (List.mem_map_of_mem hk))
  have hbound : ∀ k ∈ groupLanes g, k < 48 := fun k hk => by have := mem_groupLanes.1 hk; omega
  refine ⟨hlanes.grpFault, hlanes.sameMemories, fun n hge hlt hup hm hcal => ?_, fun n hn => ?_, hlanes.2⟩
  · exact foldl_laneRecover_inBringUp _ hbound hup hm hcal (.inl (mem_groupLanes.2 ⟨hge, hlt⟩))
  · exact foldl_laneRecover_untouched _ (hn.imp_left fun hout hin => hout (mem_groupLanes.1 hin))

/-! ### The commands of O18 -/

/-- Settles O18: a lane that comes up, what goes wrong on a lane, the clock groups. -/
theorem lanesAndClocks : Obligations.LanesAndClocks := by
  refine ⟨fun n s hup hm => ⟨fun hbusy hgrp => ?_, fun hcal hbusy => ?_, fun hidle => ?_,
      fun ctle vga dfe hacq hbusy hstart hmode => ?_, fun hst => ?_⟩,
    fun n s hup => ⟨fun hbusy => ?_, fun hm hcal hbusy => ?_, fun hm hready hlink hquiet => ⟨?_, ?_⟩, fun hm hready => ⟨?_, ?_⟩⟩,
    fun g s => ⟨fun ppm h => ?_, fun ppm h hnew => ?_, fun h => ?_, fun h => ?_, fun hfault hpresent hlo hhi => ?_⟩⟩
  · exact ⟨_, congrArg Host.Outcome.next (pllLock_of_madder (s := s.eventCycle) hup hm hbusy hgrp), rfl⟩
  · refine ⟨_, congrArg Host.Outcome.next (calDone_calibrating (s := s.eventCycle) hup hm hcal hbusy), ?_⟩
    exact ⟨lnkState_lnkTo _ _ (by decide), (OnlyRegs.refl _ _).setFld (by simp) _⟩
  · exact ⟨_, rfl, signalDetect_acquires (s := s.eventCycle) hup hm hidle⟩
  · exact ⟨_, rfl, laneReady_shows (s := s.eventCycle) _ hup hm hacq hbusy hstart vga.isLt hmode⟩
  · obtain ⟨hstate, hrate, hbusy, heye⟩ := lnkRate_shows (s := s.eventCycle) (s.wantedRate n) hup hm hst
    have hlanes := onlyLanes_lnkRate s.eventCycle n (s.wantedRate n)
    exact ⟨_, rfl, hstate, hrate, hbusy, heye, hlanes.2, hlanes.sameMemories⟩
  · exact ⟨_, congrArg Host.Outcome.next (pllTimeout_busy (s := s.eventCycle) hup hbusy), rfl⟩
  · exact ⟨_, congrArg Host.Outcome.next (calFail_calibrating (s := s.eventCycle) hup hm hcal hbusy), rfl⟩
  · refine ⟨_, congrArg Host.Outcome.next (laneLoss_quiet (s := s.eventCycle) rfl true hup hm hready hlink hquiet), ?_⟩
    obtain ⟨hstate, hlos, hsig, heye⟩ := lossOfSignal_shown s.eventCycle n
    exact ⟨hstate, hlos, hsig, heye, onlyRegs_lossShown _ rfl _⟩
  · refine ⟨_, congrArg Host.Outcome.next (laneLoss_quiet (s := s.eventCycle) rfl false hup hm hready hlink hquiet), ?_⟩
    obtain ⟨hstate, hlol, heye⟩ := lossOfLock_shown s.eventCycle n
    exact ⟨hstate, hlol, heye, onlyRegs_lossShown _ rfl _⟩
  · exact ⟨_, congrArg Host.Outcome.next (laneLoss_ready (s := s.eventCycle) _ true hup hm hready), rfl⟩
  · exact ⟨_, congrArg Host.Outcome.next (laneLoss_ready (s := s.eventCycle) _ false hup hm hready), rfl⟩
  · exact ⟨_, congrArg Host.Outcome.next (groupReport_recorded (s := s.eventCycle) h), groupMeasure_shows _ g ppm⟩
  · exact ⟨_, congrArg Host.Outcome.next (groupReport_faulty (s := s.eventCycle) h hnew), rfl⟩
  · exact ⟨_, congrArg Host.Outcome.next (groupSilent_standing (s := s.eventCycle) h), groupAbsent_shows _ g⟩
  · exact ⟨_, congrArg Host.Outcome.next (groupSilent_new (s := s.eventCycle) h), rfl⟩
  · exact ⟨_, rfl, groupRecover_effect (s := s.eventCycle) g.isLt hfault hpresent hlo hhi⟩

end Sys2Proof.Machine
end

section
/-! SUPPORT. The receive side, test mode and the DisplayPort lanes (O19). -/
namespace Sys2Proof.Machine

/-! ### Adaptation in READY, the eye monitor (R82, R83) -/

/-- A write that asks for adaptation in READY: READAPT beside the bits written. -/
theorem lnkCtlWrite_readapt {s : State} {n : Nat} (hn : n < 48) {v : Word} (hup : s.laneUp n = true) (hready : s.lnkState n = 4)
    (hv : v.getLsbD 2 = true) :
    lnkCtlWrite s n v = ((s.setFlag (Reg.LNK_CTL_TXSQ n) (v.getLsbD 0)).setFlag (Reg.LNK_CTL_LOSERR n) (v.getLsbD 1)).setFld
      (Reg.LNK_CTL_READAPT n) 1 := by
  have hctl : OnlyRegs [Reg.LNK_CTL n] s
      ((s.setFlag (Reg.LNK_CTL_TXSQ n) (v.getLsbD 0)).setFlag (Reg.LNK_CTL_LOSERR n) (v.getLsbD 1)) :=
    ((OnlyRegs.refl _ s).setFld (by simp) _).setFld (by simp) _
  have hup' := (hctl.laneUp (by simp [Reg.LNK_CTL, Reg.RST_PDSTAT]; omega) n).trans hup
  have hready' : State.lnkState _ n = 4 := (hctl.fld (by simp)).trans hready
  exact if_pos (by rw [hv, hup', hready']; rfl)

/-- Adaptation that was asked for in READY is done. -/
theorem readaptDone_ready {s : State} {n : Nat} (ctle vga : Nat) (dfe : List Nat) (hup : s.laneUp n = true)
    (hready : s.lnkState n = 4) (hask : s.flag (Reg.LNK_CTL_READAPT n) = true) :
    readaptDone s n ctle vga dfe = (adapted s n ctle vga dfe).setFld (Reg.LNK_CTL_READAPT n) 0 :=
  if_pos (by rw [hup, hready, hask]; rfl)

/-- The write that READAPT makes sets it and writes the other bits of LNK_CTL as they were. -/
theorem lnkCtlWrite_asks {s : State} {n : Nat} (hn : n < 48) (hup : s.laneUp n = true) (hready : s.lnkState n = 4) :
    let u := lnkCtlWrite s n (s.rd (Reg.LNK_CTL n) ||| 4)
    u.flag (Reg.LNK_CTL_READAPT n) = true ∧ u.flag (Reg.LNK_CTL_TXSQ n) = s.flag (Reg.LNK_CTL_TXSQ n) ∧
      OnlyRegs [Reg.LNK_CTL n] s u := by
  have hbit : (s.rd (Reg.LNK_CTL n) ||| 4).getLsbD 0 = s.flag (Reg.LNK_CTL_TXSQ n) := by
    rw [flag_eq_getLsbD]
    simp
  rw [lnkCtlWrite_readapt hn hup hready (by simp), hbit]
  refine ⟨by simp [State.flag], ?_, (((OnlyRegs.refl _ s).setFld (by simp) _).setFld (by simp) _).setFld (by simp) _⟩
  refine Eq.trans ?_ (State.flag_setFlag_same s (Reg.LNK_CTL_TXSQ n) (s.flag (Reg.LNK_CTL_TXSQ n)) (by simp [Fld.ok]))
  simp [State.flag, State.setFlag]

/-- READAPT is set, adaptation runs, READAPT clears; the other bits of LNK_CTL are written as they were. -/
theorem readapt_shows {s : State} {n ctle vga : Nat} (hn : n < 48) (dfe : List Nat) (hup : s.laneUp n = true)
    (hready : s.lnkState n = 4) (hvga : vga < 32) (hmode : s.fld (Reg.LNK_RXEQ_ADAPT n) = 0) :
    let t := readaptDone (lnkCtlWrite s n (s.rd (Reg.LNK_CTL n) ||| 4)) n ctle vga dfe
    t.flag (Reg.LNK_CTL_READAPT n) = false ∧ t.flag (Reg.LNK_CTL_TXSQ n) = s.flag (Reg.LNK_CTL_TXSQ n) ∧
      t.fld (Reg.LNK_RXSTAT_CTLE n) = min ctle 20 ∧ t.fld (Reg.LNK_RXSTAT_VGA n) = vga ∧
      OnlyRegs (Reg.LNK_CTL n :: eqRegs n) s t := by
  obtain ⟨hask, htxsq, hctl⟩ := lnkCtlWrite_asks hn hup hready
  generalize lnkCtlWrite s n (s.rd (Reg.LNK_CTL n) ||| 4) = u at hask htxsq hctl ⊢
  have hadapt := onlyRegs_adapted u n ctle vga dfe
  obtain ⟨hctle, hgain⟩ := adapted_shows dfe hvga ((hctl.fld (by simp)).trans hmode)
  have hup' := (hctl.laneUp (by simp [Reg.LNK_CTL, Reg.RST_PDSTAT]; omega) n).trans hup
  rw [readaptDone_ready ctle vga dfe hup' ((hctl.fld (by simp)).trans hready) hask]
  refine ⟨by simp [State.flag], ?_, by simpa using hctle, by simpa using hgain, ?_⟩
  · rw [← htxsq, ← hadapt.flag (by simp [eqRegs])]
    simp [State.flag]
  · exact ((hctl.mono (by simp)).trans (hadapt.mono (by simp))).setFld (by simp) _

/-- In READY adaptation goes on. -/
theorem adaptStep_ready {s : State} {n : Nat} (ctle vga : Nat) (dfe : List Nat) (hup : s.laneUp n = true)
    (hready : s.lnkState n = 4) : adaptStep s n ctle vga dfe = adapted s n ctle vga dfe := if_pos (by rw [hup, hready]; rfl)

/-- In READY the eye monitor's values are shown. -/
theorem eyeUpdate_ready {s : State} {n : Nat} (h w eye snr : Nat) (hup : s.laneUp n = true) (hready : s.lnkState n = 4) :
    eyeUpdate s n h w eye snr =
      (((s.setFld (Reg.LNK_EYE_HEIGHT n) h).setFld (Reg.LNK_EYE_WIDTH n) w).setFld (Reg.LNK_EYE_EYE n) eye).setFld
        (Reg.LNK_EYE_SNR n) snr := if_pos (by rw [hup, hready]; rfl)

theorem eyeUpdate_shows {s : State} {n h w eye snr : Nat} (hup : s.laneUp n = true) (hready : s.lnkState n = 4) (hh : h < 256)
    (hw : w < 256) (heye : eye < 4) (hsnr : snr < 1024) :
    let t := eyeUpdate s n h w eye snr
    t.fld (Reg.LNK_EYE_HEIGHT n) = h ∧ t.fld (Reg.LNK_EYE_WIDTH n) = w ∧ t.fld (Reg.LNK_EYE_EYE n) = eye ∧
      t.fld (Reg.LNK_EYE_SNR n) = snr ∧ OnlyRegs [Reg.LNK_EYE n] s t := by
  rw [eyeUpdate_ready h w eye snr hup hready]
  refine ⟨?_, ?_, ?_, ?_, ((((OnlyRegs.refl _ s).setFld (by simp) _).setFld (by simp) _).setFld (by simp) _).setFld (by simp) _⟩
  · simp [Nat.mod_eq_of_lt hh]
  · simp [Nat.mod_eq_of_lt hw]
  · simp [Nat.mod_eq_of_lt heye]
  · simp [Nat.mod_eq_of_lt hsnr]

/-- What EYE_UPDATE leaves of the equalizer, as far as the mode lets adaptation go on. -/
theorem eyeUpdate_adaptStep_shows {s : State} {n h w eye snr ctle vga : Nat} (dfe : List Nat) (hn : n < 48) (hup : s.laneUp n = true)
    (hready : s.lnkState n = 4) (hh : h < 256) (hw : w < 256) (heye : eye < 4) (hsnr : snr < 1024) (hvga : vga < 32) :
    let t := eyeUpdate (adaptStep s n ctle vga dfe) n h w eye snr
    t.fld (Reg.LNK_EYE_HEIGHT n) = h ∧ t.fld (Reg.LNK_EYE_WIDTH n) = w ∧ t.fld (Reg.LNK_EYE_EYE n) = eye ∧
      t.fld (Reg.LNK_EYE_SNR n) = snr ∧
      (s.fld (Reg.LNK_RXEQ_ADAPT n) = 0 →
        t.fld (Reg.LNK_RXSTAT_CTLE n) = min ctle 20 ∧ t.fld (Reg.LNK_RXSTAT_VGA n) = vga) ∧
      (s.fld (Reg.LNK_RXEQ_ADAPT n) = 0 ∨ s.fld (Reg.LNK_RXEQ_ADAPT n) = 2 → OnlyRegs (Reg.LNK_EYE n :: eqRegs n) s t) ∧
      (s.fld (Reg.LNK_RXEQ_ADAPT n) ≠ 0 → t.rd (Reg.LNK_RXSTAT n) = s.rd (Reg.LNK_RXSTAT n)) ∧
      (s.fld (Reg.LNK_RXEQ_ADAPT n) = 1 ∨ s.fld (Reg.LNK_RXEQ_ADAPT n) = 3 → OnlyRegs [Reg.LNK_EYE n] s t) := by
  have hadapt := onlyRegs_adapted s n ctle vga dfe
  have hup' : (adapted s n ctle vga dfe).laneUp n = true :=
    (hadapt.laneUp (by simp [eqRegs, Reg.RST_PDSTAT, Reg.LNK_RXSTAT, Reg.LNK_DFE0, Reg.LNK_DFE1, Reg.LNK_DFE2]; omega) n).trans hup
  obtain ⟨hheight, hwidth, hclass, hnoise, hmonitor⟩ :=
    eyeUpdate_shows hup' ((hadapt.fld (by simp [eqRegs])).trans hready) hh hw heye hsnr
  rw [adaptStep_ready ctle vga dfe hup hready]
  refine ⟨hheight, hwidth, hclass, hnoise, fun hmode => ?_, fun _ => ?_, fun hmode => ?_, fun hmode => ?_⟩
  · obtain ⟨hctle, hgain⟩ := adapted_shows dfe hvga hmode
    exact ⟨(hmonitor.fld (by simp)).trans hctle, (hmonitor.fld (by simp)).trans hgain⟩
  · exact (hadapt.mono (by simp)).trans (hmonitor.mono (by simp))
  · rw [hmonitor.2 _ (by simp)]
    rcases (adapt_cases s n).resolve_left hmode with hmode | hmode
    · rw [adapted_taps _ _ _ hmode]
      exact ((OnlyRegs.refl _ s).dfeSet (List.Subset.refl _) dfe).2 _ (by simp)
    · rw [adapted_none _ _ _ hmode]
  · rw [adapted_none _ _ _ hmode] at hmonitor ⊢
    exact hmonitor

/-! ### Test mode (R84, R85) -/

/-- What every write of LNK_TEST leaves in it, and in the checker's SYNC when CHK is off (log 45). -/
def testHeld (s : State) (n : Nat) (v : Word) : State :=
  let t := s.wr (Reg.LNK_TEST n) (v &&& BitVec.ofNat 32 RegTab.row_LNK_TEST.rw)
  if v.getLsbD 4 then t else t.setFld (Reg.LNK_PRBSCNT_SYNC n) 0

theorem onlyRegs_testHeld (s : State) (n : Nat) (v : Word) :
    OnlyRegs [Reg.LNK_TEST n, Reg.LNK_PRBSCNT n] s (testHeld s n v) := by
  have hwrite : OnlyRegs [Reg.LNK_TEST n, Reg.LNK_PRBSCNT n] s
      (s.wr (Reg.LNK_TEST n) (v &&& BitVec.ofNat 32 RegTab.row_LNK_TEST.rw)) := (OnlyRegs.refl _ s).wr (by simp) _
  unfold testHeld
  split
  · exact hwrite
  · exact hwrite.setFld (by simp) _

theorem rd_testHeld (s : State) (n : Nat) (v : Word) :
    (testHeld s n v).rd (Reg.LNK_TEST n) = v &&& BitVec.ofNat 32 RegTab.row_LNK_TEST.rw := by
  unfold testHeld
  split
  · exact State.rd_wr_same _ _ _
  · rw [State.rd_setFld_other _ _ _ _ (by simp)]
    exact State.rd_wr_same _ _ _

/-- Without CHK the checker is out of step. -/
theorem sync_testHeld {s : State} {n : Nat} {v : Word} (h : v.getLsbD 4 = false) :
    (testHeld s n v).flag (Reg.LNK_PRBSCNT_SYNC n) = false := by
  rw [testHeld, h]
  simp [State.flag]

/-- What follows the write on a lane that is no DisplayPort lane. -/
theorem testWrite_of_mode {s : State} {n : Nat} (v : Word) (h : s.lnkMode n ≠ 2) :
    testWrite s n v =
      (let t := testHeld s n v
       if !(t.laneUp n && t.madder n) || decide (t.lnkState n = 0) || decide (t.lnkState n = 7) then t
       else if testSet v then (lnkTo (eyeOff t n) n 5).setFld (Reg.LNK_STAT_RATE n) (testRate v)
       else if t.lnkState n = 5 then ((lnkTo t n 2).setFld (Reg.LNK_STAT_RATE n) 1).setLane n
         { t.lane n with restart := true, pllBusy := false }
       else t) := if_neg h

/-- On a powered Madder lane in use and not in FAULT: TEST at the test rate, the return to IDLE at 10.3125 Gb/s, or neither
(log 45 for the rate at once and the end of locking). -/
theorem testWrite_madder {s : State} {n : Nat} (v : Word) (hn : n < 48) (hup : s.laneUp n = true) (hm : s.madder n = true)
    (hoff : s.lnkState n ≠ 0) (hfault : s.lnkState n ≠ 7) :
    testWrite s n v =
      if testSet v then (lnkTo (eyeOff (testHeld s n v) n) n 5).setFld (Reg.LNK_STAT_RATE n) (testRate v)
      else if s.lnkState n = 5 then ((lnkTo (testHeld s n v) n 2).setFld (Reg.LNK_STAT_RATE n) 1).setLane n
        { s.lane n with restart := true, pllBusy := false }
      else testHeld s n v := by
  have hheld := onlyRegs_testHeld s n v
  have hup' := (hheld.laneUp (by simp [Reg.RST_PDSTAT, Reg.LNK_TEST, Reg.LNK_PRBSCNT]; omega) n).trans hup
  have hstate : (testHeld s n v).lnkState n = s.lnkState n := hheld.fld (by simp)
  have hmode : (testHeld s n v).lnkMode n = s.lnkMode n := hheld.fld (by simp)
  have hm' : (testHeld s n v).madder n = true := by rwa [State.madder, hmode]
  rw [testWrite_of_mode v (by simp_all [State.madder])]
  simp [hup', hm', hstate, hoff, hfault, hheld.lane n]

/-- The test rate is a rate code. -/
theorem testRate_lt (v : Word) : testRate v < 8 := by
  have h : wField v 10 8 < 2 ^ 3 := wField_lt _ 10 8
  unfold testRate
  dsimp only
  split <;> omega

/-- A lane in TEST at rate `r`. -/
theorem onlyRegs_enterTest (s : State) (n : Nat) (v : Word) (r : Nat) :
    OnlyRegs [Reg.LNK_TEST n, Reg.LNK_STAT n, Reg.LNK_EYE n, Reg.LNK_PRBSCNT n] s
      ((lnkTo (eyeOff (testHeld s n v) n) n 5).setFld (Reg.LNK_STAT_RATE n) r) :=
  ((((onlyRegs_testHeld s n v).mono (by simp)).wr (by simp) _).setFld (by simp) _).setFld (by simp) _

/-- LOOP, GEN or CHK takes a lane whose link is down to TEST at the test rate. -/
theorem testModeWrite_enters {s : State} {n : Nat} {v : Word} (hn : n < 48) (hup : s.laneUp n = true) (hm : s.madder n = true)
    (hoff : s.lnkState n ≠ 0) (hfault : s.lnkState n ≠ 7) (hlink : s.lstate n ≠ 4) (hset : testSet v = true) :
    testModeWrite s n v = (lnkTo (eyeOff (testHeld s n v) n) n 5).setFld (Reg.LNK_STAT_RATE n) (testRate v) := by
  have hwrite : testWrite s n v = _ := (testWrite_madder v hn hup hm hoff hfault).trans (if_pos hset)
  have hdown : ((lnkTo (eyeOff (testHeld s n v) n) n 5).setFld (Reg.LNK_STAT_RATE n) (testRate v)).lstate n ≠ 4 := by
    rwa [(onlyRegs_enterTest s n v _).lstate]
  rw [testModeWrite, hwrite]
  simp only [linkDown_of_ne hdown, ite_self]

theorem testModeEnter_shows {s : State} {n : Nat} {v : Word} (hn : n < 48) (hup : s.laneUp n = true) (hm : s.madder n = true)
    (hoff : s.lnkState n ≠ 0) (hfault : s.lnkState n ≠ 7) (hlink : s.lstate n ≠ 4) (hset : testSet v = true) :
    let t := testModeWrite s n v
    t.lnkState n = 5 ∧ t.fld (Reg.LNK_STAT_RATE n) = testRate v ∧
      t.rd (Reg.LNK_TEST n) = v &&& BitVec.ofNat 32 RegTab.row_LNK_TEST.rw ∧
      OnlyRegs [Reg.LNK_TEST n, Reg.LNK_STAT n, Reg.LNK_EYE n, Reg.LNK_PRBSCNT n] s t := by
  rw [testModeWrite_enters hn hup hm hoff hfault hlink hset]
  refine ⟨?_, ?_, ?_, onlyRegs_enterTest s n v _⟩
  · simp [State.lnkState, lnkTo]
  · simp [Nat.mod_eq_of_lt (testRate_lt v)]
  · rw [State.rd_setFld_other _ _ _ _ (by simp), lnkTo, State.rd_setFld_other _ _ _ _ (by simp), eyeOff,
      State.rd_wr_other _ _ _ _ (by simp), rd_testHeld]

/-- A field all of whose bits are 0. -/
theorem wField_eq_zero {w : Word} {hi lo : Nat} (h : ∀ i, lo ≤ i → i ≤ hi → w.getLsbD i = false) : wField w hi lo = 0 := by
  apply Nat.eq_of_testBit_eq
  intro i
  rw [wField, bitsOf, Nat.testBit_mod_two_pow, Nat.testBit_shiftRight, Nat.zero_testBit, Bool.and_eq_false_imp]
  intro hi'
  exact h (lo + i) (by omega) (by have := of_decide_eq_true hi'; omega)

/-- A write without LOOP, GEN and CHK asks for no test, and switches the checker off. -/
theorem testSet_clear (v : Word) : testSet (v &&& ~~~testBits) = false ∧ (v &&& ~~~testBits).getLsbD 4 = false := by
  have hbits : ∀ i, 4 ≤ i → i ≤ 7 → (v &&& ~~~testBits).getLsbD i = false := by
    intro i hlo hhi
    have hset : ∀ i, i < 8 → 4 ≤ i → testBits.getLsbD i = true := by decide
    rw [BitVec.getLsbD_and, BitVec.getLsbD_not, hset i (by omega) hlo, Bool.not_true, Bool.and_false, Bool.and_false]
  have hloop : wField (v &&& ~~~testBits) 7 6 = 0 := wField_eq_zero fun i hlo hhi => hbits i (by omega) hhi
  refine ⟨?_, hbits 4 (by decide) (by decide)⟩
  rw [testSet, hbits 5 (by decide) (by decide), hbits 4 (by decide) (by decide), hloop]
  decide

/-- Clearing them returns the lane to IDLE at 10.3125 Gb/s, where negotiation begins anew. -/
theorem testModeWrite_leaves {s : State} {n : Nat} {v : Word} (hn : n < 48) (hup : s.laneUp n = true) (hm : s.madder n = true)
    (htest : s.lnkState n = 5) (hclear : testSet v = false) :
    testModeWrite s n v = ((lnkTo (testHeld s n v) n 2).setFld (Reg.LNK_STAT_RATE n) 1).setLane n
        { s.lane n with restart := true, pllBusy := false } := by
  have hwrite := testWrite_madder v hn hup hm (by omega) (by omega)
  simp only [hclear, htest] at hwrite
  rw [testModeWrite, htest]
  exact (if_neg (by simp)).trans hwrite

theorem testModeExit_shows {s : State} {n : Nat} {v : Word} (hn : n < 48) (hup : s.laneUp n = true) (hm : s.madder n = true)
    (htest : s.lnkState n = 5) :
    let t := testModeWrite s n (v &&& ~~~testBits)
    t.lnkState n = 2 ∧ t.fld (Reg.LNK_STAT_RATE n) = 1 ∧ t.flag (Reg.LNK_PRBSCNT_SYNC n) = false ∧
      OnlyRegs [Reg.LNK_TEST n, Reg.LNK_STAT n, Reg.LNK_PRBSCNT n]
        (s.setLane n { s.lane n with restart := true, pllBusy := false }) t := by
  obtain ⟨hclear, hchk⟩ := testSet_clear v
  rw [testModeWrite_leaves hn hup hm htest hclear]
  have hheld : OnlyRegs [Reg.LNK_TEST n, Reg.LNK_STAT n, Reg.LNK_PRBSCNT n] s (testHeld s n (v &&& ~~~testBits)) :=
    (onlyRegs_testHeld s n _).mono (by simp)
  refine ⟨?_, ?_, ?_, ((hheld.setFld (by simp) _).setFld (by simp) _).setLane n _⟩
  · simp [State.lnkState, lnkTo]
  · simp
  · rw [← sync_testHeld (s := s) (n := n) hchk]
    simp [State.flag, lnkTo]

/-- The checker in TEST counts errors while it was in step, then shows whether it is. -/
theorem checkerSync_shows {s : State} {n : Nat} (sync : Bool) (errs : Nat) (hup : s.laneUp n = true) (htest : s.lnkState n = 5)
    (hchk : s.flag (Reg.LNK_TEST_CHK n) = true) :
    let t := checkerSync s n sync errs
    t.flag (Reg.LNK_PRBSCNT_SYNC n) = sync ∧
      t.fld (Reg.LNK_PRBSCNT_ERR n) = (if s.flag (Reg.LNK_PRBSCNT_SYNC n) then satAdd 31 (s.fld (Reg.LNK_PRBSCNT_ERR n)) errs
        else s.fld (Reg.LNK_PRBSCNT_ERR n)) ∧ OnlyRegs [Reg.LNK_PRBSCNT n] s t := by
  have heq : checkerSync s n sync errs =
      (if s.flag (Reg.LNK_PRBSCNT_SYNC n) then s.count (Reg.LNK_PRBSCNT_ERR n) errs else s).setFlag (Reg.LNK_PRBSCNT_SYNC n) sync :=
    if_pos (by rw [hup, htest, hchk]; rfl)
  rw [heq]
  refine ⟨State.flag_setFlag_same _ _ _ (by simp [Fld.ok]), ?_, ?_⟩
  · rw [State.setFlag, fld_setFld_disjoint _ _ (by simp) (by simp) (by simp) (by simp) (by simp)]
    split
    · exact State.fld_count_same _ _ _ (by simp [Fld.ok])
    · rfl
  · split
    · exact ((OnlyRegs.refl _ s).count (by simp) _).setFld (by simp) _
    · exact (OnlyRegs.refl _ s).setFld (by simp) _

/-! ### DisplayPort lanes (R87, R88) -/

/-- While SRV trains a write of LNK_DP is discarded. -/
theorem dpDriveWrite_training {s : State} {n : Nat} (v : Word) (hdp : s.dpLane n = true) (htrain : s.dpTraining = true) :
    (if s.dpTraining && s.dpLane n then s else dpWrite s n v) = s := if_pos (by rw [htrain, hdp]; rfl)

theorem dpDriveWrite_served {s : State} (n : Nat) (v : Word) (htrain : s.dpTraining = false) :
    (if s.dpTraining && s.dpLane n then s else dpWrite s n v) = dpWrite s n v := if_neg (by rw [htrain]; simp)

theorem ge_of_dpLane {s : State} {n : Nat} (h : s.dpLane n = true) : 46 ≤ n := (of_decide_eq_true h).2

/-- LNK_DP takes the drive settings; a new rate in DP starts the PLL. -/
theorem dpWrite_dpLane {s : State} {n : Nat} (v : Word) (hdp : s.dpLane n = true) (hst : s.lnkState n = 6) :
    let t := s.wr (Reg.LNK_DP n) (v &&& BitVec.ofNat 32 RegTab.row_LNK_DP.rw)
    dpWrite s n v = if t.fld (Reg.LNK_DP_RATE n) ≠ s.fld (Reg.LNK_DP_RATE n)
      then t.setLane n { s.lane n with pllBusy := true } else t := by
  have hmode : (s.wr (Reg.LNK_DP n) (v &&& BitVec.ofNat 32 RegTab.row_LNK_DP.rw)).dpLane n = true := by
    rwa [State.dpLane, State.lnkMode, fld_wr_other _ _ (by simp)]
  have hstate : (s.wr (Reg.LNK_DP n) (v &&& BitVec.ofNat 32 RegTab.row_LNK_DP.rw)).lnkState n = 6 := by
    rwa [State.lnkState, fld_wr_other _ _ (by simp)]
  have hge := ge_of_dpLane hdp
  simp [dpWrite, show ¬ n < 46 by omega, hmode, hstate]

theorem dpWrite_shows {s : State} {n : Nat} (v : Word) (hdp : s.dpLane n = true) (hst : s.lnkState n = 6) :
    let t := dpWrite s n v
    t.rd (Reg.LNK_DP n) = v &&& BitVec.ofNat 32 RegTab.row_LNK_DP.rw ∧
      (t.fld (Reg.LNK_DP_RATE n) = s.fld (Reg.LNK_DP_RATE n) → OnlyRegs [Reg.LNK_DP n] s t) ∧
      (t.fld (Reg.LNK_DP_RATE n) ≠ s.fld (Reg.LNK_DP_RATE n) →
        OnlyRegs [Reg.LNK_DP n] (s.setLane n { s.lane n with pllBusy := true }) t) := by
  have hheld : OnlyRegs [Reg.LNK_DP n] s (s.wr (Reg.LNK_DP n) (v &&& BitVec.ofNat 32 RegTab.row_LNK_DP.rw)) :=
    (OnlyRegs.refl _ s).wr (by simp) _
  rw [dpWrite_dpLane v hdp hst]
  split
  next hnew => exact ⟨by simp, fun hold => absurd hold (by simpa using hnew), fun _ => hheld.setLane n _⟩
  next hold => exact ⟨by simp, fun _ => hheld, fun hnew => absurd hnew hold⟩

/-- The PLL locks at the rate asked for. -/
theorem dpRelock_shows {s : State} {n : Nat} (hup : s.laneUp n = true) (hdp : s.dpLane n = true) (hst : s.lnkState n = 6)
    (hbusy : (s.lane n).pllBusy = true) :
    let t := dpRelock s n
    t.fld (Reg.LNK_STAT_RATE n) = 6 + s.fld (Reg.LNK_DP_RATE n) ∧
      OnlyRegs [Reg.LNK_STAT n] (s.setLane n { s.lane n with pllBusy := false }) t := by
  have heq : dpRelock s n =
      (s.setLane n { s.lane n with pllBusy := false }).setFld (Reg.LNK_STAT_RATE n) (6 + s.fld (Reg.LNK_DP_RATE n)) :=
    if_pos (by rw [hup, hdp, hst, hbusy]; rfl)
  have hrate : s.fld (Reg.LNK_DP_RATE n) < 2 ^ 1 := wField_lt _ 0 0
  rw [heq]
  refine ⟨?_, (OnlyRegs.refl _ _).setFld (by simp) _⟩
  simp
  omega

/-! ### The commands of O19 -/

/-- Settles O19: the receive side in READY, test mode, the DisplayPort lanes. -/
theorem receiversAndTests : Obligations.ReceiversAndTests := by
  refine ⟨fun n s hup hready => ⟨fun who ctle vga dfe hs hmode => ?_, fun h w eye snr ctle vga dfe => ?_⟩,
    fun n s => ⟨fun who v hs hup hm hoff hfault hlink hset => ?_, fun who v hs hup hm htest => ?_,
      fun sync errs hup htest hchk => ?_, fun on => ?_⟩,
    fun n s hdp hst => ⟨fun who v hs htrain => ?_, fun who v hs htrain => ?_, fun hup hbusy => ?_⟩⟩
  · refine completesIn_served rfl rfl hs fun c => ?_
    obtain ⟨hdone, htxsq, hctle, hgain, hregs⟩ :=
      readapt_shows (s := { s with cyc := c }) n.isLt (dfe.map BitVec.toNat) hup hready vga.isLt hmode
    exact ⟨hdone, htxsq, hctle, hgain, hregs.answer _ _ _⟩
  · exact ⟨_, rfl, eyeUpdate_adaptStep_shows (s := s.eventCycle) _ n.isLt hup hready h.isLt w.isLt eye.isLt snr.isLt vga.isLt⟩
  · refine completesIn_served rfl rfl hs fun c => ?_
    obtain ⟨hstate, hrate, hword, hregs⟩ :=
      testModeEnter_shows (s := { s with cyc := c }) n.isLt hup hm hoff hfault hlink hset
    exact ⟨hstate, hrate, hword, hregs.answer _ _ _⟩
  · refine completesIn_served rfl rfl hs fun c => ?_
    obtain ⟨hstate, hrate, hsync, hregs⟩ := testModeExit_shows (s := { s with cyc := c }) (v := v) n.isLt hup hm htest
    exact ⟨hstate, hrate, hsync, hregs.answer _ _ _⟩
  · exact ⟨_, rfl, checkerSync_shows (s := s.eventCycle) sync errs hup htest hchk⟩
  · exact ⟨_, rfl, rfl⟩
  · exact completesIn_served rfl rfl hs fun c =>
      congrArg State.written (dpDriveWrite_training (s := { s with cyc := c }) v hdp htrain)
  · refine completesIn_served rfl rfl hs fun c => ?_
    rw [dpDriveWrite_served (s := { s with cyc := c }) n v htrain]
    obtain ⟨hword, hsame, hnew⟩ := dpWrite_shows (s := { s with cyc := c }) v hdp hst
    exact ⟨hword, fun h => (hsame h).answer _ _ _, fun h => (hnew h).answer _ _ _⟩
  · exact ⟨_, rfl, dpRelock_shows (s := s.eventCycle) hup hdp hst hbusy⟩

end Sys2Proof.Machine
end

section
/-! SUPPORT. What reports of errors, occurrences and counts of events leave as they were: memories, DMA, the readiness of DRAM, and the
registers of every block but those that show them. -/
namespace Sys2Proof.Machine
open Reg

/-! ### Reports -/

/-- The blocks in whose registers errors and events are reported: MEM, TMR, IRQ, IMG and FLT (R3). -/
def reportBlocks : List Nat := [0x0D, 0x11, 0x13, 0x15, 0x17]

/-- A register in which a report may be made: one of those blocks', but not MEM_STAT, which also says which DRAM channels are ready. -/
def reportReg (off : Nat) : Prop := off / 0x100000 ∈ reportBlocks ∧ off ≠ MEM_STAT

/-- What reports made from `s` to `t` leave: the memories of the windows and of DRAM, DMA, which DRAM channels answer, the registers of the
other blocks. -/
structure Reports (s t : State) : Prop where
  sram : t.sram = s.sram
  dram : t.dram = s.dram
  dma : t.dma = s.dma
  ready : ∀ a, t.dramReady a = s.dramReady a
  rd : ∀ o, o / 0x100000 ∉ reportBlocks → t.rd o = s.rd o

/-- Whether a DRAM channel answers shows in RST_PDSTAT and in two fields of MEM_STAT (R254). -/
theorem dramReady_congr {s t : State} (hup : t.rd (RST_PDSTAT 2) = s.rd (RST_PDSTAT 2))
    (hready : t.fld MEM_STAT_READY = s.fld MEM_STAT_READY) (hfail : t.fld MEM_STAT_FAIL = s.fld MEM_STAT_FAIL) (a : Nat) :
    t.dramReady a = s.dramReady a := by
  have hword : (81 + dramChan a) / 32 = 2 := by unfold dramChan; omega
  simp only [State.dramReady, State.up, hword, hup, hready, hfail]

/-- A register other than these leaves it. -/
theorem dramReady_wr (s : State) {off : Nat} (w : Word) (hup : off ≠ RST_PDSTAT 2) (hstat : off ≠ MEM_STAT) (a : Nat) :
    (s.wr off w).dramReady a = s.dramReady a :=
  dramReady_congr (State.rd_wr_other _ _ _ _ hup.symm) (fld_wr_other _ _ hstat.symm) (fld_wr_other _ _ hstat.symm) a

namespace Reports

theorem refl (s : State) : Reports s s := ⟨rfl, rfl, rfl, fun _ => rfl, fun _ _ => rfl⟩

theorem trans {s t u : State} (h : Reports s t) (h' : Reports t u) : Reports s u where
  sram := h'.sram.trans h.sram
  dram := h'.dram.trans h.dram
  dma := h'.dma.trans h.dma
  ready a := (h'.ready a).trans (h.ready a)
  rd o ho := (h'.rd o ho).trans (h.rd o ho)

/-- What the registers do not show is no concern of a report. -/
theorem of_regs {s t : State} (hregs : t.regs = s.regs) (hsram : t.sram = s.sram) (hdram : t.dram = s.dram) (hdma : t.dma = s.dma) :
    Reports s t := by
  have hrd (o : Nat) : t.rd o = s.rd o := by rw [State.rd, hregs, State.rd]
  exact ⟨hsram, hdram, hdma, dramReady_congr (hrd _) (by rw [State.fld, hrd, State.fld]) (by rw [State.fld, hrd, State.fld]),
    fun o _ => hrd o⟩

theorem wr {s t : State} (h : Reports s t) {off : Nat} (hoff : reportReg off) (w : Word) : Reports s (t.wr off w) := by
  obtain ⟨hblock, hstat⟩ := hoff
  refine h.trans ⟨rfl, rfl, rfl, dramReady_wr t w (fun e => ?_) hstat, fun o ho => State.rd_wr_other _ _ _ _ fun e => ho (e ▸ hblock)⟩
  rw [e] at hblock
  exact absurd hblock (by decide)

theorem setFld {s t : State} (h : Reports s t) {f : Fld} (hf : reportReg f.off) (v : Nat) : Reports s (t.setFld f v) := h.wr hf _

theorem noteEvent {s t : State} (h : Reports s t) (off : Nat) (e : RegEvent) : Reports s (t.noteEvent off e) :=
  h.trans (of_regs rfl rfl rfl rfl)

theorem event {s t : State} (h : Reports s t) {f : Fld} (hf : reportReg f.off) : Reports s (t.event f) := (h.noteEvent _ _).setFld hf _

theorem count {s t : State} (h : Reports s t) {f : Fld} (hf : reportReg f.off) (n : Nat) : Reports s (t.count f n) :=
  (h.noteEvent _ _).setFld hf _

/-- A report made after something that is no concern of reports. -/
theorem after {s t u : State} (h : Reports u t) (hregs : u.regs = s.regs) (hsram : u.sram = s.sram) (hdram : u.dram = s.dram)
    (hdma : u.dma = s.dma) : Reports s t := (of_regs hregs hsram hdram hdma).trans h

theorem foldl {α : Type} {l : List α} {f : State → α → State} (hf : ∀ t, ∀ k ∈ l, Reports t (f t k)) (s : State) :
    Reports s (l.foldl f s) := by
  induction l generalizing s with
  | nil => exact refl s
  | cons k r ih => exact (hf s k (by simp)).trans (ih (fun t j hj => hf t j (by simp [hj])) _)

end Reports

/-! ### Event counters (R333 to R335) -/

theorem reportReg_esel {k : Nat} (h : k < 512) : reportReg (TMR_ESEL k) := by
  have hblock : TMR_ESEL k / 0x100000 = 0x11 := by unfold TMR_ESEL; omega
  have hstat : TMR_ESEL k ≠ MEM_STAT := by unfold TMR_ESEL MEM_STAT; omega
  exact ⟨by rw [hblock]; decide, hstat⟩

theorem lt_of_mem_evListed {s : State} {k : Nat} (h : k ∈ s.evListed) : k < 512 := by
  obtain ⟨e, -, he⟩ := List.mem_filterMap.1 h
  split at he
  case isTrue hin => cases he; unfold TMR_ESEL at *; omega
  case isFalse => cases he

theorem reports_evAdvance (s : State) {k : Nat} (h : k < 512) : Reports s (evAdvance s k) := by
  have hevents (u : State) : Reports u ((u.event (TMR_ESEL_OVF k)).event TMR_EVSTAT_EVOVF) :=
    ((Reports.refl u).event (f := TMR_ESEL_OVF k) (reportReg_esel h)).event ⟨by decide, by decide⟩
  unfold evAdvance
  extract_lets c cyc tmr u
  split
  · exact (hevents u).after rfl rfl rfl rfl
  · exact .of_regs rfl rfl rfl rfl

theorem reports_countSrc (s : State) (src : Nat) : Reports s (countSrc s src) := by
  unfold countSrc
  split
  · exact .refl s
  · refine (Reports.foldl (fun t k hk => ?_) _).after rfl rfl rfl rfl
    split
    · exact reports_evAdvance t (lt_of_mem_evListed hk)
    · exact .refl t

/-! ### Occurrences of device sources (R383 to R387, R425) -/

theorem reports_testShared (s : State) (k sl : Nat) : Reports s (testShared s k sl) := by
  unfold testShared
  split
  · exact .of_regs rfl rfl rfl rfl
  · exact .refl s

/-- A vector is one of 64 (R425). -/
theorem reports_msixRequest (s : State) {v : Nat} (h : v < 64) : Reports s (msixRequest s v) := by
  have hpba : reportReg (IMG_MSIX_PBA (v / 32)) := by
    have hblock : IMG_MSIX_PBA (v / 32) / 0x100000 = 0x15 := by unfold IMG_MSIX_PBA; omega
    have hstat : IMG_MSIX_PBA (v / 32) ≠ MEM_STAT := by unfold IMG_MSIX_PBA MEM_STAT; omega
    exact ⟨by rw [hblock]; decide, hstat⟩
  unfold msixRequest
  split
  · exact .refl s
  split
  · exact (Reports.refl s).setFld hpba _
  split <;> exact .of_regs rfl rfl rfl rfl

theorem reports_edgeDev (before : Bool) (s : State) (n : Nat) : Reports s (edgeDev before s n) := by
  unfold edgeDev
  dsimp only
  have hreq : Reports s (if s.devLevel n && !before && s.flag (IRQ_TGT_HEN n) && !s.ecc.contains (IRQ_TGT n)
      then msixRequest s (s.fld (IRQ_TGT_HVEC n)) else s) := by
    split
    · exact reports_msixRequest s (wField_lt _ 29 24)
    · exact .refl s
  split
  · exact hreq
  split
  · exact hreq
  · exact hreq.trans (reports_testShared _ _ _)

theorem reports_occurDev (s : State) (n : Nat) : Reports s (occurDev s n) := by
  unfold occurDev
  split
  · exact .refl s
  split
  · exact .refl s
  split
  · exact reports_testShared _ _ _
  · exact (reports_testShared _ _ _).after rfl rfl rfl rfl

/-! ### Mordant (R421, R448 to R454) -/

theorem reports_putRecord (s : State) (rtype : Nat) (payload : List Nat) : Reports s (putRecord s rtype payload) := by
  unfold putRecord
  exact ((Reports.refl _).setFld (f := IMG_JSTAT_RSEQ) ⟨by decide, by decide⟩ _).after rfl rfl rfl rfl

theorem reports_faultRecord (s : State) : Reports s (faultRecord s) := by
  unfold faultRecord journalAppend
  split
  · exact .refl s
  refine Reports.trans ?_ (reports_putRecord _ _ _)
  split
  · exact .foldl (fun t p _ => reports_putRecord t p.1 p.2) s
  · exact .refl s

/-- FLT's registers report. -/
theorem reportReg_flt {off : Nat} (h : off / 0x100000 = 0x17) : reportReg off :=
  ⟨by rw [h]; decide, fun e => by rw [e] at h; exact absurd h (by decide)⟩

theorem reports_openBlanks (s : State) (m : Nat) (rose : Bool) : Reports s (openBlanks s m rose) := by
  refine .foldl (fun t k _ => ?_) s
  dsimp only
  by_cases hopen : t.fld (CVL_CMPBLK_BPAIR k) = m ∧ bit (t.fld (CVL_CMPBLK_BEDGE k)) (if rose then 0 else 1) = true ∧
    t.fld (CVL_CMPBLK_BLANK k) ≠ 0
  · rw [if_pos hopen]
    exact .of_regs rfl rfl rfl rfl
  · rw [if_neg hopen]
    exact .refl t

theorem reports_withBlanks {f : State → State} {s : State} (hf : Reports s (f s)) (ms : List Nat) : Reports s (withBlanks ms f s) := by
  refine hf.trans (.foldl (fun t m _ => ?_) _)
  dsimp only
  split
  · exact .refl t
  · exact reports_openBlanks _ _ _

theorem reports_safeEnter (s : State) (cause fbit : Nat) : Reports s (safeEnter s cause fbit) := by
  have hsafe (f : Fld) (hf : f.off = FLT_SAFE) : reportReg f.off := hf ▸ reportReg_flt (by decide)
  have hpend (t : State) : Reports t (t.setFld FLT_SAFE_EXITPEND 0) := (Reports.refl t).setFld (hsafe _ rfl) _
  unfold safeEnter
  split
  · extract_lets t
    split
    · exact (hpend s).setFld (hsafe _ rfl) _
    · exact hpend s
  · extract_lets t u v w
    have hset : Reports s (withBlanks s.pairList (fun s => s.setFld FLT_SAFE_SAFE 1) s) :=
      reports_withBlanks ((Reports.refl s).setFld (hsafe _ rfl) _) _
    have hshown : Reports s w := ((hset.trans (hpend _)).setFld (hsafe FLT_SAFE_CAUSE rfl) _).setFld (hsafe FLT_SAFE_BIT rfl) _
    exact hshown.trans ((reports_faultRecord _).after rfl rfl rfl rfl)

theorem reports_firstSource (s : State) (b : Nat) : Reports s (firstSource s b) := by
  have hflt (f : Fld) (hf : f.off / 0x100000 = 0x17) (t : State) (v : Nat) : Reports t (t.setFld f v) :=
    (Reports.refl t).setFld (reportReg_flt hf) v
  unfold firstSource
  split
  · extract_lets t
    split
    · exact (hflt FLT_FIRST_OVF (by decide) _ _).trans (hflt FLT_FIRST_INDEX (by decide) _ _)
    · exact hflt FLT_FIRST_OVF (by decide) _ _
  · extract_lets t u v w x
    have hshown : Reports s x := ((((hflt FLT_FIRST_VALID (by decide) _ _).trans (hflt FLT_FIRST_INDEX (by decide) _ _)).trans
      (hflt FLT_FIRSTX_ORBIT_L (by decide) _ _)).trans (hflt FLT_FIRSTX_SLOT (by decide) _ _)).trans
      (hflt FLT_FIRSTT_LO_TIME_L (by decide) _ _)
    clear_value x
    exact hshown.trans ((reports_faultRecord _).after rfl rfl rfl rfl)

theorem reports_latchLine (s : State) (b : Nat) : Reports s (latchLine s b) := by
  unfold latchLine
  split
  · exact .refl s
  extract_lets cyc t newly u v
  have hset : Reports s u := by
    refine Reports.trans ?_ (reports_occurDev _ _)
    exact (reports_edgeDev _ _ _).after rfl rfl rfl rfl
  have hfirst : Reports s v := by
    unfold v
    split
    · exact hset.trans (reports_firstSource u b)
    · exact hset
  split
  · exact hfirst.trans (reports_safeEnter v 1 b)
  · exact hfirst

theorem reports_uncorrected (s : State) {f : Fld} (hf : reportReg f.off) : Reports s (uncorrected s f) :=
  ((Reports.refl s).count hf 1).trans (reports_countSrc _ _)

theorem reports_tgtUse (s : State) (n : Nat) : Reports s (tgtUse s n) := by
  unfold tgtUse
  extract_lets met
  have hmet (t : State) (k : Nat) : Reports t (met t k) := by
    unfold met
    split
    · exact (reports_uncorrected t (f := IRQ_ECCCNT_UNCORR) ⟨by decide, by decide⟩).event ⟨by decide, by decide⟩
    · exact .refl t
  split
  case isTrue =>
    refine Reports.trans ?_ (reports_latchLine _ _)
    by_cases hown : n = 275
    · rw [if_pos hown]
      exact hmet s n
    · rw [if_neg hown]
      exact (hmet s n).trans (hmet _ 275)
  case isFalse => exact .refl s

theorem reports_raiseLine (s : State) (b : Nat) : Reports s (raiseLine s b) := (reports_tgtUse s _).trans (reports_latchLine _ b)

end Sys2Proof.Machine
end

section
/-! SUPPORT. A DMA channel that fills DRAM (O32). -/
namespace Sys2Proof.Machine
open Reg

/-! ### Damaged words of DRAM (R256, R257) -/

theorem reportReg_eccCount (a : Nat) : reportReg (MEM_ECCCNT (dramChan a)) := by
  have hchan : dramChan a < 4 := Nat.mod_lt _ (by decide)
  have hblock : MEM_ECCCNT (dramChan a) / 0x100000 = 0x0D := by unfold MEM_ECCCNT; omega
  have hstat : MEM_ECCCNT (dramChan a) ≠ MEM_STAT := by unfold MEM_ECCCNT MEM_STAT; omega
  exact ⟨by rw [hblock]; decide, hstat⟩

/-- MEM_STAT.ECCU says nothing of the readiness of a channel. -/
theorem reports_eccu (s : State) : Reports s (s.event MEM_STAT_ECCU) where
  sram := rfl
  dram := rfl
  dma := rfl
  ready := dramReady_congr (State.rd_event_other _ _ _ (by decide))
    (fld_setFld_disjoint _ _ (by decide) (by decide) (by decide) (by decide) (by decide))
    (fld_setFld_disjoint _ _ (by decide) (by decide) (by decide) (by decide) (by decide))
  rd o ho := State.rd_event_other _ _ _ fun e => ho (e ▸ (by decide))

theorem reports_dramUncorr (s : State) (a : Nat) : Reports s (dramUncorr s a) :=
  (((reports_uncorrected s (f := MEM_ECCCNT_UNCORR (dramChan a)) (reportReg_eccCount a)).setFld (f := MEM_ERRADDR_ADDR)
    ⟨by decide, by decide⟩ a).trans (reports_eccu _)).trans (reports_raiseLine _ 13)

theorem reports_dramUncorrs (s : State) (l : List Nat) : Reports s (l.foldl dramUncorr s) :=
  .foldl (fun t a _ => reports_dramUncorr t a) s

/-! ### What the work of a channel leaves -/

/-- From `s` to `t` a channel has worked that sets its registers `offs` and reports what it meets: SRAM, the readiness of DRAM and the
other registers that show no reports are as before. -/
structure Works (offs : List Nat) (s t : State) : Prop where
  sram : t.sram = s.sram
  ready : ∀ a, t.dramReady a = s.dramReady a
  rd : ∀ o, o ∉ offs → o / 0x100000 ∉ reportBlocks → t.rd o = s.rd o

theorem Reports.works {s t : State} (h : Reports s t) (offs : List Nat) : Works offs s t := ⟨h.sram, h.ready, fun o _ ho => h.rd o ho⟩

namespace Works

theorem trans {offs : List Nat} {s t u : State} (h : Works offs s t) (h' : Works offs t u) : Works offs s u where
  sram := h'.sram.trans h.sram
  ready a := (h'.ready a).trans (h.ready a)
  rd o ho hb := (h'.rd o ho hb).trans (h.rd o ho hb)

theorem of_regs {offs : List Nat} {s t : State} (hregs : t.regs = s.regs) (hsram : t.sram = s.sram) : Works offs s t := by
  have hrd (o : Nat) : t.rd o = s.rd o := by rw [State.rd, hregs, State.rd]
  exact ⟨hsram, dramReady_congr (hrd _) (by rw [State.fld, hrd, State.fld]) (by rw [State.fld, hrd, State.fld]), fun o _ _ => hrd o⟩

theorem refl (offs : List Nat) (s : State) : Works offs s s := .of_regs rfl rfl

theorem wr {offs : List Nat} {s t : State} (h : Works offs s t) {off : Nat} (hoff : off ∈ offs) (hblock : off / 0x100000 = 0x0C)
    (w : Word) : Works offs s (t.wr off w) := by
  have hne {o : Nat} (ho : o / 0x100000 ≠ 0x0C) : off ≠ o := fun e => ho (e ▸ hblock)
  have hrd : ∀ o, o ∉ offs → o / 0x100000 ∉ reportBlocks → (t.wr off w).rd o = t.rd o := fun o hout _ =>
    State.rd_wr_other _ _ _ _ fun e => hout (e ▸ hoff)
  exact h.trans ⟨rfl, dramReady_wr t w (hne (by decide)) (hne (by decide)), hrd⟩

theorem setFld {offs : List Nat} {s t : State} (h : Works offs s t) {f : Fld} (hf : f.off ∈ offs) (hblock : f.off / 0x100000 = 0x0C)
    (v : Nat) : Works offs s (t.setFld f v) := h.wr hf hblock _

theorem event {offs : List Nat} {s t : State} (h : Works offs s t) {f : Fld} (hf : f.off ∈ offs) (hblock : f.off / 0x100000 = 0x0C) :
    Works offs s (t.event f) := (h.trans (u := t.noteEvent f.off _) (.of_regs rfl rfl)).setFld hf hblock _

theorem mono {offs offs' : List Nat} {s t : State} (h : Works offs s t) (hsub : offs ⊆ offs') : Works offs' s t :=
  ⟨h.sram, h.ready, fun o ho hb => h.rd o (fun hin => ho (hsub hin)) hb⟩

theorem fld {offs : List Nat} {s t : State} (h : Works offs s t) {f : Fld} (hf : f.off ∉ offs) (hblock : f.off / 0x100000 = 0x0C) :
    t.fld f = s.fld f := by
  rw [State.fld, h.rd _ hf (by rw [hblock]; decide), State.fld]

end Works

/-! ### Registers of a channel (R260) -/

/-- The registers of the 64 channels are DMA's. -/
theorem chanReg_block {base ch : Nat} (hch : ch < 64) (hlo : 0xC01000 ≤ base) (hhi : base < 0xC01040) :
    (base + 0x40 * ch) / 0x100000 = 0x0C := by omega

/-- No report shows in them. -/
theorem chanReg_quiet {base ch : Nat} (hch : ch < 64) (hlo : 0xC01000 ≤ base) (hhi : base < 0xC01040) :
    (base + 0x40 * ch) / 0x100000 ∉ reportBlocks := by
  rw [chanReg_block hch hlo hhi]
  decide

/-! ### Words in memory -/

theorem memWord_congr {m m' : List Host.Cell} {a : Nat} (h : ∀ i < 4, memByte m' (a + i) = memByte m (a + i)) :
    memWord m' a = memWord m a := by
  have h0 := h 0 (by decide)
  have h1 := h 1 (by decide)
  have h2 := h 2 (by decide)
  have h3 := h 3 (by decide)
  simp only [memWord, memBytes, Nat.add_assoc, Nat.reduceAdd] at *
  rw [h1, h2, h3, show memByte m' a = memByte m a from h0]

/-- A word reads as it was stored. -/
theorem memWord_memStore_same (m : List Host.Cell) (a : Nat) {w : Nat} (h : w < 2 ^ 32) :
    memWord (memStore m a (wordBytes w)) a = w := by
  have hbyte (i : Nat) (hi : i < 4) := memByte_memStore (wordBytes w) m a i hi
  have h0 := hbyte 0 (by decide)
  have h1 := hbyte 1 (by decide)
  have h2 := hbyte 2 (by decide)
  have h3 := hbyte 3 (by decide)
  simp only [Nat.add_zero] at h0
  simp only [memWord, memBytes, Nat.add_assoc, Nat.reduceAdd, h0, h1, h2, h3]
  simp only [wordBytes, List.getD_cons_zero, List.getD_cons_succ, leNat]
  omega

/-- A word beside those stored reads as before. -/
theorem memWord_memStore_other (bs : List Nat) (m : List Host.Cell) (a b : Nat) (h : b + 4 ≤ a ∨ a + bs.length ≤ b) :
    memWord (memStore m a bs) b = memWord m b :=
  memWord_congr fun i hi => memByte_memStore_other bs m a (b + i) (by omega)

/-! ### The transfer of a fill (R245) -/

theorem dramOk_of_ready {s : State} (h : ∀ a, s.dramReady a = true) (a n : Nat) : s.dramOk a n = true := by
  simp [State.dramOk, h]

/-- As much of the fill `d` of DRAM is done, from `s`, as `m` says, without a failure; registers and SRAM are as before. -/
structure FilledTo (d : List Nat) (s : State) (m : Mover) : Prop where
  code : m.code = 0
  out : m.out = []
  regs : m.st.regs = s.regs
  sram : m.st.sram = s.sram
  mem : ∀ a, memByte m.st.dram.mem a =
    if dDst d ≤ a ∧ a < dDst d + m.done then fillByte d (a - dDst d) else memByte s.dram.mem a

theorem FilledTo.works {d : List Nat} {s : State} {m : Mover} (h : FilledTo d s m) (offs : List Nat) : Works offs s m.st :=
  .of_regs h.regs h.sram

/-- One byte of a fill. -/
theorem unitMove_fill {d host : List Nat} {m : Mover} (ch : Nat) (hmode : dMode d = 1) (hdsp : dDsp d = 1)
    (hready : ∀ a, m.st.dramReady a = true) (hlt : dDst d + m.done < 2 ^ 30) :
    unitMove ch d host 1 m = { m with st := dramPut m.st (dDst d + m.done) [fillByte d m.done], done := m.done + 1 } := by
  have hmod : (dDst d + m.done) % 2 ^ 30 = dDst d + m.done := Nat.mod_eq_of_lt hlt
  simp [unitMove, dReads, hmode, hdsp, unitWrite, hmod, dramOk_of_ready hready, List.range_succ, -Nat.reducePow]

theorem FilledTo.step {s : State} {d host : List Nat} {m : Mover} (h : FilledTo d s m) (ch : Nat) (hmode : dMode d = 1)
    (hdsp : dDsp d = 1) (hready : ∀ a, s.dramReady a = true) (hlt : dDst d + m.done < 2 ^ 30) :
    FilledTo d s (unitMove ch d host 1 m) := by
  have hstill (a : Nat) : m.st.dramReady a = true := ((h.works []).ready a).trans (hready a)
  rw [unitMove_fill ch hmode hdsp hstill hlt]
  refine ⟨h.code, h.out, h.regs, h.sram, fun a => ?_⟩
  have hbyte : fillByte d m.done < 256 := Nat.mod_lt _ (by decide)
  by_cases hnew : a = dDst d + m.done
  · subst hnew
    simp only [dramPut, memStore, memByte_memPut_same, Nat.mod_eq_of_lt hbyte]
    rw [if_pos (by omega), Nat.add_sub_cancel_left]
  · simp only [dramPut, memStore, memByte_memPut_other _ _ _ _ hnew, h.mem a]
    congr 1
    exact propext (by omega)

theorem FilledTo.moveUnits {s : State} {d host : List Nat} {n : Nat} (ch : Nat) (hmode : dMode d = 1) (hdsp : dDsp d = 1)
    (hready : ∀ a, s.dramReady a = true) (hend : dDst d + n ≤ 2 ^ 30) (f : Nat) {m : Mover} (h : FilledTo d s m) (hle : m.done ≤ n)
    (hfuel : n ≤ m.done + f) :
    FilledTo d s (Machine.moveUnits ch d host n f m) ∧ (Machine.moveUnits ch d host n f m).done = n := by
  induction f generalizing m with
  | zero => exact ⟨h, by simp only [Machine.moveUnits]; omega⟩
  | succ f ih =>
    unfold Machine.moveUnits
    split
    case isTrue hdone => exact ⟨h, by have := h.code; omega⟩
    case isFalse hmore =>
      have hunit : min (unitSize d) (n - m.done) = 1 := by
        have hsize : unitSize d = 1 := by simp [unitSize, dReads, hmode, hdsp]
        omega
      have hlt : dDst d + m.done < 2 ^ 30 := by omega
      have hstill (a : Nat) : m.st.dramReady a = true := ((h.works []).ready a).trans (hready a)
      rw [hunit]
      have hdone : (unitMove ch d host 1 m).done = m.done + 1 := by rw [unitMove_fill ch hmode hdsp hstill hlt]
      exact ih (h.step ch hmode hdsp hready hlt) (by omega) (by omega)

/-- A fill moves all of its bytes, counts them, and meets the damage of words that it covers in part. -/
theorem dmaMove_fill {s : State} {d host : List Nat} {ch n : Nat} (hch : ch < 64) (hmode : dMode d = 1) (hdsp : dDsp d = 1)
    (hready : ∀ a, s.dramReady a = true) (hend : dDst d + n ≤ 2 ^ 30) :
    (dmaMove s ch d host n).code = 0 ∧ (dmaMove s ch d host n).done = n ∧
      Works [DMA_BYTECNT ch] s (dmaMove s ch d host n).st ∧
      (dmaMove s ch d host n).st.rd (DMA_BYTECNT ch) = s.rd (DMA_BYTECNT ch) + BitVec.ofNat 32 n ∧
      ∀ a, memByte (dmaMove s ch d host n).st.dram.mem a =
        if dDst d ≤ a ∧ a < dDst d + n then fillByte d (a - dDst d) else memByte s.dram.mem a := by
  have hstart : FilledTo d s { st := s, done := 0, out := [], code := 0 } :=
    ⟨rfl, rfl, rfl, rfl, fun a => by rw [if_neg (by simp only; omega)]⟩
  obtain ⟨hfill, hdone⟩ := hstart.moveUnits (host := host) ch hmode hdsp hready hend n (Nat.zero_le _) (by simp)
  have hwrites : (dWrites d && decide (dDsp d = 1)) = true := by simp [dWrites, hmode, hdsp]
  unfold dmaMove
  extract_lets m sent counted a met dram whole
  have hsent : sent = m.st := by unfold sent postHost; rw [if_pos hfill.out]
  have hblock : DMA_BYTECNT ch / 0x100000 = 0x0C := chanReg_block hch (by decide) (by decide)
  have hquiet : DMA_BYTECNT ch / 0x100000 ∉ reportBlocks := chanReg_quiet hch (by decide) (by decide)
  have hcounted : Works [DMA_BYTECNT ch] s counted := by
    unfold counted
    rw [hsent]
    exact (hfill.works _).wr (by simp) hblock _
  have hmet : Reports counted met := reports_dramUncorrs _ _
  have hwhole : whole.regs = met.regs ∧ whole.sram = met.sram ∧ whole.dram.mem = met.dram.mem := by
    unfold whole
    rw [if_pos hwrites]
    exact ⟨rfl, rfl, rfl⟩
  obtain ⟨hregs, hsram, hmem⟩ := hwhole
  refine ⟨hfill.code, hdone, (hcounted.trans (hmet.works _)).trans (.of_regs hregs hsram), ?_, fun b => ?_⟩
  · have hcount : s.rd (DMA_BYTECNT ch) = m.st.rd (DMA_BYTECNT ch) := ((hfill.works []).rd _ (by simp) hquiet).symm
    calc (dmaSpend whole ch m.done).rd (DMA_BYTECNT ch)
        = met.rd (DMA_BYTECNT ch) := by rw [State.rd, State.rd, ← hregs]; rfl
      _ = counted.rd (DMA_BYTECNT ch) := hmet.rd _ hquiet
      _ = s.rd (DMA_BYTECNT ch) + BitVec.ofNat 32 n := by rw [State.rd_wr_same, hsent, hcount, hdone]
  · have hbyte : memByte (dmaSpend whole ch m.done).dram.mem b = memByte m.st.dram.mem b := by
      calc memByte whole.dram.mem b = memByte met.dram.mem b := by rw [hmem]
        _ = memByte counted.dram.mem b := by rw [hmet.dram]
        _ = memByte m.st.dram.mem b := by rw [← hsent]; rfl
    rw [hbyte, hfill.mem b, hdone]

/-! ### The write-back in a ring that lies in DRAM (R247) -/

theorem works_dramStore (offs : List Nat) (s : State) (a : Nat) (bs : List Nat) : Works offs s (dramStore s a bs) :=
  ((reports_dramUncorrs s _).works offs).trans (.of_regs rfl rfl)

theorem mem_dramStore (s : State) (a : Nat) (bs : List Nat) : (dramStore s a bs).dram.mem = memStore s.dram.mem a bs := by
  rw [dramStore, dramPut, (reports_dramUncorrs s _).dram]

/-- A word of the descriptor is stored. -/
theorem ringWord_dram {s : State} {ch : Nat} (hring : s.fld (DMA_CHCFG_RSP ch) = 1) (hready : ∀ a, s.dramReady a = true)
    {i : Nat} (hi : i < 8) (hend : s.fld (DMA_CUR_ADDR ch) * 32 + 32 ≤ 2 ^ 30) (w : Nat) :
    ringWord s ch i w = (false, dramStore s (s.fld (DMA_CUR_ADDR ch) * 32 + 4 * i) (wordBytes w)) := by
  have hmod : (s.fld (DMA_CUR_ADDR ch) * 32 + 4 * i) % 2 ^ 30 = s.fld (DMA_CUR_ADDR ch) * 32 + 4 * i := Nat.mod_eq_of_lt (by omega)
  simp only [ringWord, hring, hmod, dramOk_of_ready hready, if_true]

/-- Status and OWN of a descriptor in DRAM are written back. -/
theorem dmaStatus_dram {s : State} {ch : Nat} (hch : ch < 64) (hring : s.fld (DMA_CHCFG_RSP ch) = 1)
    (hready : ∀ a, s.dramReady a = true) (hend : s.fld (DMA_CUR_ADDR ch) * 32 + 32 ≤ 2 ^ 30) (d : List Nat) (code count : Nat) :
    (dmaStatus s ch d code count).1 = false ∧ Works [DMA_CHSTAT ch] s (dmaStatus s ch d code count).2 ∧
      (dmaStatus s ch d code count).2.dram.mem =
        memStore (memStore s.dram.mem (s.fld (DMA_CUR_ADDR ch) * 32 + 20) (wordBytes (2 ^ 31 + code * 2 ^ 28 + count % 2 ^ 24)))
          (s.fld (DMA_CUR_ADDR ch) * 32) (wordBytes (d.getD 0 0 % 2 ^ 31)) := by
  have hcfg : DMA_CHCFG ch / 0x100000 = 0x0C := chanReg_block hch (by decide) (by decide)
  have hcur : DMA_CUR ch / 0x100000 = 0x0C := chanReg_block hch (by decide) (by decide)
  have hstat : DMA_CHSTAT ch / 0x100000 = 0x0C := chanReg_block hch (by decide) (by decide)
  unfold dmaStatus
  extract_lets r q
  have hr : r = (false, dramStore s (s.fld (DMA_CUR_ADDR ch) * 32 + 20) (wordBytes (2 ^ 31 + code * 2 ^ 28 + count % 2 ^ 24))) :=
    ringWord_dram hring hready (by decide) hend _
  have hstored : Works [] s r.2 := by rw [hr]; exact works_dramStore _ _ _ _
  have hq : q = (false, dramStore r.2 (s.fld (DMA_CUR_ADDR ch) * 32) (wordBytes (d.getD 0 0 % 2 ^ 31))) := by
    have haddr : r.2.fld (DMA_CUR_ADDR ch) = s.fld (DMA_CUR_ADDR ch) := hstored.fld (by simp) hcur
    rw [← haddr]
    exact ringWord_dram ((hstored.fld (by simp) hcfg).trans hring) (fun a => (hstored.ready a).trans (hready a)) (by decide)
      (by rw [haddr]; exact hend) _
  clear_value q
  subst hq
  refine ⟨by rw [hr]; rfl, ?_, ?_⟩
  · exact ((hstored.mono (by simp)).trans (works_dramStore _ _ _ _)).setFld (by simp) hstat _
  · rw [State.setFld, State.wr_dram, mem_dramStore, hr, mem_dramStore]

/-! ### On to the next descriptor (R241, R247) -/

/-- From `s` to `t` the channel's STATE and KICK may have changed, and what it holds, but neither DRAM nor DONE. -/
structure MovesOn (ch : Nat) (s t : State) : Prop where
  works : Works [DMA_CHSTAT ch, DMA_CHCTL ch] s t
  dram : t.dram = s.dram
  done : t.fld (DMA_CHSTAT_DONE ch) = s.fld (DMA_CHSTAT_DONE ch)

theorem MovesOn.trans {ch : Nat} {s t u : State} (h : MovesOn ch s t) (h' : MovesOn ch t u) : MovesOn ch s u :=
  ⟨h.works.trans h'.works, h'.dram.trans h.dram, h'.done.trans h.done⟩

theorem movesOn_setDmaX (ch : Nat) (s : State) (x : DmaX) : MovesOn ch s (s.setDmaX ch x) :=
  ⟨.of_regs rfl rfl, rfl, State.setDmaX_fld s ch x _⟩

theorem movesOn_dmaTo {ch : Nat} (hch : ch < 64) (s : State) (st : Nat) : MovesOn ch s (dmaTo s ch st) := by
  have hstat : DMA_CHSTAT ch / 0x100000 = 0x0C := chanReg_block hch (by decide) (by decide)
  unfold dmaTo
  exact ⟨(Works.refl _ s).setFld (by simp) hstat st, State.setFld_dram _ _ _, by simp⟩

theorem movesOn_kick {ch : Nat} (hch : ch < 64) (s : State) (v : Nat) : MovesOn ch s (s.setFld (DMA_CHCTL_KICK ch) v) := by
  have hctl : DMA_CHCTL ch / 0x100000 = 0x0C := chanReg_block hch (by decide) (by decide)
  exact ⟨(Works.refl _ s).setFld (by simp) hctl v, State.setFld_dram _ _ _, by simp⟩

theorem movesOn_dmaFetchStart {ch : Nat} (hch : ch < 64) (s : State) : MovesOn ch s (dmaFetchStart s ch) :=
  ((movesOn_setDmaX ch s _).trans (movesOn_kick hch _ 0)).trans (movesOn_dmaTo hch _ 2)

/-- After a descriptor CUR is its NEXT, and the channel moves on. -/
theorem dmaNext_movesOn {ch : Nat} (hch : ch < 64) (s : State) (d : List Nat) :
    MovesOn ch (s.wr (DMA_CUR ch) (BitVec.ofNat 32 (dNext d))) (dmaNext s ch d) := by
  unfold dmaNext
  extract_lets t x u
  split
  · have hidle : MovesOn ch t u := (movesOn_setDmaX ch t _).trans (movesOn_dmaTo hch _ 1)
    split
    · exact hidle.trans (movesOn_dmaFetchStart hch u)
    · exact hidle
  · exact movesOn_dmaFetchStart hch t

/-! ### Completion (R247) -/

/-- A fill reads no queue: its length is that of the descriptor. -/
theorem dmaBytes_of_ne_queue (s : State) (ch : Nat) {d : List Nat} (h : dSsp d ≠ 3) : s.dmaBytes ch d = dLen d := by
  unfold State.dmaBytes
  split
  · contradiction
  · rfl

/-- A transfer that ends well, of a descriptor without BAR whose source is no queue, is written back at once. -/
theorem descriptorComplete_ok {s : State} {ch : Nat} {d host : List Nat} (hup : s.up 80 = true) (hst : s.dmaSt ch = 3)
    (hd : (s.dmaX ch).desc = d) (hsrc : dSsp d ≠ 3) (hbar : dBit d 0 30 = false) (hcode : (dmaMove s ch d host (dLen d)).code = 0) :
    descriptorComplete s ch host =
      dmaFinish (showElem (elemAdvance (dmaMove s ch d host (dLen d)).st ch (dLen d)) ch) ch d 0 (dmaMove s ch d host (dLen d)).done := by
  simp [descriptorComplete, hup, hst, hd, dmaBytes_of_ne_queue s ch hsrc, hcode, hsrc, hbar]

/-- What the channel holds of elements is no register and no memory. -/
theorem elemAdvance_keeps (s : State) (ch n : Nat) :
    Works [] s (elemAdvance s ch n) ∧ (elemAdvance s ch n).dram = s.dram := by
  unfold elemAdvance
  split <;> exact ⟨.of_regs rfl rfl, rfl⟩

theorem showElem_keeps (s : State) (ch : Nat) : Works [] s (showElem s ch) ∧ (showElem s ch).dram = s.dram := by
  unfold showElem
  split <;> exact ⟨.of_regs rfl rfl, rfl⟩

/-- The counts and status of a completed descriptor, before the channel goes on to the next. -/
def completionCounted (s : State) (ch : Nat) : State :=
  countSrc ((s.wr (DMA_DONECNT ch) (s.rd (DMA_DONECNT ch) + 1)).event (DMA_CHSTAT_DONE ch)) (0x200 + ch)

theorem works_completionCounted {ch : Nat} (hch : ch < 64) (s : State) :
    Works [DMA_DONECNT ch, DMA_CHSTAT ch] s (completionCounted s ch) := by
  have hcnt : DMA_DONECNT ch / 0x100000 = 0x0C := chanReg_block hch (by decide) (by decide)
  have hstat : DMA_CHSTAT ch / 0x100000 = 0x0C := chanReg_block hch (by decide) (by decide)
  have hset : Works [DMA_DONECNT ch, DMA_CHSTAT ch] s
      ((s.wr (DMA_DONECNT ch) (s.rd (DMA_DONECNT ch) + 1)).event (DMA_CHSTAT_DONE ch)) :=
    ((Works.refl _ s).wr (by simp) hcnt _).event (by simp) hstat
  exact hset.trans ((reports_countSrc _ _).works _)

theorem completionCounted_shows {ch : Nat} (hch : ch < 64) (s : State) :
    (completionCounted s ch).rd (DMA_DONECNT ch) = s.rd (DMA_DONECNT ch) + 1 ∧
      (completionCounted s ch).flag (DMA_CHSTAT_DONE ch) = true ∧ (completionCounted s ch).dram = s.dram := by
  have hcnt : DMA_DONECNT ch / 0x100000 ∉ reportBlocks := chanReg_quiet hch (by decide) (by decide)
  have hstat : DMA_CHSTAT ch / 0x100000 = 0x0C := chanReg_block hch (by decide) (by decide)
  have hne : DMA_DONECNT ch ≠ DMA_CHSTAT ch := by simp
  unfold completionCounted
  generalize hset : (s.wr (DMA_DONECNT ch) (s.rd (DMA_DONECNT ch) + 1)).event (DMA_CHSTAT_DONE ch) = t
  have hcounts := reports_countSrc t (0x200 + ch)
  refine ⟨?_, ?_, ?_⟩
  · rw [hcounts.rd _ hcnt, ← hset, State.rd_event_other _ _ _ hne, State.rd_wr_same]
  · rw [State.flag, (hcounts.works []).fld (by simp) hstat, ← hset, State.fld_event_same _ _ (by simp [Fld.ok])]
    simp
  · rw [hcounts.dram, ← hset]
    rfl

/-- A descriptor that raises no event and reads no queue is finished with its write-back, its counts and the step to the next. -/
theorem dmaFinish_ok {s : State} {ch : Nat} {d : List Nat} {code count : Nat} (hsrc : dSsp d ≠ 3) (hevt : dBit d 0 29 = false)
    (hring : (dmaStatus s ch d code count).1 = false) :
    ∃ x, dmaFinish s ch d code count = dmaNext ((completionCounted (dmaStatus s ch d code count).2 ch).setDmaX ch x) ch d := by
  simp only [dmaFinish, hring, dmaEvent, hevt, hsrc]
  exact ⟨_, rfl⟩

/-- A fill of DRAM leads to its write-back with all of its bytes stored and counted. -/
theorem descriptorComplete_fill {s : State} {ch : Nat} {d : List Nat} (host : List Nat) (hch : ch < 64) (hup : s.up 80 = true)
    (hst : s.dmaSt ch = 3) (hd : (s.dmaX ch).desc = d) (hready : ∀ a, s.dramReady a = true) (hmode : dMode d = 1) (hdsp : dDsp d = 1)
    (hsrc : dSsp d ≠ 3) (hbar : dBit d 0 30 = false) (hend : dDst d + dLen d ≤ 2 ^ 30) :
    ∃ t, descriptorComplete s ch host = dmaFinish t ch d 0 (dLen d) ∧ Works [DMA_BYTECNT ch] s t ∧
      t.rd (DMA_BYTECNT ch) = s.rd (DMA_BYTECNT ch) + BitVec.ofNat 32 (dLen d) ∧
      ∀ a, memByte t.dram.mem a =
        if dDst d ≤ a ∧ a < dDst d + dLen d then fillByte d (a - dDst d) else memByte s.dram.mem a := by
  have hbytes : DMA_BYTECNT ch / 0x100000 ∉ reportBlocks := chanReg_quiet hch (by decide) (by decide)
  obtain ⟨hcode, hcount, hmoved, hbytecnt, hfill⟩ := dmaMove_fill (host := host) hch hmode hdsp hready hend
  have hexec := descriptorComplete_ok hup hst hd hsrc hbar hcode
  rw [hcount] at hexec
  obtain ⟨hadvance, hadvanceDram⟩ := elemAdvance_keeps (dmaMove s ch d host (dLen d)).st ch (dLen d)
  obtain ⟨hshow, hshowDram⟩ := showElem_keeps (elemAdvance (dmaMove s ch d host (dLen d)).st ch (dLen d)) ch
  have helem := hadvance.trans hshow
  refine ⟨_, hexec, hmoved.trans (helem.mono (by simp)), ?_, fun a => ?_⟩
  · rw [helem.rd _ (by simp) hbytes, hbytecnt]
  · rw [hshowDram, hadvanceDram, hfill]

/-- The completion of such a descriptor in a ring that lies in DRAM: the two words of the write-back, the counts, CUR and DONE. -/
theorem dmaFinish_dram {s : State} {ch : Nat} {d : List Nat} {code count : Nat} (hch : ch < 64)
    (hring : s.fld (DMA_CHCFG_RSP ch) = 1) (hready : ∀ a, s.dramReady a = true) (hend : s.fld (DMA_CUR_ADDR ch) * 32 + 32 ≤ 2 ^ 30)
    (hsrc : dSsp d ≠ 3) (hevt : dBit d 0 29 = false) :
    (dmaFinish s ch d code count).dram.mem =
        memStore (memStore s.dram.mem (s.fld (DMA_CUR_ADDR ch) * 32 + 20) (wordBytes (2 ^ 31 + code * 2 ^ 28 + count % 2 ^ 24)))
          (s.fld (DMA_CUR_ADDR ch) * 32) (wordBytes (d.getD 0 0 % 2 ^ 31)) ∧
      (dmaFinish s ch d code count).sram = s.sram ∧
      (dmaFinish s ch d code count).rd (DMA_BYTECNT ch) = s.rd (DMA_BYTECNT ch) ∧
      (dmaFinish s ch d code count).rd (DMA_DONECNT ch) = s.rd (DMA_DONECNT ch) + 1 ∧
      (dmaFinish s ch d code count).rd (DMA_CUR ch) = BitVec.ofNat 32 (dNext d) ∧
      (dmaFinish s ch d code count).flag (DMA_CHSTAT_DONE ch) = true := by
  have hcurQuiet : DMA_CUR ch / 0x100000 ∉ reportBlocks := chanReg_quiet hch (by decide) (by decide)
  have hcntQuiet : DMA_DONECNT ch / 0x100000 ∉ reportBlocks := chanReg_quiet hch (by decide) (by decide)
  have hbytesQuiet : DMA_BYTECNT ch / 0x100000 ∉ reportBlocks := chanReg_quiet hch (by decide) (by decide)
  obtain ⟨htaken, hstatus, hwords⟩ := dmaStatus_dram hch hring hready hend d code count
  obtain ⟨x, hfinish⟩ := dmaFinish_ok hsrc hevt htaken
  generalize (dmaStatus s ch d code count).2 = u at hstatus hwords hfinish
  have hcounted := works_completionCounted hch u
  obtain ⟨hdonecnt, hdone, hdram⟩ := completionCounted_shows hch u
  have hnext := dmaNext_movesOn hch ((completionCounted u ch).setDmaX ch x) d
  rw [hfinish]
  refine ⟨?_, ?_, ?_, ?_, ?_, ?_⟩
  · rw [hnext.dram, State.wr_dram, State.setDmaX_dram, hdram, hwords]
  · rw [hnext.works.sram, State.wr_sram, State.setDmaX_sram, hcounted.sram, hstatus.sram]
  · rw [hnext.works.rd _ (by simp) hbytesQuiet, State.rd_wr_other _ _ _ _ (by simp), State.setDmaX_rd,
      hcounted.rd _ (by simp) hbytesQuiet, hstatus.rd _ (by simp) hbytesQuiet]
  · rw [hnext.works.rd _ (by simp) hcntQuiet, State.rd_wr_other _ _ _ _ (by simp), State.setDmaX_rd, hdonecnt,
      hstatus.rd _ (by simp) hcntQuiet]
  · rw [hnext.works.rd _ (by simp) hcurQuiet, State.rd_wr_same]
  · rw [State.flag, hnext.done, fld_wr_other _ _ (by simp), State.setDmaX_fld]
    exact hdone

/-- The memory after a fill of `n` bytes and the two words of its write-back, which do not overlap it. -/
theorem mem_fill_writeBack {m m' : List Host.Cell} {d : List Nat} {dst n cur status ctl : Nat}
    (hfill : ∀ a, memByte m' a = if dst ≤ a ∧ a < dst + n then fillByte d (a - dst) else memByte m a)
    (hapart : dst + n ≤ cur ∨ cur + 32 ≤ dst) (hstatus : status < 2 ^ 32) (hctl : ctl < 2 ^ 32) :
    let t := memStore (memStore m' (cur + 20) (wordBytes status)) cur (wordBytes ctl)
    (∀ i, i < n → memByte t (dst + i) = fillByte d i) ∧ memWord t (cur + 20) = status ∧ memWord t cur = ctl ∧
      ∀ a, ¬(dst ≤ a ∧ a < dst + n) → ¬(cur ≤ a ∧ a < cur + 4) → ¬(cur + 20 ≤ a ∧ a < cur + 24) → memByte t a = memByte m a := by
  intro t
  have hlen (w : Nat) : (wordBytes w).length = 4 := rfl
  have hother (a : Nat) (hcur : ¬(cur ≤ a ∧ a < cur + 4)) (hcur' : ¬(cur + 20 ≤ a ∧ a < cur + 24)) : memByte t a = memByte m' a := by
    rw [memByte_memStore_other _ _ _ _ (by rw [hlen]; omega), memByte_memStore_other _ _ _ _ (by rw [hlen]; omega)]
  refine ⟨fun i hi => ?_, ?_, memWord_memStore_same _ _ hctl, fun a hdst hcur hcur' => ?_⟩
  · rw [hother _ (by omega) (by omega), hfill, if_pos (by omega), Nat.add_sub_cancel_left]
  · rw [memWord_memStore_other _ _ _ _ (by rw [hlen]; omega), memWord_memStore_same _ _ hstatus]
  · rw [hother a hcur hcur', hfill, if_neg hdst]

/-- Settles O32: byte for byte in the transfer, word for word in the write-back, register for register in what follows. -/
theorem dmaFillsDram : Obligations.DmaFillsDram := by
  intro ch host s hup hst hring hready d dst n cur hmode hdsp hsrc hbar hevt hn hend hcur hapart
  have hch := ch.isLt
  have hcfgBlock : DMA_CHCFG ch / 0x100000 = 0x0C := chanReg_block hch (by decide) (by decide)
  have hcurBlock : DMA_CUR ch / 0x100000 = 0x0C := chanReg_block hch (by decide) (by decide)
  have hcntQuiet : DMA_DONECNT ch / 0x100000 ∉ reportBlocks := chanReg_quiet hch (by decide) (by decide)
  obtain ⟨t, hexec, hkept, hbytecnt, hfill⟩ :=
    descriptorComplete_fill (s := s.eventCycle) (d := d) (host.map BitVec.toNat) hch hup hst rfl hready hmode hdsp hsrc hbar hend
  have hcurKept : t.fld (DMA_CUR_ADDR ch) = s.fld (DMA_CUR_ADDR ch) := hkept.fld (by simp) hcurBlock
  have hringKept : t.fld (DMA_CHCFG_RSP ch) = 1 := (hkept.fld (by simp) hcfgBlock).trans hring
  obtain ⟨hmem, hsram, hbytes, hdonecnt, hnext, hdone⟩ := dmaFinish_dram (d := d) (code := 0) (count := n) hch hringKept
    (fun a => (hkept.ready a).trans (hready a)) (by rw [hcurKept]; exact hcur) hsrc hevt
  have hlen : n < 2 ^ 24 := bitsOf_lt _ 23 0
  have hstatus : 2 ^ 31 + 0 * 2 ^ 28 + n % 2 ^ 24 = 2 ^ 31 + n := by omega
  rw [hcurKept, hstatus] at hmem
  obtain ⟨hpattern, hword5, hword0, hothers⟩ :=
    mem_fill_writeBack (ctl := d.getD 0 0 % 2 ^ 31) hfill hapart (by omega : 2 ^ 31 + n < 2 ^ 32) (by omega)
  refine ⟨_, congrArg Host.Outcome.next hexec, ?_, ?_, ?_, ?_, hsram.trans hkept.sram, hbytes.trans hbytecnt, ?_, hnext, hdone⟩
  · rw [hmem]; exact hpattern
  · rw [hmem]; exact hword5
  · rw [hmem]; exact hword0
  · rw [hmem]; exact hothers
  · rw [hdonecnt, hkept.rd _ (by simp) hcntQuiet]
    rfl

end Sys2Proof.Machine
end

section
/-! SUPPORT. DMA channels and DRAM channels: a fetch reads its descriptor in a REFCLK cycle of its own (O31). -/
namespace Sys2Proof.Machine
open Reg

/-! ### A descriptor in a register that has counted and been read in one cycle -/

/-- DMA channel 0 fetches a descriptor that lies in the registers from RST_CMD on. In the present REFCLK cycle an error completion has been
counted in RST_ISOCNT, which has then been read (R9, R241). -/
def countedAndRead : State :=
  let s := ((State.reset.wr (RST_PDSTAT 2) 0xFFFFFFFF#32).setFld (DMA_CHSTAT_STATE 0) 2).wr (DMA_CUR 0) (BitVec.ofNat 32 RST_CMD)
  (busRead (errorCompletion s) RST_ISOCNT).2.2

/-- A further read in that cycle returns a count of 0 and leaves what the cycle has counted (R8, R9). -/
theorem readDesc_countedAndRead : readDesc countedAndRead 0 [] = (countedAndRead, some [0, 0, 2, 1, 0, 0, 0, 0]) := by decide +kernel

/-- A read in the cycle of the fetch takes the count. -/
theorem isocnt_countedAndRead :
    countedAndRead.rd RST_ISOCNT = 1 ∧ (descriptorFetch countedAndRead.eventCycle 0 []).rd RST_ISOCNT = 0 := by decide +kernel

/-- Refutes O31: its clauses on a fetched descriptor take the words that a read finds before the cycle of the fetch begins. A register that
reads clear is read otherwise in the new cycle (R9): here the fetch clears RST_ISOCNT, which the clause on OWN = 0 leaves unchanged. -/
theorem not_dmaAndChannels : ¬ Obligations.DmaAndChannels := by
  intro h
  obtain ⟨-, hfetch, -⟩ := h
  obtain ⟨hread, -⟩ := hfetch 0 countedAndRead (by decide +kernel)
  obtain ⟨hidle, -⟩ := hread [] [0, 0, 2, 1, 0, 0, 0, 0] (by decide +kernel) readDesc_countedAndRead
  obtain ⟨t, ht, heq⟩ := hidle (by decide) (by decide +kernel)
  obtain ⟨hcount, htaken⟩ := isocnt_countedAndRead
  cases ht
  have hkept := congrArg (·.rd RST_ISOCNT) heq
  exact absurd (htaken.symm.trans (hkept.trans hcount)) (by decide)

end Sys2Proof.Machine
end

section
/-! SUPPORT. What reports leave of the survey, and SRV's accesses of DRAM of its registers. -/
namespace Sys2Proof.Machine
open Reg

/-! ### What reports leave of the survey beside its registers -/

/-- From `s` to `t` what the survey holds beside its registers has not changed. -/
structure KeepsSurvey (s t : State) : Prop where
  srv : t.srv = s.srv

namespace KeepsSurvey

theorem refl (s : State) : KeepsSurvey s s := ⟨rfl⟩

theorem trans {s t u : State} (h : KeepsSurvey s t) (h' : KeepsSurvey t u) : KeepsSurvey s u := ⟨h'.srv.trans h.srv⟩

theorem setFld {s t : State} (h : KeepsSurvey s t) (f : Fld) (v : Nat) : KeepsSurvey s (t.setFld f v) :=
  ⟨(State.setFld_srv _ _ _).trans h.srv⟩

theorem event {s t : State} (h : KeepsSurvey s t) (f : Fld) : KeepsSurvey s (t.event f) := ⟨(State.event_srv _ _).trans h.srv⟩

theorem count {s t : State} (h : KeepsSurvey s t) (f : Fld) (n : Nat) : KeepsSurvey s (t.count f n) :=
  ⟨(State.count_srv _ _ _).trans h.srv⟩

/-- After something that is no concern of the survey's. -/
theorem after {s t u : State} (h : KeepsSurvey u t) (hsrv : u.srv = s.srv) : KeepsSurvey s t := ⟨h.srv.trans hsrv⟩

theorem foldl {α : Type} {l : List α} {f : State → α → State} (hf : ∀ t k, KeepsSurvey t (f t k)) (s : State) :
    KeepsSurvey s (l.foldl f s) := by
  induction l generalizing s with
  | nil => exact refl s
  | cons k r ih => exact (hf s k).trans (ih _)

end KeepsSurvey

theorem keepsSurvey_evAdvance (s : State) (k : Nat) : KeepsSurvey s (evAdvance s k) := by
  unfold evAdvance
  extract_lets c cyc tmr u
  have hcounted : KeepsSurvey s u := ⟨rfl⟩
  split
  · exact (hcounted.event _).event _
  · exact hcounted

theorem keepsSurvey_countSrc (s : State) (src : Nat) : KeepsSurvey s (countSrc s src) := by
  unfold countSrc
  split
  · exact .refl s
  · refine (KeepsSurvey.foldl (fun t k => ?_) _).after rfl
    split
    · exact keepsSurvey_evAdvance t k
    · exact .refl t

theorem keepsSurvey_testShared (s : State) (k sl : Nat) : KeepsSurvey s (testShared s k sl) := by
  unfold testShared
  split <;> exact ⟨rfl⟩

theorem keepsSurvey_msixRequest (s : State) (v : Nat) : KeepsSurvey s (msixRequest s v) := by
  unfold msixRequest
  split
  · exact .refl s
  split
  · exact (KeepsSurvey.refl s).setFld _ _
  split <;> exact ⟨rfl⟩

theorem keepsSurvey_edgeDev (before : Bool) (s : State) (n : Nat) : KeepsSurvey s (edgeDev before s n) := by
  unfold edgeDev
  extract_lets now u
  have hreq : KeepsSurvey s u := by
    unfold u
    split
    · exact keepsSurvey_msixRequest s _
    · exact .refl s
  split
  · exact hreq
  split
  · exact hreq
  · exact hreq.trans (keepsSurvey_testShared _ _ _)

theorem keepsSurvey_occurDev (s : State) (n : Nat) : KeepsSurvey s (occurDev s n) := by
  unfold occurDev
  split
  · exact .refl s
  split
  · exact .refl s
  split
  · exact keepsSurvey_testShared _ _ _
  · exact (keepsSurvey_testShared _ _ _).after rfl

theorem keepsSurvey_putRecord (s : State) (rtype : Nat) (payload : List Nat) : KeepsSurvey s (putRecord s rtype payload) := by
  unfold putRecord
  exact ((KeepsSurvey.refl _).setFld _ _).after rfl

theorem keepsSurvey_faultRecord (s : State) : KeepsSurvey s (faultRecord s) := by
  unfold faultRecord journalAppend
  split
  · exact .refl s
  refine KeepsSurvey.trans ?_ (keepsSurvey_putRecord _ _ _)
  split
  · refine .foldl (fun t p => ?_) s
    exact keepsSurvey_putRecord t p.1 p.2
  · exact .refl s

theorem keepsSurvey_openBlanks (s : State) (m : Nat) (rose : Bool) : KeepsSurvey s (openBlanks s m rose) := by
  refine .foldl (fun t k => ?_) s
  dsimp only
  by_cases hopen : t.fld (CVL_CMPBLK_BPAIR k) = m ∧ bit (t.fld (CVL_CMPBLK_BEDGE k)) (if rose then 0 else 1) = true ∧
    t.fld (CVL_CMPBLK_BLANK k) ≠ 0
  · rw [if_pos hopen]
    exact ⟨rfl⟩
  · rw [if_neg hopen]
    exact .refl t

theorem keepsSurvey_withBlanks {f : State → State} {s : State} (hf : KeepsSurvey s (f s)) (ms : List Nat) :
    KeepsSurvey s (withBlanks ms f s) := by
  refine hf.trans (.foldl (fun t m => ?_) _)
  dsimp only
  split
  · exact .refl t
  · exact keepsSurvey_openBlanks _ _ _

theorem keepsSurvey_safeEnter (s : State) (cause fbit : Nat) : KeepsSurvey s (safeEnter s cause fbit) := by
  unfold safeEnter
  split
  · extract_lets t
    split
    · exact ((KeepsSurvey.refl s).setFld _ _).setFld _ _
    · exact (KeepsSurvey.refl s).setFld _ _
  · extract_lets t u v w
    have hset : KeepsSurvey s t := keepsSurvey_withBlanks ((KeepsSurvey.refl s).setFld _ _) _
    have hshown : KeepsSurvey s w := ((hset.setFld _ _).setFld _ _).setFld _ _
    clear_value w
    exact hshown.trans ((keepsSurvey_faultRecord _).after rfl)

theorem keepsSurvey_firstSource (s : State) (b : Nat) : KeepsSurvey s (firstSource s b) := by
  unfold firstSource
  split
  · extract_lets t
    split
    · exact ((KeepsSurvey.refl s).setFld _ _).setFld _ _
    · exact (KeepsSurvey.refl s).setFld _ _
  · extract_lets t u v w x
    have hshown : KeepsSurvey s x :=
      (((((KeepsSurvey.refl s).setFld _ _).setFld _ _).setFld _ _).setFld _ _).setFld _ _
    clear_value x
    exact hshown.trans ((keepsSurvey_faultRecord _).after rfl)

theorem keepsSurvey_latchLine (s : State) (b : Nat) : KeepsSurvey s (latchLine s b) := by
  unfold latchLine
  split
  · exact .refl s
  extract_lets cyc t newly u v
  have hset : KeepsSurvey s u := by
    refine KeepsSurvey.trans ?_ (keepsSurvey_occurDev _ _)
    exact (keepsSurvey_edgeDev _ _ _).after rfl
  have hfirst : KeepsSurvey s v := by
    unfold v
    split
    · exact hset.trans (keepsSurvey_firstSource u b)
    · exact hset
  split
  · exact hfirst.trans (keepsSurvey_safeEnter v 1 b)
  · exact hfirst

theorem keepsSurvey_tgtUse (s : State) (n : Nat) : KeepsSurvey s (tgtUse s n) := by
  unfold tgtUse
  extract_lets met
  have hmet (t : State) (k : Nat) : KeepsSurvey t (met t k) := by
    unfold met
    split
    · exact (((KeepsSurvey.refl t).count _ _).trans (keepsSurvey_countSrc _ _)).event _
    · exact .refl t
  split
  · refine KeepsSurvey.trans ?_ (keepsSurvey_latchLine _ _)
    by_cases hown : n = 275
    · rw [if_pos hown]
      exact hmet s n
    · rw [if_neg hown]
      exact (hmet s n).trans (hmet _ 275)
  · exact .refl s

/-- An event of a device source is no concern of the survey's. -/
theorem keepsSurvey_devEvent (s : State) (n : Nat) (f : Fld) : KeepsSurvey s (devEvent s n f) :=
  ((((KeepsSurvey.refl s).event f).trans (keepsSurvey_edgeDev _ _ _)).trans (keepsSurvey_tgtUse _ n)).trans (keepsSurvey_occurDev _ n)

theorem reports_devEvent (s : State) (n : Nat) {f : Fld} (hf : reportReg f.off) : Reports s (devEvent s n f) :=
  ((((Reports.refl s).event hf).trans (reports_edgeDev _ _ _)).trans (reports_tgtUse _ n)).trans (reports_occurDev _ n)

/-! ### What SRV's accesses of DRAM leave of its registers -/

/-- From `s` to `t` no register of SRV has changed. -/
def KeepsSrvRegs (s t : State) : Prop := ∀ o, o / 0x100000 = 0x0E → t.rd o = s.rd o

namespace KeepsSrvRegs

theorem refl (s : State) : KeepsSrvRegs s s := fun _ _ => rfl

theorem trans {s t u : State} (h : KeepsSrvRegs s t) (h' : KeepsSrvRegs t u) : KeepsSrvRegs s u :=
  fun o ho => (h' o ho).trans (h o ho)

theorem of_reports {s t : State} (h : Reports s t) : KeepsSrvRegs s t := fun o ho => h.rd o (by rw [ho]; decide)

theorem foldl {α : Type} {l : List α} {f : State → α → State} (hf : ∀ t k, KeepsSrvRegs t (f t k)) (s : State) :
    KeepsSrvRegs s (l.foldl f s) := by
  induction l generalizing s with
  | nil => exact refl s
  | cons k r ih => exact (hf s k).trans (ih _)

theorem flag {s t : State} (h : KeepsSrvRegs s t) {f : Fld} (hf : f.off / 0x100000 = 0x0E) : t.flag f = s.flag f := by
  rw [State.flag, State.fld, h _ hf, State.flag, State.fld]

end KeepsSrvRegs

/-- The error completion shows in RST's registers. -/
theorem keepsSrvRegs_errorCompletion (s : State) : KeepsSrvRegs s (errorCompletion s) := by
  intro o ho
  have hcount : o ≠ RST_ISOCNT_COUNT.off := fun e => by rw [e] at ho; exact absurd ho (by decide)
  have hstat : o ≠ RST_STAT_ISOERR.off := fun e => by rw [e] at ho; exact absurd ho (by decide)
  rw [errorCompletion, State.rd_event_other _ _ _ hstat, State.rd_count_other _ _ _ _ hcount]

theorem keepsSrvRegs_srvRead (s : State) (a n : Nat) : KeepsSrvRegs s (srvRead s a n) := by
  refine .foldl (fun t p => ?_) s
  split
  · exact .of_reports (reports_dramUncorrs t _)
  · exact keepsSrvRegs_errorCompletion t

theorem keepsSrvRegs_srvStore (s : State) (a : Nat) (bs : List Nat) : KeepsSrvRegs s (srvStore s a bs) := by
  refine .foldl (fun t p => ?_) s
  split
  · exact (KeepsSrvRegs.of_reports (reports_dramUncorrs t _)).trans (.refl _)
  · exact keepsSrvRegs_errorCompletion t

theorem keepsSrvRegs_compPass (c : Comp) (b : Nat) (s : State) (p : Nat) : KeepsSrvRegs s (compPass c b s p) := by
  unfold compPass
  split
  · exact .refl s
  · refine .foldl (fun t i => KeepsSrvRegs.trans ?_ (keepsSrvRegs_srvStore _ _ _)) s
    split
    · exact .refl t
    · exact keepsSrvRegs_srvRead t _ _

theorem keepsSrvRegs_compFill (c : Comp) (b : Nat) (s : State) : KeepsSrvRegs s (compFill c b s) := by
  refine KeepsSrvRegs.trans ?_ (.foldl (fun t p => keepsSrvRegs_compPass c b t p) _)
  split
  · exact .foldl (fun t y => keepsSrvRegs_srvStore t _ _) s
  · exact .refl s

/-- A composition is drawn into DRAM: SRV's registers stay. -/
theorem keepsSrvRegs_compDraw (c : Comp) (b : Nat) (s : State) : KeepsSrvRegs s (compDraw c b s) := by
  refine (keepsSrvRegs_compFill c b s).trans (.foldl (fun t a => ?_) _)
  dsimp only
  split <;> exact .refl t

end Sys2Proof.Machine
end

section
/-! SUPPORT. Rate maps and compositions of the survey (O33). -/
namespace Sys2Proof.Machine
open Reg

/-! ### Rate maps (R265, R284) -/

/-- The same record of the survey put on both sides is no difference. -/
theorem OnlyRegs.setSrv {offs : List Nat} {u t : State} (h : OnlyRegs offs u t) (v : SrvState) :
    OnlyRegs offs { u with srv := v } { t with srv := v } := by
  obtain ⟨hrest, hregs⟩ := h
  exact ⟨by rw [hrest], hregs⟩

/-- Clearing a page leaves the bytes outside it. -/
theorem memByte_clearPage (s : State) (g a : Nat) : memByte (clearPage s g).sram a =
    if s.counterAt g 0 0 ≤ a ∧ a < s.counterAt g 0 0 + 0x20000 then 0 else memByte s.sram a := by
  simp only [memByte, clearPage, smGet_smDrop, decide_eq_true_eq]
  split <;> rfl

/-- Where the counters lie is a matter of SRV_PAGEBASE (R263). -/
theorem counterAt_congr {s t : State} (h : t.rd SRV_PAGEBASE = s.rd SRV_PAGEBASE) (g j c : Nat) :
    t.counterAt g j c = s.counterAt g j c := by
  rw [State.counterAt, h, State.counterAt]

/-- The second page follows the first. -/
theorem counterAt_second (s : State) : s.counterAt 1 0 0 = s.counterAt 0 0 0 + 0x20000 := by
  simp [State.counterAt]

theorem memByte_clearPages (s : State) (a : Nat) : memByte (clearPage (clearPage s 0) 1).sram a =
    if s.counterAt 0 0 0 ≤ a ∧ a < s.counterAt 0 0 0 + 0x40000 then 0 else memByte s.sram a := by
  have hbase : (clearPage s 0).counterAt 1 0 0 = s.counterAt 0 0 0 + 0x20000 := counterAt_second s
  rw [memByte_clearPage, memByte_clearPage, hbase]
  split
  · rw [if_pos (by omega)]
  · split
    · rw [if_pos (by omega)]
    · rw [if_neg (by omega)]

/-- The period ends; counting starts again with a period that begins later than now. -/
def endPeriod (s : State) : State := { s with srv := { s.srv with period := none, waitFrom := s.tb.n } }

/-- A write of SRV_CTL with RMCLR. -/
theorem srvCtlWrite_clear (s : State) {v : Word} (h : v.getLsbD 1 = true) : srvCtlWrite s v =
    (clearPage (clearPage (endPeriod (s.setFlag SRV_CTL_RMEN (v.getLsbD 0))) 0) 1).setFld SRV_PAGE_VALID 0 := by
  simp [srvCtlWrite, h, endPeriod]

/-- The write that RATE_MAP_CLEAR makes sets RMCLR beside RMEN as it is. -/
theorem rateMapClear_word (s : State) :
    let v := bitsWord [(0, 0, s.fld SRV_CTL_RMEN), (1, 1, 1)]
    v.getLsbD 1 = true ∧ v.getLsbD 0 = s.flag SRV_CTL_RMEN := by
  have hlt : s.fld SRV_CTL_RMEN < 2 := wField_lt _ 0 0
  have hbit : s.fld SRV_CTL_RMEN = 0 ∨ s.fld SRV_CTL_RMEN = 1 := by omega
  rw [State.flag]
  rcases hbit with h | h
  · rw [h]
    decide
  · rw [h]
    decide

theorem srvCtlWrite_shows (s : State) :
    let t := srvCtlWrite s (bitsWord [(0, 0, s.fld SRV_CTL_RMEN), (1, 1, 1)])
    (∀ a, memByte t.sram a =
      if s.counterAt 0 0 0 ≤ a ∧ a < s.counterAt 0 0 0 + 0x40000 then 0 else memByte s.sram a) ∧
      t.flag SRV_PAGE_VALID = false ∧ t.flag SRV_CTL_RMEN = s.flag SRV_CTL_RMEN ∧
      t.srv = { s.srv with period := none, waitFrom := s.tb.n } ∧
      OnlyRegs [SRV_CTL, SRV_PAGE] { s with sram := t.sram, ecc := t.ecc, srv := t.srv } t := by
  obtain ⟨hclear, hen⟩ := rateMapClear_word s
  dsimp only
  rw [srvCtlWrite_clear s hclear, hen]
  have hbase : (endPeriod (s.setFlag SRV_CTL_RMEN (s.flag SRV_CTL_RMEN))).counterAt 0 0 0 = s.counterAt 0 0 0 :=
    counterAt_congr (State.rd_setFld_other s SRV_CTL_RMEN _ SRV_PAGEBASE (by decide)) 0 0 0
  have hregs := ((OnlyRegs.refl [SRV_CTL, SRV_PAGE] s).setFld (f := SRV_CTL_RMEN) (by decide)
    (b2n (s.flag SRV_CTL_RMEN))).setFld (f := SRV_PAGE_VALID) (by decide) 0
  refine ⟨fun a => ?_, ?_, ?_, rfl, rfl, hregs.2⟩
  · rw [← hbase]
    exact memByte_clearPages _ a
  · exact State.flag_setFlag_same _ SRV_PAGE_VALID false (by unfold Fld.ok; decide)
  · refine Eq.trans ?_ (State.flag_setFlag_same s SRV_CTL_RMEN (s.flag SRV_CTL_RMEN) (by unfold Fld.ok; decide))
    exact ((OnlyRegs.refl [SRV_PAGE] _).setFld (by decide) 0).flag (by decide)

/-! ### Compositions (R267) -/

/-- A start that is requested while a composition is under way, or its swap waits, is kept. -/
theorem compRequest_kept {s : State} (h : (s.srv.comp.isSome || s.srv.swapSeq.isSome) = true) :
    compRequest s = s.setFld SRV_CSTAT_PEND 1 := if_pos h

theorem compRequest_starts {s : State} (hcomp : s.srv.comp = none) (hswap : s.srv.swapSeq = none) :
    compRequest s = compStart s := if_neg (by rw [hcomp, hswap]; decide)

/-- From `s` to `t` a composition begins: it has sampled the completed page, and it shows in the survey's registers. -/
def CompositionBegins (s t : State) : Prop :=
  (∃ c, t.srv = { s.srv with comp := some c } ∧ c.seq = s.fld SRV_PAGE_SEQ ∧ c.valid = s.flag SRV_PAGE_VALID ∧
    c.page = s.counterAt (s.fld SRV_PAGE_IDX) 0 0) ∧
  t.flag SRV_CSTAT_BUSY = true ∧ t.flag SRV_STAT_CBUSY = true ∧ t.flag SRV_CCTL_GO = false ∧
  OnlyRegs [SRV_CCTL, SRV_CSTAT, SRV_CXID, SRV_STAT] { s with srv := t.srv } t

theorem compositionBegins_compStart (s : State) : CompositionBegins s (compStart s) := by
  refine ⟨⟨_, rfl, rfl, rfl, rfl⟩, ?_, ?_, ?_, ?_⟩
  · simp [State.flag, compStart]
  · simp [State.flag, compStart]
  · simp [State.flag, compStart]
  · exact (((((OnlyRegs.refl _ _).setFld (f := SRV_CSTAT_SEQ) (by decide) _).wr (by decide) _).setFld (f := SRV_CSTAT_BUSY)
      (by decide) _).setFld (f := SRV_STAT_CBUSY) (by decide) _).setFld (f := SRV_CCTL_GO) (by decide) _

/-- GO shows before the start is requested. -/
theorem goSet_shows (s : State) :
    let u := s.setFld SRV_CCTL_GO 1
    u.srv = s.srv ∧ OnlyRegs [SRV_CCTL] s u := ⟨State.setFld_srv _ _ _, (OnlyRegs.refl _ s).setFld (by decide) 1⟩

/-- GO starts the composition of an idle survey. -/
theorem compositionGo_starts {s : State} (hcomp : s.srv.comp = none) (hswap : s.srv.swapSeq = none) :
    CompositionBegins s (compRequest (s.setFld SRV_CCTL_GO 1)) := by
  obtain ⟨hsrv, hgo⟩ := goSet_shows s
  generalize s.setFld SRV_CCTL_GO 1 = u at hsrv hgo
  obtain ⟨⟨c, hstarted, hseq, hvalid, hpage⟩, hbusy, hcbusy, hcleared, hregs⟩ := compositionBegins_compStart u
  rw [compRequest_starts (hsrv ▸ hcomp) (hsrv ▸ hswap)]
  refine ⟨⟨c, hsrv ▸ hstarted, ?_, ?_, ?_⟩, hbusy, hcbusy, hcleared, ((hgo.setSrv _).mono (by simp)).trans hregs⟩
  · rw [hseq, hgo.fld (by decide)]
  · rw [hvalid, hgo.flag (by decide)]
  · rw [hpage, hgo.fld (by decide), counterAt_congr (hgo.2 _ (by decide))]

/-- While a composition is under way GO stays pending. -/
theorem compositionGo_kept {s : State} (h : (s.srv.comp.isSome || s.srv.swapSeq.isSome) = true) :
    let t := compRequest (s.setFld SRV_CCTL_GO 1)
    t.flag SRV_CSTAT_PEND = true ∧ OnlyRegs [SRV_CCTL, SRV_CSTAT] s t := by
  obtain ⟨hsrv, hgo⟩ := goSet_shows s
  generalize s.setFld SRV_CCTL_GO 1 = u at hsrv hgo
  rw [compRequest_kept (hsrv ▸ h)]
  exact ⟨State.flag_setFlag_same _ SRV_CSTAT_PEND true (by unfold Fld.ok; decide), (hgo.mono (by simp)).setFld (by decide) _⟩

/-! ### The end of a composition (R270, R271) -/

/-- The frame swap is asked for. -/
def swapAsked (s : State) (c : Comp) : State :=
  ((({ s with srv := { s.srv with comp := none, swapSeq := some c.seq } }.setFld SRV_CSTAT_BUSY 0).setFld SRV_STAT_CBUSY 0).setFld
    SRV_STAT_SWPEND 1)

theorem swapAsked_shows (s : State) (c : Comp) :
    (swapAsked s c).flag SRV_CSTAT_BUSY = false ∧ (swapAsked s c).flag SRV_STAT_SWPEND = true ∧
      (swapAsked s c).flag SRV_DCTL_EN = s.flag SRV_DCTL_EN := by
  have hkept : OnlyRegs [SRV_CSTAT, SRV_STAT] { s with srv := { s.srv with comp := none, swapSeq := some c.seq } } (swapAsked s c) :=
    (((OnlyRegs.refl _ _).setFld (by decide) 0).setFld (by decide) 0).setFld (by decide) 1
  refine ⟨?_, State.flag_setFlag_same _ SRV_STAT_SWPEND true (by unfold Fld.ok; decide), hkept.flag (by decide)⟩
  refine Eq.trans ?_ (State.flag_setFlag_same { s with srv := { s.srv with comp := none, swapSeq := some c.seq } } SRV_CSTAT_BUSY false
    (by unfold Fld.ok; decide))
  exact (((OnlyRegs.refl [SRV_STAT] _).setFld (by decide) 0).setFld (by decide) 1).flag (by decide)

/-- While the display is on the swap waits for vertical blanking. -/
theorem compDone_displayOn {s : State} {c : Comp} (hcomp : s.srv.comp = some c) (hen : s.flag SRV_DCTL_EN = true) :
    compDone s = devEvent (swapAsked (compDraw c (1 - s.srv.front) s) c) 209 ⟨IRQ_PULSE, 1, 1⟩ := by
  have hdrawn := (keepsSrvRegs_compDraw c (1 - s.srv.front) s).flag (f := SRV_DCTL_EN) (by decide)
  obtain ⟨-, -, hasked⟩ := swapAsked_shows (compDraw c (1 - s.srv.front) s) c
  have hreported := (KeepsSrvRegs.of_reports (reports_devEvent (swapAsked (compDraw c (1 - s.srv.front) s) c) 209
    (f := ⟨IRQ_PULSE, 1, 1⟩) ⟨by decide, by decide⟩)).flag (f := SRV_DCTL_EN) (by decide)
  rw [compDone, hcomp]
  exact if_pos (hreported.trans (hasked.trans (hdrawn.trans hen)))

theorem compDone_shows {s : State} {c : Comp} (hcomp : s.srv.comp = some c) (hen : s.flag SRV_DCTL_EN = true) :
    let u := compDraw c (1 - s.srv.front) s
    let t := compDone s
    t.srv = { u.srv with comp := none, swapSeq := some c.seq } ∧ t.dram = u.dram ∧ t.flag SRV_CSTAT_BUSY = false ∧
      t.flag SRV_STAT_SWPEND = true := by
  dsimp only
  rw [compDone_displayOn hcomp hen]
  generalize compDraw c (1 - s.srv.front) s = u
  have hreport := reports_devEvent (swapAsked u c) 209 (f := ⟨IRQ_PULSE, 1, 1⟩) ⟨by decide, by decide⟩
  have hregs := KeepsSrvRegs.of_reports hreport
  obtain ⟨hbusy, hpend, -⟩ := swapAsked_shows u c
  exact ⟨(keepsSurvey_devEvent _ _ _).srv, hreport.dram, (hregs.flag (by decide)).trans hbusy, (hregs.flag (by decide)).trans hpend⟩

/-! ### The commands of O33 -/

/-- A served read by command `i` completes with its effect on the state in which the cycle of the access has begun. -/
theorem completesIn_servedRead {i : Instr} {who : Requester} {off : Nat} {s : State} {f : State → Word × State}
    {P : State → State → Prop} (hexec : exec i s = .next (readAct (s.accessCycle who) who off f))
    (hbegun : begun i s = s.accessCycle who) (hs : ServedRead s who off)
    (h : ∀ c : Cycle, P { s with cyc := c } ((f { s with cyc := c }).2.returned (f { s with cyc := c }).1)) : CompletesIn i s P := by
  refine ⟨_, hexec.trans (congrArg Host.Outcome.next (readAct_served (hs.accessCycle who))), ?_⟩
  obtain ⟨c, hc⟩ := accessCycle_eq_with_cyc s who
  rw [hbegun, hc]
  exact h c

/-- Settles O33: the rate maps, the start and the end of a composition, the latched reads. -/
theorem surveyMaps : Obligations.SurveyMaps := by
  refine ⟨⟨fun who s hs => ?_, fun who s hs => completesIn_servedRead rfl rfl hs fun c => rfl⟩,
    fun who s hs hcomp hswap => ?_, fun who s hs hbusy => ?_, fun c s hup hcomp hen => ?_,
    fun who s hs => completesIn_servedRead rfl rfl hs fun c => rfl⟩
  · refine completesIn_served rfl rfl hs fun c => ?_
    obtain ⟨hbytes, hvalid, hrmen, hsrv, hregs⟩ := srvCtlWrite_shows { s with cyc := c }
    refine ⟨fun a hlo hhi => ?_, fun a hout => ?_, hvalid, hrmen, hsrv, hregs.answer _ _ _⟩
    · exact (hbytes a).trans (if_pos ⟨hlo, hhi⟩)
    · exact (hbytes a).trans (if_neg (by omega))
  · refine completesIn_served rfl rfl hs fun c => ?_
    obtain ⟨hcomposition, hbusy, hcbusy, hgo, hregs⟩ := compositionGo_starts (s := { s with cyc := c }) hcomp hswap
    exact ⟨hcomposition, hbusy, hcbusy, hgo, hregs.answer _ _ _⟩
  · refine completesIn_served rfl rfl hs fun c => ?_
    obtain ⟨hpend, hregs⟩ := compositionGo_kept (s := { s with cyc := c }) hbusy
    exact ⟨hpend, hregs.answer _ _ _⟩
  · have hon : s.eventCycle.flag SRV_DCTL_EN = true := by
      rwa [(keepsSrvRegs_compDraw _ _ _).flag (by decide)] at hen
    have hexec : exec (.compositionDone []) s = .next (compDone s.eventCycle) := congrArg Host.Outcome.next (if_pos hup)
    exact ⟨_, hexec, compDone_shows (s := s.eventCycle) hcomp hon⟩

end Sys2Proof.Machine
end

section
/-! SUPPORT. The display link: the bit of SRV_DCTL that asks for two lanes (O34). -/
namespace Sys2Proof.Machine
open Reg

/-! ### A link of two lanes of which one is a display lane -/

/-- Every domain is up, the host's link too; lane 46 is a display lane and lane 47 is not (R87). The display is off. -/
def oneDisplayLane : State :=
  (({ State.reset with pcie := { PcieState.reset with linkUp := true } }.wr (RST_PDSTAT 0) 0xFFFFFFFF#32).wr
    (RST_PDSTAT 2) 0xFFFFFFFF#32).setFld (LNK_CFG_MODE 46) 2

/-- SRV_DCTL with LANES, its bit 30: a link of two lanes, 46 and 47. Bit 0 is 0. -/
def twoLanes : Word := 0x40000000#32

theorem served_oneDisplayLane : Served oneDisplayLane .host SRV_DCTL := by unfold Served; decide +kernel

/-- The display is enabled, and the link that has no second lane stays off (R278). -/
theorem lstate_oneDisplayLane :
    (dctlWrite (oneDisplayLane.accessCycle .host) (twoLanes ||| 0x80000000#32)).fld SRV_DSTAT_LSTATE = 0 := by decide +kernel

/-- Refutes O34: its clause on DISPLAY_ENABLE takes the lane count from bit 0 of the word written, which SRV_DCTL does not hold. LANES is
bit 30; with it set the link needs lane 47 too, and where that is no display lane the link does not wait for a plug. -/
theorem not_scanOutAndDisplay : ¬ Obligations.ScanOutAndDisplay := by
  rintro ⟨-, hlink⟩
  obtain ⟨henable, -⟩ := hlink oneDisplayLane (by decide +kernel)
  obtain ⟨t, ht, -, hwaits, -⟩ :=
    henable .host twoLanes served_oneDisplayLane (by decide +kernel) (by decide +kernel) (.inl (by decide))
  have hnext : t = (dctlWrite (oneDisplayLane.accessCycle .host) (twoLanes ||| 0x80000000#32)).written := by
    have hserved := writeAct_served (f := fun s => dctlWrite s (twoLanes ||| 0x80000000#32)) (served_oneDisplayLane.accessCycle .host)
    cases ht
    exact hserved
  rw [hnext, fld_written, lstate_oneDisplayLane] at hwaits
  exact absurd hwaits (by decide)

end Sys2Proof.Machine
end

section
/-! SUPPORT. Blanking windows beside what opens them: what they leave (R289). -/
namespace Sys2Proof.Machine
open Reg

/-! ### Blanking windows -/

/-- Opening windows touches nothing else. -/
theorem openBlanks_eq_with_blank (s : State) (m : Nat) (rose : Bool) :
    ∃ b, openBlanks s m rose = { s with cvl := { s.cvl with blank := b } } := by
  refine List.foldlRecOn (motive := fun t => ∃ b, t = { s with cvl := { s.cvl with blank := b } }) _ _ ?_ ?_
  · exact ⟨s.cvl.blank, rfl⟩
  rintro t ⟨b, rfl⟩ k -
  dsimp only
  by_cases hopen : s.fld (CVL_CMPBLK_BPAIR k) = m ∧ bit (s.fld (CVL_CMPBLK_BEDGE k)) (if rose then 0 else 1) = true ∧
    s.fld (CVL_CMPBLK_BLANK k) ≠ 0
  · exact ⟨_, if_pos hopen⟩
  · exact ⟨b, if_neg hopen⟩

theorem withBlanks_eq_with_blank (ms : List Nat) (f : State → State) (s : State) :
    ∃ b, withBlanks ms f s = { f s with cvl := { (f s).cvl with blank := b } } := by
  refine List.foldlRecOn (motive := fun t => ∃ b, t = { f s with cvl := { (f s).cvl with blank := b } }) _ _ ?_ ?_
  · exact ⟨(f s).cvl.blank, rfl⟩
  rintro t ⟨b, rfl⟩ m -
  dsimp only
  split
  · exact ⟨b, rfl⟩
  · obtain ⟨b', hb'⟩ := openBlanks_eq_with_blank { f s with cvl := { (f s).cvl with blank := b } } m
      (State.pwmOut { f s with cvl := { (f s).cvl with blank := b } } m true)
    exact ⟨b', hb'⟩

/-- They are no concern of the pairs. -/
@[simp] theorem pwm_withBlanks (ms : List Nat) (f : State → State) (s : State) (k : Nat) : (withBlanks ms f s).pwm k = (f s).pwm k := by
  obtain ⟨b, hb⟩ := withBlanks_eq_with_blank ms f s
  rw [hb]
  rfl

end Sys2Proof.Machine
end

section
/-! SUPPORT. PWM pairs: edges, the values that a pair takes over, the beginning of a period (O38). -/
namespace Sys2Proof.Machine
open Reg

/-! ### What the work on one pair leaves -/

/-- From `s` to `t` nothing has changed but pair `m` and which comparators are in a blanking window. -/
structure OnlyPair (m : Nat) (s t : State) : Prop where
  rest : t = { s with cvl := { s.cvl with pairs := t.cvl.pairs, blank := t.cvl.blank } }
  other : ∀ k, k ≠ m → t.pwm k = s.pwm k

namespace OnlyPair

theorem refl (m : Nat) (s : State) : OnlyPair m s s := ⟨rfl, fun _ _ => rfl⟩

theorem trans {m : Nat} {s t u : State} (h : OnlyPair m s t) (h' : OnlyPair m t u) : OnlyPair m s u :=
  ⟨by rw [h'.rest, h.rest], fun k hk => (h'.other k hk).trans (h.other k hk)⟩

theorem setPwm {m : Nat} {s t : State} (h : OnlyPair m s t) (x : PwmX) : OnlyPair m s (t.setPwm m x) :=
  h.trans ⟨rfl, fun k hk => State.pwm_setPwm_other t m k x hk⟩

theorem withBlanks {m : Nat} {s : State} {f : State → State} (h : OnlyPair m s (f s)) (ms : List Nat) :
    OnlyPair m s (withBlanks ms f s) := by
  refine h.trans ⟨?_, fun k _ => pwm_withBlanks ms f s k⟩
  obtain ⟨b, hb⟩ := withBlanks_eq_with_blank ms f s
  rw [hb]

theorem eq_with_cvl {m : Nat} {s t : State} (h : OnlyPair m s t) : t = { s with cvl := t.cvl } := by rw [h.rest]

end OnlyPair

/-! ### The period of a pair -/

/-- `y` is in the same period as `x`, with the same values in force and pending. -/
structure PwmX.SamePeriod (x y : PwmX) : Prop where
  cur : y.cur = x.cur
  pend : y.pend = x.pend
  start : y.start = x.start
  fin : y.fin = x.fin

theorem PwmX.SamePeriod.refl (x : PwmX) : x.SamePeriod x := ⟨rfl, rfl, rfl, rfl⟩

theorem PwmX.SamePeriod.trans {x y z : PwmX} (h : x.SamePeriod y) (h' : y.SamePeriod z) : x.SamePeriod z :=
  ⟨h'.cur.trans h.cur, h'.pend.trans h.pend, h'.start.trans h.start, h'.fin.trans h.fin⟩

theorem samePeriod_accrue (x : PwmX) (fine t : Nat) : x.SamePeriod (x.accrue fine t) := by
  unfold PwmX.accrue
  split <;> exact ⟨rfl, rfl, rfl, rfl⟩

/-- On-time is counted up to `t` (R298). -/
theorem since_accrue {x : PwmX} {fine t : Nat} (h : (x.accrue fine t).w = true) : (x.accrue fine t).since = t := by
  unfold PwmX.accrue at h ⊢
  split at h
  next hw => rw [if_pos hw]
  next hw => exact absurd h hw

/-- An edge belongs to the period in which it comes. -/
theorem samePeriod_produce (x : PwmX) (fine t : Nat) (comp : Bool) (nominal : Bool → Nat × Nat) (ev : PwmEv) :
    x.SamePeriod (x.produce fine t comp nominal ev) := by
  cases ev with
  | rise second =>
    cases second
    · cases comp <;> cases hw : x.w <;> simp only [PwmX.produce, PwmX.drop, hw] <;> exact ⟨rfl, rfl, rfl, rfl⟩
    · exact ⟨rfl, rfl, rfl, rfl⟩
  | fall second =>
    obtain ⟨hcur, hpend, hstart, hfin⟩ := samePeriod_accrue x fine t
    cases second <;> cases comp
    · exact ⟨hcur, hpend, hstart, hfin⟩
    · exact ⟨hcur, hpend, hstart, hfin⟩
    · exact ⟨rfl, rfl, rfl, rfl⟩
    · exact ⟨rfl, rfl, rfl, rfl⟩
  | aRise => exact ⟨rfl, rfl, rfl, rfl⟩
  | bRise => exact ⟨rfl, rfl, rfl, rfl⟩

/-- Work on pair `m` within its period: edges. -/
structure EdgesOf (m : Nat) (s t : State) : Prop where
  only : OnlyPair m s t
  period : (s.pwm m).SamePeriod (t.pwm m)

theorem EdgesOf.refl (m : Nat) (s : State) : EdgesOf m s s := ⟨.refl m s, .refl _⟩

theorem EdgesOf.trans {m : Nat} {s t u : State} (h : EdgesOf m s t) (h' : EdgesOf m t u) : EdgesOf m s u :=
  ⟨h.only.trans h'.only, h.period.trans h'.period⟩

theorem EdgesOf.ite {m : Nat} {s t u : State} {c : Prop} [Decidable c] (ht : EdgesOf m s t) (hu : EdgesOf m s u) :
    EdgesOf m s (if c then t else u) := by
  split
  · exact ht
  · exact hu

theorem edgesOf_setPwm {m : Nat} {s : State} {x : PwmX} (h : (s.pwm m).SamePeriod x) : EdgesOf m s (s.setPwm m x) :=
  ⟨(OnlyPair.refl m s).setPwm x, by rwa [State.pwm_setPwm_same]⟩

/-! ### Edges (R294, R297) -/

theorem pwm_pwmProduce (s : State) (m t : Nat) (ev : PwmEv) : (pwmProduce s m t ev).pwm m =
    (s.pwm m).produce (s.fine m) t (s.complementary m) (s.nominal m) ev := by
  simp [pwmProduce]

theorem edgesOf_pwmProduce (s : State) (m t : Nat) (ev : PwmEv) : EdgesOf m s (pwmProduce s m t ev) :=
  ⟨((OnlyPair.refl m s).setPwm _).withBlanks _, by rw [pwm_pwmProduce]; exact samePeriod_produce _ _ _ _ _ _⟩

/-- Zones are a matter of the slots alone. -/
@[simp] theorem inZone_setPwm (s : State) (m : Nat) (x : PwmX) (k t : Nat) : (s.setPwm m x).inZone k t = s.inZone k t := rfl

/-- An edge position inside a zone is deferred. -/
theorem pwmEdge_deferred {s : State} {m : Nat} {e : PwmEdge} {rest : List PwmEdge} (hup : s.up 92 = true)
    (hrun : (s.pwm m).run = true) (hedges : (s.pwm m).edges = e :: rest) (hzone : s.inZone m e.t = true) :
    pwmEdge s m = (s.setPwm m { s.pwm m with edges := rest }).setPwm m
      { s.pwm m with edges := rest, waits := (s.pwm m).waits ++ [e.ev] } := by
  simp [pwmEdge, hedges, hrun, hup, hzone]

/-- Outside one it is produced. -/
theorem pwmEdge_produced {s : State} {m : Nat} {e : PwmEdge} {rest : List PwmEdge} (hup : s.up 92 = true)
    (hrun : (s.pwm m).run = true) (hedges : (s.pwm m).edges = e :: rest) (hzone : s.inZone m e.t = false) :
    pwmEdge s m = pwmProduce (s.setPwm m { s.pwm m with edges := rest }) m e.t e.ev := by
  simp [pwmEdge, hedges, hrun, hup, hzone]

theorem edgesOf_pwmEdge (s : State) (m : Nat) : EdgesOf m s (pwmEdge s m) := by
  unfold pwmEdge
  extract_lets x
  split
  · exact .refl m s
  next e rest _ =>
    extract_lets u
    have htaken : EdgesOf m s u := edgesOf_setPwm ⟨rfl, rfl, rfl, rfl⟩
    split
    · exact .refl m s
    split
    · exact htaken.trans (edgesOf_setPwm ⟨rfl, rfl, rfl, rfl⟩)
    · exact htaken.trans (edgesOf_pwmProduce u m e.t e.ev)

theorem edgesOf_pwmOverdue (t fuel m : Nat) (s : State) : EdgesOf m s (pwmOverdue t fuel m s) := by
  induction fuel generalizing s with
  | zero => exact .refl m s
  | succ fuel ih =>
    unfold pwmOverdue
    split
    · exact .refl m s
    split
    · exact (edgesOf_pwmEdge s m).trans (ih _)
    · exact .refl m s

theorem mem_edgeInsert (e : PwmEdge) (l : List PwmEdge) : e ∈ edgeInsert e l := by
  induction l with
  | nil => exact List.mem_singleton_self e
  | cons h r ih =>
    unfold edgeInsert
    split
    · exact List.mem_cons_self
    · exact List.mem_cons_of_mem _ ih

/-- A rise of W: A rises at once, or, in a complementary pair, B falls and A follows after its dead time. -/
theorem produce_rise (x : PwmX) (fine t : Nat) (comp : Bool) (nominal : Bool → Nat × Nat) :
    let y := x.produce fine t comp nominal (.rise false)
    y.w = true ∧ (comp = false → y.a = true) ∧
      (comp = true → y.b = false ∧ ({ t := t + x.cur.dta * fine, ev := .aRise } : PwmEdge) ∈ y.edges) := by
  cases comp <;> cases hw : x.w <;> simp [PwmX.produce, PwmX.drop, hw, mem_edgeInsert]

/-- A fall of W: A falls at once, and in a complementary pair B rises after its dead time. -/
theorem produce_fall (x : PwmX) (fine t : Nat) (comp : Bool) (nominal : Bool → Nat × Nat) :
    let y := x.produce fine t comp nominal (.fall false)
    y.w = false ∧ y.a = false ∧ (comp = true → ({ t := t + x.cur.dtb * fine, ev := .bRise } : PwmEdge) ∈ y.edges) := by
  have hcur : (x.accrue fine t).cur = x.cur := (samePeriod_accrue x fine t).cur
  cases comp <;> simp [PwmX.produce, PwmX.drop, hcur, mem_edgeInsert]

/-! ### New values in force (R295, R296) -/

theorem samePeriod_setEdges (x : PwmX) (es : List PwmEdge) (ws : List PwmEv) : x.SamePeriod { x with edges := es, waits := ws } :=
  ⟨rfl, rfl, rfl, rfl⟩

theorem edgesOf_pwmRetime (t m : Nat) (s : State) (second : Bool) : EdgesOf m s (pwmRetime t m s second) := by
  have hedges (es : List PwmEdge) (ws : List PwmEv) : EdgesOf m s (s.setPwm m { s.pwm m with edges := es, waits := ws }) :=
    edgesOf_setPwm (samePeriod_setEdges _ _ _)
  unfold pwmRetime
  extract_lets fine n x put d held r y
  exact .ite (.ite (.refl m s) (hedges _ _)) (.ite (hedges _ _) (.ite (hedges _ _) (.ite (.refl m s) (hedges _ _))))

theorem samePeriod_redelay (x : PwmX) (fine t : Nat) : x.SamePeriod (x.redelay fine t) := by
  unfold PwmX.redelay
  extract_lets move
  have hmove (x : PwmX) (ev : PwmEv) (dt : Nat) : x.SamePeriod (move x ev dt) := by
    unfold move
    split <;> exact ⟨rfl, rfl, rfl, rfl⟩
  exact (hmove _ _ _).trans (hmove _ _ _)

/-- The pending values come into force within the period. -/
structure TakesOver (m : Nat) (s t : State) : Prop where
  only : OnlyPair m s t
  cur : (t.pwm m).cur = (s.pwm m).pend
  start : (t.pwm m).start = (s.pwm m).start

theorem TakesOver.edges {m : Nat} {s t u : State} (h : TakesOver m s t) (h' : EdgesOf m t u) : TakesOver m s u :=
  ⟨h.only.trans h'.only, h'.period.cur.trans h.cur, h'.period.start.trans h.start⟩

theorem EdgesOf.takesOver {m : Nat} {s t u : State} (h : EdgesOf m s t) (h' : TakesOver m t u) : TakesOver m s u :=
  ⟨h.only.trans h'.only, h'.cur.trans h.period.pend, h'.start.trans h.period.start⟩

theorem takesOver_setPwm {m : Nat} {s : State} {x : PwmX} (hcur : x.cur = (s.pwm m).pend) (hstart : x.start = (s.pwm m).start) :
    TakesOver m s (s.setPwm m x) :=
  ⟨(OnlyPair.refl m s).setPwm x, by rwa [State.pwm_setPwm_same], by rwa [State.pwm_setPwm_same]⟩

theorem takesOver_pwmApply (s : State) (m t : Nat) : TakesOver m s (pwmApply s m t) := by
  unfold pwmApply
  extract_lets u x fine p cut y z
  refine (edgesOf_pwmOverdue t 64 m s).takesOver ?_
  split
  next hsame => exact ⟨.refl m u, hsame.symm, rfl⟩
  have hz : (x.pend = z.cur) ∧ x.start = z.start := by
    unfold z
    split
    · exact ⟨(samePeriod_redelay y fine t).cur.symm, (samePeriod_redelay y fine t).start.symm⟩
    · exact ⟨rfl, rfl⟩
  split
  · exact takesOver_setPwm rfl rfl
  · have hset : TakesOver m u (u.setPwm m z) := takesOver_setPwm hz.1.symm hz.2.symm
    refine List.foldlRecOn (motive := TakesOver m u) _ _ hset fun v hv second _ => ?_
    exact hv.edges (edgesOf_pwmRetime t m v second)

theorem onlyPair_pwmChanged (s : State) (m t : Nat) : OnlyPair m s (pwmChanged s m t) := by
  unfold pwmChanged
  split
  · exact (takesOver_pwmApply s m t).only
  · exact .refl m s

/-- But under UPD 0b00 a change waits for an update point. -/
theorem pwmChanged_of_upd {s : State} {m : Nat} (h : s.fld (CVL_PCTL_UPD m) ≠ 0) (t : Nat) : pwmChanged s m t = s :=
  if_neg fun hnow => h hnow.1

/-! ### The beginning of a period (R292, R293, R298) -/

/-- `y` is in a period with the values and bounds of `x` that begins at `t`: no on-time has been counted. -/
structure PwmX.BeginsAt (t : Nat) (x y : PwmX) : Prop extends x.SamePeriod y where
  high : y.high = 0
  since : y.w = true → y.since = t

theorem PwmX.BeginsAt.setEdges {t : Nat} {x y : PwmX} (h : x.BeginsAt t y) (es : List PwmEdge) (ws : List PwmEv) :
    x.BeginsAt t { y with edges := es, waits := ws } :=
  ⟨h.toSamePeriod.trans (samePeriod_setEdges y es ws), h.high, h.since⟩

/-- A fall at the beginning adds no on-time. -/
theorem PwmX.BeginsAt.produce_fall {t : Nat} {x y : PwmX} (h : x.BeginsAt t y) (fine : Nat) (comp : Bool)
    (nominal : Bool → Nat × Nat) (second : Bool) : x.BeginsAt t (y.produce fine t comp nominal (.fall second)) := by
  have hperiod := h.toSamePeriod.trans (samePeriod_produce y fine t comp nominal (.fall second))
  have haccrued : (y.accrue fine t).high = 0 := by
    unfold PwmX.accrue
    split
    next hw => simp [h.high, h.since hw]
    next => exact h.high
  refine ⟨hperiod, ?_, ?_⟩
  · cases second <;> cases comp <;> simp [PwmX.produce, PwmX.drop, haccrued, h.high]
  · cases second
    · cases comp <;> simp [PwmX.produce, PwmX.drop]
    · exact h.since

/-- From `s`, work on pair `m` has led to such a period. -/
structure PairBegins (m t : Nat) (x : PwmX) (s u : State) : Prop where
  only : OnlyPair m s u
  begins : x.BeginsAt t (u.pwm m)

namespace PairBegins

theorem setEdges {m t : Nat} {x : PwmX} {s u : State} (h : PairBegins m t x s u) (es : List PwmEdge) (ws : List PwmEv) :
    PairBegins m t x s (u.setPwm m { u.pwm m with edges := es, waits := ws }) :=
  ⟨h.only.setPwm _, by rw [State.pwm_setPwm_same]; exact h.begins.setEdges es ws⟩

theorem fall {m t : Nat} {x : PwmX} {s u : State} (h : PairBegins m t x s u) (second : Bool) :
    PairBegins m t x s (pwmProduce u m t (.fall second)) :=
  ⟨h.only.trans (edgesOf_pwmProduce u m t _).only, by rw [pwm_pwmProduce]; exact h.begins.produce_fall _ _ _ second⟩

theorem ite {m t : Nat} {x : PwmX} {s u v : State} {c : Prop} [Decidable c] (hu : PairBegins m t x s u)
    (hv : PairBegins m t x s v) : PairBegins m t x s (if c then u else v) := by
  split
  · exact hu
  · exact hv

end PairBegins

/-- The waveforms of a period are set up within it. -/
theorem pairBegins_pwmBegin {s : State} {m t : Nat} {x : PwmX} (h : x.BeginsAt t (s.pwm m)) (early : Bool) :
    PairBegins m t x s (pwmBegin s m t early) := by
  unfold pwmBegin
  refine List.foldlRecOn (motive := PairBegins m t x s) _ _ ⟨.refl m s, h⟩ fun u hu second _ => ?_
  exact .ite (.ite (hu.setEdges _ _) (hu.setEdges _ _))
    (.ite (.ite ((hu.setEdges _ _).fall second) (((hu.setEdges _ _).fall second).setEdges _ _))
      (.ite (hu.setEdges _ _) (hu.setEdges _ _)))

/-! ### Registers beside the converter block's own state -/

theorem OnlyRegs.setCvl {offs : List Nat} {u t : State} (h : OnlyRegs offs u t) (v : CvlState) :
    OnlyRegs offs { u with cvl := v } { t with cvl := v } := by
  obtain ⟨hrest, hregs⟩ := h
  exact ⟨by rw [hrest], hregs⟩

/-- From `s` to `t` nothing has changed but the registers at `offs` and what the converter block holds beside its registers. -/
def OnlyCvl (offs : List Nat) (s t : State) : Prop := OnlyRegs offs { s with cvl := t.cvl } t

namespace OnlyCvl

theorem refl (offs : List Nat) (s : State) : OnlyCvl offs s s := OnlyRegs.refl offs s

theorem trans {offs : List Nat} {s t u : State} (h : OnlyCvl offs s t) (h' : OnlyCvl offs t u) : OnlyCvl offs s u :=
  (OnlyRegs.setCvl h u.cvl).trans h'

theorem mono {offs offs' : List Nat} {s t : State} (h : OnlyCvl offs s t) (hsub : offs ⊆ offs') : OnlyCvl offs' s t :=
  OnlyRegs.mono h hsub

theorem setFld {offs : List Nat} {s t : State} (h : OnlyCvl offs s t) {f : Fld} (hf : f.off ∈ offs) (v : Nat) :
    OnlyCvl offs s (t.setFld f v) := OnlyRegs.setFld h hf v

theorem setCvl {offs : List Nat} {s t : State} (h : OnlyCvl offs s t) (v : CvlState) : OnlyCvl offs s { t with cvl := v } :=
  OnlyRegs.setCvl h v

theorem fld {offs : List Nat} {s t : State} (h : OnlyCvl offs s t) {f : Fld} (hf : f.off ∉ offs) : t.fld f = s.fld f :=
  OnlyRegs.fld h hf

theorem flag {offs : List Nat} {s t : State} (h : OnlyCvl offs s t) {f : Fld} (hf : f.off ∉ offs) : t.flag f = s.flag f :=
  OnlyRegs.flag h hf

theorem ecc {offs : List Nat} {s t : State} (h : OnlyCvl offs s t) : t.ecc = s.ecc := by
  rw [h.1]

end OnlyCvl

/-- What leaves all of the converter block's own state. -/
theorem OnlyRegs.onlyCvl {offs : List Nat} {s t : State} (h : OnlyRegs offs s t) : OnlyCvl offs s t := by
  have hcvl : t.cvl = s.cvl := by rw [h.1]
  rw [OnlyCvl, hcvl]
  exact h

theorem OnlyPair.onlyCvl {m : Nat} {s t : State} (h : OnlyPair m s t) (offs : List Nat) : OnlyCvl offs s t := by
  rw [h.rest]
  exact .setCvl (.refl offs s) _

/-! ### Microstep units at the beginning of a period (R303) -/

/-- From `s` to `t` units have stepped: pair `m`'s period is as it was, but for a pending duty. -/
structure UnitsStep (m : Nat) (s t : State) : Prop where
  regs : OnlyCvl ((List.range 16).map CVL_MSPOS) s t
  cur : (t.pwm m).cur = (s.pwm m).cur
  start : (t.pwm m).start = (s.pwm m).start
  fin : (t.pwm m).fin = (s.pwm m).fin
  high : (t.pwm m).high = (s.pwm m).high

namespace UnitsStep

theorem refl (m : Nat) (s : State) : UnitsStep m s s := ⟨.refl _ s, rfl, rfl, rfl, rfl⟩

theorem trans {m : Nat} {s t u : State} (h : UnitsStep m s t) (h' : UnitsStep m t u) : UnitsStep m s u :=
  ⟨h.regs.trans h'.regs, h'.cur.trans h.cur, h'.start.trans h.start, h'.fin.trans h.fin, h'.high.trans h.high⟩

/-- Effects that leave pair `m` alone. -/
theorem of_pwm_eq {m : Nat} {s t : State} (hregs : OnlyCvl ((List.range 16).map CVL_MSPOS) s t) (hpwm : t.pwm m = s.pwm m) :
    UnitsStep m s t := ⟨hregs, by rw [hpwm], by rw [hpwm], by rw [hpwm], by rw [hpwm]⟩

end UnitsStep

/-- A unit's duty becomes pending. -/
theorem unitsStep_setDuty (m : Nat) (s : State) (k d : Nat) :
    UnitsStep m s (s.setPwm k { s.pwm k with pend := { (s.pwm k).pend with dutyA := d } }) := by
  by_cases hk : m = k
  · subst hk
    exact ⟨.setCvl (.refl _ s) _, by rw [State.pwm_setPwm_same], by rw [State.pwm_setPwm_same], by rw [State.pwm_setPwm_same],
      by rw [State.pwm_setPwm_same]⟩
  · exact .of_pwm_eq (.setCvl (.refl _ s) _) (State.pwm_setPwm_other s k m _ hk)

/-- A pair that waits for its update point does not take its new duty over. -/
theorem unitsStep_pwmChanged {m : Nat} {s : State} (hupd : s.fld (CVL_PCTL_UPD m) ≠ 0) (k t : Nat) :
    UnitsStep m s (pwmChanged s k t) := by
  by_cases hk : m = k
  · rw [← hk, pwmChanged_of_upd hupd]
    exact .refl m s
  · exact .of_pwm_eq ((onlyPair_pwmChanged s k t).onlyCvl _) ((onlyPair_pwmChanged s k t).other m hk)

theorem pctl_not_mem_mspos (m : Nat) : CVL_PCTL m ∉ (List.range 16).map CVL_MSPOS := by
  rw [List.mem_map]
  rintro ⟨k, -, heq⟩
  unfold CVL_MSPOS CVL_PCTL at heq
  omega

theorem mscfg_not_mem_mspos (u : Nat) : CVL_MSCFG u ∉ (List.range 16).map CVL_MSPOS := by
  rw [List.mem_map]
  rintro ⟨k, -, heq⟩
  unfold CVL_MSPOS CVL_MSCFG at heq
  omega

theorem unitsStep_microstep {m : Nat} {s : State} (hecc : s.ecc = []) (hupd : s.fld (CVL_PCTL_UPD m) ≠ 0) (t : Nat)
    {u : Nat} (hu : u < 16) : UnitsStep m s (microstep t s u) := by
  unfold microstep
  extract_lets p0 tbl k pos tgt still stepNow inc pos' cvl v w ia ib damaged setDuty leg
  have hshown : (CVL_MSPOS_POS u).off ∈ (List.range 16).map CVL_MSPOS := List.mem_map_of_mem (List.mem_range.2 hu)
  have hpos : UnitsStep m s w := .of_pwm_eq (.setFld (.setCvl (.refl _ s) _) hshown _) rfl
  have hsound (off : Nat) : w.ecc.contains off = false := by rw [hpos.regs.ecc, hecc]; rfl
  have hleg (s : State) (k : Nat) (v : Int) : UnitsStep m s (leg s k v) := by
    unfold leg
    dsimp only
    split <;> exact (unitsStep_setDuty m s _ _).trans (unitsStep_setDuty m _ _ _)
  rw [hsound, hsound]
  have hlegs : UnitsStep m s (leg (leg w p0 (sext 16 (w.fld (CVL_MSTBL_VAL tbl ia)))) (p0 + 2)
      (sext 16 (w.fld (CVL_MSTBL_VAL tbl ib)))) := (hpos.trans (hleg _ _ _)).trans (hleg _ _ _)
  refine List.foldlRecOn (motive := UnitsStep m s) _ _ hlegs fun y hy k _ => hy.trans (unitsStep_pwmChanged ?_ k t)
  rwa [hy.regs.fld (pctl_not_mem_mspos m)]

/-- All the units of the pair. -/
theorem unitsStep_all {m : Nat} {s : State} (hecc : s.ecc = []) (t : Nat)
    (hupd : s.fld (CVL_PCTL_UPD m) ≠ 0 ∨ ∀ u, u < 16 → s.flag (CVL_MSCFG_EN u) = true → s.fld (CVL_MSCFG_PAIR0 u) ≠ m) :
    UnitsStep m s ((List.range 16).foldl (fun s u =>
      if s.flag (CVL_MSCFG_EN u) && decide (s.fld (CVL_MSCFG_PAIR0 u) = m) then microstep t s u else s) s) := by
  refine List.foldlRecOn (motive := UnitsStep m s) _ _ (.refl m s) fun y hy u hu => ?_
  split
  case isFalse => exact hy
  case isTrue hunit =>
    have hu : u < 16 := List.mem_range.1 hu
    rw [Bool.and_eq_true, decide_eq_true_eq, hy.regs.flag (mscfg_not_mem_mspos u), hy.regs.fld (mscfg_not_mem_mspos u)] at hunit
    have hwaits : s.fld (CVL_PCTL_UPD m) ≠ 0 := hupd.resolve_right fun hnone => hnone u hu hunit.1 hunit.2
    refine hy.trans (unitsStep_microstep (hy.regs.ecc.trans hecc) ?_ t hu)
    rwa [hy.regs.fld (pctl_not_mem_mspos m)]

/-! ### The end of a period (R292, R298) -/

/-- The account is kept and shown, and the on-time starts from nothing. -/
theorem pwmAccount_eq (s : State) (m : Nat) :
    ∃ a, pwmAccount s m = (s.setPwm m { s.pwm m with acct := a, high := 0 }).setFld (CVL_PSTAT_ACCT m) (wrapN 21 a) := ⟨_, rfl⟩

/-- Loops that count a pair's periods leave the pairs and the registers. -/
theorem loopPeriods_eq_with_loops (s : State) (m : Nat) : ∃ l, loopPeriods s m = { s with cvl := { s.cvl with loops := l } } := by
  refine List.foldlRecOn (motive := fun t => ∃ l, t = { s with cvl := { s.cvl with loops := l } }) _ _ ?_ ?_
  · exact ⟨s.cvl.loops, rfl⟩
  rintro t ⟨l, rfl⟩ i -
  exact ⟨_, rfl⟩

/-- Up to its end the pair works within the period. -/
theorem pwmAccount_atEnd (s : State) (m t : Nat) :
    let u := pwmOverdue t 64 m s
    let v := pwmAccount (u.setPwm m ((u.pwm m).accrue (u.fine m) t)) m
    OnlyCvl [CVL_PSTAT m] s v ∧ (v.pwm m).pend = (s.pwm m).pend ∧ (v.pwm m).high = 0 ∧
      ((v.pwm m).w = true → (v.pwm m).since = t) := by
  intro u v
  obtain ⟨honly, hperiod⟩ := edgesOf_pwmOverdue t 64 m s
  obtain ⟨a, ha⟩ := pwmAccount_eq (u.setPwm m ((u.pwm m).accrue (u.fine m) t)) m
  have hpwm : v.pwm m = { (u.pwm m).accrue (u.fine m) t with acct := a, high := 0 } := by
    unfold v
    rw [ha, State.pwm_setPwm_same]
    exact State.pwm_setPwm_same _ m _
  refine ⟨?_, ?_, ?_, ?_⟩
  · unfold v
    rw [ha]
    exact .setFld (.setCvl (.setCvl (honly.onlyCvl _) _) _) (List.mem_singleton_self _) _
  · rw [hpwm]
    exact (samePeriod_accrue (u.pwm m) _ t).pend.trans hperiod.pend
  · rw [hpwm]
  · rw [hpwm]
    exact since_accrue

/-- From `s` to `u` pair `m` has begun a period at `t`, with the values that were pending (R295). -/
structure PeriodBegins (m t : Nat) (s u : State) : Prop where
  regs : OnlyCvl (CVL_PSTAT m :: (List.range 16).map CVL_MSPOS) s u
  cur : (u.pwm m).cur = (s.pwm m).pend
  start : (u.pwm m).start = t
  fin : (u.pwm m).fin = (s.pwm m).pend.pl
  high : (u.pwm m).high = 0

theorem periodBegins_pwmPeriod {s : State} {m t : Nat} (early : Bool) (hecc : s.ecc = [])
    (hupd : s.fld (CVL_PCTL_UPD m) ≠ 0 ∨ ∀ u, u < 16 → s.flag (CVL_MSCFG_EN u) = true → s.fld (CVL_MSCFG_PAIR0 u) ≠ m) :
    PeriodBegins m t s (pwmPeriod s m t early) := by
  unfold pwmPeriod
  extract_lets u v w x early' y z
  obtain ⟨hregs, hpend, hhigh, hsince⟩ := pwmAccount_atEnd s m t
  have hbegun : OnlyPair m w y ∧ PwmX.BeginsAt t { x with cur := x.pend, start := t, fin := x.pend.pl } (y.pwm m) := by
    unfold y
    have hset := pairBegins_pwmBegin (s := w.setPwm m { x with
      cur := x.pend, start := t, startCyc := w.cycle, fin := x.pend.pl, short := false, forced := w.safe || w.pairTripped m,
      hit := w.pairTripped m, shift := 0, shift2 := 0, risen := false, risen2 := false }) (m := m) (t := t)
      (x := { x with cur := x.pend, start := t, fin := x.pend.pl }) (by
        rw [State.pwm_setPwm_same]
        exact ⟨⟨rfl, rfl, rfl, rfl⟩, hhigh, hsince⟩) early'
    rw [pwm_withBlanks]
    exact ⟨(((OnlyPair.refl m w).setPwm _).trans hset.only).withBlanks _, hset.begins⟩
  obtain ⟨honly, hperiod, hhigh', -⟩ := hbegun
  have hregs' : OnlyCvl [CVL_PSTAT m] s y := hregs.trans (honly.onlyCvl _)
  have hupd' : y.fld (CVL_PCTL_UPD m) ≠ 0 ∨
      ∀ u, u < 16 → y.flag (CVL_MSCFG_EN u) = true → y.fld (CVL_MSCFG_PAIR0 u) ≠ m := by
    have hpctl : (CVL_PCTL_UPD m).off ∉ [CVL_PSTAT m] := by simp
    have hmscfg (k : Nat) : CVL_MSCFG k ∉ [CVL_PSTAT m] := by
      rw [List.mem_singleton]
      unfold CVL_MSCFG CVL_PSTAT
      omega
    refine hupd.imp (fun h => by rwa [hregs'.fld hpctl]) fun h k hk hen => ?_
    rw [hregs'.flag (hmscfg k)] at hen
    rw [hregs'.fld (hmscfg k)]
    exact h k hk hen
  have hunits : UnitsStep m y z := unitsStep_all (hregs'.ecc.trans hecc) t hupd'
  obtain ⟨l, hl⟩ := loopPeriods_eq_with_loops z m
  rw [hl]
  exact {
    regs := .setCvl ((hregs'.mono (by simp)).trans (hunits.regs.mono (List.subset_cons_self _ _))) _
    cur := (hunits.cur.trans hperiod.cur).trans hpend
    start := hunits.start.trans hperiod.start
    fin := (hunits.fin.trans hperiod.fin).trans (congrArg PwmVals.pl hpend)
    high := hunits.high.trans hhigh' }

theorem pwmPeriodEnd_running {s : State} {m : Nat} (hup : s.up 92 = true) (hrun : (s.pwm m).run = true) :
    pwmPeriodEnd s m = pwmPeriod s m ((s.pwm m).start + (s.pwm m).fin * s.fine m) false := by
  simp [pwmPeriodEnd, hup, hrun]

/-! ### The commands of O38 -/

theorem pwmUpdatePoint_elsewhere {s : State} {m : Nat} (h : s.fld (CVL_PCTL_UPD m) ≠ 2) : pwmUpdatePoint s m = s := by
  simp [pwmUpdatePoint, h]

theorem pwmUpdatePoint_takesOver {s : State} {m : Nat} (hup : s.up 92 = true) (hrun : (s.pwm m).run = true)
    (h : s.fld (CVL_PCTL_UPD m) = 2) : TakesOver m s (pwmUpdatePoint s m) := by
  have happly : pwmUpdatePoint s m = pwmApply s m ((s.pwm m).start + 16 * ((s.pwm m).cur.per / 2) * s.fine m) := by
    simp [pwmUpdatePoint, hup, hrun, h]
  rw [happly]
  exact takesOver_pwmApply s m _

/-- What a produced edge does to the outputs of its pair. -/
theorem pwmEdge_outputs {s : State} {m : Nat} {e : PwmEdge} {rest : List PwmEdge} (hup : s.up 92 = true)
    (hrun : (s.pwm m).run = true) (hedges : (s.pwm m).edges = e :: rest) (hzone : s.inZone m e.t = false) :
    let t := pwmEdge s m
    OnlyPair m s t ∧
      (e.ev = .rise false → (t.pwm m).w = true ∧ (s.complementary m = false → (t.pwm m).a = true) ∧
        (s.complementary m = true → (t.pwm m).b = false ∧
          ({ t := e.t + (s.pwm m).cur.dta * s.fine m, ev := .aRise } : PwmEdge) ∈ (t.pwm m).edges)) ∧
      (e.ev = .fall false → (t.pwm m).w = false ∧ (t.pwm m).a = false ∧ (s.complementary m = true →
        ({ t := e.t + (s.pwm m).cur.dtb * s.fine m, ev := .bRise } : PwmEdge) ∈ (t.pwm m).edges)) ∧
      (e.ev = .rise true → (t.pwm m).b = true) ∧ (e.ev = .fall true → (t.pwm m).b = false) ∧
      (e.ev = .aRise → (t.pwm m).a = (s.pwm m).w) ∧ (e.ev = .bRise → (t.pwm m).b = !(s.pwm m).w) := by
  dsimp only
  refine ⟨(edgesOf_pwmEdge s m).only, ?_⟩
  rw [pwmEdge_produced hup hrun hedges hzone, pwm_pwmProduce, State.pwm_setPwm_same]
  refine ⟨fun h => ?_, fun h => ?_, fun h => ?_, fun h => ?_, fun h => ?_, fun h => ?_⟩ <;> rw [h]
  · exact produce_rise _ _ _ _ _
  · exact produce_fall _ _ _ _ _
  · rfl
  · rfl
  · rfl
  · rfl

/-- Settles O38: the end of a period, the update point, an edge position inside a zone and outside one. -/
theorem pwmInstants : Obligations.PwmInstants := by
  refine ⟨fun m s hup hrun hecc hupd => ⟨_, rfl, ?_⟩, fun m s hup hrun => ⟨fun hupd => ?_, fun hupd => ⟨_, rfl, ?_⟩⟩,
    fun m e rest s hup hrun hedges => ⟨fun hzone => ?_, fun hzone => ?_⟩⟩
  · obtain ⟨hregs, hcur, hstart, hfin, hhigh⟩ := periodBegins_pwmPeriod (s := s.eventCycle) (m := m)
      (t := (s.pwm m).start + (s.pwm m).fin * s.fine m) false hecc hupd
    have hend : pwmPeriodEnd (fixWords s.eventCycle []) m = _ := pwmPeriodEnd_running (s := s.eventCycle) hup hrun
    rw [hend]
    exact ⟨hcur, hstart, hfin, hhigh, hregs⟩
  · exact ⟨_, congrArg Host.Outcome.next (pwmUpdatePoint_elsewhere (s := s.eventCycle) hupd), rfl⟩
  · obtain ⟨honly, hcur, hstart⟩ := pwmUpdatePoint_takesOver (s := s.eventCycle) hup hrun hupd
    exact ⟨hcur, hstart, honly.eq_with_cvl⟩
  · refine ⟨_, congrArg Host.Outcome.next (pwmEdge_deferred (s := s.eventCycle) hup hrun hedges hzone), ?_, rfl⟩
    exact State.pwm_setPwm_same _ m _
  · obtain ⟨honly, houtputs⟩ := pwmEdge_outputs (s := s.eventCycle) hup hrun hedges hzone
    exact ⟨_, rfl, honly.rest, houtputs⟩

end Sys2Proof.Machine
end

section
/-! SUPPORT. Converter cells, and the loops that sample them (O36). -/
namespace Sys2Proof.Machine
open Reg

/-! ### Events beside other fields -/

theorem fld_event_disjoint (s : State) {f g : Fld} (hlo : f.lo ≤ f.hi) (hhi : f.hi < 32) (hlo' : g.lo ≤ g.hi) (hhi' : g.hi < 32)
    (h : g.off ≠ f.off ∨ g.hi < f.lo ∨ f.hi < g.lo) : (s.event f).fld g = s.fld g := fld_setFld_disjoint _ _ hlo hhi hlo' hhi' h

theorem flag_event_same (s : State) {f : Fld} (hlo : f.lo ≤ f.hi) (hhi : f.hi < 32) : (s.event f).flag f = true := by
  have hone : 1 < 2 ^ (f.hi + 1 - f.lo) := Nat.one_lt_two_pow (by omega)
  rw [State.flag, State.fld_event_same s f ⟨hlo, hhi⟩, decide_eq_true_eq]
  omega

/-! ### Cells (R285, R286) -/

/-- A conversion of cell `n` is under way. -/
def convStarted (s : State) (n code : Nat) : State := { s with cvl := { s.cvl with conv := s.cvl.conv ++ [(n, code)] } }

/-- The cell has no conversion under way: the trigger is taken. -/
theorem convTrigger_taken {s : State} {n : Nat} {code : BitVec 14} (hmode : s.fld (CVL_CCFG_MODE n) = 1)
    (hidle : ∀ e ∈ s.cvl.conv, e.1 ≠ n) : convTrigger s n code.toNat = (convStarted s n code.toNat, true) := by
  have hnone : (s.cvl.conv.any fun e => decide (e.1 = n)) = false := by simpa using hidle
  simp [convTrigger, hmode, hnone, Nat.mod_eq_of_lt code.isLt, convStarted]

/-- During one it is dropped, with OVR. -/
theorem convTrigger_dropped {s : State} {n code : Nat} (hmode : s.fld (CVL_CCFG_MODE n) = 1) (hbusy : ∃ e ∈ s.cvl.conv, e.1 = n) :
    convTrigger s n code = ((s.event (CVL_CRES_OVR n)).event CVL_STAT_OVR, false) := by
  have hany : (s.cvl.conv.any fun e => decide (e.1 = n)) = true := by simpa using hbusy
  simp [convTrigger, hmode, hany]

theorem convFree_eq {s : State} {n : Nat} (hn : n < 48) (code : Nat) (hup : s.up 91 = true) (hloop : s.loopOfCell n = none) :
    convFree s n code = (convTrigger s n code).1 := by
  simp [convFree, hup, hn, hloop]

theorem convOverrun_shows (s : State) (n : Nat) :
    let t := (s.event (CVL_CRES_OVR n)).event CVL_STAT_OVR
    t.flag (CVL_CRES_OVR n) = true ∧ t.flag CVL_STAT_OVR = true ∧ t.cellRes n = s.cellRes n ∧
      OnlyRegs [CVL_CRES n, CVL_STAT] s t := by
  have hcres : CVL_CRES n ≠ CVL_STAT := by
    unfold CVL_CRES CVL_STAT
    omega
  refine ⟨?_, ?_, ?_, ((OnlyRegs.refl _ s).event (by simp)).event (by simp)⟩
  · rw [State.flag, fld_event_disjoint _ (by simp) (by simp) (by simp) (by simp) (.inl hcres)]
    exact flag_event_same s (by simp) (by simp)
  · exact flag_event_same _ (by simp) (by simp)
  · rw [State.cellRes, fld_event_disjoint _ (by simp) (by simp) (by simp) (by simp) (.inl hcres),
      fld_event_disjoint _ (by simp) (by simp) (by simp) (by simp) (by simp), State.cellRes]

theorem convResult_shows (s : State) (n code : Nat) :
    let t := convResult s n code
    t.cellRes n = code % 16384 ∧ t.fld (CVL_CRES_SEQ n) = (s.fld (CVL_CRES_SEQ n) + 1) % 32768 ∧
      t.flag (CVL_CRES_OVR n) = s.flag (CVL_CRES_OVR n) ∧ OnlyRegs [CVL_CRES n] s t := by
  refine ⟨?_, ?_, ?_, ((OnlyRegs.refl _ s).setFld (by simp) _).setFld (by simp) _⟩
  · simp [State.cellRes, convResult]
  · simp [convResult]
  · simp [State.flag, convResult]

/-! ### The sensor (R300, R459) -/

/-- A temperature up to the limit raises nothing. -/
theorem setTemp_low {s : State} {t : Int} (h : t ≤ sext 16 (s.fld FLT_TLIM_HI)) :
    setTemp s t = { s with flt := { s.flt with temp := t } } := by
  have hlow : State.tempHigh { s with flt := { s.flt with temp := t } } = false := decide_eq_false (Int.not_lt.2 h)
  exact if_neg (by rw [hlow]; decide)

theorem tempUpdate_shows {s : State} {v : BitVec 16} (hup : s.up 92 = true) (hflt : s.up 2 = true)
    (hlow : v.toInt ≤ sext 16 (s.fld FLT_TLIM_HI)) :
    (tempUpdate s v).fld CVL_TEMP_TJ = v.toNat ∧
      OnlyRegs [CVL_TEMP] { s with flt := { s.flt with temp := v.toInt } } (tempUpdate s v) := by
  have hflt' : (s.setFld CVL_TEMP_TJ v.toNat).up 2 = true := by
    rw [State.up, State.rd_setFld_other _ _ _ _ (by decide)]
    exact hflt
  have hlow' : v.toInt ≤ sext 16 ((s.setFld CVL_TEMP_TJ v.toNat).fld FLT_TLIM_HI) := by
    rwa [State.setFld, fld_wr_other s _ (by decide)]
  rw [tempUpdate, if_pos hup, if_pos hflt', setTemp_low hlow']
  refine ⟨?_, (OnlyRegs.refl _ { s with flt := { s.flt with temp := v.toInt } }).setFld (f := CVL_TEMP_TJ) (by simp) v.toNat⟩
  refine (State.fld_setFld_same s CVL_TEMP_TJ v.toNat (by unfold Fld.ok; decide)).trans ?_
  exact Nat.mod_eq_of_lt v.isLt

/-! ### What a loop computes (R300) -/

/-- A section reads its five coefficients. -/
theorem biquad_congr {w : Nat} {c c' : Nat → Int} (h : ∀ j < 5, c j = c' j) : biquad w c = biquad w c' := by
  funext b x
  simp [biquad, h]

/-- The setpoint in force (R300). -/
def State.loopSetpoint (s : State) (i : Nat) : Int :=
  let slew : Int := s.fld (CVL_LSET_SLEW i)
  if slew = 0 then s.loopTarget i else (s.loopX i).sp + clampI (-slew) slew (s.loopTarget i - (s.loopX i).sp)

/-- The two sections at sample `x`. -/
def State.loopFirst (s : State) (i : Nat) (x : Int) : Int × Biquad :=
  biquad 32 (s.loopCoef i 0) (s.loopX i).s0 (satS 32 ((s.loopSetpoint i - x) * 65536))

def State.loopSecond (s : State) (i : Nat) (x : Int) : Int × Biquad :=
  biquad 32 (s.loopCoef i 1) (s.loopX i).s1 (s.loopFirst i x).1

/-- The clamped result. -/
def State.loopResult (s : State) (i : Nat) (x : Int) : Int :=
  clampI (sext 32 (s.fld (CVL_LUMIN_LIM i))) (sext 32 (s.fld (CVL_LUMAX_LIM i))) (s.loopSecond i x).1

/-- What the registers then show. -/
def showLoop (s : State) (i : Nat) (sp raw u : Int) : State :=
  ((s.eventIf (decide (u ≠ raw)) (CVL_LSTAT_CLAMP i)).wr (CVL_LOUT i) (BitVec.ofNat 32 (wrapN 32 u))).setFld (CVL_LSP_SP i) (wrapN 16 sp)


/-- What loop `i` computes with is the same in `t` as in `s`: LSTAT is no part of it. -/
structure SameLoopInputs (i : Nat) (s t : State) : Prop where
  regs : RegsBut [CVL_LSTAT i] s t
  out : ∀ k, (t.loopX k).out = (s.loopX k).out
  vox : t.vox = s.vox
  s0 : (t.loopX i).s0 = (s.loopX i).s0
  s1 : (t.loopX i).s1 = (s.loopX i).s1
  sp : (t.loopX i).sp = (s.loopX i).sp

theorem RegsBut.fld {offs : List Nat} {s t : State} (h : RegsBut offs s t) {f : Fld} (hf : f.off ∉ offs) : t.fld f = s.fld f := by
  rw [State.fld, h _ hf, State.fld]

namespace SameLoopInputs
variable {i : Nat} {s t : State}

theorem fld (h : SameLoopInputs i s t) {f : Fld} (hf : f.off ≠ CVL_LSTAT i) : t.fld f = s.fld f :=
  h.regs.fld (by rwa [List.mem_singleton])

theorem loopTarget (h : SameLoopInputs i s t) (hi : i < 64) : t.loopTarget i = s.loopTarget i := by
  have hcres : CVL_CRES (s.fld (CVL_LCFG_TIDX i)) ≠ CVL_LSTAT i := by
    have hlt : s.fld (CVL_LCFG_TIDX i) < 64 := wField_lt _ 6 1
    unfold CVL_CRES CVL_LSTAT
    omega
  have htemp : CVL_TEMP ≠ CVL_LSTAT i := by
    unfold CVL_TEMP CVL_LSTAT
    omega
  simp only [State.loopTarget, State.busOut, State.cellRes, h.vox, h.out, h.fld (f := CVL_LCFG_SIDX i) (by simp),
    h.fld (f := CVL_LCFG_SSRC i) (by simp), h.fld (f := CVL_LTC_TC i) (by simp), h.fld (f := CVL_LTC_TREF i) (by simp),
    h.fld (f := CVL_LCFG_TSRC i) (by simp), h.fld (f := CVL_LCFG_TIDX i) (by simp), h.fld (f := CVL_TEMP_TJ) htemp,
    h.fld (f := CVL_LSET_SET i) (by simp), h.fld (f := CVL_CRES_CODE _) hcres]

theorem loopSetpoint (h : SameLoopInputs i s t) (hi : i < 64) : t.loopSetpoint i = s.loopSetpoint i := by
  simp only [State.loopSetpoint, h.loopTarget hi, h.sp, h.fld (f := CVL_LSET_SLEW i) (by simp)]

theorem loopCoef (h : SameLoopInputs i s t) {sec : Nat} (hsec : sec < 2) : biquad 32 (t.loopCoef i sec) = biquad 32 (s.loopCoef i sec) := by
  refine biquad_congr fun j hj => ?_
  have hcoef : CVL_LCOEF i sec j ≠ CVL_LSTAT i := by
    unfold CVL_LCOEF CVL_LSTAT
    omega
  rw [State.loopCoef, h.fld (f := CVL_LCOEF_COEF i sec j) hcoef, State.loopCoef]

theorem loopFirst (h : SameLoopInputs i s t) (hi : i < 64) (x : Int) : t.loopFirst i x = s.loopFirst i x := by
  rw [State.loopFirst, h.loopCoef (by decide), h.s0, h.loopSetpoint hi, State.loopFirst]

theorem loopSecond (h : SameLoopInputs i s t) (hi : i < 64) (x : Int) : t.loopSecond i x = s.loopSecond i x := by
  rw [State.loopSecond, h.loopCoef (by decide), h.s1, h.loopFirst hi, State.loopSecond]

theorem loopResult (h : SameLoopInputs i s t) (hi : i < 64) (x : Int) : t.loopResult i x = s.loopResult i x := by
  rw [State.loopResult, h.loopSecond hi, h.fld (f := CVL_LUMIN_LIM i) (by simp), h.fld (f := CVL_LUMAX_LIM i) (by simp),
    State.loopResult]

end SameLoopInputs

/-- Whether a loop is held shows neither in LSTAT nor in the record of the loop (R302). -/
theorem loopHeld_congr {s t : State} {i : Nat} (hi : i < 64) (hregs : RegsBut [CVL_LSTAT i] s t)
    (hlatched : t.cvl.latched = s.cvl.latched) (hcycle : t.cvl.cycle = s.cvl.cycle) : t.loopHeld i = s.loopHeld i := by
  have hfld {f : Fld} (hf : f.off ≠ CVL_LSTAT i) : t.fld f = s.fld f := hregs.fld (by rwa [List.mem_singleton])
  have hgroup : t.groupTripped = s.groupTripped := by
    funext g
    rw [State.groupTripped, hlatched, hcycle, State.groupTripped]
  have hpair : t.pairTripped = s.pairTripped := by
    funext m
    have hpcfg : CVL_PCFG m ≠ CVL_LSTAT i := by
      unfold CVL_PCFG CVL_LSTAT
      omega
    have hof : t.pairGroup m = s.pairGroup m := by
      rw [State.pairGroup, State.flag, hfld (f := CVL_PCFG_GEN m) hpcfg, hfld (f := CVL_PCFG_GRP m) hpcfg]
      rfl
    rw [State.pairTripped, hof, hgroup]
    rfl
  have hcell (n : Nat) : t.cellTripped n = s.cellTripped n := by
    have hccfg : CVL_CCFG n ≠ CVL_LSTAT i := by
      unfold CVL_CCFG CVL_LSTAT
      omega
    have hof : t.cellGroup n = s.cellGroup n := by
      rw [State.cellGroup, State.flag, hfld (f := CVL_CCFG_GEN n) hccfg, hfld (f := CVL_CCFG_GRP n) hccfg]
      rfl
    rw [State.cellTripped, hof, hgroup]
    rfl
  have hsafe : FLT_SAFE ≠ CVL_LSTAT i := by
    unfold FLT_SAFE CVL_LSTAT
    omega
  have hup : t.up 91 = s.up 91 := by
    have hdomain : RST_PDSTAT (91 / 32) ∉ [CVL_LSTAT i] := by
      rw [List.mem_singleton]
      unfold RST_PDSTAT CVL_LSTAT
      omega
    rw [State.up, hregs _ hdomain, State.up]
  simp only [State.loopHeld, State.loopPairs, State.loopCell, State.safe, State.flag, hfld (f := CVL_LCFG_OMODE i) (by simp),
    hfld (f := CVL_LCFG_OIDX i) (by simp), hfld (f := FLT_SAFE_SAFE) hsafe, hup, hpair, hcell]

/-- The instant at which the loop samples in the present period of its pair (R301). -/
def State.loopInstant (s : State) (i : Nat) : Nat :=
  let x := s.pwm (s.fld (CVL_LSAMP_SGEN i))
  x.start + 16 * min (s.fld (CVL_LSAMP_SOFF i)) (x.cur.per - 1) * s.fine (s.fld (CVL_LSAMP_SGEN i))

/-- The record that a computation leaves: histories, setpoint, output. -/
def loopAfter (s : State) (i : Nat) (x : Int) : LoopX :=
  { s.loopX i with
    s0 := (s.loopFirst i x).2, s1 := { (s.loopSecond i x).2 with y1 := s.loopResult i x }, sp := s.loopSetpoint i, seeded := true,
    out := sarI (s.loopResult i x) (s.fld (CVL_LOMAP_OSH i)) + sext 21 (s.fld (CVL_LOMAP_OOFF i)), held := false,
    ready := some (s.loopInstant i) }

/-- A loop that is not held, and was not since its last sample, computes. -/
theorem loopCompute_eq {s u : State} {i x : Nat} (hu : u = s.setFld (CVL_LSTAT_X i) x) (hnow : u.loopHeld i = false)
    (hheld : (u.loopX i).held = false) (hseeded : (u.loopX i).seeded = true) : loopCompute s i x =
      showLoop (u.setLoop i (loopAfter u i x)) i (u.loopSetpoint i) (u.loopSecond i x).1 (u.loopResult i x) := by
  have hrec : s.loopX i = u.loopX i := by
    rw [hu]
    rfl
  unfold loopCompute
  rw [← hu, hrec]
  simp only [hnow, hheld, hseeded, Bool.false_and, Bool.false_eq_true, if_false, if_true]
  rfl

/-- The sample instant of the loop has come. -/
def loopAtSample (s : State) (i : Nat) : State := s.setLoop i { s.loopX i with due := false }

/-- At it the loop triggers its cell. -/
theorem loopSample_eq {s : State} {i : Nat} (code : Nat) (hcvl : s.up 91 = true) (hpwm : s.up 92 = true)
    (hlisted : i ∈ s.loopList) (hdue : (s.loopX i).due = true) :
    loopSample s i code 0 false =
      let t := convTrigger (loopAtSample s i) (s.fld (CVL_LCFG_CELL i)) code
      if !t.2 then t.1.event (CVL_LSTAT_SKIP i)
      else if t.1.loopBad i then loopDamage t.1 i
      else loopCompute t.1 i (code % 16384) := by
  have hlisted' : s.loopList.contains i = true := by simpa using hlisted
  rw [loopSample, hcvl, hpwm, hlisted', hdue]
  rfl

theorem loopSample_computes {s : State} {i : Nat} {code : BitVec 14} (hcvl : s.up 91 = true) (hpwm : s.up 92 = true)
    (hlisted : i ∈ s.loopList) (hdue : (s.loopX i).due = true) (hmode : s.fld (CVL_CCFG_MODE (s.fld (CVL_LCFG_CELL i))) = 1)
    (hsound : s.loopBad i = false) (hidle : ∀ e ∈ s.cvl.conv, e.1 ≠ s.fld (CVL_LCFG_CELL i)) :
    loopSample s i code.toNat 0 false =
      loopCompute (convStarted (loopAtSample s i) (s.fld (CVL_LCFG_CELL i)) code.toNat) i code.toNat := by
  have hsound' : (convStarted (loopAtSample s i) (s.fld (CVL_LCFG_CELL i)) code.toNat).loopBad i = false := hsound
  rw [loopSample_eq _ hcvl hpwm hlisted hdue, convTrigger_taken (s := loopAtSample s i) hmode hidle]
  simp [hsound', Nat.mod_eq_of_lt code.isLt]

/-- A cell that still converts makes the loop skip. -/
theorem loopSample_skips {s : State} {i : Nat} (code : Nat) (hcvl : s.up 91 = true) (hpwm : s.up 92 = true)
    (hlisted : i ∈ s.loopList) (hdue : (s.loopX i).due = true) (hmode : s.fld (CVL_CCFG_MODE (s.fld (CVL_LCFG_CELL i))) = 1)
    (hbusy : ∃ e ∈ s.cvl.conv, e.1 = s.fld (CVL_LCFG_CELL i)) :
    loopSample s i code 0 false =
      (((loopAtSample s i).event (CVL_CRES_OVR (s.fld (CVL_LCFG_CELL i)))).event CVL_STAT_OVR).event (CVL_LSTAT_SKIP i) := by
  rw [loopSample_eq _ hcvl hpwm hlisted hdue, convTrigger_dropped (s := loopAtSample s i) hmode hbusy]
  rfl

/-- The state in which a loop that samples `code` computes. -/
def loopSampled (s : State) (i : Nat) (code : BitVec 14) : State :=
  (convStarted (loopAtSample s i) (s.fld (CVL_LCFG_CELL i)) code.toNat).setFld (CVL_LSTAT_X i) code.toNat

@[simp] theorem loopX_loopSampled (s : State) (i : Nat) (code : BitVec 14) :
    (loopSampled s i code).loopX i = { s.loopX i with due := false } := State.loopX_setLoop_same s i _

theorem fld_loopSampled (s : State) (i : Nat) (code : BitVec 14) : (loopSampled s i code).fld (CVL_LSTAT_X i) = code.toNat := by
  rw [loopSampled, State.fld_setFld_same _ _ _ (by simp [Fld.ok])]
  exact Nat.mod_eq_of_lt code.isLt

/-- It computes with what the loop held before. -/
theorem sameLoopInputs_loopSampled (s : State) (i : Nat) (code : BitVec 14) : SameLoopInputs i s (loopSampled s i code) where
  regs := ((OnlyRegs.refl [CVL_LSTAT i] (convStarted (loopAtSample s i) (s.fld (CVL_LCFG_CELL i)) code.toNat)).setFld (by simp) _).2
  out k := by
    by_cases hk : k = i
    · rw [hk, loopX_loopSampled]
    · exact congrArg LoopX.out (State.loopX_setLoop_other s i k _ hk)
  vox := rfl
  s0 := by rw [loopX_loopSampled]
  s1 := by rw [loopX_loopSampled]
  sp := by rw [loopX_loopSampled]

/-- What the loop's registers show. -/
theorem showLoop_shows (s : State) (i : Nat) (sp raw u : Int) :
    let t := showLoop s i sp raw u
    t.fld (CVL_LSTAT_X i) = s.fld (CVL_LSTAT_X i) ∧ t.rd (CVL_LOUT i) = BitVec.ofNat 32 (wrapN 32 u) ∧
      t.fld (CVL_LSP_SP i) = wrapN 16 sp ∧ (u ≠ raw → t.flag (CVL_LSTAT_CLAMP i) = true) ∧
      OnlyRegs [CVL_LSTAT i, CVL_LOUT i, CVL_LSP i] s t := by
  have hsp : wrapN 16 sp < 2 ^ 16 := by
    unfold wrapN
    omega
  have hevent : OnlyRegs [CVL_LSTAT i, CVL_LOUT i, CVL_LSP i] s (s.eventIf (decide (u ≠ raw)) (CVL_LSTAT_CLAMP i)) := by
    unfold State.eventIf
    split
    · exact (OnlyRegs.refl _ s).event (by simp)
    · exact .refl _ s
  have hstat (f : Fld) (hf : f.off = CVL_LSTAT i) :
      (showLoop s i sp raw u).fld f = (s.eventIf (decide (u ≠ raw)) (CVL_LSTAT_CLAMP i)).fld f := by
    rw [showLoop, State.setFld, fld_wr_other _ _ (by simp [hf]), fld_wr_other _ _ (by simp [hf])]
  refine ⟨?_, ?_, ?_, fun hclamped => ?_, ((hevent.wr (by simp) _).setFld (by simp) _)⟩
  · rw [hstat _ rfl, State.eventIf]
    split
    · exact fld_event_disjoint s (by simp) (by simp) (by simp) (by simp) (by simp)
    · rfl
  · rw [showLoop, State.rd_setFld_other _ _ _ _ (by simp), State.rd_wr_same]
  · rw [showLoop, State.fld_setFld_same _ _ _ (by simp [Fld.ok])]
    exact Nat.mod_eq_of_lt hsp
  · rw [State.flag, hstat _ rfl, State.eventIf, if_pos (decide_eq_true hclamped)]
    exact flag_event_same s (by simp) (by simp)

/-- A loop samples and computes. -/
theorem loopSample_shows {s : State} {i : Nat} {code : BitVec 14} (hi : i < 64) (hcvl : s.up 91 = true) (hpwm : s.up 92 = true)
    (hlisted : i ∈ s.loopList) (hdue : (s.loopX i).due = true) (hmode : s.fld (CVL_CCFG_MODE (s.fld (CVL_LCFG_CELL i))) = 1)
    (hsound : s.loopBad i = false) (hnow : s.loopHeld i = false) (hheld : (s.loopX i).held = false)
    (hseeded : (s.loopX i).seeded = true) (hidle : ∀ e ∈ s.cvl.conv, e.1 ≠ s.fld (CVL_LCFG_CELL i)) :
    let t := loopSample s i code.toNat 0 false
    let u := s.loopResult i code.toNat
    t.fld (CVL_LSTAT_X i) = code.toNat ∧ t.rd (CVL_LOUT i) = BitVec.ofNat 32 (wrapN 32 u) ∧
      t.fld (CVL_LSP_SP i) = wrapN 16 (s.loopSetpoint i) ∧
      (u ≠ (s.loopSecond i code.toNat).1 → t.flag (CVL_LSTAT_CLAMP i) = true) ∧
      (t.loopX i).out = sarI u (s.fld (CVL_LOMAP_OSH i)) + sext 21 (s.fld (CVL_LOMAP_OOFF i)) ∧
      (t.loopX i).s0 = (s.loopFirst i code.toNat).2 ∧ (t.loopX i).s1 = { (s.loopSecond i code.toNat).2 with y1 := u } ∧
      (t.loopX i).sp = s.loopSetpoint i ∧ (t.loopX i).due = false ∧
      t.cvl.conv = s.cvl.conv ++ [(s.fld (CVL_LCFG_CELL i), code.toNat)] ∧
      OnlyRegs [CVL_LSTAT i, CVL_LOUT i, CVL_LSP i]
        { s with cvl := { s.cvl with conv := t.cvl.conv, loops := t.cvl.loops } } t := by
  intro t u
  have hin := sameLoopInputs_loopSampled s i code
  have hnow' : (loopSampled s i code).loopHeld i = false := (loopHeld_congr hi hin.regs rfl rfl).trans hnow
  have ht : t = showLoop ((loopSampled s i code).setLoop i (loopAfter (loopSampled s i code) i code.toNat)) i (s.loopSetpoint i)
      (s.loopSecond i code.toNat).1 u := by
    rw [← hin.loopSetpoint hi, ← hin.loopSecond hi]
    unfold t u
    rw [← hin.loopResult hi, loopSample_computes hcvl hpwm hlisted hdue hmode hsound hidle]
    exact loopCompute_eq rfl hnow' (by rw [loopX_loopSampled]; exact hheld) (by rw [loopX_loopSampled]; exact hseeded)
  obtain ⟨hx, hout, hsp, hclamp, hregs⟩ := showLoop_shows
    ((loopSampled s i code).setLoop i (loopAfter (loopSampled s i code) i code.toNat)) i (s.loopSetpoint i)
    (s.loopSecond i code.toNat).1 u
  have hrec : t.loopX i = loopAfter (loopSampled s i code) i code.toNat := by
    rw [State.loopX, ht, hregs.1]
    exact State.loopX_setLoop_same _ i _
  have hconv : t.cvl.conv = s.cvl.conv ++ [(s.fld (CVL_LCFG_CELL i), code.toNat)] := by
    rw [ht, hregs.1]
    rfl
  have hstate : { s.cvl with conv := t.cvl.conv, loops := t.cvl.loops } = t.cvl := by
    rw [ht, hregs.1]
    rfl
  have honly : OnlyCvl [CVL_LSTAT i, CVL_LOUT i, CVL_LSP i]
      ((loopSampled s i code).setLoop i (loopAfter (loopSampled s i code) i code.toNat)) t := by
    rw [ht]
    exact OnlyRegs.onlyCvl hregs
  have hosh : (loopSampled s i code).fld (CVL_LOMAP_OSH i) = s.fld (CVL_LOMAP_OSH i) := hin.fld (by simp)
  have hooff : (loopSampled s i code).fld (CVL_LOMAP_OOFF i) = s.fld (CVL_LOMAP_OOFF i) := hin.fld (by simp)
  rw [hrec, loopAfter, hin.loopResult hi, hin.loopFirst hi, hin.loopSecond hi, hin.loopSetpoint hi, hosh, hooff]
  refine ⟨?_, ht ▸ hout, ht ▸ hsp, ht ▸ hclamp, rfl, rfl, rfl, rfl, ?_, hconv, ?_⟩
  · rw [ht, hx, State.setLoop_fld, fld_loopSampled]
  · exact congrArg LoopX.due (loopX_loopSampled s i code)
  · rw [hstate]
    exact OnlyCvl.trans (.setCvl (.setFld (.setCvl (.refl _ s) _) (by simp) _) _) honly

theorem loopSkip_shows (s : State) (i n : Nat) :
    let t := (((loopAtSample s i).event (CVL_CRES_OVR n)).event CVL_STAT_OVR).event (CVL_LSTAT_SKIP i)
    t.flag (CVL_LSTAT_SKIP i) = true ∧ t.rd (CVL_LOUT i) = s.rd (CVL_LOUT i) ∧ (t.loopX i).due = false := by
  have hcres : CVL_LOUT i ≠ CVL_CRES n := by
    unfold CVL_LOUT CVL_CRES
    omega
  have hstat : CVL_LOUT i ≠ CVL_STAT := by
    unfold CVL_LOUT CVL_STAT
    omega
  refine ⟨flag_event_same _ (by simp) (by simp), ?_, ?_⟩
  · rw [State.rd_event_other _ _ _ (by simp), State.rd_event_other _ _ _ hstat, State.rd_event_other _ _ _ hcres]
    rfl
  · exact congrArg LoopX.due (State.loopX_setLoop_same s i _)

/-! ### What becomes of a loop's output (R301) -/

/-- The loop's output no longer waits. -/
def loopDelivered (s : State) (i : Nat) : State := s.setLoop i { s.loopX i with ready := none }

theorem ready_loopDelivered (s : State) (i : Nat) : ((loopDelivered s i).loopX i).ready = none := by
  rw [loopDelivered, State.loopX_setLoop_same]

/-- A pair's duty, pending until its update point. -/
theorem loopOutput_duty {s : State} {i t0 : Nat} (cyc : Nat) (hup : s.up 92 = true) (hready : (s.loopX i).ready = some t0)
    (hnow : s.loopHeld i = false) (hmode : s.fld (CVL_LCFG_OMODE i) = 0)
    (hupd : s.fld (CVL_PCTL_UPD (s.fld (CVL_LCFG_OIDX i))) ≠ 0) :
    let m := s.fld (CVL_LCFG_OIDX i)
    loopOutput s i cyc = (loopDelivered s i).setPwm m { s.pwm m with
      pend := { (s.pwm m).pend with dutyA := (clampI 0 (s.pwm m).pend.pl (s.loopX i).out).toNat } } := by
  intro m
  have hnow' : (loopDelivered s i).loopHeld i = false := hnow
  have hchanged (x : PwmX) (t : Nat) :
      pwmChanged ((loopDelivered s i).setPwm m x) m t = (loopDelivered s i).setPwm m x := by
    rw [pwmChanged_of_upd]
    exact hupd
  rw [loopDelivered] at hnow' hchanged ⊢
  simp only [loopOutput, hready, hnow', hup, hmode, State.setLoop_up, State.setLoop_fld]
  exact hchanged _ _

/-- A cell's code. -/
theorem loopOutput_code {s : State} {i t0 : Nat} (cyc : Nat) (hup : s.up 92 = true) (hready : (s.loopX i).ready = some t0)
    (hnow : s.loopHeld i = false) (hmode : s.fld (CVL_LCFG_OMODE i) = 2) :
    loopOutput s i cyc = { loopDelivered s i with
      cvl := { (loopDelivered s i).cvl with
        loopCode := smSet 0 s.cvl.loopCode i (clampI 0 16383 (s.loopX i).out).toNat } } := by
  have hnow' : (loopDelivered s i).loopHeld i = false := hnow
  rw [loopDelivered] at hnow' ⊢
  simp only [loopOutput, hready, hnow', hup, hmode, State.setLoop_up, State.setLoop_fld]
  rfl

/-! ### The commands of O36 -/

theorem convDone_eq {s : State} {n k : Nat} (h : s.cvl.conv.find? (fun e => decide (e.1 = n)) = some (n, k)) :
    convDone s n = convResult { s with cvl := { s.cvl with conv := s.cvl.conv.filter fun e => !decide (e.1 = n) } } n k := by
  rw [convDone, h]

theorem echoConv_eq {s : State} {n : Nat} (hn : n < 48) (hup : s.up 91 = true) (hmode : s.fld (CVL_CCFG_MODE n) = 3) :
    echoConv s n = convResult s n (s.cellCode n) := by
  simp [echoConv, hn, hup, hmode]

/-- Settles O36: conversions of cells and the temperature, samples of loops, their outputs. -/
theorem cellsAndLoops : Obligations.CellsAndLoops := by
  refine ⟨⟨fun n code s hup hloop hmode => ⟨fun hidle => ?_, fun hbusy => ?_⟩, fun n k s hconv => ?_,
    fun n s hup hmode => ?_, fun v s hup hflt hlow => ?_⟩,
    fun i code s hcvl hpwm hlisted hdue hmode hsound hnow hheld hseeded hidle => ?_,
    fun i code s hcvl hpwm hlisted hdue hmode hbusy => ?_,
    fun i cyc t0 s hpwm hready hnow => ⟨fun hmode hupd => ?_, fun hmode => ?_⟩⟩
  · have htaken : convFree s.eventCycle n code.toNat = convStarted s.eventCycle n code.toNat := by
      rw [convFree_eq (s := s.eventCycle) n.isLt _ hup hloop, convTrigger_taken (s := s.eventCycle) hmode hidle]
    exact ⟨_, congrArg Host.Outcome.next htaken, rfl⟩
  · have hdropped : convFree s.eventCycle n code.toNat = (s.eventCycle.event (CVL_CRES_OVR n)).event CVL_STAT_OVR := by
      rw [convFree_eq (s := s.eventCycle) n.isLt _ hup hloop, convTrigger_dropped (s := s.eventCycle) hmode hbusy]
    exact ⟨_, congrArg Host.Outcome.next hdropped, convOverrun_shows s.eventCycle n⟩
  · exact ⟨_, congrArg Host.Outcome.next (convDone_eq (s := s.eventCycle) hconv), convResult_shows _ n k⟩
  · obtain ⟨hcode, hseq, -, hregs⟩ := convResult_shows s.eventCycle n (s.cellCode n)
    exact ⟨_, congrArg Host.Outcome.next (echoConv_eq (s := s.eventCycle) n.isLt hup hmode), hcode, hseq, hregs⟩
  · exact ⟨_, rfl, tempUpdate_shows (s := s.eventCycle) hup hflt hlow⟩
  · exact ⟨_, rfl, loopSample_shows (s := s.eventCycle) i.isLt hcvl hpwm hlisted hdue hmode hsound hnow hheld hseeded hidle⟩
  · exact ⟨_, congrArg Host.Outcome.next (loopSample_skips (s := s.eventCycle) _ hcvl hpwm hlisted hdue hmode hbusy),
      loopSkip_shows s.eventCycle i _⟩
  · refine ⟨_, congrArg Host.Outcome.next (loopOutput_duty (s := s.eventCycle) cyc hpwm hready hnow hmode hupd), ?_, ?_, rfl⟩
    · exact ready_loopDelivered s.eventCycle i
    · exact State.pwm_setPwm_same _ _ _
  · refine ⟨_, congrArg Host.Outcome.next (loopOutput_code (s := s.eventCycle) cyc hpwm hready hnow hmode), ?_, ?_, rfl⟩
    · exact ready_loopDelivered s.eventCycle i
    · exact smGet_smSet_same 0 _ _ _

end Sys2Proof.Machine
end

section
/-! SUPPORT. All that reports of errors, occurrences and counts of events leave as it was: a frame over the whole state. -/
namespace Sys2Proof.Machine
open Reg

/-! ### The frame of reports -/

/-- From `s` to `t` nothing has changed but registers, what the cycle remembers, event counters, the router, the host's link, the journal,
Mordant's latches, and which comparators are in a blanking window. -/
structure OnlyReports (s t : State) : Prop where
  rest : t = { s with
    regs := t.regs, cyc := t.cyc, tmr := t.tmr, irq := t.irq, pcie := t.pcie, img := t.img, flt := t.flt,
    cvl := { s.cvl with blank := t.cvl.blank } }

namespace OnlyReports

theorem refl (s : State) : OnlyReports s s := ⟨rfl⟩

theorem trans {s t u : State} (h : OnlyReports s t) (h' : OnlyReports t u) : OnlyReports s u := ⟨by rw [h'.rest, h.rest]⟩

theorem setFld {s t : State} (h : OnlyReports s t) (f : Fld) (v : Nat) : OnlyReports s (t.setFld f v) := h.trans ⟨rfl⟩

theorem event {s t : State} (h : OnlyReports s t) (f : Fld) : OnlyReports s (t.event f) := h.trans ⟨rfl⟩

theorem count {s t : State} (h : OnlyReports s t) (f : Fld) (n : Nat) : OnlyReports s (t.count f n) := h.trans ⟨rfl⟩

theorem ite {s t u : State} {c : Prop} [Decidable c] (ht : OnlyReports s t) (hu : OnlyReports s u) :
    OnlyReports s (if c then t else u) := by
  split
  · exact ht
  · exact hu

theorem foldl {α : Type} {l : List α} {f : State → α → State} (hf : ∀ t k, OnlyReports t (f t k)) (s : State) :
    OnlyReports s (l.foldl f s) :=
  List.foldlRecOn (motive := OnlyReports s) _ _ (.refl s) fun t ht k _ => ht.trans (hf t k)

end OnlyReports

theorem onlyReports_evAdvance (s : State) (k : Nat) : OnlyReports s (evAdvance s k) := by
  unfold evAdvance
  extract_lets c cyc tmr u
  have hcounted : OnlyReports s u := ⟨rfl⟩
  exact .ite ((hcounted.event _).event _) hcounted

theorem onlyReports_countSrc (s : State) (src : Nat) : OnlyReports s (countSrc s src) := by
  unfold countSrc
  extract_lets cyc u
  have hseen : OnlyReports s u := ⟨rfl⟩
  exact .ite (.refl s) (hseen.trans (.foldl (fun t k => .ite (onlyReports_evAdvance t k) (.refl t)) u))

theorem onlyReports_testShared (s : State) (k sl : Nat) : OnlyReports s (testShared s k sl) := .ite ⟨rfl⟩ (.refl s)

theorem onlyReports_msixRequest (s : State) (v : Nat) : OnlyReports s (msixRequest s v) :=
  .ite (.refl s) (.ite ((OnlyReports.refl s).setFld _ _) (.ite ⟨rfl⟩ ⟨rfl⟩))

theorem onlyReports_edgeDev (before : Bool) (s : State) (n : Nat) : OnlyReports s (edgeDev before s n) := by
  unfold edgeDev
  extract_lets now u
  have hreq : OnlyReports s u := .ite (onlyReports_msixRequest s _) (.refl s)
  split
  · exact hreq
  · exact .ite hreq (hreq.trans (onlyReports_testShared _ _ _))

theorem onlyReports_occurDev (s : State) (n : Nat) : OnlyReports s (occurDev s n) := by
  unfold occurDev
  split
  · exact .refl s
  · refine .ite (.refl s) (.ite (onlyReports_testShared _ _ _) (.trans ?_ (onlyReports_testShared _ _ _)))
    exact ⟨rfl⟩

theorem onlyReports_putRecord (s : State) (rtype : Nat) (payload : List Nat) : OnlyReports s (putRecord s rtype payload) := by
  unfold putRecord
  exact OnlyReports.setFld ⟨rfl⟩ _ _

theorem onlyReports_faultRecord (s : State) : OnlyReports s (faultRecord s) := by
  unfold faultRecord journalAppend
  refine .ite (.refl s) (.trans ?_ (onlyReports_putRecord _ _ _))
  refine .ite (.foldl (fun t p => ?_) s) (.refl s)
  exact onlyReports_putRecord t p.1 p.2

theorem onlyReports_withBlanks {f : State → State} {s : State} (hf : OnlyReports s (f s)) (ms : List Nat) :
    OnlyReports s (withBlanks ms f s) := by
  obtain ⟨b, hb⟩ := withBlanks_eq_with_blank ms f s
  exact hf.trans ⟨by rw [hb]⟩

theorem onlyReports_safeEnter (s : State) (cause fbit : Nat) : OnlyReports s (safeEnter s cause fbit) := by
  unfold safeEnter
  extract_lets t u v w x
  have hpend : OnlyReports s t := (OnlyReports.refl s).setFld _ _
  have hset : OnlyReports s u := onlyReports_withBlanks ((OnlyReports.refl s).setFld _ _) _
  have hshown : OnlyReports s x := ((hset.setFld _ _).setFld _ _).setFld _ _
  clear_value x
  exact .ite (.ite (hpend.setFld _ _) hpend) ((hshown.trans ⟨rfl⟩).trans (onlyReports_faultRecord _))

theorem onlyReports_firstSource (s : State) (b : Nat) : OnlyReports s (firstSource s b) := by
  unfold firstSource
  extract_lets t u v w x y
  have hovf : OnlyReports s t := (OnlyReports.refl s).setFld _ _
  have hshown : OnlyReports s y := (((((OnlyReports.refl s).setFld _ _).setFld _ _).setFld _ _).setFld _ _).setFld _ _
  clear_value y
  exact .ite (.ite (hovf.setFld _ _) hovf) ((hshown.trans ⟨rfl⟩).trans (onlyReports_faultRecord _))

theorem onlyReports_latchLine (s : State) (b : Nat) : OnlyReports s (latchLine s b) := by
  unfold latchLine
  extract_lets cyc t newly u v
  have hline : OnlyReports s t := ⟨rfl⟩
  have hlevel : OnlyReports t (withDev (256 + b)
      (fun s => { s with flt := { s.flt with status := s.flt.status ||| BitVec.twoPow 64 b } }) t) :=
    OnlyReports.trans ⟨rfl⟩ (onlyReports_edgeDev _ _ _)
  have hset : OnlyReports s u := (hline.trans hlevel).trans (onlyReports_occurDev _ _)
  have hfirst : OnlyReports s v := .ite (hset.trans (onlyReports_firstSource u b)) hset
  exact .ite (.refl s) (.ite (hfirst.trans (onlyReports_safeEnter v 1 b)) hfirst)

theorem onlyReports_uncorrected (s : State) (f : Fld) : OnlyReports s (uncorrected s f) :=
  ((OnlyReports.refl s).count f 1).trans (onlyReports_countSrc _ _)

theorem onlyReports_tgtUse (s : State) (n : Nat) : OnlyReports s (tgtUse s n) := by
  unfold tgtUse
  extract_lets met
  have hmet (t : State) (k : Nat) : OnlyReports t (met t k) := .ite ((onlyReports_uncorrected t _).event _) (.refl t)
  exact .ite (.trans (.ite (hmet s n) ((hmet s n).trans (hmet _ 275))) (onlyReports_latchLine _ _)) (.refl s)

/-- An event of a device source keeps to the frame. -/
theorem onlyReports_devEvent (s : State) (n : Nat) (f : Fld) : OnlyReports s (devEvent s n f) :=
  ((((OnlyReports.refl s).event f).trans (onlyReports_edgeDev _ _ _)).trans (onlyReports_tgtUse _ n)).trans (onlyReports_occurDev _ n)

/-- After its bit is set, which may be in any block, it is a report. -/
theorem reports_event_devEvent (s : State) (n : Nat) (f : Fld) : Reports (s.event f) (devEvent s n f) :=
  ((reports_edgeDev _ _ _).trans (reports_tgtUse _ n)).trans (reports_occurDev _ n)

end Sys2Proof.Machine
end

section
/-! SUPPORT. Comparators and the trips that they make (O37). -/
namespace Sys2Proof.Machine
open Reg

/-! ### Levels and inputs (R288) -/

/-- A comparator's level is its bit of CVL_CMPLVL. -/
theorem cmpLevel_eq_flag (s : State) (k : Nat) : s.cmpLevel k = s.flag ⟨CVL_CMPLVL (k / 32), k % 32, k % 32⟩ := by
  rw [flag_eq_getLsbD, State.cmpLevel, State.fld, wField, bitsOf, bit, Nat.shiftRight_zero]
  exact congrArg (Nat.testBit · (k % 32)) (Nat.mod_eq_of_lt (BitVec.isLt _))

theorem cmpLevel_setCmp (s : State) (k : Nat) (b : Bool) : (setCmp s k b).cmpLevel k = b := by
  rw [cmpLevel_eq_flag]
  exact State.flag_setFlag_same s _ b ⟨Nat.le_refl _, Nat.mod_lt _ (by decide)⟩

theorem onlyRegs_setCmp (s : State) (k : Nat) (b : Bool) : OnlyRegs [CVL_CMPLVL (k / 32)] s (setCmp s k b) :=
  (OnlyRegs.refl _ s).setFld (by simp) _

/-- The input of comparator `k` stands at `uv` microvolts. -/
def inputAt (s : State) (k uv : Nat) : State :=
  { s with cvl := { s.cvl with ain := (s.cvl.ain.filter fun e => !decide (e.1 = k)) ++ [(k, uv)] } }

theorem find_inputAt (s : State) (k uv : Nat) : (inputAt s k uv).cvl.ain.find? (fun e => decide (e.1 = k)) = some (k, uv) := by
  have hnone : (s.cvl.ain.filter fun e => !decide (e.1 = k)).find? (fun e => decide (e.1 = k)) = none := by
    rw [List.find?_eq_none]
    intro e he
    simpa using (List.mem_filter.1 he).2
  simp [inputAt, List.find?_append, hnone]

/-- A comparator that becomes active acts. -/
theorem cmpInput_rises {s : State} {k uv : Nat} (hup : s.up 91 = true) (hlow : s.cmpLevel k = false) (hover : s.cmpOver k uv = true) :
    cmpInput s k uv = cmpAct (setCmp (inputAt s k uv) k true) k := by
  have hlow' : (inputAt s k uv).cmpLevel k = false := hlow
  have hover' : (inputAt s k uv).cmpOver k uv = true := hover
  have hup' : (inputAt s k uv).up 91 = true := hup
  change cmpSense (inputAt s k uv) k = _
  simp [cmpSense, find_inputAt, hup', hover', hlow']

/-- The cycle trips of comparator `k` end. -/
def endCycleTrips (s : State) (k : Nat) : State :=
  { s with cvl := { s.cvl with cycle := s.cvl.cycle.filter fun e => !decide (e.1 = k) } }

/-- One that is inactive has its cycle trips ended. -/
theorem cmpInput_falls {s : State} {k uv : Nat} (hup : s.up 91 = true) (hover : s.cmpOver k uv = false) :
    cmpInput s k uv = endCycleTrips (setCmp (inputAt s k uv) k false) k := by
  have hover' : (inputAt s k uv).cmpOver k uv = false := hover
  have hup' : (inputAt s k uv).up 91 = true := hup
  change cmpSense (inputAt s k uv) k = _
  simp [cmpSense, find_inputAt, hup', hover', endCycleTrips]

theorem cmpReleased_shows (s : State) (k uv : Nat) :
    let t := endCycleTrips (setCmp (inputAt s k uv) k false) k
    t.cmpLevel k = false ∧ (∀ e, e ∈ t.cvl.cycle ↔ e ∈ s.cvl.cycle ∧ e.1 ≠ k) ∧
      OnlyRegs [CVL_CMPLVL (k / 32)] { s with cvl := { s.cvl with
        cycle := t.cvl.cycle, ain := (s.cvl.ain.filter fun e => !decide (e.1 = k)) ++ [(k, uv)] } } t := by
  have hlevel := cmpLevel_setCmp (inputAt s k uv) k false
  have hregs := onlyRegs_setCmp (inputAt s k uv) k false
  have hcvl : (setCmp (inputAt s k uv) k false).cvl = (inputAt s k uv).cvl := rfl
  generalize setCmp (inputAt s k uv) k false = u at hlevel hregs hcvl ⊢
  refine ⟨hlevel, fun e => ?_, ?_⟩
  · simp [endCycleTrips, hcvl, inputAt]
  · rw [endCycleTrips, hcvl]
    exact hregs.setCvl _

/-! ### Trips (R290, R291) -/

theorem noteForced_eq_with_pairs (s : State) : ∃ p, noteForced s = { s with cvl := { s.cvl with pairs := p } } := by
  refine List.foldlRecOn (motive := fun t => ∃ p, t = { s with cvl := { s.cvl with pairs := p } }) _ _ ?_ ?_
  · exact ⟨s.cvl.pairs, rfl⟩
  rintro t ⟨p, rfl⟩ m -
  dsimp only
  split
  · exact ⟨_, rfl⟩
  · exact ⟨p, rfl⟩

theorem noteHeld_eq_with_loops (s : State) : ∃ l, noteHeld s = { s with cvl := { s.cvl with loops := l } } := by
  refine List.foldlRecOn (motive := fun t => ∃ l, t = { s with cvl := { s.cvl with loops := l } }) _ _ ?_ ?_
  · exact ⟨s.cvl.loops, rfl⟩
  rintro t ⟨l, rfl⟩ i -
  dsimp only
  split
  · exact ⟨_, rfl⟩
  · exact ⟨l, rfl⟩

/-- A trip is added to those of its kind. -/
def tripAdded (s : State) (k g : Nat) (cyc : Bool) : State :=
  if cyc then { s with cvl := { s.cvl with cycle := (s.cvl.cycle.filter fun e => !decide (e = (k, g))) ++ [(k, g)] } }
  else { s with cvl := { s.cvl with latched := (s.cvl.latched.filter fun e => !decide (e = (k, g))) ++ [(k, g)] } }

/-- The loops and pairs of the group take notice of it. -/
def tripNoted (s : State) (k g : Nat) (cyc : Bool) : State :=
  noteHeld (noteForced (withBlanks (s.pairList.filter fun m => decide (s.pairGroup m = some g)) (tripAdded · k g cyc) s))

/-- It is counted, and CVL_STAT.TRIP set. -/
def tripReported (s : State) (k g : Nat) (cyc : Bool) : State :=
  devEvent (if s.groupTripped g then tripNoted s k g cyc else countSrc (tripNoted s k g cyc) (0x240 + g)) 213 CVL_STAT_TRIP

theorem trip_eq (s : State) (k g : Nat) (cyc : Bool) :
    trip s k g cyc = if cyc then tripReported s k g cyc else raiseLine (tripReported s k g cyc) 15 := rfl

theorem tripNoted_eq (s : State) (k g : Nat) (cyc : Bool) : ∃ b p l, tripNoted s k g cyc =
    { tripAdded s k g cyc with cvl := { (tripAdded s k g cyc).cvl with blank := b, pairs := p, loops := l } } := by
  unfold tripNoted
  generalize s.pairList.filter _ = ms
  obtain ⟨b, hb⟩ := withBlanks_eq_with_blank ms (tripAdded · k g cyc) s
  obtain ⟨p, hp⟩ := noteForced_eq_with_pairs (withBlanks ms (tripAdded · k g cyc) s)
  obtain ⟨l, hl⟩ := noteHeld_eq_with_loops (noteForced (withBlanks ms (tripAdded · k g cyc) s))
  exact ⟨b, p, l, by rw [hl, hp, hb]⟩

/-- What a trip leaves when it has been reported. -/
theorem tripReported_shows (s : State) (k g : Nat) (cyc : Bool) :
    let t := tripReported s k g cyc
    t.cvl.cycle = (tripAdded s k g cyc).cvl.cycle ∧ t.cvl.latched = (tripAdded s k g cyc).cvl.latched ∧
      t.flag CVL_STAT_TRIP = true ∧ ∀ o, o / 0x100000 ∉ reportBlocks → o ≠ CVL_STAT → t.rd o = s.rd o := by
  obtain ⟨b, p, l, hnoted⟩ := tripNoted_eq s k g cyc
  unfold tripReported
  generalize hu : (if s.groupTripped g then tripNoted s k g cyc else countSrc (tripNoted s k g cyc) (0x240 + g)) = u
  have hcounted : OnlyReports (tripNoted s k g cyc) u ∧ Reports (tripNoted s k g cyc) u := by
    rw [← hu]
    split
    · exact ⟨.refl _, .refl _⟩
    · exact ⟨onlyReports_countSrc _ _, reports_countSrc _ _⟩
  have hshown := reports_event_devEvent u 213 CVL_STAT_TRIP
  have hrest : OnlyReports (tripNoted s k g cyc) (devEvent u 213 CVL_STAT_TRIP) := hcounted.1.trans (onlyReports_devEvent _ _ _)
  refine ⟨?_, ?_, ?_, fun o ho hstat => ?_⟩
  · rw [hrest.rest, hnoted]
  · rw [hrest.rest, hnoted]
  · rw [State.flag, State.fld, hshown.rd _ (by decide)]
    exact flag_event_same u (by decide) (by decide)
  · rw [hshown.rd _ ho, State.rd_event_other _ _ _ hstat, hcounted.2.rd _ ho, hnoted]
    unfold tripAdded
    split <;> rfl

theorem mem_added {α : Type} [DecidableEq α] (l : List α) (a : α) : a ∈ (l.filter fun e => !decide (e = a)) ++ [a] := by simp

/-- The trip of comparator `k` stands, and its group with it. -/
theorem trip_cycle {s : State} {k g : Nat} :
    let t := trip s k g true
    t.groupTripped g = true ∧ (k, g) ∈ t.cvl.cycle ∧ t.cvl.latched = s.cvl.latched ∧ t.flag CVL_STAT_TRIP = true ∧
      ∀ o, o / 0x100000 ∉ reportBlocks → o ≠ CVL_STAT → t.rd o = s.rd o := by
  obtain ⟨hcycle, hlatched, hstat, hregs⟩ := tripReported_shows s k g true
  have hmem : (k, g) ∈ (tripReported s k g true).cvl.cycle := by
    rw [hcycle]
    exact mem_added _ _
  rw [trip_eq, if_pos rfl]
  refine ⟨?_, hmem, hlatched, hstat, hregs⟩
  exact Bool.or_eq_true_iff.2 (.inr (List.any_eq_true.2 ⟨_, hmem, decide_eq_true rfl⟩))

theorem tripReported_latched {s : State} {k g : Nat} :
    let t := tripReported s k g false
    t.groupTripped g = true ∧ (k, g) ∈ t.cvl.latched ∧ t.cvl.cycle = s.cvl.cycle ∧ t.flag CVL_STAT_TRIP = true ∧
      ∀ o, o / 0x100000 ∉ reportBlocks → o ≠ CVL_STAT → t.rd o = s.rd o := by
  obtain ⟨hcycle, hlatched, hstat, hregs⟩ := tripReported_shows s k g false
  have hmem : (k, g) ∈ (tripReported s k g false).cvl.latched := by
    rw [hlatched]
    exact mem_added _ _
  refine ⟨?_, hmem, hcycle, hstat, hregs⟩
  exact Bool.or_eq_true_iff.2 (.inl (List.any_eq_true.2 ⟨_, hmem, decide_eq_true rfl⟩))

/-- A comparator's level is not touched by what a trip reports. -/
theorem cmpLevel_of_reports {s t : State} {k : Nat} (hk : k < 96)
    (h : ∀ o, o / 0x100000 ∉ reportBlocks → o ≠ CVL_STAT → t.rd o = s.rd o) : t.cmpLevel k = s.cmpLevel k := by
  have hblock : CVL_CMPLVL (k / 32) / 0x100000 = 0x0F := by
    unfold CVL_CMPLVL
    omega
  have hstat : CVL_CMPLVL (k / 32) ≠ CVL_STAT := by
    unfold CVL_CMPLVL CVL_STAT
    omega
  rw [State.cmpLevel, State.fld, h _ (by rw [hblock]; decide) hstat]
  rfl

/-! ### What a comparator does (R289, R290) -/

/-- Comparator `k` has become active, its input at `uv`. -/
def cmpRisen (s : State) (k uv : Nat) : State := setCmp (inputAt s k uv) k true

theorem cmpRisen_shows {s : State} {k : Nat} (uv : Nat) (hk : k < 96) :
    let u := cmpRisen s k uv
    u.up 92 = s.up 92 ∧ u.flag (CVL_CMPCFG_TEN k) = s.flag (CVL_CMPCFG_TEN k) ∧
      u.flag (CVL_CMPCFG_CYC k) = s.flag (CVL_CMPCFG_CYC k) ∧ u.fld (CVL_CMPCFG_GRP k) = s.fld (CVL_CMPCFG_GRP k) := by
  have hregs : OnlyRegs [CVL_CMPLVL (k / 32)] (inputAt s k uv) (cmpRisen s k uv) := onlyRegs_setCmp _ _ _
  have hcfg : CVL_CMPCFG k ∉ [CVL_CMPLVL (k / 32)] := by
    rw [List.mem_singleton]
    unfold CVL_CMPCFG CVL_CMPLVL
    omega
  have hup : RST_PDSTAT (92 / 32) ∉ [CVL_CMPLVL (k / 32)] := by
    rw [List.mem_singleton]
    unfold RST_PDSTAT CVL_CMPLVL
    omega
  refine ⟨?_, hregs.flag hcfg, hregs.flag hcfg, hregs.fld hcfg⟩
  rw [State.up, hregs.2 _ hup]
  rfl

theorem cmpAct_blanked {s : State} {k : Nat} (h : k ∈ s.cvl.blank) : cmpAct s k = s := by
  have hblank : s.cvl.blank.contains k = true := by simpa using h
  exact if_neg (by rw [hblank]; simp)

theorem cmpAct_idle {s : State} {k : Nat} (h : (s.cmpLevel k && s.flag (CVL_CMPCFG_TEN k)) = false) : cmpAct s k = s := by
  rw [cmpAct, Bool.and_assoc (s.up 92), h]
  simp

theorem cmpAct_trips {s : State} {k : Nat} (hup : s.up 92 = true) (hlevel : s.cmpLevel k = true)
    (hen : s.flag (CVL_CMPCFG_TEN k) = true) (hblank : k ∉ s.cvl.blank) :
    cmpAct s k = trip s k (s.fld (CVL_CMPCFG_GRP k)) (s.flag (CVL_CMPCFG_CYC k)) := by
  have hopen : s.cvl.blank.contains k = false := by simpa using hblank
  exact if_pos (by rw [hup, hlevel, hen, hopen]; rfl)

/-- Outside blanking an enabled comparator that becomes active trips its group. -/
theorem cmpInput_trips {s : State} {k uv : Nat} {cyc : Bool} (hk : k < 96) (hcvl : s.up 91 = true) (hpwm : s.up 92 = true)
    (hlow : s.cmpLevel k = false) (hover : s.cmpOver k uv = true) (hen : s.flag (CVL_CMPCFG_TEN k) = true)
    (hcyc : s.flag (CVL_CMPCFG_CYC k) = cyc) (hblank : k ∉ s.cvl.blank) :
    cmpInput s k uv = trip (cmpRisen s k uv) k (s.fld (CVL_CMPCFG_GRP k)) cyc := by
  obtain ⟨hup, hen', hcyc', hgrp⟩ := cmpRisen_shows (s := s) uv hk
  rw [cmpInput_rises hcvl hlow hover, ← hcyc, ← hcyc', ← hgrp]
  exact cmpAct_trips (hup.trans hpwm) (cmpLevel_setCmp _ _ _) (hen'.trans hen) hblank

theorem cmpInput_blanked {s : State} {k uv : Nat} (hcvl : s.up 91 = true) (hlow : s.cmpLevel k = false)
    (hover : s.cmpOver k uv = true) (hblank : k ∈ s.cvl.blank) : cmpInput s k uv = cmpRisen s k uv := by
  rw [cmpInput_rises hcvl hlow hover]
  exact cmpAct_blanked hblank

/-- An inactive comparator, or one that is not enabled, does nothing at the end of its window. -/
theorem blankEnd_idle {s : State} {k : Nat} (hblank : k ∈ s.cvl.blank)
    (hidle : (s.cmpLevel k && s.flag (CVL_CMPCFG_TEN k)) = false) :
    blankEnd s k = { s with cvl := { s.cvl with blank := nsDel s.cvl.blank k } } := by
  have hcontains : s.cvl.blank.contains k = true := by simpa using hblank
  have hact := cmpAct_idle (s := { s with cvl := { s.cvl with blank := nsDel s.cvl.blank k } }) hidle
  rw [blankEnd, if_pos hcontains]
  dsimp only
  rw [hact]
  exact ite_self _

/-- The threshold of an inactive comparator (R288). -/
theorem cmpOver_of_inactive {s : State} {k : Nat} (uv : Nat) (h : s.cmpLevel k = false) :
    s.cmpOver k uv = decide (if k % 2 = 0 then s.fld (CVL_CMPCFG_THR k) * 1800000 < uv * 1024
      else uv * 1024 < s.fld (CVL_CMPCFG_THR k) * 1800000) := by
  unfold State.cmpOver
  rw [h]
  by_cases heven : k % 2 = 0 <;> simp [heven]

/-! ### A write of CVL_TRIPCLR (R291) -/

theorem tripClear_rest (s : State) (hi : Bool) (mask : Nat) :
    tripClear s hi mask = { s with cvl := { s.cvl with latched := (tripClear s hi mask).cvl.latched } } := by
  unfold tripClear
  split <;> rfl

theorem mem_latched_tripClear {s : State} (hsafe : s.safe = false) (hi : Bool) (mask : Word) {k : Nat} (g : Nat) (hk : k < 96) :
    (k, g) ∈ (tripClear s hi mask.toNat).cvl.latched ↔
      (k, g) ∈ s.cvl.latched ∧ (g / 32 ≠ b2n hi ∨ mask.getLsbD (g % 32) = false ∨ s.cmpLevel k = true) := by
  rw [tripClear, hsafe, if_neg (by decide), List.mem_filter]
  refine and_congr_right fun _ => ?_
  have hbit : bit mask.toNat (g % 32) = mask.getLsbD (g % 32) := rfl
  simp only [hbit, hk]
  cases s.cmpLevel k <;> cases mask.getLsbD (g % 32) <;> simp

/-! ### The commands of O37 -/

/-- Settles O37: a comparator that becomes active, blanked and not; the end of a window; its release; its threshold; the clear. -/
theorem comparatorTrips : Obligations.ComparatorTrips := by
  refine ⟨fun k uv s hcvl hpwm hlow hover hen => ⟨fun hblank => ?_, fun hblank hcyc => ?_, fun hblank hcyc => ?_⟩,
    fun k s hblank hidle => ?_, fun k uv s hcvl hover => ?_, fun k uv s hlow => cmpOver_of_inactive _ hlow,
    fun who hi mask s hs => ⟨fun hsafe => ?_, fun hsafe => ?_⟩⟩
  · refine ⟨_, congrArg Host.Outcome.next (cmpInput_blanked (s := s.eventCycle) hcvl hlow hover hblank), ?_, ?_⟩
    · exact cmpLevel_setCmp _ _ _
    · exact onlyRegs_setCmp _ _ _
  · have htrips := cmpInput_trips (s := s.eventCycle) k.isLt hcvl hpwm hlow hover hen hcyc hblank
    obtain ⟨hgroup, hmem, hlatched, hstat, hregs⟩ :=
      trip_cycle (s := cmpRisen s.eventCycle k uv.toNat) (k := k) (g := s.fld (CVL_CMPCFG_GRP k))
    exact ⟨_, congrArg Host.Outcome.next htrips, (cmpLevel_of_reports k.isLt hregs).trans (cmpLevel_setCmp _ _ _), hgroup, hmem,
      hlatched, hstat⟩
  · have htrips := cmpInput_trips (s := s.eventCycle) k.isLt hcvl hpwm hlow hover hen hcyc hblank
    obtain ⟨hgroup, hmem, hcycle, hstat, hregs⟩ :=
      tripReported_latched (s := cmpRisen s.eventCycle k uv.toNat) (k := k) (g := s.fld (CVL_CMPCFG_GRP k))
    exact ⟨_, ⟨_, congrArg Host.Outcome.next htrips, rfl⟩, (cmpLevel_of_reports k.isLt hregs).trans (cmpLevel_setCmp _ _ _), hgroup,
      hmem, hcycle, hstat⟩
  · exact ⟨_, congrArg Host.Outcome.next (blankEnd_idle (s := s.eventCycle) hblank hidle), rfl⟩
  · exact ⟨_, congrArg Host.Outcome.next (cmpInput_falls (s := s.eventCycle) hcvl hover), cmpReleased_shows s.eventCycle k uv.toNat⟩
  · exact completesIn_served rfl rfl hs fun c => congrArg State.written (if_pos hsafe)
  · refine completesIn_served rfl rfl hs fun c => ⟨congrArg State.written ?_, fun l g hl => ?_⟩
    · exact tripClear_rest { s with cyc := c } hi mask.toNat
    · exact mem_latched_tripClear (s := { s with cyc := c }) hsafe hi mask g hl

end Sys2Proof.Machine
end

section
/-! SUPPORT. Voices and their buses: starts and stops, what a sample works on, what its output stage makes of it, its delivery, the meter
(O39). -/
namespace Sys2Proof.Machine
open Reg

/-! ### Starts and stops (R315) -/

/-- A write of START to an enabled voice of a running image makes a start that waits TDEL samples. -/
theorem voiceStartWrite_shows {s : State} {v : Nat} (hv : v < 64) (hup : s.up 92 = true) (hrun : s.running = true)
    (hen : s.flag (VOX_VCFG_EN v) = true) :
    let t := voiceStartWrite s v
    t.voice v = { s.voice v with
        starts := (s.voice v).starts ++ [s.fld (VOX_VCNT_TDEL v)], asked := some (s.fld (VOX_VCNT_TDEL v)) } ∧
      (∀ w, w ≠ v → t.voice w = s.voice w) ∧ t = { s with vox := { s.vox with voices := t.vox.voices } } := by
  have hstart : voiceStart s v = s.setVoice v { s.voice v with starts := (s.voice v).starts ++ [s.fld (VOX_VCNT_TDEL v)] } :=
    if_pos (by simp [hup, hrun, hv, hen])
  have hwrite : voiceStartWrite s v =
      (voiceStart s v).setVoice v { (voiceStart s v).voice v with asked := some ((voiceStart s v).fld (VOX_VCNT_TDEL v)) } :=
    if_pos (by simp [hup, hrun, hv, hen])
  rw [hwrite, hstart]
  refine ⟨by simp, fun w hw => ?_, rfl⟩
  rw [State.voice_setVoice_other _ _ _ _ hw, State.voice_setVoice_other _ _ _ _ hw]

/-- A stop takes the voice out, with a start that is due at the next sample (log 33). -/
theorem voiceStop_shows {s : State} {v : Nat} (hv : v < 64) (hup : s.up 92 = true) :
    let t := voiceStop s v
    (t.voice v).run = false ∧ (∀ n, n ∈ (t.voice v).starts ↔ n ∈ (s.voice v).starts ∧ n ≠ 0) ∧
      (∀ w, w ≠ v → t.voice w = s.voice w) ∧ t = { s with vox := { s.vox with voices := t.vox.voices } } := by
  have hstop : voiceStop s v = s.setVoice v { s.voice v with
      run := false, starts := (s.voice v).starts.filter (fun n => !decide (n = 0)),
      asked := if (s.voice v).asked = some 0 then none else (s.voice v).asked } := if_pos (by simp [hup, hv])
  rw [hstop]
  exact ⟨by simp, by simp, fun w hw => State.voice_setVoice_other _ _ _ _ hw, rfl⟩

/-! ### What the work of a bus leaves -/

/-- The registers in which the work of bus `b` shows before its sample does: events, corrections, clips, the meter. -/
def busStatus (b : Nat) : List Nat := [VOX_STAT, VOX_ECCCNT, VOX_BSTAT b, VOX_BMETER b]

/-- From `s` to `t` bus `b` has worked without a sample made or delivered; of the registers only those of its status, and those that report,
have changed. -/
structure BusWork (b : Nat) (s t : State) : Prop where
  flight : (t.bus b).flight = (s.bus b).flight
  out : (t.bus b).out = (s.bus b).out
  code : (t.bus b).code = (s.bus b).code
  rd : ∀ o, o / 0x100000 ∉ reportBlocks → o ∉ busStatus b → t.rd o = s.rd o

namespace BusWork
variable {b : Nat} {s t u : State}

theorem refl (b : Nat) (s : State) : BusWork b s s := ⟨rfl, rfl, rfl, fun _ _ _ => rfl⟩

theorem trans (h : BusWork b s t) (h' : BusWork b t u) : BusWork b s u where
  flight := h'.flight.trans h.flight
  out := h'.out.trans h.out
  code := h'.code.trans h.code
  rd o ho hs := (h'.rd o ho hs).trans (h.rd o ho hs)

/-- Reports are no concern of the buses. -/
theorem of_reports (h : Reports s t) (h' : OnlyReports s t) : BusWork b s t := by
  have hbus : t.bus b = s.bus b := by
    rw [h'.rest]
    rfl
  exact ⟨by rw [hbus], by rw [hbus], by rw [hbus], fun o ho _ => h.rd o ho⟩

theorem setVoice (h : BusWork b s t) (v : Nat) (x : Voice) : BusWork b s (t.setVoice v x) :=
  h.trans ⟨rfl, rfl, rfl, fun _ _ _ => rfl⟩

/-- The rest of the bus's record. -/
theorem setBus (h : BusWork b s t) {x : Bus} (hflight : x.flight = (t.bus b).flight) (hout : x.out = (t.bus b).out)
    (hcode : x.code = (t.bus b).code) : BusWork b s (t.setBus b x) :=
  h.trans ⟨by rwa [State.bus_setBus_same], by rwa [State.bus_setBus_same], by rwa [State.bus_setBus_same], fun _ _ _ => rfl⟩

theorem setFld (h : BusWork b s t) {f : Fld} (hf : f.off ∈ busStatus b) (v : Nat) : BusWork b s (t.setFld f v) :=
  h.trans ⟨rfl, rfl, rfl, fun _ _ hs => State.rd_setFld_other _ _ _ _ fun e => hs (e ▸ hf)⟩

theorem event (h : BusWork b s t) {f : Fld} (hf : f.off ∈ busStatus b) : BusWork b s (t.event f) :=
  h.trans ⟨rfl, rfl, rfl, fun _ _ hs => State.rd_event_other _ _ _ fun e => hs (e ▸ hf)⟩

theorem count (h : BusWork b s t) {f : Fld} (hf : f.off ∈ busStatus b) (n : Nat) : BusWork b s (t.count f n) :=
  h.trans ⟨rfl, rfl, rfl, fun _ _ hs => State.rd_count_other _ _ _ _ fun e => hs (e ▸ hf)⟩

theorem ite {c : Prop} [Decidable c] (ht : BusWork b s t) (hu : BusWork b s u) : BusWork b s (if c then t else u) := by
  split
  · exact ht
  · exact hu

/-- Works one after the other. -/
theorem foldl {α : Type} {l : List α} {f : State → α → State} (hf : ∀ t k, BusWork b t (f t k)) (s : State) :
    BusWork b s (l.foldl f s) :=
  List.foldlRecOn (motive := BusWork b s) _ _ (.refl b s) fun t ht k _ => ht.trans (hf t k)

/-- The same where each passes on a sum. -/
theorem foldlSum {α : Type} {l : List α} {f : State × Int → α → State × Int} (hf : ∀ p k, BusWork b p.1 (f p k).1)
    (p : State × Int) : BusWork b p.1 (l.foldl f p).1 :=
  List.foldlRecOn (motive := fun q => BusWork b p.1 q.1) _ _ (.refl b p.1) fun q hq k _ => hq.trans (hf q k)

theorem fld (h : BusWork b s t) {f : Fld} (hblock : f.off / 0x100000 = 0x10) (hf : f.off ∉ busStatus b) : t.fld f = s.fld f := by
  rw [State.fld, h.rd _ (by rw [hblock]; decide) hf, State.fld]

end BusWork

/-- The limit, the offset and the last sample shown are VOX's, and no status. -/
theorem BusWork.limitOffsetSample {b : Nat} {s t : State} (h : BusWork b s t) (hb : b < 16) :
    t.fld (VOX_BGAIN_LIM b) = s.fld (VOX_BGAIN_LIM b) ∧ t.fld (VOX_BOUT_DACOFF b) = s.fld (VOX_BOUT_DACOFF b) ∧
      t.fld (VOX_BSAMP_S16 b) = s.fld (VOX_BSAMP_S16 b) := by
  have hblock : VOX_BGAIN b / 0x100000 = 0x10 ∧ VOX_BOUT b / 0x100000 = 0x10 ∧ VOX_BSAMP b / 0x100000 = 0x10 := by
    unfold VOX_BGAIN VOX_BOUT VOX_BSAMP
    omega
  have hstatus : VOX_BGAIN b ∉ busStatus b ∧ VOX_BOUT b ∉ busStatus b ∧ VOX_BSAMP b ∉ busStatus b := by
    unfold busStatus VOX_BGAIN VOX_BOUT VOX_BSAMP VOX_STAT VOX_ECCCNT VOX_BSTAT VOX_BMETER
    simp only [List.mem_cons, List.not_mem_nil, or_false, not_or]
    omega
  obtain ⟨hgain, hout, hsample⟩ := hblock
  obtain ⟨hgain', hout', hsample'⟩ := hstatus
  exact ⟨h.fld hgain hgain', h.fld hout hout', h.fld hsample hsample'⟩

/-! ### Corrections and damaged words (R318) -/

theorem busWork_corrected (b : Nat) (s : State) (n : Nat) : BusWork b s (corrected s VOX_ECCCNT_CORR n) :=
  .ite (.refl b s) (((BusWork.refl b s).count (by simp [busStatus]) n).trans
    (.of_reports (reports_countSrc _ _) (onlyReports_countSrc _ _)))

theorem busWork_voxDamage (b : Nat) (s : State) : BusWork b s (voxDamage s) := by
  have hcounted : BusWork b s (uncorrected s VOX_ECCCNT_UNCORR) :=
    ((BusWork.refl b s).count (by simp [busStatus]) 1).trans (.of_reports (reports_countSrc _ _) (onlyReports_countSrc _ _))
  exact (hcounted.event (f := VOX_STAT_ECCU) (by simp [busStatus])).trans
    (.of_reports (reports_raiseLine _ 16) ((onlyReports_tgtUse _ _).trans (onlyReports_latchLine _ _)))

/-! ### Voices, inputs and sections of a sample (R309, R313, R315) -/

theorem busWork_voiceDue (b : Nat) (s : State) (v : Nat) : BusWork b s (voiceDue s v) :=
  .ite (.refl b s) (.ite ((BusWork.refl b s).setVoice v _) ((BusWork.refl b s).setVoice v _))

theorem busWork_voiceSample (b : Nat) (p : State × Int) (v : Nat) : BusWork b p.1 (voiceSample p v).1 := by
  have hdue := busWork_voiceDue b p.1 v
  unfold voiceSample
  extract_lets s out bad t
  have hstep : BusWork b p.1 t := hdue.setVoice v _
  split
  · exact .ite (hstep.trans (busWork_voxDamage b t)) hstep
  · exact hdue

theorem busWork_busInput (b : Nat) (p : State × Int) (j : Nat) : BusWork b p.1 (busInput b p j).1 := by
  have hest (est : List (Nat × Int)) : BusWork b p.1 (p.1.setBus b { p.1.bus b with est := est }) :=
    (BusWork.refl b p.1).setBus rfl rfl rfl
  unfold busInput
  dsimp only
  split
  · exact .refl b p.1
  · split
    · exact hest _
    · split
      · exact .refl b p.1
      · exact hest _

theorem busWork_busSection (b : Nat) (p : State × Int) (k : Nat) : BusWork b p.1 (busSection b p k).1 := by
  unfold busSection
  extract_lets s u bad r t
  have hset : BusWork b p.1 t := (BusWork.refl b p.1).setBus rfl rfl rfl
  exact hset.trans (.foldl (fun t _ => busWork_voxDamage b t) t)

/-! ### The meter (R314) -/

theorem busWork_meterPeak (b : Nat) (s : State) (m : Nat) : BusWork b s (meterPeak s b m) := by
  have hset {peak hold : Nat} : BusWork b s (s.setBus b { s.bus b with peak := peak, hold := hold }) :=
    (BusWork.refl b s).setBus rfl rfl rfl
  exact .ite hset (.ite hset (.ite hset (.refl b s)))

theorem busWork_meterRms (b : Nat) (s : State) (m : Nat) : BusWork b s (meterRms s b m) := (BusWork.refl b s).setBus rfl rfl rfl

theorem busWork_showMeter (b : Nat) (s : State) : BusWork b s (showMeter s b) :=
  ((BusWork.refl b s).setFld (by simp [busStatus]) _).setFld (by simp [busStatus]) _

/-- Showing the meter sets its register alone. -/
theorem onlyRegs_showMeter (s : State) (b : Nat) : OnlyRegs [VOX_BMETER b] s (showMeter s b) :=
  ((OnlyRegs.refl _ s).setFld (by simp) _).setFld (by simp) _

theorem vox_showMeter (s : State) (b : Nat) : (showMeter s b).vox = s.vox := by
  rw [(onlyRegs_showMeter s b).1]

theorem bus_showMeter (s : State) (b k : Nat) : (showMeter s b).bus k = s.bus k := by
  rw [State.bus, vox_showMeter, State.bus]

/-- A clear of the peak shows in the meter, and in nothing else. -/
theorem peakClear_shows {s : State} {b : Nat} (hb : b < 16) (hup : s.up 92 = true) :
    let t := peakClear s b
    (t.bus b).peak = 0 ∧ (t.bus b).hold = 0 ∧ t.fld (VOX_BMETER_PEAK b) = 0 ∧
      OnlyRegs [VOX_BMETER b] { s with vox := { s.vox with buses := t.vox.buses } } t := by
  have hclear : peakClear s b = showMeter (s.setBus b { s.bus b with peak := 0, hold := 0 }) b := if_neg (by simp [hup, hb])
  have hcleared : (s.setBus b { s.bus b with peak := 0, hold := 0 }).bus b = { s.bus b with peak := 0, hold := 0 } :=
    State.bus_setBus_same _ _ _
  rw [hclear]
  generalize hu : s.setBus b { s.bus b with peak := 0, hold := 0 } = u at hcleared ⊢
  refine ⟨?_, ?_, ?_, ?_⟩
  · rw [bus_showMeter, hcleared]
  · rw [bus_showMeter, hcleared]
  · rw [showMeter, fld_setFld_disjoint _ _ (by simp) (by simp) (by simp) (by simp) (by simp), hcleared,
      fld_setFld_self _ _ (by simp) (by simp), Nat.zero_mod]
  · rw [vox_showMeter, ← hu]
    exact onlyRegs_showMeter (s.setBus b _) b

/-! ### The output stage (R313) -/

/-- The final limiter leaves 16 fractional bits, which the sample drops: it stays within the limit. -/
theorem sarI_clampI_bounds {lim : Int} (hlim : 1 ≤ lim) (g : Int) :
    -lim ≤ sarI (clampI (-lim * 65536) (lim * 65536 - 1) g) 16 ∧ sarI (clampI (-lim * 65536) (lim * 65536 - 1) g) 16 < lim := by
  have hlo : -lim * 65536 ≤ clampI (-lim * 65536) (lim * 65536 - 1) g := by
    unfold clampI
    split
    · omega
    · split <;> omega
  have hhi : clampI (-lim * 65536) (lim * 65536 - 1) g ≤ lim * 65536 - 1 := by
    unfold clampI
    split
    · omega
    · split <;> omega
  rw [sarI, Int.fdiv_eq_ediv_of_nonneg _ (Int.natCast_nonneg _)]
  omega

/-- The sample that the output stage of bus `b` makes of the sum `acc`. -/
def State.busLimited (s : State) (b : Nat) (acc : Int) : Int :=
  let lim : Int := max (s.fld (VOX_BGAIN_LIM b)) 1
  sarI (clampI (-lim * 65536) (lim * 65536 - 1) (sarI (acc * (s.fld (VOX_BGAIN_GAIN b) : Int)) 14)) 16

theorem busFinish_shows {s : State} {b : Nat} (hb : b < 16) (acc : Int) :
    let t := busFinish s b acc
    let x := s.busLimited b acc
    (t.bus b).flight = (s.bus b).flight ++ [(x, (clampI 0 16383 (sarI x 2 + s.fld (VOX_BOUT_DACOFF b))).toNat)] ∧
      t.fld (VOX_BSAMP_S16 b) = wrapN 16 x ∧ (t.bus b).out = (s.bus b).out ∧ (t.bus b).code = (s.bus b).code := by
  intro t x
  unfold t busFinish
  extract_lets lim g c clipped s16 code u made shown m
  have hclipped : BusWork b s clipped :=
    .ite (.refl b s) ((((BusWork.refl b s).count (by simp [busStatus]) 1).event (by simp [busStatus])).event (by simp [busStatus]))
  obtain ⟨-, hoff, -⟩ := hclipped.limitOffsetSample hb
  have hmade : shown.bus b = { u with flight := u.flight ++ [(s16, code)] } := State.bus_setBus_same clipped b _
  have hmeter : BusWork b shown (showMeter (meterRms (meterPeak shown b m) b m) b) :=
    ((busWork_meterPeak b shown m).trans (busWork_meterRms b _ m)).trans (busWork_showMeter b _)
  obtain ⟨-, -, hsample⟩ := hmeter.limitOffsetSample hb
  have hwrap : wrapN 16 s16 < 2 ^ 16 := by
    unfold wrapN
    omega
  refine ⟨?_, ?_, ?_, ?_⟩
  · rw [hmeter.flight, hmade, ← hoff, ← hclipped.flight]
    rfl
  · rw [hsample]
    exact (fld_setFld_self made _ (by simp) (by simp)).trans (Nat.mod_eq_of_lt hwrap)
  · rw [hmeter.out, hmade, ← hclipped.out]
  · rw [hmeter.code, hmade, ← hclipped.code]

/-! ### A sample and its delivery (R311, R313) -/

/-- A sample is what the output stage makes when the voices, inputs and sections have done their work. -/
theorem busSample_finishes {s : State} {b : Nat} (corr : Nat) (hup : s.up 92 = true) (hrun : s.running = true)
    (hb : b < s.fld VOX_CFG_NBUS) : ∃ p : State × Int, BusWork b s p.1 ∧ busSample s b corr = busFinish p.1 b p.2 := by
  unfold busSample
  rw [if_neg (by simp [hup, hrun, hb])]
  refine ⟨_, ?_, rfl⟩
  exact (((busWork_corrected b s corr).trans (.foldlSum (busWork_voiceSample b) (_, 0))).trans
    (.foldlSum (busWork_busInput b) _)).trans (.foldlSum (busWork_busSection b) _)

/-- Cell `n` takes its code from bus `b` (R311). -/
def codeTaken (b code : Nat) (s : State) (n : Nat) : State :=
  if s.fld (CVL_CCFG_DSRC n) = 2 ∧ s.fld (CVL_CCFG_DIDX n) = b ∧ 2 ≤ s.fld (CVL_CCFG_MODE n)
  then { s with cvl := { s.cvl with busCode := smSet 0 s.cvl.busCode n code } } else s

/-- The cells take the code one after the other: those that follow the bus hold it. -/
theorem codeTaken_foldl (b code : Nat) (l : List Nat) (s : State) :
    ∃ m, l.foldl (codeTaken b code) s = { s with cvl := { s.cvl with busCode := m } } ∧
      ∀ n, (n ∈ l ∧ s.fld (CVL_CCFG_DSRC n) = 2 ∧ s.fld (CVL_CCFG_DIDX n) = b ∧ 2 ≤ s.fld (CVL_CCFG_MODE n)) ∨
        smGet 0 s.cvl.busCode n = code → smGet 0 m n = code := by
  induction l generalizing s with
  | nil => exact ⟨s.cvl.busCode, rfl, fun n hn => hn.resolve_left fun h => absurd h.1 (by simp)⟩
  | cons k r ih =>
    rw [List.foldl_cons]
    by_cases hk : s.fld (CVL_CCFG_DSRC k) = 2 ∧ s.fld (CVL_CCFG_DIDX k) = b ∧ 2 ≤ s.fld (CVL_CCFG_MODE k)
    · rw [codeTaken, if_pos hk]
      obtain ⟨m, hm, hcodes⟩ := ih { s with cvl := { s.cvl with busCode := smSet 0 s.cvl.busCode k code } }
      refine ⟨m, hm, fun n hn => hcodes n ?_⟩
      by_cases hnk : n = k
      · exact .inr (hnk ▸ smGet_smSet_same 0 _ _ _)
      · refine hn.imp (fun h => ⟨(List.mem_cons.1 h.1).resolve_left hnk, h.2⟩) fun h => ?_
        exact (smGet_smSet_other 0 0 _ _ _ _ hnk).trans h
    · rw [codeTaken, if_neg hk]
      obtain ⟨m, hm, hcodes⟩ := ih s
      refine ⟨m, hm, fun n hn => hcodes n (hn.imp_left fun h => ⟨(List.mem_cons.1 h.1).resolve_left ?_, h.2⟩)⟩
      rintro rfl
      exact hk h.2

/-- The oldest sample becomes the bus's output, its code that of the cells that follow the bus. -/
theorem busDeliver_shows {s : State} {b code : Nat} {x : Int} {r : List (Int × Nat)} (h : (s.bus b).flight = (x, code) :: r) :
    let t := busDeliver s b
    t.busOut b = x ∧ (t.bus b).code = code ∧ (t.bus b).flight = r ∧
      (∀ n, n < 48 → s.fld (CVL_CCFG_DSRC n) = 2 → s.fld (CVL_CCFG_DIDX n) = b → 2 ≤ s.fld (CVL_CCFG_MODE n) →
        smGet 0 t.cvl.busCode n = code) ∧
      t = { s with vox := { s.vox with buses := t.vox.buses }, cvl := { s.cvl with busCode := t.cvl.busCode } } := by
  have hdeliver : busDeliver s b =
      (List.range 48).foldl (codeTaken b code) (s.setBus b { s.bus b with flight := r, out := x, code := code }) := by
    simp only [busDeliver, h]
    rfl
  obtain ⟨m, hm, hcodes⟩ := codeTaken_foldl b code (List.range 48) (s.setBus b { s.bus b with flight := r, out := x, code := code })
  have hbus : (busDeliver s b).bus b = { s.bus b with flight := r, out := x, code := code } := by
    rw [hdeliver, hm]
    exact State.bus_setBus_same _ _ _
  refine ⟨congrArg Bus.out hbus, congrArg Bus.code hbus, congrArg Bus.flight hbus, fun n hn hsrc hidx hmode => ?_, ?_⟩
  · rw [hdeliver, hm]
    exact hcodes n (.inl ⟨List.mem_range.2 hn, hsrc, hidx, hmode⟩)
  · rw [hdeliver, hm]
    rfl

/-- A sample of a bus that has its own instants is within the limit, in flight, and shown. -/
theorem busTick_shows {s : State} {b : Nat} (corr : Nat) (hb : b < 16) (hup : s.up 92 = true) (hrun : s.running = true)
    (hdef : b < s.fld VOX_CFG_NBUS) (hrate : s.fld (VOX_BCFG_RATE b) = 1 ∨ s.fld (VOX_BCFG_RATE b) = 2) :
    let t := busTick s b corr
    let lim : Int := max (s.fld (VOX_BGAIN_LIM b)) 1
    ∃ x : Int, (t.bus b).flight = (s.bus b).flight ++ [(x, (clampI 0 16383 (sarI x 2 + s.fld (VOX_BOUT_DACOFF b))).toNat)] ∧
      -lim ≤ x ∧ x < lim ∧ t.fld (VOX_BSAMP_S16 b) = wrapN 16 x ∧ (t.bus b).out = (s.bus b).out ∧
      (t.bus b).code = (s.bus b).code := by
  intro t lim
  obtain ⟨p, hwork, hsample⟩ := busSample_finishes corr hup hrun hdef
  have ht : t = busFinish p.1 b p.2 := (if_pos hrate).trans hsample
  obtain ⟨hflight, hshown, hout, hcode⟩ := busFinish_shows (s := p.1) hb p.2
  obtain ⟨hlim, hoff, -⟩ := hwork.limitOffsetSample hb
  obtain ⟨hlower, hupper⟩ : -lim ≤ p.1.busLimited b p.2 ∧ p.1.busLimited b p.2 < lim := by
    rw [State.busLimited, hlim]
    exact sarI_clampI_bounds (Int.le_max_right _ _) _
  rw [hwork.flight, hoff] at hflight
  rw [ht]
  exact ⟨_, hflight, hlower, hupper, hshown, hout.trans hwork.out, hcode.trans hwork.code⟩

/-! ### The commands of O39 -/

/-- Settles O39: starts and stops of voices, samples of buses, their delivery, the clear of a peak. -/
theorem voicesAndBuses : Obligations.VoicesAndBuses := by
  refine ⟨fun who v s hs hup => ⟨fun hrun hen => ?_, ?_⟩, fun b corr s hup hrun hdef _ hrate => ?_, fun b x code r s hflight => ?_,
    fun who b s hs hup => ?_⟩
  · refine completesIn_served rfl rfl hs fun c => ?_
    obtain ⟨hvoice, hothers, hrest⟩ := voiceStartWrite_shows (s := { s with cyc := c }) v.isLt hup hrun hen
    exact ⟨hvoice, hothers, congrArg State.written hrest⟩
  · refine completesIn_served rfl rfl hs fun c => ?_
    obtain ⟨hstopped, hstarts, hothers, hrest⟩ := voiceStop_shows (s := { s with cyc := c }) v.isLt hup
    exact ⟨hstopped, hstarts, hothers, congrArg State.written hrest⟩
  · exact ⟨_, rfl, busTick_shows (s := s.eventCycle) corr b.isLt hup hrun hdef hrate⟩
  · exact ⟨_, rfl, busDeliver_shows (s := s.eventCycle) hflight⟩
  · refine completesIn_served rfl rfl hs fun c => ?_
    obtain ⟨hpeak, hhold, hmeter, hregs⟩ := peakClear_shows (s := { s with cyc := c }) b.isLt hup
    exact ⟨hpeak, hhold, hmeter, hregs.answer _ _ _⟩

end Sys2Proof.Machine
end

section
/-! SUPPORT. Event counters: clears, snapshots, latched reads (O42). -/
namespace Sys2Proof.Machine
open Reg

/-! ### What lists of keys hold -/

theorem mem_nsAdd {l : List Nat} {k a : Nat} : a ∈ nsAdd l k ↔ a = k ∨ a ∈ l := by
  induction l with
  | nil => simp [nsAdd]
  | cons b r ih =>
    unfold nsAdd
    split
    · exact List.mem_cons
    split
    next heq => simp [heq]
    next => rw [List.mem_cons, ih, List.mem_cons, or_left_comm]

theorem mem_foldl_nsAdd {l acc : List Nat} {a : Nat} : a ∈ l.foldl nsAdd acc ↔ a ∈ acc ∨ a ∈ l := by
  induction l generalizing acc with
  | nil => simp
  | cons k r ih => rw [List.foldl_cons, ih, mem_nsAdd, List.mem_cons, or_comm (a := a = k), or_assoc]

theorem smGet_of_not_mem {α : Type} (d : α) {m : List (Nat × α)} {k : Nat} (h : ∀ e ∈ m, e.1 ≠ k) : smGet d m k = d := by
  induction m with
  | nil => rfl
  | cons e r ih =>
    have hne : ¬ e.1 = k := h e List.mem_cons_self
    rw [smGet, if_neg hne, ih fun x hx => h x (List.mem_cons_of_mem e hx)]

/-! ### Clears (R335) -/

/-- A clear leaves this cycle's contribution, in its own counter alone. -/
theorem evCnt_evClear (s : State) (k j : Nat) :
    smGet 0 (evClear s k).tmr.evCnt j = if j = k then s.contrib j else smGet 0 s.tmr.evCnt j := by
  unfold evClear
  split
  next heq => rw [heq, smGet_smSet_same]
  next hne => exact smGet_smSet_other _ _ _ _ _ _ hne

theorem foldl_evClear_shows (l : List Nat) (s : State) :
    let t := l.foldl evClear s
    (∀ j, smGet 0 t.tmr.evCnt j = if j ∈ l then s.contrib j else smGet 0 s.tmr.evCnt j) ∧
      t = { s with tmr := { s.tmr with evCnt := t.tmr.evCnt } } := by
  induction l generalizing s with
  | nil => exact ⟨fun j => rfl, rfl⟩
  | cons k r ih =>
    obtain ⟨hcounts, hrest⟩ := ih (evClear s k)
    refine ⟨fun j => ?_, hrest.trans rfl⟩
    have hcontrib : (evClear s k).contrib j = s.contrib j := rfl
    rw [List.foldl_cons, hcounts, evCnt_evClear, hcontrib]
    by_cases hr : j ∈ r <;> by_cases hk : j = k <;> simp [hr, hk]

/-- A counter that is not listed has no count; one without a contribution is left none. -/
theorem evClearAll_shows (s : State) :
    (∀ j, smGet 0 (evClearAll s).tmr.evCnt j = s.contrib j) ∧
      evClearAll s = { s with tmr := { s.tmr with evCnt := (evClearAll s).tmr.evCnt } } := by
  obtain ⟨hcounts, hrest⟩ := foldl_evClear_shows (s.tmr.evCnt.map (·.1) ++ s.cyc.evContrib) s
  refine ⟨fun j => (hcounts j).trans ?_, hrest⟩
  split
  next => rfl
  next hout =>
    rw [List.mem_append, not_or, List.mem_map] at hout
    obtain ⟨hcount, hcontrib⟩ := hout
    rw [smGet_of_not_mem 0 fun e he heq => hcount ⟨e, he, heq⟩, State.contrib, if_neg (by simpa using hcontrib)]

/-! ### Snapshots (R335) -/

theorem findRow_base_dims {off : Nat} {rows : List RegDef} {d : RegDef} (h : findRow off rows = some d) :
    d.base ≤ off ∧ dimsHit (off - d.base) d.dims = true := by
  induction rows with
  | nil => cases h
  | cons e r ih =>
    rw [findRow] at h
    split at h
    next hit =>
      cases h
      simpa using hit
    next => exact ih h

/-- What TMR's map resets to another value than 0 are registers of the 128 timers (R336). -/
theorem tmrRows_reset : ∀ d ∈ RegTab.tmrRows, d.reset = 0 ∨ d.base < TMR_CTL 1 ∧ d.dims = [(0x20, 128)] := by decide

/-- Registers of the event counters reset to 0. -/
theorem resetWord_eventCounter {off : Nat} (hlo : TMR_ESEL 0 ≤ off) (hhi : off < 0x1200000) : resetWord off = 0 := by
  have hslot : off / 0x100000 = 0x11 := by unfold TMR_ESEL at hlo; omega
  unfold resetWord
  split
  next d hd =>
    rw [regDef, hslot] at hd
    obtain ⟨hbase, hdims⟩ := findRow_base_dims hd
    rcases tmrRows_reset d (findRow_mem hd) with hreset | ⟨htimer, hdim⟩
    · rw [hreset]
      rfl
    · have hindex : (off - d.base) / 0x20 < 128 := by
        rw [hdim] at hdims
        simp only [dimsHit, Bool.and_eq_true, decide_eq_true_eq] at hdims
        exact hdims.1
      unfold TMR_CTL at htimer
      unfold TMR_ESEL at hlo
      omega
  next => rfl

/-- The count of `k` before this cycle's contribution in `s` stands in the snapshot registers of `t`. -/
def Snapped (s t : State) (k : Nat) : Prop :=
  t.rd (TMR_ESNAP_LO k) = BitVec.ofNat 32 (s.evBefore k) ∧ t.fld (TMR_ESNAP_HI_SNAP_H k) = s.evBefore k / 2 ^ 32 % 65536

/-- One counter of a snapshot of `s` is copied. -/
def copyCount (s t : State) (k : Nat) : State :=
  (t.wr (TMR_ESNAP_LO k) (BitVec.ofNat 32 (s.evBefore k))).setFld (TMR_ESNAP_HI_SNAP_H k) (s.evBefore k / 2 ^ 32)

theorem Snapped.congr {s t u : State} {k : Nat} (h : Snapped s t k) (hlo : u.rd (TMR_ESNAP_LO k) = t.rd (TMR_ESNAP_LO k))
    (hhi : u.rd (TMR_ESNAP_HI k) = t.rd (TMR_ESNAP_HI k)) : Snapped s u k :=
  ⟨hlo.trans h.1, (congrArg (wField · 15 0) hhi).trans h.2⟩

theorem rd_copyCount_other (s t : State) {k o : Nat} (hlo : o ≠ TMR_ESNAP_LO k) (hhi : o ≠ TMR_ESNAP_HI k) :
    (copyCount s t k).rd o = t.rd o :=
  (State.rd_setFld_other _ _ _ _ hhi).trans (State.rd_wr_other _ _ _ _ hlo)

theorem snapped_copyCount_same (s t : State) (k : Nat) : Snapped s (copyCount s t k) k := by
  refine ⟨?_, fld_setFld_self _ _ (by simp) (by simp)⟩
  exact (State.rd_setFld_other _ _ _ _ (by simp)).trans (State.rd_wr_same _ _ _)

theorem Snapped.copyCount {s t : State} {k j : Nat} (h : Snapped s t j) (hne : j ≠ k) : Snapped s (copyCount s t k) j := by
  refine h.congr (rd_copyCount_other s t ?_ ?_) (rd_copyCount_other s t ?_ ?_)
  · unfold TMR_ESNAP_LO; omega
  · unfold TMR_ESNAP_LO TMR_ESNAP_HI; omega
  · unfold TMR_ESNAP_LO TMR_ESNAP_HI; omega
  · unfold TMR_ESNAP_HI; omega

theorem snapped_foldl_copyCount (s : State) (l : List Nat) {t : State} {j : Nat} (h : j ∈ l ∨ Snapped s t j) :
    Snapped s (l.foldl (copyCount s) t) j := by
  induction l generalizing t with
  | nil => exact h.resolve_left (by simp)
  | cons k r ih =>
    refine ih ?_
    by_cases heq : j = k
    · exact .inr (heq ▸ snapped_copyCount_same s t k)
    · exact h.imp (fun hmem => (List.mem_cons.1 hmem).resolve_left heq) (·.copyCount heq)

/-- Copying counts touches registers alone. -/
theorem foldl_copyCount_eq (s : State) (l : List Nat) (t : State) :
    l.foldl (copyCount s) t = { t with regs := (l.foldl (copyCount s) t).regs } := by
  induction l generalizing t with
  | nil => rfl
  | cons k r ih => exact (ih (copyCount s t k)).trans rfl

/-- A counter that a snapshot passes over has neither a count nor an earlier snapshot. -/
theorem snapped_of_not_mem {s : State} {k : Nat} (hk : k < 512) (h : k ∉ s.evSnapKeys) : Snapped s s k := by
  rw [State.evSnapKeys, mem_foldl_nsAdd, List.mem_append, List.mem_append, List.mem_map] at h
  simp only [not_or] at h
  obtain ⟨-, ⟨hregs, hcount⟩, hcontrib⟩ := h
  have hbefore : s.evBefore k = 0 := by
    rw [State.evBefore, if_neg (by simpa using hcontrib), smGet_of_not_mem 0 fun e he heq => hcount ⟨e, he, heq⟩]
  have hrd (o : Nat) (ho : o = TMR_ESNAP_LO k ∨ o = TMR_ESNAP_HI k) : s.rd o = 0 := by
    unfold TMR_ESNAP_LO TMR_ESNAP_HI at ho
    refine (smGet_of_not_mem _ fun e he heq => hregs (List.mem_filterMap.2 ⟨e, he, ?_⟩)).trans
      (resetWord_eventCounter (by unfold TMR_ESEL; omega) (by omega))
    rw [if_pos (by unfold TMR_ECNT_LO; omega), Option.some_inj]
    unfold TMR_ESEL
    omega
  refine ⟨?_, ?_⟩
  · rw [hrd _ (.inl rfl), hbefore]
    rfl
  · rw [State.fld, hrd _ (.inr rfl), hbefore]
    rfl

/-- A snapshot of `s` is dated and counted. -/
def stampSnapshot (s t : State) : State :=
  ({ t with tmr := { t.tmr with snapT := s.rtime } }.wr TMR_SNAPT_LO (BitVec.ofNat 32 s.rtime)).setFld TMR_EVSTAT_SNAPCNT
    (s.fld TMR_EVSTAT_SNAPCNT + 1)

theorem evSnapshot_eq (s : State) : evSnapshot s = stampSnapshot s (s.evSnapKeys.foldl (copyCount s) s) := rfl

/-- The time and the count of snapshots stand below the snapshots. -/
theorem rd_stampSnapshot (s t : State) {o : Nat} (h : TMR_ESEL 0 ≤ o) : (stampSnapshot s t).rd o = t.rd o := by
  refine (State.rd_setFld_other _ _ _ _ ?_).trans (State.rd_wr_other { t with tmr := { t.tmr with snapT := s.rtime } } _ _ _ ?_)
  · exact Nat.ne_of_gt (Nat.lt_of_lt_of_le (by decide) h)
  · exact Nat.ne_of_gt (Nat.lt_of_lt_of_le (by decide) h)

theorem evSnapshot_shows (s : State) :
    let t := evSnapshot s
    (∀ k, k < 512 → Snapped s t k) ∧ t.tmr = { s.tmr with snapT := s.rtime } ∧ t.cyc = s.cyc ∧
      t.rd TMR_SNAPT_LO = BitVec.ofNat 32 s.rtime ∧
      t.fld TMR_EVSTAT_SNAPCNT = (s.fld TMR_EVSTAT_SNAPCNT + 1) % 65536 := by
  have hrest := foldl_copyCount_eq s s.evSnapKeys s
  rw [evSnapshot_eq]
  refine ⟨fun k hk => ?_, ?_, ?_, ?_, fld_setFld_self _ _ (by simp) (by simp)⟩
  · have hcopied : Snapped s (s.evSnapKeys.foldl (copyCount s) s) k :=
      snapped_foldl_copyCount s _ ((Decidable.em _).imp_right (snapped_of_not_mem hk))
    exact hcopied.congr (rd_stampSnapshot s _ (by unfold TMR_ESEL TMR_ESNAP_LO; omega))
      (rd_stampSnapshot s _ (by unfold TMR_ESEL TMR_ESNAP_HI; omega))
  · rw [hrest]
    rfl
  · rw [hrest]
    rfl
  · exact (State.rd_setFld_other _ _ _ _ (by decide)).trans (State.rd_wr_same _ _ _)

/-- A snapshot is taken before a clear that is written with it. -/
theorem evCtlWrite_shows (s : State) (clr : Bool) :
    let t := evCtlWrite s true clr
    (∀ k, k < 512 → Snapped s t k) ∧ t.tmr.snapT = s.rtime ∧ t.rd TMR_SNAPT_LO = BitVec.ofNat 32 s.rtime ∧
      t.fld TMR_EVSTAT_SNAPCNT = (s.fld TMR_EVSTAT_SNAPCNT + 1) % 65536 ∧
      ∀ j, smGet 0 t.tmr.evCnt j = if clr then s.contrib j else smGet 0 s.tmr.evCnt j := by
  obtain ⟨hsnapped, htmr, hcyc, htime, hcount⟩ := evSnapshot_shows s
  unfold evCtlWrite
  rw [if_pos rfl]
  generalize evSnapshot s = u at hsnapped htmr hcyc htime hcount ⊢
  cases clr with
  | false => exact ⟨hsnapped, congrArg TmrState.snapT htmr, htime, hcount, fun j => congrArg (smGet 0 ·.evCnt j) htmr⟩
  | true =>
    obtain ⟨hclear, hrest⟩ := evClearAll_shows u
    have hrd (o : Nat) : (evClearAll u).rd o = u.rd o := by
      rw [hrest]
      rfl
    refine ⟨fun k hk => (hsnapped k hk).congr (hrd _) (hrd _), ?_, (hrd _).trans htime, ?_, fun j => ?_⟩
    · exact (congrArg (·.tmr.snapT) hrest).trans (congrArg TmrState.snapT htmr)
    · rw [← hcount]
      exact congrArg (wField · 31 16) (hrd _)
    · refine (hclear j).trans ?_
      rw [State.contrib, hcyc]
      rfl

/-! ### The commands of O42 -/

/-- Settles O42: clears of one counter and of all, snapshots, the latched reads. -/
theorem eventCounters : Obligations.EventCounters := by
  refine ⟨fun who k s hs => ?_, fun who s hs => ?_, fun who clr s hs => ?_, fun who k s hs => ?_, fun who s hs => ?_⟩
  · exact completesIn_served rfl rfl hs fun c => ⟨evCnt_evClear { s with cyc := c } k, rfl⟩
  · refine completesIn_served rfl rfl hs fun c => ?_
    obtain ⟨hcounts, hrest⟩ := evClearAll_shows { s with cyc := c }
    exact ⟨hcounts, congrArg State.written hrest⟩
  · exact completesIn_served rfl rfl hs fun c => evCtlWrite_shows { s with cyc := c } clr
  · exact completesIn_servedRead rfl rfl hs fun c => rfl
  · exact completesIn_servedRead rfl rfl hs fun c => rfl

end Sys2Proof.Machine
end

section
/-! SUPPORT. What reports of errors, occurrences and counts of events leave of the timers. -/
namespace Sys2Proof.Machine
open Reg

/-! ### The frame of the timers -/

/-- A register of a timer, or one between theirs and those of the event counters (R336). -/
abbrev timerReg (o : Nat) : Prop := TMR_CTL 0 ≤ o ∧ o < TMR_ESEL 0

theorem timerReg_indexed {base n : Nat} (hlo : TMR_CTL 0 ≤ base) (hhi : base < TMR_CTL 1) (hn : n ≤ 128) :
    timerReg (base + 0x20 * n) := by
  unfold timerReg TMR_ESEL TMR_CTL at *
  omega

/-- From `s` to `t` no timer has changed, in its registers or beside them. -/
structure KeepsTimers (s t : State) : Prop where
  timers : t.tmr.timers = s.tmr.timers
  rd : ∀ o, timerReg o → t.rd o = s.rd o

namespace KeepsTimers
variable {s t u : State}

theorem refl (s : State) : KeepsTimers s s := ⟨rfl, fun _ _ => rfl⟩

theorem trans (h : KeepsTimers s t) (h' : KeepsTimers t u) : KeepsTimers s u :=
  ⟨h'.timers.trans h.timers, fun o ho => (h'.rd o ho).trans (h.rd o ho)⟩

/-- What neither the registers nor the timers show is no concern of theirs. -/
theorem of_regs (hregs : t.regs = s.regs) (htimers : t.tmr.timers = s.tmr.timers) : KeepsTimers s t :=
  ⟨htimers, fun o _ => by rw [State.rd, hregs, State.rd]⟩

/-- After something that is no concern of the timers. -/
theorem after (h : KeepsTimers u t) (hregs : u.regs = s.regs) (htimers : u.tmr.timers = s.tmr.timers) : KeepsTimers s t :=
  (of_regs hregs htimers).trans h

theorem setFld (h : KeepsTimers s t) {f : Fld} (hf : ¬ timerReg f.off) (v : Nat) : KeepsTimers s (t.setFld f v) :=
  h.trans ⟨rfl, fun _ ho => State.rd_setFld_other _ _ _ _ fun e => hf (e ▸ ho)⟩

theorem event (h : KeepsTimers s t) {f : Fld} (hf : ¬ timerReg f.off) : KeepsTimers s (t.event f) :=
  h.trans ⟨rfl, fun _ ho => State.rd_event_other _ _ _ fun e => hf (e ▸ ho)⟩

theorem count (h : KeepsTimers s t) {f : Fld} (hf : ¬ timerReg f.off) (n : Nat) : KeepsTimers s (t.count f n) :=
  h.trans ⟨rfl, fun _ ho => State.rd_count_other _ _ _ _ fun e => hf (e ▸ ho)⟩

theorem ite {c : Prop} [Decidable c] (ht : KeepsTimers s t) (hu : KeepsTimers s u) : KeepsTimers s (if c then t else u) := by
  split
  · exact ht
  · exact hu

theorem foldl {α : Type} {l : List α} {f : State → α → State} (hf : ∀ t k, KeepsTimers t (f t k)) (s : State) :
    KeepsTimers s (l.foldl f s) :=
  List.foldlRecOn (motive := KeepsTimers s) _ _ (.refl s) fun t ht k _ => ht.trans (hf t k)

theorem timer (h : KeepsTimers s t) (n : Nat) : t.timer n = s.timer n := by rw [State.timer, h.timers, State.timer]

theorem fld (h : KeepsTimers s t) {f : Fld} (hf : timerReg f.off) : t.fld f = s.fld f := by rw [State.fld, h.rd _ hf, State.fld]

theorem flag (h : KeepsTimers s t) {f : Fld} (hf : timerReg f.off) : t.flag f = s.flag f := by rw [State.flag, h.fld hf, State.flag]

end KeepsTimers

/-! ### Event counters (R333 to R335) -/

theorem keepsTimers_evAdvance (s : State) (k : Nat) : KeepsTimers s (evAdvance s k) := by
  have hesel : ¬ timerReg (TMR_ESEL k) := by unfold timerReg TMR_ESEL; omega
  unfold evAdvance
  extract_lets c cyc tmr u
  have hcounted : KeepsTimers s u := .of_regs rfl rfl
  exact .ite ((hcounted.event (f := TMR_ESEL_OVF k) hesel).event (by decide)) hcounted

theorem keepsTimers_countSrc (s : State) (src : Nat) : KeepsTimers s (countSrc s src) := by
  unfold countSrc
  extract_lets cyc u
  have hseen : KeepsTimers s u := .of_regs rfl rfl
  exact .ite (.refl s) (hseen.trans (.foldl (fun t k => .ite (keepsTimers_evAdvance t k) (.refl t)) u))

/-! ### Occurrences of device sources (R383 to R387, R425) -/

theorem keepsTimers_testShared (s : State) (k sl : Nat) : KeepsTimers s (testShared s k sl) := .ite (.of_regs rfl rfl) (.refl s)

theorem keepsTimers_msixRequest (s : State) (v : Nat) : KeepsTimers s (msixRequest s v) := by
  have hpba : ¬ timerReg (IMG_MSIX_PBA (v / 32)) := by unfold timerReg TMR_ESEL IMG_MSIX_PBA; omega
  exact .ite (.refl s) (.ite ((KeepsTimers.refl s).setFld hpba _) (.ite (.of_regs rfl rfl) (.of_regs rfl rfl)))

theorem keepsTimers_edgeDev (before : Bool) (s : State) (n : Nat) : KeepsTimers s (edgeDev before s n) := by
  unfold edgeDev
  extract_lets now u
  have hreq : KeepsTimers s u := .ite (keepsTimers_msixRequest s _) (.refl s)
  split
  · exact hreq
  · exact .ite hreq (hreq.trans (keepsTimers_testShared _ _ _))

theorem keepsTimers_occurDev (s : State) (n : Nat) : KeepsTimers s (occurDev s n) := by
  unfold occurDev
  split
  · exact .refl s
  · exact .ite (.refl s) (.ite (keepsTimers_testShared _ _ _) ((keepsTimers_testShared _ _ _).after rfl rfl))

/-! ### Mordant (R421, R448 to R454) -/

theorem keepsTimers_putRecord (s : State) (rtype : Nat) (payload : List Nat) : KeepsTimers s (putRecord s rtype payload) := by
  unfold putRecord
  exact ((KeepsTimers.refl _).setFld (f := IMG_JSTAT_RSEQ) (by decide) _).after rfl rfl

theorem keepsTimers_faultRecord (s : State) : KeepsTimers s (faultRecord s) := by
  unfold faultRecord journalAppend
  refine .ite (.refl s) (.trans ?_ (keepsTimers_putRecord _ _ _))
  refine .ite (.foldl (fun t p => ?_) s) (.refl s)
  exact keepsTimers_putRecord t p.1 p.2

theorem keepsTimers_withBlanks {f : State → State} {s : State} (hf : KeepsTimers s (f s)) (ms : List Nat) :
    KeepsTimers s (withBlanks ms f s) := by
  obtain ⟨b, hb⟩ := withBlanks_eq_with_blank ms f s
  rw [hb]
  exact hf.trans (.of_regs rfl rfl)

theorem keepsTimers_safeEnter (s : State) (cause fbit : Nat) : KeepsTimers s (safeEnter s cause fbit) := by
  unfold safeEnter
  extract_lets t u v w x
  have hpend : KeepsTimers s t := (KeepsTimers.refl s).setFld (by decide) _
  have hset : KeepsTimers s u := keepsTimers_withBlanks ((KeepsTimers.refl s).setFld (by decide) _) _
  have hshown : KeepsTimers s x := ((hset.setFld (by decide) _).setFld (by decide) _).setFld (by decide) _
  clear_value x
  exact .ite (.ite (hpend.setFld (by decide) _) hpend) (hshown.trans ((keepsTimers_faultRecord _).after rfl rfl))

theorem keepsTimers_firstSource (s : State) (b : Nat) : KeepsTimers s (firstSource s b) := by
  unfold firstSource
  extract_lets t u v w x y
  have hovf : KeepsTimers s t := (KeepsTimers.refl s).setFld (by decide) _
  have hshown : KeepsTimers s y :=
    (((((KeepsTimers.refl s).setFld (by decide) _).setFld (by decide) _).setFld (by decide) _).setFld (by decide) _).setFld
      (by decide) _
  clear_value y
  exact .ite (.ite (hovf.setFld (by decide) _) hovf) (hshown.trans ((keepsTimers_faultRecord _).after rfl rfl))

theorem keepsTimers_latchLine (s : State) (b : Nat) : KeepsTimers s (latchLine s b) := by
  unfold latchLine
  extract_lets cyc t newly u v
  have hline : KeepsTimers s t := .of_regs rfl rfl
  have hlevel : KeepsTimers t (withDev (256 + b)
      (fun s => { s with flt := { s.flt with status := s.flt.status ||| BitVec.twoPow 64 b } }) t) :=
    (keepsTimers_edgeDev _ _ _).after rfl rfl
  have hset : KeepsTimers s u := (hline.trans hlevel).trans (keepsTimers_occurDev _ _)
  have hfirst : KeepsTimers s v := .ite (hset.trans (keepsTimers_firstSource u b)) hset
  exact .ite (.refl s) (.ite (hfirst.trans (keepsTimers_safeEnter v 1 b)) hfirst)

theorem keepsTimers_tgtUse (s : State) (n : Nat) : KeepsTimers s (tgtUse s n) := by
  unfold tgtUse
  extract_lets met
  have hmet (t : State) (k : Nat) : KeepsTimers t (met t k) :=
    .ite ((((KeepsTimers.refl t).count (by decide) 1).trans (keepsTimers_countSrc _ _)).event (by decide)) (.refl t)
  exact .ite (.trans (.ite (hmet s n) ((hmet s n).trans (hmet _ 275))) (keepsTimers_latchLine _ _)) (.refl s)

/-! ### Events of a timer (R332, R383) -/

/-- After its status bit is set, an event of a timer is a report. -/
theorem keepsTimers_tmrEvent (s : State) (n : Nat) (f : Fld) (ien : Nat) : KeepsTimers (s.event f) (tmrEvent s n f ien) := by
  have hlevel : KeepsTimers (s.event f) (withDev n (fun s => s.event f) s) := keepsTimers_edgeDev _ _ _
  exact .ite (hlevel.trans ((keepsTimers_tgtUse _ n).trans (keepsTimers_occurDev _ n))) hlevel

end Sys2Proof.Machine
end

section
/-! SUPPORT. Timers: their counts, writes of count and compare value (O40). -/
namespace Sys2Proof.Machine
open Reg

/-! ### Counts, 32 or 64 bits wide (R328) -/

/-- A value of a timer is its register's, and that of the register after it. -/
theorem tval_congr {s t : State} {reg : Nat → Nat} {n : Nat} (hlink : t.linked n = s.linked n) (hlo : t.rd (reg n) = s.rd (reg n))
    (hhi : t.rd (reg (n + 1)) = s.rd (reg (n + 1))) : t.tval reg n = s.tval reg n := by
  rw [State.tval, hlink, hlo, hhi, State.tval]

theorem linked_congr {s t : State} {n : Nat} (h : t.rd (TMR_CTL (n / 2 * 2)) = s.rd (TMR_CTL (n / 2 * 2))) : t.linked n = s.linked n :=
  congrArg (fun w => decide (wField w 30 30 ≠ 0)) h

/-- Where nothing but `offs` has changed, with no TMR_CTL among them, a value that is not there is the same. -/
theorem tval_of_regsBut {s t : State} {offs : List Nat} {reg : Nat → Nat} (h : RegsBut offs s t) (hctl : ∀ k, TMR_CTL k ∉ offs)
    (hreg : ∀ k, reg k ∉ offs) (n : Nat) : t.tval reg n = s.tval reg n :=
  tval_congr (linked_congr (h _ (hctl _))) (h _ (hreg _)) (h _ (hreg _))

/-- The registers of the count of timer `n`. -/
def State.countRegs (s : State) (n : Nat) : List Nat := TMR_CNT n :: if s.linked n then [TMR_CNT (n + 1)] else []

theorem not_mem_countRegs (s : State) (n : Nat) {o : Nat} (h : o % 0x20 ≠ 8) : o ∉ s.countRegs n := by
  have hne (k : Nat) : o ≠ TMR_CNT k := by unfold TMR_CNT; omega
  unfold State.countRegs
  split <;> simp [hne]

theorem onlyRegs_setTval (s : State) (n v : Nat) : OnlyRegs (s.countRegs n) s (s.setTval TMR_CNT n v) := by
  unfold State.setTval
  extract_lets t
  have hlo : OnlyRegs (s.countRegs n) s t := (OnlyRegs.refl _ s).wr (by simp [State.countRegs]) _
  split
  next hl => exact hlo.wr (by simp [State.countRegs, hl]) _
  next => exact hlo

/-- Beside the count no value of a timer changes. -/
theorem tval_setTval_other (s : State) (n v : Nat) {reg : Nat → Nat} (hreg : ∀ k, reg k % 0x20 ≠ 8) (k : Nat) :
    (s.setTval TMR_CNT n v).tval reg k = s.tval reg k :=
  tval_of_regsBut (onlyRegs_setTval s n v).2 (fun _ => not_mem_countRegs s n (by unfold TMR_CTL; omega))
    (fun _ => not_mem_countRegs s n (hreg _)) k

theorem tval_setTval_same {s : State} {n v : Nat} (hv : v < 2 ^ s.tbits n) : (s.setTval TMR_CNT n v).tval TMR_CNT n = v := by
  have hlink : (s.setTval TMR_CNT n v).linked n = s.linked n :=
    linked_congr ((onlyRegs_setTval s n v).2 _ (not_mem_countRegs s n (by unfold TMR_CTL; omega)))
  rw [State.tval, hlink]
  unfold State.tbits at hv
  unfold State.setTval
  cases hl : s.linked n with
  | false =>
    rw [hl, if_neg (by decide)] at hv
    rw [if_neg (by decide), if_neg (by decide), State.rd_wr_same, BitVec.toNat_ofNat, Nat.mod_eq_of_lt hv]
  | true =>
    rw [hl, if_pos rfl] at hv
    have hne : TMR_CNT n ≠ TMR_CNT (n + 1) := by unfold TMR_CNT; omega
    rw [if_pos rfl, if_pos rfl, State.rd_wr_other _ _ _ _ hne, State.rd_wr_same, State.rd_wr_same, BitVec.toNat_ofNat,
      BitVec.toNat_ofNat]
    omega

/-- Status is no part of a value. -/
theorem tval_of_stat {s t : State} {k : Nat} (h : OnlyRegs [TMR_STAT k] s t) {reg : Nat → Nat} (hreg : ∀ j, reg j % 0x20 ≠ 0x14)
    (n : Nat) : t.tval reg n = s.tval reg n := by
  have hmod : TMR_STAT k % 0x20 = 0x14 := by unfold TMR_STAT; omega
  refine tval_of_regsBut h.2 (fun j => ?_) (fun j => ?_) n
  · rw [List.mem_singleton]
    unfold TMR_CTL
    omega
  · rw [List.mem_singleton]
    exact fun e => hreg j (e ▸ hmod)

/-! ### Writes of a count or a compare value (R324) -/

/-- A match that is re-armed in `u` fires when the count has reached the compare value. -/
theorem tmrTest_armed (u : State) (k : Nat) : tmrTest (u.setFld (TMR_STAT_ARMED k) 1) k =
    if u.tval TMR_CMP k ≤ u.tval TMR_CNT k then tmrMatch (u.setFld (TMR_STAT_ARMED k) 1) k
    else u.setFld (TMR_STAT_ARMED k) 1 := by
  have harmed : (u.setFld (TMR_STAT_ARMED k) 1).flag (TMR_STAT_ARMED k) = true := by
    rw [State.flag, fld_setFld_self _ _ (by simp) (by simp)]
    rfl
  have hstat : OnlyRegs [TMR_STAT k] u (u.setFld (TMR_STAT_ARMED k) 1) := (OnlyRegs.refl _ u).setFld (by simp) 1
  have hcmp := tval_of_stat hstat (reg := TMR_CMP) (by simp) k
  have hcnt := tval_of_stat hstat (reg := TMR_CNT) (by simp) k
  simp [tmrTest, State.tmrHit, harmed, hcmp, hcnt]

theorem tmrWriteVal_unlinked {s : State} {n : Nat} (hl : s.linked n = false) (isCnt : Bool) (v : Word) :
    tmrWriteVal s isCnt n v =
      tmrTest ((s.wr ((if isCnt then TMR_CNT else TMR_CMP) n) v).setFld (TMR_STAT_ARMED n) 1) n :=
  if_neg (by simp [hl])

/-- The high half of a pair completes a compare value whose low half is held. -/
theorem tmrWriteVal_highCompare {s : State} {m : Nat} {v w : Word} (hl : s.linked (m + 1) = true) (hm : m % 2 = 0)
    (hheld : (s.timer m).heldCmp = some w) : tmrWriteVal s false (m + 1) v =
      tmrTest ((((s.wr (TMR_CMP m) w).setTimer m { s.timer m with heldCmp := none }).wr (TMR_CMP (m + 1)) v).setFld
        (TMR_STAT_ARMED m) 1) m := by
  have hodd : ¬ (m + 1) % 2 = 0 := by omega
  unfold tmrWriteVal
  dsimp only
  rw [if_pos hl, if_neg hodd, Nat.add_sub_cancel, hheld]
  rfl

/-- And a count whose low half is held. -/
theorem tmrWriteVal_highCount {s : State} {m : Nat} {v w : Word} (hl : s.linked (m + 1) = true) (hm : m % 2 = 0)
    (hheld : (s.timer m).heldCnt = some w) : tmrWriteVal s true (m + 1) v =
      tmrTest ((((s.wr (TMR_CNT m) w).setTimer m { s.timer m with heldCnt := none }).wr (TMR_CNT (m + 1)) v).setFld
        (TMR_STAT_ARMED m) 1) m := by
  have hodd : ¬ (m + 1) % 2 = 0 := by omega
  unfold tmrWriteVal
  dsimp only
  rw [if_pos hl, if_neg hodd, Nat.add_sub_cancel, hheld]
  rfl

/-- Settles O40: compare values and counts, of a timer alone and of a linked pair. -/
theorem compareRearms : Obligations.CompareRearms := by
  intro who n v s rearmed tested
  refine ⟨fun hl => ⟨fun hs => ?_, fun hs => ?_⟩, fun m hl hn hm w => ⟨fun hs hheld => ?_, fun hs hheld => ?_⟩⟩
  · exact completesIn_served rfl rfl hs fun c =>
      congrArg State.written ((tmrWriteVal_unlinked (s := { s with cyc := c }) hl false v).trans (tmrTest_armed _ _))
  · exact completesIn_served rfl rfl hs fun c =>
      congrArg State.written ((tmrWriteVal_unlinked (s := { s with cyc := c }) hl true v).trans (tmrTest_armed _ _))
  · rw [hn] at hl
    refine completesIn_served rfl rfl hs fun c => congrArg State.written ?_
    rw [hn]
    exact (tmrWriteVal_highCompare (s := { s with cyc := c }) hl hm hheld).trans (tmrTest_armed _ _)
  · rw [hn] at hl
    refine completesIn_served rfl rfl hs fun c => congrArg State.written ?_
    rw [hn]
    exact (tmrWriteVal_highCount (s := { s with cyc := c }) hl hm hheld).trans (tmrTest_armed _ _)

end Sys2Proof.Machine
end

section
/-! SUPPORT. Timers: starts, ticks, captures, reads (O41). -/
namespace Sys2Proof.Machine
open Reg

/-! ### Starts (R321, R322) -/

theorem timer_setFld (s : State) (f : Fld) (v n : Nat) : (s.setFld f v).timer n = s.timer n := rfl

theorem tmrStart_running {s : State} {n : Nat} (h : s.flag (TMR_CTL_RUN n) = true) : tmrStart s n = s := if_pos h

/-- A timer that does not run begins with an empty accumulator. -/
theorem tmrStart_stopped {s : State} {n : Nat} (h : s.flag (TMR_CTL_RUN n) = false) :
    let t := tmrStart s n
    t.flag (TMR_CTL_RUN n) = true ∧ t.timer n = { s.timer n with acc := 0 } ∧
      OnlyRegs [TMR_CTL n] { s with tmr := { s.tmr with timers := t.tmr.timers } } t := by
  have hstart : tmrStart s n = (s.setTimer n { s.timer n with acc := 0 }).setFld (TMR_CTL_RUN n) 1 := if_neg (by simp [h])
  rw [hstart]
  refine ⟨?_, ?_, ?_⟩
  · rw [State.flag, fld_setFld_self _ _ (by simp) (by simp)]
    rfl
  · rw [timer_setFld, State.timer_setTimer_same]
  · exact (OnlyRegs.refl _ (s.setTimer n _)).setFld (by simp) 1

/-! ### The prescaler (R320, R321) -/

/-- An edge of the source of timer `n` reaches its prescaler: it is powered and runs, it is not the odd one of a pair, and it takes the
edge. -/
structure TakesEdge (s : State) (n : Nat) (rise : Bool) : Prop where
  up : s.up 90 = true
  even : s.linked n = true → n % 2 = 0
  run : s.flag (TMR_CTL_RUN n) = true
  fed : s.tmrFed n rise = true

/-- No event of a timer. -/
def noEvents : TickEvents := { matched := false, overflow := false }

/-- Nothing follows where there is no event. -/
theorem tmrFollow_noEvents (s : State) (n : Nat) : tmrFollow s [(n, noEvents)] = s := rfl

/-- Timer `n` with `a` in its accumulator. -/
def accumulated (s : State) (n a : Nat) : State := s.setTimer n { s.timer n with acc := a }

theorem tmrEdge_takes {s : State} {n : Nat} {rise : Bool} (h : TakesEdge s n rise) :
    tmrEdge s n rise none =
      let p := if s.tmrP n ≤ (s.timer n).acc + 256 then tmrTick (accumulated s n ((s.timer n).acc + 256 - s.tmrP n)) n
        else (accumulated s n ((s.timer n).acc + 256), noEvents)
      tmrFollow p.1 [(n, p.2)] := by
  obtain ⟨hup, heven, hrun, hfed⟩ := h
  have hpair : (s.linked n && decide (n % 2 = 1)) = false := by
    rw [Bool.and_eq_false_imp]
    intro hl
    simp [heven hl]
  have hprescale : tmrPrescale s n rise = _ := if_neg (by simp [hup, hpair, hrun, hfed])
  unfold tmrEdge
  rw [hprescale]
  rfl

/-- Below the factor the accumulator takes the edge. -/
theorem tmrEdge_accumulates {s : State} {n : Nat} {rise : Bool} (h : TakesEdge s n rise) (hbelow : (s.timer n).acc + 256 < s.tmrP n) :
    tmrEdge s n rise none = accumulated s n ((s.timer n).acc + 256) := by
  rw [tmrEdge_takes h, if_neg (Nat.not_le_of_lt hbelow)]
  exact tmrFollow_noEvents _ n

/-! ### Ticks (R323) -/

/-- A tick before the period's end and the greatest count, of a timer whose match does not fire, counts. -/
theorem tmrTick_counts {s : State} {n : Nat} (hper : s.tval TMR_PER n = 0 ∨ s.tval TMR_CNT n + 1 < s.tval TMR_PER n)
    (hmax : s.tval TMR_CNT n + 1 < 2 ^ s.tbits n)
    (hmatch : s.flag (TMR_STAT_ARMED n) = false ∨ s.tval TMR_CNT n + 1 < s.tval TMR_CMP n) :
    tmrTick s n = (s.setTval TMR_CNT n (s.tval TMR_CNT n + 1), noEvents) := by
  have hreload : ¬ (s.tval TMR_PER n ≠ 0 ∧ s.tval TMR_PER n - 1 ≤ s.tval TMR_CNT n) := by omega
  have hcarry : ¬ s.tval TMR_CNT n + 1 = 2 ^ s.tbits n := Nat.ne_of_lt hmax
  have hhit : (s.setTval TMR_CNT n (s.tval TMR_CNT n + 1)).tmrHit n = false := by
    rw [State.tmrHit, (onlyRegs_setTval s n _).flag (not_mem_countRegs s n (by simp)),
      tval_setTval_other s n _ (by simp), tval_setTval_same hmax]
    rcases hmatch with hdisarmed | hbelow
    · simp [hdisarmed]
    · simp [hbelow]
  unfold tmrTick
  simp only [decide_eq_false hreload, decide_eq_false hcarry, hhit, noEvents, Bool.false_eq_true, if_false, Bool.not_false,
    Bool.true_and]

/-- The state after an edge with which the factor is reached, and a count. -/
def counted (s : State) (n : Nat) : State :=
  (accumulated s n ((s.timer n).acc + 256 - s.tmrP n)).setTval TMR_CNT n (s.tval TMR_CNT n + 1)

theorem tmrEdge_counts {s : State} {n : Nat} {rise : Bool} (h : TakesEdge s n rise) (hreach : s.tmrP n ≤ (s.timer n).acc + 256)
    (hper : s.tval TMR_PER n = 0 ∨ s.tval TMR_CNT n + 1 < s.tval TMR_PER n) (hmax : s.tval TMR_CNT n + 1 < 2 ^ s.tbits n)
    (hmatch : s.flag (TMR_STAT_ARMED n) = false ∨ s.tval TMR_CNT n + 1 < s.tval TMR_CMP n) :
    tmrEdge s n rise none = counted s n := by
  rw [tmrEdge_takes h, if_pos hreach, tmrTick_counts (s := accumulated s n _) hper hmax hmatch]
  exact tmrFollow_noEvents _ n

theorem timer_setTval (s : State) (n v k : Nat) : (s.setTval TMR_CNT n v).timer k = s.timer k := by
  rw [(onlyRegs_setTval s n v).1]
  rfl

theorem counted_shows (s : State) (n : Nat) (hmax : s.tval TMR_CNT n + 1 < 2 ^ s.tbits n) :
    let t := counted s n
    t.tval TMR_CNT n = s.tval TMR_CNT n + 1 ∧ (t.timer n).acc = (s.timer n).acc + 256 - s.tmrP n ∧
      OnlyRegs (s.countRegs n) { s with tmr := { s.tmr with timers := t.tmr.timers } } t := by
  have hregs := onlyRegs_setTval (accumulated s n ((s.timer n).acc + 256 - s.tmrP n)) n (s.tval TMR_CNT n + 1)
  refine ⟨tval_setTval_same (s := accumulated s n _) hmax, ?_, ?_⟩
  · rw [counted, timer_setTval]
    exact congrArg TimerX.acc (State.timer_setTimer_same s n _)
  · rw [show (counted s n).tmr.timers = (accumulated s n _).tmr.timers from congrArg (·.tmr.timers) hregs.1]
    exact hregs

/-- The state after a tick at the period's end, before its match is tested. -/
def reloaded (s : State) (n : Nat) : State := countSrc (tmrEvent (tmrZero s n) n (TMR_STAT_PERIOD n) 1) (0x280 + n)

/-- It begins again at 0, with the period event; what is reported of it leaves the timer. -/
theorem reloaded_shows {s : State} {n : Nat} (hn : n < 128) :
    let t := reloaded s n
    t.tval TMR_CNT n = 0 ∧ t.tval TMR_CMP n = s.tval TMR_CMP n ∧ t.flag (TMR_STAT_ARMED n) = true ∧
      t.flag (TMR_STAT_PERIOD n) = true ∧ t.flag (TMR_CTL_RUN n) = s.flag (TMR_CTL_RUN n) := by
  have hkeep : KeepsTimers ((tmrZero s n).event (TMR_STAT_PERIOD n)) (reloaded s n) :=
    (keepsTimers_tmrEvent _ _ _ _).trans (keepsTimers_countSrc _ _)
  have hset : OnlyRegs [TMR_STAT n] (s.setTval TMR_CNT n 0) ((tmrZero s n).event (TMR_STAT_PERIOD n)) :=
    ((OnlyRegs.refl _ _).setFld (f := TMR_STAT_ARMED n) (by simp) 1).event (by simp)
  have hval (reg : Nat → Nat) (hin : ∀ k, k ≤ 128 → timerReg (reg k)) (hreg : ∀ k, reg k % 0x20 ≠ 0x14) :
      (reloaded s n).tval reg n = (s.setTval TMR_CNT n 0).tval reg n := by
    have hctl : timerReg (TMR_CTL (n / 2 * 2)) := timerReg_indexed (by decide) (by decide) (by omega)
    rw [tval_congr (linked_congr (hkeep.rd _ hctl)) (hkeep.rd _ (hin _ (by omega))) (hkeep.rd _ (hin _ (by omega))),
      tval_of_stat hset hreg]
  have hstat : timerReg (TMR_STAT n) := timerReg_indexed (by decide) (by decide) (by omega)
  refine ⟨?_, ?_, ?_, ?_, ?_⟩
  · rw [hval TMR_CNT (fun k hk => timerReg_indexed (by decide) (by decide) hk) (by simp)]
    exact tval_setTval_same (Nat.two_pow_pos _)
  · rw [hval TMR_CMP (fun k hk => timerReg_indexed (by decide) (by decide) hk) (by simp)]
    exact tval_setTval_other s n 0 (by simp) n
  · rw [hkeep.flag (f := TMR_STAT_ARMED n) hstat, State.flag,
      fld_event_disjoint _ (by simp) (by simp) (by simp) (by simp) (by simp), tmrZero, fld_setFld_self _ _ (by simp) (by simp)]
    rfl
  · rw [hkeep.flag (f := TMR_STAT_PERIOD n) hstat, flag_event_same _ (by simp) (by simp)]
  · have hctl : timerReg (TMR_CTL n) := timerReg_indexed (by decide) (by decide) (by omega)
    rw [hkeep.flag (f := TMR_CTL_RUN n) hctl, hset.flag (f := TMR_CTL_RUN n) (by simp),
      (onlyRegs_setTval s n 0).flag (f := TMR_CTL_RUN n) (not_mem_countRegs s n (by simp))]

/-- At the period's end a timer begins again; its match does not fire at 0 where the compare value is greater. -/
theorem tmrTick_reloads {s : State} {n : Nat} (hn : n < 128) (hper : s.tval TMR_PER n ≠ 0)
    (hend : s.tval TMR_PER n ≤ s.tval TMR_CNT n + 1) (hcmp : s.tval TMR_CMP n ≠ 0) : tmrTick s n = (reloaded s n, noEvents) := by
  have hreload : s.tval TMR_PER n ≠ 0 ∧ s.tval TMR_PER n - 1 ≤ s.tval TMR_CNT n := by omega
  have hhit : (reloaded s n).tmrHit n = false := by
    obtain ⟨hcnt, hcmp', -⟩ := reloaded_shows (s := s) hn
    simp [State.tmrHit, hcnt, hcmp', hcmp]
  unfold tmrTick
  simp only [decide_eq_true hreload, if_true, Bool.not_true, Bool.false_and]
  rw [← reloaded, hhit, if_neg (by decide), noEvents]

theorem tmrEdge_reloads {s : State} {n : Nat} {rise : Bool} (hn : n < 128) (h : TakesEdge s n rise)
    (hreach : s.tmrP n ≤ (s.timer n).acc + 256) (hper : s.tval TMR_PER n ≠ 0) (hend : s.tval TMR_PER n ≤ s.tval TMR_CNT n + 1)
    (hcmp : s.tval TMR_CMP n ≠ 0) :
    tmrEdge s n rise none = reloaded (accumulated s n ((s.timer n).acc + 256 - s.tmrP n)) n := by
  rw [tmrEdge_takes h, if_pos hreach, tmrTick_reloads (s := accumulated s n _) hn hper hend hcmp]
  exact tmrFollow_noEvents _ n

/-! ### Captures (R330) -/

/-- A capture is at the slot clock where CSEL is 2 and the slot clock runs. -/
theorem tmrTrigger_slotClock {s : State} {n : Nat} (rise : Bool) (hup : s.up 90 = true) (hl : s.linked n = false)
    (hsel : s.fld (TMR_CTL_CSEL n) = 2) (hclock : s.fld TB_STAT_STATE ≠ 0) :
    tmrTrigger s n rise = tmrStore s n (s.rd (TMR_CNT n)) 0 := by
  simp [tmrTrigger, hup, hl, hsel, hclock, tmrCapture]

/-- The queue of timer `n` takes a capture. -/
def captureQueued (s : State) (n : Nat) (w : Word) : State :=
  (s.setTimer n { s.timer n with caps := (s.timer n).caps ++ [w] }).setFld (TMR_STAT_NUM n) ((s.timer n).caps.length + 1)

theorem tmrStore_room {s : State} {n : Nat} (lo hi : Word) (hl : s.linked n = false) (h : (s.timer n).caps.length < 4) :
    tmrStore s n lo hi = tmrEvent (captureQueued s n lo) n (TMR_STAT_CAP n) 3 := by
  have hl' (x : TimerX) : ¬ (s.setTimer n x).linked n = true := by
    rw [show (s.setTimer n x).linked n = s.linked n from rfl, hl]
    decide
  unfold tmrStore captureQueued
  dsimp only
  rw [if_pos h, if_neg (hl' _)]

theorem tmrStore_room_shows {s : State} {n : Nat} (hn : n < 128) (lo hi : Word) (hl : s.linked n = false)
    (h : (s.timer n).caps.length < 4) :
    let t := tmrStore s n lo hi
    (t.timer n).caps = (s.timer n).caps ++ [lo] ∧ t.fld (TMR_STAT_NUM n) = (s.timer n).caps.length + 1 ∧
      t.flag (TMR_STAT_CAP n) = true ∧ t.rd (TMR_CNT n) = s.rd (TMR_CNT n) := by
  have hkeep := keepsTimers_tmrEvent (captureQueued s n lo) n (TMR_STAT_CAP n) 3
  have hstat : timerReg (TMR_STAT n) := timerReg_indexed (by decide) (by decide) (by omega)
  rw [tmrStore_room lo hi hl h]
  refine ⟨?_, ?_, ?_, ?_⟩
  · rw [hkeep.timer]
    exact congrArg TimerX.caps (State.timer_setTimer_same s n _)
  · rw [hkeep.fld (f := TMR_STAT_NUM n) hstat, fld_event_disjoint _ (by simp) (by simp) (by simp) (by simp) (by simp), captureQueued,
      fld_setFld_self _ _ (by simp) (by simp)]
    exact Nat.mod_eq_of_lt (Nat.lt_of_le_of_lt h (show 4 < 2 ^ 3 by decide))
  · rw [hkeep.flag (f := TMR_STAT_CAP n) hstat, flag_event_same _ (by simp) (by simp)]
  · rw [hkeep.rd _ (timerReg_indexed (by decide) (by decide) (by omega)), State.rd_event_other _ _ _ (by simp), captureQueued,
      State.rd_setFld_other _ _ _ _ (by simp), State.setTimer_rd]

/-- A full queue drops the capture: CAPOVF is set, the cycle remembers what was dropped. -/
theorem tmrStore_full_shows {s : State} {n : Nat} (lo hi : Word) (h : 4 ≤ (s.timer n).caps.length) :
    let t := tmrStore s n lo hi
    t.flag (TMR_STAT_CAPOVF n) = true ∧ t.timer n = s.timer n ∧ OnlyRegs [TMR_STAT n] s t := by
  have hstore : ∃ c, tmrStore s n lo hi = ({ s with cyc := c } : State).event (TMR_STAT_CAPOVF n) :=
    ⟨_, if_neg (Nat.not_lt_of_le h)⟩
  obtain ⟨c, hc⟩ := hstore
  rw [hc]
  have hcyc : OnlyRegs [TMR_STAT n] s { s with cyc := c } := ⟨rfl, fun _ _ => rfl⟩
  exact ⟨flag_event_same _ (by simp) (by simp), rfl, hcyc.event (by simp)⟩

/-! ### Reads (R329, R330) -/

theorem tmrReadCnt_unlinked {s : State} {n : Nat} (hl : s.linked n = false) : tmrReadCnt s n = (s.rd (TMR_CNT n), s) :=
  if_neg (by simp [hl])

/-- The low half of a pair latches the high half. -/
theorem tmrReadCnt_low {s : State} {n : Nat} (hl : s.linked n = true) (heven : n % 2 = 0) :
    tmrReadCnt s n = (s.rd (TMR_CNT n), s.setTimer n { s.timer n with cntHi := s.rd (TMR_CNT (n + 1)) }) :=
  (if_pos hl).trans (if_pos heven)

theorem tmrReadCap_oldest {s : State} {n : Nat} {w : Word} {r : List Word} (hl : s.linked n = false)
    (hcaps : (s.timer n).caps = w :: r) (hdrops : s.cyc.capDrops = []) : tmrReadCap s n = (w, tmrPop s n) := by
  simp [tmrReadCap, hl, hcaps, hdrops]

theorem tmrPop_shows {s : State} {n : Nat} {w : Word} {r : List Word} (hcaps : (s.timer n).caps = w :: r) :
    let t := tmrPop s n
    (t.timer n).caps = r ∧ t.fld (TMR_STAT_NUM n) = r.length % 8 ∧
      OnlyRegs [TMR_STAT n] { s with tmr := { s.tmr with timers := t.tmr.timers } } t := by
  unfold tmrPop
  extract_lets x
  refine ⟨?_, ?_, (OnlyRegs.refl _ (s.setTimer n _)).setFld (by simp) _⟩
  · refine (congrArg TimerX.caps (State.timer_setTimer_same s n _)).trans ?_
    exact congrArg (List.drop 1) hcaps
  · rw [fld_setFld_self _ _ (by simp) (by simp)]
    exact congrArg (fun l => (l.length - 1) % 8) hcaps

/-! ### The commands of O41 -/

/-- CAPTURE_READ of a timer that holds captures, in a cycle that has dropped none (R330). -/
theorem captureRead_oldest {who : Requester} {n : Fin 128} {s : State} {w : Word} {r : List Word} (hl : s.linked n = false)
    (hs : ServedRead s who (TMR_CAP n)) (hcaps : (s.timer n).caps = w :: r) (hdrops : (s.accessCycle who).cyc.capDrops = []) :
    CompletesIn (.captureRead who n) s fun s t =>
      (t.timer n).caps = r ∧ t.fld (TMR_STAT_NUM n) = r.length % 8 ∧
        OnlyRegs [TMR_STAT n] (State.returned { s with tmr := { s.tmr with timers := t.tmr.timers } } w) t := by
  have hl' : (s.accessCycle who).linked n = false := (accessCycle_congr (·.linked n) (fun _ _ => rfl) s who).trans hl
  have hcaps' : ((s.accessCycle who).timer n).caps = w :: r :=
    (accessCycle_congr (fun u => (u.timer n).caps) (fun _ _ => rfl) s who).trans hcaps
  obtain ⟨hleft, hnum, hregs⟩ := tmrPop_shows hcaps'
  refine ⟨_, congrArg Host.Outcome.next (readAct_served (hs.accessCycle who)), ?_⟩
  rw [tmrReadCap_oldest hl' hcaps' hdrops]
  exact ⟨hleft, hnum, hregs.answer _ _ _⟩

/-- Settles O41: starts and ticks, reads of counts and captures, captures. -/
theorem timers : Obligations.Timers := by
  refine ⟨⟨fun who n s hs => ⟨fun hrun => ?_, fun hrun => ?_⟩, fun n rise s hup heven hrun hfed => ?_⟩,
    fun who n s hl => ⟨fun hs => ?_, fun w r hs hcaps hdrops => captureRead_oldest hl hs hcaps hdrops⟩,
    fun who n s hl heven hs => ?_, fun n rise s hup hl hsel hclock => ⟨fun hroom => ⟨_, rfl, ?_⟩, fun hfull => ⟨_, rfl, ?_⟩⟩⟩
  · exact completesIn_served rfl rfl hs fun c => congrArg State.written (tmrStart_running (s := { s with cyc := c }) hrun)
  · refine completesIn_served rfl rfl hs fun c => ?_
    obtain ⟨hruns, htimer, hregs⟩ := tmrStart_stopped (s := { s with cyc := c }) hrun
    exact ⟨hruns, htimer, hregs.answer _ _ _⟩
  · have htakes : TakesEdge s.eventCycle n rise := ⟨hup, heven, hrun, hfed⟩
    refine ⟨fun hbelow => ⟨_, rfl, ?_⟩, fun hreach hper hmax hmatch => ⟨_, rfl, ?_⟩, fun hreach hper hend hcmp => ⟨_, rfl, ?_⟩⟩
    · rw [tmrEdge_accumulates htakes hbelow]
      exact ⟨congrArg TimerX.acc (State.timer_setTimer_same s.eventCycle n _), rfl⟩
    · rw [tmrEdge_counts htakes hreach hper hmax hmatch]
      exact counted_shows s.eventCycle n hmax
    · rw [tmrEdge_reloads n.isLt htakes hreach hper hend hcmp]
      obtain ⟨hcnt, -, harmed, hperiod, hrun'⟩ := reloaded_shows (s := accumulated s.eventCycle n _) n.isLt
      exact ⟨hcnt, harmed, hperiod, hrun'.trans hrun⟩
  · refine completesIn_servedRead rfl rfl hs fun c => ?_
    rw [tmrReadCnt_unlinked (s := { s with cyc := c }) hl]
  · refine completesIn_servedRead rfl rfl hs fun c => ?_
    rw [tmrReadCnt_low (s := { s with cyc := c }) hl heven]
    exact ⟨congrArg TimerX.cntHi (State.timer_setTimer_same { s with cyc := c } n _), rfl⟩
  · rw [tmrTrigger_slotClock (s := s.eventCycle) rise hup hl hsel hclock]
    exact tmrStore_room_shows (s := s.eventCycle) n.isLt _ 0 hl hroom
  · rw [tmrTrigger_slotClock (s := s.eventCycle) rise hup hl hsel hclock]
    exact tmrStore_full_shows (s := s.eventCycle) _ 0 hfull

end Sys2Proof.Machine
end

section
/-! SUPPORT. The commands that wait and the sampled straps, and what follows a list of operations (O6, O7). -/
namespace Sys2Proof.Machine

/-- What no step but a power-on reset changes: the commands that wait and the sampled straps. -/
def State.kept (s : State) : List Instr × Nat × Nat × Nat :=
  (s.pending, s.rst.strapBoot, s.rst.strapClk, s.rst.strapMst)

@[simp] theorem kept_ite {c : Prop} [Decidable c] (s t : State) :
    (if c then s else t).kept = if c then s.kept else t.kept := apply_ite _ _ _ _

@[simp] theorem kept_foldl {α : Type} {l : List α} {f : State → α → State} (h : ∀ t k, (f t k).kept = t.kept) (s : State) :
    (l.foldl f s).kept = s.kept := by
  induction l generalizing s with
  | nil => rfl
  | cons a l ih => exact (ih _).trans (h _ _)

theorem kept_foldl_fst {α β : Type} {l : List α} {f : State × β → α → State × β} (h : ∀ p k, (f p k).1.kept = p.1.kept) (p :
  State × β) :
    (l.foldl f p).1.kept = p.1.kept := by
  induction l generalizing p with
  | nil => rfl
  | cons a l ih => exact (ih _).trans (h _ _)

theorem kept_foldl_snd {α β : Type} {l : List α} {f : β × State → α → β × State} (h : ∀ p k, (f p k).2.kept = p.2.kept) (p : β ×
  State) :
    (l.foldl f p).2.kept = p.2.kept := by
  induction l generalizing p with
  | nil => rfl
  | cons a l ih => exact (ih _).trans (h _ _)

theorem kept_with (t : State) (cycle cyc regs staged ecc irqEcc freeCtr sram irq tmr pin img pcie flt tb flip rel lnk mdr ing
  cnd pf obj dec ro qm dma dram resp srv cvl vox sep) :
    (State.mk t.pending cycle cyc regs staged ecc irqEcc freeCtr sram irq tmr pin img pcie t.rst flt tb flip rel lnk mdr ing cnd
      pf obj dec ro qm dma dram resp srv cvl vox sep).kept = t.kept := by rfl

theorem kept_withRst (t : State) (plan railFailed domainOp trimDone cycle cyc regs staged ecc irqEcc freeCtr sram irq tmr pin
  img pcie flt tb flip rel lnk mdr ing cnd pf obj dec ro qm dma dram resp srv cvl vox sep) :
    (State.mk t.pending cycle cyc regs staged ecc irqEcc freeCtr sram irq tmr pin img pcie ⟨t.rst.strapBoot, t.rst.strapClk,
      t.rst.strapMst, plan, railFailed, domainOp, trimDone⟩ flt tb flip rel lnk mdr ing cnd pf obj dec ro qm dma dram resp srv
      cvl vox sep).kept = t.kept := by rfl

end Sys2Proof.Machine
end

section
/-! SUPPORT. Registers, events, interrupts, faults, time base, flips, release, link and ingress keep the commands that wait and the straps (O6, O7). -/
namespace Sys2Proof.Machine

@[simp] theorem kept_wr (s : State) (off : Nat) (w : Word) : (State.wr s off w).kept = s.kept := by rfl

@[simp] theorem kept_wrStaged (s : State) (off : Nat) (w : Word) : (State.wrStaged s off w).kept = s.kept := by rfl

@[simp] theorem kept_setFld (s : State) (f : Fld) (v : Nat) : (State.setFld s f v).kept = s.kept := by rfl

@[simp] theorem kept_setFlag (s : State) (f : Fld) (b : Bool) : (State.setFlag s f b).kept = s.kept := by rfl

@[simp] theorem kept_noteEvent (s : State) (off : Nat) (e : RegEvent) : (State.noteEvent s off e).kept = s.kept := by rfl

@[simp] theorem kept_event (s : State) (f : Fld) : (State.event s f).kept = s.kept := by
  simp only [State.event, ↓kept_setFld, ↓kept_noteEvent]

@[simp] theorem kept_eventIf (s : State) (b : Bool) (f : Fld) : (State.eventIf s b f).kept = s.kept := by simp [State.eventIf]

@[simp] theorem kept_count (s : State) (f : Fld) (n : Nat) : (State.count s f n).kept = s.kept := by
  simp only [State.count, ↓kept_setFld, ↓kept_noteEvent]

@[simp] theorem kept_eventCycle (s : State) : (State.eventCycle s).kept = s.kept := by rfl

@[simp] theorem kept_accessCycle (s : State) (who : Requester) : (State.accessCycle s who).kept = s.kept := by
  simp only [State.accessCycle, ↓kept_with, kept_ite, ite_self]

@[simp] theorem kept_evAdvance (s : State) (k : Nat) : (evAdvance s k).kept = s.kept := by
  simp only [evAdvance, ↓kept_event, ↓kept_with, kept_ite, ite_self]

@[simp] theorem kept_countSrc (s : State) (src : Nat) : (countSrc s src).kept = s.kept := by
  simp only [countSrc, ↓kept_evAdvance, ↓kept_foldl, implies_true, ↓kept_with, kept_ite, ite_self]

@[simp] theorem kept_msixSend (s : State) (v : Nat) : (msixSend s v).kept = s.kept := by simp only [msixSend, ↓kept_with]

@[simp] theorem kept_setPba (s : State) (v : Nat) (b : Bool) : (State.setPba s v b).kept = s.kept := by rfl

@[simp] theorem kept_msixRequest (s : State) (v : Nat) : (msixRequest s v).kept = s.kept := by
  simp only [msixRequest, ↓kept_msixSend, ↓kept_setPba, ↓kept_with, kept_ite, ite_self]

@[simp] theorem kept_setPriv (s : State) (c i : Nat) (x : IrqSrc) : (State.setPriv s c i x).kept = s.kept := by rfl

@[simp] theorem kept_setShared (s : State) (k sl : Nat) (x : IrqSrc) : (State.setShared s k sl x).kept = s.kept := by rfl

@[simp] theorem kept_testPriv (s : State) (c i : Nat) : (testPriv s c i).kept = s.kept := by
  simp only [testPriv, ↓kept_setPriv, kept_ite, ite_self]

@[simp] theorem kept_testShared (s : State) (k sl : Nat) : (testShared s k sl).kept = s.kept := by
  simp only [testShared, ↓kept_setShared, kept_ite, ite_self]

@[simp] theorem kept_occurPriv (s : State) (c i : Nat) : (occurPriv s c i).kept = s.kept := by
  simp only [occurPriv, ↓kept_setPriv, ↓kept_testPriv, ↓kept_with, kept_ite, ite_self]

@[simp] theorem kept_occurDev (s : State) (n : Nat) : (occurDev s n).kept = s.kept := by
  unfold occurDev
  split <;> simp only [↓kept_setShared, ↓kept_testShared, ↓kept_with, kept_ite, ite_self]

@[simp] theorem kept_edgeDev (before : Bool) (s : State) (n : Nat) : (edgeDev before s n).kept = s.kept := by
  simp only [edgeDev]
  split <;> simp only [↓kept_msixRequest, ↓kept_testShared, kept_ite, ite_self]

@[simp] theorem kept_withDev {f : State → State} (hf : ∀ s, (f s).kept = s.kept) (n : Nat) (s : State) :
    (withDev n f s).kept = s.kept := (kept_edgeDev _ _ _).trans (hf s)

@[simp] theorem kept_putRecord (s : State) (rtype : Nat) (payload : List Nat) : (putRecord s rtype payload).kept = s.kept := by
  simp only [putRecord, ↓kept_setFld, ↓kept_with]

@[simp] theorem kept_journalAppend (s : State) (rtype : Nat) (payload : List Nat) : (journalAppend s rtype payload).kept =
  s.kept := by
  unfold journalAppend
  split
  · rfl
  · split <;> simp

@[simp] theorem kept_faultRecord (s : State) : (faultRecord s).kept = s.kept := by simp [faultRecord]

@[simp] theorem kept_setPwm (s : State) (m : Nat) (x : PwmX) : (State.setPwm s m x).kept = s.kept := by rfl

@[simp] theorem kept_openBlanks (s : State) (m : Nat) (rose : Bool) : (openBlanks s m rose).kept = s.kept := by
  simp only [openBlanks, ↓kept_foldl, implies_true, ↓kept_with, kept_ite, ite_self]

@[simp] theorem kept_withBlanks {f : State → State} (hf : ∀ s, (f s).kept = s.kept) (ms : List Nat) (s : State) :
    (withBlanks ms f s).kept = s.kept := by
  simp [withBlanks, hf]

@[simp] theorem kept_safeEnter (s : State) (cause fbit : Nat) : (safeEnter s cause fbit).kept = s.kept := by
  simp only [safeEnter, ↓kept_setFld, ↓kept_faultRecord, ↓kept_withBlanks, implies_true, ↓kept_with, kept_ite, ite_self]

@[simp] theorem kept_firstSource (s : State) (b : Nat) : (firstSource s b).kept = s.kept := by
  simp only [firstSource, ↓kept_setFld, ↓kept_faultRecord, ↓kept_with, kept_ite, ite_self]

@[simp] theorem kept_countUncorr (s : State) : (countUncorr s).kept = s.kept := by simp [countUncorr]

@[simp] theorem kept_uncorrected (s : State) (f : Fld) : (uncorrected s f).kept = s.kept := by simp [uncorrected]

@[simp] theorem kept_latchLine (s : State) (b : Nat) : (latchLine s b).kept = s.kept := by
  simp only [latchLine, ↓kept_occurDev, ↓kept_withDev, ↓kept_safeEnter, ↓kept_firstSource, implies_true, ↓kept_with, kept_ite,
      ite_self]

@[simp] theorem kept_tgtUse (s : State) (n : Nat) : (tgtUse s n).kept = s.kept := by
  simp only [tgtUse, ↓kept_event, ↓kept_uncorrected, ↓kept_latchLine, kept_ite, ite_self]

@[simp] theorem kept_raiseLine (s : State) (b : Nat) : (raiseLine s b).kept = s.kept := by simp [raiseLine]

@[simp] theorem kept_routeDev (s : State) (n : Nat) : (routeDev s n).kept = s.kept := by simp [routeDev]

@[simp] theorem kept_devEvent (s : State) (n : Nat) (f : Fld) : (devEvent s n f).kept = s.kept := by simp [devEvent]

@[simp] theorem kept_raiseIf (s : State) (c : Bool) (b : Nat) : (raiseIf s c b).kept = s.kept := by simp [raiseIf]

@[simp] theorem kept_relatch (s : State) : (relatch s).kept = s.kept := by simp [relatch]

@[simp] theorem kept_corrected (s : State) (f : Fld) (n : Nat) : (corrected s f n).kept = s.kept := by simp [corrected]

@[simp] theorem kept_fixWords (s : State) (fix : List (EccUnit × Nat)) : (fixWords s fix).kept = s.kept := by simp [fixWords]

@[simp] theorem kept_errorCompletion (s : State) : (errorCompletion s).kept = s.kept := by rfl

@[simp] theorem kept_fltClear (s : State) (hi : Bool) (m : Word) : (fltClear s hi m).kept = s.kept := by
  simp only [fltClear, ↓kept_withDev, ↓kept_foldl, implies_true, ↓kept_with, kept_ite, ite_self]

@[simp] theorem kept_fltReadLo (s : State) : (fltReadLo s).2.kept = s.kept := by rfl

@[simp] theorem kept_fltReadTime (s : State) : (fltReadTime s).2.kept = s.kept := by rfl

@[simp] theorem kept_firstClear (s : State) : (firstClear s).kept = s.kept := by
  simp only [firstClear, ↓kept_setFld, ↓kept_firstSource, ↓kept_foldl, implies_true, kept_ite, ite_self]

@[simp] theorem kept_selfFault (s : State) : (selfFault s).kept = s.kept := by
  simp only [selfFault, ↓kept_setFld, ↓kept_faultRecord, ↓kept_safeEnter, kept_ite, ite_self]

@[simp] theorem kept_safeEnterCmd (s : State) (code : Nat) (exitToo : Bool) : (safeEnterCmd s code exitToo).kept = s.kept := by
  simp only [safeEnterCmd, ↓kept_event, ↓kept_safeEnter, kept_ite, ite_self]

@[simp] theorem kept_safeExit (s : State) (first : Option Nat) : (safeExit s first).kept = s.kept := by
  simp only [safeExit, ↓kept_setFld, ↓kept_with]

@[simp] theorem kept_safeExitCmd (s : State) (code : Nat) : (safeExitCmd s code).kept = s.kept := by
  simp only [safeExitCmd, ↓kept_setFld, ↓kept_event, ↓kept_safeExit, kept_ite, ite_self]

@[simp] theorem kept_fltCtlWrite (s : State) (v : Word) : (fltCtlWrite s v).kept = s.kept := by
  simp only [fltCtlWrite, ↓kept_firstClear, ↓kept_safeEnterCmd, ↓kept_safeExitCmd, kept_ite, ite_self]

@[simp] theorem kept_supplyExcursion (s : State) (rail : Nat) : (supplyExcursion s rail).kept = s.kept := by
  simp only [supplyExcursion, ↓kept_raiseLine, ↓kept_with, kept_ite, ite_self]

@[simp] theorem kept_setTemp (s : State) (t : Int) : (setTemp s t).kept = s.kept := by
  simp only [setTemp, ↓kept_raiseIf, ↓kept_with]

@[simp] theorem kept_refclkDeviation (s : State) : (refclkDeviation s).kept = s.kept := by simp [refclkDeviation, ↓kept_with]

@[simp] theorem kept_wdStage (s : State) (stage : Nat) : (wdStage s stage).kept = s.kept := by simp [wdStage, ↓kept_with]

@[simp] theorem kept_wdCfgWrite (s : State) (v : Word) : (wdCfgWrite s v).kept = s.kept := by
  simp only [wdCfgWrite, ↓kept_setFld, ↓kept_wdStage, kept_ite, ite_self]

@[simp] theorem kept_setLane (s : State) (n : Nat) (x : LaneX) : (State.setLane s n x).kept = s.kept := by
  simp [State.setLane, ↓kept_with]

@[simp] theorem kept_lnkTo (s : State) (n st : Nat) : (lnkTo s n st).kept = s.kept := by simp [lnkTo]

@[simp] theorem kept_eyeOff (s : State) (n : Nat) : (eyeOff s n).kept = s.kept := by simp [eyeOff]

@[simp] theorem kept_laneLine (s : State) (n : Nat) : (laneLine s n).kept = s.kept := by simp [laneLine]

@[simp] theorem kept_laneBringUp (s : State) (n : Nat) : (laneBringUp s n).kept = s.kept := by
  simp only [laneBringUp, ↓kept_setFld, ↓kept_setLane, ↓kept_lnkTo, ↓kept_eyeOff, kept_ite, ite_self]

@[simp] theorem kept_pllLock (s : State) (n : Nat) : (pllLock s n).kept = s.kept := by
  simp only [pllLock, ↓kept_setLane, ↓kept_lnkTo, kept_ite, ite_self]

@[simp] theorem kept_pllTimeout (s : State) (n : Nat) : (pllTimeout s n).kept = s.kept := by simp [pllTimeout]

@[simp] theorem kept_calDone (s : State) (n : Nat) : (calDone s n).kept = s.kept := by
  simp only [calDone, ↓kept_setLane, ↓kept_lnkTo, kept_ite, ite_self]

@[simp] theorem kept_calFail (s : State) (n : Nat) : (calFail s n).kept = s.kept := by
  simp only [calFail, ↓kept_event, ↓kept_setLane, ↓kept_lnkTo, ↓kept_laneLine, kept_ite, ite_self]

@[simp] theorem kept_signalDetect (s : State) (n : Nat) : (signalDetect s n).kept = s.kept := by
  simp only [signalDetect, ↓kept_setFld, ↓kept_lnkTo, kept_ite, ite_self]

@[simp] theorem kept_lnkRate (s : State) (n r : Nat) : (lnkRate s n r).kept = s.kept := by
  simp only [lnkRate, ↓kept_setFld, ↓kept_setLane, ↓kept_lnkTo, ↓kept_eyeOff, kept_ite, ite_self]

@[simp] theorem kept_lnkLoss (s : State) (n : Nat) (f : Fld) (sig : Bool) : (lnkLoss s n f sig).kept = s.kept := by
  simp only [lnkLoss, ↓kept_setFld, ↓kept_event, ↓kept_lnkTo, ↓kept_eyeOff, ↓kept_laneLine, kept_ite, ite_self]

@[simp] theorem kept_laneToCal (s : State) (n : Nat) : (laneToCal s n).kept = s.kept := by
  simp only [laneToCal, ↓kept_setLane, ↓kept_lnkTo, ↓kept_eyeOff, kept_ite, ite_self]

@[simp] theorem kept_groupFault (s : State) (g : Nat) : (groupFault s g).kept = s.kept := by
  simp only [groupFault, ↓kept_event, ↓kept_raiseLine, ↓kept_laneToCal, ↓kept_foldl, implies_true, ↓kept_with]

@[simp] theorem kept_groupMeasure (s : State) (g : Nat) (ppm : Int) : (groupMeasure s g ppm).kept = s.kept := by
  simp [groupMeasure]

@[simp] theorem kept_groupRecover (s : State) (g : Nat) : (groupRecover s g).kept = s.kept := by
  simp only [groupRecover, ↓kept_laneBringUp, ↓kept_foldl, implies_true, ↓kept_with, kept_ite, ite_self]

@[simp] theorem kept_txMainWrite (s : State) (n : Nat) (v : Word) : (txMainWrite s n v).kept = s.kept := by
  simp only [txMainWrite, ↓kept_wr, ↓kept_event, ↓kept_raiseLine, ↓kept_setLane, kept_ite, ite_self]

@[simp] theorem kept_txPreWrite (s : State) (n : Nat) (v : Word) : (txPreWrite s n v).kept = s.kept := by simp [txPreWrite]

@[simp] theorem kept_tapApply (s : State) (n : Nat) : (tapApply s n).kept = s.kept := by
  unfold tapApply
  split <;> simp only [↓kept_setLane]

@[simp] theorem kept_rxeqWrite (s : State) (n : Nat) (v : Word) : (rxeqWrite s n v).kept = s.kept := by
  simp only [rxeqWrite, ↓kept_wr, ↓kept_setFld, kept_ite, ite_self]

@[simp] theorem kept_adapted (s : State) (n ctle vga : Nat) (dfe : List Nat) : (adapted s n ctle vga dfe).kept = s.kept := by
  simp only [adapted, ↓kept_wr, ↓kept_setFld, kept_ite, ite_self]

@[simp] theorem kept_signalGone (s : State) (n : Nat) : (signalGone s n).kept = s.kept := by simp [signalGone]

@[simp] theorem kept_adaptStep (s : State) (n ctle vga : Nat) (dfe : List Nat) : (adaptStep s n ctle vga dfe).kept = s.kept := by
  simp [adaptStep]

@[simp] theorem kept_readaptDone (s : State) (n ctle vga : Nat) (dfe : List Nat) : (readaptDone s n ctle vga dfe).kept = s.kept := by
  simp only [readaptDone, ↓kept_setFld, ↓kept_adapted, kept_ite, ite_self]

@[simp] theorem kept_lnkCtlWrite (s : State) (n : Nat) (v : Word) : (lnkCtlWrite s n v).kept = s.kept := by
  simp only [lnkCtlWrite, ↓kept_setFld, ↓kept_setFlag, kept_ite, ite_self]

@[simp] theorem kept_eyeUpdate (s : State) (n h w eye snr : Nat) : (eyeUpdate s n h w eye snr).kept = s.kept := by
  simp only [eyeUpdate, ↓kept_setFld, kept_ite, ite_self]

@[simp] theorem kept_testWrite (s : State) (n : Nat) (v : Word) : (testWrite s n v).kept = s.kept := by
  simp only [testWrite, ↓kept_wr, ↓kept_setFld, ↓kept_setLane, ↓kept_lnkTo, ↓kept_eyeOff, kept_ite, ite_self]

@[simp] theorem kept_checkerSync (s : State) (n : Nat) (sync : Bool) (errs : Nat) : (checkerSync s n sync errs).kept = s.kept := by
  simp only [checkerSync, ↓kept_setFlag, ↓kept_count, kept_ite, ite_self]

@[simp] theorem kept_dpWrite (s : State) (n : Nat) (v : Word) : (dpWrite s n v).kept = s.kept := by
  simp only [dpWrite, ↓kept_wr, ↓kept_setLane, kept_ite, ite_self]

@[simp] theorem kept_dpRelock (s : State) (n : Nat) : (dpRelock s n).kept = s.kept := by
  simp only [dpRelock, ↓kept_setFld, ↓kept_setLane, kept_ite, ite_self]

@[simp] theorem kept_laneReset (s : State) (n : Nat) : (laneReset s n).kept = s.kept := by
  simp only [laneReset, ↓kept_setFld, ↓kept_setLane]

@[simp] theorem kept_setMlane (s : State) (n : Nat) (x : MdrX) : (State.setMlane s n x).kept = s.kept := by
  simp [State.setMlane, ↓kept_with]

@[simp] theorem kept_mdrTo (s : State) (n st : Nat) : (mdrTo s n st).kept = s.kept := by simp [mdrTo]

@[simp] theorem kept_fresh (s : State) : (State.fresh s).2.kept = s.kept := by simp [State.fresh, ↓kept_with]

@[simp] theorem kept_sendNeg (s : State) (n : Nat) (ws : List Nat) : (sendNeg s n ws).kept = s.kept := by
  simp only [sendNeg, ↓kept_setMlane]

@[simp] theorem kept_anyQ (s : State) : (anyQ s).kept = s.kept := by simp [anyQ]

@[simp] theorem kept_beginHello (s : State) (n : Nat) : (beginHello s n).kept = s.kept := by
  simp only [beginHello, ↓kept_setFld, ↓kept_count, ↓kept_lnkRate, ↓kept_setMlane, ↓kept_mdrTo, ↓kept_anyQ, ↓kept_with,
      kept_ite, ite_self]

@[simp] theorem kept_quarantine (s : State) (n reason : Nat) : (quarantine s n reason).kept = s.kept := by
  simp only [quarantine, ↓kept_setFld, ↓kept_raiseLine, ↓kept_devEvent, ↓kept_setMlane, ↓kept_mdrTo, ↓kept_anyQ, kept_ite, ite_self]

@[simp] theorem kept_noteDown (s : State) (n : Nat) : (noteDown s n).kept = s.kept := by
  simp only [noteDown, ↓kept_devEvent, ↓kept_setMlane, ↓kept_quarantine, kept_ite, ite_self]

@[simp] theorem kept_linkDown (s : State) (n : Nat) : (linkDown s n).kept = s.kept := by
  simp only [linkDown, ↓kept_setFld, ↓kept_devEvent, ↓kept_setMlane, ↓kept_mdrTo, ↓kept_noteDown, kept_ite, ite_self]

@[simp] theorem kept_laneReady (s : State) (n : Nat) (ctle vga : Nat) (dfe : List Nat) : (laneReady s n ctle vga dfe).kept =
    s.kept := by
  simp only [laneReady, ↓kept_setLane, ↓kept_lnkTo, ↓kept_adapted, ↓kept_beginHello, kept_ite, ite_self]

@[simp] theorem kept_laneLoss (s : State) (n : Nat) (f : Fld) (sig : Bool) : (laneLoss s n f sig).kept = s.kept := by
  simp [laneLoss]

@[simp] theorem kept_clockFault (s : State) (g : Nat) : (clockFault s g).kept = s.kept := by simp [clockFault]

@[simp] theorem kept_testModeWrite (s : State) (n : Nat) (v : Word) : (testModeWrite s n v).kept = s.kept := by
  simp only [testModeWrite, ↓kept_testWrite, ↓kept_linkDown, kept_ite, ite_self]

@[simp] theorem kept_proofFail (s : State) (n : Nat) : (proofFail s n).kept = s.kept := by
  simp only [proofFail, ↓kept_count, ↓kept_devEvent, ↓kept_setMlane, ↓kept_beginHello, ↓kept_quarantine, kept_ite,
      ite_self]

@[simp] theorem kept_noCommon (s : State) (n : Nat) : (noCommon s n).kept = s.kept := by
  simp only [noCommon, ↓kept_devEvent, ↓kept_setMlane, ↓kept_mdrTo, ↓kept_sendNeg]

@[simp] theorem kept_enterProof (s : State) (n : Nat) : (enterProof s n).kept = s.kept := by
  simp only [enterProof, ↓kept_setMlane, ↓kept_mdrTo, ↓kept_sendNeg, kept_ite, ite_self]

@[simp] theorem kept_helloSend (s : State) (n : Nat) : (helloSend s n).kept = s.kept := by
  simp only [helloSend, ↓kept_setMlane, ↓kept_sendNeg, ↓kept_enterProof, kept_ite, ite_self]

@[simp] theorem kept_helloReceive (s : State) (n : Nat) (ws : List Nat) : (helloReceive s n ws).kept = s.kept := by
  simp only [helloReceive, ↓kept_setFld, ↓kept_devEvent, ↓kept_setMlane, ↓kept_mdrTo, ↓kept_beginHello, ↓kept_quarantine,
      ↓kept_noteDown, ↓kept_enterProof, kept_ite, ite_self]

@[simp] theorem kept_proofReceive (s : State) (n : Nat) (ws : List Nat) : (proofReceive s n ws).kept = s.kept := by
  simp only [proofReceive]
  (repeat' split) <;> simp only [↓kept_devEvent, ↓kept_setMlane, ↓kept_mdrTo, ↓kept_sendNeg, ↓kept_quarantine, ↓kept_proofFail,
      ↓kept_noCommon]

@[simp] theorem kept_echoCommit (s : State) (n : Nat) (m : Mode) : (echoCommit s n m).kept = s.kept := by
  simp only [echoCommit, ↓kept_setMlane, ↓kept_sendNeg]

@[simp] theorem kept_commitReceive (s : State) (n : Nat) (ws : List Nat) : (commitReceive s n ws).kept = s.kept := by
  simp only [commitReceive]
  (repeat' split) <;> simp only [↓kept_setMlane, ↓kept_noCommon, ↓kept_echoCommit]

@[simp] theorem kept_rejectReceive (s : State) (n : Nat) (ws : List Nat) : (rejectReceive s n ws).kept = s.kept := by
  simp only [rejectReceive, ↓kept_setMlane, kept_ite, ite_self]

@[simp] theorem kept_trainStart (s : State) (n : Nat) : (trainStart s n).kept = s.kept := by
  simp only [trainStart]
  split <;> simp only [↓kept_wr, ↓kept_setFld, ↓kept_setFlag, ↓kept_devEvent, ↓kept_lnkRate, ↓kept_setMlane, kept_ite, ite_self]

@[simp] theorem kept_absentTimeout (s : State) (n : Nat) : (absentTimeout s n).kept = s.kept := by simp [absentTimeout]

@[simp] theorem kept_proofTimeout (s : State) (n : Nat) : (proofTimeout s n).kept = s.kept := by simp [proofTimeout]

@[simp] theorem kept_commitTimeout (s : State) (n : Nat) : (commitTimeout s n).kept = s.kept := by simp [commitTimeout]

@[simp] theorem kept_trainTimeout (s : State) (n : Nat) : (trainTimeout s n).kept = s.kept := by
  simp only [trainTimeout, ↓kept_setMlane, ↓kept_beginHello, kept_ite, ite_self]

@[simp] theorem kept_holdoffExpiry (s : State) (n : Nat) : (holdoffExpiry s n).kept = s.kept := by simp [holdoffExpiry]

@[simp] theorem kept_quarReject (s : State) (n : Nat) : (quarReject s n).kept = s.kept := by
  simp only [quarReject, ↓kept_lnkRate, ↓kept_sendNeg, kept_ite, ite_self]

@[simp] theorem kept_mdrLctlWrite (s : State) (n : Nat) (v : Word) : (mdrLctlWrite s n v).kept = s.kept := by
  simp only [mdrLctlWrite, ↓kept_setFld, ↓kept_setFlag, kept_ite, ite_self]

@[simp] theorem kept_enterRun (s : State) (n : Nat) : (enterRun s n).kept = s.kept := by
  simp only [enterRun, ↓kept_setMlane, ↓kept_mdrTo]

@[simp] theorem kept_laneBoundary (s : State) (n : Nat) : (laneBoundary s n).kept = s.kept := by
  simp only [laneBoundary, ↓kept_setFld, ↓kept_setMlane, ↓kept_beginHello, kept_ite, ite_self]

@[simp] theorem kept_policeFlip (s : State) (n : Nat) : (policeFlip s n).kept = s.kept := by
  simp only [policeFlip, ↓kept_setMlane]

@[simp] theorem kept_policeToken (s : State) (n : Nat) : (policeToken s n).kept = s.kept := by
  simp only [policeToken, ↓kept_setMlane, kept_ite, ite_self]

@[simp] theorem kept_pidRead (s : State) (n : Nat) : (pidRead s n).2.kept = s.kept := by simp [pidRead]

@[simp] theorem kept_fcreqWrite (s : State) (v : Word) : (fcreqWrite s v).kept = s.kept := by
  simp only [fcreqWrite, ↓kept_with, kept_ite, ite_self]

@[simp] theorem kept_fcDue (s : State) (raster : List Nat) : (fcDue s raster).kept = s.kept := by
  unfold fcDue
  split <;> simp only [↓kept_with, kept_ite, ite_self]

@[simp] theorem kept_voidBegin (s : State) (begun : Bool) : (voidBegin s begun).kept = s.kept := by
  simp only [voidBegin, ↓kept_setFld, ↓kept_with]

@[simp] theorem kept_voidOrbit (s : State) : (voidOrbit s).kept = s.kept := by
  simp only [voidOrbit, ↓kept_with, kept_ite, ite_self]

@[simp] theorem kept_voidClose (s : State) : (voidClose s).kept = s.kept := by
  unfold voidClose
  split <;> simp only [↓kept_setFld, ↓kept_with, kept_ite, ite_self]

@[simp] theorem kept_lossFlags (s : State) : (lossFlags s).kept = s.kept := by simp [lossFlags]

@[simp] theorem kept_swapSram (s : State) : (swapSram s).kept = s.kept := by
  simp only [swapSram, ↓kept_with]

@[simp] theorem kept_swapBanks (s : State) : (swapBanks s).kept = s.kept := by simp only [swapBanks, ↓kept_swapSram, ↓kept_with]

@[simp] theorem kept_copyBank (s : State) : (copyBank s).kept = s.kept := by simp only [copyBank, ↓kept_with]

@[simp] theorem kept_flipWrite (s : State) (v : Word) : (flipWrite s v).kept = s.kept := by
  simp only [flipWrite, ↓kept_setFld, ↓kept_with, kept_ite, ite_self]

@[simp] theorem kept_commitPoint (s : State) : (commitPoint s).kept = s.kept := by
  unfold commitPoint
  split <;> simp only [↓kept_setFld, ↓kept_with, kept_ite, ite_self]

@[simp] theorem kept_flipReturn (s : State) (r : FlipReq) : (flipReturn s r).kept = s.kept := by
  simp only [flipReturn, ↓kept_setFld, ↓kept_with]

@[simp] theorem kept_requestCommit (s : State) (c : Commit) : (requestCommit s c).kept = s.kept := by
  simp [requestCommit, ↓kept_with]

@[simp] theorem kept_flipSwap (s : State) (r : FlipReq) : (flipSwap s r).kept = s.kept := by
  simp only [flipSwap, ↓kept_wr, ↓kept_setFld, ↓kept_countSrc, ↓kept_swapBanks, ↓kept_requestCommit, ↓kept_with, kept_ite,
      ite_self]

@[simp] theorem kept_flipBoundary (s : State) (odd : Bool) : (flipBoundary s odd).kept = s.kept := by
  unfold flipBoundary
  split <;> simp only [↓kept_flipReturn, ↓kept_flipSwap, kept_ite, ite_self]

@[simp] theorem kept_copyStart (s : State) : (copyStart s).kept = s.kept := by
  unfold copyStart
  split <;> simp only [↓kept_with, kept_ite, ite_self]

@[simp] theorem kept_copyDone (s : State) : (copyDone s).kept = s.kept := by
  simp only [copyDone, ↓kept_setFld, ↓kept_copyBank, ↓kept_with, kept_ite, ite_self]

@[simp] theorem kept_stampRead (s : State) : (stampRead s).2.kept = s.kept := by simp only [stampRead, ↓kept_wr]

@[simp] theorem kept_markedOrbit (s : State) (k : Boundary) : (markedOrbit s k).kept = s.kept := by
  simp [markedOrbit, ↓kept_with]

@[simp] theorem kept_newOrbit (s : State) (k : Boundary) : (newOrbit s k).kept = s.kept := by
  simp only [newOrbit, ↓kept_setFld, ↓kept_markedOrbit, ↓kept_with, kept_ite, ite_self]

@[simp] theorem kept_recordSlip (s : State) (d : Int) (orb : Nat) : (recordSlip s d orb).kept = s.kept := by
  simp only [recordSlip, ↓kept_setFld, ↓kept_count, ↓kept_countSrc, ↓kept_devEvent]

@[simp] theorem kept_missedMarker (s : State) : (missedMarker s).kept = s.kept := by
  simp only [missedMarker, ↓kept_count, ↓kept_countSrc, ↓kept_devEvent, ↓kept_voidBegin, ↓kept_lossFlags, ↓kept_with, kept_ite,
      ite_self]

@[simp] theorem kept_closeWindow (s : State) : (closeWindow s).kept = s.kept := by
  simp only [closeWindow, ↓kept_missedMarker, ↓kept_with, kept_ite, ite_self]

@[simp] theorem kept_firstAlign (s : State) : (firstAlign s).kept = s.kept := by
  simp only [firstAlign, ↓kept_setFld, ↓kept_voidBegin, ↓kept_voidOrbit, ↓kept_newOrbit, ↓kept_with, kept_ite, ite_self]

@[simp] theorem kept_tbEdge (s : State) (mark : Bool) (dt : Nat) : (tbEdge s mark dt).1.kept = s.kept := by
  simp only [tbEdge]
  (repeat' split) <;> simp only [↓kept_setFld, ↓kept_voidBegin, ↓kept_voidOrbit, ↓kept_lossFlags, ↓kept_newOrbit,
      ↓kept_recordSlip, ↓kept_firstAlign, ↓kept_with]

@[simp] theorem kept_laneResync (s : State) : (laneResync s).kept = s.kept := by
  simp only [laneResync, ↓kept_voidBegin, ↓kept_lossFlags, ↓kept_with, kept_ite, ite_self]

@[simp] theorem kept_firstEdge (s : State) : (firstEdge s).kept = s.kept := by
  simp only [firstEdge, ↓kept_setFld, ↓kept_firstAlign, ↓kept_with, kept_ite, ite_self]

@[simp] theorem kept_holdoverEntry (s : State) : (holdoverEntry s).kept = s.kept := by
  simp only [holdoverEntry, ↓kept_setFld, ↓kept_raiseLine, ↓kept_with, kept_ite, ite_self]

@[simp] theorem kept_generatorStart (s : State) : (generatorStart s).kept = s.kept := by simp [generatorStart]

@[simp] theorem kept_unignored (before : Bool) (s : State) : (unignored before s).kept = s.kept := by
  simp [unignored, ↓kept_with]

@[simp] theorem kept_relockDone (s : State) : (relockDone s).kept = s.kept := by
  simp only [relockDone, ↓kept_setFld, ↓kept_with, kept_ite, ite_self]

@[simp] theorem kept_setRel (s : State) (st : Nat) (e : RelEntry) : (State.setRel s st e).kept = s.kept := by
  simp [State.setRel, ↓kept_with]

@[simp] theorem kept_setSentRec (s : State) (st : Nat) (r : SentRec) : (State.setSentRec s st r).kept = s.kept := by
  simp [State.setSentRec, ↓kept_with]

@[simp] theorem kept_relDrop (s : State) (st : Nat) : (relDrop s st).kept = s.kept := by simp [relDrop]

@[simp] theorem kept_relArrive (s : State) (st x : Nat) (word : BitVec 64) (strobe : Bool) (ph : Nat) :
    (relArrive s st x word strobe ph).kept = s.kept := by
  simp only [relArrive, ↓kept_setRel, ↓kept_relDrop, kept_ite, ite_self]

@[simp] theorem kept_relLate (s : State) (st : Nat) (e : RelEntry) : (relLate s st e).kept = s.kept := by
  simp only [relLate, ↓kept_event, ↓kept_count, ↓kept_countSrc, ↓kept_raiseLine, ↓kept_setRel, ↓kept_relDrop, ↓kept_with,
      kept_ite, ite_self]

@[simp] theorem kept_recordPrimary (s : State) (st slack : Nat) : (recordPrimary s st slack).kept = s.kept := by
  simp only [recordPrimary, ↓kept_setFld, ↓kept_setSentRec, kept_ite, ite_self]

@[simp] theorem kept_recordReplay (s : State) (st slack : Nat) : (recordReplay s st slack).kept = s.kept := by
  simp only [recordReplay, ↓kept_setSentRec, kept_ite, ite_self]

@[simp] theorem kept_primaryDeadline (s : State) (st x : Nat) : (primaryDeadline s st x).kept = s.kept := by
  simp only [primaryDeadline, ↓kept_setRel, ↓kept_relLate, ↓kept_recordPrimary, kept_ite, ite_self]

@[simp] theorem kept_replayDeadline (s : State) (st x : Nat) : (replayDeadline s st x).kept = s.kept := by
  simp only [replayDeadline, ↓kept_relLate, ↓kept_recordReplay, kept_ite, ite_self]

@[simp] theorem kept_releaseOne (s : State) (st x : Nat) : (releaseOne s st x).kept = s.kept := by
  simp only [releaseOne, ↓kept_with]

@[simp] theorem kept_streamEdge (s : State) (st : Nat) : (streamEdge s st).kept = s.kept := by
  simp only [streamEdge, ↓kept_primaryDeadline, ↓kept_replayDeadline, ↓kept_releaseOne, kept_ite, ite_self]

@[simp] theorem kept_publishSentinels (s : State) (orb : Nat) : (publishSentinels s orb).kept = s.kept := by
  simp only [publishSentinels, ↓kept_setFld, ↓kept_foldl, implies_true, ↓kept_with]

@[simp] theorem kept_sentRead (s : State) (st : Nat) : (sentRead s st).2.kept = s.kept := by
  simp only [sentRead, ↓kept_setFld]

@[simp] theorem kept_periodMeasure (s : State) (ps len : Nat) : (periodMeasure s ps len).kept = s.kept := by
  simp only [periodMeasure, ↓kept_setFld, ↓kept_setFlag, ↓kept_raiseIf]

@[simp] theorem kept_avsRequest (s : State) (v : Nat) : (avsRequest s v).kept = s.kept := by simp [avsRequest]

@[simp] theorem kept_avsStart (s : State) : (avsStart s).kept = s.kept := by simp [avsStart]

@[simp] theorem kept_avsAdjust (s : State) (sl : Nat) : (avsAdjust s sl).kept = s.kept := by
  simp only [avsAdjust, ↓kept_setFlag, ↓kept_avsRequest, ↓kept_with, kept_ite, ite_self]

@[simp] theorem kept_avsStatus (s : State) (resp : Option Nat) (alert : Bool) : (avsStatus s resp alert).kept = s.kept := by
  unfold avsStatus
  split <;> simp only [↓kept_setFld, ↓kept_event, ↓kept_raiseLine, kept_ite, ite_self]

end Sys2Proof.Machine
end

section
/-! SUPPORT. The pipeline from ingress to readout, queues, DMA and memories keep the commands that wait and the straps (O6, O7). -/
namespace Sys2Proof.Machine

@[simp] theorem kept_setIngLane (s : State) (n : Nat) (x : IngLane) : (State.setIngLane s n x).kept = s.kept := by
  simp [State.setIngLane, ↓kept_with]

@[simp] theorem kept_ingMisaligned (s : State) (n : Nat) : (ingMisaligned s n).kept = s.kept := by simp [ingMisaligned]

@[simp] theorem kept_ingLate (s : State) (n : Nat) : (ingLate s n).kept = s.kept := by simp [ingLate]

@[simp] theorem kept_ingPlace (s : State) (n : Nat) (f : Frame) : (ingPlace s n f).kept = s.kept := by
  unfold ingPlace
  split <;> simp only [↓kept_setIngLane, ↓kept_ingMisaligned, ↓kept_ingLate, kept_ite, ite_self]

@[simp] theorem kept_ingFail (s : State) (n : Nat) : (ingFail s n).kept = s.kept := by
  simp only [ingFail]
  split <;> simp only [↓kept_event, ↓kept_count, ↓kept_setIngLane]

@[simp] theorem kept_ingRun (s : State) (n : Nat) : (ingRun s n).kept = s.kept := by simp [ingRun]

@[simp] theorem kept_mapDone (s : State) (n ph corr : Nat) : (mapDone s n ph corr).kept = s.kept := by
  simp only [mapDone]
  split <;> simp only [↓kept_corrected, ↓kept_setIngLane, ↓kept_ingLate, kept_ite, ite_self]

@[simp] theorem kept_ingOpen (s : State) (n : Nat) : (ingOpen s n).kept = s.kept := by
  simp only [ingOpen, ↓kept_setIngLane, kept_ite, ite_self]

@[simp] theorem kept_handover (s : State) (x : Nat) : (handover s x).1.kept = s.kept := by
  simp only [handover, ↓kept_setFld, ↓kept_setFlag, ↓kept_event, ↓kept_count, ↓kept_countSrc, ↓kept_uncorrected,
      ↓kept_raiseLine, ↓kept_setIngLane, ↓kept_ingLate, ↓kept_foldl, implies_true, ↓kept_with, kept_ite, ite_self]

@[simp] theorem kept_ingBoundary (s : State) : (ingBoundary s).kept = s.kept := by
  simp only [ingBoundary, ↓kept_setFld, ↓kept_setIngLane, ↓kept_foldl, implies_true, ↓kept_with]

@[simp] theorem kept_rlBad (s : State) : (rlBad s).kept = s.kept := by simp [rlBad]

@[simp] theorem kept_rasterCommands (s : State) : (rasterCommands s).1.kept = s.kept := by
  simp only [rasterCommands, ↓kept_rlBad, ↓kept_foldl, implies_true]

@[simp] theorem kept_pedResets (s : State) (x : Nat) : (pedResets s x).kept = s.kept := by simp only [pedResets, ↓kept_with]

@[simp] theorem kept_condStep (s : State) (es : List RlEntry) (x : Nat) (pedBad : List Nat) (acc : State × List (Nat × Nat))
    (e : Nat × RawCell) : (condStep s es x pedBad acc e).1.kept = acc.1.kept := by
  simp only [condStep, ↓kept_ite, ↓kept_count, ↓kept_raiseLine, ↓kept_event, ↓kept_uncorrected, ↓kept_eventIf, ↓kept_with,
    ite_self]

@[simp] theorem kept_conditionDone (s : State) (corr : Nat) (pedBad : List Nat) : (conditionDone s corr pedBad).1.kept = s.kept
  := by
  unfold conditionDone
  split
  · rfl
  · simp only [↓kept_with, ↓kept_foldl_fst, kept_condStep, implies_true, kept_corrected, kept_pedResets]

@[simp] theorem kept_condHandover (s : State) (x : Nat) (cells : List (Nat × RawCell)) : (condHandover s x cells).kept = s.kept := by
  simp only [condHandover, ↓kept_with, kept_ite, ite_self]

@[simp] theorem kept_pedBoundary (s : State) : (pedBoundary s).kept = s.kept := by
  simp only [pedBoundary, ↓kept_setFld, ↓kept_with]

@[simp] theorem kept_flatten (s : State) (live : Bool) (j : Nat) : (flatten s live j).kept = s.kept := by
  simp only [flatten, ↓kept_event, ↓kept_count, ↓kept_countUncorr, ↓kept_raiseLine, ↓kept_with,
      kept_ite, ite_self]

@[simp] theorem kept_startFlatten (s : State) : (startFlatten s).kept = s.kept := by simp [startFlatten, ↓kept_with]

@[simp] theorem kept_markStale (s : State) (p : Nat) : (markStale s p).kept = s.kept := by
  simp only [markStale, ↓kept_setFld, ↓kept_startFlatten]

@[simp] theorem kept_planeWrite (s : State) (a : Nat) (v : Word) : (planeWrite s a v).kept = s.kept := by
  simp only [planeWrite, ↓kept_event, ↓kept_markStale, ↓kept_with, kept_ite, ite_self]

@[simp] theorem kept_reflattenDone (s : State) (corr : Nat) : (reflattenDone s corr).kept = s.kept := by
  unfold reflattenDone
  split <;> simp only [↓kept_setFld, ↓kept_corrected, ↓kept_flatten, ↓kept_startFlatten, ↓kept_with]

@[simp] theorem kept_rewriteDone (s : State) (j corr : Nat) : (rewriteDone s j corr).kept = s.kept := by
  simp only [rewriteDone, ↓kept_corrected, ↓kept_flatten, ↓kept_with, kept_ite, ite_self]

@[simp] theorem kept_lakeDamage (s : State) (x r : Nat) : (lakeDamage s x r).kept = s.kept := by
  simp only [lakeDamage, ↓kept_event, ↓kept_uncorrected, ↓kept_raiseLine, ↓kept_foldl, implies_true, ↓kept_with]

@[simp] theorem kept_setCapture (s : State) (k : Nat) (c : Capture) : (State.setCapture s k c).kept = s.kept := by
  simp [State.setCapture, ↓kept_with]

@[simp] theorem kept_wmctlWrite (s : State) (k : Nat) (v : Word) : (wmctlWrite s k v).kept = s.kept := by
  simp only [wmctlWrite, ↓kept_setFld, ↓kept_setFlag, ↓kept_setCapture, kept_ite, ite_self]

@[simp] theorem kept_captureBegin (s : State) (x k : Nat) : (captureBegin s x k).kept = s.kept := by
  simp only [captureBegin, ↓kept_setFld, ↓kept_setCapture, kept_ite, ite_self]

@[simp] theorem kept_captureRow (s : State) (es : List RlEntry) (pc : PfCross) (r k : Nat) : (captureRow s es pc r k).kept =
    s.kept := by
  unfold captureRow
  split <;> simp only [↓kept_setFld, ↓kept_devEvent, ↓kept_setCapture, ↓kept_with, kept_ite, ite_self]

@[simp] theorem kept_pfReceive (s : State) (x : Nat) (cells : List (Nat × Nat)) : (pfReceive s x cells).kept = s.kept := by
  simp only [pfReceive, ↓kept_with]

@[simp] theorem kept_rowBeat (s : State) (pc : PfCross) (corr : Nat) : (rowBeat s pc corr).kept = s.kept := by
  simp only [rowBeat, ↓kept_corrected, ↓kept_rlBad, ↓kept_lakeDamage, ↓kept_captureBegin, ↓kept_captureRow, ↓kept_foldl,
      implies_true, ↓kept_with, kept_ite, ite_self]

@[simp] theorem kept_setWork (s : State) (w : ObjWork) : (State.setWork s w).kept = s.kept := by
  simp [State.setWork, ↓kept_with]

@[simp] theorem kept_markPair (s : State) (p mark : Nat) : (markPair s p mark).kept = s.kept := by
  simp only [markPair, ↓kept_setFld, ↓kept_with, kept_ite, ite_self]

@[simp] theorem kept_showReplays (s : State) : (showReplays s).kept = s.kept := by
  simp only [showReplays, ↓kept_setFld, ↓kept_setFlag]

@[simp] theorem kept_markReplay (s : State) (x : Nat) : (markReplay s x).kept = s.kept := by
  simp only [markReplay, ↓kept_setRel, ↓kept_foldl, implies_true, kept_ite, ite_self]

@[simp] theorem kept_assignReplay (s : State) (sp region p x : Nat) : (assignReplay s sp region p x).kept = s.kept := by
  simp only [assignReplay, ↓kept_setFld, ↓kept_count, ↓kept_countSrc, ↓kept_setWork, ↓kept_showReplays, ↓kept_markReplay,
      ↓kept_with]

@[simp] theorem kept_replayFull (s : State) (p : Nat) : (replayFull s p).kept = s.kept := by
  simp only [replayFull, ↓kept_event, ↓kept_count, ↓kept_markPair, kept_ite, ite_self]

@[simp] theorem kept_startReplay (s : State) (p x : Nat) : (startReplay s p x).kept = s.kept := by
  unfold startReplay
  (repeat' split) <;> simp only [↓kept_assignReplay, ↓kept_replayFull]

@[simp] theorem kept_mismatch (s : State) (p x : Nat) : (mismatch s p x).kept = s.kept := by
  simp only [mismatch]
  split <;> simp only [↓kept_wr, ↓kept_setFld, ↓kept_event, ↓kept_count, ↓kept_countSrc, ↓kept_raiseLine, ↓kept_setWork,
      ↓kept_markPair, ↓kept_startReplay]

@[simp] theorem kept_checkWork (s : State) (p x : Nat) : (checkWork s p x).kept = s.kept := by
  simp only [checkWork, ↓kept_setWork, ↓kept_mismatch, kept_ite, ite_self]

@[simp] theorem kept_emitted (s : State) (e upset : Option EWord) (uncorr : Bool) : (emitted s e upset uncorr).2.kept = s.kept
  := by
  unfold emitted
  split
  · rfl
  · split <;> rfl

@[simp] theorem kept_engineWord (s : State) (p : Nat) (mb : Bool) (x : Nat) (upset : Option EWord) (uncorr : Bool) (corr : Nat) :
    (engineWord s p mb x upset uncorr corr).kept = s.kept := by
  unfold engineWord
  split
  · rfl
  · rename_i ws _
    extract_lets w mine
    split
    · rfl
    · have h := kept_emitted s ws[mine.length]? upset uncorr
      split <;> (rename_i heq; rw [heq] at h)
      · exact h
      · refine Eq.trans ?_ h
        simp only [↓kept_checkWork, ↓kept_setWork, ↓kept_ite, ↓kept_event, ↓kept_uncorrected, ↓kept_corrected, ite_self]

@[simp] theorem kept_checkerTimeout (s : State) (p x : Nat) : (checkerTimeout s p x).kept = s.kept := by
  simp only [checkerTimeout, ↓kept_mismatch, kept_ite, ite_self]

@[simp] theorem kept_replayVote (s : State) (p x : Nat) : (replayVote s p x).kept = s.kept := by
  unfold replayVote
  split <;> simp only [↓kept_setFld, ↓kept_setWork, ↓kept_markPair, ↓kept_showReplays, ↓kept_with, kept_ite, ite_self]

@[simp] theorem kept_releaseReplays (s : State) : (releaseReplays s).kept = s.kept := by
  simp only [releaseReplays, ↓kept_setFld, ↓kept_showReplays, ↓kept_foldl, implies_true, ↓kept_with, kept_ite, ite_self]

@[simp] theorem kept_collect (s : State) (x : Nat) : (collect s x).kept = s.kept := by
  simp only [collect, ↓kept_event, ↓kept_count, ↓kept_with, kept_ite, ite_self]

@[simp] theorem kept_sortDone (s : State) (x dissent : Nat) : (sortDone s x dissent).kept = s.kept := by
  unfold sortDone
  split <;> simp only [↓kept_wr, ↓kept_setFld, ↓kept_setFlag, ↓kept_event, ↓kept_raiseLine, ↓kept_with, kept_ite, ite_self]

@[simp] theorem kept_keepOld (s : State) (p : Nat) : (keepOld s p).kept = s.kept := by simp only [keepOld, ↓kept_with]

@[simp] theorem kept_giveRegion (s : State) (p q : Nat) : (giveRegion s p q).kept = s.kept := by
  simp only [giveRegion, ↓kept_wr, ↓kept_setFld, ↓kept_keepOld]

@[simp] theorem kept_passOwner (s : State) (p q : Nat) : (passOwner s p q).kept = s.kept := by
  simp only [passOwner, ↓kept_setFld, ↓kept_foldl, implies_true, kept_ite, ite_self]

@[simp] theorem kept_retire (s : State) (p mark holder : Nat) : (retire s p mark holder).kept = s.kept := by
  simp only [retire, ↓kept_wr, ↓kept_setFld, ↓kept_keepOld, ↓kept_passOwner]

@[simp] theorem kept_dropRegion (s : State) (r : Nat) (preg : Word) : (dropRegion s r preg).kept = s.kept := by
  simp only [dropRegion, ↓kept_setFld, ↓kept_with]

@[simp] theorem kept_settlePair (ms : List (Nat × Nat)) (s : State) (m : Nat × Nat) : (settlePair ms s m).kept = s.kept := by
  simp only [settlePair]
  (repeat' split) <;> simp only [↓kept_raiseLine, ↓kept_giveRegion, ↓kept_passOwner, ↓kept_retire, ↓kept_dropRegion]

@[simp] theorem kept_showPool (s : State) : (showPool s).kept = s.kept := by simp only [showPool, ↓kept_setFld, ↓kept_setFlag]

@[simp] theorem kept_settle (s : State) : (settle s).kept = s.kept := by
  simp only [settle, ↓kept_setFld, ↓kept_settlePair, ↓kept_showPool, ↓kept_foldl, implies_true, ↓kept_with, kept_ite, ite_self]

@[simp] theorem kept_assignPairs (s : State) : (assignPairs s).kept = s.kept := by
  simp only [assignPairs, ↓kept_setFld, ↓kept_showPool, ↓kept_foldl, implies_true]

@[simp] theorem kept_setLoop (s : State) (i : Nat) (x : LoopX) : (State.setLoop s i x).kept = s.kept := by
  simp [State.setLoop, ↓kept_with]

@[simp] theorem kept_noteHeld (s : State) : (noteHeld s).kept = s.kept := by simp [noteHeld]

@[simp] theorem kept_noteForced (s : State) : (noteForced s).kept = s.kept := by simp [noteForced]

@[simp] theorem kept_trip (s : State) (k g : Nat) (cyc : Bool) : (trip s k g cyc).kept = s.kept := by
  simp only [trip, ↓kept_countSrc, ↓kept_withBlanks, ↓kept_raiseLine, ↓kept_devEvent, ↓kept_noteHeld, ↓kept_noteForced,
      implies_true, ↓kept_with, kept_ite, ite_self]

@[simp] theorem kept_setCmp (s : State) (k : Nat) (b : Bool) : (setCmp s k b).kept = s.kept := by simp [setCmp]

@[simp] theorem kept_cmpAct (s : State) (k : Nat) : (cmpAct s k).kept = s.kept := by
  simp only [cmpAct, ↓kept_trip, kept_ite, ite_self]

@[simp] theorem kept_cmpSense (s : State) (k : Nat) : (cmpSense s k).kept = s.kept := by
  unfold cmpSense
  split <;> simp only [↓kept_setCmp, ↓kept_cmpAct, ↓kept_with, kept_ite, ite_self]

@[simp] theorem kept_cmpInput (s : State) (k uv : Nat) : (cmpInput s k uv).kept = s.kept := by simp [cmpInput, ↓kept_with]

@[simp] theorem kept_cmpSenseAll (s : State) : (cmpSenseAll s).kept = s.kept := by simp [cmpSenseAll]

@[simp] theorem kept_blankEnd (s : State) (k : Nat) : (blankEnd s k).kept = s.kept := by
  simp only [blankEnd, ↓kept_cmpAct, ↓kept_with, kept_ite, ite_self]

@[simp] theorem kept_tripClear (s : State) (hi : Bool) (mask : Nat) : (tripClear s hi mask).kept = s.kept := by
  simp only [tripClear, ↓kept_with, kept_ite, ite_self]

@[simp] theorem kept_convResult (s : State) (n code : Nat) : (convResult s n code).kept = s.kept := by simp [convResult]

@[simp] theorem kept_convTrigger (s : State) (n code : Nat) : (convTrigger s n code).1.kept = s.kept := by
  unfold convTrigger
  (repeat' split) <;> simp only [↓kept_event, ↓kept_with]

@[simp] theorem kept_convFree (s : State) (n code : Nat) : (convFree s n code).kept = s.kept := by simp [convFree]

@[simp] theorem kept_convDone (s : State) (n : Nat) : (convDone s n).kept = s.kept := by
  unfold convDone
  split <;> simp only [↓kept_convResult, ↓kept_with]

@[simp] theorem kept_echoConv (s : State) (n : Nat) : (echoConv s n).kept = s.kept := by simp [echoConv]

@[simp] theorem kept_pwmProduce (s : State) (m t : Nat) (ev : PwmEv) : (pwmProduce s m t ev).kept = s.kept := by
  simp [pwmProduce]

@[simp] theorem kept_pwmEdge (s : State) (m : Nat) : (pwmEdge s m).kept = s.kept := by
  simp only [pwmEdge]
  split <;> simp only [↓kept_setPwm, ↓kept_pwmProduce, kept_ite, ite_self]

@[simp] theorem kept_pwmOverdue (t fuel m : Nat) (s : State) : (pwmOverdue t fuel m s).kept = s.kept := by
  induction fuel generalizing s with
  | zero => rfl
  | succ fuel ih =>
    unfold pwmOverdue
    split
    · rfl
    · simp only [kept_ite, ih, kept_pwmEdge, ite_self]

@[simp] theorem kept_pwmBegin (s : State) (m t : Nat) (early : Bool) : (pwmBegin s m t early).kept = s.kept := by
  simp only [pwmBegin, ↓kept_setPwm, ↓kept_pwmProduce, ↓kept_foldl, implies_true, kept_ite, ite_self]

@[simp] theorem kept_pwmAccount (s : State) (m : Nat) : (pwmAccount s m).kept = s.kept := by
  simp only [pwmAccount, ↓kept_setFld, ↓kept_setPwm]

@[simp] theorem kept_pwmRetime (t m : Nat) (s : State) (second : Bool) : (pwmRetime t m s second).kept = s.kept := by
  simp only [pwmRetime, ↓kept_setPwm, kept_ite, ite_self]

@[simp] theorem kept_pwmApply (s : State) (m t : Nat) : (pwmApply s m t).kept = s.kept := by
  simp only [pwmApply, ↓kept_setPwm, ↓kept_pwmOverdue, ↓kept_pwmRetime, ↓kept_foldl, implies_true, kept_ite, ite_self]

@[simp] theorem kept_pwmChanged (s : State) (m t : Nat) : (pwmChanged s m t).kept = s.kept := by simp [pwmChanged]

@[simp] theorem kept_microstep (t : Nat) (s : State) (u : Nat) : (microstep t s u).kept = s.kept := by
  unfold microstep
  extract_lets p0 tbl k pos tgt still stepNow inc pos' cvl s₁ s₂ ia ib s₃ put leg
  have hs₂ : s₂.kept = s.kept := (kept_setFld ..).trans (kept_with s ..)
  have hput (s : State) (m d : Nat) : (put s m d).kept = s.kept := kept_setPwm ..
  have hleg (s : State) (m : Nat) (v : Int) : (leg s m v).kept = s.kept := by simp only [leg, kept_ite, hput, ite_self]
  split
  · refine (kept_foldl (fun s m => ?_) s₃).trans ?_
    · split
      · exact kept_trip ..
      · rfl
    · simp only [s₃, ↓kept_raiseLine, ↓kept_event, ↓kept_uncorrected, hs₂]
  · simp only [↓kept_foldl, kept_pwmChanged, implies_true, hleg, hs₂]

@[simp] theorem kept_loopPeriods (s : State) (m : Nat) : (loopPeriods s m).kept = s.kept := by
  simp only [loopPeriods, ↓kept_setLoop, ↓kept_foldl, implies_true]

@[simp] theorem kept_pwmPeriod (s : State) (m t : Nat) (early : Bool) : (pwmPeriod s m t early).kept = s.kept := by
  simp only [pwmPeriod, ↓kept_setPwm, ↓kept_withBlanks, ↓kept_pwmOverdue, ↓kept_pwmBegin, ↓kept_pwmAccount, ↓kept_microstep,
      ↓kept_loopPeriods, ↓kept_foldl, implies_true, kept_ite, ite_self]

@[simp] theorem kept_pwmPeriodEnd (s : State) (m : Nat) : (pwmPeriodEnd s m).kept = s.kept := by
  simp only [pwmPeriodEnd, ↓kept_pwmPeriod, kept_ite, ite_self]

@[simp] theorem kept_pwmUpdatePoint (s : State) (m : Nat) : (pwmUpdatePoint s m).kept = s.kept := by
  simp only [pwmUpdatePoint, ↓kept_pwmApply, kept_ite, ite_self]

@[simp] theorem kept_maskRead (s : State) : (maskRead s).kept = s.kept := by
  simp only [maskRead, ↓kept_event, ↓kept_uncorrected, ↓kept_raiseLine, ↓kept_foldl, implies_true, kept_ite, ite_self]

@[simp] theorem kept_cvlSlot (s : State) : (cvlSlot s).kept = s.kept := by
  simp only [cvlSlot, ↓kept_setPwm, ↓kept_pwmPeriod, ↓kept_maskRead, ↓kept_foldl, implies_true, kept_ite, ite_self]

@[simp] theorem kept_cvlFlip (s : State) : (cvlFlip s).kept = s.kept := by
  simp only [cvlFlip, ↓kept_setPwm, ↓kept_cmpSenseAll, ↓kept_pwmChanged, ↓kept_foldl, implies_true, kept_ite,
      ite_self]

@[simp] theorem kept_loopDamage (s : State) (i : Nat) : (loopDamage s i).kept = s.kept := by
  simp only [loopDamage, ↓kept_event, ↓kept_uncorrected, ↓kept_raiseLine, ↓kept_trip, ↓kept_foldl, implies_true]

@[simp] theorem kept_loopCompute (s : State) (i x : Nat) : (loopCompute s i x).kept = s.kept := by
  simp only [loopCompute, ↓kept_wr, ↓kept_setFld, ↓kept_eventIf, ↓kept_setLoop, kept_ite, ite_self]

@[simp] theorem kept_loopSample (s : State) (i code corr : Nat) (bad : Bool) : (loopSample s i code corr bad).kept = s.kept := by
  simp only [loopSample, ↓kept_event, ↓kept_corrected, ↓kept_setLoop, ↓kept_convTrigger, ↓kept_loopDamage, ↓kept_loopCompute,
      kept_ite, ite_self]

@[simp] theorem kept_loopOutput (s : State) (i cyc : Nat) : (loopOutput s i cyc).kept = s.kept := by
  simp only [loopOutput]
  (repeat' split) <;> simp only [↓kept_setPwm, ↓kept_setLoop, ↓kept_pwmChanged, ↓kept_with]

@[simp] theorem kept_cvlRun (s : State) : (cvlRun s).kept = s.kept := by
  simp only [cvlRun, ↓kept_wr, ↓kept_setPwm, ↓kept_withBlanks, ↓kept_setLoop, ↓kept_cmpSenseAll, ↓kept_pwmBegin,
      ↓kept_loopPeriods, ↓kept_foldl, implies_true, ↓kept_with, kept_ite, ite_self]

@[simp] theorem kept_setPinX (s : State) (p : Nat) (x : PinX) : (State.setPinX s p x).kept = s.kept := by
  simp [State.setPinX, ↓kept_with]

@[simp] theorem kept_showBlocked (s : State) (p : Nat) : (showBlocked s p).kept = s.kept := by
  simp only [showBlocked, ↓kept_setFlag]

@[simp] theorem kept_pinOutWrite (s : State) (b kind : Nat) (v : Word) : (pinOutWrite s b kind v).kept = s.kept := by
  simp only [pinOutWrite, ↓kept_wr, ↓kept_with]

@[simp] theorem kept_functionSwitch (s : State) (p : Nat) : (functionSwitch s p).kept = s.kept := by
  simp [functionSwitch]

@[simp] theorem kept_pinsStart (s : State) : (pinsStart s).kept = s.kept := by
  simp only [pinsStart, ↓kept_setPinX, ↓kept_foldl, implies_true]

@[simp] theorem kept_pinGpovWrite (s : State) (b : Nat) (v : Word) : (pinGpovWrite s b v).kept = s.kept := by
  simp only [pinGpovWrite, ↓kept_wr, ↓kept_functionSwitch, ↓kept_foldl, implies_true]

@[simp] theorem kept_unmaskIfInactive (s : State) (p : Nat) : (unmaskIfInactive s p).kept = s.kept := by
  simp only [unmaskIfInactive, ↓kept_setPinX, ↓kept_showBlocked, kept_ite, ite_self]

@[simp] theorem kept_chatterEdge (s : State) (p : Nat) : (chatterEdge s p).kept = s.kept := by
  simp only [chatterEdge, ↓kept_event, ↓kept_raiseLine, ↓kept_setPinX, ↓kept_showBlocked, kept_ite, ite_self]

@[simp] theorem kept_pinTick (s : State) : (pinTick s).kept = s.kept := by
  simp only [pinTick, ↓kept_setPinX, ↓kept_showBlocked, ↓kept_chatterEdge, ↓kept_foldl, implies_true, kept_ite,
      ite_self]

@[simp] theorem kept_pinEdge (s : State) (p : Nat) (lvl : Bool) : (pinEdge s p lvl).kept = s.kept := by
  simp only [pinEdge, ↓kept_setPinX, ↓kept_unmaskIfInactive, ↓kept_chatterEdge, kept_ite, ite_self]

@[simp] theorem kept_chatterTick (s : State) : (chatterTick s).kept = s.kept := by
  simp only [chatterTick, ↓kept_setPinX, ↓kept_showBlocked, ↓kept_foldl, implies_true]

@[simp] theorem kept_stuckTimeout (s : State) (p : Nat) : (stuckTimeout s p).kept = s.kept := by
  simp only [stuckTimeout, ↓kept_event, ↓kept_raiseLine, ↓kept_setPinX, ↓kept_showBlocked, kept_ite, ite_self]

@[simp] theorem kept_bankCheck (s : State) (vdet : Nat) : (bankCheck s vdet).kept = s.kept := by
  simp only [bankCheck, ↓kept_setFld, ↓kept_event, ↓kept_raiseLine, kept_ite, ite_self]

@[simp] theorem kept_decHandover (s : State) (x : Nat) (feeds : List (Nat × Frame)) (throttle : Bool) :
    (decHandover s x feeds throttle).kept = s.kept := by
  simp only [decHandover, ↓kept_with]

@[simp] theorem kept_decPinSample (s : State) : (decPinSample s).kept = s.kept := by
  simp only [decPinSample, ↓kept_with, kept_ite, ite_self]

@[simp] theorem kept_decFrame (s : State) (n : Nat) (f : Frame) : (decFrame s n f).kept = s.kept := by
  simp only [decFrame]
  split <;> simp only [↓kept_with, kept_ite, ite_self]

@[simp] theorem kept_decResets (s : State) (x : Nat) : (decResets s x).kept = s.kept := by simp only [decResets, ↓kept_with]

@[simp] theorem kept_decCounts (s : State) (raw tav tap : Nat) (acc : Bool) : (decCounts s raw tav tap acc).kept = s.kept := by
  simp only [decCounts, ↓kept_count, ↓kept_countSrc, ↓kept_foldl, implies_true, kept_ite, ite_self]

@[simp] theorem kept_decAccept (s : State) (x : Nat) : (decAccept s x).kept = s.kept := by
  simp only [decAccept, ↓kept_setFld, ↓kept_count, ↓kept_countSrc]

@[simp] theorem kept_decKeep (s : State) (share : DecCopy) (v : DecVote × DecVote × DecVote) : (decKeep s share v).kept = s.kept := by
  simp only [decKeep, ↓kept_with]

@[simp] theorem kept_decResult (s : State) (x raw : Nat) (v : DecVote) : (decResult s x raw v).kept = s.kept := by
  simp only [decResult, ↓kept_event, ↓kept_eventIf, ↓kept_count, ↓kept_countSrc, ↓kept_decCounts, ↓kept_decAccept, ↓kept_with,
      kept_ite, ite_self]

@[simp] theorem kept_decisionEvaluate (s : State) (x : Nat) (faults : List DecFault) (corr : Nat) :
    (decisionEvaluate s x faults corr).1.kept = s.kept := by
  simp only [decisionEvaluate]
  (repeat' split) <;> simp only [↓kept_event, ↓kept_eventIf, ↓kept_uncorrected, ↓kept_raiseLine, ↓kept_corrected,
      ↓kept_decResets, ↓kept_decKeep, ↓kept_decResult, ↓kept_foldl, implies_true, ↓kept_with]

@[simp] theorem kept_decBoundary (s : State) : (decBoundary s).kept = s.kept := by
  simp only [decBoundary, ↓kept_setFld, ↓kept_with, kept_ite, ite_self]

@[simp] theorem kept_decFlip (s : State) (old : Nat → Word) : (decFlip s old).kept = s.kept := by
  simp only [decFlip, ↓kept_with, kept_ite, ite_self]

@[simp] theorem kept_dramUncorr (s : State) (a : Nat) : (dramUncorr s a).kept = s.kept := by
  simp only [dramUncorr, ↓kept_setFld, ↓kept_event, ↓kept_uncorrected, ↓kept_raiseLine]

@[simp] theorem kept_dramMeet (s : State) (a n : Nat) : (dramMeet s a n).kept = s.kept := by simp [dramMeet]

@[simp] theorem kept_dramPut (s : State) (a : Nat) (bs : List Nat) : (dramPut s a bs).kept = s.kept := by
  simp only [dramPut, ↓kept_with]

@[simp] theorem kept_dramStore (s : State) (a : Nat) (bs : List Nat) : (dramStore s a bs).kept = s.kept := by simp [dramStore]

@[simp] theorem kept_sramStore (s : State) (a : Nat) (bs : List Nat) : (sramStore s a bs).kept = s.kept := by
  simp [sramStore, ↓kept_with]

@[simp] theorem kept_ringByte (s : State) (q off : Nat) (p : Nat × Nat) : (ringByte s q off p).kept = s.kept := by
  simp only [ringByte, ↓kept_with, kept_ite, ite_self]

@[simp] theorem kept_ringStore (s : State) (q off : Nat) (bs : List Nat) : (ringStore s q off bs).kept = s.kept := by
  simp only [ringStore, ↓kept_errorCompletion, ↓kept_ringByte, ↓kept_foldl, implies_true, kept_ite, ite_self]

@[simp] theorem kept_setBacklog (s : State) (q v : Nat) : (setBacklog s q v).kept = s.kept := by
  simp only [setBacklog, ↓kept_wr, ↓kept_edgeDev, ↓kept_foldl, implies_true]

@[simp] theorem kept_qmFreeze (s : State) (q : Nat) : (qmFreeze s q).kept = s.kept := by
  simp only [qmFreeze, ↓kept_wr, ↓kept_event, ↓kept_uncorrected, ↓kept_raiseLine, ↓kept_dramMeet, kept_ite, ite_self]

@[simp] theorem kept_qmCheck (s : State) (q : Nat) : (qmCheck s q).kept = s.kept := by
  simp only [qmCheck, ↓kept_qmFreeze, kept_ite, ite_self]

@[simp] theorem kept_qmAdmit (s : State) (q ptype pidx len tag : Nat) : (qmAdmit s q ptype pidx len tag).1.kept = s.kept := by
  simp only [qmAdmit]
  (repeat' split) <;> simp only [↓kept_wr, ↓kept_setFld, ↓kept_count, ↓kept_countSrc, ↓kept_routeDev, ↓kept_ringStore,
      ↓kept_setBacklog, ↓kept_qmCheck, ↓kept_foldl, implies_true]

@[simp] theorem kept_qmWithdraw (s : State) (q off len : Nat) : (qmWithdraw s q off len).kept = s.kept := by
  simp only [qmWithdraw, ↓kept_wr, ↓kept_setBacklog, ↓kept_with]

@[simp] theorem kept_pushJudge (s : State) (a q : Nat) : (pushJudge s a q).1.kept = s.kept := by simp [pushJudge]

@[simp] theorem kept_showPush (s : State) (a : Nat) (r : Admit) : (showPush s a r).kept = s.kept := by
  simp only [showPush, ↓kept_setFld]

@[simp] theorem kept_qmPush (s : State) (a q : Nat) : (qmPush s a q).kept = s.kept := by
  simp only [qmPush, ↓kept_pushJudge, ↓kept_showPush, ↓kept_with, kept_ite, ite_self]

@[simp] theorem kept_evRetract (s : State) (k : Nat) (kept : Bool) : (evRetract s k kept).kept = s.kept := by
  simp only [evRetract, ↓kept_setFld, ↓kept_with, kept_ite, ite_self]

@[simp] theorem kept_uncountSrc (s : State) (src : Nat) (before : List Nat × Bool) : (uncountSrc s src before).kept = s.kept := by
  simp only [uncountSrc, ↓kept_setFlag, ↓kept_evRetract, ↓kept_foldl, implies_true, ↓kept_with, kept_ite, ite_self]

@[simp] theorem kept_rejudge (s : State) (q : Nat) : (rejudge s q).kept = s.kept := by
  simp only [rejudge]
  (repeat' split) <;> simp only [↓kept_wr, ↓kept_setFld, ↓kept_pushJudge, ↓kept_showPush, ↓kept_uncountSrc, ↓kept_foldl,
      implies_true, ↓kept_with, kept_ite, ite_self]

@[simp] theorem kept_qmRemove (s : State) (q : Nat) : (qmRemove s q).kept = s.kept := by
  simp only [qmRemove, ↓kept_wr, ↓kept_setBacklog, ↓kept_rejudge]

@[simp] theorem kept_qmPop (s : State) (a q : Nat) : (qmPop s a q).kept = s.kept := by
  simp only [qmPop, ↓kept_event, ↓kept_qmCheck, ↓kept_qmRemove, kept_ite, ite_self]

@[simp] theorem kept_edfCheck (s : State) (o : Nat) : (edfCheck s o).kept = s.kept := by simp [edfCheck]

@[simp] theorem kept_qmStart (s : State) (o q : Nat) : (qmStart s o q).kept = s.kept := by simp [qmStart, ↓kept_with]

@[simp] theorem kept_qmDropStarted (s : State) (o : Nat) : (qmDropStarted s o).kept = s.kept := by
  simp [qmDropStarted, ↓kept_with]

@[simp] theorem kept_lateCheck (s : State) (q dl : Nat) : (lateCheck s q dl).kept = s.kept := by
  simp only [lateCheck, ↓kept_setFld, ↓kept_event, ↓kept_count, ↓kept_countSrc, ↓kept_raiseLine, kept_ite, ite_self]

@[simp] theorem kept_qmDeliver (s : State) (o : Nat) : (qmDeliver s o).kept = s.kept := by
  unfold qmDeliver
  split <;> simp only [↓kept_qmRemove, ↓kept_qmDropStarted, ↓kept_lateCheck, kept_ite, ite_self]

@[simp] theorem kept_laneDeliver (s : State) (n corr : Nat) : (laneDeliver s n corr).kept = s.kept := by
  unfold laneDeliver
  split <;> simp only [↓kept_corrected, ↓kept_qmDeliver]

@[simp] theorem kept_qmReset (s : State) (q : Nat) : (qmReset s q).kept = s.kept := by
  simp only [qmReset, ↓kept_wr, ↓kept_setBacklog, ↓kept_with, kept_ite, ite_self]

@[simp] theorem kept_roOpen (s : State) (x : Nat) : (roOpen s x).kept = s.kept := by simp [roOpen]

@[simp] theorem kept_entrySet (s : State) (x m : Nat) : (entrySet s x m).kept = s.kept := by simp [entrySet]

@[simp] theorem kept_roLanes (s : State) (x : Nat) (feeds : List (Nat × Frame)) : (roLanes s x feeds).kept = s.kept := by
  simp only [roLanes, ↓kept_setFld, ↓kept_sramStore, ↓kept_entrySet, ↓kept_foldl, implies_true, ↓kept_with, kept_ite, ite_self]

@[simp] theorem kept_roCells (s : State) (x : Nat) (cells : List (Nat × Nat)) : (roCells s x cells).kept = s.kept := by
  simp only [roCells, ↓kept_sramStore, ↓kept_entrySet, ↓kept_foldl, implies_true, kept_ite, ite_self]

@[simp] theorem kept_roTrig (s : State) (r : TrigRec) : (roTrig s r).kept = s.kept := by
  simp only [roTrig, ↓kept_sramStore, ↓kept_entrySet, kept_ite, ite_self]

@[simp] theorem kept_roObjs (s : State) (x : Nat) (ls : List ClassList) (ovf : Bool) : (roObjs s x ls ovf).kept = s.kept := by
  simp only [roObjs, ↓kept_sramStore, ↓kept_entrySet, kept_ite, ite_self]

@[simp] theorem kept_roCurRead (s : State) : (roCurRead s).2.kept = s.kept := by
  unfold roCurRead
  split <;> simp only [↓kept_wr]

@[simp] theorem kept_roRefuse (s : State) : (roRefuse s).kept = s.kept := by simp [roRefuse]

@[simp] theorem kept_roServe (fuel : Nat) (s : State) : (roServe fuel s).kept = s.kept := by
  induction fuel generalizing s with
  | zero => rfl
  | succ fuel ih =>
    unfold roServe
    split
    · rfl
    · simp only [↓kept_ite, ↓ih, ↓kept_roRefuse, ↓kept_with, ↓kept_qmAdmit, ite_self]

@[simp] theorem kept_roEnqueue (s : State) (r : RoReq) : (roEnqueue s r).kept = s.kept := by
  simp only [roEnqueue, ↓kept_roRefuse, ↓kept_roServe, ↓kept_with, kept_ite, ite_self]

@[simp] theorem kept_roRequest (s : State) (x : Nat) (dword : BitVec 64) : (roRequest s x dword).kept = s.kept := by
  simp only [roRequest, ↓kept_countSrc, ↓kept_roEnqueue, ↓kept_with, kept_ite, ite_self]

@[simp] theorem kept_copyFragment (s : State) (corr : Nat) : (copyFragment s corr).kept = s.kept := by
  unfold copyFragment
  split <;> simp only [↓kept_event, ↓kept_eventIf, ↓kept_count, ↓kept_countSrc, ↓kept_uncorrected, ↓kept_raiseLine,
      ↓kept_corrected, ↓kept_ringStore, ↓kept_roServe, ↓kept_foldl, implies_true, ↓kept_with, kept_ite, ite_self]

end Sys2Proof.Machine
end

section
/-! SUPPORT. The analog side, the survey, the voices, the cores and the resets keep the commands that wait and the straps (O6, O7). -/
namespace Sys2Proof.Machine

@[simp] theorem kept_setDmaX (s : State) (ch : Nat) (x : DmaX) : (State.setDmaX s ch x).kept = s.kept := by
  simp [State.setDmaX, ↓kept_with]

@[simp] theorem kept_showHalts (s : State) : (showHalts s).kept = s.kept := by simp [showHalts]

@[simp] theorem kept_dmaTo (s : State) (ch st : Nat) : (dmaTo s ch st).kept = s.kept := by simp [dmaTo]

@[simp] theorem kept_dmaFetchStart (s : State) (ch : Nat) : (dmaFetchStart s ch).kept = s.kept := by
  simp only [dmaFetchStart, ↓kept_setFld, ↓kept_setDmaX, ↓kept_dmaTo]

@[simp] theorem kept_dmaKick (s : State) (ch : Nat) : (dmaKick s ch).kept = s.kept := by
  simp only [dmaKick, ↓kept_setFld, ↓kept_dmaFetchStart, kept_ite, ite_self]

@[simp] theorem kept_dmaPoll (s : State) (ch : Nat) : (dmaPoll s ch).kept = s.kept := by
  simp only [dmaPoll, ↓kept_dmaFetchStart, kept_ite, ite_self]

@[simp] theorem kept_dmaEnable (s : State) (ch : Nat) : (dmaEnable s ch).kept = s.kept := by
  simp only [dmaEnable, ↓kept_wr, ↓kept_setFld, ↓kept_setDmaX, ↓kept_dmaFetchStart, kept_ite, ite_self]

@[simp] theorem kept_mixBytes (s : State) (old new : Nat → Nat) (n : Nat) : (mixBytes s old new n).2.kept = s.kept := by
  simp only [mixBytes, ↓kept_foldl_snd, kept_fresh, implies_true]

@[simp] theorem kept_dmaMix (s : State) (d : List Nat) : (dmaMix s d).kept = s.kept := by
  unfold dmaMix
  (repeat' split) <;> simp only [↓kept_mixBytes, ↓kept_with]

@[simp] theorem kept_dmaStatusMix (s : State) (ch : Nat) : (dmaStatusMix s ch).kept = s.kept := by
  unfold dmaStatusMix
  split <;> simp only [↓kept_fresh, ↓kept_with, kept_ite, ite_self]

@[simp] theorem kept_dmaDisable (s : State) (ch : Nat) : (dmaDisable s ch).kept = s.kept := by
  simp only [dmaDisable]
  (repeat' split) <;> simp only [↓kept_wr, ↓kept_event, ↓kept_fresh, ↓kept_qmWithdraw, ↓kept_qmDropStarted, ↓kept_setDmaX,
      ↓kept_showHalts, ↓kept_dmaTo, ↓kept_dmaMix, ↓kept_dmaStatusMix]

@[simp] theorem kept_dmaCtlWrite (s : State) (ch : Nat) (v : Word) : (dmaCtlWrite s ch v).kept = s.kept := by
  simp only [dmaCtlWrite, ↓kept_setFld, ↓kept_dmaKick, ↓kept_dmaEnable, ↓kept_dmaDisable, kept_ite, ite_self]

@[simp] theorem kept_dmaRingWrite (s : State) (ch : Nat) (v : Word) : (dmaRingWrite s ch v).kept = s.kept := by
  simp [dmaRingWrite]

@[simp] theorem kept_dmaDoneCleared (s : State) (ch : Nat) : (dmaDoneCleared s ch).kept = s.kept := by
  simp only [dmaDoneCleared, ↓kept_withDev, implies_true, ↓kept_with, kept_ite, ite_self]

@[simp] theorem kept_dmaTakeElem (s : State) (ch : Nat) : (dmaTakeElem s ch).kept = s.kept := by
  simp only [dmaTakeElem]
  (repeat' split) <;> simp only [↓kept_edfCheck, ↓kept_qmStart, ↓kept_setDmaX, ↓kept_dmaTo]

@[simp] theorem kept_dmaAsk (s : State) (ch : Nat) : (dmaAsk s ch).kept = s.kept := by
  simp only [dmaAsk, ↓kept_qmAdmit, ↓kept_setDmaX, ↓kept_dmaTo, ↓kept_with, kept_ite, ite_self]

@[simp] theorem kept_dmaStart (s : State) (ch : Nat) : (dmaStart s ch).kept = s.kept := by
  simp only [dmaStart, ↓kept_dmaTo, ↓kept_dmaTakeElem, ↓kept_dmaAsk, kept_ite, ite_self]

@[simp] theorem kept_dmaElemReady (s : State) (ch : Nat) : (dmaElemReady s ch).kept = s.kept := by simp [dmaElemReady]

@[simp] theorem kept_dmaRetry (s : State) (ch : Nat) : (dmaRetry s ch).kept = s.kept := by simp [dmaRetry]

@[simp] theorem kept_dmaCredit (s : State) : (dmaCredit s).kept = s.kept := by
  simp only [dmaCredit, ↓kept_with, kept_ite, ite_self]

@[simp] theorem kept_dmaNext (s : State) (ch : Nat) (d : List Nat) : (dmaNext s ch d).kept = s.kept := by
  simp only [dmaNext, ↓kept_wr, ↓kept_setDmaX, ↓kept_dmaTo, ↓kept_dmaFetchStart, kept_ite, ite_self]

@[simp] theorem kept_trainingDone (s : State) (c : Nat) : (trainingDone s c).kept = s.kept := by simp [trainingDone]

@[simp] theorem kept_trainingFail (s : State) (c : Nat) : (trainingFail s c).kept = s.kept := by
  simp only [trainingFail, ↓kept_setFld, ↓kept_event, ↓kept_raiseLine, ↓kept_with, kept_ite, ite_self]

@[simp] theorem kept_memCtlWrite (s : State) (v : Word) : (memCtlWrite s v).kept = s.kept := by
  simp only [memCtlWrite, ↓kept_setFld, ↓kept_setFlag, ↓kept_with, kept_ite, ite_self]

@[simp] theorem kept_recenterDone (s : State) (c : Nat) : (recenterDone s c).kept = s.kept := by
  simp only [recenterDone, ↓kept_setFld, ↓kept_with, kept_ite, ite_self]

@[simp] theorem kept_patrol (s : State) (a : Nat) (corr bad : Bool) : (patrol s a corr bad).kept = s.kept := by
  simp only [patrol, ↓kept_corrected, ↓kept_dramUncorr, ↓kept_with, kept_ite, ite_self]

@[simp] theorem kept_clearPage (s : State) (g : Nat) : (clearPage s g).kept = s.kept := by simp only [clearPage, ↓kept_with]

@[simp] theorem kept_srvCount (s : State) (x : Nat) (rows : List (List (List Nat))) : (srvCount s x rows).kept = s.kept := by
  simp only [srvCount, ↓kept_foldl, implies_true, ↓kept_with]

@[simp] theorem kept_compStart (s : State) : (compStart s).kept = s.kept := by
  simp only [compStart, ↓kept_wr, ↓kept_setFld, ↓kept_with]

@[simp] theorem kept_compRequest (s : State) : (compRequest s).kept = s.kept := by simp [compRequest]

@[simp] theorem kept_cctlWrite (s : State) (v : Word) : (cctlWrite s v).kept = s.kept := by
  simp only [cctlWrite, ↓kept_setFld, ↓kept_setFlag, ↓kept_compRequest, kept_ite, ite_self]

@[simp] theorem kept_pageSwap (s : State) (first norb : Nat) : (pageSwap s first norb).kept = s.kept := by
  simp only [pageSwap, ↓kept_setFld, ↓kept_devEvent, ↓kept_clearPage, ↓kept_compRequest, ↓kept_with, kept_ite, ite_self]

@[simp] theorem kept_periodBegin (s : State) (x : Nat) : (periodBegin s x).kept = s.kept := by
  simp only [periodBegin, ↓kept_clearPage, ↓kept_with]

@[simp] theorem kept_srvPeriod (s : State) (x : Nat) : (srvPeriod s x).kept = s.kept := by
  unfold srvPeriod
  (repeat' split) <;> simp only [↓kept_pageSwap, ↓kept_periodBegin, ↓kept_with]

@[simp] theorem kept_srvRow (s : State) (x r : Nat) (last : Bool) (taken : Nat) (cells : List (List Nat)) :
    (srvRow s x r last taken cells).kept = s.kept := by
  simp only [srvRow]
  split <;> simp only [↓kept_event, ↓kept_count, ↓kept_srvCount, ↓kept_srvPeriod, ↓kept_with, kept_ite, ite_self]

@[simp] theorem kept_srvCtlWrite (s : State) (v : Word) : (srvCtlWrite s v).kept = s.kept := by
  simp only [srvCtlWrite, ↓kept_setFld, ↓kept_setFlag, ↓kept_clearPage, ↓kept_with, kept_ite, ite_self]

@[simp] theorem kept_pageRead (s : State) : (pageRead s).2.kept = s.kept := by simp only [pageRead, ↓kept_setFld]

@[simp] theorem kept_srvRead (s : State) (a n : Nat) : (srvRead s a n).kept = s.kept := by simp [srvRead]

@[simp] theorem kept_srvStore (s : State) (a : Nat) (bs : List Nat) : (srvStore s a bs).kept = s.kept := by
  simp only [srvStore, ↓kept_errorCompletion, ↓kept_dramStore, ↓kept_foldl, implies_true, kept_ite, ite_self]

@[simp] theorem kept_readImage (s : State) (b : Nat) : (readImage s b).kept = s.kept := by simp [readImage]

@[simp] theorem kept_compPass (c : Comp) (b : Nat) (s : State) (p : Nat) : (compPass c b s p).kept = s.kept := by
  simp only [compPass, ↓kept_srvRead, ↓kept_srvStore, ↓kept_foldl, implies_true, kept_ite, ite_self]

@[simp] theorem kept_compFill (c : Comp) (b : Nat) (s : State) : (compFill c b s).kept = s.kept := by
  simp only [compFill, ↓kept_srvStore, ↓kept_compPass, ↓kept_foldl, implies_true, kept_ite, ite_self]

@[simp] theorem kept_compDraw (c : Comp) (b : Nat) (s : State) : (compDraw c b s).kept = s.kept := by
  simp only [compDraw, ↓kept_fresh, ↓kept_compFill, ↓kept_foldl, implies_true, ↓kept_with, kept_ite, ite_self]

@[simp] theorem kept_cloneElems (q tag : Nat) (l : List (List Nat)) (s : State) : (cloneElems q tag l s).kept = s.kept := by
  induction l generalizing s with
  | nil => rfl
  | cons bs r ih =>
    simp only [cloneElems, ↓kept_ite, ↓ih, ↓kept_ringStore, ↓kept_event, ↓kept_count, ↓kept_qmAdmit, ite_self]

@[simp] theorem kept_cloneFrame (s : State) (seq : Nat) : (cloneFrame s seq).kept = s.kept := by
  simp only [cloneFrame, ↓kept_event, ↓kept_count, ↓kept_readImage, ↓kept_cloneElems, ↓kept_with,
      kept_ite, ite_self]

@[simp] theorem kept_dpTo (s : State) (st : Nat) : (dpTo s st).kept = s.kept := by simp [dpTo]

@[simp] theorem kept_dpPut (s : State) (n : Nat) (txen : Bool) (pat swing preemph rate : Nat) :
    (dpPut s n txen pat swing preemph rate).kept = s.kept := by
  simp only [dpPut, ↓kept_dpWrite]

@[simp] theorem kept_dpStop (s : State) : (dpStop s).kept = s.kept := by simp only [dpStop, ↓kept_setFld, kept_ite, ite_self]

@[simp] theorem kept_dpTrain (s : State) (lanes rate : Nat) : (dpTrain s lanes rate).kept = s.kept := by
  simp only [dpTrain, ↓kept_dpTo, ↓kept_dpPut, ↓kept_dpStop, ↓kept_with, kept_ite, ite_self]

@[simp] theorem kept_dpFast (s : State) : (dpFast s).kept = s.kept := by
  simp only [dpFast, ↓kept_setFld, ↓kept_dpTo, kept_ite, ite_self]

@[simp] theorem kept_dpSend (s : State) (pat : Nat) (drive : BitVec 8) : (dpSend s pat drive).kept = s.kept := by
  simp only [dpSend, ↓kept_dpPut, kept_ite, ite_self]

@[simp] theorem kept_psrExit (s : State) : (psrExit s).kept = s.kept := by simp [psrExit]

@[simp] theorem kept_frameSwap (s : State) (seq : Nat) : (frameSwap s seq).kept = s.kept := by
  simp only [frameSwap, ↓kept_wr, ↓kept_setFld, ↓kept_devEvent, ↓kept_compStart, ↓kept_cloneFrame, ↓kept_psrExit, ↓kept_with,
      kept_ite, ite_self]

@[simp] theorem kept_compDone (s : State) : (compDone s).kept = s.kept := by
  unfold compDone
  split <;> simp only [↓kept_setFld, ↓kept_devEvent, ↓kept_compDraw, ↓kept_frameSwap, ↓kept_with, kept_ite, ite_self]

@[simp] theorem kept_lastSwapRead (s : State) : (lastSwapRead s).2.kept = s.kept := by
  simp only [lastSwapRead, ↓kept_wr, ↓kept_setFld]

@[simp] theorem kept_freezeTest (s : State) : (freezeTest s).kept = s.kept := by
  simp only [freezeTest, ↓kept_event, ↓kept_raiseLine, ↓kept_with, kept_ite, ite_self]

@[simp] theorem kept_psrTest (s : State) : (psrTest s).kept = s.kept := by
  simp only [psrTest, ↓kept_dpTo, ↓kept_dpStop, kept_ite, ite_self]

@[simp] theorem kept_scanRead (s : State) : (scanRead s).kept = s.kept := by simp [scanRead]

@[simp] theorem kept_vblank (s : State) : (vblank s).kept = s.kept := by
  simp only [vblank]
  (repeat' split) <;> simp only [↓kept_setFld, ↓kept_event, ↓kept_count, ↓kept_frameSwap, ↓kept_freezeTest, ↓kept_psrTest,
      ↓kept_scanRead, ↓kept_with]

@[simp] theorem kept_underrun (s : State) (x y : Nat) : (underrun s x y).kept = s.kept := by
  simp only [underrun, ↓kept_event, ↓kept_count, ↓kept_with, kept_ite, ite_self]

@[simp] theorem kept_dctlWrite (s : State) (v : Word) : (dctlWrite s v).kept = s.kept := by
  simp only [dctlWrite]
  (repeat' split) <;> simp only [↓kept_wr, ↓kept_dpTo, ↓kept_dpStop, ↓kept_frameSwap, ↓kept_with]

@[simp] theorem kept_hotPlug (s : State) (caps : Word) (edid : List Word) (fast : Bool) : (hotPlug s caps edid fast).kept = s.kept := by
  simp only [hotPlug, ↓kept_wr, ↓kept_setFld, ↓kept_dpTrain, ↓kept_foldl, implies_true, ↓kept_with, kept_ite, ite_self]

@[simp] theorem kept_unplug (s : State) : (unplug s).kept = s.kept := by
  simp only [unplug, ↓kept_setFld, ↓kept_event, ↓kept_dpTo, ↓kept_dpStop, kept_ite, ite_self]

@[simp] theorem kept_irqHpd (s : State) (lost : Bool) : (irqHpd s lost).kept = s.kept := by
  simp only [irqHpd, ↓kept_event, ↓kept_dpTrain, kept_ite, ite_self]

@[simp] theorem kept_trainingStep (s : State) (r : TrainResult) (drive : BitVec 8) : (trainingStep s r drive).kept = s.kept := by
  unfold trainingStep
  (repeat' split) <;> simp only [↓kept_setFld, ↓kept_event, ↓kept_raiseLine, ↓kept_dpTo, ↓kept_dpStop, ↓kept_dpTrain,
      ↓kept_dpSend, kept_ite, ite_self]

@[simp] theorem kept_blitFail (s : State) (code : Nat) : (blitFail s code).kept = s.kept := by simp [blitFail]

@[simp] theorem kept_blitGo (s : State) : (blitGo s).kept = s.kept := by
  simp only [blitGo, ↓kept_setFld, ↓kept_blitFail, ↓kept_with, kept_ite, ite_self]

@[simp] theorem kept_bctlWrite (s : State) (v : Word) : (bctlWrite s v).kept = s.kept := by
  simp only [bctlWrite, ↓kept_setFld, ↓kept_event, ↓kept_blitGo, kept_ite, ite_self]

@[simp] theorem kept_frameLaunch (s : State) (n : Nat) : (frameLaunch s n).kept = s.kept := by
  simp only [frameLaunch, ↓kept_count, ↓kept_setMlane, kept_ite, ite_self]

@[simp] theorem kept_headActs (s : State) (n : Nat) (f : Frame) : (headActs s n f).kept = s.kept := by
  simp only [headActs, ↓kept_count, ↓kept_laneResync, ↓kept_with, kept_ite, ite_self]

@[simp] theorem kept_frameFailed (s : State) (n : Nat) : (frameFailed s n).kept = s.kept := by
  simp only [frameFailed, ↓kept_count, ↓kept_countSrc, ↓kept_setMlane, ↓kept_linkDown, ↓kept_ingFail, kept_ite,
      ite_self]

@[simp] theorem kept_frameGood (s : State) (n : Nat) (f : Frame) : (frameGood s n f).kept = s.kept := by
  simp only [frameGood, ↓kept_setMlane, ↓kept_enterRun, ↓kept_ingPlace, ↓kept_ingRun, ↓kept_decFrame, kept_ite,
      ite_self]

@[simp] theorem kept_frameReceive (s : State) (n : Nat) (f : Frame) : (frameReceive s n f).kept = s.kept := by
  simp only [frameReceive, ↓kept_count, ↓kept_countSrc, ↓kept_setMlane, ↓kept_headActs, ↓kept_frameFailed, ↓kept_frameGood,
      kept_ite, ite_self]

@[simp] theorem kept_lockChange (s : State) (n : Nat) (codeword b : Bool) : (lockChange s n codeword b).kept = s.kept := by
  simp only [lockChange, ↓kept_setMlane, kept_ite, ite_self]

@[simp] theorem kept_ccEnqueue (s : State) (n : Nat) (m : CcMsg) : (ccEnqueue s n m).1.kept = s.kept := by
  simp only [ccEnqueue]
  split <;> simp only [↓kept_ringStore, ↓kept_qmAdmit]

@[simp] theorem kept_ccTake (s : State) (n : Nat) (m : CcMsg) : (ccTake s n m).kept = s.kept := by
  simp only [ccTake, ↓kept_setMlane, ↓kept_ccEnqueue, kept_ite, ite_self]

@[simp] theorem kept_ccReceive (s : State) (n : Nat) (m : CcMsg) : (ccReceive s n m).kept = s.kept := by
  simp only [ccReceive, ↓kept_count, ↓kept_setMlane, ↓kept_linkDown, ↓kept_ccTake, kept_ite, ite_self]

@[simp] theorem kept_heldRetry (n : Nat) (l : List CcMsg) (s : State) : (heldRetry n l s).kept = s.kept := by
  induction l generalizing s with
  | nil => rfl
  | cons m r ih => simp only [heldRetry, ↓kept_ite, ↓ih, ↓kept_setMlane, ↓kept_ccEnqueue, ite_self]

@[simp] theorem kept_heldAll (s : State) : (heldAll s).kept = s.kept := by simp [heldAll]

@[simp] theorem kept_ccSend (s : State) (n : Nat) (m : CcMsg) : (ccSend s n m).kept = s.kept := by
  simp only [ccSend, ↓kept_setMlane, ↓kept_linkDown, kept_ite, ite_self]

@[simp] theorem kept_ccSendNext (s : State) (n : Nat) : (ccSendNext s n).kept = s.kept := by
  simp only [ccSendNext]
  (repeat' split) <;> simp only [↓kept_setMlane, ↓kept_edfCheck, ↓kept_qmStart, ↓kept_ccSend]

@[simp] theorem kept_ccReply (s : State) (n mtype : Nat) (words : List Nat) : (ccReply s n mtype words).kept = s.kept := by
  simp only [ccReply, ↓kept_setMlane]

@[simp] theorem kept_setIrqCore (s : State) (c : Nat) (x : IrqCore) : (State.setIrqCore s c x).kept = s.kept := by
  simp [State.setIrqCore, ↓kept_with]

@[simp] theorem kept_setSrcOf (s : State) (c id : Nat) (x : IrqSrc) : (State.setSrcOf s c id x).kept = s.kept := by
  simp [State.setSrcOf]

@[simp] theorem kept_orderError (s : State) (c : Nat) : (orderError s c).kept = s.kept := by simp [orderError]

@[simp] theorem kept_checkStack (s : State) (c : Nat) : (checkStack s c).kept = s.kept := by
  simp only [checkStack, ↓kept_setIrqCore, ↓kept_orderError, kept_ite, ite_self]

@[simp] theorem kept_irqClaim (s : State) (c : Nat) : (irqClaim s c).2.kept = s.kept := by
  simp only [irqClaim]
  split <;> simp only [↓kept_event, ↓kept_setIrqCore, ↓kept_setSrcOf, ↓kept_checkStack]

@[simp] theorem kept_irqEoi (s : State) (c id : Nat) : (irqEoi s c id).kept = s.kept := by
  simp only [irqEoi]
  split <;> simp only [↓kept_setIrqCore, ↓kept_setSrcOf, ↓kept_orderError, ↓kept_checkStack, kept_ite, ite_self]

@[simp] theorem kept_coalesceTimeout (s : State) (c id : Nat) : (coalesceTimeout s c id).kept = s.kept := by
  simp only [coalesceTimeout, ↓kept_setSrcOf, kept_ite, ite_self]

@[simp] theorem kept_softSet (s : State) (c : Nat) (m : Nat) : (softSet s c m).kept = s.kept := by
  simp only [softSet, ↓kept_setFld, ↓kept_occurPriv, ↓kept_foldl, implies_true]

@[simp] theorem kept_softClear (s : State) (c : Nat) (m : Nat) : (softClear s c m).kept = s.kept := by
  simp only [softClear, ↓kept_setFld, ↓kept_testPriv, ↓kept_foldl, implies_true]

@[simp] theorem kept_mbWrite (s : State) (m j : Nat) (v : Word) : (mbWrite s m j v).kept = s.kept := by simp [mbWrite]

@[simp] theorem kept_mbTake (s : State) (m agent : Nat) : (mbTake s m agent).kept = s.kept := by simp [mbTake]

@[simp] theorem kept_mbSend (s : State) (m agent : Nat) : (mbSend s m agent).kept = s.kept := by
  simp only [mbSend, ↓kept_event, ↓kept_mbTake, ↓kept_with, kept_ite, ite_self]

@[simp] theorem kept_mbAck (s : State) (m : Nat) : (mbAck s m).kept = s.kept := by
  unfold mbAck
  split <;> simp only [↓kept_setFld, ↓kept_setFlag, ↓kept_mbTake, ↓kept_with, kept_ite, ite_self]

@[simp] theorem kept_mbAbort (s : State) (m : Nat) : (mbAbort s m).kept = s.kept := by
  simp only [mbAbort, ↓kept_wr, ↓kept_setFld, ↓kept_event, ↓kept_foldl, implies_true, ↓kept_with, kept_ite, ite_self]

@[simp] theorem kept_mbAbortAll (s : State) (p : Nat → Bool) : (mbAbortAll s p).kept = s.kept := by simp [mbAbortAll]

@[simp] theorem kept_abortNotices (full : List (Nat × Nat)) (s : State) : (abortNotices full s).kept = s.kept := by
  simp [abortNotices]

@[simp] theorem kept_clusterCounts (s : State) (k : Nat) : (clusterCounts s k).kept = s.kept := by
  refine kept_foldl (fun s n => ?_) s
  split
  · simp only [kept_ite, kept_testShared, kept_setShared, ite_self]
  · rfl

@[simp] theorem kept_setTimer (s : State) (n : Nat) (x : TimerX) : (State.setTimer s n x).kept = s.kept := by
  simp [State.setTimer, ↓kept_with]

@[simp] theorem kept_setTval (s : State) (reg : Nat → Nat) (n v : Nat) : (State.setTval s reg n v).kept = s.kept := by
  simp only [State.setTval, ↓kept_wr, kept_ite, ite_self]

@[simp] theorem kept_tmrZero (s : State) (n : Nat) : (tmrZero s n).kept = s.kept := by simp [tmrZero]

@[simp] theorem kept_tmrStart (s : State) (n : Nat) : (tmrStart s n).kept = s.kept := by
  simp only [tmrStart, ↓kept_setFld, ↓kept_setTimer, kept_ite, ite_self]

@[simp] theorem kept_tmrEvent (s : State) (n : Nat) (f : Fld) (ien : Nat) : (tmrEvent s n f ien).kept = s.kept := by
  simp only [tmrEvent, ↓kept_event, ↓kept_withDev, ↓kept_routeDev, implies_true, kept_ite, ite_self]

@[simp] theorem kept_tmrSelf (s : State) (n a : Nat) : (tmrSelf s n a).kept = s.kept := by
  simp only [tmrSelf, ↓kept_tmrZero, ↓kept_tmrStart, kept_ite, ite_self]

@[simp] theorem kept_tmrPart (s : State) (n a : Nat) : (tmrPart s n a).kept = s.kept := by
  simp only [tmrPart, ↓kept_tmrZero, ↓kept_tmrStart, kept_ite, ite_self]

@[simp] theorem kept_tmrStore (s : State) (n : Nat) (lo hi : Word) : (tmrStore s n lo hi).kept = s.kept := by
  simp only [tmrStore, ↓kept_setFld, ↓kept_event, ↓kept_setTimer, ↓kept_tmrEvent, ↓kept_with, kept_ite, ite_self]

@[simp] theorem kept_tmrCapture (s : State) (n : Nat) : (tmrCapture s n).kept = s.kept := by simp [tmrCapture]

@[simp] theorem kept_tmrFollow (s : State) (es : List (Nat × TickEvents)) : (tmrFollow s es).kept = s.kept := by
  simp only [tmrFollow, ↓kept_tmrSelf, ↓kept_tmrPart, ↓kept_tmrCapture, ↓kept_foldl, implies_true, kept_ite, ite_self]

@[simp] theorem kept_tmrFire (s : State) (n : Nat) : (tmrFire s n).kept = s.kept := by simp [tmrFire]

@[simp] theorem kept_tmrMatch (s : State) (n : Nat) : (tmrMatch s n).kept = s.kept := by simp [tmrMatch]

@[simp] theorem kept_tmrTest (s : State) (n : Nat) : (tmrTest s n).kept = s.kept := by simp [tmrTest]

@[simp] theorem kept_tmrTick (s : State) (n : Nat) : (tmrTick s n).1.kept = s.kept := by
  simp only [tmrTick, ↓kept_countSrc, ↓kept_setTval, ↓kept_tmrZero, ↓kept_tmrEvent, ↓kept_tmrFire, kept_ite, ite_self]

@[simp] theorem kept_tmrPrescale (s : State) (n : Nat) (rise : Bool) : (tmrPrescale s n rise).1.kept = s.kept := by
  simp only [tmrPrescale]
  (repeat' split) <;> simp only [↓kept_setTimer, ↓kept_tmrTick]

@[simp] theorem kept_tmrEdge (s : State) (n : Nat) (rise : Bool) (partner : Option Bool) : (tmrEdge s n rise partner).kept =
    s.kept := by
  unfold tmrEdge
  split <;> simp only [↓kept_tmrFollow, ↓kept_tmrPrescale]

@[simp] theorem kept_tmrTrigger (s : State) (n : Nat) (rise : Bool) : (tmrTrigger s n rise).kept = s.kept := by
  unfold tmrTrigger
  (repeat' split) <;> simp only [↓kept_tmrCapture]

@[simp] theorem kept_tmrWriteVal (s : State) (isCnt : Bool) (n : Nat) (v : Word) : (tmrWriteVal s isCnt n v).kept = s.kept := by
  simp only [tmrWriteVal, ↓kept_wr, ↓kept_setFld, ↓kept_setTimer, ↓kept_tmrTest, kept_ite, ite_self]

@[simp] theorem kept_tmrWritePer (s : State) (n : Nat) (v : Word) : (tmrWritePer s n v).kept = s.kept := by
  simp only [tmrWritePer, ↓kept_wr, ↓kept_setTimer, kept_ite, ite_self]

@[simp] theorem kept_tmrWritePre (s : State) (n : Nat) (v : Word) : (tmrWritePre s n v).kept = s.kept := by simp [tmrWritePre]

@[simp] theorem kept_tmrWriteCtl (s : State) (n : Nat) (v : Word) : (tmrWriteCtl s n v).kept = s.kept := by
  simp only [tmrWriteCtl, ↓kept_wr, ↓kept_event, ↓kept_withDev, ↓kept_tmrStart, implies_true, kept_ite, ite_self]

@[simp] theorem kept_tmrReadCnt (s : State) (n : Nat) : (tmrReadCnt s n).2.kept = s.kept := by
  unfold tmrReadCnt
  (repeat' split) <;> simp only [↓kept_setTimer]

@[simp] theorem kept_tmrPop (s : State) (n : Nat) : (tmrPop s n).kept = s.kept := by
  simp only [tmrPop, ↓kept_setFld, ↓kept_setTimer]

@[simp] theorem kept_tmrReadCap (s : State) (n : Nat) : (tmrReadCap s n).2.kept = s.kept := by
  unfold tmrReadCap
  (repeat' split) <;> simp only [↓kept_setFld, ↓kept_setTimer, ↓kept_tmrStore, ↓kept_tmrPop, ↓kept_with]

@[simp] theorem kept_evClear (s : State) (k : Nat) : (evClear s k).kept = s.kept := by simp [evClear, ↓kept_with]

@[simp] theorem kept_evClearAll (s : State) : (evClearAll s).kept = s.kept := by simp [evClearAll]

@[simp] theorem kept_evSnapshot (s : State) : (evSnapshot s).kept = s.kept := by
  simp only [evSnapshot, ↓kept_wr, ↓kept_setFld, ↓kept_foldl, implies_true, ↓kept_with]

@[simp] theorem kept_evCtlWrite (s : State) (snap clrAll : Bool) : (evCtlWrite s snap clrAll).kept = s.kept := by
  simp only [evCtlWrite, ↓kept_evClearAll, ↓kept_evSnapshot, kept_ite, ite_self]

@[simp] theorem kept_evSelWrite (s : State) (k : Nat) (v : Word) : (evSelWrite s k v).kept = s.kept := by
  simp only [evSelWrite, ↓kept_wr, ↓kept_evClear, ↓kept_with, kept_ite, ite_self]

@[simp] theorem kept_evRead (s : State) (k : Nat) : (evRead s k).2.kept = s.kept := by simp only [evRead, ↓kept_setFld]

@[simp] theorem kept_setThr (s : State) (c t : Nat) (x : Thread) : (State.setThr s c t x).kept = s.kept := by
  simp [State.setThr, ↓kept_with]

@[simp] theorem kept_sepDamage (s : State) (c : Nat) : (sepDamage s c).kept = s.kept := by
  simp only [sepDamage, ↓kept_occurPriv, ↓kept_uncorrected, ↓kept_raiseLine, ↓kept_with]

@[simp] theorem kept_sepUpset (s : State) (c k n : Nat) (e : Upset) : (sepUpset s c k n e).kept = s.kept := by
  unfold sepUpset
  split <;> simp only [↓kept_corrected, ↓kept_with]

@[simp] theorem kept_sepStore (s : State) (k : Nat) (bs : List Nat) : (sepStore s k bs).kept = s.kept := by
  simp only [sepStore, ↓kept_with]

@[simp] theorem kept_iRead (s : State) (c a : Nat) : (iRead s c a).1.kept = s.kept := by
  unfold iRead
  (repeat' split) <;> simp only [↓kept_sepDamage]

@[simp] theorem kept_fetchInto (c t n a : Nat) (s : State) : (fetchInto c t n a s).kept = s.kept := by
  induction n generalizing a s with
  | zero => rfl
  | succ n ih => exact (ih ..).trans ((kept_setThr ..).trans (kept_iRead ..))

@[simp] theorem kept_flushTo (s : State) (c t : Nat) (a : Word) : (flushTo s c t a).kept = s.kept := by
  simp [flushTo]

@[simp] theorem kept_dataStore (s : State) (c a n v : Nat) : (dataStore s c a n v).kept = s.kept := by
  unfold dataStore
  (repeat' split) <;> simp only [↓kept_errorCompletion, ↓kept_dramStore, ↓kept_sepStore]

@[simp] theorem kept_storeDrain (s : State) (c t : Nat) : (storeDrain s c t).kept = s.kept := by
  simp only [storeDrain]
  split <;> simp only [↓kept_setThr, ↓kept_dataStore, kept_ite, ite_self]

@[simp] theorem kept_drainTo (c t n f : Nat) (s : State) : (drainTo c t n f s).kept = s.kept := by
  induction f generalizing s with
  | zero => rfl
  | succ f ih => simp only [drainTo, kept_ite, ih, kept_storeDrain, ite_self]

@[simp] theorem kept_drainAll (s : State) (c t : Nat) : (drainAll s c t).kept = s.kept := by simp [drainAll]

@[simp] theorem kept_storePush (s : State) (c t a n v : Nat) : (storePush s c t a n v).kept = s.kept := by
  simp only [storePush, ↓kept_setThr, ↓kept_drainTo]

@[simp] theorem kept_dataCheck (s : State) (c : Nat) (sw : Word) (a n : Nat) : (dataCheck s c sw a n).1.kept = s.kept := by
  unfold dataCheck
  (repeat' split) <;> simp only [↓kept_errorCompletion]

@[simp] theorem kept_dataFetch (s : State) (c a n : Nat) (e : Upset) : (dataFetch s c a n e).1.kept = s.kept := by
  simp only [dataFetch]
  (repeat' split) <;> simp only [↓kept_corrected, ↓kept_dramMeet, ↓kept_sepDamage, ↓kept_sepUpset, ↓kept_with]

@[simp] theorem kept_dataRead (s : State) (c t a n : Nat) (e : Upset) : (dataRead s c t a n e).1.kept = s.kept := by
  unfold dataRead
  split <;> simp only [↓kept_drainAll, ↓kept_dataFetch]

@[simp] theorem kept_setDctlBit (s : State) (c b : Nat) (v : Bool) : (setDctlBit s c b v).kept = s.kept := by simp [setDctlBit]

@[simp] theorem kept_haltRequest (s : State) (c : Nat) (ts : List Nat) : (haltRequest s c ts).kept = s.kept := by
  simp [haltRequest]

@[simp] theorem kept_haltEffect (s : State) (c t : Nat) : (haltEffect s c t).kept = s.kept := by
  simp only [haltEffect, ↓kept_setThr, ↓kept_setDctlBit, kept_ite, ite_self]

@[simp] theorem kept_resumeThread (s : State) (c : Nat) (step : Bool) (t : Nat) : (resumeThread s c step t).kept = s.kept := by
  simp only [resumeThread, ↓kept_setThr, ↓kept_setDctlBit, kept_ite, ite_self]

@[simp] theorem kept_stepEnd (s : State) (c t : Nat) : (stepEnd s c t).kept = s.kept := by
  simp only [stepEnd, ↓kept_setThr, ↓kept_setDctlBit, kept_ite, ite_self]

@[simp] theorem kept_sepDctlWrite (s : State) (c : Nat) (v : Word) : (sepDctlWrite s c v).kept = s.kept := by
  simp only [sepDctlWrite, ↓kept_setFld, ↓kept_haltRequest, ↓kept_resumeThread, ↓kept_foldl, implies_true]

@[simp] theorem kept_sepTctlWrite (s : State) (c t : Nat) (v : Word) : (sepTctlWrite s c t v).kept = s.kept := by
  simp only [sepTctlWrite, ↓kept_setFld, ↓kept_event, ↓kept_setThr, ↓kept_flushTo, kept_ite, ite_self]

@[simp] theorem kept_threadRun (s : State) (c t : Nat) (i : ThreadInit) : (threadRun s c t i).kept = s.kept := by
  simp only [threadRun, ↓kept_setThr, ↓kept_flushTo, kept_ite, ite_self]

@[simp] theorem kept_dbgWrite (s : State) (c t i : Nat) (v : Word) : (dbgWrite s c t i v).kept = s.kept := by
  unfold dbgWrite
  split <;> simp only [↓kept_setThr, ↓kept_flushTo, kept_ite, ite_self]

@[simp] theorem kept_dbgAccess (s : State) (c : Nat) (write : Option Word) : (dbgAccess s c write).2.kept = s.kept := by
  simp only [dbgAccess]
  (repeat' split) <;> simp only [↓kept_event, ↓kept_dbgWrite]

@[simp] theorem kept_memdAccess (s : State) (c : Nat) (write : Option Word) (e : Upset) : (memdAccess s c write e).2.kept = s.kept := by
  simp only [memdAccess]
  (repeat' split) <;> simp only [↓kept_setFld, ↓kept_event, ↓kept_sepDamage, ↓kept_sepUpset, ↓kept_sepStore]

@[simp] theorem kept_sepClear (s : State) (k : Nat) : (sepClear s k).kept = s.kept := by simp only [sepClear, ↓kept_with]

@[simp] theorem kept_setVoice (s : State) (v : Nat) (x : Voice) : (State.setVoice s v x).kept = s.kept := by
  simp [State.setVoice, ↓kept_with]

@[simp] theorem kept_setBus (s : State) (b : Nat) (x : Bus) : (State.setBus s b x).kept = s.kept := by
  simp [State.setBus, ↓kept_with]

@[simp] theorem kept_voxDamage (s : State) : (voxDamage s).kept = s.kept := by simp [voxDamage]

@[simp] theorem kept_voiceStart (s : State) (v : Nat) : (voiceStart s v).kept = s.kept := by
  simp only [voiceStart, ↓kept_setVoice, kept_ite, ite_self]

@[simp] theorem kept_voiceStartWrite (s : State) (v : Nat) : (voiceStartWrite s v).kept = s.kept := by
  simp only [voiceStartWrite, ↓kept_setVoice, ↓kept_voiceStart, kept_ite, ite_self]

@[simp] theorem kept_voiceStop (s : State) (v : Nat) : (voiceStop s v).kept = s.kept := by
  simp only [voiceStop, ↓kept_setVoice, kept_ite, ite_self]

@[simp] theorem kept_voiceDue (s : State) (v : Nat) : (voiceDue s v).kept = s.kept := by
  simp only [voiceDue, ↓kept_setVoice, kept_ite, ite_self]

@[simp] theorem kept_voiceSample (p : State × Int) (v : Nat) : (voiceSample p v).1.kept = p.1.kept := by
  unfold voiceSample
  extract_lets s
  split
  · simp only [↓kept_ite, ↓kept_voxDamage, ite_self]
    exact kept_voiceDue ..
  · exact kept_voiceDue ..

@[simp] theorem kept_busInput (b : Nat) (p : State × Int) (j : Nat) : (busInput b p j).1.kept = p.1.kept := by
  unfold busInput
  extract_lets s
  split
  · rfl
  · extract_lets x
    split
    · rfl
    · split <;> rfl

@[simp] theorem kept_busSection (b : Nat) (p : State × Int) (k : Nat) : (busSection b p k).1.kept = p.1.kept := by
  simp only [busSection, ↓kept_foldl, kept_voxDamage, implies_true, kept_setBus]

@[simp] theorem kept_meterPeak (s : State) (b m : Nat) : (meterPeak s b m).kept = s.kept := by
  simp only [meterPeak, ↓kept_setBus, kept_ite, ite_self]

@[simp] theorem kept_meterRms (s : State) (b m : Nat) : (meterRms s b m).kept = s.kept := by
  simp only [meterRms, ↓kept_setBus]

@[simp] theorem kept_showMeter (s : State) (b : Nat) : (showMeter s b).kept = s.kept := by simp [showMeter]

@[simp] theorem kept_busFinish (s : State) (b : Nat) (acc : Int) : (busFinish s b acc).kept = s.kept := by
  simp only [busFinish, ↓kept_setFld, ↓kept_event, ↓kept_count, ↓kept_setBus, ↓kept_meterPeak, ↓kept_meterRms, ↓kept_showMeter,
      kept_ite, ite_self]

@[simp] theorem kept_busSample (s : State) (b corr : Nat) : (busSample s b corr).kept = s.kept := by
  simp only [busSample, ↓kept_ite, ↓kept_busFinish, ↓kept_foldl_fst, kept_busSection, kept_busInput, kept_voiceSample,
    implies_true,
    kept_corrected, ite_self]

@[simp] theorem kept_busTick (s : State) (b corr : Nat) : (busTick s b corr).kept = s.kept := by simp [busTick]

@[simp] theorem kept_busDeliver (s : State) (b : Nat) : (busDeliver s b).kept = s.kept := by
  simp only [busDeliver]
  split <;> simp only [↓kept_setBus, ↓kept_foldl, implies_true, ↓kept_with, kept_ite, ite_self]

@[simp] theorem kept_peakClear (s : State) (b : Nat) : (peakClear s b).kept = s.kept := by simp [peakClear]

@[simp] theorem kept_voxSlot (s : State) : (voxSlot s).1.kept = s.kept := by
  unfold voxSlot
  split <;> simp only [↓kept_voiceStart, ↓kept_foldl, implies_true]

@[simp] theorem kept_voxSlotSamples (s : State) : (voxSlotSamples s).kept = s.kept := by
  simp only [voxSlotSamples, ↓kept_busSample, ↓kept_foldl, implies_true, kept_ite, ite_self]

@[simp] theorem kept_voxRun (s : State) : (voxRun s).kept = s.kept := by
  simp only [voxRun, ↓kept_voiceStart, ↓kept_showMeter, ↓kept_foldl, implies_true, ↓kept_with, kept_ite, ite_self]

@[simp] theorem kept_setUp (s : State) (d : Nat) (b : Bool) : (setUp s d b).kept = s.kept := by simp [setUp]

@[simp] theorem kept_dropRegs (s : State) (d : Nat) : (dropRegs s d).kept = s.kept := by simp only [dropRegs, ↓kept_with]

@[simp] theorem kept_dropLane (s : State) (n : Nat) : (dropLane s n).kept = s.kept := by
  simp only [dropLane, ↓kept_laneReset, ↓kept_linkDown, ↓kept_with, kept_ite, ite_self]

@[simp] theorem kept_dropDram (s : State) (c : Nat) : (dropDram s c).kept = s.kept := by
  simp only [dropDram, ↓kept_setFlag, ↓kept_with]

@[simp] theorem kept_dropCluster (s : State) (k : Nat) : (dropCluster s k).kept = s.kept := by
  simp only [dropCluster, ↓kept_mbAbortAll, ↓kept_sepClear, ↓kept_with]

@[simp] theorem kept_dropRouter (s : State) : (dropRouter s).kept = s.kept := by
  simp only [dropRouter, ↓kept_abortNotices, ↓kept_dropRegs, ↓kept_with]

@[simp] theorem kept_dropAnalogue (s : State) : (dropAnalogue s).kept = s.kept := by
  simp only [dropAnalogue, ↓kept_setLoop, ↓kept_foldl, implies_true, ↓kept_with]

@[simp] theorem kept_dropLoops (s : State) : (dropLoops s).kept = s.kept := by simp only [dropLoops, ↓kept_with]

@[simp] theorem kept_dropPins (s : State) : (dropPins s).kept = s.kept := by
  simp only [dropPins, ↓kept_with]

@[simp] theorem kept_dropDomain (s : State) (d : Nat) : (dropDomain s d).kept = s.kept := by
  unfold dropDomain
  (repeat' split) <;> simp only [↓kept_anyQ, ↓kept_mbAbortAll, ↓kept_setUp, ↓kept_dropRegs, ↓kept_dropLane, ↓kept_dropDram,
      ↓kept_dropCluster, ↓kept_dropRouter, ↓kept_dropAnalogue, ↓kept_dropLoops, ↓kept_dropPins, ↓kept_with]

@[simp] theorem kept_retest (s : State) : (retest s).kept = s.kept := by
  refine kept_foldl (fun s n => ?_) s
  split
  · exact kept_testShared ..
  · rfl

@[simp] theorem kept_releaseDomain (vdet : Nat) (s : State) (d : Nat) : (releaseDomain vdet s d).kept = s.kept := by
  simp only [releaseDomain, ↓kept_setFld, ↓kept_raiseLine, ↓kept_raiseIf, ↓kept_relatch, ↓kept_laneBringUp, ↓kept_cmpSenseAll,
      ↓kept_clusterCounts, ↓kept_setUp, ↓kept_withRst, kept_ite, ite_self]

@[simp] theorem kept_showSeq (s : State) (step : Nat) : (showSeq s step).kept = s.kept := by simp [showSeq]

@[simp] theorem kept_domainRelease (s : State) (vdet : Nat) : (domainRelease s vdet).kept = s.kept := by
  unfold domainRelease
  split <;> simp only [↓kept_releaseDomain, ↓kept_showSeq, ↓kept_foldl, implies_true, ↓kept_withRst, kept_ite,
      ite_self]

@[simp] theorem kept_railTimeout (s : State) (d : Nat) : (railTimeout s d).kept = s.kept := by
  simp only [railTimeout, ↓kept_event, ↓kept_raiseLine, ↓kept_dropDomain, ↓kept_withRst, kept_ite, ite_self]

@[simp] theorem kept_trimRewrite (s : State) : (trimRewrite s).kept = s.kept := by
  simp only [trimRewrite, ↓kept_with]

@[simp] theorem kept_trimLoad (s : State) (a b : Bool) : (trimLoad s a b).kept = s.kept := by
  simp only [trimLoad, ↓kept_setFld, ↓kept_event, ↓kept_raiseLine, ↓kept_trimRewrite, ↓kept_withRst, kept_ite,
      ite_self]

@[simp] theorem kept_showStraps (s : State) : (showStraps s).kept = s.kept := by simp [showStraps]

@[simp] theorem pending_allReset (s : State) : (allReset s).pending = s.pending := by rfl

@[simp] theorem pending_powerOn (s : State) (straps : Nat) : (powerOn s straps).pending = s.pending := by rfl

@[simp] theorem kept_supplyLoss (s : State) (rail : Nat) : (supplyLoss s rail).kept = s.kept := by
  unfold supplyLoss
  split
  · exact (kept_setUp ..).trans rfl
  · rfl

@[simp] theorem kept_wideReset (s : State) (cause : Nat) : (wideReset s cause).kept = s.kept := by
  unfold wideReset
  split
  · rfl
  · simp only [↓kept_abortNotices, ↓kept_setFld, ↓kept_showStraps]
    rfl

@[simp] theorem kept_stopImage (s : State) : (stopImage s).kept = s.kept := by
  simp only [stopImage, ↓kept_setFld, ↓kept_event, ↓kept_foldl, implies_true, ↓kept_with, kept_ite, ite_self]

@[simp] theorem kept_narrowDomains (s : State) : (narrowDomains s).kept = s.kept := by
  unfold narrowDomains
  generalize 90 :: _ = l
  simp only [↓kept_showSeq, ↓kept_withRst, ↓kept_with, ↓kept_stopImage, ↓kept_foldl, kept_dropDomain, implies_true]

@[simp] theorem kept_narrowReset (s : State) (cause : Nat) : (narrowReset s cause).kept = s.kept := by simp [narrowReset]

@[simp] theorem kept_escalate (s : State) : (escalate s).kept = s.kept := by
  simp only [escalate, ↓kept_setFld, ↓kept_relatch, ↓kept_retest, ↓kept_narrowReset, ↓kept_with, kept_ite, ite_self]

@[simp] theorem kept_rstCmd (s : State) (code op : Nat) : (rstCmd s code op).kept = s.kept := by
  unfold rstCmd
  (repeat' split) <;> simp only [↓kept_event, ↓kept_wideReset, ↓kept_narrowReset]

@[simp] theorem kept_functionReset (s : State) : (functionReset s).kept = s.kept := by
  simp only [functionReset, ↓kept_with, kept_ite, ite_self]

@[simp] theorem kept_perst (s : State) : (perst s).kept = s.kept := by simp only [perst, ↓kept_functionReset, ↓kept_with]

@[simp] theorem kept_linkTrained (s : State) (bme msixEn fmask : Bool) : (linkTrained s bme msixEn fmask).kept = s.kept := by
  simp [linkTrained, ↓kept_with]

@[simp] theorem kept_wdStageEnd (s : State) : (wdStageEnd s).kept = s.kept := by
  simp only [wdStageEnd, ↓kept_raiseLine, ↓kept_wdStage, ↓kept_wideReset, kept_ite, ite_self]

@[simp] theorem kept_storeMeet (s : State) (a n : Nat) : (storeMeet s a n).kept = s.kept := by simp [storeMeet]

@[simp] theorem kept_slotsRecord (s : State) : (slotsRecord s).kept = s.kept := by
  simp only [slotsRecord, ↓kept_journalAppend]

@[simp] theorem kept_setSlot (s : State) (i st : Nat) : (setSlot s i st).kept = s.kept := by
  simp only [setSlot, ↓kept_setFld, ↓kept_slotsRecord, kept_ite, ite_self]

@[simp] theorem kept_checkSlot (s : State) (i : Nat) (fail : Bool) : (checkSlot s i fail).1.kept = s.kept := by
  simp only [checkSlot]
  split <;> simp only [↓kept_setFld, ↓kept_event, ↓kept_storeMeet, ↓kept_setSlot]

@[simp] theorem kept_storeHit (s : State) (bad : List (BitVec 22)) : (storeHit s bad).kept = s.kept := by
  simp [storeHit, ↓kept_with]

@[simp] theorem kept_wordAccess (s : State) : (wordAccess s).2.2.kept = s.kept := by simp only [wordAccess, ↓kept_setFld]

@[simp] theorem kept_imgWrite (s : State) (v : Word) : (imgWrite s v).kept = s.kept := by
  simp only [imgWrite, ↓kept_event, ↓kept_setSlot, ↓kept_wordAccess, ↓kept_with, kept_ite, ite_self]

@[simp] theorem kept_readHit (s : State) (bad : Bool) : (readHit s bad).kept = s.kept := by
  simp only [readHit, ↓kept_with, kept_ite, ite_self]

@[simp] theorem kept_imgRead (s : State) : (imgRead s).2.kept = s.kept := by
  simp only [imgRead]
  (repeat' split) <;> simp only [↓kept_event, ↓kept_raiseLine, ↓kept_fresh, ↓kept_wordAccess]

@[simp] theorem kept_imgVerify (s : State) (i : Nat) : (imgVerify s i).kept = s.kept := by
  simp only [imgVerify, ↓kept_setFld, ↓kept_event, ↓kept_with, kept_ite, ite_self]

@[simp] theorem kept_goldenLock (s : State) (i : Nat) : (goldenLock s i).kept = s.kept := by
  simp only [goldenLock, ↓kept_setFld, ↓kept_event, ↓kept_with, kept_ite, ite_self]

@[simp] theorem kept_gblTo (s : State) (st : Nat) : (gblTo s st).kept = s.kept := by simp [gblTo]

@[simp] theorem kept_countStart (s : State) : (countStart s).kept = s.kept := by
  simp only [countStart, ↓kept_setFld, ↓kept_journalAppend]

@[simp] theorem kept_waitImage (s : State) (boot : Bool) : (waitImage s boot).kept = s.kept := by
  simp only [waitImage, ↓kept_setFld, ↓kept_releaseDomain, ↓kept_gblTo, ↓kept_with, kept_ite, ite_self]

@[simp] theorem kept_loadNext (s : State) (boot : Bool) (x0 : List (Nat × Bool)) : (loadNext s boot x0).kept = s.kept := by
  unfold loadNext
  split <;> simp [↓kept_with]

@[simp] theorem kept_startWith (s : State) (order : List (Nat × Bool)) : (startWith s order).kept = s.kept := by
  simp [startWith]

@[simp] theorem kept_recovery (s : State) : (recovery s).kept = s.kept := by simp [recovery, ↓kept_with]

@[simp] theorem kept_judgeCandidate (s : State) : (judgeCandidate s).kept = s.kept := by
  simp only [judgeCandidate]
  (repeat' split) <;> simp only [↓kept_setSlot, ↓kept_with]

@[simp] theorem kept_restoreJournal (s : State) : (restoreJournal s).kept = s.kept := by
  simp only [restoreJournal, ↓kept_setFld, ↓kept_storeMeet, ↓kept_judgeCandidate]

@[simp] theorem kept_spiCopy (s : State) (i : Nat) (flash : List Nat) : (spiCopy s i flash).kept = s.kept := by
  simp only [spiCopy, ↓kept_setSlot, ↓kept_with]

@[simp] theorem kept_spiStart (s : State) (flash : List Nat) (fail : Bool) : (spiStart s flash fail).kept = s.kept := by
  simp only [spiStart, ↓kept_checkSlot, ↓kept_startWith, ↓kept_spiCopy, kept_ite, ite_self]

@[simp] theorem kept_imageStart (s : State) (flash : List Nat) (fail : Bool) : (imageStart s flash fail).kept = s.kept := by
  simp only [imageStart]
  (repeat' split) <;> simp only [↓kept_waitImage, ↓kept_startWith, ↓kept_recovery, ↓kept_restoreJournal, ↓kept_spiStart]

@[simp] theorem kept_activateNow (s : State) (i : Nat) : (activateNow s i).kept = s.kept := by
  simp only [activateNow, ↓kept_narrowReset, ↓kept_startWith, ↓kept_judgeCandidate]

@[simp] theorem kept_imgActivate (s : State) (i : Nat) : (imgActivate s i).kept = s.kept := by
  simp only [imgActivate, ↓kept_setFld, ↓kept_event, ↓kept_activateNow, ↓kept_with, kept_ite, ite_self]

@[simp] theorem kept_activateBoundary (s : State) : (activateBoundary s).kept = s.kept := by
  unfold activateBoundary
  split <;> simp only [↓kept_activateNow]

@[simp] theorem kept_lnkCfgWord (s : State) (n : Nat) (v : Word) : (lnkCfgWord s n v).kept = s.kept := by
  simp only [lnkCfgWord, ↓kept_wr, ↓kept_laneReset, kept_ite, ite_self]

theorem kept_onReg {s : State} {off base stride n : Nat} {f : Nat → State} (hf : ∀ k, (f k).kept = s.kept) :
    ∀ t, onReg off base stride n f = some t → t.kept = s.kept := by
  rintro t h
  obtain ⟨k, -, rfl⟩ := Option.map_eq_some_iff.1 h
  exact hf k

theorem kept_orElse {s : State} {o p : Option State} (ho : ∀ t, o = some t → t.kept = s.kept)
    (hp : ∀ t, p = some t → t.kept = s.kept) : ∀ t, (o <|> p) = some t → t.kept = s.kept := by
  cases o with
  | none => simpa using hp
  | some u => simpa using ho

theorem kept_getD {s u : State} {o : Option State} (ho : ∀ t, o = some t → t.kept = s.kept) (hu : u.kept = s.kept) :
    (o.getD u).kept = s.kept := by
  cases o with
  | none => exact hu
  | some t => exact ho t rfl

@[simp] theorem kept_structWord (s : State) (o w : Nat) : (structWord s o w).kept = s.kept := by
  unfold structWord
  extract_lets v
  split
  · rfl
  · split
    · simp only [↓kept_ite, ↓kept_generatorStart, ↓kept_wr, ite_self]
    · refine kept_getD (kept_orElse (kept_onReg fun n => kept_lnkCfgWord ..) (kept_orElse (kept_onReg fun n => kept_txPreWrite ..)
        (kept_orElse (kept_onReg fun n => kept_txMainWrite ..) (kept_onReg fun n => kept_rxeqWrite ..)))) (kept_wr ..)

@[simp] theorem kept_bankWord (s : State) (o w : Nat) : (bankWord s o w).kept = s.kept := by
  unfold bankWord
  (repeat' split) <;> simp only [↓kept_wr, ↓kept_wrStaged, ↓kept_with]

@[simp] theorem kept_applySection (m : List Host.Cell) (b : Nat) (p k : Nat → Bool) (s : State) (x : Section) :
    (applySection m b p k s x).kept = s.kept := by
  unfold applySection
  split
  · exact kept_foldl (fun s e => by simp only [kept_ite, kept_structWord, ite_self]) s
  · exact kept_foldl (fun s e => by simp only [kept_ite, kept_bankWord, ite_self]) s
  · exact kept_foldl (fun s e => by simp only [kept_ite, ↓kept_with, ite_self]) s
  · extract_lets t
    split
    · refine kept_foldl (fun s e => ?_) s
      split
      · exact kept_sepStore ..
      · rfl
    · rfl
  · rfl

@[simp] theorem kept_applySections (m : List Host.Cell) (b : Nat) (p k : Nat → Bool) (s : State) :
    (applySections m b p k s).kept = s.kept := by
  simp [applySections]

@[simp] theorem kept_applyUntil (m : List Host.Cell) (b : Nat) (s : State) (l : List Section) : (applyUntil m b s l).kept =
  s.kept := by
  induction l generalizing s with
  | nil => rfl
  | cons x xs ih => simp only [applyUntil, kept_ite, ih, kept_applySection, ite_self]

@[simp] theorem kept_setResult (s : State) (i r : Nat) : (setResult s i r).kept = s.kept := by simp [setResult]

@[simp] theorem kept_showPlan (s : State) (p : Nat → Bool) : (showPlan s p).kept = s.kept := by simp [showPlan]

@[simp] theorem kept_beginApply (s : State) (i : Nat) (cand : Bool) (rest : List (Nat × Bool)) : (beginApply s i cand rest).kept
    = s.kept := by
  simp only [beginApply, ↓kept_setFld, ↓kept_setFlag, ↓kept_showSeq, ↓kept_gblTo, ↓kept_showPlan, ↓kept_withRst]

@[simp] theorem kept_checkDone (s : State) : (checkDone s).kept = s.kept := by
  unfold checkDone
  split <;> simp only [↓kept_setFld, ↓kept_setSlot, ↓kept_checkSlot, ↓kept_loadNext, ↓kept_applySections, ↓kept_beginApply,
      ↓kept_with, kept_ite, ite_self]

@[simp] theorem kept_putBank (s : State) (b : BankImage) (p : Nat → Bool) (sramToo : Bool) : (putBank s b p sramToo).kept = s.kept := by
  simp only [putBank, ↓kept_with, kept_ite, ite_self]

@[simp] theorem kept_restoreBank (s : State) (imgid : Nat) (p : Nat → Bool) (sramToo : Bool) :
    (restoreBank s imgid p sramToo).kept = s.kept := by
  simp only [restoreBank]
  split <;> simp only [↓kept_event, ↓kept_raiseLine, ↓kept_storeMeet, ↓kept_putBank, ↓kept_foldl, implies_true, kept_ite, ite_self]

@[simp] theorem kept_clusterRun (s : State) (imgid k : Nat) : (clusterRun s imgid k).kept = s.kept := by
  simp only [clusterRun, ↓kept_threadRun, ↓kept_foldl, implies_true, kept_ite, ite_self]

@[simp] theorem kept_runBlocks (s : State) (imgid : Nat) : (runBlocks s imgid).kept = s.kept := by
  simp only [runBlocks, ↓kept_laneBringUp, ↓kept_policeFlip, ↓kept_avsStart, ↓kept_assignPairs, ↓kept_cvlRun, ↓kept_pinsStart,
      ↓kept_voxRun, ↓kept_clusterRun, ↓kept_foldl, implies_true, ↓kept_with, kept_ite, ite_self]

@[simp] theorem kept_flattenAll (s : State) : (flattenAll s).kept = s.kept := by simp [flattenAll]

@[simp] theorem kept_reachRun (s : State) (i : Nat) : (reachRun s i).kept = s.kept := by
  simp only [reachRun, ↓kept_setFld, ↓kept_setFlag, ↓kept_bankCheck, ↓kept_clusterCounts, ↓kept_retest, ↓kept_gblTo,
      ↓kept_applySections, ↓kept_restoreBank, ↓kept_runBlocks, ↓kept_flattenAll, ↓kept_foldl, implies_true, ↓kept_with,
      kept_ite, ite_self]

@[simp] theorem kept_imageRun (s : State) : (imageRun s).kept = s.kept := by
  unfold imageRun
  split <;> simp only [↓kept_errorCompletion, ↓kept_narrowDomains, ↓kept_loadNext, ↓kept_applyUntil, ↓kept_setResult,
      ↓kept_reachRun, kept_ite, ite_self]

@[simp] theorem kept_startOk (s : State) (code : Nat) : (startOk s code).kept = s.kept := by
  simp only [startOk, ↓kept_setFld, ↓kept_event, ↓kept_journalAppend, ↓kept_requestCommit, kept_ite, ite_self]

@[simp] theorem kept_startOkTimeout (s : State) : (startOkTimeout s).kept = s.kept := by
  simp only [startOkTimeout, ↓kept_event, ↓kept_with, kept_ite, ite_self]

@[simp] theorem kept_commitBank (s : State) (b : BankImage) (imgid orbit : Nat) : (commitBank s b imgid orbit).kept = s.kept := by
  simp only [commitBank, ↓kept_setFld, ↓kept_journalAppend, ↓kept_with]

@[simp] theorem kept_commitImage (s : State) (i : Nat) : (commitImage s i).kept = s.kept := by
  unfold commitImage
  split <;> simp only [↓kept_setFld, ↓kept_setSlot, ↓kept_with]

@[simp] theorem kept_commitDone (s : State) (ok : Bool) : (commitDone s ok).kept = s.kept := by
  unfold commitDone
  (repeat' split) <;> simp only [↓kept_setFlag, ↓kept_event, ↓kept_commitBank, ↓kept_commitImage, ↓kept_with]

@[simp] theorem kept_domainCmd (s : State) (code op d : Nat) : (domainCmd s code op d).kept = s.kept := by
  simp only [domainCmd, ↓kept_event, ↓kept_withRst, kept_ite, ite_self]

@[simp] theorem kept_domainOpStart (s : State) (vdet : Nat) : (domainOpStart s vdet).kept = s.kept := by
  unfold domainOpStart
  split <;> simp only [↓kept_setFld, ↓kept_dropDomain, ↓kept_retest, ↓kept_releaseDomain, ↓kept_gblTo, ↓kept_withRst, kept_ite, ite_self]

@[simp] theorem kept_reloadDone (s : State) : (reloadDone s).kept = s.kept := by
  unfold reloadDone
  split <;> simp only [↓kept_setFld, ↓kept_laneBringUp, ↓kept_policeFlip, ↓kept_cvlRun, ↓kept_pinsStart, ↓kept_bankCheck,
      ↓kept_voxRun, ↓kept_retest, ↓kept_gblTo, ↓kept_applySections, ↓kept_restoreBank, ↓kept_clusterRun, ↓kept_with,
      ↓kept_withRst, kept_ite, ite_self]

end Sys2Proof.Machine
end

section
/-! SUPPORT. The bus, the accesses and the instants keep the commands that wait and the straps (O6, O7). -/
namespace Sys2Proof.Machine

@[simp] theorem kept_boundaryRecords (s : State) (orb ps len : Nat) : (boundaryRecords s orb ps len).kept = s.kept := by
  simp only [boundaryRecords, ↓kept_publishSentinels, ↓kept_periodMeasure, ↓kept_avsAdjust]

@[simp] theorem kept_boundaryFlip (s : State) (odd : Bool) : (boundaryFlip s odd).kept = s.kept := by
  simp only [boundaryFlip, ↓kept_policeFlip, ↓kept_flipBoundary, ↓kept_cvlFlip, ↓kept_decFlip, ↓kept_foldl, implies_true,
      kept_ite, ite_self]

@[simp] theorem kept_boundarySafe (s : State) (k : Boundary) : (boundarySafe s k).kept = s.kept := by
  simp only [boundarySafe, ↓kept_safeExit, ↓kept_noteHeld, ↓kept_noteForced, kept_ite, ite_self]

@[simp] theorem kept_orbitActs (s : State) (k : Boundary) : (orbitActs s k).kept = s.kept := by
  simp only [orbitActs, ↓kept_countSrc, ↓kept_laneBoundary, ↓kept_ingBoundary, ↓kept_pedBoundary, ↓kept_settle,
      ↓kept_decBoundary, ↓kept_activateBoundary, ↓kept_boundaryFlip, ↓kept_boundarySafe, ↓kept_foldl, implies_true]

@[simp] theorem kept_boundaryActs (s : State) (k : Boundary) (orb ps len : Nat) : (boundaryActs s k orb ps len).kept = s.kept := by
  simp [boundaryActs]

@[simp] theorem kept_streamSlot (s : State) (st : Nat) : (streamSlot s st).kept = s.kept := by
  simp only [streamSlot]
  split <;> simp only [↓kept_streamEdge, ↓kept_roRequest, kept_ite, ite_self]

@[simp] theorem kept_handoverSlot (s : State) : (handoverSlot s).kept = s.kept := by
  simp only [handoverSlot, ↓kept_handover, ↓kept_condHandover, ↓kept_decHandover, ↓kept_roLanes, kept_ite, ite_self]

@[simp] theorem kept_openSlot (s : State) : (openSlot s).kept = s.kept := by simp [openSlot]

@[simp] theorem kept_commandSlot (s : State) (voices : List Nat) : (commandSlot s voices).kept = s.kept := by
  unfold commandSlot
  split <;> simp only [↓kept_fcDue, ↓kept_rasterCommands]

@[simp] theorem kept_pruneSlot (s : State) : (pruneSlot s).kept = s.kept := by simp only [pruneSlot, ↓kept_with]

@[simp] theorem kept_slotActs (s : State) : (slotActs s).kept = s.kept := by
  simp only [slotActs, ↓kept_countSrc, ↓kept_voidClose, ↓kept_commitPoint, ↓kept_copyStart, ↓kept_closeWindow, ↓kept_ingOpen,
      ↓kept_cvlSlot, ↓kept_decPinSample, ↓kept_dmaCredit, ↓kept_voxSlot, ↓kept_voxSlotSamples, ↓kept_streamSlot,
      ↓kept_handoverSlot, ↓kept_openSlot, ↓kept_commandSlot, ↓kept_pruneSlot, ↓kept_foldl, implies_true, kept_ite, ite_self]

@[simp] theorem kept_slotEdge (s : State) (dt : Nat) (mark : Bool) : (slotEdge s dt mark).kept = s.kept := by
  simp only [slotEdge]
  (repeat' split) <;> simp only [↓kept_tbEdge, ↓kept_releaseReplays, ↓kept_boundaryActs, ↓kept_slotActs]

@[simp] theorem kept_firstSlot (s : State) : (firstSlot s).kept = s.kept := by
  simp only [firstSlot, ↓kept_firstEdge, ↓kept_orbitActs, ↓kept_slotActs]

@[simp] theorem kept_meetDamaged (s : State) (off : Nat) : (meetDamaged s off).kept = s.kept := by
  unfold meetDamaged
  split <;> simp only [↓kept_event, ↓kept_uncorrected, ↓kept_raiseLine, kept_ite, ite_self]

@[simp] theorem kept_xidRead (s : State) : (xidRead s).2.kept = s.kept := by simp [xidRead]

@[simp] theorem kept_rtimeRead (s : State) : (rtimeRead s).2.kept = s.kept := by simp [rtimeRead]

@[simp] theorem kept_snapRead (s : State) : (snapRead s).2.kept = s.kept := by simp [snapRead]

theorem kept_onReg_snd {s : State} {off base stride n : Nat} {f : Nat → Word × State} (hf : ∀ k, (f k).2.kept = s.kept) :
    ∀ r, onReg off base stride n f = some r → r.2.kept = s.kept := by
  rintro r h
  obtain ⟨k, -, rfl⟩ := Option.map_eq_some_iff.1 h
  exact hf k

theorem kept_orElse_snd {s : State} {o p : Option (Word × State)} (ho : ∀ r, o = some r → r.2.kept = s.kept)
    (hp : ∀ r, p = some r → r.2.kept = s.kept) : ∀ r, (o <|> p) = some r → r.2.kept = s.kept := by
  cases o with
  | none => simpa using hp
  | some u => simpa using ho

theorem kept_readActs {s : State} {off : Nat} : ∀ r, s.readActs off = some r → r.2.kept = s.kept := by
  unfold State.readActs
  split
  case h_3 => exact kept_onReg_snd fun k => kept_sentRead ..
  case h_4 => exact kept_onReg_snd fun k => kept_pidRead ..
  case h_7 =>
    split
    · rintro _ ⟨⟩; exact kept_snapRead s
    · exact kept_orElse_snd (kept_onReg_snd fun k => kept_tmrReadCnt ..)
        (kept_orElse_snd (kept_onReg_snd fun k => kept_tmrReadCap ..) (kept_onReg_snd fun k => kept_evRead ..))
  case h_8 => exact kept_orElse_snd (kept_onReg_snd fun k => kept_dbgAccess ..) (kept_onReg_snd fun k => kept_memdAccess ..)
  case h_9 => exact kept_onReg_snd fun k => kept_irqClaim ..
  all_goals (repeat' split) <;> rintro _ ⟨⟩
  · exact kept_stampRead s
  · exact kept_xidRead s
  · exact kept_rtimeRead s
  · exact kept_roCurRead s
  · exact kept_pageRead s
  · exact kept_lastSwapRead s
  · exact kept_imgRead s
  · exact kept_fltReadLo s
  · exact kept_fltReadTime s

@[simp] theorem kept_readClear (s : State) (off rc : Nat) : (readClear s off rc).2.kept = s.kept := by
  simp only [readClear, ↓kept_wr, ↓kept_noteEvent]

@[simp] theorem kept_eccCleared (s : State) (off : Nat) : (eccCleared s off).kept = s.kept := by
  unfold eccCleared
  split <;> simp only [↓kept_testPriv, ↓kept_with]

@[simp] theorem kept_readReg (s : State) (off : Nat) (d : RegDef) : (readReg s off d).2.kept = s.kept := by
  unfold readReg
  split
  · exact kept_readActs _ ‹_›
  · simp only [apply_ite Prod.snd, kept_ite, kept_eccCleared, kept_readClear, ite_self]

@[simp] theorem kept_damageAt (s : State) (off : Nat) : (damageAt s off).kept = s.kept := by
  simp only [damageAt, ↓kept_with, kept_ite, ite_self]

@[simp] theorem kept_readPlain (s : State) (off : Nat) : (readPlain s off).2.kept = s.kept := by
  unfold readPlain
  (repeat' split) <;> simp only [↓kept_readReg]

@[simp] theorem kept_busRead (s : State) (off : Nat) : (busRead s off).2.2.kept = s.kept := by
  simp only [busRead]
  (repeat' split) <;> simp only [↓kept_errorCompletion, ↓kept_meetDamaged, ↓kept_readPlain]

@[simp] theorem kept_mend (s : State) (off : Nat) : (mend s off).kept = s.kept := by simp [mend, ↓kept_with]

@[simp] theorem kept_writeStaged (s : State) (off : Nat) (d : RegDef) (v : Word) : (writeStaged s off d v).kept = s.kept := by
  simp only [writeStaged, ↓kept_wrStaged, ↓kept_event, ↓kept_mend, kept_ite, ite_self]

@[simp] theorem kept_writePlain (s : State) (off : Nat) (d : RegDef) (v : Word) : (writePlain s off d v).kept = s.kept := by
  simp only [writePlain, ↓kept_wr, ↓kept_mend]

@[simp] theorem kept_msixFlush (s : State) (v : Nat) : (msixFlush s v).kept = s.kept := by
  simp only [msixFlush, ↓kept_setPba, ↓kept_msixRequest, kept_ite, ite_self]

@[simp] theorem kept_imgCtlWrite (s : State) (v : Word) : (imgCtlWrite s v).kept = s.kept := by
  simp only [imgCtlWrite, ↓kept_setFld, ↓kept_imgVerify, ↓kept_goldenLock, ↓kept_imgActivate, kept_ite, ite_self]

@[simp] theorem kept_wdKick (s : State) (key : Nat) : (wdKick s key).kept = s.kept := by simp [wdKick]

@[simp] theorem kept_fltCtl (s : State) (v : Word) : (fltCtl s v).kept = s.kept := by simp [fltCtl]

@[simp] theorem kept_sentClear (s : State) : (sentClear s).kept = s.kept := by simp [sentClear]

@[simp] theorem kept_withDevs {f : State → State} (hf : ∀ s, (f s).kept = s.kept) (ns : List Nat) (s : State) :
    (withDevs ns f s).kept = s.kept := (kept_foldl (fun _ _ => kept_edgeDev ..) _).trans (hf s)

@[simp] theorem kept_afterPlain (s : State) (off : Nat) : (afterPlain s off).kept = s.kept := by
  unfold afterPlain
  (repeat' split) <;> simp only [↓kept_testPriv, ↓kept_testShared, ↓kept_raiseIf, ↓kept_dmaDoneCleared]

theorem kept_actsLow {s : State} {off : Nat} {v : Word} : ∀ t, s.actsLow off v = some t → t.kept = s.kept := by
  unfold State.actsLow
  split
  case h_4 =>
    exact kept_orElse (kept_onReg fun n => kept_lnkCtlWrite ..) <| kept_orElse (kept_onReg fun n => kept_txPreWrite ..) <|
      kept_orElse (kept_onReg fun n => kept_txMainWrite ..) <| kept_orElse (kept_onReg fun n => kept_rxeqWrite ..) <|
      kept_orElse (kept_onReg fun n => kept_testModeWrite ..) <|
      kept_onReg fun n => by simp only [kept_ite, kept_dpWrite, ite_self]
  case h_5 =>
    split
    · rintro _ ⟨⟩; exact kept_fcreqWrite s v
    · exact kept_onReg fun n => kept_mdrLctlWrite ..
  case h_6 => exact kept_onReg fun n => kept_wmctlWrite ..
  case h_7 =>
    split
    · rintro _ ⟨⟩; simp only [kept_ite, kept_qmReset, ite_self]
    · exact kept_orElse (kept_onReg fun a => kept_qmPush ..) (kept_onReg fun a => kept_qmPop ..)
  all_goals (repeat' split) <;> rintro _ ⟨⟩
  all_goals simp only [↓kept_flipWrite, ↓kept_startOk, ↓kept_unignored, ↓kept_writePlain, ↓kept_sentClear]

theorem kept_actsMid {s : State} {off : Nat} {v : Word} : ∀ t, s.actsMid off v = some t → t.kept = s.kept := by
  unfold State.actsMid
  split
  case h_1 => exact kept_orElse (kept_onReg fun n => kept_dmaCtlWrite ..) (kept_onReg fun n => kept_dmaRingWrite ..)
  case h_5 =>
    refine kept_orElse (kept_onReg fun i => ?_) (kept_onReg fun b => ?_)
    · simp only [↓kept_ite, ↓kept_voiceStartWrite, ↓kept_voiceStop, ite_self]
    · simp only [↓kept_ite, ↓kept_peakClear, ↓kept_wr, ite_self]
  case h_6 =>
    split
    · rintro _ ⟨⟩; exact kept_evCtlWrite ..
    · exact kept_orElse (kept_onReg fun n => kept_tmrWriteCtl ..) <| kept_orElse (kept_onReg fun n => kept_tmrWritePre ..) <|
        kept_orElse (kept_onReg fun n => kept_tmrWriteVal ..) <| kept_orElse (kept_onReg fun n => kept_tmrWriteVal ..) <|
        kept_orElse (kept_onReg fun n => kept_tmrWritePer ..) (kept_onReg fun n => kept_evSelWrite ..)
  case h_7 =>
    refine kept_orElse (kept_onReg fun c => kept_sepDctlWrite ..) <| kept_orElse (kept_onReg fun c => kept_dbgAccess ..) <|
      kept_orElse (kept_onReg fun c => kept_memdAccess ..) ?_
    split
    · exact kept_onReg fun t => kept_sepTctlWrite ..
    · rintro _ ⟨⟩
  all_goals (repeat' split) <;> rintro _ ⟨⟩
  all_goals simp only [kept_memCtlWrite, kept_srvCtlWrite, kept_cctlWrite, kept_dctlWrite, kept_bctlWrite, kept_tripClear]

theorem kept_actsHigh {s : State} {off : Nat} {v : Word} : ∀ t, s.actsHigh off v = some t → t.kept = s.kept := by
  unfold State.actsHigh
  split
  case h_1 =>
    refine kept_orElse (kept_onReg fun c => kept_softSet ..) <| kept_orElse (kept_onReg fun c => kept_softClear ..) <|
      kept_orElse (kept_onReg fun c => kept_irqEoi ..) <|
      kept_orElse (kept_onReg fun m => by simp only [kept_ite, kept_mbSend, ite_self]) <|
      kept_orElse (kept_onReg fun m => by simp only [kept_ite, kept_mbAck, ite_self]) ?_
    split <;> rintro _ ⟨⟩
    simp only [↓kept_mbWrite, ↓kept_ite, ↓kept_mend, ite_self]
  case h_2 =>
    exact kept_orElse (kept_onReg fun b => kept_pinOutWrite ..) <| kept_orElse (kept_onReg fun b => kept_pinOutWrite ..) <|
      kept_orElse (kept_onReg fun b => kept_pinOutWrite ..) <| kept_orElse (kept_onReg fun b => kept_pinOutWrite ..) <|
      kept_onReg fun b => kept_pinGpovWrite ..
  case h_3 =>
    split
    · rintro _ ⟨⟩; exact kept_imgCtlWrite ..
    · split
      · rintro _ ⟨⟩; exact kept_imgWrite ..
      · exact kept_onReg fun i => (kept_msixFlush ..).trans (kept_setFld ..)
  all_goals (repeat' split) <;> rintro _ ⟨⟩
  all_goals simp only [kept_rstCmd, kept_domainCmd, kept_fltClear, kept_fltCtl, kept_wdCfgWrite, kept_wdKick]

@[simp] theorem kept_writeReg (s : State) (off : Nat) (d : RegDef) (v : Word) : (writeReg s off d v).kept = s.kept := by
  unfold writeReg
  split
  · exact kept_writeStaged ..
  · split
    · exact kept_orElse kept_actsLow (kept_orElse kept_actsMid kept_actsHigh) _ ‹_›
    · simp only [↓kept_afterPlain, ↓kept_withDevs, kept_writePlain, implies_true]

@[simp] theorem kept_writeWindow (s : State) (a : Nat) (v : Word) : (writeWindow s a v).kept = s.kept := by
  simp only [writeWindow, ↓kept_event, ↓kept_planeWrite, ↓kept_sramStore, kept_ite, ite_self]

@[simp] theorem kept_busWrite (s : State) (off : Nat) (v : Word) : (busWrite s off v).2.kept = s.kept := by
  simp only [busWrite]
  (repeat' split) <;> simp only [↓kept_errorCompletion, ↓kept_writeReg, ↓kept_writeWindow]

@[simp] theorem kept_busWritePart (s : State) (off : Nat) : (busWritePart s off).2.kept = s.kept := by
  unfold busWritePart
  (repeat' split) <;> simp only [↓kept_event, ↓kept_raiseLine, ↓kept_errorCompletion]

@[simp] theorem kept_busWriteBe (s : State) (off be : Nat) (v : Word) : (busWriteBe s off be v).2.kept = s.kept := by
  unfold busWriteBe
  split
  · exact kept_busWrite ..
  · exact kept_busWritePart ..

@[simp] theorem kept_unitRead (s : State) (ch : Nat) (d : List Nat) (host : List Nat) (i w : Nat) :
    (unitRead s ch d host i w).1.kept = s.kept := by
  simp only [unitRead]
  (repeat' split) <;> simp only [↓kept_errorCompletion, ↓kept_dramMeet, ↓kept_busRead]

@[simp] theorem kept_unitWrite (s : State) (ch : Nat) (d : List Nat) (i : Nat) (bs : List Nat) : (unitWrite s ch d i bs).1.kept
  = s.kept := by
  unfold unitWrite
  split
  · simp only [apply_ite Prod.snd, kept_ite, kept_busWrite, kept_busWritePart, ite_self]
  · simp only [apply_ite Prod.fst, kept_ite, kept_dramPut, kept_errorCompletion, ite_self]
  · rfl
  · split
    · rfl
    · exact kept_ringStore ..

theorem kept_unitMove (ch : Nat) (d host : List Nat) (w : Nat) (m : Mover) : (unitMove ch d host w m).st.kept = m.st.kept := by
  have hread : (if dReads d then unitRead m.st ch d host m.done w
      else (m.st, .ok ((List.range w).map fun j => fillByte d (m.done + j)))).1.kept = m.st.kept := by
    simp only [apply_ite Prod.fst, kept_ite, kept_unitRead, ite_self]
  unfold unitMove
  extract_lets i r
  split
  · exact hread
  · split
    · split <;> exact hread
    · extract_lets u
      split <;> exact (kept_unitWrite ..).trans hread

theorem kept_moveUnits (ch : Nat) (d host : List Nat) (n f : Nat) (m : Mover) : (moveUnits ch d host n f m).st.kept = m.st.kept
  := by
  induction f generalizing m with
  | zero => rfl
  | succ f ih =>
    unfold moveUnits
    split
    · rfl
    · exact (ih _).trans (kept_unitMove ..)

@[simp] theorem kept_postHost (s : State) (a : Nat) (bs : List Nat) : (postHost s a bs).kept = s.kept := by
  simp [postHost, ↓kept_with]

@[simp] theorem kept_dmaSpend (s : State) (ch n : Nat) : (dmaSpend s ch n).kept = s.kept := by rfl

theorem kept_dmaMove (s : State) (ch : Nat) (d host : List Nat) (n : Nat) : (dmaMove s ch d host n).st.kept = s.kept := by
  simp only [dmaMove, ↓kept_dmaSpend, ↓kept_ite, ↓kept_with, ↓kept_foldl, kept_dramUncorr, implies_true, ↓kept_wr,
    ↓kept_postHost, ite_self]
  exact kept_moveUnits ..

@[simp] theorem kept_ringWord (s : State) (ch i w : Nat) : (ringWord s ch i w).2.kept = s.kept := by
  simp only [ringWord]
  (repeat' split) <;> simp only [↓kept_errorCompletion, ↓kept_dramStore, ↓kept_busWrite, ↓kept_postHost]

@[simp] theorem kept_dmaStatus (s : State) (ch : Nat) (d : List Nat) (code count : Nat) : (dmaStatus s ch d code count).2.kept =
    s.kept := by
  simp only [dmaStatus, ↓kept_setFld, ↓kept_ringWord]

@[simp] theorem kept_dmaHalt (s : State) (ch : Nat) : (dmaHalt s ch).kept = s.kept := by
  simp only [dmaHalt, ↓kept_event, ↓kept_raiseLine, ↓kept_qmDropStarted, ↓kept_setDmaX, ↓kept_showHalts, ↓kept_dmaTo]

@[simp] theorem kept_dmaFail (s : State) (ch : Nat) (d : List Nat) (code count : Nat) : (dmaFail s ch d code count).kept = s.kept := by
  simp [dmaFail]

@[simp] theorem kept_dmaEvent (s : State) (ch : Nat) (d : List Nat) : (dmaEvent s ch d).kept = s.kept := by
  simp only [dmaEvent, ↓kept_withDev, ↓kept_routeDev, implies_true, ↓kept_with, kept_ite, ite_self]

@[simp] theorem kept_dmaFinish (s : State) (ch : Nat) (d : List Nat) (code count : Nat) : (dmaFinish s ch d code count).kept =
    s.kept := by
  simp only [dmaFinish, ↓kept_wr, ↓kept_event, ↓kept_countSrc, ↓kept_qmDeliver, ↓kept_setDmaX, ↓kept_dmaNext,
      ↓kept_dmaStatus, ↓kept_dmaHalt, ↓kept_dmaEvent, kept_ite, ite_self]

@[simp] theorem kept_showElem (s : State) (ch : Nat) : (showElem s ch).kept = s.kept := by
  unfold showElem
  split <;> simp only [↓kept_setDmaX, ↓kept_with]

@[simp] theorem kept_elemAdvance (s : State) (ch n : Nat) : (elemAdvance s ch n).kept = s.kept := by
  unfold elemAdvance
  split <;> simp only [↓kept_setDmaX]

@[simp] theorem kept_readDesc (s : State) (ch : Nat) (host : List Nat) : (readDesc s ch host).1.kept = s.kept := by
  unfold readDesc
  split
  · simp only [↓kept_foldl_fst, kept_busRead, implies_true]
  · simp only [apply_ite Prod.fst, kept_ite, kept_dramMeet, kept_errorCompletion, ite_self]
  · rfl

@[simp] theorem kept_descriptorFetch (s : State) (ch : Nat) (host : List Nat) : (descriptorFetch s ch host).kept = s.kept := by
  simp only [descriptorFetch]
  (repeat' split) <;> simp only [↓kept_setDmaX, ↓kept_dmaTo, ↓kept_dmaFetchStart, ↓kept_dmaStart, ↓kept_dmaHalt, ↓kept_dmaFail,
      ↓kept_readDesc]

@[simp] theorem kept_dramCorrected (s : State) (corr : List Nat) : (dramCorrected s corr).kept = s.kept := by
  simp [dramCorrected]

@[simp] theorem kept_descriptorComplete (s : State) (ch : Nat) (host : List Nat) : (descriptorComplete s ch host).kept = s.kept
  := by
  simp only [descriptorComplete, ↓kept_ite, ↓kept_dmaFail, ↓kept_dmaTo, ↓kept_setDmaX, ↓kept_showElem, ↓kept_elemAdvance,
    ↓kept_dmaFinish,
    ↓kept_dmaMove, ite_self]

@[simp] theorem kept_barrierDone (s : State) (ch : Nat) : (barrierDone s ch).kept = s.kept := by
  unfold barrierDone
  (repeat' split) <;> simp only [↓kept_dmaFinish]

@[simp] theorem kept_dmaError (s : State) (ch : Nat) (dest : Bool) (count : Nat) (host : List Nat) :
    (dmaError s ch dest count host).kept = s.kept := by
  unfold dmaError
  extract_lets d m
  have hmove : m.st.kept = s.kept := kept_dmaMove ..
  (repeat' split) <;> simp only [kept_dmaHalt, kept_dmaFail, hmove]

@[simp] theorem kept_hostTimeout (s : State) (ch : Nat) (count : Nat) (host : List Nat) : (hostTimeout s ch count host).kept =
    s.kept := by
  simp [hostTimeout]

@[simp] theorem kept_remotePop (s : State) (n : Nat) : (remotePop s n).kept = s.kept := by simp [remotePop]

@[simp] theorem kept_remoteWrites (s : State) (off : Nat) (l : List Nat) : (remoteWrites s off l).2.kept = s.kept := by
  induction l generalizing s off with
  | nil => rfl
  | cons w r ih =>
    simp only [remoteWrites, apply_ite Prod.snd, kept_ite, ih, kept_busWrite, ite_self]

@[simp] theorem kept_remoteReads (s : State) (off : Nat) (acc : List Nat) (n : Nat) : (remoteReads s off acc n).2.kept = s.kept
  := by
  induction n generalizing s off acc with
  | zero => rfl
  | succ n ih =>
    simp only [remoteReads, apply_ite Prod.snd, kept_ite, ih, kept_busRead, ite_self]

@[simp] theorem kept_remoteWrite (s : State) (n : Nat) : (remoteWrite s n).kept = s.kept := by
  unfold remoteWrite
  split <;> simp only [↓kept_ccReply, ↓kept_remotePop, ↓kept_remoteWrites, kept_ite, ite_self]

@[simp] theorem kept_remoteRead (s : State) (n : Nat) : (remoteRead s n).kept = s.kept := by
  unfold remoteRead
  split
  · extract_lets off c t r
    split
    · rfl
    · split
      · exact (kept_ccReply ..).trans (kept_remotePop ..)
      · split <;> exact (kept_ccReply ..).trans ((kept_remoteReads ..).trans (kept_remotePop ..))
  · rfl

@[simp] theorem kept_answer (s : State) (data : List Nat) (err poison : Bool) : (State.answer s data err poison).kept = s.kept := by
  simp [State.answer, ↓kept_with]

@[simp] theorem kept_bar2Read (s : State) (off n : Nat) (corr : List Nat) : (bar2Read s off n corr).kept = s.kept := by
  simp only [bar2Read, ↓kept_errorCompletion, ↓kept_dramMeet, ↓kept_dramCorrected, ↓kept_answer, kept_ite, ite_self]

@[simp] theorem kept_bar2Put (off i : Nat) (l : List (Option Nat)) (s : State) : (bar2Put off i l s).kept = s.kept := by
  induction l generalizing i s with
  | nil => rfl
  | cons b r ih =>
    cases b with
    | none => exact ih ..
    | some b => exact (ih ..).trans (kept_with s ..)

@[simp] theorem kept_bar2Write (s : State) (off : Nat) (bs : List (Option Nat)) (corr : List Nat) :
    (bar2Write s off bs corr).kept = s.kept := by
  simp only [bar2Write, ↓kept_errorCompletion, ↓kept_dramUncorr, ↓kept_dramCorrected, ↓kept_answer, ↓kept_bar2Put, ↓kept_foldl,
      implies_true, ↓kept_with, kept_ite, ite_self]

@[simp] theorem kept_regWrite (s : State) (who : Requester) (off : Nat) (v : Word) : (regWrite s who off v).kept = s.kept := by
  simp only [regWrite, ↓kept_busWrite, ↓kept_answer, kept_ite, ite_self]

@[simp] theorem kept_regWriteBe (s : State) (who : Requester) (off be : Nat) (v : Word) : (regWriteBe s who off be v).kept =
    s.kept := by
  simp only [regWriteBe, ↓kept_busWriteBe, ↓kept_answer, kept_ite, ite_self]

@[simp] theorem kept_regRead (s : State) (who : Requester) (off : Nat) : (regRead s who off).kept = s.kept := by
  simp only [regRead, ↓kept_busRead, ↓kept_answer, kept_ite, ite_self]

@[simp] theorem kept_eccRead (s : State) (who : Requester) (off : Nat) (fixed : Bool) : (eccRead s who off fixed).kept = s.kept := by
  simp only [eccRead]
  (repeat' split) <;> simp only [↓kept_corrected, ↓kept_damageAt, ↓kept_regRead]

@[simp] theorem kept_writeAct {f : State → State} (hf : ∀ s, (f s).kept = s.kept) (s : State) (who : Requester) (off : Nat) :
    (writeAct s who off f).kept = s.kept := by
  simp only [writeAct, ↓kept_ite, ↓kept_answer, ↓kept_errorCompletion, hf, ite_self]

@[simp] theorem kept_readAct {f : State → Word × State} (hf : ∀ s, (f s).2.kept = s.kept) (s : State) (who : Requester) (off :
  Nat) :
    (readAct s who off f).kept = s.kept := by
  simp only [readAct, ↓kept_ite, ↓kept_answer, ↓kept_errorCompletion, ↓kept_meetDamaged, hf, ite_self]

@[simp] theorem kept_debugAct {f : State → Word × State} (hf : ∀ s, (f s).2.kept = s.kept) (s : State) (who : Requester) (off :
  Nat)
    (write : Bool) : (debugAct s who off write f).kept = s.kept := by
  simp only [debugAct, ↓kept_ite, ↓kept_writeAct, ↓kept_readAct, hf, implies_true, ite_self]

@[simp] theorem kept_bar2Act (s : State) (off n : Nat) (write : Option (List (Option Byte))) (corr : List Nat) :
    (bar2Act s off n write corr).kept = s.kept := by
  unfold bar2Act
  (repeat' split) <;> simp only [↓kept_bar2Read, ↓kept_bar2Write]

@[simp] theorem kept_finish (s : State) (c t n : Nat) (old : Option (Nat × Word)) : (finish s c t n old).kept = s.kept := by
  simp only [finish, ↓kept_setThr, ↓kept_stepEnd, kept_ite, ite_self]

@[simp] theorem kept_jumpTo (s : State) (c t : Nat) (target : Word) : (jumpTo s c t target).kept = s.kept := by
  simp only [jumpTo, ↓kept_setThr, ↓kept_flushTo, ↓kept_stepEnd]

@[simp] theorem kept_threadEvent (s : State) (c t : Nat) (f : Fld) : (threadEvent s c t f).kept = s.kept := by
  simp [threadEvent]

@[simp] theorem kept_stopThread (s : State) (c t : Nat) : (stopThread s c t).kept = s.kept := by
  simp only [stopThread, ↓kept_raiseLine, ↓kept_setThr, ↓kept_drainAll, ↓kept_setDctlBit, ↓kept_threadEvent]

@[simp] theorem kept_escalateThread (s : State) (c t : Nat) (k : Cause) (esc : Nat) : (escalateThread s c t k esc).kept = s.kept := by
  simp only [escalateThread, ↓kept_setThr, ↓kept_flushTo, ↓kept_threadEvent]

@[simp] theorem kept_entryCheck (s : State) (c t vec : Nat) : (entryCheck s c t vec).1.kept = s.kept := by
  simp only [entryCheck]
  (repeat' split) <;> simp only [↓kept_iRead, ↓kept_dataCheck]

@[simp] theorem kept_enterExc (s : State) (c t : Nat) (k : Cause) : (enterExc s c t k).kept = s.kept := by
  simp only [enterExc, ↓kept_setThr, ↓kept_flushTo, ↓kept_storePush, ↓kept_stopThread, ↓kept_escalateThread, ↓kept_entryCheck,
      kept_ite, ite_self]

@[simp] theorem kept_trapTo (s : State) (c t vec : Nat) (ret addr : Word) : (trapTo s c t vec ret addr).kept = s.kept := by
  simp only [trapTo, ↓kept_setThr, ↓kept_stepEnd, ↓kept_enterExc]

@[simp] theorem kept_takeDue (s : State) (c t : Nat) : (takeDue s c t).kept = s.kept := by
  simp only [takeDue]
  split <;> simp only [↓kept_event, ↓kept_setThr, ↓kept_enterExc]

@[simp] theorem kept_interruptEntry (s : State) (c : Nat) : (interruptEntry s c).kept = s.kept := by
  simp only [interruptEntry, ↓kept_fresh, ↓kept_enterExc, ↓kept_takeDue, kept_ite, ite_self]

@[simp] theorem kept_takeTurn (s : State) (c t : Nat) : (takeTurn s c t).kept = s.kept := by simp [takeTurn, ↓kept_with]

@[simp] theorem kept_advance (s : State) (c t n : Nat) : (advance s c t n).kept = s.kept := by
  simp only [advance, ↓kept_setThr, ↓kept_fetchInto]

@[simp] theorem kept_frontActs (s : State) (c t : Nat) (x0 : Front) : (frontActs s c t x0).kept = s.kept := by
  unfold frontActs
  split <;> simp only [↓kept_trapTo, ↓kept_takeDue]

/-- The state in which an instruction ends holds the commands and straps `k`. -/
def Res.Keeps (k : List Instr × Nat × Nat × Nat) : Res → Prop
  | .done s _ => s.kept = k
  | .jump s _ => s.kept = k
  | .trap s _ _ _ => s.kept = k
  | .hold s _ => s.kept = k
  | .wait => True

theorem kept_settleRes_of {s₀ : State} {r : Res} (h : r.Keeps s₀.kept) (c t : Nat) : (settleRes s₀ c t r).kept = s₀.kept := by
  cases r with
  | done s old => exact (kept_finish ..).trans h
  | jump s a => exact (kept_jumpTo ..).trans h
  | trap s v ret a => exact (kept_trapTo ..).trans h
  | hold s w => exact (kept_setThr ..).trans h
  | wait => rfl

theorem kept_issue {s : State} {c t : Nat} {f : Ins → Option Body} (hf : ∀ i b, f i = some b → ∀ u, (b u).Keeps u.kept) :
    (issue s c t f).kept = s.kept := by
  unfold issue
  split
  · rfl
  · split
    · rfl
    · split
      · rfl
      · split
        · rfl
        · have hbody := hf _ _ ‹_› (advance (takeTurn s c t) c t 1)
          rw [kept_advance] at hbody
          exact (kept_settleRes_of hbody ..).trans (kept_takeTurn ..)
    · exact (kept_frontActs ..).trans (kept_takeTurn ..)

@[simp] theorem kept_setG (s : State) (c t r : Nat) (v : Word) : (State.setG s c t r v).kept = s.kept := by simp [State.setG]

@[simp] theorem kept_setNzcv (s : State) (c t : Nat) (f : Nzcv) : (State.setNzcv s c t f).kept = s.kept := by
  simp [State.setNzcv]

@[simp] theorem kept_longResult (s : State) (e : Upset) (k : LongKind) : (longResult s e k).1.kept = s.kept := by
  unfold longResult
  split
  · rfl
  · rfl
  · extract_lets o dram u
    have hu : u.kept = s.kept := by
      unfold u
      split
      · rfl
      · exact kept_corrected ..
      · exact kept_with s ..
    clear_value u
    (repeat' split) <;> simp only [kept_errorCompletion, kept_dramMeet, hu]

theorem keeps_longStart {k : List Instr × Nat × Nat × Nat} {s : State} (hs : s.kept = k) (c t rd : Nat) (l : LongKind) (e :
  Upset) :
    (longStart s c t rd l e).Keeps k := by
  unfold longStart
  extract_lets x r
  split
  · split
    · exact (kept_setG ..).trans ((kept_longResult ..).trans hs)
    · exact (kept_longResult ..).trans hs
  · exact (kept_setThr ..).trans hs

@[simp] theorem kept_longRetire (s : State) (c t i : Nat) (e : Upset) : (longRetire s c t i e).kept = s.kept := by
  simp only [longRetire]
  (repeat' split) <;> simp only [↓kept_setThr, ↓kept_longResult]

@[simp] theorem kept_stackCheck (s : State) (c t : Nat) (a : Word) (n : Nat) : (stackCheck s c t a n).1.kept = s.kept := by
  simp only [stackCheck]
  split <;> simp only [↓kept_dataCheck]

@[simp] theorem kept_pushWords (c t : Nat) (a : Word) (l : List Word) (s : State) : (pushWords c t a l s).kept = s.kept := by
  induction l generalizing a s with
  | nil => rfl
  | cons w r ih => exact (ih ..).trans (kept_storePush ..)

@[simp] theorem kept_loadWords (c t : Nat) (e : Upset) (acc : List Word) (n : Nat) (a : Word) (s : State) :
    (loadWords c t e acc n a s).1.kept = s.kept := by
  induction n generalizing e acc a s with
  | zero => rfl
  | succ n ih =>
    unfold loadWords
    extract_lets r
    split
    · exact kept_dataRead ..
    · exact (ih ..).trans (kept_dataRead ..)

@[simp] theorem kept_sourceReturn (s : State) : (sourceReturn s).kept = s.kept := by simp [sourceReturn, ↓kept_with]

@[simp] theorem kept_backwards {s : State} {f : Nat → State} (hf : ∀ x, (f x).kept = s.kept) (back : Nat) :
    (backwards s back f).kept = s.kept := by
  simp only [backwards, kept_ite, hf, ite_self]

@[simp] theorem kept_resultArrival (s : State) (st back ph : Nat) : (resultArrival s st back ph).kept = s.kept := by
  refine kept_backwards (fun x => ?_) back
  split
  · rfl
  · split
    · simp only [kept_ite, kept_relArrive, ite_self]
    · rfl

@[simp] theorem kept_groupReport (s : State) (g : Nat) (ppm : Int) : (groupReport s g ppm).kept = s.kept := by
  simp only [groupReport, ↓kept_groupMeasure, ↓kept_clockFault, kept_ite, ite_self]

@[simp] theorem kept_groupSilent (s : State) (g : Nat) : (groupSilent s g).kept = s.kept := by
  simp only [groupSilent, ↓kept_setFld, ↓kept_clockFault, kept_ite, ite_self]

@[simp] theorem kept_conditionRow (s : State) (corr : Nat) (pedBad : List Nat) : (conditionRow s corr pedBad).kept = s.kept := by
  simp only [conditionRow]
  (repeat' split) <;> simp only [↓kept_conditionDone, ↓kept_pfReceive, ↓kept_roCells]

@[simp] theorem kept_broadcastRow (s : State) (taken corr : Nat) : (broadcastRow s taken corr).kept = s.kept := by
  unfold broadcastRow
  (repeat' split) <;> simp only [↓kept_rowBeat, ↓kept_srvRow, kept_ite, ite_self]

@[simp] theorem kept_sortRow (s : State) (x dissent : Nat) : (sortRow s x dissent).kept = s.kept := by
  simp only [sortRow]
  (repeat' split) <;> simp only [↓kept_sortDone, ↓kept_roObjs]

@[simp] theorem kept_decideRow (s : State) (x : Nat) (faults : List DecFault) (corr : Nat) : (decideRow s x faults corr).kept =
    s.kept := by
  simp only [decideRow]
  (repeat' split) <;> simp only [↓kept_decisionEvaluate, ↓kept_roTrig]

@[simp] theorem kept_tempUpdate (s : State) (t : BitVec 16) : (tempUpdate s t).kept = s.kept := by
  simp only [tempUpdate, ↓kept_setFld, ↓kept_setTemp, kept_ite, ite_self]

@[simp] theorem kept_sensorAt (s : State) (t : BitVec 16) (above : Bool) : (sensorAt s t above).kept = s.kept := by
  simp [sensorAt]

@[simp] theorem kept_supplyBack (s : State) (rail : Nat) : (supplyBack s rail).kept = s.kept := by simp [supplyBack, ↓kept_with]

@[simp] theorem kept_refclkBack (s : State) : (refclkBack s).kept = s.kept := by simp [refclkBack, ↓kept_with]

@[simp] theorem kept_stackUpset (s : State) (c : Nat) (x0 : Upset) : (stackUpset s c x0).kept = s.kept := by
  unfold stackUpset
  split <;> simp

@[simp] theorem kept_spacingEnd (s : State) (v : Nat) : (spacingEnd s v).kept = s.kept := by
  simp only [spacingEnd, ↓kept_msixRequest, ↓kept_with, kept_ite, ite_self]

@[simp] theorem kept_managementUp (s : State) (bme msixEn fmask : Bool) : (managementUp s bme msixEn fmask).kept = s.kept := by
  simp [managementUp]

@[simp] theorem kept_nextCycle (s : State) : (nextCycle s).kept = s.kept := by simp [nextCycle, ↓kept_with]

@[simp] theorem kept_idleCycle (s : State) : (idleCycle s).kept = s.kept := by simp [idleCycle, ↓kept_with]

@[simp] theorem kept_lastCycles (s : State) (k : Nat) : (lastCycles s k).kept = s.kept := by simp [lastCycles]

@[simp] theorem kept_passCycles (s : State) (k : Nat) : (passCycles s k).kept = s.kept := by simp [passCycles, ↓kept_with]

@[simp] theorem kept_passSlot (s : State) (dt : Nat) : (passSlot s dt).kept = s.kept := by
  simp only [passSlot, ↓kept_passCycles, ↓kept_with]

@[simp] theorem kept_slotStart (s : State) (dt : Nat) (mark : Bool) : (slotStart s dt mark).kept = s.kept := by simp [slotStart]

end Sys2Proof.Machine
end

section
/-! SUPPORT. The instructions of the cores and the blitter keep the commands that wait and the straps (O6, O7). -/
namespace Sys2Proof.Machine

theorem keeps_done {k : List Instr × Nat × Nat × Nat} {s : State} (h : s.kept = k) (old : Option (Nat × Word)) : (Res.done s
    old).Keeps k :=
  h

theorem keeps_jump {k : List Instr × Nat × Nat × Nat} {s : State} (h : s.kept = k) (a : Word) : (Res.jump s a).Keeps k := h

theorem keeps_hold {k : List Instr × Nat × Nat × Nat} {s : State} (h : s.kept = k) (w : Waiting) : (Res.hold s w).Keeps k := h

theorem keeps_wait (k : List Instr × Nat × Nat × Nat) : Res.wait.Keeps k := trivial

theorem keeps_fault {k : List Instr × Nat × Nat × Nat} {s : State} (h : s.kept = k) (c t vec : Nat) (addr : Word) :
    (Res.fault s c t vec addr).Keeps k := h

theorem keeps_loadDone {k : List Instr × Nat × Nat × Nat} {s : State} (h : s.kept = k) (c t rd : Nat) (v : Word) :
    (loadDone s c t rd v).Keeps k := (kept_setG ..).trans h

theorem keeps_branchBody (c t cond d : Nat) (s : State) : (branchBody c t cond d s).Keeps s.kept := by
  unfold branchBody
  extract_lets x
  split
  · exact keeps_jump rfl _
  · exact keeps_done rfl _

theorem keeps_callBody (c t : Nat) (target : Thread → Word) (s : State) : (callBody c t target s).Keeps s.kept := by
  unfold callBody
  extract_lets x a k
  have hk : k.1.kept = s.kept := kept_stackCheck ..
  split
  · exact keeps_fault hk ..
  · exact keeps_jump (by simp [hk]) _

theorem keeps_retBody (c t : Nat) (e : Upset) (s : State) : (retBody c t e s).Keeps s.kept := by
  unfold retBody
  extract_lets a k r
  have hk : k.1.kept = s.kept := kept_stackCheck ..
  have hr : r.1.kept = s.kept := (kept_dataRead ..).trans hk
  split
  · exact keeps_fault hk ..
  · split
    · exact keeps_fault hr ..
    · exact keeps_jump ((kept_setG ..).trans hr) _

theorem keeps_callmBody (c t ra mask : Nat) (s : State) : (callmBody c t ra mask s).Keeps s.kept := by
  unfold callmBody
  extract_lets x rs n a k
  have hk : k.1.kept = s.kept := kept_stackCheck ..
  split
  · exact keeps_fault hk ..
  · exact keeps_jump ((kept_pushWords ..).trans ((kept_setG ..).trans hk)) _

theorem keeps_retmBody (c t mask : Nat) (e : Upset) (s : State) : (retmBody c t mask e s).Keeps s.kept := by
  unfold retmBody
  extract_lets a rs n k r
  have hk : k.1.kept = s.kept := kept_stackCheck ..
  have hr : r.1.kept = s.kept := (kept_loadWords ..).trans hk
  split
  · exact keeps_fault hk ..
  · split
    · exact keeps_fault hr ..
    · exact keeps_jump ((kept_setG ..).trans ((kept_foldl (fun _ _ => kept_setG ..) _).trans hr)) _

theorem keeps_retxEsc (c t : Nat) (s : State) : (retxEsc c t s).Keeps s.kept := by
  unfold retxEsc
  extract_lets x
  split
  · exact keeps_wait _
  · exact keeps_jump (kept_setThr ..) _

theorem keeps_retxSup (c t : Nat) (e : Upset) (s : State) : (retxSup c t e s).Keeps s.kept := by
  unfold retxSup
  extract_lets a k r
  have hk : k.1.kept = s.kept := kept_stackCheck ..
  have hr : r.1.kept = s.kept := (kept_loadWords ..).trans hk
  split
  · exact keeps_fault hk ..
  · split
    · exact keeps_fault hr ..
    · extract_lets x
      split
      · exact keeps_fault hr ..
      · split
        · exact keeps_fault hr ..
        · split
          · exact keeps_wait _
          · exact keeps_jump ((kept_setThr ..).trans hr) _

theorem keeps_retxBody (c t : Nat) (e : Upset) (s : State) : (retxBody c t e s).Keeps s.kept := by
  unfold retxBody
  split
  · exact keeps_fault rfl ..
  · split
    · exact keeps_retxEsc ..
    · exact keeps_retxSup ..

theorem keeps_aluBody (c t fn rd ra rb : Nat) (sf : Bool) (s : State) : (aluBody c t fn rd ra rb sf s).Keeps s.kept := by
  unfold aluBody
  extract_lets x a b u
  have hu : u.kept = s.kept := by simp [u]
  split
  · exact keeps_fault rfl ..
  · exact keeps_done (by simp [hu]) _

theorem keeps_divBody (c t fn rd ra rb : Nat) (s : State) : (divBody c t fn rd ra rb s).Keeps s.kept := keeps_longStart rfl ..

theorem keeps_mulBody (c t fn ra rb : Nat) (s : State) : (mulBody c t fn ra rb s).Keeps s.kept := keeps_done (kept_setThr ..) _

theorem keeps_fpBody (c t fn rd ra rb : Nat) (s : State) : (fpBody c t fn rd ra rb s).Keeps s.kept := by
  unfold fpBody
  extract_lets x a b
  split
  · exact keeps_done (kept_setNzcv ..) _
  · split
    · exact keeps_longStart rfl ..
    · exact keeps_done (kept_setG ..) _

theorem keeps_immBody (c t op rd ra i : Nat) (s : State) : (immBody c t op rd ra i s).Keeps s.kept := by
  unfold immBody
  extract_lets x a
  split
  · exact keeps_fault rfl ..
  · split
    · exact keeps_done (kept_setNzcv ..) _
    · exact keeps_done (kept_setG ..) _

@[simp] theorem kept_longBytes (s : State) (c t a n : Nat) : (longBytes s c t a n).1.kept = s.kept := by
  unfold longBytes
  split
  · rfl
  · exact kept_drainAll ..
  · rfl

theorem keeps_longLoad (s : State) (c t rd a n : Nat) (signed : Bool) (e : Upset) :
    (longLoad s c t rd a n signed e).Keeps s.kept := by
  unfold longLoad
  extract_lets r
  split
  · exact keeps_longStart (kept_longBytes ..) ..
  · exact keeps_longStart (kept_longBytes ..) ..

theorem keeps_loadBody (c t op rd ra i : Nat) (e : Upset) (s : State) : (loadBody c t op rd ra i e s).Keeps s.kept := by
  unfold loadBody
  extract_lets x aw a n sg k r
  have hk : k.1.kept = s.kept := kept_dataCheck ..
  have hr : r.1.kept = s.kept := (kept_dataRead ..).trans hk
  split
  · exact keeps_fault rfl ..
  · split
    · exact keeps_longLoad ..
    · split
      · exact keeps_fault hk ..
      · split
        · exact keeps_fault hr ..
        · exact keeps_loadDone hr ..

theorem keeps_storeBody (c t n rd ra i : Nat) (s : State) : (storeBody c t n rd ra i s).Keeps s.kept := by
  unfold storeBody
  extract_lets x aw k
  have hk : k.1.kept = s.kept := kept_dataCheck ..
  split
  · exact keeps_fault rfl ..
  · split
    · exact keeps_fault hk ..
    · exact keeps_done ((kept_storePush ..).trans hk) _

theorem keeps_ldiBody (c t rd ra i : Nat) (e : Upset) (s : State) : (ldiBody c t rd ra i e s).Keeps s.kept := by
  unfold ldiBody
  extract_lets aw u r
  have hu : u.kept = s.kept := by
    unfold u
    split
    · simp
    · rfl
  have hr : r.1.kept = s.kept := (kept_iRead ..).trans hu
  split
  · exact keeps_fault hr ..
  · exact keeps_loadDone hr ..

theorem keeps_stiBody (c t rd ra i : Nat) (s : State) : (stiBody c t rd ra i s).Keeps s.kept := by
  unfold stiBody
  extract_lets x aw
  split
  · exact keeps_fault rfl ..
  · split
    · exact keeps_fault rfl ..
    · split
      · exact keeps_fault rfl ..
      · exact keeps_done (kept_sepStore ..) _

@[simp] theorem kept_ioRead (s : State) (c a : Nat) : (ioRead s c a).1.kept = s.kept := by
  unfold ioRead
  (repeat' split) <;> simp

@[simp] theorem kept_ioWrite (s : State) (c a : Nat) (v : Word) : (ioWrite s c a v).1.kept = s.kept := by
  unfold ioWrite
  (repeat' split) <;> simp

theorem keeps_inBody (c t rd ra i : Nat) (s : State) : (inBody c t rd ra i s).Keeps s.kept := by
  unfold inBody
  extract_lets aw r
  have hr : r.1.kept = s.kept := (kept_ioRead ..).trans (kept_drainAll ..)
  split
  · exact keeps_fault rfl ..
  · split
    · exact keeps_fault hr ..
    · exact keeps_done (by simp [hr]) _

theorem keeps_outBody (c t rd ra i : Nat) (s : State) : (outBody c t rd ra i s).Keeps s.kept := by
  unfold outBody
  extract_lets x aw r
  have hr : r.1.kept = s.kept := (kept_ioWrite ..).trans (kept_drainAll ..)
  split
  · exact keeps_fault rfl ..
  · split
    · exact keeps_fault hr ..
    · exact keeps_done hr _

theorem keeps_mfsBody (c t rd k : Nat) (s : State) : (mfsBody c t rd k s).Keeps s.kept := by
  unfold mfsBody
  split
  · exact keeps_fault rfl ..
  · exact keeps_done (kept_setG ..) _

theorem keeps_mtsBody (c t k ra : Nat) (s : State) : (mtsBody c t k ra s).Keeps s.kept := by
  unfold mtsBody
  extract_lets x v
  split
  · exact keeps_fault rfl ..
  · split
    · exact keeps_fault rfl ..
    · split
      · exact keeps_wait _
      · exact keeps_done (kept_setThr ..) _

@[simp] theorem kept_waitResult (s : State) (c t rd mask v : Nat) : (waitResult s c t rd mask v).kept = s.kept := by
  simp [waitResult]

theorem keeps_wfeBody (c t rd mask : Nat) (s : State) : (wfeBody c t rd mask s).Keeps s.kept := by
  unfold wfeBody
  extract_lets v
  split
  · exact keeps_done (kept_waitResult ..) _
  · exact keeps_hold rfl _

theorem keeps_waittBody (c t rd ra n mask : Nat) (s : State) : (waittBody c t rd ra n mask s).Keeps s.kept := by
  unfold waittBody
  extract_lets target v
  split
  · exact keeps_fault (kept_fresh s) ..
  · split
    · exact keeps_done (kept_setG ..) _
    · split
      · exact keeps_done (kept_waitResult ..) _
      · exact keeps_hold rfl _

@[simp] theorem kept_wfeWake (s : State) (c t : Nat) : (wfeWake s c t).kept = s.kept := by
  unfold wfeWake
  (repeat' split) <;> simp

@[simp] theorem kept_waittWake (s : State) (c t : Nat) : (waittWake s c t).kept = s.kept := by
  unfold waittWake
  (repeat' split) <;> simp

@[simp] theorem kept_sevSet (b : Nat) (s : State) (p : Nat × Nat) : (sevSet b s p).kept = s.kept := by
  simp [sevSet]

theorem keeps_sevBody (c t scope core thread b : Nat) (s : State) : (sevBody c t scope core thread b s).Keeps s.kept := by
  unfold sevBody
  split
  · exact keeps_fault rfl ..
  · exact keeps_done ((kept_foldl (kept_sevSet b) _).trans (kept_drainAll ..)) _

theorem keeps_barxBody (c t : Nat) (s : State) : (barxBody c t s).Keeps s.kept := by
  unfold barxBody
  split
  · exact keeps_wait _
  · exact keeps_done (kept_drainAll ..) _

theorem keeps_brkBody (c t : Nat) (s : State) : (brkBody c t s).Keeps s.kept := by
  unfold brkBody
  split
  · exact keeps_done (kept_haltRequest ..) _
  · exact keeps_fault rfl ..

@[simp] theorem kept_aluRow (c t fn : Nat) (s : State) : (aluRow c t fn s).kept = s.kept := kept_issue fun i b h u => by
  split at h
  · split at h
    · cases h
      exact keeps_aluBody ..
    · cases h
  · cases h

@[simp] theorem kept_mulRow (c t fn : Nat) (s : State) : (mulRow c t fn s).kept = s.kept := kept_issue fun i b h u => by
  split at h
  · split at h
    · cases h
      split
      · exact keeps_mulBody ..
      · exact keeps_divBody ..
    · cases h
  · cases h

@[simp] theorem kept_fpRow (c t fn : Nat) (s : State) : (fpRow c t fn s).kept = s.kept := kept_issue fun i b h u => by
  split at h
  · split at h
    · cases h
      exact keeps_fpBody ..
    · cases h
  · cases h

/-- An I-format row keeps what the body of its own opcode keeps. -/
theorem kept_issue_imm {c t op : Nat} {f : Nat → Nat → Nat → Body} (hf : ∀ rd ra k s, (f rd ra k s).Keeps s.kept) (s : State) :
    (issue s c t fun i => match i with
      | .imm op' rd ra k => if op' = op then some (f rd ra k) else none
      | _ => none).kept = s.kept := kept_issue fun i b h u => by
  split at h
  · split at h
    · cases h
      exact hf ..
    · cases h
  · cases h

@[simp] theorem kept_immRow (c t op : Nat) (s : State) : (immRow c t op s).kept = s.kept :=
  kept_issue_imm (fun _ _ _ _ => keeps_immBody ..) s

@[simp] theorem kept_loadRow (c t op : Nat) (e : Upset) (s : State) : (loadRow c t op e s).kept = s.kept :=
  kept_issue_imm (fun _ _ _ _ => keeps_loadBody ..) s

@[simp] theorem kept_storeRow (c t op n : Nat) (s : State) : (storeRow c t op n s).kept = s.kept :=
  kept_issue_imm (fun _ _ _ _ => keeps_storeBody ..) s

theorem kept_accessRow {c t op : Nat} {f : Nat → Nat → Nat → Body} (hf : ∀ rd ra k s, (f rd ra k s).Keeps s.kept) (s : State) :
    (accessRow c t op f s).kept = s.kept := kept_issue_imm hf s

@[simp] theorem kept_elemCheck (s : State) (c t : Nat) (a : Word) (n : Nat) : (elemCheck s c t a n).1.kept = s.kept :=
  kept_dataCheck ..

@[simp] theorem kept_elemTest (s : State) (c t : Nat) (holds : Bool) : (elemTest s c t holds).kept = s.kept := kept_setNzcv ..

@[simp] theorem kept_elemPut (s : State) (c t n : Nat) (a13 : Word) (v : Nat) : (elemPut s c t n a13 v).kept = s.kept :=
  (kept_setG ..).trans (kept_storePush ..)

@[simp] theorem kept_strElem (c t kind sz ra rb : Nat) (g : Nat → Word) (e : Upset) (s : State) :
    (strElem c t kind sz ra rb g e s).1.kept = s.kept := by
  unfold strElem
  extract_lets n a12 a13 step reads12 k₁ k₂ r q u
  have h₁ : k₁.1.kept = s.kept := by
    unfold k₁
    split
    · exact kept_elemCheck ..
    · rfl
  have h₂ : k₂.1.kept = s.kept := (kept_elemCheck ..).trans h₁
  have hr : r.1.kept = s.kept := by
    unfold r
    split
    · exact (kept_dataRead ..).trans h₂
    · exact h₂
  split
  · exact h₁
  · split
    · exact h₂
    · split
      · exact hr
      · split
        · exact (kept_elemPut ..).trans ((kept_setG ..).trans hr)
        · exact (kept_elemPut ..).trans hr
        · have hq : q.1.kept = s.kept := (kept_dataRead ..).trans hr
          have hu : u.kept = s.kept := by simp [u, hq]
          split
          · exact hq
          · exact (kept_elemTest ..).trans ((kept_setG ..).trans hu)

theorem keeps_strBody (c t kind sz ra rb : Nat) (e : Upset) (s : State) : (strBody c t kind sz ra rb e s).Keeps s.kept := by
  unfold strBody
  extract_lets x r
  split
  · exact keeps_fault (kept_strElem ..) ..
  · exact keeps_done (kept_strElem ..) _

@[simp] theorem kept_strRow (c t kind : Nat) (e : Upset) (s : State) : (strRow c t kind e s).kept = s.kept :=
  kept_issue fun i b h u => by
  split at h
  · split at h
    · cases h
      exact keeps_strBody ..
    · cases h
  · cases h

@[simp] theorem kept_pairDone (s : State) (c t : Nat) : (pairDone s c t).kept = s.kept := by
  simp [pairDone]

@[simp] theorem kept_pairElem (s : State) (c t mode kind sz ra rb : Nat) (n : Word) (e : Upset) :
    (pairElem s c t mode kind sz ra rb n e).kept = s.kept := by
  unfold pairElem
  extract_lets r u z
  have hu : u.kept = s.kept := (kept_setG ..).trans (kept_strElem ..)
  split
  · exact (kept_trapTo ..).trans (kept_strElem ..)
  · split
    · exact (kept_pairDone ..).trans hu
    · exact (kept_stepEnd ..).trans ((kept_setThr ..).trans hu)

@[simp] theorem kept_repbStart (s : State) (c t mode : Nat) (e : Upset) : (repbStart s c t mode e).kept = s.kept := by
  unfold repbStart
  extract_lets x u
  have hu : u.kept = s.kept := kept_fetchInto ..
  (repeat' split) <;> simp [hu]

@[simp] theorem kept_repbRow (c t : Nat) (e : Upset) (s : State) : (repbRow c t e s).kept = s.kept := by
  unfold repbRow
  (repeat' split) <;> simp

@[simp] theorem kept_repeatElement (s : State) (c t : Nat) (e : Upset) : (repeatElement s c t e).kept = s.kept := by
  unfold repeatElement
  extract_lets x
  (repeat' split) <;> simp

@[simp] theorem kept_surfRead (s : State) (space a z : Nat) : (surfRead s space a z).1.kept = s.kept := by
  unfold surfRead
  (repeat' split) <;> simp

@[simp] theorem kept_surfPut (s : State) (space z : Nat) (e : Nat × Nat) : (surfPut s space z e).kept = s.kept := by
  unfold surfPut
  (repeat' split) <;> simp [↓kept_with]

@[simp] theorem kept_blitElem (b : Blit) (y : Nat) (w : BlitRow) (x : Nat) : (blitElem b y w x).st.kept = w.st.kept := by
  unfold blitElem
  extract_lets fmt z da sv
  have hsv : sv.1.kept = w.st.kept := by
    unfold sv
    split
    · rfl
    · exact kept_surfRead ..
  split
  · rfl
  · clear_value sv
    obtain ⟨t, _ | v⟩ := sv
    · exact hsv
    · dsimp -zeta only
      extract_lets dv
      have hdv : dv.1.kept = w.st.kept := by
        rw [← hsv]
        unfold dv
        (repeat' split) <;> simp
      clear_value dv
      obtain ⟨u, _ | d⟩ := dv
      · exact hdv
      · exact hdv

@[simp] theorem kept_blitRow (s : State) (b : Blit) (y : Nat) : (blitRow s b y).st.kept = s.kept := by
  have hfold (l : List Nat) (w : BlitRow) : (l.foldl (blitElem b y) w).st.kept = w.st.kept := by
    induction l generalizing w with
    | nil => rfl
    | cons x l ih => exact (ih _).trans (kept_blitElem ..)
  exact hfold _ _

@[simp] theorem kept_blitRowDone (s : State) (b : Blit) (es : List (Nat × Nat)) : (blitRowDone s b es).kept = s.kept := by
  simp [blitRowDone]

@[simp] theorem kept_blitMix (s : State) (b : Blit) (es : List (Nat × Nat)) : (blitMix s b es).kept = s.kept := by
  unfold blitMix
  refine kept_foldl (fun s e => ?_) s
  exact (kept_surfPut ..).trans (kept_mixBytes ..)

@[simp] theorem kept_blitError (b : Blit) (w : BlitRow) : (blitError b w).kept = w.st.kept := by
  simp [blitError, ↓kept_with]

@[simp] theorem kept_blitStep (s : State) (last : Bool) : (blitStep s last).kept = s.kept := by
  unfold blitStep
  (repeat' split) <;> simp [↓kept_with]

@[simp] theorem kept_blitAbort (s : State) : (blitAbort s).kept = s.kept := by
  unfold blitAbort
  (repeat' split) <;> simp

end Sys2Proof.Machine
end

section
/-! SUPPORT. The queue is first in, first out (O6) and the straps stand (O7). -/
namespace Sys2Proof.Machine

/-- No command but a power-on reset changes the commands that wait and the sampled straps: by cases on the command, from what each
state operation keeps. -/
theorem exec_keeps {i : Instr} {s t : State} (h : exec i s = .next t) (hi : ∀ k, i ≠ .powerOnReset k) : t.kept = s.kept := by
  cases i
  case powerOnReset k => exact absurd rfl (hi k)
  case opLdi c t e => cases h; exact kept_accessRow (fun _ _ _ _ => keeps_ldiBody ..) s
  case opSti c t => cases h; exact kept_accessRow (fun _ _ _ _ => keeps_stiBody ..) s
  case opIn c t => cases h; exact (kept_accessRow (fun _ _ _ _ => keeps_inBody ..) _).trans (kept_accessCycle ..)
  case opOut c t => cases h; exact (kept_accessRow (fun _ _ _ _ => keeps_outBody ..) _).trans (kept_accessCycle ..)
  case opB c t => cases h; exact kept_issue fun i b h u => by split at h <;> cases h; exact keeps_branchBody ..
  case opJ c t => cases h; exact kept_issue fun i b h u => by split at h <;> cases h; exact keeps_jump rfl _
  case opJr c t => cases h; exact kept_issue fun i b h u => by split at h <;> cases h; exact keeps_jump rfl _
  case opCall c t => cases h; exact kept_issue fun i b h u => by split at h <;> cases h; exact keeps_callBody ..
  case opCallr c t => cases h; exact kept_issue fun i b h u => by split at h <;> cases h; exact keeps_callBody ..
  case opRet c t e => cases h; exact kept_issue fun i b h u => by split at h <;> cases h; exact keeps_retBody ..
  case opCallm c t => cases h; exact kept_issue fun i b h u => by split at h <;> cases h; exact keeps_callmBody ..
  case opRetm c t e => cases h; exact kept_issue fun i b h u => by split at h <;> cases h; exact keeps_retmBody ..
  case opRetx c t e => cases h; exact kept_issue fun i b h u => by split at h <;> cases h; exact keeps_retxBody ..
  case opMfs c t => cases h; exact kept_issue fun i b h u => by split at h <;> cases h; exact keeps_mfsBody ..
  case opMts c t => cases h; exact kept_issue fun i b h u => by split at h <;> cases h; exact keeps_mtsBody ..
  case opTrap c t => cases h; exact kept_issue fun i b h u => by split at h <;> cases h; exact rfl
  case opWfe c t => cases h; exact kept_issue fun i b h u => by split at h <;> cases h; exact keeps_wfeBody ..
  case opSev c t => cases h; exact kept_issue fun i b h u => by split at h <;> cases h; exact keeps_sevBody ..
  case opWaitt c t => cases h; exact kept_issue fun i b h u => by split at h <;> cases h; exact keeps_waittBody ..
  case opIflush c t => cases h; exact kept_issue fun i b h u => by split at h <;> cases h; exact keeps_jump rfl _
  case opBarx c t => cases h; exact kept_issue fun i b h u => by split at h <;> cases h; exact keeps_barxBody ..
  case opBrk c t => cases h; exact kept_issue fun i b h u => by split at h <;> cases h; exact keeps_brkBody ..
  all_goals
    cases h
    simp

theorem exec_keeps_pending {i : Instr} {s t : State} (h : exec i s = .next t) : t.pending = s.pending := by
  by_cases hi : ∀ k, i ≠ .powerOnReset k
  · exact congrArg Prod.fst (exec_keeps h hi)
  · push Not at hi
    obtain ⟨k, rfl⟩ := hi
    cases h
    exact pending_powerOn ..

/-- Settles O6: by cases on the queue; what runs keeps the rest of it. -/
theorem queueIsFifo : Obligations.QueueIsFifo := by
  intro s t h
  unfold step at h
  split at h
  · cases h
    rename_i hnil
    exact (congrArg Prod.fst (kept_idleCycle s)).trans (by simp [State.kept, hnil])
  · rename_i c r hcons
    rw [exec_keeps_pending h, hcons]
    rfl

/-- Settles O7: the command that runs is no power-on reset, and no other one changes the straps. -/
theorem strapsStand : Obligations.StrapsStand := by
  intro s t hhead h
  have hstraps : t.kept.2 = s.kept.2 := by
    unfold step at h
    split at h
    · cases h
      rw [kept_idleCycle]
    · rename_i c r hcons
      rw [exec_keeps h fun k hk => hhead k (by rw [hcons, hk]; rfl)]
      rfl
  obtain ⟨hboot, hclk, hmst⟩ : t.rst.strapBoot = s.rst.strapBoot ∧ t.rst.strapClk = s.rst.strapClk ∧
      t.rst.strapMst = s.rst.strapMst := by simpa [State.kept] using hstraps
  exact ⟨hboot, hclk, hmst⟩

end Sys2Proof.Machine
end

section
/-! SUPPORT. A step runs the front of the queue (O1); the memories at reset (O4). -/
namespace Sys2Proof.Machine

/-- Settles O1: a step with a command waiting is that command on the rest, by definition. -/
theorem stepRunsFront : Obligations.StepRunsFront := fun _ _ _ => rfl

/-- Settles O4: every memory is empty at reset. -/
theorem resetMemoriesWf : Obligations.ResetMemoriesWf := by
  unfold Obligations.ResetMemoriesWf State.MemoriesWf
  decide

end Sys2Proof.Machine
end


section
/-! SUPPORT. The threads of the Sepia cores as an instruction meets them: what is left unchanged beside one thread, prefetch queues, the end
of an instruction (O43 to O51). -/
namespace Sys2Proof.Machine

/-! ### What is left unchanged but for one thread -/

/-- `u` is `s` but for thread `t` of core `c`. -/
def OnlyThread (c t : Nat) (s u : State) : Prop :=
  u = { s with sep := { s.sep with threads := u.sep.threads } } ∧
  ∀ k, k ≠ 4 * c + t → smGet Thread.idle u.sep.threads k = smGet Thread.idle s.sep.threads k

theorem OnlyThread.refl (c t : Nat) (s : State) : OnlyThread c t s s := ⟨rfl, fun _ _ => rfl⟩

theorem OnlyThread.setThr {c t : Nat} {s u : State} (h : OnlyThread c t s u) (x : Thread) : OnlyThread c t s (u.setThr c t x) := by
  obtain ⟨hrest, hothers⟩ := h
  exact ⟨by rw [hrest]; rfl, fun k hk => (smGet_smSet_other _ _ _ _ _ _ hk).trans (hothers k hk)⟩

theorem OnlyThread.trans {c t : Nat} {s u v : State} (h : OnlyThread c t s u) (h' : OnlyThread c t u v) : OnlyThread c t s v := by
  obtain ⟨hrest, hothers⟩ := h
  obtain ⟨hrest', hothers'⟩ := h'
  exact ⟨by rw [hrest', hrest], fun k hk => (hothers' k hk).trans (hothers k hk)⟩

theorem OnlyThread.thr_other {c t d h : Nat} {s u : State} (hu : OnlyThread c t s u) (hk : 4 * d + h ≠ 4 * c + t) :
    u.thr d h = s.thr d h := hu.2 _ hk

theorem OnlyThread.rd {c t : Nat} {s u : State} (h : OnlyThread c t s u) (o : Nat) : u.rd o = s.rd o := by rw [h.1]; rfl

theorem OnlyThread.bad {c t : Nat} {s u : State} (h : OnlyThread c t s u) : u.sep.bad = s.sep.bad := by rw [h.1]

theorem OnlyThread.mem {c t : Nat} {s u : State} (h : OnlyThread c t s u) : u.sep.mem = s.sep.mem := by rw [h.1]

/-! ### Instruction space without damage, prefetch queues (R340, R347) -/

/-- The word of the instruction space of core `c` at `a`; none where a fetch faults. -/
def State.iword (s : State) (c a : Nat) : Option Word :=
  if a % 4 ≠ 0 then none else (imemKey c a).map fun k => BitVec.ofNat 32 (memWord s.sep.mem k)

theorem iRead_of_undamaged {s : State} (h : s.sep.bad = []) (c a : Nat) : iRead s c a = (s, s.iword c a) := by
  unfold iRead State.iword
  split
  · rfl
  · cases imemKey c a with
    | none => rfl
    | some k => simp [State.sepBad, h]

/-- The `n` words from `a` on, as they are fetched. -/
def State.fetched (s : State) (c n a : Nat) : List (Option Word) := (List.range n).map fun i => s.iword c ((a + 4 * i) % 2 ^ 32)

theorem fetched_succ (s : State) (c n a : Nat) : s.fetched c (n + 1) a = s.iword c (a % 2 ^ 32) :: s.fetched c n (a + 4) := by
  simp [State.fetched, List.range_succ_eq_map, Nat.mul_add, Nat.add_assoc, Nat.add_comm]

theorem fetched_congr {s u : State} (h : u.sep.mem = s.sep.mem) (c n a : Nat) : u.fetched c n a = s.fetched c n a := by
  simp [State.fetched, State.iword, h]

/-- The thread with another prefetch queue. -/
def Thread.withQueue (x : Thread) (q : List (Option Word)) : Thread := { x with queue := q }

@[simp] theorem use_withQueue (x : Thread) (q : List (Option Word)) (r : Nat) : (x.withQueue q).use r = x.use r := rfl

@[simp] theorem reg_withQueue (x : Thread) (q : List (Option Word)) (r : Nat) : (x.withQueue q).reg r = x.reg r := rfl

@[simp] theorem withQueue_withQueue (x : Thread) (q p : List (Option Word)) : (x.withQueue q).withQueue p = x.withQueue p := rfl

theorem setReg_withQueue (x : Thread) (q : List (Option Word)) (r : Nat) (w : Word) :
    (x.withQueue q).setReg r w = (x.setReg r w).withQueue q := by
  unfold Thread.setReg
  split <;> rfl

/-- What a fetch of `n` words does where no word is damaged. -/
theorem fetchInto_of_undamaged (c t n a : Nat) {s : State} (h : s.sep.bad = []) :
    OnlyThread c t s (fetchInto c t n a s) ∧
    (fetchInto c t n a s).thr c t = (s.thr c t).withQueue ((s.thr c t).queue ++ s.fetched c n a) := by
  induction n generalizing a s with
  | zero => exact ⟨.refl .., by simp [fetchInto, State.fetched, Thread.withQueue]⟩
  | succ n ih =>
    have hone : fetchInto c t (n + 1) a s = fetchInto c t n (a + 4)
        (s.setThr c t { s.thr c t with queue := (s.thr c t).queue ++ [s.iword c (a % 2 ^ 32)] }) := by
      simp only [fetchInto, iRead_of_undamaged h]
    obtain ⟨hrest, hthr⟩ := ih (a + 4)
      (s := s.setThr c t { s.thr c t with queue := (s.thr c t).queue ++ [s.iword c (a % 2 ^ 32)] }) h
    rw [hone]
    refine ⟨((OnlyThread.refl c t s).setThr _).trans hrest, ?_⟩
    rw [hthr, State.thr_setThr_same, fetched_succ]
    simp only [List.append_assoc, List.cons_append, List.nil_append]
    rfl

/-- A flush where no word is damaged (R340). -/
theorem flushTo_of_undamaged (c t : Nat) (a : Word) {s : State} (h : s.sep.bad = []) :
    OnlyThread c t s (flushTo s c t a) ∧
    (flushTo s c t a).thr c t = { s.thr c t with pc := a, queue := s.fetched c 4 a.toNat } := by
  obtain ⟨hrest, hthr⟩ := fetchInto_of_undamaged c t 4 a.toNat (s := s.setThr c t { s.thr c t with pc := a, queue := [] }) h
  refine ⟨((OnlyThread.refl c t s).setThr _).trans hrest, ?_⟩
  rw [flushTo, hthr, State.thr_setThr_same]
  rfl

/-! ### The state in which an issued instruction works -/

/-- `v` is `u` but for the turn that thread `t` of core `c` has taken and for its prefetch queue. -/
def IssuedFrom (c t : Nat) (u v : State) : Prop :=
  v.thr c t = (u.thr c t).withQueue (v.thr c t).queue ∧
  (∀ k, k ≠ 4 * c + t → smGet Thread.idle v.sep.threads k = smGet Thread.idle u.sep.threads k) ∧
  v = { u with sep := { u.sep with threads := v.sep.threads, turn := smSet 0 u.sep.turn c ((t + 1) % 4) } }

theorem issuedFrom_takeTurn (c t : Nat) (s : State) : IssuedFrom c t s (takeTurn s c t) := ⟨rfl, fun _ _ => rfl, rfl⟩

theorem IssuedFrom.onlyQueue {c t : Nat} {u v w : State} (h : IssuedFrom c t u v) (hw : OnlyThread c t v w)
    {q : List (Option Word)} (hthr : w.thr c t = (v.thr c t).withQueue q) : IssuedFrom c t u w := by
  obtain ⟨hx, hothers, hrest⟩ := h
  obtain ⟨hwrest, hwothers⟩ := hw
  refine ⟨?_, fun k hk => (hwothers k hk).trans (hothers k hk), ?_⟩
  · rw [hthr, hx]; rfl
  · rw [hwrest, hrest]

theorem issuedFrom_issued {s : State} (c t : Nat) (h : s.sep.bad = []) : IssuedFrom c t s (s.issued c t) := by
  obtain ⟨hrest, hthr⟩ := fetchInto_of_undamaged c t 1 ((s.thr c t).pc.toNat + 4 * (s.thr c t).queue.length)
    (s := (takeTurn s c t).setThr c t ((s.thr c t).withQueue ((s.thr c t).queue.drop 1))) h
  rw [State.thr_setThr_same, withQueue_withQueue] at hthr
  exact (issuedFrom_takeTurn c t s).onlyQueue (((OnlyThread.refl c t _).setThr _).trans hrest) hthr

/-- The same change of the thread on both sides keeps the relation. -/
theorem IssuedFrom.setThr {c t : Nat} {u v : State} (h : IssuedFrom c t u v) {x y : Thread} (hxy : y = x.withQueue y.queue) :
    IssuedFrom c t (u.setThr c t x) (v.setThr c t y) := by
  obtain ⟨-, hothers, hrest⟩ := h
  refine ⟨by simpa using hxy, fun k hk => ?_, ?_⟩
  · exact (smGet_smSet_other _ _ _ _ _ _ hk).trans ((hothers k hk).trans (smGet_smSet_other _ _ _ _ _ _ hk).symm)
  · rw [hrest]
    rfl

/-- So does a change of the thread that leaves its queue. -/
theorem IssuedFrom.mapThr {c t : Nat} {u v : State} (h : IssuedFrom c t u v) {f : Thread → Thread}
    (hf : ∀ x q, f (x.withQueue q) = (f x).withQueue q) :
    IssuedFrom c t (u.setThr c t (f (u.thr c t))) (v.setThr c t (f (v.thr c t))) := by
  obtain ⟨q, hq⟩ : ∃ q, v.thr c t = (u.thr c t).withQueue q := ⟨_, h.1⟩
  refine h.setThr ?_
  rw [hq, hf]
  rfl

theorem IssuedFrom.setG {c t : Nat} {u v : State} (h : IssuedFrom c t u v) (r : Nat) (w : Word) :
    IssuedFrom c t (u.setG c t r w) (v.setG c t r w) := 
  h.mapThr (f := fun x => x.setReg r w) fun x q => setReg_withQueue x q r w

theorem IssuedFrom.setNzcv {c t : Nat} {u v : State} (h : IssuedFrom c t u v) (f : Nzcv) :
    IssuedFrom c t (u.setNzcv c t f) (v.setNzcv c t f) := h.mapThr (f := fun x => { x with sw := setFlags x.sw f }) fun _ _ => rfl

theorem IssuedFrom.use {c t : Nat} {u v : State} (h : IssuedFrom c t u v) (r : Nat) : (v.thr c t).use r = (u.thr c t).use r := by
  rw [h.1]
  rfl

theorem IssuedFrom.sw {c t : Nat} {u v : State} (h : IssuedFrom c t u v) : (v.thr c t).sw = (u.thr c t).sw := by
  rw [h.1]
  rfl

theorem IssuedFrom.pc {c t : Nat} {u v : State} (h : IssuedFrom c t u v) : (v.thr c t).pc = (u.thr c t).pc := by
  rw [h.1]
  rfl

/-- The same change on the one side alone, where it changes nothing of the thread. -/
theorem IssuedFrom.sameThread {c t : Nat} {u v w : State} (h : IssuedFrom c t u v) (hw : OnlyThread c t u w)
    (hthr : w.thr c t = u.thr c t) : IssuedFrom c t w v := by
  obtain ⟨hx, hothers, hrest⟩ := h
  obtain ⟨hwrest, hwothers⟩ := hw
  refine ⟨by rw [hthr]; exact hx, fun k hk => (hothers k hk).trans (hwothers k hk).symm, ?_⟩
  rw [hwrest, hrest]

theorem IssuedFrom.rd {c t : Nat} {u v : State} (h : IssuedFrom c t u v) (o : Nat) : v.rd o = u.rd o := by rw [h.2.2]; rfl

theorem IssuedFrom.dctlBit {c t : Nat} {u v : State} (h : IssuedFrom c t u v) (d b : Nat) : v.dctlBit d b = u.dctlBit d b := by
  rw [State.dctlBit, h.rd, State.dctlBit]

theorem IssuedFrom.flag {c t : Nat} {u v : State} (h : IssuedFrom c t u v) (f : Fld) : v.flag f = u.flag f := by
  rw [State.flag, State.fld, h.rd, State.flag, State.fld]

theorem IssuedFrom.mem {c t : Nat} {u v : State} (h : IssuedFrom c t u v) : v.sep.mem = u.sep.mem := by rw [h.2.2]

theorem IssuedFrom.bad {c t : Nat} {u v : State} (h : IssuedFrom c t u v) : v.sep.bad = u.sep.bad := by rw [h.2.2]

/-- A register after a write. -/
theorem reg_setReg (x : Thread) (r q : Nat) (v : Word) : (x.setReg r v).reg q = if q = r ∧ q ≠ 0 then v else x.reg q := by
  unfold Thread.setReg Thread.reg
  by_cases hr : r = 0
  · subst hr
    rw [if_pos rfl, if_neg fun h : q = 0 ∧ q ≠ 0 => h.2 h.1]
  · rw [if_neg hr]
    by_cases hq : q = r
    · subst hq
      simp [hr]
    · simp [hq, smGet_smSet_other _ _ _ _ _ _ hq]

/-! ### The end of an instruction (R338 to R340) -/

theorem foldl_products (l : List (Nat × Option Word × Option Word)) (x : Thread) :
    ∃ ml mh, l.foldl (fun x m => { x with ml := m.2.1.getD x.ml, mh := m.2.2.getD x.mh }) x = { x with ml := ml, mh := mh } := by
  induction l generalizing x with
  | nil => exact ⟨x.ml, x.mh, rfl⟩
  | cons m l ih => exact ih _

/-- Products that come nearer change ML, MH and those on their way alone. -/
theorem age_eq (x : Thread) : ∃ mul ml mh, x.age = { x with mul := mul, ml := ml, mh := mh } := by
  obtain ⟨ml, mh, h⟩ := foldl_products (x.mul.filter fun m => decide (m.1 = 1))
    { x with mul := (x.mul.map fun m => (m.1 - 1, m.2)).filter fun m => !decide (m.1 = 0) }
  exact ⟨_, ml, mh, h⟩

theorem age_of_noProducts {x : Thread} (h : x.mul = []) : x.age = x := by
  obtain ⟨⟩ := x
  cases h
  rfl

theorem age_withQueue (x : Thread) (q : List (Option Word)) : ∃ mul ml mh,
    (x.withQueue q).age = { x with queue := q, mul := mul, ml := ml, mh := mh } ∧
    (x.mul = [] → mul = [] ∧ ml = x.ml ∧ mh = x.mh) := by
  obtain ⟨mul, ml, mh, h⟩ := age_eq (x.withQueue q)
  refine ⟨mul, ml, mh, h, fun hmul => ?_⟩
  rw [age_of_noProducts (x := x.withQueue q) hmul] at h
  exact ⟨(congrArg Thread.mul h).symm.trans hmul, (congrArg Thread.ml h).symm, (congrArg Thread.mh h).symm⟩

theorem stepEnd_unstepped {s : State} {c t : Nat} (h : s.dctlBit c (8 + t) = false) : stepEnd s c t = s := by
  simp [stepEnd, h]

/-- The thread that ends an instruction holds what the instruction left, but for what every end changes. -/
theorem IssuedFrom.threadMoved {c t : Nat} {u v w : State} (h : IssuedFrom c t u v) (hw : OnlyThread c t v w) {pc : Word}
    {old : Option (Nat × Word)} {q : List (Option Word)}
    (hthr : w.thr c t = { (v.thr c t).age with pc := pc, queue := q, old := old, wait := none, mid := false }) :
    ThreadAt u w c t pc old := by
  obtain ⟨hx, hothers, hrest⟩ := h
  obtain ⟨hwrest, hwothers⟩ := hw
  obtain ⟨mul, ml, mh, hage, hquiet⟩ := age_withQueue (u.thr c t) (v.thr c t).queue
  rw [hx, hage] at hthr
  refine ⟨⟨by rw [hthr], fun hmul => ?_, fun k hk => (hwothers k hk).trans (hothers k hk), ?_⟩, ?_⟩
  · rw [hthr]
    exact hquiet hmul
  · rw [hwrest, hrest]
  · rw [hwrest, hrest]

/-- A thread that runs and is not single-stepped ends an instruction by moving on. -/
theorem finish_eq {v : State} {c t : Nat} (hrun : (v.thr c t).state = .running) (hstep : v.dctlBit c (8 + t) = false) (n : Nat)
    (old : Option (Nat × Word)) : finish v c t n old = v.setThr c t { (v.thr c t).age with
      pc := (v.thr c t).pc + BitVec.ofNat 32 n, old := old, wait := none, mid := false } := by
  rw [finish, if_pos hrun]
  exact stepEnd_unstepped hstep

/-- An instruction completes: the thread stands behind it. -/
theorem IssuedFrom.finish {c t : Nat} {u v : State} (h : IssuedFrom c t u v) (hstep : u.dctlBit c (8 + t) = false)
    (hrun : (u.thr c t).state = .running) (n : Nat) (old : Option (Nat × Word)) :
    ThreadAt u (finish v c t n old) c t ((u.thr c t).pc + BitVec.ofNat 32 n) old := by
  have hv : (v.thr c t).state = .running := (congrArg Thread.state h.1).trans hrun
  rw [finish_eq hv ((h.dctlBit c (8 + t)).trans hstep), h.pc]
  exact h.threadMoved ((OnlyThread.refl c t v).setThr _) (State.thr_setThr_same ..)

/-- An instruction ends in a taken branch: the thread stands at its target. -/
theorem IssuedFrom.jumpTo {c t : Nat} {u v : State} (h : IssuedFrom c t u v) (hstep : u.dctlBit c (8 + t) = false)
    (hbad : u.sep.bad = []) (a : Word) : ThreadAt u (jumpTo v c t a) c t a none := by
  have hbad' : (v.setThr c t { (v.thr c t).age with old := none, wait := none, mid := false }).sep.bad = [] := h.bad.trans hbad
  obtain ⟨hrest, hthr⟩ := flushTo_of_undamaged c t a hbad'
  have hstep' : (flushTo (v.setThr c t { (v.thr c t).age with old := none, wait := none, mid := false }) c t a).dctlBit c (8 + t) = false := by
    rw [State.dctlBit, hrest.rd]
    exact (h.dctlBit c (8 + t)).trans hstep
  rw [Machine.jumpTo, stepEnd_unstepped hstep']
  rw [State.thr_setThr_same] at hthr
  exact h.threadMoved (((OnlyThread.refl c t v).setThr _).trans hrest) hthr

/-! ### Issuing (R338) -/

/-- A thread that presents an instruction runs, and nothing holds it back. -/
theorem front_ins {s : State} {c t : Nat} {i : Ins} (h : s.front c t = .ins i) :
    s.coreUp c = true ∧ t < 4 ∧ (s.thr c t).state = .running ∧ (s.thr c t).wait = none ∧ (s.thr c t).mid = false ∧
    s.dctlBit c t = false ∧ (s.thr c t).due = [] := by
  unfold State.front at h
  extract_lets x at h
  split at h
  · cases h
  · split at h
    · cases h
    · rename_i hfree hdue
      simp only [Bool.or_eq_true, Bool.not_eq_true', decide_eq_true_eq, not_or, Bool.not_eq_false, Nat.not_le, ne_eq,
        Decidable.not_not, Bool.not_eq_true] at hfree
      obtain ⟨⟨⟨⟨⟨hup, ht⟩, hrun⟩, hwait⟩, hmid⟩, hhalt⟩ := hfree
      exact ⟨hup, ht, hrun, Option.isSome_eq_false_iff.1 hwait |> Option.isNone_iff_eq_none.1, hmid, hhalt, by simpa using hdue⟩

theorem Issues.running {s : State} {c t : Nat} {i : Ins} (h : Issues s c t i) : (s.thr c t).state = .running :=
  (front_ins h.2.1).2.2.1

/-- An instruction that can issue does, where the row gives it the meaning `body`. -/
theorem Issues.issue_eq {s : State} {c t : Nat} {i : Ins} (h : Issues s c t i) {f : Ins → Option Body} {body : Body}
    (hf : f i = some body) : issue s c t f = settleRes (takeTurn s c t) c t (body (s.issued c t)) := by
  obtain ⟨hturn, hfront, hfree⟩ := h
  simp only [issue, hturn, hfront, hf, hfree]
  rfl

/-- What an instruction reads from the thread it belongs to is what the thread held before. -/
theorem thr_issued {s : State} (c t : Nat) (h : s.sep.bad = []) : ∃ q, (s.issued c t).thr c t = (s.thr c t).withQueue q :=
  ⟨_, (issuedFrom_issued c t h).1⟩

end Sys2Proof.Machine
end


section
/-! SUPPORT. Single bits of register words that a command writes, and of SEP_DCTL (O50, O51). -/
namespace Sys2Proof.Machine

/-! ### Bits and fields of words -/

/-- A bit of a word with one field replaced. -/
theorem getLsbD_wSetField (w : Word) {hi lo : Nat} (v i : Nat) (h : lo ≤ hi) (hh : hi < 32) :
    (wSetField w hi lo v).getLsbD i = if lo ≤ i ∧ i ≤ hi then v.testBit (i - lo) else w.getLsbD i := by
  simp only [BitVec.getLsbD, wSetField_toNat w hi lo v h hh]
  split
  · have hfield := congrArg (Nat.testBit · (i - lo)) (bitsOf_setBitsOf_same w.toNat hi lo v h)
    simp only [bitsOf, Nat.testBit_mod_two_pow, Nat.testBit_shiftRight] at hfield
    have hlt : i - lo < hi + 1 - lo := by omega
    rw [show lo + (i - lo) = i by omega] at hfield
    simpa [hlt] using hfield
  · by_cases hi' : i < lo
    · have hlow := congrArg (Nat.testBit · i) (setBitsOf_low w.toNat hi lo v h)
      simpa [Nat.testBit_mod_two_pow, hi'] using hlow
    · have hhigh := congrArg (Nat.testBit · (i - (hi + 1))) (setBitsOf_high w.toNat hi lo v h)
      simp only [Nat.testBit_div_two_pow] at hhigh
      rwa [show i - (hi + 1) + (hi + 1) = i by omega] at hhigh

/-- A bit of a field is the word's bit. -/
theorem testBit_wField (w : Word) (hi lo i : Nat) : (wField w hi lo).testBit i = (decide (i < hi + 1 - lo) && w.getLsbD (lo + i)) := by
  simp [wField, bitsOf, Nat.testBit_mod_two_pow, Nat.testBit_shiftRight, BitVec.getLsbD]

theorem rd_setFld_self (s : State) (f : Fld) (v : Nat) : (s.setFld f v).rd f.off = wSetField (s.rd f.off) f.hi f.lo v :=
  State.rd_wr_same _ _ _

/-! ### SEP_DCTL (R359) -/

@[simp] theorem thr_setFld (s : State) (f : Fld) (v c t : Nat) : (s.setFld f v).thr c t = s.thr c t := rfl
@[simp] theorem thr_setDctlBit (s : State) (c b : Nat) (v : Bool) (d t : Nat) : (setDctlBit s c b v).thr d t = s.thr d t := rfl
@[simp] theorem dctlBit_setThr (s : State) (c t : Nat) (x : Thread) (d b : Nat) : (s.setThr c t x).dctlBit d b = s.dctlBit d b := rfl

theorem dctlBit_setDctlBit (s : State) (c : Nat) {b k : Nat} (v : Bool) (hb : b < 32) :
    (setDctlBit s c b v).dctlBit c k = if k = b then v else s.dctlBit c k := by
  rw [State.dctlBit, setDctlBit, State.setFlag, rd_setFld_self, getLsbD_wSetField _ _ _ (Nat.le_refl b) hb]
  by_cases hk : k = b
  · subst hk
    cases v <;> simp [b2n]
  · rw [if_neg (by omega), if_neg hk]
    rfl

theorem dctlBit_setFld_above (s : State) (c : Nat) {f : Fld} (v : Nat) {k : Nat} (hoff : f.off = Reg.SEP_DCTL c) (hk : k < f.lo)
    (hlo : f.lo ≤ f.hi) (hhi : f.hi < 32) : (s.setFld f v).dctlBit c k = s.dctlBit c k := by
  rw [State.dctlBit, ← hoff, rd_setFld_self, getLsbD_wSetField _ _ _ hlo hhi, if_neg (by omega), State.dctlBit, hoff]

@[simp] theorem wField_zero (hi lo : Nat) : wField 0#32 hi lo = 0 := by simp [wField, bitsOf]

/-- SEP_DCTL with BRKEN as it stands and ALL 0. -/
def dctlHeld (s : State) (c : Nat) : State := (s.setFld (Reg.SEP_DCTL_BRKEN c) (s.fld (Reg.SEP_DCTL_BRKEN c))).setFld (Reg.SEP_DCTL_ALL c) 0

/-- The threads that a mask names. -/
def maskThreads (mask : BitVec 4) : List Nat := (List.range 4).filter fun t => mask.getLsbD t

theorem mem_maskThreads {mask : BitVec 4} {t : Nat} (h : t < 4) : t ∈ maskThreads mask ↔ mask.getLsbD t = true := by
  simp [maskThreads, h]

theorem dctlThreads_mask (mask : BitVec 4) : dctlThreads false mask.toNat = maskThreads mask := by
  simp [dctlThreads, maskThreads, bit, BitVec.getLsbD]

theorem dctlThreads_none : dctlThreads false 0 = [] := rfl

theorem fld_bit_mod (s : State) (off b : Nat) : s.fld ⟨off, b, b⟩ % 2 = s.fld ⟨off, b, b⟩ := by
  have hlt := wField_lt (s.rd off) b b
  rw [Nat.add_sub_cancel_left] at hlt
  exact Nat.mod_eq_of_lt hlt

theorem getLsbD_eq_false_of_wField {w : Word} {b : Nat} (h : wField w b b = 0) : w.getLsbD b = false := by
  have hbit := testBit_wField w b b 0
  rw [h, Nat.zero_testBit] at hbit
  simpa using hbit.symm

/-- The fields of the word that a command writes to SEP_DCTL. -/
theorem dctlWord_fields (s : State) (c : Nat) (mask : BitVec 4) {pos : Nat} (hpos : pos = 0 ∨ pos = 4 ∨ pos = 8) :
    let w := dctlWord s c false pos mask.toNat
    wField w 31 31 = s.fld (Reg.SEP_DCTL_BRKEN c) ∧ wField w 30 30 = 0 ∧ wField w 3 0 = (if pos = 0 then mask.toNat else 0) ∧
      wField w 7 4 = (if pos = 4 then mask.toNat else 0) ∧ wField w 11 8 = (if pos = 8 then mask.toNat else 0) := by
  have hmask : mask.toNat % 16 = mask.toNat := Nat.mod_eq_of_lt mask.isLt
  have hbrk := fld_bit_mod s (Reg.SEP_DCTL c) 31
  rcases hpos with rfl | rfl | rfl <;>
    simp [dctlWord, bitsWord, wField_wSetField_same, wField_wSetField_other, hmask, hbrk, b2n]

/-- A write of SEP_DCTL that names threads in one field halts, resumes or steps them, and leaves BRKEN. -/
theorem sepDctlWrite_named (s : State) (c : Nat) (mask : BitVec 4) :
    sepDctlWrite s c (dctlWord s c false 0 mask.toNat) = haltRequest (dctlHeld s c) c (maskThreads mask) ∧
    sepDctlWrite s c (dctlWord s c false 4 mask.toNat) =
      (maskThreads mask).foldl (fun s t => resumeThread s c false t) (dctlHeld s c) ∧
    sepDctlWrite s c (dctlWord s c false 8 mask.toNat) =
      (maskThreads mask).foldl (fun s t => resumeThread s c true t) (dctlHeld s c) := by
  have hwrite (pos : Nat) (hpos : pos = 0 ∨ pos = 4 ∨ pos = 8) :
      sepDctlWrite s c (dctlWord s c false pos mask.toNat) =
        (dctlThreads false (if pos = 8 then mask.toNat else 0)).foldl (fun s t => resumeThread s c true t)
          ((dctlThreads false (if pos = 4 then mask.toNat else 0)).foldl (fun s t => resumeThread s c false t)
            (haltRequest (dctlHeld s c) c (dctlThreads false (if pos = 0 then mask.toNat else 0)))) := by
    obtain ⟨hbrk, hall, hhalt, hresume, hstep⟩ := dctlWord_fields s c mask hpos
    simp only [sepDctlWrite, hbrk, hall, getLsbD_eq_false_of_wField hall, hhalt, hresume, hstep, dctlHeld]
  refine ⟨?_, ?_, ?_⟩
  · rw [hwrite 0 (by simp)]
    simp [dctlThreads_mask, dctlThreads_none]
  · rw [hwrite 4 (by simp)]
    simp [dctlThreads_mask, dctlThreads_none, haltRequest]
  · rw [hwrite 8 (by simp)]
    simp [dctlThreads_mask, dctlThreads_none, haltRequest]

/-! ### What debugging changes of a core -/

/-- `t` is `s` but for SEP_DCTL of core `c` and for threads. -/
def Debugged (c : Nat) (s t : State) : Prop := OnlyRegs [Reg.SEP_DCTL c] { s with sep := { s.sep with threads := t.sep.threads } } t

theorem Debugged.refl (c : Nat) (s : State) : Debugged c s s := OnlyRegs.refl _ _

theorem Debugged.setFld {c : Nat} {s t : State} (h : Debugged c s t) {f : Fld} (hf : f.off = Reg.SEP_DCTL c) (v : Nat) :
    Debugged c s (t.setFld f v) := OnlyRegs.setFld h (by simp [hf]) v

theorem Debugged.setDctlBit {c : Nat} {s t : State} (h : Debugged c s t) (b : Nat) (v : Bool) : Debugged c s (setDctlBit t c b v) :=
  h.setFld rfl _

theorem Debugged.setThr {c : Nat} {s t : State} (h : Debugged c s t) (d u : Nat) (x : Thread) : Debugged c s (t.setThr d u x) := by
  obtain ⟨hrest, hregs⟩ := h
  exact ⟨by rw [hrest]; rfl, hregs⟩

theorem Debugged.foldl {c : Nat} {s t : State} (h : Debugged c s t) {l : List Nat} {f : State → Nat → State}
    (hf : ∀ t k, Debugged c s t → Debugged c s (f t k)) : Debugged c s (l.foldl f t) := by
  induction l generalizing t with
  | nil => exact h
  | cons k r ih => exact ih (hf t k h)

theorem debugged_dctlHeld (s : State) (c : Nat) : Debugged c s (dctlHeld s c) := ((Debugged.refl c s).setFld (f := Reg.SEP_DCTL_BRKEN c) rfl _).setFld (f := Reg.SEP_DCTL_ALL c) rfl _

@[simp] theorem thr_dctlHeld (s : State) (c d t : Nat) : (dctlHeld s c).thr d t = s.thr d t :=
  (thr_setFld ..).trans (thr_setFld ..)

theorem dctlBit_dctlHeld (s : State) (c : Nat) {k : Nat} (h : k < 30) : (dctlHeld s c).dctlBit c k = s.dctlBit c k :=
  (dctlBit_setFld_above _ _ (f := Reg.SEP_DCTL_ALL c) _ rfl h (by simp) (by simp)).trans
    (dctlBit_setFld_above _ _ (f := Reg.SEP_DCTL_BRKEN c) _ rfl (Nat.lt_succ_of_lt h) (by simp) (by simp))

/-- A halt is asked for of the threads named that run; a request that waits stays. -/
theorem dctlBit_haltRequest (l : List Nat) (hl : ∀ t ∈ l, t < 32) (s : State) (c h : Nat) :
    (haltRequest s c l).dctlBit c h = (s.dctlBit c h || (decide (h ∈ l) && decide ((s.thr c h).state = .running))) := by
  induction l generalizing s with
  | nil => simp [haltRequest]
  | cons k r ih =>
    have hone : (haltRequest s c (k :: r)).dctlBit c h =
        ((if (s.thr c k).state = .running then setDctlBit s c k true else s).dctlBit c h ||
          (decide (h ∈ r) && decide ((s.thr c h).state = .running))) := by
      refine (ih (fun t ht => hl t (by simp [ht])) (if (s.thr c k).state = .running then setDctlBit s c k true else s)).trans ?_
      split <;> rfl
    rw [hone, apply_ite (fun u : State => u.dctlBit c h), dctlBit_setDctlBit _ _ _ (hl k (by simp))]
    by_cases hk : h = k
    · subst hk
      by_cases hrun : (s.thr c h).state = .running <;> simp [hrun]
    · simp [hk]

theorem onlyRegs_haltRequest {c : Nat} {s t : State} (h : OnlyRegs [Reg.SEP_DCTL c] s t) (l : List Nat) :
    OnlyRegs [Reg.SEP_DCTL c] s (haltRequest t c l) :=
  h.foldl fun t k _ ht => by
    split
    · exact ht.setFld (by simp) _
    · exact ht

theorem onlyRegs_dctlHeld (s : State) (c : Nat) : OnlyRegs [Reg.SEP_DCTL c] s (dctlHeld s c) :=
  ((OnlyRegs.refl _ s).setFld (by simp) _).setFld (by simp) _

theorem debugged_resumeThread {c : Nat} {s t : State} (h : Debugged c s t) (step : Bool) (k : Nat) :
    Debugged c s (resumeThread t c step k) := by
  unfold resumeThread
  split
  · extract_lets u
    split
    · exact (h.setThr ..).setDctlBit _ _
    · exact h.setThr ..
  · exact h

/-- RESUME and STEP: a halted thread runs. -/
def Thread.resumed (x : Thread) : Thread := if x.state = .halted then { x with state := .running } else x

theorem thr_resumeThread (s : State) (c : Nat) (step : Bool) {k h : Nat} (hk : k < 4) (hh : h < 4) :
    (resumeThread s c step k).thr c h = if h = k then (s.thr c h).resumed else s.thr c h := by
  unfold resumeThread Thread.resumed
  by_cases hkh : h = k
  · subst hkh
    split <;> cases step <;> simp
  · have hother (x : Thread) : (s.setThr c k x).thr c h = s.thr c h := State.thr_setThr_other _ _ _ _ _ _ hk hh (.inr hkh)
    split <;> cases step <;> simp [hother]

theorem resumed_resumed (x : Thread) : x.resumed.resumed = x.resumed := by
  unfold Thread.resumed
  split
  · rfl
  · simp [*]

theorem thr_foldl_resumeThread (l : List Nat) (hl : ∀ t ∈ l, t < 4) (s : State) (c : Nat) (step : Bool) {h : Nat} (hh : h < 4) :
    (l.foldl (fun s t => resumeThread s c step t) s).thr c h = if h ∈ l then (s.thr c h).resumed else s.thr c h := by
  induction l generalizing s with
  | nil => rfl
  | cons k r ih =>
    have hone := ih (fun t ht => hl t (by simp [ht])) (resumeThread s c step k)
    rw [thr_resumeThread s c step (hl k (by simp)) hh] at hone
    refine hone.trans ?_
    by_cases hk : h = k <;> by_cases hr : h ∈ r <;> simp [hk, hr, resumed_resumed]

theorem dctlBit_resumeThread_of_set {s : State} {c b : Nat} (h : s.dctlBit c b = true) {k : Nat} (hk : k < 4) :
    (resumeThread s c true k).dctlBit c b = true := by
  unfold resumeThread
  split
  · simp [dctlBit_setDctlBit _ _ _ (show 8 + k < 32 by omega), h]
  · exact h

theorem dctlBit_foldl_resumeThread_of_set (l : List Nat) (hl : ∀ t ∈ l, t < 4) {s : State} {c b : Nat} (h : s.dctlBit c b = true) :
    (l.foldl (fun s t => resumeThread s c true t) s).dctlBit c b = true := by
  induction l generalizing s with
  | nil => exact h
  | cons k r ih => exact ih (fun t ht => hl t (by simp [ht])) (dctlBit_resumeThread_of_set h (hl k (by simp)))

/-- A halted thread that STEP names is single-stepped. -/
theorem dctlBit_foldl_stepThread (l : List Nat) (hl : ∀ t ∈ l, t < 4) {s : State} {c h : Nat} (hh : h ∈ l)
    (hhalt : (s.thr c h).state = .halted) : (l.foldl (fun s t => resumeThread s c true t) s).dctlBit c (8 + h) = true := by
  have hh4 := hl h hh
  induction l generalizing s with
  | nil => simp at hh
  | cons k r ih =>
    have hk := hl k (by simp)
    have hr : ∀ t ∈ r, t < 4 := fun t ht => hl t (by simp [ht])
    by_cases hkh : h = k
    · subst hkh
      refine dctlBit_foldl_resumeThread_of_set r hr ?_
      simp [resumeThread, hhalt, dctlBit_setDctlBit _ _ _ (show 8 + h < 32 by omega)]
    · refine ih hr (s := resumeThread s c true k) (by simpa [hkh] using hh) ?_
      rw [thr_resumeThread s c true hk hh4, if_neg hkh]
      exact hhalt

theorem maskThreads_lt {mask : BitVec 4} {t : Nat} (h : t ∈ maskThreads mask) : t < 4 := by
  simp only [maskThreads, List.mem_filter, List.mem_range] at h
  exact h.1

/-! ### The commands of O50 -/

/-- HALT, RESUME and STEP of the threads that a mask names. -/
theorem dctlCommands {who : Requester} {c : Fin 32} {mask : BitVec 4} {s : State} (hs : Served s who (Reg.SEP_DCTL c)) :
    (CompletesIn (.threadHalt who c mask false) s fun s t =>
      (∀ h, h < 4 → t.dctlBit c h = (s.dctlBit c h || (mask.getLsbD h && decide ((s.thr c h).state = .running)))) ∧
      OnlyRegs [Reg.SEP_DCTL c] s.written t) ∧
    (CompletesIn (.threadResume who c mask false) s fun s t =>
      (∀ h, h < 4 → t.thr c h = if mask.getLsbD h = true ∧ (s.thr c h).state = .halted then { s.thr c h with state := .running }
        else s.thr c h) ∧
      OnlyRegs [Reg.SEP_DCTL c] { s with sep := { s.sep with threads := t.sep.threads } }.written t) ∧
    (CompletesIn (.threadStep who c mask false) s fun s t =>
      (∀ h, h < 4 → mask.getLsbD h = true → (s.thr c h).state = .halted →
        t.thr c h = { s.thr c h with state := .running } ∧ t.dctlBit c (8 + h) = true) ∧
      OnlyRegs [Reg.SEP_DCTL c] { s with sep := { s.sep with threads := t.sep.threads } }.written t) := by
  have hlt : ∀ t ∈ maskThreads mask, t < 4 := fun _ => maskThreads_lt
  have hresume (u : State) (step : Bool) {h : Nat} (hh : h < 4) :
      ((maskThreads mask).foldl (fun s t => resumeThread s c step t) (dctlHeld u c)).thr c h =
        if mask.getLsbD h = true then (u.thr c h).resumed else u.thr c h := by
    rw [thr_foldl_resumeThread _ hlt _ _ _ hh]
    simp only [mem_maskThreads hh, thr_dctlHeld]
  have hrest (u : State) (step : Bool) :
      Debugged c u ((maskThreads mask).foldl (fun s t => resumeThread s c step t) (dctlHeld u c)) :=
    (debugged_dctlHeld u c).foldl fun _ k ht => debugged_resumeThread ht step k
  refine ⟨?_, ?_, ?_⟩ <;> refine completesIn_served rfl rfl hs fun cyc => ?_
  · rw [(sepDctlWrite_named _ c mask).1]
    refine ⟨fun h hh => ?_, (onlyRegs_haltRequest (onlyRegs_dctlHeld _ _) _).answer _ _ _⟩
    refine (dctlBit_haltRequest _ (fun t ht => Nat.lt_trans (hlt t ht) (by decide)) _ _ _).trans ?_
    rw [dctlBit_dctlHeld _ _ (Nat.lt_trans hh (by decide))]
    simp only [mem_maskThreads hh, Bool.decide_eq_true, thr_dctlHeld]
  · rw [(sepDctlWrite_named _ c mask).2.1]
    refine ⟨fun h hh => (hresume _ false hh).trans ?_, (hrest _ false).answer _ _ _⟩
    rw [ite_and, Thread.resumed]
  · rw [(sepDctlWrite_named _ c mask).2.2]
    refine ⟨fun h hh hm hhalt => ⟨(hresume _ true hh).trans ?_, ?_⟩, (hrest _ true).answer _ _ _⟩
    · rw [if_pos hm, Thread.resumed, if_pos hhalt]
    · exact dctlBit_foldl_stepThread _ hlt ((mem_maskThreads hh).2 hm) (by rw [thr_dctlHeld]; exact hhalt)

/-- The halt takes effect. -/
theorem haltEffect_shows {c : Nat} {h : Nat} (hh : h < 4) {s : State} (hup : s.coreUp c = true) (hask : s.dctlBit c h = true)
    (hrun : (s.thr c h).state = .running) :
    let t := haltEffect s c h
    t.thr c h = { s.thr c h with state := .halted, mid := false } ∧ t.dctlBit c h = false ∧ t.dctlBit c (8 + h) = false ∧
      OnlyRegs [Reg.SEP_DCTL c] { s with sep := { s.sep with threads := t.sep.threads } } t := by
  have heff : haltEffect s c h =
      (setDctlBit (setDctlBit s c h false) c (8 + h) false).setThr c h { s.thr c h with state := .halted, mid := false } := by
    simp [haltEffect, hup, hask, hrun]
  rw [heff]
  refine ⟨by simp, ?_, ?_, (((Debugged.refl c s).setDctlBit _ _).setDctlBit _ _).setThr _ _ _⟩
  · rw [dctlBit_setThr, dctlBit_setDctlBit _ _ _ (by omega), if_neg (by omega), dctlBit_setDctlBit _ _ _ (by omega), if_pos rfl]
  · rw [dctlBit_setThr, dctlBit_setDctlBit _ _ _ (by omega), if_pos rfl]

/-! ### Debug access (R360) -/

theorem dbgAccess_notHalted {s : State} {c : Nat} (w : Option Word)
    (h : (s.thr c (s.fld (Reg.SEP_DSEL_THREAD c))).state ≠ .halted) :
    (dbgAccess s c w).2 = s.event (Reg.SEP_DSTAT_NOTHALT c) := by
  simp [dbgAccess, h]

theorem dbgAccess_read {s : State} {c : Nat} (h : (s.thr c (s.fld (Reg.SEP_DSEL_THREAD c))).state = .halted) :
    dbgAccess s c none = (s.dbgReg c (s.fld (Reg.SEP_DSEL_THREAD c)) (s.fld (Reg.SEP_DSEL_INDEX c)), s) := by
  simp [dbgAccess, h]

/-- A write of g1 to g15 of a halted thread. -/
theorem dbgAccess_write {s : State} {c : Nat} {v : Word} (h : (s.thr c (s.fld (Reg.SEP_DSEL_THREAD c))).state = .halted)
    (hlt : s.fld (Reg.SEP_DSEL_INDEX c) < 16) (hold : (s.thr c (s.fld (Reg.SEP_DSEL_THREAD c))).old = none) :
    (dbgAccess s c (some v)).2 =
      s.setG c (s.fld (Reg.SEP_DSEL_THREAD c)) (s.fld (Reg.SEP_DSEL_INDEX c)) v := by
  have hwrite : (dbgAccess s c (some v)).2 =
      dbgWrite s c (s.fld (Reg.SEP_DSEL_THREAD c)) (s.fld (Reg.SEP_DSEL_INDEX c)) v := by simp [dbgAccess, h]
  rw [hwrite]
  generalize s.fld (Reg.SEP_DSEL_INDEX c) = i at *
  generalize s.fld (Reg.SEP_DSEL_THREAD c) = t at *
  have hlow : dbgWrite s c t i v =
      s.setThr c t ((if ((s.thr c t).old.map (·.1)) = some i then { s.thr c t with old := none } else s.thr c t).setReg i v) := by
    unfold dbgWrite
    split
    case h_12 => exact if_pos hlt
    all_goals exact absurd hlt (by decide)
  rw [hlow, hold]
  rfl

/-- A store in core memory without damage changes its bytes alone. -/
theorem sepStore_of_undamaged {s : State} (h : s.sep.bad = []) (k : Nat) (bs : List Nat) :
    sepStore s k bs = { s with sep := { s.sep with mem := memStore s.sep.mem k bs } } := by
  simp [sepStore, h]

/-- A write through SEP_MEMD: the word is stored, and ADDR counts on. -/
theorem memdAccess_write {s : State} {c key : Nat} (v : Word) (e : Upset) (hkey : s.memaKey c = some key)
    (hbad : s.sep.bad = []) :
    (memdAccess s c (some v) e).2 =
      { s.setFld (Reg.SEP_MEMA_ADDR c) (s.fld (Reg.SEP_MEMA_ADDR c) + 1) with
        sep := { s.sep with mem := memPutWord s.sep.mem key v.toNat } } := by
  have hstore : (memdAccess s c (some v) e).2 =
      sepStore (s.setFld (Reg.SEP_MEMA_ADDR c) (s.fld (Reg.SEP_MEMA_ADDR c) + 1)) key (wordBytes v.toNat) := by simp [memdAccess, hkey]
  rw [hstore]
  exact sepStore_of_undamaged (s := s.setFld (Reg.SEP_MEMA_ADDR c) (s.fld (Reg.SEP_MEMA_ADDR c) + 1)) hbad _ _

/-- A read through SEP_MEMD of a word without damage. -/
theorem memdAccess_read {s : State} {c key : Nat} (hkey : s.memaKey c = some key) (hbad : s.sep.bad = []) :
    memdAccess s c none .none = (BitVec.ofNat 32 (memWord s.sep.mem key),
      s.setFld (Reg.SEP_MEMA_ADDR c) (s.fld (Reg.SEP_MEMA_ADDR c) + 1)) := by
  have hgood : (s.setFld (Reg.SEP_MEMA_ADDR c) (s.fld (Reg.SEP_MEMA_ADDR c) + 1)).sepBad key 4 = false := by
    simp [State.sepBad, State.setFld, State.wr, hbad]
  simp only [memdAccess, hkey, sepUpset, hgood]
  rfl

theorem exec_debugRegisterWrite (who : Requester) (c : Fin 32) (v : Word) (s : State) :
    exec (.debugRegisterAccess who c (some v)) s =
      .next (writeAct (s.accessCycle who) who (Reg.SEP_DDATA c) fun s => (dbgAccess s c (some v)).2) := rfl

theorem exec_debugRegisterRead (who : Requester) (c : Fin 32) (s : State) :
    exec (.debugRegisterAccess who c none) s =
      .next (readAct (s.accessCycle who) who (Reg.SEP_DDATA c) fun s => dbgAccess s c none) := rfl

theorem exec_debugMemoryWrite (who : Requester) (c : Fin 32) (v : Word) (e : Upset) (s : State) :
    exec (.debugMemoryAccess who c (some v) e) s =
      .next (writeAct (s.accessCycle who) who (Reg.SEP_MEMD c) fun s => (memdAccess s c (some v) e).2) := rfl

theorem exec_debugMemoryRead (who : Requester) (c : Fin 32) (e : Upset) (s : State) :
    exec (.debugMemoryAccess who c none e) s =
      .next (readAct (s.accessCycle who) who (Reg.SEP_MEMD c) fun s => memdAccess s c none e) := rfl

/-- Settles O50: halts, resumes and steps by the bits they write; debug access by what it reads and stores. -/
theorem sepiaDebug : Obligations.SepiaDebug := by
  refine ⟨fun who c mask s hs => dctlCommands hs, fun c h s hup hask hrun => ⟨_, rfl, haltEffect_shows h.isLt hup hask hrun⟩,
    fun who c s hs => ⟨fun hrun v => ?_, fun hhalt => ⟨fun hread => ?_, fun v hpos hlt hold => ?_⟩⟩,
    fun who c key s hkey hbad => ⟨fun v hs => ?_, fun hs => ?_⟩⟩
  · exact completesIn_served (exec_debugRegisterWrite ..) rfl hs fun cyc => congrArg State.written (dbgAccess_notHalted (s := { s with cyc := cyc }) (some v) hrun)
  · refine completesIn_servedRead (exec_debugRegisterRead ..) rfl hread fun cyc => ?_
    rw [dbgAccess_read (s := { s with cyc := cyc }) hhalt]
    rfl
  · refine completesIn_served (exec_debugRegisterWrite ..) rfl hs fun cyc => ?_
    rw [dbgAccess_write (s := { s with cyc := cyc }) hhalt hlt hold]
    refine ⟨fun q => ?_, rfl⟩
    refine (congrArg (Thread.reg · q) (State.thr_setThr_same ..)).trans ((reg_setReg ..).trans ?_)
    by_cases hq : q = s.fld (Reg.SEP_DSEL_INDEX c)
    · rw [if_pos ⟨hq, by omega⟩, if_pos hq]
    · rw [if_neg fun h => hq h.1, if_neg hq]
      rfl
  · refine completesIn_served (exec_debugMemoryWrite ..) rfl hs fun cyc => ?_
    rw [memdAccess_write (s := { s with cyc := cyc }) v .none hkey hbad]
    exact ⟨rfl, rfl, fun o ho => State.rd_setFld_other s (Reg.SEP_MEMA_ADDR c) _ o (by simpa using ho)⟩
  · refine completesIn_servedRead (exec_debugMemoryRead ..) rfl hs fun cyc => ?_
    rw [memdAccess_read (s := { s with cyc := cyc }) hkey hbad]
    refine ⟨?_, ((OnlyRegs.refl _ _).setFld (by simp) _).answer _ _ _⟩
    rw [fld_returned]
    exact fld_setFld_self _ _ (by simp) (by simp)

/-! ### RESTART (R361) -/

/-- A thread that RESTART begins, but for its queue. -/
def Thread.restarted (x : Thread) (pc : Word) : Thread :=
  { x with state := .running, sw := 0x01000000, pc := pc, queue := [], old := none, mul := [], longs := [], due := [], sb := [],
           shadow := [], wait := none, mid := false }

theorem tctlWord_fields (pc : BitVec 30) :
    let w := bitsWord [(31, 2, pc.toNat), (0, 0, 1)]
    w.getLsbD 0 = true ∧ wField w 31 2 = pc.toNat := by
  have hpc : pc.toNat % 2 ^ 30 = pc.toNat := Nat.mod_eq_of_lt pc.isLt
  refine ⟨?_, ?_⟩
  · rw [bitsWord, List.foldl_cons, List.foldl_cons, List.foldl_nil, getLsbD_wSetField _ _ _ (by decide) (by decide)]
    rfl
  · simpa [bitsWord, wField_wSetField_same, wField_wSetField_other] using hpc

/-- RESTART of a running thread is discarded. -/
theorem sepTctlWrite_running {s : State} {c t : Nat} (pc : BitVec 30) (h : (s.thr c t).state = .running) :
    sepTctlWrite s c t (bitsWord [(31, 2, pc.toNat), (0, 0, 1)]) = s.event (Reg.SEP_DSTAT_NOTHALT c) := by
  unfold sepTctlWrite
  rw [(tctlWord_fields pc).1, h]
  rfl

/-- RESTART of any other thread. -/
theorem sepTctlWrite_restarts {s : State} {c t : Nat} (pc : BitVec 30) (h : (s.thr c t).state ≠ .running) :
    sepTctlWrite s c t (bitsWord [(31, 2, pc.toNat), (0, 0, 1)]) =
      flushTo ((s.setFld (Reg.SEP_TCTL_PC c t) pc.toNat).setThr c t ((s.thr c t).restarted (s.thr c t).pc)) c t
        (BitVec.ofNat 32 (4 * pc.toNat)) := by
  obtain ⟨hgo, hpc⟩ := tctlWord_fields pc
  unfold sepTctlWrite
  rw [hgo, hpc]
  simp only [h]
  rfl

/-- What RESTART leaves: the thread at its start, its queue filled from there (R361). -/
theorem restarted_shows (s : State) (c t : Nat) (pc : BitVec 30) (hbad : s.sep.bad = []) :
    let u := flushTo ((s.setFld (Reg.SEP_TCTL_PC c t) pc.toNat).setThr c t ((s.thr c t).restarted (s.thr c t).pc)) c t
      (BitVec.ofNat 32 (4 * pc.toNat))
    u.written.thr c t = { (s.thr c t).restarted (BitVec.ofNat 32 (4 * pc.toNat)) with
      queue := (List.range 4).map fun i =>
        (imemKey c ((4 * pc.toNat + 4 * i) % 2 ^ 32)).map fun k => BitVec.ofNat 32 (memWord s.sep.mem k) } ∧
    OnlyRegs [Reg.SEP_TCTL c t] { s with sep := { s.sep with threads := u.written.sep.threads } }.written u.written := by
  obtain ⟨⟨hrest, -⟩, hthr⟩ := flushTo_of_undamaged c t (BitVec.ofNat 32 (4 * pc.toNat))
    (s := (s.setFld (Reg.SEP_TCTL_PC c t) pc.toNat).setThr c t ((s.thr c t).restarted (s.thr c t).pc)) hbad
  have hpc : (BitVec.ofNat 32 (4 * pc.toNat)).toNat = 4 * pc.toNat := by
    have := pc.isLt
    rw [BitVec.toNat_ofNat]
    omega
  intro u
  change u = _ at hrest
  change u.thr c t = _ at hthr
  clear_value u
  refine ⟨hthr.trans ?_, OnlyRegs.answer ⟨?_, fun o ho => ?_⟩ [] false false⟩
  · rw [State.thr_setThr_same, hpc]
    simp only [State.fetched, State.iword, show ∀ i, (4 * pc.toNat + 4 * i) % 2 ^ 32 % 4 = 0 by omega]
    rfl
  · rw [hrest]
    rfl
  · rw [hrest]
    exact State.rd_setFld_other s (Reg.SEP_TCTL_PC c t) _ o (by simpa using ho)

/-- Settles O51: a running thread keeps on, with NOTHALT; any other is flushed to TCTL.PC. -/
theorem threadRestarts : Obligations.ThreadRestarts := by
  intro who c h pc s hs
  refine ⟨fun hrun => ?_, fun hstop hbad => ?_⟩
  · exact completesIn_served rfl rfl hs fun cyc => congrArg State.written (sepTctlWrite_running (s := { s with cyc := cyc }) pc hrun)
  · refine completesIn_served rfl rfl hs fun cyc => ?_
    rw [sepTctlWrite_restarts (s := { s with cyc := cyc }) pc hstop]
    exact restarted_shows { s with cyc := cyc } c h pc hbad

end Sys2Proof.Machine
end

section
/-! SUPPORT. Integer and immediate instructions of the Sepia cores (O43). -/
namespace Sys2Proof.Machine

/-! ### Flags of results (R367) -/

/-- The carries and overflows of sums and differences. -/
theorem addOverflow_eq (a b : Word) : addOverflow a b = decide (a.toInt + b.toInt ≠ (a + b).toInt) := by
  rw [addOverflow, decide_eq_decide]
  simp only [BitVec.msb_eq_decide, BitVec.toInt_eq_toNat_cond, BitVec.toNat_add, decide_eq_decide, ne_eq]
  have := a.isLt
  have := b.isLt
  split <;> split <;> split <;> omega

theorem subOverflow_eq (a b : Word) : subOverflow a b = decide (a.toInt - b.toInt ≠ (a - b).toInt) := by
  rw [subOverflow, decide_eq_decide]
  simp only [BitVec.msb_eq_decide, BitVec.toInt_eq_toNat_cond, BitVec.toNat_sub, decide_eq_decide, ne_eq]
  have := a.isLt
  have := b.isLt
  split <;> split <;> split <;> omega

/-- A difference of words is that of the numbers, but for a turn around. -/
theorem toInt_sub_cases (a b : Word) : (a - b).toInt = a.toInt - b.toInt ∨
    ((a - b).toInt = a.toInt - b.toInt + 2 ^ 32 ∧ a.toInt < b.toInt ∧ 0 ≤ (a - b).toInt) ∨
    ((a - b).toInt = a.toInt - b.toInt - 2 ^ 32 ∧ b.toInt ≤ a.toInt ∧ (a - b).toInt < 0) := by
  simp only [BitVec.toInt_eq_toNat_cond, BitVec.toNat_sub]
  have := a.isLt
  have := b.isLt
  split <;> split <;> split <;> omega

/-- After a comparison N and V differ exactly when the first is less, signed (R367). -/
theorem subFlags_less (a b : Word) : ((subFlags a b).n != (subFlags a b).v) = decide (a.toInt < b.toInt) := by
  have hn : (subFlags a b).n = decide ((a - b).toInt < 0) := BitVec.msb_eq_toInt (x := a - b)
  have hv : (subFlags a b).v = decide (a.toInt - b.toInt ≠ (a - b).toInt) := subOverflow_eq a b
  have hcases := toInt_sub_cases a b
  rw [hn, hv, Bool.eq_iff_iff]
  simp only [bne_iff_ne, ne_eq, decide_eq_true_eq, decide_eq_decide]
  omega

theorem aluFlags_shift {fn : Nat} (h : fn = 6 ∨ fn = 7 ∨ fn = 8) (f : Nzcv) (a b : Word) :
    aluFlags fn f a b = shiftFlags f (fn - 6) a (aluVal fn a b) (b.toNat % 32) := by
  rcases h with rfl | rfl | rfl <;> rfl

theorem aluFlags_logic {fn : Nat} (h : 2 ≤ fn ∧ fn < 6 ∨ 9 < fn ∧ fn < 14) (f : Nzcv) (a b : Word) :
    aluFlags fn f a b = nzOf f (aluVal fn a b) := by
  rcases h with ⟨hlo, hhi⟩ | ⟨hlo, hhi⟩ <;> interval_cases fn <;> rfl

/-- The flags that each FN but CMP sets (R367). -/
theorem aluFlags_shows {fn : Nat} (hfn : fn < 14) (h9 : fn ≠ 9) (f : Nzcv) (a b : Word) :
    let g := aluFlags fn f a b
    let r := aluVal fn a b
    let n := b.toNat % 32
    g.n = r.msb ∧ g.z = decide (r = 0) ∧
      (fn = 0 → g.c = decide (2 ^ 32 ≤ a.toNat + b.toNat) ∧ g.v = decide (a.toInt + b.toInt ≠ r.toInt)) ∧
      (fn = 1 → g.c = decide (b ≤ a) ∧ g.v = decide (a.toInt - b.toInt ≠ r.toInt)) ∧
      (2 ≤ fn → g.v = f.v) ∧ (2 ≤ fn → (fn < 6 ∨ 8 < fn ∨ n = 0) → g.c = f.c) ∧
      (fn = 6 → n ≠ 0 → g.c = a.getLsbD (32 - n)) ∧ (7 ≤ fn → fn ≤ 8 → n ≠ 0 → g.c = a.getLsbD (n - 1)) := by
  intro g r n
  obtain rfl | rfl | hshift | hlogic : fn = 0 ∨ fn = 1 ∨ (fn = 6 ∨ fn = 7 ∨ fn = 8) ∨ (2 ≤ fn ∧ fn < 6 ∨ 9 < fn ∧ fn < 14) := by omega
  · exact ⟨rfl, rfl, fun _ => ⟨rfl, addOverflow_eq a b⟩, fun h => absurd h (by decide), fun h => absurd h (by decide),
      fun h => absurd h (by decide), fun h => absurd h (by decide), fun h => absurd h (by decide)⟩
  · exact ⟨rfl, rfl, fun h => absurd h (by decide), fun _ => ⟨rfl, subOverflow_eq a b⟩, fun h => absurd h (by decide),
      fun h => absurd h (by decide), fun h => absurd h (by decide), fun h => absurd h (by decide)⟩
  · have hg : g = shiftFlags f (fn - 6) a r n := aluFlags_shift hshift f a b
    have hc : g.c = if n = 0 then f.c else shiftOut (fn - 6) a n := (congrArg Nzcv.c hg :)
    refine ⟨(congrArg Nzcv.n hg :), (congrArg Nzcv.z hg :), fun h => by omega, fun h => by omega, fun _ => (congrArg Nzcv.v hg :),
      fun _ hkeep => ?_, fun hleft hn => ?_, fun hright _ hn => ?_⟩
    · rw [hc, if_pos (by omega)]
    · rw [hc, if_neg hn, hleft]
      rfl
    · rw [hc, if_neg hn, shiftOut, if_neg (by omega)]
  · have hg : g = nzOf f r := aluFlags_logic hlogic f a b
    exact ⟨(congrArg Nzcv.n hg :), (congrArg Nzcv.z hg :), fun h => by omega, fun h => by omega, fun _ => (congrArg Nzcv.v hg :),
      fun _ _ => (congrArg Nzcv.c hg :), fun h => by omega, fun _ h => by omega⟩

/-- The flags that a status word holds, put back, leave it. -/
theorem setFlags_flagsOf (w : Word) : setFlags w (flagsOf w) = w := by
  apply BitVec.eq_of_getLsbD_eq
  intro i hi
  rw [setFlags, getLsbD_wSetField _ _ _ (by decide) (by decide)]
  split
  · rename_i hfield
    obtain ⟨-, hle⟩ := hfield
    simp only [flagsOf]
    interval_cases i <;> cases w.getLsbD 0 <;> cases w.getLsbD 1 <;> cases w.getLsbD 2 <;> cases w.getLsbD 3 <;> rfl
  · rfl

/-! ### Register instructions (R368) -/

theorem aluRow_issues {s : State} {c t fn rd ra rb : Nat} {sf : Bool} (h : Issues s c t (.alu fn rd ra rb sf)) :
    aluRow c t fn s = settleRes (takeTurn s c t) c t (aluBody c t fn rd ra rb sf (s.issued c t)) := h.issue_eq (by simp)

/-- A result that raises no overflow exception is written, with its flags where S is 1. -/
theorem aluBody_writes {u v : State} {c t fn rd ra rb : Nat} {sf : Bool} (h : IssuedFrom c t u v) (h9 : fn ≠ 9)
    (hno : (u.thr c t).sw.getLsbD 29 = false ∨ aluOverflow fn ((u.thr c t).use ra) ((u.thr c t).use rb) = false) :
    aluBody c t fn rd ra rb sf v = .done
      (if sf then (v.setG c t rd (aluVal fn ((u.thr c t).use ra) ((u.thr c t).use rb))).setNzcv c t
          (aluFlags fn (flagsOf (u.thr c t).sw) ((u.thr c t).use ra) ((u.thr c t).use rb))
        else v.setG c t rd (aluVal fn ((u.thr c t).use ra) ((u.thr c t).use rb))) none := by
  have hnone : (aluOverflow fn ((u.thr c t).use ra) ((u.thr c t).use rb) && (u.thr c t).sw.getLsbD 29) = false := by
    rcases hno with hno | hno <;> rw [hno]
    · exact Bool.and_false _
    · exact Bool.false_and _
  simp only [aluBody, h.use, h.sw, swBit, hnone]
  simp [h9]

/-- CMP writes flags alone. -/
theorem aluBody_compares {u v : State} {c t rd ra rb : Nat} {sf : Bool} (h : IssuedFrom c t u v) :
    aluBody c t 9 rd ra rb sf v = .done (v.setNzcv c t (subFlags ((u.thr c t).use ra) ((u.thr c t).use rb))) none := by
  simp only [aluBody, h.use]
  simp [aluOverflow, aluFlags]

/-- A result that overflows raises the exception where the mask bit is set. -/
theorem aluBody_overflows {u v : State} {c t fn rd ra rb : Nat} {sf : Bool} (h : IssuedFrom c t u v)
    (hmask : (u.thr c t).sw.getLsbD 29 = true) (hover : aluOverflow fn ((u.thr c t).use ra) ((u.thr c t).use rb) = true) :
    aluBody c t fn rd ra rb sf v = .trap v 8 (u.thr c t).pc 0 := by
  simp only [aluBody, h.use, h.sw]
  simp [swBit, hmask, hover, Res.fault, h.pc]

theorem setNzcv_same {s : State} {c t : Nat} {x : Thread} (hx : s.thr c t = x) :
    OnlyThread c t s (s.setNzcv c t (flagsOf x.sw)) ∧ (s.setNzcv c t (flagsOf x.sw)).thr c t = s.thr c t := by
  refine ⟨(OnlyThread.refl c t s).setThr _, ?_⟩
  rw [State.setNzcv, State.thr_setThr_same, hx, setFlags_flagsOf]

theorem sw_setReg (x : Thread) (r : Nat) (v : Word) : (x.setReg r v).sw = x.sw := by
  unfold Thread.setReg
  split <;> rfl

theorem pc_setReg (x : Thread) (r : Nat) (v : Word) : (x.setReg r v).pc = x.pc := by
  unfold Thread.setReg
  split <;> rfl

theorem state_setReg (x : Thread) (r : Nat) (v : Word) : (x.setReg r v).state = x.state := by
  unfold Thread.setReg
  split <;> rfl

@[simp] theorem thr_setG (s : State) (c t r : Nat) (v : Word) : (s.setG c t r v).thr c t = (s.thr c t).setReg r v :=
  State.thr_setThr_same ..

@[simp] theorem thr_setNzcv (s : State) (c t : Nat) (f : Nzcv) :
    (s.setNzcv c t f).thr c t = { s.thr c t with sw := setFlags (s.thr c t).sw f } := State.thr_setThr_same ..

/-- An instruction whose body leaves what `u` holds completes at the next word. -/
theorem completes_done {i : Instr} {s u v : State} {c t : Nat} {k : Ins} {old : Option (Nat × Word)} (hq : Quiet s c t)
    (hi : Issues s c t k) (hexec : exec i s = .next (settleRes (takeTurn s c t) c t (.done v old))) (h : IssuedFrom c t u v)
    (hdctl : u.dctlBit c (8 + t) = s.dctlBit c (8 + t)) (hpc : (u.thr c t).pc = (s.thr c t).pc)
    (hstate : (u.thr c t).state = (s.thr c t).state) :
    Completes i s fun w => ThreadAt u w c t ((s.thr c t).pc + 4) old := by
  refine ⟨_, hexec, ?_⟩
  have hend := h.finish (hdctl.trans hq.2) (hstate.trans hi.running) 4 old
  rwa [hpc] at hend

/-! ### The clauses of O43 -/

/-- A register instruction that raises no exception: the result and, with S = 1, the flags that FN sets. -/
theorem alu_completes {i : Instr} {s : State} {c t fn rd ra rb : Nat} {sf : Bool} (hq : Quiet s c t)
    (hi : Issues s c t (.alu fn rd ra rb sf)) (hexec : exec i s = .next (aluRow c t fn s)) (h9 : fn ≠ 9)
    (hno : (s.thr c t).sw.getLsbD 29 = false ∨ aluOverflow fn ((s.thr c t).use ra) ((s.thr c t).use rb) = false) :
    Completes i s fun w => ThreadAt ((s.setG c t rd (aluVal fn ((s.thr c t).use ra) ((s.thr c t).use rb))).setNzcv c t
      (if sf then aluFlags fn (flagsOf (s.thr c t).sw) ((s.thr c t).use ra) ((s.thr c t).use rb) else flagsOf (s.thr c t).sw)) w c t
        ((s.thr c t).pc + 4) none := by
  have hv := issuedFrom_issued c t hq.1
  have hG := hv.setG rd (aluVal fn ((s.thr c t).use ra) ((s.thr c t).use rb))
  refine completes_done hq hi (hexec.trans (by rw [aluRow_issues hi, aluBody_writes hv h9 hno])) ?_ rfl ?_ ?_
  · cases sf with
    | true => exact hG.setNzcv _
    | false =>
      obtain ⟨honly, hthr⟩ := setNzcv_same (s := s.setG c t rd (aluVal fn ((s.thr c t).use ra) ((s.thr c t).use rb)))
        (x := (s.thr c t).setReg rd (aluVal fn ((s.thr c t).use ra) ((s.thr c t).use rb))) (thr_setG ..)
      rw [sw_setReg] at honly hthr
      exact hG.sameThread honly hthr
  · rw [thr_setNzcv, thr_setG]
    exact pc_setReg ..
  · rw [thr_setNzcv, thr_setG]
    exact state_setReg ..

/-- CMP. -/
theorem cmp_completes {s : State} {c : Fin 32} {t : Fin 4} {rd ra rb : Nat} {sf : Bool} (hq : Quiet s c t)
    (hi : Issues s c t (.alu 9 rd ra rb sf)) : Completes (.opCmp c t) s fun w =>
      ThreadAt (s.setNzcv c t (subFlags ((s.thr c t).use ra) ((s.thr c t).use rb))) w c t ((s.thr c t).pc + 4) none := by
  have hv := issuedFrom_issued c.val t.val hq.1
  have hexec : exec (.opCmp c t) s = .next (aluRow c t 9 s) := rfl
  refine completes_done hq hi (hexec.trans (by rw [aluRow_issues hi, aluBody_compares hv])) (hv.setNzcv _) rfl ?_ ?_ <;>
    rw [thr_setNzcv]

theorem immRow_issues {s : State} {c t op rd ra k : Nat} (h : Issues s c t (.imm op rd ra k)) :
    immRow c t op s = settleRes (takeTurn s c t) c t (immBody c t op rd ra k (s.issued c t)) := h.issue_eq (by simp)

/-- An immediate form that raises no exception. -/
theorem imm_completes {i : Instr} {s : State} {c t op rd ra k : Nat} (hq : Quiet s c t) (hi : Issues s c t (.imm op rd ra k))
    (hexec : exec i s = .next (immRow c t op s)) (h8 : op ≠ 8)
    (hno : op ≠ 4 ∨ (s.thr c t).sw.getLsbD 29 = false ∨ addOverflow ((s.thr c t).use ra) (sextW 18 k) = false) :
    Completes i s fun w => ThreadAt (s.setG c t rd (immVal op ((s.thr c t).use ra) k)) w c t ((s.thr c t).pc + 4) none := by
  have hv := issuedFrom_issued c t hq.1
  have hbody : immBody c t op rd ra k (s.issued c t) = .done ((s.issued c t).setG c t rd (immVal op ((s.thr c t).use ra) k)) none := by
    simp only [immBody, hv.use, hv.sw, swBit]
    rw [if_neg (by rcases hno with hno | hno | hno <;> simp only [hno, false_and, and_false, Bool.false_eq_true, not_false_eq_true]), if_neg h8]
  refine completes_done hq hi (hexec.trans (by rw [immRow_issues hi, hbody])) (hv.setG _ _) rfl ?_ ?_ <;> rw [thr_setG]
  · exact pc_setReg ..
  · exact state_setReg ..

/-- CMPI. -/
theorem cmpi_completes {s : State} {c : Fin 32} {t : Fin 4} {rd ra k : Nat} (hq : Quiet s c t) (hi : Issues s c t (.imm 8 rd ra k)) :
    Completes (.opCmpi c t) s fun w =>
      ThreadAt (s.setNzcv c t (subFlags ((s.thr c t).use ra) (sextW 18 k))) w c t ((s.thr c t).pc + 4) none := by
  have hv := issuedFrom_issued c.val t.val hq.1
  have hexec : exec (.opCmpi c t) s = .next (immRow c t 8 s) := rfl
  have hbody : immBody c t 8 rd ra k (s.issued c t) =
      .done ((s.issued c t).setNzcv c t (subFlags ((s.thr c t).use ra) (sextW 18 k))) none := by
    simp [immBody, hv.use]
  refine completes_done hq hi (hexec.trans (by rw [immRow_issues hi, hbody])) (hv.setNzcv _) rfl ?_ ?_ <;> rw [thr_setNzcv]

theorem shiVal_eq (a : Word) (k : Nat) : shiVal a k = if bitsOf k 6 5 = 0 then a <<< (k % 32) else if bitsOf k 6 5 = 1 then a >>> (k % 32)
    else a.sshiftRight (k % 32) := by
  unfold shiVal
  split
  · simp [*]
  · simp [*]
  · rename_i h0 h1
    rw [if_neg h0, if_neg h1]
    rfl

/-- Settles O43: each form's row, result and flags. -/
theorem sepiaArithmetic : Obligations.SepiaArithmetic := by
  refine ⟨reg_setReg, fun c h rd ra rb sf s hq => ⟨fun p hp hi => ?_, fun hi => ?_⟩,
    fun c h rd ra k s hq => ⟨fun p hp hi hno => ?_, cmpi_completes hq⟩⟩
  · obtain ⟨hexec, hval, h9, hlt⟩ : exec p.2.1 s = .next (aluRow c h p.1 s) ∧
        aluVal p.1 ((s.thr c h).use ra) ((s.thr c h).use rb) = p.2.2 ∧ p.1 ≠ 9 ∧ p.1 < 14 := by
      simp only [List.mem_cons, List.not_mem_nil, or_false] at hp
      rcases hp with rfl | rfl | rfl | rfl | rfl | rfl | rfl | rfl | rfl | rfl | rfl | rfl | rfl <;>
        exact ⟨rfl, rfl, by simp, by simp⟩
    have hflags := aluFlags_shows hlt h9 (flagsOf (s.thr c h).sw) ((s.thr c h).use ra) ((s.thr c h).use rb)
    rw [hval] at hflags
    refine ⟨fun hno => ?_, fun hmask hover => ?_⟩
    · obtain ⟨t, hnext, hat⟩ := alu_completes hq hi hexec h9 hno
      rw [hval] at hat
      exact ⟨t, hnext, _, hat, fun h0 => by rw [h0]; rfl, fun h1 => by rw [h1]; exact hflags⟩
    · rw [hexec, aluRow_issues hi, aluBody_overflows (issuedFrom_issued _ _ hq.1) hmask hover]
      rfl
  · obtain ⟨t, hnext, hat⟩ := cmp_completes hq hi
    exact ⟨t, hnext, _, hat, decide_eq_decide.2 sub_eq_zero, rfl, subFlags_less _ _⟩
  · obtain ⟨hexec, hval, h8⟩ : exec p.2.1 s = .next (immRow c h p.1 s) ∧ immVal p.1 ((s.thr c h).use ra) k = p.2.2 ∧ p.1 ≠ 8 := by
      simp only [List.mem_cons, List.not_mem_nil, or_false] at hp
      rcases hp with rfl | rfl | rfl | rfl | rfl | rfl
      iterate 5 exact ⟨rfl, rfl, by simp⟩
      exact ⟨rfl, shiVal_eq _ _, by simp⟩
    rw [← hval]
    exact imm_completes hq hi hexec h8 hno

end Sys2Proof.Machine
end

section
/-! SUPPORT. Products, long operations and floating-point instructions of the Sepia cores (O44). -/
namespace Sys2Proof.Machine

/-! ### Products (R339) -/

theorem mulRow_issues {s : State} {c t fn rd ra rb : Nat} (h : Issues s c t (.mul fn rd ra rb)) :
    mulRow c t fn s = settleRes (takeTurn s c t) c t
      ((if fn ≤ 1 then mulBody c t fn ra rb else divBody c t fn rd ra rb) (s.issued c t)) := h.issue_eq (by simp)

theorem fpRow_issues {s : State} {c t fn rd ra rb : Nat} (h : Issues s c t (.fp fn rd ra rb)) :
    fpRow c t fn s = settleRes (takeTurn s c t) c t (fpBody c t fn rd ra rb (s.issued c t)) := h.issue_eq (by simp)

/-- A product on its way comes nearer, and does not arrive yet. -/
theorem age_newProduct {x : Thread} {lo hi : Option Word} (h : x.mul = [(3, lo, hi)]) : x.age = { x with mul := [(2, lo, hi)] } := by
  simp [Thread.age, h]

/-- A thread that has moved from `u` has moved from any state that differs in the products on their way alone, as it has them now. -/
theorem ThreadAt.withProducts {u w : State} {c t : Nat} {x : Thread} {mul : List (Nat × Option Word × Option Word)} {pc : Word}
    {old : Option (Nat × Word)} (h : ThreadAt (u.setThr c t x) w c t pc old) (hmul : mul ≠ []) :
    ThreadAt (u.setThr c t { x with mul := mul }) w c t pc old := by
  obtain ⟨⟨hthr, -, hothers, hrest⟩, hturn⟩ := h
  rw [State.thr_setThr_same] at hthr
  refine ⟨⟨?_, fun hnone => absurd ?_ hmul, fun k hk => (hothers k hk).trans ?_, ?_⟩, hturn⟩
  · rw [State.thr_setThr_same]
    exact hthr
  · rwa [State.thr_setThr_same] at hnone
  · exact (smGet_smSet_other _ _ _ _ _ _ hk).trans (smGet_smSet_other _ _ _ _ _ _ hk).symm
  · exact hrest

/-- MUL and MULU: the product is on its way to ML and MH, two instructions off. -/
theorem mul_completes {i : Instr} {s : State} {c t fn rd ra rb p : Nat} (hq : Quiet s c t) (hi : Issues s c t (.mul fn rd ra rb))
    (hexec : exec i s = .next (mulRow c t fn s)) (hfn : fn ≤ 1) (hmul : (s.thr c t).mul = [])
    (hp : mulProduct (decide (fn = 0)) ((s.thr c t).use ra) ((s.thr c t).use rb) = p) :
    Completes i s fun w => (w.thr c t).mul = [(2, some (BitVec.ofNat 32 p), some (BitVec.ofNat 32 (p / 2 ^ 32)))] ∧
      (w.thr c t).ml = (s.thr c t).ml ∧ (w.thr c t).mh = (s.thr c t).mh ∧
      ThreadAt (s.setThr c t { s.thr c t with mul := (w.thr c t).mul }) w c t ((s.thr c t).pc + 4) none := by
  have hv := issuedFrom_issued c t hq.1
  have hbody : (if fn ≤ 1 then mulBody c t fn ra rb else divBody c t fn rd ra rb) (s.issued c t) = .done
      ((s.issued c t).setThr c t { (s.issued c t).thr c t with
        mul := [(3, some (BitVec.ofNat 32 p), some (BitVec.ofNat 32 (p / 2 ^ 32)))] }) none := by
    have hnone : ((s.issued c t).thr c t).mul = [] := by rw [hv.1]; exact hmul
    rw [if_pos hfn]
    simp only [mulBody, hv.use, hp, hnone, List.nil_append]
  have hw := hv.setThr (x := { s.thr c t with mul := [(3, some (BitVec.ofNat 32 p), some (BitVec.ofNat 32 (p / 2 ^ 32)))] })
    (y := { (s.issued c t).thr c t with mul := [(3, some (BitVec.ofNat 32 p), some (BitVec.ofNat 32 (p / 2 ^ 32)))] })
    (by rw [hv.1]; rfl)
  generalize hvw : (s.issued c t).setThr c t { (s.issued c t).thr c t with
    mul := [(3, some (BitVec.ofNat 32 p), some (BitVec.ofNat 32 (p / 2 ^ 32)))] } = v at hbody hw
  obtain ⟨w, hnext, hat⟩ := completes_done hq hi (hexec.trans (by rw [mulRow_issues hi, hbody])) hw rfl
    (by rw [State.thr_setThr_same]) (by rw [State.thr_setThr_same])
  have hwthr : w.thr c t = { (v.thr c t).age with
      pc := (v.thr c t).pc + BitVec.ofNat 32 4, old := none, wait := none, mid := false } := by
    have hfin := finish_eq (v := v) (c := c) (t := t) (by rw [hw.1, State.thr_setThr_same]; exact hi.running)
      ((hw.dctlBit c (8 + t)).trans hq.2) 4 none
    have hwv : finish v c t 4 none = w := by
      rw [hexec, mulRow_issues hi, hbody] at hnext
      exact Host.Outcome.next.inj hnext
    rw [← hwv, hfin, State.thr_setThr_same]
  have hage : (v.thr c t).age = { v.thr c t with mul := [(2, some (BitVec.ofNat 32 p), some (BitVec.ofNat 32 (p / 2 ^ 32)))] } :=
    age_newProduct (by rw [hw.1, State.thr_setThr_same]; rfl)
  refine ⟨w, hnext, ?_, ?_, ?_, hat.withProducts ?_⟩ <;> rw [hwthr, hage]
  · rw [hw.1, State.thr_setThr_same]
    rfl
  · rw [hw.1, State.thr_setThr_same]
    rfl
  · exact List.cons_ne_nil _ _

/-! ### Long operations (R345) -/

/-- The thread with a long operation outstanding behind the others. -/
def Thread.withLong (x : Thread) (rd : Nat) (k : LongKind) : Thread :=
  { x with nlong := x.nlong + 1, longs := x.longs ++ [{ rd := rd, pc := x.pc, seq := x.nlong, kind := k }] }

/-- A long operation begins. -/
theorem longStart_begins {u v : State} {c t rd : Nat} {k : LongKind} {e : Upset} (h : IssuedFrom c t u v)
    (hprecise : (u.thr c t).sw.getLsbD 31 = false) :
    longStart v c t rd k e = .done (v.setThr c t ((v.thr c t).withLong rd k)) none := by
  have hbit : swBit (v.thr c t).sw 31 = false := by rw [h.sw]; exact hprecise
  simp only [longStart, hbit, Bool.false_eq_true, if_false]
  rfl

theorem IssuedFrom.withLong {u v : State} {c t : Nat} (h : IssuedFrom c t u v) (rd : Nat) (k : LongKind) :
    IssuedFrom c t (u.setThr c t ((u.thr c t).withLong rd k)) (v.setThr c t ((v.thr c t).withLong rd k)) :=
  h.mapThr (f := fun x => x.withLong rd k) fun _ _ => rfl

/-- With PRECISE one that gives a value retires at once. -/
theorem longStart_precise {u v : State} {c t rd : Nat} {w : Word} {e : Upset} (h : IssuedFrom c t u v)
    (hprecise : (u.thr c t).sw.getLsbD 31 = true) : longStart v c t rd (.value w) e = .done (v.setG c t rd w) none := by
  simp only [longStart, h.sw, swBit, hprecise, longResult, if_true]

theorem setG_pc_state (s : State) (c t r : Nat) (v : Word) :
    ((s.setG c t r v).thr c t).pc = (s.thr c t).pc ∧ ((s.setG c t r v).thr c t).state = (s.thr c t).state := by
  rw [thr_setG]
  exact ⟨pc_setReg .., state_setReg ..⟩

/-- An instruction whose result is written completes. -/
theorem completes_setG {i : Instr} {s : State} {c t rd : Nat} {v : Word} {k : Ins} {old : Option (Nat × Word)} (hq : Quiet s c t)
    (hi : Issues s c t k)
    (hexec : exec i s = .next (settleRes (takeTurn s c t) c t (.done ((s.issued c t).setG c t rd v) old))) :
    Completes i s fun w => ThreadAt (s.setG c t rd v) w c t ((s.thr c t).pc + 4) old := by
  obtain ⟨hpc, hstate⟩ := setG_pc_state s c t rd v
  exact completes_done hq hi hexec ((issuedFrom_issued c t hq.1).setG _ _) rfl hpc hstate

/-- An instruction that changes its thread by `f` completes. -/
theorem completes_mapThr {i : Instr} {s : State} {c t : Nat} {f : Thread → Thread} {k : Ins} {old : Option (Nat × Word)}
    (hq : Quiet s c t) (hi : Issues s c t k) (hf : ∀ x q, f (x.withQueue q) = (f x).withQueue q)
    (hkeep : ∀ x, (f x).pc = x.pc ∧ (f x).state = x.state)
    (hexec : exec i s = .next (settleRes (takeTurn s c t) c t
      (.done ((s.issued c t).setThr c t (f ((s.issued c t).thr c t))) old))) :
    Completes i s fun w => ThreadAt (s.setThr c t (f (s.thr c t))) w c t ((s.thr c t).pc + 4) old := by
  obtain ⟨hpc, hstate⟩ := hkeep (s.thr c t)
  exact completes_done hq hi hexec ((issuedFrom_issued c t hq.1).mapThr hf) rfl (by rw [State.thr_setThr_same]; exact hpc)
    (by rw [State.thr_setThr_same]; exact hstate)

/-- A divide or a root: outstanding, or, with PRECISE, done. -/
theorem long_completes {i : Instr} {s : State} {c t rd : Nat} {v : Word} {k : Ins} (hq : Quiet s c t) (hi : Issues s c t k)
    (hexec : exec i s = .next (settleRes (takeTurn s c t) c t (longStart (s.issued c t) c t rd (.value v) .none))) :
    ((s.thr c t).sw.getLsbD 31 = false → Completes i s fun w =>
      ThreadAt (s.setThr c t ((s.thr c t).withLong rd (.value v))) w c t ((s.thr c t).pc + 4) none) ∧
    ((s.thr c t).sw.getLsbD 31 = true → Completes i s fun w => ThreadAt (s.setG c t rd v) w c t ((s.thr c t).pc + 4) none) := by
  have hv := issuedFrom_issued c t hq.1
  refine ⟨fun hprecise => ?_, fun hprecise => ?_⟩
  · exact completes_mapThr (f := fun x => x.withLong rd (.value v)) hq hi (fun _ _ => rfl) (fun _ => ⟨rfl, rfl⟩)
      (hexec.trans (by rw [longStart_begins hv hprecise]))
  · exact completes_setG hq hi (hexec.trans (by rw [longStart_precise hv hprecise]))

/-- DIV, DIVU and SQRT begin with their value where no trap of a zero divisor is asked for. -/
theorem divBody_value {u v : State} {c t fn rd ra rb : Nat} (h : IssuedFrom c t u v)
    (hzero : (u.thr c t).sw.getLsbD 28 = false ∨ (u.thr c t).use rb ≠ 0) :
    divBody c t fn rd ra rb v = longStart v c t rd (.value (divVal fn ((u.thr c t).use ra) ((u.thr c t).use rb))) .none := by
  have hno : (decide (fn ≠ 4) && decide ((u.thr c t).use rb = 0) && (u.thr c t).sw.getLsbD 28) = false := by
    rcases hzero with hzero | hzero
    · rw [hzero, Bool.and_false]
    · rw [decide_eq_false hzero, Bool.and_false, Bool.false_and]
  simp only [divBody, h.use, h.sw, swBit, hno, Bool.false_eq_true, if_false]

/-- FDIV and FSQRT begin. -/
theorem fpBody_long {u v : State} {c t fn rd ra rb : Nat} (h : IssuedFrom c t u v) (hfn : fn = 3 ∨ fn = 4) :
    fpBody c t fn rd ra rb v = longStart v c t rd (.value (fpVal fn ((u.thr c t).use ra) ((u.thr c t).use rb))) .none := by
  simp only [fpBody, h.use, hfn, if_true]
  rw [if_neg (by omega)]

/-- The other forms write their result at once. -/
theorem fpBody_writes {u v : State} {c t fn rd ra rb : Nat} (h : IssuedFrom c t u v) (hfn : fn ≠ 3 ∧ fn ≠ 4 ∧ fn ≠ 5) :
    fpBody c t fn rd ra rb v = .done (v.setG c t rd (fpVal fn ((u.thr c t).use ra) ((u.thr c t).use rb))) none := by
  simp only [fpBody, h.use]
  rw [if_neg (by omega), if_neg (by omega)]

/-- FCMP writes flags alone. -/
theorem fpBody_compares {u v : State} {c t rd ra rb : Nat} (h : IssuedFrom c t u v) :
    fpBody c t 5 rd ra rb v = .done (v.setNzcv c t (f32Cmp (f32Of ((u.thr c t).use ra)) (f32Of ((u.thr c t).use rb)))) none := by
  simp only [fpBody, h.use]
  rfl

/-! ### The end of a long operation (R339, R345) -/

/-- The thread after the long operation `l` at place `i` has retired with the value `v`. -/
def Thread.retired (x : Thread) (i : Nat) (l : LongOp) (v : Word) : Thread :=
  if l.rd = 0 then { x with longs := x.longs.eraseIdx i } else
  { x with
    g := smSet 0 x.g l.rd v
    longs := (x.longs.eraseIdx i).map fun m => if m.rd = l.rd ∧ m.seq < l.seq then { m with rd := 0 } else m }

theorem retired_shows (x : Thread) (i : Nat) (l : LongOp) (v : Word) :
    (∀ q, (x.retired i l v).reg q = if q = l.rd ∧ q ≠ 0 then v else x.reg q) ∧
    x.retired i l v = { x with
      g := (x.retired i l v).g
      longs := (x.longs.eraseIdx i).map fun m => if m.rd = l.rd ∧ m.seq < l.seq then { m with rd := 0 } else m } := by
  unfold Thread.retired
  split
  · rename_i hrd
    refine ⟨fun q => ?_, ?_⟩
    · rw [if_neg fun h => h.2 (h.1.trans hrd)]
      rfl
    · have hid (m : LongOp) : (if m.rd = l.rd ∧ m.seq < l.seq then { m with rd := 0 } else m) = m := by
        split
        · rename_i h
          obtain ⟨⟩ := m
          simp_all
        · rfl
      simp only [hid, List.map_id']
  · rename_i hrd
    refine ⟨fun q => ?_, rfl⟩
    by_cases hq : q = l.rd
    · subst hq
      simp [Thread.reg, hrd]
    · simp [Thread.reg, hq, smGet_smSet_other _ _ _ _ _ _ hq]

theorem longRetire_value {s : State} {c t i : Nat} {l : LongOp} {v : Word} {e : Upset} (hup : s.coreUp c = true)
    (hl : (s.thr c t).longs[i]? = some l) (hv : l.kind = .value v) :
    longRetire s c t i e = s.setThr c t ((s.thr c t).retired i l v) := by
  simp only [longRetire, hup, hl, hv, longResult, Thread.retired]
  rfl

theorem longRetire_divZero {s : State} {c t i : Nat} {l : LongOp} {e : Upset} (hup : s.coreUp c = true)
    (hl : (s.thr c t).longs[i]? = some l) (hk : l.kind = .divZero) :
    longRetire s c t i e = s.setThr c t { s.thr c t with
      longs := (s.thr c t).longs.eraseIdx i
      due := (s.thr c t).due ++ [{ seq := l.seq, vec := 7, pc := l.pc, addr := 0 }] } := by
  simp only [longRetire, hup, hl, hk, longResult]
  rfl

/-- Settles O44: each form's row, and what it leaves outstanding. -/
theorem sepiaLongOperations : Obligations.SepiaLongOperations := by
  refine ⟨fun c h rd ra rb s hq => ⟨fun p hp hi hmul => ?_, fun p hp hi hzero => ?_, fun p hp hi => ?_, fun hi => ?_⟩,
    fun c h i l s hup hl => ⟨fun v hv => ?_, fun hk => ?_⟩⟩
  · obtain ⟨hexec, hfn, hprod⟩ : exec p.2.1 s = .next (mulRow c h p.1 s) ∧ p.1 ≤ 1 ∧
        mulProduct (decide (p.1 = 0)) ((s.thr c h).use ra) ((s.thr c h).use rb) = p.2.2 := by
      simp only [List.mem_cons, List.not_mem_nil, or_false] at hp
      rcases hp with rfl | rfl <;> exact ⟨rfl, by simp, rfl⟩
    exact mul_completes hq hi hexec hfn hmul hprod
  · have hexec : exec p.2.1 s =
        .next (settleRes (takeTurn s c h) c h (longStart (s.issued c h) c h rd (.value p.2.2) .none)) := by
      have hv := issuedFrom_issued c.val h.val hq.1
      have hdiv (fn : Nat) (hfn : 1 < fn) (i : Instr) (hx : exec i s = .next (mulRow c h fn s)) (hi : Issues s c h (.mul fn rd ra rb)) :
          exec i s = .next (settleRes (takeTurn s c h) c h (longStart (s.issued c h) c h rd
            (.value (divVal fn ((s.thr c h).use ra) ((s.thr c h).use rb))) .none)) := by
        rw [hx, mulRow_issues hi, if_neg (by omega), divBody_value hv hzero]
      have hfp (fn : Nat) (hfn : fn = 3 ∨ fn = 4) (i : Instr) (hx : exec i s = .next (fpRow c h fn s))
          (hi : Issues s c h (.fp fn rd ra rb)) :
          exec i s = .next (settleRes (takeTurn s c h) c h (longStart (s.issued c h) c h rd
            (.value (fpVal fn ((s.thr c h).use ra) ((s.thr c h).use rb))) .none)) := by
        rw [hx, fpRow_issues hi, fpBody_long hv hfn]
      simp only [List.mem_cons, List.not_mem_nil, or_false] at hp
      rcases hp with rfl | rfl | rfl | rfl | rfl
      · exact hdiv 2 (by decide) _ rfl hi
      · exact hdiv 3 (by decide) _ rfl hi
      · exact hdiv 4 (by decide) _ rfl hi
      · exact hfp 3 (.inl rfl) _ rfl hi
      · exact hfp 4 (.inr rfl) _ rfl hi
    exact long_completes hq hi hexec
  · obtain ⟨hexec, hfn, hval⟩ : exec p.2.1 s = .next (fpRow c h p.1 s) ∧ (p.1 ≠ 3 ∧ p.1 ≠ 4 ∧ p.1 ≠ 5) ∧
        fpVal p.1 ((s.thr c h).use ra) ((s.thr c h).use rb) = p.2.2 := by
      simp only [List.mem_cons, List.not_mem_nil, or_false] at hp
      rcases hp with rfl | rfl | rfl | rfl | rfl <;> exact ⟨rfl, by simp, rfl⟩
    exact completes_setG hq hi (hexec.trans (by rw [fpRow_issues hi, fpBody_writes (issuedFrom_issued _ _ hq.1) hfn, hval]))
  · have hv := issuedFrom_issued c.val h.val hq.1
    have hexec : exec (.opFcmp c h) s = .next (fpRow c h 5 s) := rfl
    refine completes_done hq hi (hexec.trans (by rw [fpRow_issues hi, fpBody_compares hv])) (hv.setNzcv _) rfl ?_ ?_ <;>
      rw [thr_setNzcv]
  · obtain ⟨hreg, hthr⟩ := retired_shows (s.thr c h) i l v
    refine ⟨_, congrArg Host.Outcome.next (longRetire_value hup hl hv), ?_, ?_, rfl⟩ <;> rw [State.thr_setThr_same]
    · exact hreg
    · exact hthr
  · exact ⟨_, congrArg Host.Outcome.next (longRetire_divZero hup hl hk), State.thr_setThr_same .., rfl⟩

end Sys2Proof.Machine
end

section
/-! SUPPORT. Presentation, claim and end of interrupts, and software sources (O52). -/
namespace Sys2Proof.Machine

/-! ### Sources and stacks -/

@[simp] theorem irqCore_setIrqCore_same (s : State) (c : Nat) (x : IrqCore) : (s.setIrqCore c x).irqCore c = x :=
  smGet_smSet_same _ _ _ _

@[simp] theorem irqCore_setSrcOf (s : State) (c id : Nat) (x : IrqSrc) (d : Nat) : (s.setSrcOf c id x).irqCore d = s.irqCore d := by
  rw [State.setSrcOf]
  split <;> rfl

@[simp] theorem srcOf_setSrcOf_same (s : State) (c id : Nat) (x : IrqSrc) : (s.setSrcOf c id x).srcOf c id = x := by
  by_cases h : id < 32
  · simp only [State.setSrcOf, State.srcOf, if_pos h]
    exact smGet_smSet_same _ _ _ _
  · simp only [State.setSrcOf, State.srcOf, if_neg h]
    exact smGet_smSet_same _ _ _ _

/-- A source's record is the only thing that changes when it is put. -/
theorem setSrcOf_eq (s : State) (c id : Nat) (x : IrqSrc) :
    s.setSrcOf c id x =
      { s with irq := { s.irq with priv := (s.setSrcOf c id x).irq.priv, shared := (s.setSrcOf c id x).irq.shared } } := by
  rw [State.setSrcOf]
  split <;> rfl

theorem checkStack_same {s : State} {c : Nat} (h : (s.irqCore c).stack = (s.irqCore c).shadow) : checkStack s c = s := by
  simp only [checkStack, if_pos h]

/-! ### The best source (R388) -/

theorem bestSrc_ne_none {l : List (Nat × Nat)} (h : l ≠ []) : ∃ b, bestSrc l = some b := by
  cases l with
  | nil => exact absurd rfl h
  | cons a r =>
    rw [bestSrc]
    split
    · exact ⟨a, rfl⟩
    · split
      · exact ⟨_, rfl⟩
      · exact ⟨_, rfl⟩

/-- The best source is one of them, and every other has a lower priority, or the same and no lower ID. -/
theorem bestSrc_spec {l : List (Nat × Nat)} {b : Nat × Nat} (h : bestSrc l = some b) :
    b ∈ l ∧ ∀ q ∈ l, q.1 < b.1 ∨ (q.1 = b.1 ∧ b.2 ≤ q.2) := by
  induction l generalizing b with
  | nil => simp [bestSrc] at h
  | cons a r ih =>
    rw [bestSrc] at h
    cases hr : bestSrc r with
    | none =>
      obtain rfl : r = [] := by
        by_contra hne
        obtain ⟨b, hb⟩ := bestSrc_ne_none hne
        simp [hb] at hr
      obtain rfl : a = b := by simpa [hr] using h
      simp
    | some m =>
      obtain ⟨hmem, hmax⟩ := ih hr
      simp only [hr] at h
      split at h
      next hbetter =>
        obtain rfl : a = b := by simpa using h
        have ha : m.1 < a.1 ∨ (a.1 = m.1 ∧ a.2 < m.2) := by simpa [betterSrc] using hbetter
        refine ⟨by simp, fun q hq => ?_⟩
        obtain rfl | hq := List.mem_cons.mp hq
        · omega
        · have := hmax q hq
          omega
      next hworse =>
        obtain rfl : m = b := by simpa using h
        have ha : ¬ (m.1 < a.1 ∨ (a.1 = m.1 ∧ a.2 < m.2)) := by simpa [betterSrc] using hworse
        refine ⟨by simp [hmem], fun q hq => ?_⟩
        obtain rfl | hq := List.mem_cons.mp hq
        · omega
        · exact hmax q hq

/-! ### Presentation, claim, end of interrupt (R386 to R389) -/

theorem coalesceTimeout_presents {s : State} {c id : Nat} (hup : s.up (86 + c / 8) = true) (hlevel : s.levelOf c id = true)
    (hen : (s.cfgOf c id).en = true) (htime : (s.cfgOf c id).time ≠ 0) (hocc : (s.srcOf c id).occ ≠ 0)
    (hpres : (s.srcOf c id).presented = false) :
    coalesceTimeout s c id = s.setSrcOf c id { s.srcOf c id with presented := true } := by
  simp only [coalesceTimeout, hup, hlevel, hen, hpres]
  exact if_pos (by simp [htime, hocc])

theorem irqClaim_none {s : State} {c : Nat} (hstack : (s.irqCore c).stack = (s.irqCore c).shadow) (h : s.claimable c = []) :
    irqClaim s c = (0x80000000#32, s.event (Reg.IRQ_CSTAT_SPUR c)) := by
  simp only [irqClaim, checkStack_same hstack, h, bestSrc]

theorem irqClaim_best {s : State} {c prio id : Nat} (hstack : (s.irqCore c).stack = (s.irqCore c).shadow)
    (hlen : (s.irqCore c).stack.length < 16) (h : bestSrc (s.claimable c) = some (prio, id)) :
    irqClaim s c = (BitVec.ofNat 32 (prio * 65536 + id),
      (s.setIrqCore c { stack := (prio, id) :: (s.irqCore c).stack, shadow := (prio, id) :: (s.irqCore c).shadow }).setSrcOf c id
        { s.srcOf c id with inService := true }) := by
  have htake (l : List (Nat × Nat)) (hl : l.length < 16) : ((prio, id) :: l).take 16 = (prio, id) :: l :=
    List.take_of_length_le (by simpa using hl)
  simp only [irqClaim, checkStack_same hstack, h, htake _ hlen, htake _ (hstack ▸ hlen)]
  rfl

theorem irqEoi_top {s : State} {c prio id : Nat} {rest : List (Nat × Nat)}
    (hstack : (s.irqCore c).stack = (s.irqCore c).shadow) (h : (s.irqCore c).stack = (prio, id) :: rest) :
    irqEoi s c id = (s.setIrqCore c { stack := rest, shadow := rest }).setSrcOf c id
      (if s.levelOf c id then { s.srcOf c id with inService := false, presented := true } else IrqSrc.idle) := by
  have hshadow : (s.irqCore c).shadow.drop 1 = rest := by rw [← hstack, h]; rfl
  simp only [irqEoi, checkStack_same hstack, h, hshadow, if_true]
  rfl

theorem irqEoi_other {s : State} {c id : Nat} (hstack : (s.irqCore c).stack = (s.irqCore c).shadow)
    (h : ∀ p ∈ (s.irqCore c).stack.head?, p.2 ≠ id) :
    irqEoi s c id = orderError (s.setIrqCore c (s.irqCore c)) c := by
  have hsame : ({ s.irqCore c with stack := (s.irqCore c).shadow } : IrqCore) = s.irqCore c := by rw [← hstack]
  simp only [irqEoi, checkStack_same hstack, hsame]
  cases hl : (s.irqCore c).stack with
  | nil => rfl
  | cons p rest =>
    have hne : p.2 ≠ id := h p (by simp [hl])
    simp only [if_neg hne]

/-- The flags of ORDER are set. -/
def orderShown (s : State) (c : Nat) : State := (s.event (Reg.IRQ_CSTAT_ORDER c)).event Reg.IRQ_STAT_ORDER

@[simp] theorem irqCore_orderShown (s : State) (c d : Nat) : (orderShown s c).irqCore d = s.irqCore d := rfl

theorem orderShown_flags (s : State) (c : Nat) :
    (orderShown s c).flag (Reg.IRQ_CSTAT_ORDER c) = true ∧ (orderShown s c).flag Reg.IRQ_STAT_ORDER = true := by
  have hne : Reg.IRQ_CSTAT c ≠ Reg.IRQ_STAT := by simp [Reg.IRQ_CSTAT, Reg.IRQ_STAT]; omega
  refine ⟨?_, flag_event_same _ (by simp) (by simp)⟩
  rw [State.flag, orderShown, fld_event_disjoint _ (by simp) (by simp) (by simp) (by simp) (.inl hne)]
  exact flag_event_same _ (by simp) (by simp)

theorem orderError_eq (s : State) (c : Nat) : orderError s c = raiseLine (orderShown s c) 58 := rfl

/-! ### Software sources (R385) -/

/-- `t` is `s` but for register IRQ_SWSET of core `c` and the state of the interrupt controllers. -/
def SoftChanged (c : Nat) (s t : State) : Prop := OnlyRegs [Reg.IRQ_SWSET c] { s with irq := t.irq } t

theorem SoftChanged.setFld {c : Nat} {s t : State} (h : SoftChanged c s t) {f : Fld} (hf : f.off = Reg.IRQ_SWSET c) (v : Nat) :
    SoftChanged c s (t.setFld f v) := OnlyRegs.setFld h (by simp [hf]) v

/-- Testing a source of one core changes the controllers alone. -/
theorem testPriv_eq (s : State) (c i : Nat) : testPriv s c i = { s with irq := (testPriv s c i).irq } := by
  rw [testPriv]
  split <;> rfl

/-- An occurrence of a source of one core changes the controllers alone, and is noted in the cycle. -/
theorem occurPriv_eq (s : State) (c i : Nat) :
    occurPriv s c i = { s with irq := (occurPriv s c i).irq, cyc := (occurPriv s c i).cyc } := by
  rw [occurPriv]
  split
  · rfl
  · split
    · rw [testPriv_eq]
    · rw [testPriv_eq]
      rfl

theorem SoftChanged.foldl_irq {c : Nat} {s t : State} (h : SoftChanged c s t) {f : State → Nat → State}
    (hf : ∀ u i, f u i = { u with irq := (f u i).irq, cyc := (f u i).cyc }) (l : List Nat) :
    SoftChanged c s (l.foldl f t) ∧ (l.foldl f t).regs = t.regs := by
  induction l generalizing t with
  | nil => exact ⟨h, rfl⟩
  | cons i r ih =>
    have hstep : SoftChanged c s (f t i) := by
      obtain ⟨hrest, hregs⟩ := h
      rw [hf]
      exact ⟨by rw [hrest], hregs⟩
    obtain ⟨hfold, hsame⟩ := ih hstep
    exact ⟨hfold, hsame.trans (by rw [hf])⟩

theorem SoftChanged.written {c : Nat} {s t : State} (h : SoftChanged c s t) :
    OnlyRegs [Reg.IRQ_SWSET c] { s with irq := t.written.irq }.written t.written := OnlyRegs.answer h _ _ _

/-- Bit `i` of IRQ_SWSET after the field SW is set. -/
theorem getLsbD_setFld_sw (s : State) (c v : Nat) {i : Nat} (hi : i < 16) :
    ((s.setFld (Reg.IRQ_SWSET_SW c) v).rd (Reg.IRQ_SWSET c)).getLsbD i = v.testBit i := by
  have hrd := rd_setFld_self s (Reg.IRQ_SWSET_SW c) v
  rw [show (Reg.IRQ_SWSET_SW c).off = Reg.IRQ_SWSET c from rfl] at hrd
  rw [hrd, getLsbD_wSetField _ _ _ (by simp) (by simp), if_pos ⟨Nat.zero_le i, by simp; omega⟩]
  simp

theorem testBit_fld_sw (s : State) (c : Nat) {i : Nat} (hi : i < 16) :
    (s.fld (Reg.IRQ_SWSET_SW c)).testBit i = (s.rd (Reg.IRQ_SWSET c)).getLsbD i := by
  rw [State.fld, testBit_wField]
  simp [hi]

/-- Subtracting the bits that two numbers share clears them. -/
theorem testBit_sub_and (a b i : Nat) : (a - (a &&& b)).testBit i = (a.testBit i && !b.testBit i) := by
  have hle : a &&& b ≤ a := Nat.and_le_left
  have hlow : (a &&& b) % 2 = a % 2 &&& b % 2 := Nat.and_mod_two_pow (n := 1)
  have hbit : (a &&& b) % 2 ≤ a % 2 := hlow ▸ Nat.and_le_left
  induction i generalizing a b with
  | zero =>
    have hsub : (a - (a &&& b)) % 2 = a % 2 - (a % 2 &&& b % 2) := by omega
    simp only [Nat.testBit_zero, hsub]
    rcases Nat.mod_two_eq_zero_or_one a with ha | ha <;> rcases Nat.mod_two_eq_zero_or_one b with hb | hb <;> simp [ha, hb]
  | succ i ih =>
    have hhalf : (a &&& b) / 2 = a / 2 &&& b / 2 := Nat.and_div_two
    have hmod := Nat.and_mod_two_pow (a := a / 2) (b := b / 2) (n := 1)
    rw [Nat.testBit_succ, Nat.testBit_succ, Nat.testBit_succ, ← ih _ _ Nat.and_le_left hmod (hmod ▸ Nat.and_le_left)]
    congr 1
    omega

theorem softSet_spec (s : State) (c : Nat) (m : BitVec 16) :
    (∀ i, i < 16 → ((softSet s c m.toNat).rd (Reg.IRQ_SWSET c)).getLsbD i = ((s.rd (Reg.IRQ_SWSET c)).getLsbD i || m.getLsbD i)) ∧
    SoftChanged c s (softSet s c m.toNat) := by
  have hset : SoftChanged c s (s.setFld (Reg.IRQ_SWSET_SW c) (s.fld (Reg.IRQ_SWSET_SW c) ||| m.toNat)) :=
    SoftChanged.setFld (OnlyRegs.refl _ _) rfl _
  obtain ⟨hfold, hregs⟩ := hset.foldl_irq (f := fun s i => occurPriv s c i) (fun u i => occurPriv_eq u c i)
    ((List.range 16).filter (bit m.toNat))
  refine ⟨fun i hi => ?_, hfold⟩
  have hrd : (softSet s c m.toNat).rd (Reg.IRQ_SWSET c) =
      (s.setFld (Reg.IRQ_SWSET_SW c) (s.fld (Reg.IRQ_SWSET_SW c) ||| m.toNat)).rd (Reg.IRQ_SWSET c) :=
    congrArg (smGet (resetWord (Reg.IRQ_SWSET c)) · (Reg.IRQ_SWSET c)) hregs
  rw [hrd, getLsbD_setFld_sw _ _ _ hi, Nat.testBit_or, testBit_fld_sw _ _ hi]
  rfl

theorem softClear_spec (s : State) (c : Nat) (m : BitVec 16) :
    (∀ i, i < 16 → ((softClear s c m.toNat).rd (Reg.IRQ_SWSET c)).getLsbD i = ((s.rd (Reg.IRQ_SWSET c)).getLsbD i && !m.getLsbD i)) ∧
    SoftChanged c s (softClear s c m.toNat) := by
  let old := s.fld (Reg.IRQ_SWSET_SW c)
  have hset : SoftChanged c s (s.setFld (Reg.IRQ_SWSET_SW c) (old - (old &&& m.toNat))) :=
    SoftChanged.setFld (OnlyRegs.refl _ _) rfl _
  obtain ⟨hfold, hregs⟩ := hset.foldl_irq (f := fun s i => testPriv s c i)
    (fun u i => (testPriv_eq u c i).trans (by rw [testPriv_eq])) ((List.range 16).filter (bit m.toNat))
  refine ⟨fun i hi => ?_, hfold⟩
  have hrd : (softClear s c m.toNat).rd (Reg.IRQ_SWSET c) =
      (s.setFld (Reg.IRQ_SWSET_SW c) (old - (old &&& m.toNat))).rd (Reg.IRQ_SWSET c) :=
    congrArg (smGet (resetWord (Reg.IRQ_SWSET c)) · (Reg.IRQ_SWSET c)) hregs
  rw [hrd, getLsbD_setFld_sw _ _ _ hi, testBit_sub_and, testBit_fld_sw _ _ hi]
  rfl

/-- A served write by command `i` completes with its effect on the state in which the cycle of the access has begun. -/
theorem completesIn_servedAt {i : Instr} {who : Requester} {off : Nat} {s : State} {f : State → State} {P : State → State → Prop}
    (hexec : exec i s = .next (writeAct (s.accessCycle who) who off f)) (hbegun : begun i s = s.accessCycle who)
    (hs : Served s who off) (h : P (s.accessCycle who) (f (s.accessCycle who)).written) : CompletesIn i s P :=
  ⟨_, hexec.trans (congrArg Host.Outcome.next (writeAct_served (hs.accessCycle who))), hbegun ▸ h⟩

/-! ### The obligation -/

/-- Settles O52. -/
theorem interruptService : Obligations.InterruptService := by
  refine ⟨?_, ?_, ?_, ?_⟩
  · intro c id s hup hlevel hen htime hocc hpres
    refine ⟨_, congrArg Host.Outcome.next (coalesceTimeout_presents (s := s.eventCycle) hup hlevel hen htime hocc hpres), ?_, ?_⟩
    · exact srcOf_setSrcOf_same _ _ _ _
    · exact setSrcOf_eq _ _ _ _
  · intro who c s hs hstack
    refine ⟨fun hnone => ?_, fun hsome hlen => ?_⟩
    · refine completesIn_servedRead rfl rfl hs fun cyc => ?_
      simp only [stackUpset]
      rw [irqClaim_none (s := { s with cyc := cyc }) hstack hnone]
      have hspur := flag_event_same { s with cyc := cyc } (f := Reg.IRQ_CSTAT_SPUR c) (by simp) (by simp)
      have hrest := (OnlyRegs.refl [Reg.IRQ_CSTAT c] { s with cyc := cyc }).event (f := Reg.IRQ_CSTAT_SPUR c) (by simp)
      refine ⟨?_, hrest.answer _ _ _⟩
      rw [State.flag, fld_returned]
      exact hspur
    · obtain ⟨⟨prio, id⟩, hbest⟩ := bestSrc_ne_none hsome
      obtain ⟨hmem, hmax⟩ := bestSrc_spec hbest
      refine ⟨prio, id, hmem, hmax, completesIn_servedRead rfl rfl hs fun cyc => ?_⟩
      simp only [stackUpset]
      rw [irqClaim_best (s := { s with cyc := cyc }) hstack hlen hbest]
      refine ⟨?_, ?_, ?_, ?_⟩
      · exact congrArg IrqCore.stack ((irqCore_setSrcOf ..).trans (irqCore_setIrqCore_same ..))
      · exact congrArg IrqCore.shadow ((irqCore_setSrcOf ..).trans (irqCore_setIrqCore_same ..))
      · exact srcOf_setSrcOf_same ..
      · rw [setSrcOf_eq]
        rfl
  · intro who c id s hs hstack
    refine ⟨fun prio rest h => completesIn_served rfl rfl hs fun cyc => ?_, fun h => ?_⟩
    · simp only [stackUpset]
      rw [irqEoi_top (s := { s with cyc := cyc }) hstack h]
      refine ⟨?_, ?_, ?_, ?_, ?_⟩
      · exact congrArg IrqCore.stack ((irqCore_setSrcOf ..).trans (irqCore_setIrqCore_same ..))
      · exact congrArg IrqCore.shadow ((irqCore_setSrcOf ..).trans (irqCore_setIrqCore_same ..))
      · refine (congrArg IrqSrc.inService (srcOf_setSrcOf_same ..)).trans ?_
        split <;> rfl
      · refine (congrArg IrqSrc.presented (srcOf_setSrcOf_same ..)).trans ?_
        split
        next hlevel => exact hlevel.symm
        next hlevel => exact (Bool.eq_false_of_not_eq_true hlevel).symm
      · rw [setSrcOf_eq]
        rfl
    · obtain ⟨cyc, hcyc⟩ := accessCycle_eq_with_cyc s who
      refine ⟨orderShown ((s.accessCycle who).setIrqCore c (s.irqCore c)) c, completesIn_servedAt rfl rfl hs ?_, ?_, orderShown_flags _ _⟩
      · have hcore : (s.accessCycle who).irqCore c = s.irqCore c := by rw [hcyc]; rfl
        simp only [stackUpset]
        rw [irqEoi_other (by rw [hcore]; exact hstack) (by rw [hcore]; exact h), orderError_eq, hcore]
      · rw [irqCore_orderShown]
        exact irqCore_setIrqCore_same ..
  · intro who c m s
    refine ⟨fun hs => completesIn_served rfl rfl hs fun cyc => ?_, fun hs => completesIn_served rfl rfl hs fun cyc => ?_⟩
    · obtain ⟨hbits, hrest⟩ := softSet_spec { s with cyc := cyc } c m
      exact ⟨hbits, hrest.written⟩
    · obtain ⟨hbits, hrest⟩ := softClear_spec { s with cyc := cyc } c m
      exact ⟨hbits, hrest.written⟩

end Sys2Proof.Machine
end

section
/-! SUPPORT. Mailboxes, MSI-X messages and the management endpoint (O53). -/
namespace Sys2Proof.Machine

/-! ### Mailboxes (R390) -/

theorem mbWrite_empty {s : State} {m j : Nat} (v : Word) (h : s.mbFull m = false) :
    mbWrite (if s.mbFull m then s else mend s (Reg.IRQ_MBDATA m j)) m j v = (mend s (Reg.IRQ_MBDATA m j)).wr (Reg.IRQ_MBDATA m j) v := by
  have hmend : (mend s (Reg.IRQ_MBDATA m j)).mbFull m = false := h
  simp only [h, mbWrite, Bool.false_eq_true, if_false, hmend]

theorem mbWrite_full {s : State} {m j : Nat} (v : Word) (h : s.mbFull m = true) :
    mbWrite (if s.mbFull m then s else mend s (Reg.IRQ_MBDATA m j)) m j v = s.event (Reg.IRQ_MBSTAT_COLL m) := by
  simp only [mbWrite, h, if_true]

/-- A message is taken: FULL with its sender, ABORTED 0, COLL as it was. -/
theorem mbTake_shows (s : State) (m agent : Nat) :
    (mbTake s m agent).mbFull m = true ∧ (mbTake s m agent).fld (Reg.IRQ_MBSTAT_SENDER m) = agent % 64 ∧
    (mbTake s m agent).flag (Reg.IRQ_MBSTAT_ABORTED m) = false ∧
    (mbTake s m agent).flag (Reg.IRQ_MBSTAT_COLL m) = s.flag (Reg.IRQ_MBSTAT_COLL m) := by
  simp [mbTake, State.mbFull, State.flag]

theorem onlyRegs_mbTake (s : State) (m agent : Nat) : OnlyRegs [Reg.IRQ_MBSTAT m] s (mbTake s m agent) :=
  (((OnlyRegs.refl _ _).setFld (by simp) _).setFld (by simp) _).setFld (by simp) _

/-- A refused message leaves the mailbox full, with its sender, and COLL set. -/
theorem collision_shows {s : State} {m : Nat} (h : s.mbFull m = true) :
    (s.event (Reg.IRQ_MBSTAT_COLL m)).mbFull m = true ∧
    (s.event (Reg.IRQ_MBSTAT_COLL m)).fld (Reg.IRQ_MBSTAT_SENDER m) = s.fld (Reg.IRQ_MBSTAT_SENDER m) ∧
    (s.event (Reg.IRQ_MBSTAT_COLL m)).flag (Reg.IRQ_MBSTAT_COLL m) = true := by
  refine ⟨?_, ?_, flag_event_same _ (by simp) (by simp)⟩
  · rw [State.mbFull, State.flag, fld_event_disjoint _ (by simp) (by simp) (by simp) (by simp) (by simp)]
    exact h
  · exact fld_event_disjoint _ (by simp) (by simp) (by simp) (by simp) (by simp)

/-- Of a SEND the cycle keeps a note, for an ACK that falls in it. -/
def State.sendNoted (s : State) (m agent : Nat) : State :=
  { s with cyc := { s.cyc with mbSends := s.cyc.mbSends ++ [(m, agent, !s.mbFull m, s.flag (Reg.IRQ_MBSTAT_COLL m))] } }

theorem mbSend_eq (s : State) (m agent : Nat) :
    mbSend s m agent = if s.mbFull m then (s.sendNoted m agent).event (Reg.IRQ_MBSTAT_COLL m) else mbTake (s.sendNoted m agent) m agent := rfl

theorem onlyRegs_sendNoted (offs : List Nat) (s : State) (m agent : Nat) : OnlyRegs offs s (s.sendNoted m agent) := ⟨rfl, fun _ _ => rfl⟩

theorem mbAck_alone {s : State} (m : Nat) (h : s.cyc.mbSends = []) : mbAck s m = s.setFld (Reg.IRQ_MBSTAT_FULL m) 0 := by
  simp only [mbAck, h, List.find?_nil]

/-! ### MSI-X (R425) -/

theorem not_mem_nsDel (l : List Nat) (k : Nat) : k ∉ nsDel l k := by simp [nsDel]

/-- The spacing of vector `v` has ended. -/
def State.spaced (s : State) (v : Nat) : State :=
  { s with pcie := { s.pcie with spacing := nsDel s.pcie.spacing v, merged := nsDel s.pcie.merged v } }

/-- The pending bit of a vector. -/
def pbaBit (v : Nat) : Fld := ⟨Reg.IMG_MSIX_PBA (v / 32), v % 32, v % 32⟩

/-- A request of a vector that may send and has sent nothing for 1 us. -/
theorem msixRequest_sends {s : State} {v : Nat} (hen : s.pcie.msixEnable = true) (hmask : s.msixMasked v = false)
    (hspace : v ∉ s.pcie.spacing) : msixRequest s v = msixSend s v := by
  simp [msixRequest, hen, hmask, hspace]

theorem spacingEnd_unmerged {s : State} {v : Nat} (h : v ∈ s.pcie.spacing) (hm : v ∉ s.pcie.merged) : spacingEnd s v = s.spaced v := by
  simp only [spacingEnd, List.contains_iff_mem.mpr h, if_true, if_neg (mt List.contains_iff_mem.mp hm)]
  rfl

theorem spacingEnd_merged {s : State} {v : Nat} (h : v ∈ s.pcie.spacing) (hm : v ∈ s.pcie.merged) (hen : s.pcie.msixEnable = true)
    (hmask : s.msixMasked v = false) : spacingEnd s v = msixSend (s.spaced v) v := by
  rw [← msixRequest_sends (s := s.spaced v) hen hmask (not_mem_nsDel _ _)]
  simp only [spacingEnd, List.contains_iff_mem.mpr h, List.contains_iff_mem.mpr hm, if_true]
  rfl

theorem sent_msixSend (s : State) (v : Nat) : smGet 0 (msixSend s v).pcie.sent v = smGet 0 s.pcie.sent v + 1 := by
  simp only [msixSend, smGet_smSet_same]

theorem msixFlush_pending {s : State} {v : Nat} (hen : s.pcie.msixEnable = true) (hmask : s.msixMasked v = false)
    (hpba : s.flag (pbaBit v) = true) : msixFlush s v = msixRequest (s.setPba v false) v := by
  have hpba' : s.flag ⟨Reg.IMG_MSIX_PBA (v / 32), v % 32, v % 32⟩ = true := hpba
  simp [msixFlush, hen, hmask, hpba']

theorem msixFlush_disabled {s : State} (v : Nat) (hen : s.pcie.msixEnable = false) : msixFlush s v = s := by
  simp [msixFlush, hen]

/-- The vector's mask is 0. -/
def State.unmasked (s : State) (v : Nat) : State := s.setFld (Reg.IMG_MSIX_VCTL_MASK v) 0

@[simp] theorem pcie_unmasked (s : State) (v : Nat) : (s.unmasked v).pcie = s.pcie := rfl

@[simp] theorem pcie_setPba (s : State) (v : Nat) (b : Bool) : (s.setPba v b).pcie = s.pcie := rfl

theorem vctl_ne_pba (v : Nat) : Reg.IMG_MSIX_VCTL v ≠ Reg.IMG_MSIX_PBA (v / 32) := by
  simp only [Reg.IMG_MSIX_VCTL, Reg.IMG_MSIX_PBA]
  omega

theorem pbaBit_ok (v : Nat) : Fld.ok (pbaBit v) := ⟨Nat.le_refl _, Nat.mod_lt _ (by decide)⟩

theorem vctlMask_ok (v : Nat) : Fld.ok (Reg.IMG_MSIX_VCTL_MASK v) := by simp [Fld.ok]

theorem mask_unmasked (s : State) (v : Nat) : (s.unmasked v).flag (Reg.IMG_MSIX_VCTL_MASK v) = false := by
  simp [State.unmasked, State.flag]

theorem mask_setPba (s : State) (v : Nat) (b : Bool) :
    (s.setPba v b).flag (Reg.IMG_MSIX_VCTL_MASK v) = s.flag (Reg.IMG_MSIX_VCTL_MASK v) := by
  have hkept := State.fld_setFld_other s (pbaBit v) (Reg.IMG_MSIX_VCTL_MASK v) (b2n b) (pbaBit_ok v) (vctlMask_ok v) (.inl (vctl_ne_pba v))
  exact congrArg (fun n => decide (n ≠ 0)) hkept

/-- Unmasking a vector with its pending bit set sends one message and clears the bit. -/
theorem msixFlush_unmasked {s : State} {v : Nat} (hen : s.pcie.msixEnable = true) (hfm : s.pcie.funcMask = false)
    (hspace : v ∉ s.pcie.spacing) (hpba : s.flag (pbaBit v) = true) :
    msixFlush (s.unmasked v) v = msixSend ((s.unmasked v).setPba v false) v := by
  have hpend : (s.unmasked v).flag (pbaBit v) = true := by
    rw [State.flag, State.unmasked, State.fld_setFld_other _ _ _ _ (vctlMask_ok v) (pbaBit_ok v) (.inl (vctl_ne_pba v).symm)]
    exact hpba
  have hmask : (s.unmasked v).msixMasked v = false := by
    rw [State.msixMasked, mask_unmasked, pcie_unmasked, hfm, Bool.or_false]
  have hmask' : ((s.unmasked v).setPba v false).msixMasked v = false := by
    rw [State.msixMasked, mask_setPba, mask_unmasked, pcie_setPba, pcie_unmasked, hfm, Bool.or_false]
  rw [msixFlush_pending (by simpa using hen) hmask hpend, msixRequest_sends (by simpa using hen) hmask' (by simpa using hspace)]

theorem flag_msixSend (s : State) (v : Nat) (f : Fld) : (msixSend s v).flag f = s.flag f := rfl

theorem unmaskedSend_shows (s : State) (v : Nat) :
    (msixSend ((s.unmasked v).setPba v false) v).flag (pbaBit v) = false ∧
    (msixSend ((s.unmasked v).setPba v false) v).flag (Reg.IMG_MSIX_VCTL_MASK v) = false := by
  refine ⟨?_, ?_⟩
  · rw [flag_msixSend]
    exact State.flag_setFlag_same (s.unmasked v) (pbaBit v) false (pbaBit_ok v)
  · rw [flag_msixSend, mask_setPba, mask_unmasked]

theorem onlyRegs_unmaskedSend (s : State) (v : Nat) :
    OnlyRegs [Reg.IMG_MSIX_VCTL v, Reg.IMG_MSIX_PBA (v / 32)]
      { s with pcie := (msixSend ((s.unmasked v).setPba v false) v).pcie } (msixSend ((s.unmasked v).setPba v false) v) := by
  have hregs := ((OnlyRegs.refl [Reg.IMG_MSIX_VCTL v, Reg.IMG_MSIX_PBA (v / 32)] s).setFld (f := Reg.IMG_MSIX_VCTL_MASK v) (by simp) 0).setFld
    (f := pbaBit v) (by simp [pbaBit]) (b2n false)
  exact ⟨by rw [msixSend]; rfl, hregs.2⟩

/-! ### The endpoint (R424, R428, R445) -/

theorem rd_functionReset {s : State} (hup : s.up 4 = true) (o : Nat) :
    (functionReset s).rd o = if Reg.IMG_MSIX_ADDR_LO 0 ≤ o ∧ o ≤ Reg.IMG_MSIX_PBA 1 then resetWord o else s.rd o := by
  rw [functionReset, if_neg (by simp [hup])]
  simp only [State.rd, smGet_smDrop, decide_eq_true_eq]

theorem functionReset_pcie {s : State} (hup : s.up 4 = true) :
    (functionReset s).pcie = { PcieState.reset with linkUp := s.pcie.linkUp, sent := s.pcie.sent } := by
  simp only [functionReset, hup]
  rfl

theorem functionReset_eq (s : State) : functionReset s = { s with regs := (functionReset s).regs, pcie := (functionReset s).pcie } := by
  rw [functionReset]
  split <;> rfl

/-- A link that trains with MSI-X disabled sends nothing. -/
theorem managementUp_disabled {s : State} (hup : s.up 4 = true) (bme fmask : Bool) :
    managementUp s bme false fmask =
      { s with pcie := { s.pcie with linkUp := true, busMaster := bme, msixEnable := false, funcMask := fmask } } := by
  simp only [managementUp, linkTrained, hup, if_true]
  generalize ht : ({ s with pcie := { s.pcie with linkUp := true, busMaster := bme, msixEnable := false, funcMask := fmask } } : State) = t
  have hen : t.pcie.msixEnable = false := by rw [← ht]
  exact List.foldl_fixed' (fun v => msixFlush_disabled v hen) _

@[simp] theorem flag_written (s : State) (f : Fld) : s.written.flag f = s.flag f := rfl

@[simp] theorem mbFull_written (s : State) (m : Nat) : s.written.mbFull m = s.mbFull m := rfl

/-! ### The obligation -/

/-- Settles O53. -/
theorem mailboxesAndEndpoint : Obligations.MailboxesAndEndpoint := by
  refine ⟨⟨?_, ?_, ?_, ?_, ?_⟩, fun s hup => ⟨?_, ?_, ?_⟩⟩
  · intro who m j v s hs
    refine ⟨fun h => completesIn_served rfl rfl hs fun cyc => ?_, fun h => completesIn_served rfl rfl hs fun cyc => ?_⟩
    · rw [mbWrite_empty (s := { s with cyc := cyc }) v h]
      refine ⟨State.rd_wr_same .., ?_, ?_⟩
      · exact ((OnlyRegs.refl _ (mend { s with cyc := cyc } (Reg.IRQ_MBDATA m j))).wr (by simp) v).answer _ _ _
      · exact fun e he => List.mem_of_mem_filter he
    · rw [mbWrite_full (s := { s with cyc := cyc }) v h]
  · intro who m agent s hs
    have hagent : agent.toNat % 64 = agent.toNat := Nat.mod_eq_of_lt agent.isLt
    refine ⟨fun h => completesIn_served rfl rfl hs fun cyc => ?_, fun h => completesIn_served rfl rfl hs fun cyc => ?_⟩
    · have hempty : State.mbFull { s with cyc := cyc } m = false := h
      simp only [mbSend_eq, hempty, Bool.false_eq_true, if_false]
      obtain ⟨hfull, hsender, habort, hcoll⟩ := mbTake_shows (State.sendNoted { s with cyc := cyc } m agent.toNat) m agent.toNat
      rw [hagent] at hsender
      refine ⟨(mbFull_written ..).trans hfull, (fld_written ..).trans hsender, (flag_written ..).trans habort, (flag_written ..).trans hcoll, ?_⟩
      exact ((onlyRegs_sendNoted _ _ _ _).trans (onlyRegs_mbTake ..)).answer _ _ _
    · have hfull : State.mbFull { s with cyc := cyc } m = true := h
      simp only [mbSend_eq, hfull, if_true]
      obtain ⟨hstill, hsender, hcoll⟩ := collision_shows (s := State.sendNoted { s with cyc := cyc } m agent.toNat) hfull
      refine ⟨(mbFull_written ..).trans hstill, (fld_written ..).trans hsender, (flag_written ..).trans hcoll, ?_⟩
      exact ((onlyRegs_sendNoted _ _ _ _).event (by simp)).answer _ _ _
  · intro who m s hs hnone
    exact completesIn_servedAt rfl rfl hs (congrArg State.written (mbAck_alone m hnone))
  · intro v s hspace
    refine ⟨fun hmerged => ⟨_, congrArg Host.Outcome.next (spacingEnd_unmerged (s := s.eventCycle) hspace hmerged), ?_⟩,
      fun hmerged hen hmask => ⟨_, congrArg Host.Outcome.next (spacingEnd_merged (s := s.eventCycle) hspace hmerged hen hmask), ?_⟩⟩
    · exact ⟨not_mem_nsDel _ _, rfl, rfl⟩
    · exact ⟨sent_msixSend .., mem_nsAdd.mpr (.inl rfl), not_mem_nsDel _ _, rfl⟩
  · intro who v s hs hen hfm hspace hpba
    refine completesIn_served rfl rfl hs fun cyc => ?_
    have hflush := msixFlush_unmasked (s := { s with cyc := cyc }) hen hfm hspace hpba
    have hsent := sent_msixSend ((State.unmasked { s with cyc := cyc } v).setPba v false) v
    obtain ⟨hp, hm⟩ := unmaskedSend_shows { s with cyc := cyc } v
    have honly := (onlyRegs_unmaskedSend { s with cyc := cyc } v).answer [] false false
    rw [← hflush] at hsent hp hm honly
    exact ⟨hsent, hp, hm, honly⟩
  · refine ⟨_, rfl, fun v hv => ?_, fun o ho => ?_, ?_, ?_, ?_, functionReset_eq _⟩
    · rw [rd_functionReset (s := s.eventCycle) hup, if_pos (by simp only [Reg.IMG_MSIX_ADDR_LO, Reg.IMG_MSIX_VCTL, Reg.IMG_MSIX_PBA]; omega)]
    · rw [rd_functionReset (s := s.eventCycle) hup, if_neg (by omega)]
      rfl
    · rw [functionReset_pcie (s := s.eventCycle) hup]
      rfl
    · rw [functionReset_pcie (s := s.eventCycle) hup]
      rfl
    · rw [functionReset_pcie (s := s.eventCycle) hup]
      rfl
  · refine ⟨_, rfl, rfl, rfl, fun o ho => ?_, ?_⟩
    · refine (rd_functionReset (s := s.eventCycle) hup o).trans ?_
      rw [if_neg (by omega)]
      rfl
    · rw [perst, functionReset_eq]
      rfl
  · intro bme fmask
    exact ⟨_, congrArg Host.Outcome.next (managementUp_disabled (s := s.eventCycle) hup bme fmask), rfl⟩

end Sys2Proof.Machine
end

section
/-! SUPPORT. What a raised error line and a record of the journal leave as it was in IMG, in FLT, and in the registers (R421, R448 to R454). -/
namespace Sys2Proof.Machine
open Reg

/-! ### The frame -/

/-- A register in which an error line or a record shows: those of TMR and IRQ, the pending bits of the MSI-X vectors, IMG_JSTAT, FLT_SAFE and
the first source. -/
def logReg (o : Nat) : Bool :=
  o / 0x100000 == 0x11 || o / 0x100000 == 0x13 || [IMG_JSTAT, FLT_SAFE, FLT_FIRST, FLT_FIRSTX, FLT_FIRSTT_LO].contains o ||
    (IMG_MSIX_PBA 0 ≤ o && o ≤ IMG_MSIX_PBA 1)

/-- From `s` to `t` the registers have changed only where error lines and records show, IMG only in the retained store and the position of its
log, FLT only in its status, the first source's time and the entry into the safe state. -/
structure Logs (s t : State) : Prop where
  img : t.img = { s.img with store := t.img.store, storeBad := t.img.storeBad, recPos := t.img.recPos, rseq := t.img.rseq }
  flt : t.flt = { s.flt with status := t.flt.status, firstT := t.flt.firstT, safeStart := t.flt.safeStart, exitOrbit := t.flt.exitOrbit }
  rd : ∀ o, logReg o = false → t.rd o = s.rd o

namespace Logs

theorem refl (s : State) : Logs s s := ⟨rfl, rfl, fun _ _ => rfl⟩

theorem trans {s t u : State} (h : Logs s t) (h' : Logs t u) : Logs s u :=
  ⟨by rw [h'.img, h.img], by rw [h'.flt, h.flt], fun o ho => (h'.rd o ho).trans (h.rd o ho)⟩

theorem of_same {s t : State} (hregs : t.regs = s.regs) (himg : t.img = s.img) (hflt : t.flt = s.flt) : Logs s t :=
  ⟨by rw [himg], by rw [hflt], fun o _ => by rw [State.rd, hregs, State.rd]⟩

/-- What error lines set in FLT, and what the cycle remembers. -/
theorem withFlt (s : State) (f : FltState) (c : Cycle)
    (hf : f = { s.flt with status := f.status, firstT := f.firstT, safeStart := f.safeStart, exitOrbit := f.exitOrbit }) :
    Logs s { s with flt := f, cyc := c } := ⟨rfl, hf, fun _ _ => rfl⟩

theorem wr {s t : State} (h : Logs s t) {off : Nat} (hoff : logReg off = true) (w : Word) : Logs s (t.wr off w) :=
  h.trans ⟨rfl, rfl, fun o ho => State.rd_wr_other _ _ _ _ fun e => by rw [e, hoff] at ho; exact absurd ho (by decide)⟩

theorem setFld {s t : State} (h : Logs s t) {f : Fld} (hf : logReg f.off = true) (v : Nat) : Logs s (t.setFld f v) := h.wr hf _

theorem event {s t : State} (h : Logs s t) {f : Fld} (hf : logReg f.off = true) : Logs s (t.event f) :=
  (h.trans (of_same (t := t.noteEvent f.off _) rfl rfl rfl)).setFld hf _

theorem count {s t : State} (h : Logs s t) {f : Fld} (hf : logReg f.off = true) (n : Nat) : Logs s (t.count f n) :=
  (h.trans (of_same (t := t.noteEvent f.off _) rfl rfl rfl)).setFld hf _

theorem ite {s t u : State} {c : Prop} [Decidable c] (ht : Logs s t) (hu : Logs s u) : Logs s (if c then t else u) := by
  split
  · exact ht
  · exact hu

theorem foldl {α : Type} {l : List α} {f : State → α → State} (hf : ∀ t, ∀ k ∈ l, Logs t (f t k)) (s : State) : Logs s (l.foldl f s) :=
  List.foldlRecOn (motive := Logs s) _ _ (.refl s) fun t ht k hk => ht.trans (hf t k hk)

theorem fld {s t : State} (h : Logs s t) {f : Fld} (hf : logReg f.off = false) : t.fld f = s.fld f := by
  rw [State.fld, h.rd _ hf, State.fld]

theorem flag {s t : State} (h : Logs s t) {f : Fld} (hf : logReg f.off = false) : t.flag f = s.flag f := by
  rw [State.flag, h.fld hf, State.flag]

theorem op {s t : State} (h : Logs s t) : t.img.op = s.img.op := by rw [h.img]

end Logs

/-! ### Counts, occurrences, messages -/

theorem logReg_esel {k : Nat} (h : k < 512) : logReg (TMR_ESEL k) = true := by
  have hblock : TMR_ESEL k / 0x100000 = 0x11 := by unfold TMR_ESEL; omega
  simp [logReg, hblock]

theorem logs_evAdvance (s : State) {k : Nat} (h : k < 512) : Logs s (evAdvance s k) := by
  unfold evAdvance
  extract_lets c cyc tmr u
  have hcounted : Logs s u := .of_same rfl rfl rfl
  exact .ite ((hcounted.event (f := TMR_ESEL_OVF k) (logReg_esel h)).event (by decide)) hcounted

theorem logs_countSrc (s : State) (src : Nat) : Logs s (countSrc s src) := by
  unfold countSrc
  extract_lets cyc u
  have hseen : Logs s u := .of_same rfl rfl rfl
  exact .ite (.refl s) (hseen.trans (.foldl (fun t k hk => .ite (logs_evAdvance t (lt_of_mem_evListed hk)) (.refl t)) u))

theorem logs_testShared (s : State) (k sl : Nat) : Logs s (testShared s k sl) := .ite (.of_same rfl rfl rfl) (.refl s)

theorem logs_msixRequest (s : State) {v : Nat} (h : v < 64) : Logs s (msixRequest s v) := by
  have hpba : logReg (IMG_MSIX_PBA (v / 32)) = true := by
    have hlo : IMG_MSIX_PBA 0 ≤ IMG_MSIX_PBA (v / 32) := by unfold IMG_MSIX_PBA; omega
    have hhi : IMG_MSIX_PBA (v / 32) ≤ IMG_MSIX_PBA 1 := by unfold IMG_MSIX_PBA; omega
    simp only [logReg, decide_eq_true hlo, decide_eq_true hhi, Bool.and_true, Bool.or_true]
  exact .ite (.refl s) (.ite ((Logs.refl s).setFld hpba _) (.ite (.of_same rfl rfl rfl) (.of_same rfl rfl rfl)))

theorem logs_edgeDev (before : Bool) (s : State) (n : Nat) : Logs s (edgeDev before s n) := by
  unfold edgeDev
  extract_lets now u
  have hreq : Logs s u := .ite (logs_msixRequest s (wField_lt _ 29 24)) (.refl s)
  split
  · exact hreq
  · exact .ite hreq (hreq.trans (logs_testShared _ _ _))

theorem logs_occurDev (s : State) (n : Nat) : Logs s (occurDev s n) := by
  unfold occurDev
  split
  · exact .refl s
  · refine .ite (.refl s) (.ite (logs_testShared _ _ _) (.trans ?_ (logs_testShared _ _ _)))
    exact .of_same rfl rfl rfl

/-! ### The journal (R421) -/

theorem logs_putRecord (s : State) (rtype : Nat) (payload : List Nat) : Logs s (putRecord s rtype payload) := by
  unfold putRecord
  refine Logs.trans ?_ ((Logs.refl _).setFld (f := IMG_JSTAT_RSEQ) (by decide) _)
  exact ⟨rfl, rfl, fun _ _ => rfl⟩

theorem logs_journalAppend (s : State) (rtype : Nat) (payload : List Nat) : Logs s (journalAppend s rtype payload) := by
  unfold journalAppend
  refine .ite (.refl s) (.trans ?_ (logs_putRecord _ _ _))
  refine .ite (.foldl (fun t p _ => ?_) s) (.refl s)
  exact logs_putRecord t p.1 p.2

theorem logs_faultRecord (s : State) : Logs s (faultRecord s) := logs_journalAppend _ _ _

/-! ### Mordant (R448 to R454) -/

theorem logs_withBlanks {f : State → State} {s : State} (hf : Logs s (f s)) (ms : List Nat) : Logs s (withBlanks ms f s) := by
  obtain ⟨b, hb⟩ := withBlanks_eq_with_blank ms f s
  exact hf.trans (by rw [hb]; exact .of_same rfl rfl rfl)

theorem logs_safeEnter (s : State) (cause fbit : Nat) : Logs s (safeEnter s cause fbit) := by
  unfold safeEnter
  extract_lets t u v w x
  have hpend : Logs s t := (Logs.refl s).setFld (by decide) _
  have hset : Logs s u := logs_withBlanks ((Logs.refl s).setFld (by decide) _) _
  have hshown : Logs s x := ((hset.setFld (by decide) _).setFld (by decide) _).setFld (by decide) _
  clear_value x
  exact .ite (.ite (hpend.setFld (by decide) _) hpend) ((hshown.trans (.withFlt x _ _ rfl)).trans (logs_faultRecord _))

theorem logs_firstSource (s : State) (b : Nat) : Logs s (firstSource s b) := by
  unfold firstSource
  extract_lets t u v w x y
  have hovf : Logs s t := (Logs.refl s).setFld (by decide) _
  have hshown : Logs s y := (((((Logs.refl s).setFld (by decide) _).setFld (by decide) _).setFld (by decide) _).setFld (by decide) _).setFld (by decide) _
  clear_value y
  exact .ite (.ite (hovf.setFld (by decide) _) hovf) ((hshown.trans (.withFlt y _ _ rfl)).trans (logs_faultRecord _))

theorem logs_latchLine (s : State) (b : Nat) : Logs s (latchLine s b) := by
  unfold latchLine
  extract_lets cyc t newly u v
  have hline : Logs s t := .of_same rfl rfl rfl
  have hlevel : Logs t (withDev (256 + b)
      (fun s => { s with flt := { s.flt with status := s.flt.status ||| BitVec.twoPow 64 b } }) t) :=
    (Logs.withFlt t { t.flt with status := t.flt.status ||| BitVec.twoPow 64 b } t.cyc rfl).trans (logs_edgeDev _ _ _)
  have hset : Logs s u := (hline.trans hlevel).trans (logs_occurDev _ _)
  have hfirst : Logs s v := .ite (hset.trans (logs_firstSource u b)) hset
  exact .ite (.refl s) (.ite (hfirst.trans (logs_safeEnter v 1 b)) hfirst)

theorem logs_tgtUse (s : State) (n : Nat) : Logs s (tgtUse s n) := by
  unfold tgtUse
  extract_lets met
  have hmet (t : State) (k : Nat) : Logs t (met t k) :=
    .ite ((((Logs.refl t).count (f := IRQ_ECCCNT_UNCORR) (by decide) 1).trans (logs_countSrc _ _)).event (by decide)) (.refl t)
  exact .ite (.trans (.ite (hmet s n) ((hmet s n).trans (hmet _ _))) (logs_latchLine _ _)) (.refl s)

theorem logs_raiseLine (s : State) (b : Nat) : Logs s (raiseLine s b) := (logs_tgtUse s _).trans (logs_latchLine _ b)

end Sys2Proof.Machine
end

section
/-! SUPPORT. The retained store's word port, the image commands and the checks of an image (O55). -/
namespace Sys2Proof.Machine
open Reg

/-! ### The word port (R427) -/

/-- IMG_WADDR has advanced by a word. -/
def State.wordDone (s : State) : State := s.setFld IMG_WADDR_ADDR (s.fld IMG_WADDR_ADDR + 1)

theorem wordAccess_eq (s : State) : wordAccess s = (s.fld IMG_WADDR_REGION, 4 * s.fld IMG_WADDR_ADDR, s.wordDone) := rfl

theorem onlyRegs_wordDone (s : State) : OnlyRegs [IMG_WADDR] s s.wordDone := (OnlyRegs.refl _ s).setFld (by simp) _

theorem slotState_wordDone (s : State) (i : Nat) : s.wordDone.slotState i = s.slotState i :=
  (onlyRegs_wordDone s).fld (by simp only [List.mem_singleton, IMG_SLOT, IMG_WADDR]; omega)

theorem runSlot_wordDone (s : State) : s.wordDone.runSlot = s.runSlot := (onlyRegs_wordDone s).fld (by simp)

theorem img_wordDone (s : State) : s.wordDone.img = s.img := rfl

theorem regionSize_slot {r : Nat} (h : r < 2) : regionSize r = 0x600000 ∧ regionBase r = 0x600000 * r := by
  have : r = 0 ∨ r = 1 := by omega
  rcases this with rfl | rfl <;> exact ⟨rfl, rfl⟩

/-- The retained store with a word written at `a`, whole again. -/
def State.storeWord (s : State) (a : Nat) (v : Word) : State :=
  { s with img := { s.img with store := memPutWord s.img.store a v.toNat, storeBad := nsDel s.img.storeBad a } }

/-- A write to a slot that is empty and does not run. -/
theorem imgWrite_stores {s : State} (v : Word) (hr : s.fld IMG_WADDR_REGION < 2) (hempty : s.slotState (s.fld IMG_WADDR_REGION) = 0)
    (hrun : s.runSlot ≠ s.fld IMG_WADDR_REGION) (ho : 4 * s.fld IMG_WADDR_ADDR < 0x600000) :
    imgWrite s v = s.wordDone.storeWord (0x600000 * s.fld IMG_WADDR_REGION + 4 * s.fld IMG_WADDR_ADDR) v := by
  obtain ⟨hsize, hbase⟩ := regionSize_slot hr
  have hfree : ¬ (s.fld IMG_WADDR_REGION = 3 ∨ (s.fld IMG_WADDR_REGION = 2 ∧ s.wordDone.goldLock = true) ∨
      s.wordDone.slotState (s.fld IMG_WADDR_REGION) = 3 ∨ s.fld IMG_WADDR_REGION = s.wordDone.runSlot) := by
    rw [slotState_wordDone, runSlot_wordDone, hempty]
    omega
  have hslot : setSlot s.wordDone (s.fld IMG_WADDR_REGION) 0 = s.wordDone := if_pos ((slotState_wordDone _ _).trans hempty)
  simp only [imgWrite, wordAccess_eq, if_neg hfree, hsize, if_neg (Nat.not_le.mpr ho), hslot, hbase]
  rfl

/-- A write to a region that may not be written is refused. -/
theorem imgWrite_refused {s : State} (v : Word)
    (h : s.fld IMG_WADDR_REGION = 3 ∨ s.slotState (s.fld IMG_WADDR_REGION) = 3 ∨ s.runSlot = s.fld IMG_WADDR_REGION) :
    imgWrite s v = s.wordDone.event IMG_STAT_WPERR := by
  have hprotected : s.fld IMG_WADDR_REGION = 3 ∨ (s.fld IMG_WADDR_REGION = 2 ∧ s.wordDone.goldLock = true) ∨
      s.wordDone.slotState (s.fld IMG_WADDR_REGION) = 3 ∨ s.fld IMG_WADDR_REGION = s.wordDone.runSlot := by
    rw [slotState_wordDone, runSlot_wordDone]
    tauto
  simp only [imgWrite, wordAccess_eq]
  exact if_pos hprotected

theorem imgRead_word {s : State} (hr : s.fld IMG_WADDR_REGION < 2) (ho : 4 * s.fld IMG_WADDR_ADDR < 0x600000)
    (hgood : 0x600000 * s.fld IMG_WADDR_REGION + 4 * s.fld IMG_WADDR_ADDR ∉ s.img.storeBad) :
    imgRead s = (BitVec.ofNat 32 (memWord s.img.store (0x600000 * s.fld IMG_WADDR_REGION + 4 * s.fld IMG_WADDR_ADDR)), s.wordDone) := by
  obtain ⟨hsize, hbase⟩ := regionSize_slot hr
  have hsound : ¬ s.img.storeBad.contains (0x600000 * s.fld IMG_WADDR_REGION + 4 * s.fld IMG_WADDR_ADDR) = true :=
    mt List.contains_iff_mem.mp hgood
  have hslot : s.fld IMG_WADDR_REGION ≠ 3 := by omega
  simp only [imgRead, wordAccess_eq, hsize, hbase, if_neg (Nat.not_le.mpr ho), img_wordDone, if_neg hsound, hslot, false_and, if_false]

/-- The word that IMG_WADDR names has come to hold an uncorrectable error. -/
def State.wordHit (s : State) : State :=
  { s with img := { s.img with
      storeBad := nsAdd s.img.storeBad (0x600000 * s.fld IMG_WADDR_REGION + 4 * s.fld IMG_WADDR_ADDR) } }

theorem readHit_eq {s : State} (hr : s.fld IMG_WADDR_REGION < 2) (ho : 4 * s.fld IMG_WADDR_ADDR < 0x600000) :
    readHit s true = s.wordHit := by
  obtain ⟨hsize, hbase⟩ := regionSize_slot hr
  simp only [readHit, hsize, hbase, ho, decide_true, Bool.and_self, if_true]
  rfl

theorem imgRead_damaged {s : State} (hr : s.fld IMG_WADDR_REGION < 2) (ho : 4 * s.fld IMG_WADDR_ADDR < 0x600000) :
    imgRead s.wordHit = (0xFFFFFFFF, raiseLine (s.wordHit.wordDone.event IMG_STAT_RSERR) 51) := by
  obtain ⟨hsize, hbase⟩ := regionSize_slot hr
  have hbad : s.wordHit.img.storeBad.contains (0x600000 * s.fld IMG_WADDR_REGION + 4 * s.fld IMG_WADDR_ADDR) = true :=
    List.contains_iff_mem.mpr (mem_nsAdd.mpr (.inl rfl))
  have hregion : s.wordHit.fld IMG_WADDR_REGION = s.fld IMG_WADDR_REGION := rfl
  have haddr : s.wordHit.fld IMG_WADDR_ADDR = s.fld IMG_WADDR_ADDR := rfl
  simp only [imgRead, wordAccess_eq, hregion, haddr, hsize, hbase, if_neg (Nat.not_le.mpr ho), img_wordDone, hbad, if_true]

/-! ### Commands (R417, R418, R427) -/

/-- IMG_CTL names slot `i`. -/
def State.named (s : State) (i : Nat) : State := s.setFld IMG_CTL_SLOT i

theorem onlyRegs_named (s : State) (i : Nat) : OnlyRegs [IMG_CTL] s (s.named i) := (OnlyRegs.refl _ s).setFld (by simp) _

theorem slotState_named (s : State) (i k : Nat) : (s.named i).slotState k = s.slotState k :=
  (onlyRegs_named s i).fld (by simp only [List.mem_singleton, IMG_SLOT, IMG_CTL]; omega)

theorem runSlot_named (s : State) (i : Nat) : (s.named i).runSlot = s.runSlot := (onlyRegs_named s i).fld (by simp)

theorem tbState_named (s : State) (i : Nat) : (s.named i).tbState = s.tbState := (onlyRegs_named s i).fld (by simp)

theorem imgOpCode_named (s : State) (i : Nat) : (s.named i).imgOpCode = s.imgOpCode := rfl

/-- A command is refused with CMDERR. -/
def State.refusedFor (s : State) (i : Nat) : State := (s.named i).event IMG_STAT_CMDERR

theorem cmderr_refusedFor (s : State) (i : Nat) : (s.refusedFor i).flag IMG_STAT_CMDERR = true := flag_event_same _ (by simp) (by simp)

theorem onlyRegs_refusedFor (s : State) (i : Nat) : OnlyRegs [IMG_CTL, IMG_STAT] s (s.refusedFor i) :=
  ((onlyRegs_named s i).mono (by simp)).event (by simp)

theorem imgVerify_eq (s : State) (i : Nat) : imgVerify s i =
    if s.imgOpCode ≠ 0 ∨ i = 3 then s.refusedFor i else { s.named i with img := { s.img with op := .check i } } := rfl

theorem imgActivate_eq (s : State) (i : Nat) : imgActivate s i =
    if s.imgOpCode ≠ 0 ∨ i = 3 ∨ s.slotState i ≠ 1 ∨ i = s.runSlot then s.refusedFor i
    else if s.tbState < 2 then activateNow (s.named i) i else { s.named i with img := { s.img with activate := some i } } := by
  rw [← slotState_named s i, ← runSlot_named s i, ← tbState_named s i]
  rfl

theorem goldenLock_eq (s : State) (i : Nat) : goldenLock s i =
    if i = 2 ∧ s.slotState 2 = 1 then { s.named i with img := { s.img with goldLocked := true } } else s.refusedFor i := by
  rw [← slotState_named s i]
  rfl

/-! ### A slot takes a state (R413) -/

theorem logs_slotsRecord (s : State) : Logs s (slotsRecord s) := logs_journalAppend _ _ _

/-- The word of a slot and its SLOTSEQ, once it takes another state. -/
def State.slotShown (s : State) (i st : Nat) : State :=
  (s.setFld (IMG_SLOT_STATE i) st).setFld (IMG_SLOTSEQ_SEQ i) (if st = 0 then 0 else imgSeq s.img.store (regionBase i))

theorem onlyRegs_slotShown (s : State) (i st : Nat) : OnlyRegs [IMG_SLOT i, IMG_SLOTSEQ i] s (s.slotShown i st) :=
  ((OnlyRegs.refl _ s).setFld (by simp) _).setFld (by simp) _

theorem setSlot_logs (s : State) {i st : Nat} (h : s.slotState i ≠ st) : Logs (s.slotShown i st) (setSlot s i st) := by
  rw [setSlot, if_neg h]
  exact .ite (logs_slotsRecord _) (.refl _)

theorem logReg_slot {i : Nat} (hi : i < 3) : logReg (IMG_SLOT i) = false := by
  have : i = 0 ∨ i = 1 ∨ i = 2 := by omega
  rcases this with rfl | rfl | rfl <;> decide

/-- A slot's new state stands in its register. -/
theorem slotState_setSlot (s : State) {i st : Nat} (hi : i < 3) (hst : st < 8) : (setSlot s i st).slotState i = st := by
  by_cases h : s.slotState i = st
  · rw [setSlot, if_pos h, h]
  · rw [State.slotState, (setSlot_logs s h).fld (logReg_slot hi), State.slotShown, fld_setFld_disjoint, fld_setFld_self] <;> simp
    exact hst

/-- No other register than the slot's changes, but for those in which the journal shows. -/
theorem fld_setSlot (s : State) (i st : Nat) {f : Fld} (hlog : logReg f.off = false) (hslot : f.off ≠ IMG_SLOT i)
    (hseq : f.off ≠ IMG_SLOTSEQ i) : (setSlot s i st).fld f = s.fld f := by
  by_cases h : s.slotState i = st
  · rw [setSlot, if_pos h]
  · rw [(setSlot_logs s h).fld hlog, (onlyRegs_slotShown s i st).fld (by simp [hslot, hseq])]

/-- A slot's RESULT stands whatever state it takes. -/
theorem slotResult_setSlot (s : State) {i : Nat} (st : Nat) (hi : i < 3) :
    (setSlot s i st).fld (IMG_SLOT_RESULT i) = s.fld (IMG_SLOT_RESULT i) := by
  by_cases h : s.slotState i = st
  · rw [setSlot, if_pos h]
  · rw [(setSlot_logs s h).fld (logReg_slot hi), State.slotShown, fld_setFld_disjoint, fld_setFld_disjoint] <;> simp

theorem op_setSlot (s : State) (i st : Nat) : (setSlot s i st).img.op = s.img.op := by
  by_cases h : s.slotState i = st
  · rw [setSlot, if_pos h]
  · rw [(setSlot_logs s h).op, (onlyRegs_slotShown s i st).1]

/-! ### The checks of an image (R411, R417) -/

theorem checkImage_le (m : List Host.Cell) (b size : Nat) (bad : Bool) : checkImage m b size bad ≤ 9 := by
  have hheader : headerCheck m b size ≤ 3 := by
    unfold headerCheck
    extract_lets len
    split_ifs <;> simp
  unfold checkImage
  extract_lets len ss
  split_ifs <;> omega

/-- A word that the check of slot `i` reads is damaged. -/
def State.slotLost (s : State) (i : Nat) : Bool :=
  s.storeDamaged (regionBase i) (checkSpan s.img.store (regionBase i) (regionSize i))

/-- The RESULT of the check of slot `i`. -/
def State.slotCode (s : State) (i : Nat) : Nat := checkImage s.img.store (regionBase i) (regionSize i) (s.slotLost i)

theorem slotCode_mod (s : State) (i : Nat) : s.slotCode i % 16 = s.slotCode i :=
  Nat.mod_eq_of_lt (Nat.lt_of_le_of_lt (checkImage_le _ _ _ _) (by decide))

/-- The reads of the check of slot `i` have been made. -/
def State.slotMet (s : State) (i : Nat) : State := if s.slotLost i then raiseLine (s.event IMG_STAT_RSERR) 51 else s

/-- The RESULT of the check of slot `i` is shown. -/
def State.slotChecked (s : State) (i : Nat) : State :=
  ((s.slotMet i).setFld IMG_STAT_RESULT (s.slotCode i)).setFld (IMG_SLOT_RESULT i) (s.slotCode i)

theorem checkSlot_eq (s : State) (i : Nat) : checkSlot s i false =
    if s.slotCode i = 0 then (s.slotChecked i, true) else (setSlot ((s.slotChecked i).event IMG_STAT_VFAIL) i 0, false) := by
  simp only [checkSlot, Bool.false_or]
  rfl

theorem onlyRegs_rserr (s : State) : OnlyRegs [IMG_STAT] s (s.event IMG_STAT_RSERR) := (OnlyRegs.refl _ s).event (by simp)

theorem slotMet_spec (s : State) (i : Nat) : (s.slotMet i).img.op = s.img.op ∧ (∀ o, logReg o = false → o ≠ IMG_STAT →
    (s.slotMet i).rd o = s.rd o) ∧ (s.slotLost i = true → (s.slotMet i).flag IMG_STAT_RSERR = true) := by
  rw [State.slotMet]
  split
  next hlost =>
    have hlogs := logs_raiseLine (s.event IMG_STAT_RSERR) 51
    refine ⟨by rw [hlogs.op, (onlyRegs_rserr s).1], fun o ho hne => ?_, fun _ => ?_⟩
    · rw [hlogs.rd o ho, (onlyRegs_rserr s).2 o (by simpa using hne)]
    · rw [hlogs.flag (by decide), flag_event_same _ (by simp) (by simp)]
  next hlost => exact ⟨rfl, fun _ _ _ => rfl, fun h => absurd h hlost⟩

/-- The result stands in IMG_STAT and in the slot's word, whose state is as it was. -/
theorem slotChecked_shows (s : State) {i : Nat} (hi : i < 3) :
    (s.slotChecked i).fld IMG_STAT_RESULT = s.slotCode i ∧ (s.slotChecked i).fld (IMG_SLOT_RESULT i) = s.slotCode i ∧
    (s.slotLost i = true → (s.slotChecked i).flag IMG_STAT_RSERR = true) ∧ (s.slotChecked i).slotState i = s.slotState i ∧
    (s.slotChecked i).img.op = s.img.op := by
  have hcode := slotCode_mod s i
  have hne : IMG_SLOT i ≠ IMG_STAT := by unfold IMG_SLOT IMG_STAT; omega
  obtain ⟨hop, hrd, hrserr⟩ := slotMet_spec s i
  rw [State.slotChecked]
  generalize s.slotCode i = code at hcode ⊢
  refine ⟨?_, ?_, fun hlost => ?_, ?_, ?_⟩
  · rw [fld_setFld_disjoint _ _ (by simp) (by simp) (by simp) (by simp) (.inl hne.symm), fld_setFld_self _ _ (by simp) (by simp)]
    exact hcode
  · rw [fld_setFld_self _ _ (by simp) (by simp)]
    exact hcode
  · rw [State.flag, fld_setFld_disjoint _ _ (by simp) (by simp) (by simp) (by simp) (.inl hne.symm),
      fld_setFld_disjoint _ _ (by simp) (by simp) (by simp) (by simp) (.inr (by simp))]
    exact hrserr hlost
  · rw [State.slotState, fld_setFld_disjoint _ _ (by simp) (by simp) (by simp) (by simp) (.inr (by simp)),
      fld_setFld_disjoint _ _ (by simp) (by simp) (by simp) (by simp) (.inl hne), State.fld, hrd _ (logReg_slot hi) hne]
    rfl
  · rw [State.setFld_img, State.setFld_img]
    exact hop

theorem img_event (s : State) (f : Fld) : (s.event f).img = s.img := rfl

/-- No operation runs. -/
def State.opDone (s : State) : State := { s with img := { s.img with op := .none } }

theorem slotState_opDone (s : State) (i : Nat) : s.opDone.slotState i = s.slotState i := rfl

theorem op_opDone (s : State) : s.opDone.img.op = .none := rfl

/-- What the end of a check makes of slot `i`. -/
def checkEnd (s : State) (i : Nat) : State :=
  if (checkSlot s i false).2 && decide ((checkSlot s i false).1.slotState i = 0 ∨ (checkSlot s i false).1.slotState i = 4)
  then setSlot (checkSlot s i false).1 i 1 else (checkSlot s i false).1

theorem checkDone_check {s : State} {i : Nat} (hop : s.img.op = .check i) : checkDone s = checkEnd s.opDone i := by
  simp only [checkDone, hop]
  rfl

/-- The check of a slot has ended: what IMG_STAT and the slot show. -/
theorem checkDone_shows {s : State} {i : Nat} (hi : i < 2) (hop : s.img.op = .check i) :
    (s.opDone.slotLost i = true → (checkDone s).flag IMG_STAT_RSERR = true) ∧ (checkDone s).fld IMG_STAT_RESULT = s.opDone.slotCode i ∧
    (checkDone s).fld (IMG_SLOT_RESULT i) = s.opDone.slotCode i ∧ (checkDone s).img.op = .none ∧
    (s.opDone.slotCode i ≠ 0 → (checkDone s).slotState i = 0 ∧ (checkDone s).flag IMG_STAT_VFAIL = true) ∧
    (s.opDone.slotCode i = 0 → (s.slotState i = 0 ∨ s.slotState i = 4) → (checkDone s).slotState i = 1) ∧
    (s.opDone.slotCode i = 0 → s.slotState i ≠ 0 → s.slotState i ≠ 4 → (checkDone s).slotState i = s.slotState i) := by
  have heq := checkDone_check hop
  rw [checkEnd] at heq
  have hstate := slotState_opDone s i
  have hnone := op_opDone s
  generalize s.opDone = u at heq hstate hnone ⊢
  have hi' : i < 3 := by omega
  have hne : IMG_STAT ≠ IMG_SLOT i := by unfold IMG_SLOT IMG_STAT; omega
  have hseq : IMG_STAT ≠ IMG_SLOTSEQ i := by unfold IMG_SLOTSEQ IMG_STAT; omega
  have hkept (t : State) (st : Nat) (f : Fld) (hf : f.off = IMG_STAT) : (setSlot t i st).fld f = t.fld f :=
    fld_setSlot _ _ _ (by rw [hf]; decide) (hf ▸ hne) (hf ▸ hseq)
  obtain ⟨hresult, hslot, hlost, hst, hopk⟩ := slotChecked_shows u hi'
  have hflag (t : State) (st : Nat) (f : Fld) (hf : f.off = IMG_STAT) : (setSlot t i st).flag f = t.flag f := by
    rw [State.flag, hkept _ _ _ hf, State.flag]
  have hvfail (f : Fld) (hf : f.hi < 32) (hlo : f.lo ≤ f.hi) (h : f.off ≠ IMG_STAT ∨ 0 < f.lo) :
      ((u.slotChecked i).event IMG_STAT_VFAIL).fld f = (u.slotChecked i).fld f :=
    fld_event_disjoint _ (by simp) (by simp) hlo hf (h.imp id .inr)
  by_cases hcode : u.slotCode i = 0
  · simp only [checkSlot_eq, if_pos hcode, hst, hstate, Bool.true_and, decide_eq_true_eq] at heq
    by_cases hpass : s.slotState i = 0 ∨ s.slotState i = 4
    · rw [heq, if_pos hpass]
      refine ⟨fun h => (hflag _ _ _ rfl).trans (hlost h), (hkept _ _ _ rfl).trans hresult, (slotResult_setSlot _ _ hi').trans hslot,
        (op_setSlot _ _ _).trans (hopk.trans hnone), fun h => absurd hcode h, fun _ _ => slotState_setSlot _ hi' (by decide),
        fun _ h0 h4 => absurd hpass (by simp [h0, h4])⟩
    · rw [heq, if_neg hpass]
      exact ⟨hlost, hresult, hslot, hopk.trans hnone, fun h => absurd hcode h, fun _ h => absurd h hpass, fun _ _ _ => hst.trans hstate⟩
  · simp only [checkSlot_eq, if_neg hcode, Bool.false_and, Bool.false_eq_true, if_false] at heq
    rw [heq]
    refine ⟨fun h => ?_, ?_, ?_, ?_, fun _ => ⟨slotState_setSlot _ hi' (by decide), ?_⟩, fun h => absurd h hcode, fun h => absurd h hcode⟩
    · rw [hflag _ _ _ rfl, State.flag, hvfail _ (by simp) (by simp) (.inr (by simp))]
      exact hlost h
    · rw [hkept _ _ _ rfl, hvfail _ (by simp) (by simp) (.inr (by simp)), hresult]
    · rw [slotResult_setSlot _ _ hi', hvfail _ (by simp) (by simp) (.inl hne.symm), hslot]
    · rw [op_setSlot, img_event]
      exact hopk.trans hnone
    · rw [hflag _ _ _ rfl]
      exact flag_event_same _ (by simp) (by simp)

theorem OnlyRegs.setImg {offs : List Nat} {u t : State} (h : OnlyRegs offs u t) (v : ImgState) :
    OnlyRegs offs { u with img := v } { t with img := v } := by
  obtain ⟨hrest, hregs⟩ := h
  exact ⟨by rw [hrest], hregs⟩

/-- A served read by command `i` completes with its effect on the state in which the cycle of the access has begun. -/
theorem completesIn_servedReadAt {i : Instr} {who : Requester} {off : Nat} {s : State} {f : State → Word × State}
    {P : State → State → Prop} (hexec : exec i s = .next (readAct (s.accessCycle who) who off f)) (hbegun : begun i s = s.accessCycle who)
    (hs : ServedRead s who off) (h : P (s.accessCycle who) ((f (s.accessCycle who)).2.returned (f (s.accessCycle who)).1)) :
    CompletesIn i s P :=
  ⟨_, hexec.trans (congrArg Host.Outcome.next (readAct_served (hs.accessCycle who))), hbegun ▸ h⟩

/-! ### The obligation -/

/-- Settles O55. -/
theorem imageCommands : Obligations.ImageCommands := by
  refine ⟨?_, ?_, ?_, ?_⟩
  · intro who v s hs r o
    refine ⟨fun hr hempty hrun ho => completesIn_served rfl rfl hs fun cyc => ?_, fun h => completesIn_served rfl rfl hs fun cyc => ?_⟩
    · rw [imgWrite_stores (s := { s with cyc := cyc }) v hr hempty hrun ho]
      refine ⟨rfl, OnlyRegs.answer ?_ _ _ _⟩
      exact (onlyRegs_wordDone { s with cyc := cyc }).setImg _
    · rw [imgWrite_refused (s := { s with cyc := cyc }) v h]
      refine ⟨(flag_written ..).trans (flag_event_same _ (by simp) (by simp)), OnlyRegs.answer ?_ _ _ _⟩
      exact ((onlyRegs_wordDone { s with cyc := cyc }).mono (by simp)).event (by simp)
  · intro who s hs r o
    refine ⟨fun hr ho hgood => completesIn_servedRead rfl rfl hs fun cyc => ?_, fun hr ho => ?_⟩
    · simp only [readHit, Bool.false_and, Bool.false_eq_true, if_false]
      rw [imgRead_word (s := { s with cyc := cyc }) hr ho hgood]
      exact ⟨(onlyRegs_wordDone _).answer _ _ _, (fld_returned ..).trans (fld_setFld_self _ _ (by simp) (by simp))⟩
    · obtain ⟨cyc, hcyc⟩ := accessCycle_eq_with_cyc s who
      refine ⟨(s.accessCycle who).wordHit.wordDone.event IMG_STAT_RSERR, completesIn_servedReadAt rfl rfl hs ?_,
        flag_event_same _ (by simp) (by simp), ?_⟩
      · rw [readHit_eq (by rw [hcyc]; exact hr) (by rw [hcyc]; exact ho),
          imgRead_damaged (by rw [hcyc]; exact hr) (by rw [hcyc]; exact ho)]
      · rw [hcyc]
        exact mem_nsAdd.mpr (.inl rfl)
  · intro who sl s hs
    refine ⟨fun hidle hsl => completesIn_served rfl rfl hs fun cyc => ?_,
      fun hidle hsl hvalid hrun htb => completesIn_served rfl rfl hs fun cyc => ?_,
      fun hidle hsl hvalid hrun htb => completesIn_served rfl rfl hs fun cyc => ?_,
      fun h => ⟨completesIn_served rfl rfl hs fun cyc => ?_, completesIn_served rfl rfl hs fun cyc => ?_⟩,
      fun hsl hvalid => completesIn_served rfl rfl hs fun cyc => ?_, fun h => completesIn_served rfl rfl hs fun cyc => ?_⟩
    all_goals generalize hb : ({ s with cyc := cyc } : State) = b
    · have hgo : ¬ (b.imgOpCode ≠ 0 ∨ sl.val = 3) := by rw [← hb]; exact fun h => h.elim (absurd hidle) hsl
      rw [imgVerify_eq, if_neg hgo]
      exact ⟨rfl, ((onlyRegs_named b sl).setImg _).answer _ _ _⟩
    · have hgo : ¬ (b.imgOpCode ≠ 0 ∨ sl.val = 3 ∨ b.slotState sl ≠ 1 ∨ sl.val = b.runSlot) := by
        rw [← hb]
        exact fun h => h.elim (absurd hidle) fun h => h.elim hsl fun h => h.elim (absurd hvalid) fun h => hrun h.symm
      have hrunning : ¬ b.tbState < 2 := by rw [← hb]; exact Nat.not_lt.mpr htb
      rw [imgActivate_eq, if_neg hgo, if_neg hrunning]
      exact ⟨rfl, ((onlyRegs_named b sl).setImg _).answer _ _ _⟩
    · have hgo : ¬ (b.imgOpCode ≠ 0 ∨ sl.val = 3 ∨ b.slotState sl ≠ 1 ∨ sl.val = b.runSlot) := by
        rw [← hb]
        exact fun h => h.elim (absurd hidle) fun h => h.elim hsl fun h => h.elim (absurd hvalid) fun h => hrun h.symm
      have hstopped : b.tbState < 2 := by rw [← hb]; exact htb
      rw [imgActivate_eq, if_neg hgo, if_pos hstopped]
      rfl
    · have hbusy : b.imgOpCode ≠ 0 ∨ sl.val = 3 := by rw [← hb]; exact h
      rw [imgVerify_eq, if_pos hbusy]
      exact ⟨(flag_written ..).trans (cmderr_refusedFor ..), (onlyRegs_refusedFor ..).answer _ _ _⟩
    · have hbusy : b.imgOpCode ≠ 0 ∨ sl.val = 3 := by rw [← hb]; exact h
      rw [imgActivate_eq, if_pos (hbusy.imp id .inl)]
      exact ⟨(flag_written ..).trans (cmderr_refusedFor ..), (onlyRegs_refusedFor ..).answer _ _ _⟩
    · have hgo : sl.val = 2 ∧ b.slotState 2 = 1 := by rw [← hb]; exact ⟨hsl, hvalid⟩
      rw [goldenLock_eq, if_pos hgo]
      exact ⟨rfl, ((onlyRegs_named b sl).setImg _).answer _ _ _⟩
    · have hno : ¬ (sl.val = 2 ∧ b.slotState 2 = 1) := by rw [← hb]; exact fun hgo => h.elim (absurd hgo.1) (absurd hgo.2)
      rw [goldenLock_eq, if_neg hno]
      exact ⟨(flag_written ..).trans (cmderr_refusedFor ..), rfl, (onlyRegs_refusedFor ..).answer _ _ _⟩
  · intro i bad s hi hop lost code
    obtain ⟨hlost, hresult, hslot, hnone, hfail, hpass, hkept⟩ := checkDone_shows (s := storeHit s.eventCycle bad) hi hop
    obtain ⟨hsize, hbase⟩ := regionSize_slot hi
    have hl : (storeHit s.eventCycle bad).opDone.slotLost i = lost := by
      rw [State.slotLost, hsize, hbase]
      rfl
    have hc : (storeHit s.eventCycle bad).opDone.slotCode i = code := by
      rw [State.slotCode, hl, hsize, hbase]
      rfl
    rw [hl] at hlost
    rw [hc] at hresult hslot hfail hpass hkept
    exact ⟨_, rfl, hlost, hresult, hslot, hnone, hfail, hpass, hkept⟩

end Sys2Proof.Machine
end

section
/-! SUPPORT. A start whose hypothesis and effect count different records of the journal (O56). -/
namespace Sys2Proof.Machine
open Reg

/-- PD01, PD02 and PD04 are up, no image has started. The journal holds one counts record, with four failed starts, at the place that its next
record takes; another word of the journal is damaged. Line 51 was seen at the end of the cycle before and its bit has been cleared in
this cycle. -/
def fourFails : State :=
  { State.reset with
    cyc := Cycle.clear (BitVec.twoPow 64 51)
    regs := [(RST_PDSTAT 0, 0b10110#32), (FLT_SAFEMASK_HI, 0#32)]
    rst := { State.reset.rst with plan := [] }
    img := { ImgState.reset with
      store := memStore [] (journalBase + 64) (recordBytes (recordWords 3 1 [9, 4]))
      storeBad := [journalBase + 0x1000]
      recPos := 1
      rseq := 2 } }

/-- In the cycle that runs, the damaged word that the restoration meets is no new fault, and four failures are counted. -/
theorem fails_fourFails : (restoreJournal (storeHit fourFails [])).fld IMG_BOOTCNT_FAILS = 4 := by decide +kernel

/-- In the cycle in which the start falls it is one: its fault record takes the place of the counts, and the start goes on. -/
theorem imageStart_fourFails : (imageStart (storeHit fourFails.eventCycle []) [] false).fld GBL_STATE_STATE = 1 := by decide +kernel

theorem exec_imageStart (flash : List Byte) (fail : Bool) (bad : List (BitVec 22)) (s : State) :
    exec (.imageStart flash fail bad) s = .next (imageStart (storeHit s.eventCycle bad) (flash.map BitVec.toNat) fail) := rfl

/-- Refutes O56: after the counts have been restored as the state before shows them, IMAGE_START begins a cycle of its own. There the
damaged word of the journal is a new fault, whose record takes the place of the counts, and the start does not enter recovery mode. -/
theorem not_startSuccess : ¬ Obligations.StartSuccess := by
  intro h
  obtain ⟨-, -, -, -, hstart, -⟩ := h
  obtain ⟨-, hrecovery, -⟩ := hstart [] false [] fourFails (by decide +kernel) (by decide +kernel) (by decide +kernel)
  obtain ⟨t, ht, hstate, -, -⟩ := hrecovery (.inl (Nat.le_of_eq fails_fourFails.symm))
  rw [exec_imageStart, List.map_nil] at ht
  rw [← Host.Outcome.next.inj ht, imageStart_fourFails] at hstate
  exact absurd hstate (by decide)

end Sys2Proof.Machine
end

section
/-! SUPPORT. A line whose source has a damaged routing word (O60). -/
namespace Sys2Proof.Machine
open Reg

/-- PD02 is up; the routing word of error line 0 is damaged. -/
def damagedRoute : State := { State.reset with regs := [(RST_PDSTAT 0, 0b100#32)], ecc := [IRQ_TGT 256] }

/-- With line 0 the router reads the damaged word, and that raises line 19 (R392). -/
theorem status_raiseLine_damagedRoute :
    (raiseLine damagedRoute 0).flt.status = BitVec.twoPow 64 0 ||| BitVec.twoPow 64 19 := by decide +kernel

/-- Refutes O60: an error line whose routing word is damaged brings line 19 with it, so its own bit is not all that FLT_STATUS gains. -/
theorem not_monitorsAndWatchdog : ¬ Obligations.MonitorsAndWatchdog := by
  intro h
  obtain ⟨⟨-, -, -, hlines⟩, -⟩ := h
  obtain ⟨hstatus, -⟩ := hlines 0 damagedRoute (by decide) (by decide +kernel) (by decide +kernel)
  rw [status_raiseLine_damagedRoute] at hstatus
  exact absurd hstatus (by decide +kernel)

end Sys2Proof.Machine
end

section
/-! SUPPORT. A release after which a comparator that does not exist is sensed (O58). -/
namespace Sys2Proof.Machine
open Reg

/-- The number of a comparator, far beyond the 96, whose level would stand at the bit of PD91 in RST_PDSTAT. -/
def strayCmp : Nat := 32 * ((RST_PDSTAT 2 - CVL_CMPLVL 0) / 4) + 27

/-- PD91 is to be released; the environment's inputs list comparator `strayCmp` at 0 V. -/
def strayInput : State :=
  { State.reset with
    rst := { State.reset.rst with plan := [(11, [91])] }
    cvl := { State.reset.cvl with ain := [(strayCmp, 0)] } }

/-- The release of PD91 senses every listed comparator, and the level 0 of that one takes the bit of PD91 away. -/
theorem up_strayInput : (domainRelease strayInput.eventCycle 0).up 91 = false := by decide +kernel

theorem exec_domainRelease (vdet : BitVec 6) (s : State) : exec (.domainRelease vdet) s = .next (domainRelease s.eventCycle vdet.toNat) := rfl

/-- Refutes O58: the statement speaks of every state, also of one whose inputs list a comparator that does not exist. The release of PD91
writes that comparator's level, and the domain does not stand released. -/
theorem not_releaseAndDomains : ¬ Obligations.ReleaseAndDomains := by
  intro h
  obtain ⟨⟨-, hrelease, -⟩, -⟩ := h
  obtain ⟨-, hstep⟩ := hrelease 0 [] [] strayInput
  obtain ⟨t, ht, hup, -⟩ := hstep 11 91 (by decide +kernel) (by decide) (by decide) (by decide)
  rw [exec_domainRelease, (by decide : (0 : BitVec 6).toNat = 0)] at ht
  rw [← Host.Outcome.next.inj ht, up_strayInput] at hup
  exact absurd hup (by decide)

end Sys2Proof.Machine
end

section
/-! SUPPORT. What the drop of power domains leaves of the time base, of the release ring, of the monitors and of the domains that stay
(R428, R442, R444). -/
namespace Sys2Proof.Machine
open Reg

/-! ### The frame -/

/-- A register of TB or REL, or FLT_TLIM. -/
def pathReg (o : Nat) : Bool := o / 0x100000 == 0x01 || o / 0x100000 == 0x02 || o == FLT_TLIM

/-- From `s` to `t` the domains `ds` have gone down and no other has changed; the registers of TB and REL, the reference time and what the
monitors measure have stayed. -/
structure Fades (ds : List Nat) (s t : State) : Prop where
  up : ∀ e, e < 96 → t.up e = (s.up e && !ds.contains e)
  rd : ∀ o, pathReg o = true → t.rd o = s.rd o
  cycle : t.cycle = s.cycle
  flt : t.flt = { s.flt with status := t.flt.status, firstT := t.flt.firstT, safeStart := t.flt.safeStart, exitOrbit := t.flt.exitOrbit }

/-- A register that has no part in it. -/
def fadeFree (o : Nat) : Prop := pathReg o = false ∧ ∀ e, e < 96 → RST_PDSTAT (e / 32) ≠ o

theorem pdstat_block {e : Nat} (h : e < 96) : RST_PDSTAT (e / 32) / 0x100000 = 0x16 := by unfold RST_PDSTAT; omega

theorem up_congr {s t : State} {e : Nat} (h : t.rd (RST_PDSTAT (e / 32)) = s.rd (RST_PDSTAT (e / 32))) : t.up e = s.up e := by
  rw [State.up, h, State.up]

namespace Fades

theorem of_same {s t : State} (hregs : t.regs = s.regs) (hcycle : t.cycle = s.cycle) (hflt : t.flt = s.flt) : Fades [] s t where
  up e _ := by rw [up_congr (congrArg (smGet (resetWord _) · _) hregs)]; simp
  rd o _ := by rw [State.rd, hregs, State.rd]
  cycle := hcycle
  flt := by rw [hflt]

theorem refl (s : State) : Fades [] s s := of_same rfl rfl rfl

theorem trans {ds es : List Nat} {s t u : State} (h : Fades ds s t) (h' : Fades es t u) : Fades (ds ++ es) s u where
  up e he := by rw [h'.up e he, h.up e he, Bool.and_assoc]; simp
  rd o ho := (h'.rd o ho).trans (h.rd o ho)
  cycle := h'.cycle.trans h.cycle
  flt := by rw [h'.flt, h.flt]

/-- An effect with no part in it, after others. -/
theorem next {ds : List Nat} {s t u : State} (h : Fades ds s t) (h' : Fades [] t u) : Fades ds s u := by
  simpa using h.trans h'

/-- So before. -/
theorem after {ds : List Nat} {s t u : State} (h' : Fades ds t u) (h : Fades [] s t) : Fades ds s u := h.trans h'

theorem wr {ds : List Nat} {s t : State} (h : Fades ds s t) {off : Nat} (hoff : fadeFree off) (w : Word) : Fades ds s (t.wr off w) := by
  obtain ⟨hpath, hstat⟩ := hoff
  refine h.next ⟨fun e he => ?_, fun o ho => State.rd_wr_other _ _ _ _ fun h => ?_, rfl, rfl⟩
  · rw [up_congr (State.rd_wr_other _ _ _ _ (hstat e he))]
    simp
  · rw [h, hpath] at ho
    exact absurd ho (by decide)

theorem setFld {ds : List Nat} {s t : State} (h : Fades ds s t) {f : Fld} (hf : fadeFree f.off) (v : Nat) : Fades ds s (t.setFld f v) :=
  h.wr hf _

theorem event {ds : List Nat} {s t : State} (h : Fades ds s t) {f : Fld} (hf : fadeFree f.off) : Fades ds s (t.event f) :=
  (h.next (of_same (t := t.noteEvent f.off _) rfl rfl rfl)).setFld hf _

theorem ite {ds : List Nat} {s t u : State} {c : Prop} [Decidable c] (ht : Fades ds s t) (hu : Fades ds s u) :
    Fades ds s (if c then t else u) := by
  split
  · exact ht
  · exact hu

theorem foldl {α : Type} {l : List α} {f : State → α → State} (hf : ∀ t, ∀ k ∈ l, Fades [] t (f t k)) (s : State) :
    Fades [] s (l.foldl f s) :=
  List.foldlRecOn (motive := Fades [] s) _ _ (.refl s) fun t ht k hk => ht.next (hf t k hk)

theorem logReg_early {o b : Nat} (h : o / 0x100000 = b) (hb : b < 0x11) : logReg o = false := by
  have hpba : ¬ IMG_MSIX_PBA 0 ≤ o := by simp only [IMG_MSIX_PBA]; omega
  have hne : o ∉ [IMG_JSTAT, FLT_SAFE, FLT_FIRST, FLT_FIRSTX, FLT_FIRSTT_LO] := by
    unfold IMG_JSTAT FLT_SAFE FLT_FIRST FLT_FIRSTX FLT_FIRSTT_LO
    simp only [List.mem_cons, List.not_mem_nil, or_false]
    omega
  have h11 : b ≠ 0x11 := by omega
  have h13 : b ≠ 0x13 := by omega
  simp only [logReg, h, beq_eq_false_iff_ne.mpr h11, beq_eq_false_iff_ne.mpr h13, List.contains_eq_mem, decide_eq_false hne,
    decide_eq_false hpba, Bool.false_and, Bool.or_self]

theorem of_logs {s t : State} (h : Logs s t) (h' : OnlyReports s t) : Fades [] s t where
  up e he := by
    have hfree : logReg (RST_PDSTAT (e / 32)) = false := by
      have : e / 32 = 0 ∨ e / 32 = 1 ∨ e / 32 = 2 := by omega
      rcases this with hw | hw | hw <;> rw [hw] <;> decide
    rw [up_congr (h.rd _ hfree)]
    simp
  rd o ho := by
    refine h.rd o ?_
    simp only [pathReg, Bool.or_eq_true, beq_iff_eq] at ho
    obtain (hblock | hblock) | rfl := ho
    · exact logReg_early hblock (by decide)
    · exact logReg_early hblock (by decide)
    · decide
  cycle := by rw [h'.rest]
  flt := h.flt

end Fades

/-! ### Lines, events, lanes -/

theorem fades_raiseLine (s : State) (b : Nat) : Fades [] s (raiseLine s b) :=
  .of_logs (logs_raiseLine s b) ((onlyReports_tgtUse _ _).trans (onlyReports_latchLine _ _))

theorem fades_devEvent (s : State) (n : Nat) {f : Fld} (hf : fadeFree f.off) : Fades [] s (devEvent s n f) := by
  have hedge : Fades [] (s.event f) (withDev n (fun s => s.event f) s) := .of_logs (logs_edgeDev _ _ _) (onlyReports_edgeDev _ _ _)
  have huse (t : State) : Fades [] t (tgtUse t n) := .of_logs (logs_tgtUse _ _) (onlyReports_tgtUse _ _)
  have hocc (t : State) : Fades [] t (occurDev t n) := .of_logs (logs_occurDev _ _) (onlyReports_occurDev _ _)
  exact ((((Fades.refl s).event hf).next hedge).next (huse _)).next (hocc _)

theorem fadeFree_of_block {o b : Nat} (h : o / 0x100000 = b) (hb : b ≠ 1 ∧ b ≠ 2 ∧ b ≠ 0x16 ∧ b ≠ 0x17) : fadeFree o := by
  obtain ⟨h1, h2, h16, h17⟩ := hb
  have htlim : o ≠ FLT_TLIM := fun e => h17 (by rw [← h, e]; decide)
  exact ⟨by simp [pathReg, h, h1, h2, htlim], fun e he heq => h16 (by rw [← h, ← heq, pdstat_block he])⟩

theorem fadeFree_lstat {n : Nat} (h : n < 48) : fadeFree (MDR_LSTAT n) :=
  fadeFree_of_block (b := 4) (by unfold MDR_LSTAT; omega) (by decide)

theorem fadeFree_lnkStat {n : Nat} (h : n < 48) : fadeFree (LNK_STAT n) :=
  fadeFree_of_block (b := 3) (by unfold LNK_STAT; omega) (by decide)

theorem fades_anyQ (s : State) : Fades [] s (anyQ s) := (Fades.refl s).setFld (f := MDR_STAT_ANYQ) (fadeFree_of_block (b := 4) (by decide) (by decide)) _

theorem fades_setMlane (s : State) (n : Nat) (x : MdrX) : Fades [] s (s.setMlane n x) := .of_same rfl rfl rfl

theorem fades_quarantine (s : State) {n : Nat} (h : n < 48) (reason : Nat) : Fades [] s (quarantine s n reason) := by
  unfold quarantine
  extract_lets x t u v
  have ht : Fades [] s t := fades_setMlane _ _ _
  have hu : Fades [] s u := (ht.setFld (f := MDR_LSTAT_LSTATE n) (fadeFree_lstat h) _).setFld (f := MDR_LSTAT_RXVALID n) (fadeFree_lstat h) _
  have hv : Fades [] s v := (hu.next (fades_devEvent _ _ (f := MDR_LSTAT_QUAR n) (fadeFree_lstat h))).next (fades_anyQ _)
  clear_value v
  exact .ite (hv.next (fades_raiseLine _ _)) hv

theorem fades_noteDown (s : State) {n : Nat} (h : n < 48) : Fades [] s (noteDown s n) := by
  unfold noteDown
  extract_lets x downs t
  have ht : Fades [] s t := fades_setMlane _ _ _
  clear_value t
  exact .ite ((ht.next (fades_devEvent _ _ (f := MDR_LSTAT_FLAP n) (fadeFree_lstat h))).next (fades_quarantine _ h _)) ht

theorem fades_linkDown (s : State) {n : Nat} (h : n < 48) : Fades [] s (linkDown s n) := by
  unfold linkDown
  extract_lets t u
  have ht : Fades [] s t := fades_devEvent _ _ (f := MDR_LSTAT_LINKDN n) (fadeFree_lstat h)
  have hu : Fades [] s u := (ht.setFld (f := MDR_LSTAT_LSTATE n) (fadeFree_lstat h) _).setFld (f := MDR_LSTAT_RXVALID n) (fadeFree_lstat h) _
  clear_value u
  exact .ite ((hu.next (fades_setMlane _ _ _)).next (fades_noteDown _ h)) (.refl s)

theorem fades_laneReset (s : State) {n : Nat} (h : n < 48) : Fades [] s (laneReset s n) := by
  have hlane : Fades [] s (s.setLane n LaneX.idle) := .of_same rfl rfl rfl
  exact ((hlane.setFld (f := LNK_STAT_STATE n) (fadeFree_lnkStat h) _).setFld (f := LNK_STAT_RATE n) (fadeFree_lnkStat h) _).setFld
    (f := LNK_STAT_SIGDET n) (fadeFree_lnkStat h) _

theorem fades_dropLane (s : State) {n : Nat} (h : n < 48) : Fades [] s (dropLane s n) := by
  unfold dropLane
  extract_lets t u
  have ht : Fades [] s t := .ite (fades_linkDown s h) (.refl s)
  have hu : Fades [] s u := ht.next (fades_laneReset t h)
  clear_value u
  exact hu.next (.of_same rfl rfl rfl)

/-! ### Blocks -/

theorem fades_dropDram (s : State) {c : Nat} : Fades [] s (dropDram s c) := by
  unfold dropDram
  extract_lets x t
  have ht : Fades [] s t := .of_same rfl rfl rfl
  have hstat : fadeFree MEM_STAT := fadeFree_of_block (b := 0x0D) (by decide) (by decide)
  clear_value t
  exact (ht.setFld (f := ⟨MEM_STAT, _, _⟩) hstat _).setFld (f := ⟨MEM_STAT, _, _⟩) hstat _

theorem fadeFree_mbstat {m : Nat} (h : m < 512) : fadeFree (IRQ_MBSTAT m) :=
  fadeFree_of_block (b := 0x13) (by unfold IRQ_MBSTAT; omega) (by decide)

theorem fadeFree_mbdata {m j : Nat} (h : m < 512) (hj : j < 16) : fadeFree (IRQ_MBDATA m j) :=
  fadeFree_of_block (b := 0x13) (by unfold IRQ_MBDATA; omega) (by decide)

theorem fades_mbAbort (s : State) {m : Nat} (h : m < 512) : Fades [] s (mbAbort s m) := by
  unfold mbAbort
  extract_lets full t u
  have ht : Fades [] s t := .foldl (fun t j hj => (Fades.refl t).wr (fadeFree_mbdata h (List.mem_range.mp hj)) 0) s
  have hecc (v : State) (e : List Nat) : Fades [] v { v with ecc := e } := .of_same rfl rfl rfl
  have hu : Fades [] s u := ht.next (hecc t _)
  clear_value u
  exact .ite ((hu.setFld (f := IRQ_MBSTAT_FULL m) (fadeFree_mbstat h) _).event (f := IRQ_MBSTAT_ABORTED m) (fadeFree_mbstat h)) hu

theorem lt_of_mem_boundTo {s : State} {p : Nat → Bool} {m : Nat} (h : m ∈ s.boundTo p) : m < 512 := by
  obtain ⟨e, -, he⟩ := List.mem_filterMap.1 h
  split at he
  case isTrue hin => cases he; unfold IRQ_MBCFG at *; omega
  case isFalse => cases he

theorem fades_mbAbortAll (s : State) (p : Nat → Bool) : Fades [] s (mbAbortAll s p) :=
  .foldl (fun t _ hm => fades_mbAbort t (lt_of_mem_boundTo hm)) s

theorem fades_sepClear (s : State) (k : Nat) : Fades [] s (sepClear s k) := .of_same rfl rfl rfl

theorem fades_dropCluster (s : State) (k : Nat) : Fades [] s (dropCluster s k) := by
  unfold dropCluster
  extract_lets t
  have ht : Fades [] s t := (fades_mbAbortAll (sepClear s k) _).after (fades_sepClear s k)
  clear_value t
  exact ht.next (.of_same rfl rfl rfl)

theorem fades_abortNotices {l : List (Nat × Nat)} (hl : ∀ m ∈ l, m.1 < 512) (s : State) : Fades [] s (abortNotices l s) :=
  .foldl (fun t m hm => ((Fades.refl t).setFld (f := IRQ_MBSTAT_SENDER m.1) (fadeFree_mbstat (hl m hm)) _).event
    (f := IRQ_MBSTAT_ABORTED m.1) (fadeFree_mbstat (hl m hm))) s

theorem lt_of_mem_fullBoxes {s : State} : ∀ m ∈ s.fullBoxes, m.1 < 512 := by
  intro m hm
  obtain ⟨k, hk, rfl⟩ := List.mem_map.mp hm
  exact List.mem_range.mp (List.mem_of_mem_filter hk)

/-- The registers of a domain from PD04 on are not those of the release path. -/
theorem fades_dropRegs (s : State) {d : Nat} (h : 4 ≤ d) : Fades [] s (dropRegs s d) := by
  have hrd (o : Nat) (ho : domOf o < 4) : (dropRegs s d).rd o = s.rd o := by
    have hne : ¬ domOf o = d := by omega
    simp only [dropRegs, State.rd, smGet_smDrop, decide_eq_true_eq, if_neg hne]
  refine ⟨fun e he => ?_, fun o ho => hrd o ?_, rfl, rfl⟩
  · rw [up_congr (hrd _ (by simp [domOf, pdstat_block he]))]
    simp
  · simp only [pathReg, Bool.or_eq_true, beq_iff_eq] at ho
    obtain (hblock | hblock) | rfl := ho
    · simp [domOf, hblock]
    · simp [domOf, hblock]
    · decide

theorem fades_dropRouter (s : State) : Fades [] s (dropRouter s) := by
  unfold dropRouter
  refine Fades.next ?_ (fades_abortNotices lt_of_mem_fullBoxes _)
  exact (fades_dropRegs _ (by decide)).after (.of_same rfl rfl rfl)

theorem fades_dropAnalogue (s : State) : Fades [] s (dropAnalogue s) := by
  unfold dropAnalogue
  extract_lets x t
  have ht : Fades [] s t := .of_same rfl rfl rfl
  clear_value t
  exact ht.next (.foldl (fun u i _ => .of_same (t := u.setLoop i _) rfl rfl rfl) t)

/-! ### A domain (R442) -/

theorem up_eq_flag (s : State) (e : Nat) : s.up e = s.flag ⟨RST_PDSTAT (e / 32), e % 32, e % 32⟩ :=
  (flag_eq_getLsbD ..).symm

theorem up_setUp (s : State) (d : Nat) (b : Bool) (e : Nat) : (setUp s d b).up e = if e = d then b else s.up e := by
  have hok (n : Nat) : Fld.ok ⟨RST_PDSTAT (n / 32), n % 32, n % 32⟩ := ⟨Nat.le_refl _, Nat.mod_lt _ (by decide)⟩
  split
  next h => rw [h, up_eq_flag, setUp, State.flag_setFlag_same _ _ _ (hok d)]
  next h =>
    have hother : RST_PDSTAT (e / 32) ≠ RST_PDSTAT (d / 32) ∨ e % 32 < d % 32 ∨ d % 32 < e % 32 := by
      unfold RST_PDSTAT
      omega
    rw [up_eq_flag, up_eq_flag, State.flag, setUp, State.setFlag, State.fld_setFld_other _ _ _ _ (hok d) (hok e) hother, State.flag]

theorem fades_setUp (s : State) {d : Nat} (h : d < 96) : Fades [d] s (setUp s d false) where
  up e _ := by
    rw [up_setUp]
    by_cases he : e = d <;> simp [he]
  rd o ho := State.rd_wr_other _ _ _ _ fun e => by
    rw [e] at ho
    simp only [pathReg, pdstat_block h] at ho
    have hne : RST_PDSTAT (d / 32) ≠ FLT_TLIM := by unfold RST_PDSTAT FLT_TLIM; omega
    simp [hne] at ho
  cycle := rfl
  flt := rfl

/-- A domain from PD04 on goes down, with all that its blocks hold. -/
theorem fades_dropDomain (s : State) {d : Nat} (h4 : 4 ≤ d) (h : d < 96) : Fades [d] s (dropDomain s d) := by
  have hend (t : State) : Fades [d] t (if 5 ≤ d ∧ d ≤ 52 then anyQ (dropRegs (setUp t d false) d) else dropRegs (setUp t d false) d) := by
    have hregs : Fades [d] t (dropRegs (setUp t d false) d) := (fades_setUp t h).next (fades_dropRegs _ h4)
    exact .ite (hregs.next (fades_anyQ _)) hregs
  unfold dropDomain
  split
  · exact (fades_setUp _ h).after (fades_dropRouter s)
  · refine (hend _).after ?_
    split
    · exact fades_dropLane s (by omega)
    split
    · exact fades_dropDram s
    split
    · exact fades_dropCluster s _
    split
    case h_1 => exact fades_mbAbortAll s _
    case h_9 => exact fades_dropAnalogue s
    case h_13 => exact .refl s
    all_goals exact .of_same rfl rfl rfl

/-- So do several, one after the other. -/
theorem fades_dropDomains {l : List Nat} (hl : ∀ d ∈ l, 4 ≤ d ∧ d < 96) (s : State) : Fades l s (l.foldl dropDomain s) := by
  induction l generalizing s with
  | nil => exact .refl s
  | cons d r ih =>
    have hd := hl d (by simp)
    exact (fades_dropDomain s hd.1 hd.2).trans (ih (fun e he => hl e (by simp [he])) _)

/-! ### The reset of PD05 to PD95 (R428) -/

theorem fades_retest (s : State) : Fades [] s (retest s) :=
  .foldl (fun t n _ => by
    split
    · exact .of_logs (logs_testShared _ _ _) (onlyReports_testShared _ _ _)
    · exact .refl t) s

theorem fadeFree_gbl {o : Nat} (h : o / 0x100000 = 0) : fadeFree o := fadeFree_of_block h (by decide)

theorem fadeFree_seq : fadeFree RST_SEQ := ⟨by decide, fun e _ => by unfold RST_PDSTAT RST_SEQ; omega⟩

theorem fadeFree_cause : fadeFree RST_CAUSE := ⟨by decide, fun e _ => by unfold RST_PDSTAT RST_CAUSE; omega⟩

theorem fades_showSeq (s : State) (step : Nat) : Fades [] s (showSeq s step) :=
  ((Fades.refl s).setFld (f := RST_SEQ_BUSY) fadeFree_seq _).setFld (f := RST_SEQ_STEP) fadeFree_seq _

/-- The fields that GBL and IMG clear when the image stops. -/
def stopFields : List Fld := [GBL_FLIPSTAT_PEND, GBL_FLIPSTAT_LOCKED, GBL_FLIPSTAT_BUSY, GBL_FLIPSTAT_JBUSY, IMG_JSTAT_BUSY,
  GBL_STATE_STATE, GBL_STATE_CAND, GBL_STATE_RECOV, GBL_STATE_OKSEEN]

theorem fadeFree_stopFields : ∀ f ∈ stopFields, fadeFree f.off := by
  have hjstat : fadeFree IMG_JSTAT := fadeFree_of_block (b := 0x15) (by decide) (by decide)
  have hflip : fadeFree GBL_FLIPSTAT := fadeFree_gbl (by decide)
  have hstate : fadeFree GBL_STATE := fadeFree_gbl (by decide)
  simp [stopFields, hjstat, hflip, hstate]

theorem stopImage_eq (s : State) :
    ∃ u, Fades [] s u ∧ stopImage s = (stopFields.foldl (fun s f => s.setFld f 0) u).setFld GBL_STATE_SLOT 3 := by
  have hlost (c : Prop) [Decidable c] : Fades [] s (if c then s.event GBL_FLIPSTAT_JERR else s) :=
    .ite ((Fades.refl s).event (fadeFree_gbl (by decide))) (.refl s)
  have hrest (t : State) (i : ImgState) (f : FlipState) : Fades [] t { t with img := i, flip := f } := .of_same rfl rfl rfl
  exact ⟨_, (hlost _).next (hrest _ _ _), rfl⟩

theorem fades_stopImage (s : State) : Fades [] s (stopImage s) := by
  obtain ⟨u, hu, heq⟩ := stopImage_eq s
  rw [heq]
  refine (hu.next (.foldl (fun t f hf => ?_) u)).setFld (f := GBL_STATE_SLOT) (fadeFree_gbl (by decide)) _
  exact (Fades.refl t).setFld (fadeFree_stopFields f hf) 0

/-- No image runs: GBL_STATE.STATE is 0. -/
theorem state_stopImage (s : State) : (stopImage s).fld GBL_STATE_STATE = 0 := by
  obtain ⟨u, -, heq⟩ := stopImage_eq s
  rw [heq]
  simp [stopFields]

/-- The domains that a narrow reset drops. -/
def narrowList : List Nat := 90 :: (rangeFrom 5 91).filter fun d => !decide (d = 90)

theorem mem_narrowList {d : Nat} : d ∈ narrowList ↔ 5 ≤ d ∧ d < 96 := by
  simp only [narrowList, rangeFrom, List.mem_cons, List.mem_filter, List.mem_map, List.mem_range]
  constructor
  · rintro (rfl | ⟨⟨k, hk, rfl⟩, -⟩) <;> omega
  · intro h
    by_cases h90 : d = 90
    · exact .inl h90
    · exact .inr ⟨⟨d - 5, by omega, by omega⟩, by simp [h90]⟩

/-- What the reset of the domains forgets beside them. -/
def narrowRest (t : State) : State :=
  let s := { t with sram := [] }
  let s := { s with ecc := s.ecc.filter fun e => decide (e < 0x2000000) }
  showSeq { s with rst := { s.rst with plan := [], railFailed := [], domainOp := none },
                   rel := { s.rel with results := [], replays := [] } } 0

theorem narrowDomains_eq (s : State) : narrowDomains s = narrowRest (stopImage (narrowList.foldl dropDomain s)) := rfl

theorem fades_narrowRest (s : State) : Fades [] s (narrowRest s) := by
  have hrest (l : List Nat) (r : RstState) (x : RelState) : Fades [] s { s with sram := [], ecc := l, rst := r, rel := x } :=
    .of_same rfl rfl rfl
  exact (hrest _ _ _).next (fades_showSeq _ 0)

theorem narrowRest_shows (s : State) : (narrowRest s).fld GBL_STATE_STATE = s.fld GBL_STATE_STATE ∧ (narrowRest s).sram = [] := by
  refine ⟨?_, ?_⟩
  · rw [narrowRest, showSeq, State.setFlag, fld_setFld_disjoint, fld_setFld_disjoint]
    · rfl
    all_goals simp
  · rw [narrowRest, showSeq, State.setFlag, State.setFld_sram, State.setFld_sram]

/-- The reset of PD05 to PD95: they go down, no image runs, pipeline SRAM is empty. -/
theorem narrowDomains_spec (s : State) :
    Fades narrowList s (narrowDomains s) ∧ (narrowDomains s).fld GBL_STATE_STATE = 0 ∧ (narrowDomains s).sram = [] := by
  have hdrop : Fades narrowList s (narrowList.foldl dropDomain s) :=
    fades_dropDomains (fun d hd => by have := mem_narrowList.mp hd; omega) s
  obtain ⟨hstate, hsram⟩ := narrowRest_shows (stopImage (narrowList.foldl dropDomain s))
  rw [narrowDomains_eq]
  exact ⟨(hdrop.next (fades_stopImage _)).next (fades_narrowRest _), hstate.trans (state_stopImage _), hsram⟩

theorem logs_retest (s : State) : Logs s (retest s) :=
  .foldl (fun t n _ => by
    split
    · exact logs_testShared _ _ _
    · exact .refl t) s

theorem onlyReports_retest (s : State) : OnlyReports s (retest s) :=
  .foldl (fun t n => by
    split
    · exact onlyReports_testShared _ _ _
    · exact .refl t) s

theorem OnlyReports.sram {s t : State} (h : OnlyReports s t) : t.sram = s.sram := by rw [h.rest]

/-- The domains from PD05 on are down and no image runs; the release path stands, with the cause of the reset. -/
theorem narrowReset_spec {s : State} (hup : s.up 4 = true) {cause : Nat} (hc : cause < 16) :
    (∀ e, e < 96 → (narrowReset s cause).up e = (s.up e && !narrowList.contains e)) ∧
    (∀ o, pathReg o = true → (narrowReset s cause).rd o = s.rd o) ∧ (narrowReset s cause).cycle = s.cycle ∧
    (narrowReset s cause).fld RST_CAUSE_CAUSE = cause ∧ (narrowReset s cause).fld GBL_STATE_STATE = 0 ∧ (narrowReset s cause).sram = [] ∧
    (∃ st f x e, (narrowReset s cause).flt = { s.flt with status := st, firstT := f, safeStart := x, exitOrbit := e }) := by
  have heq : narrowReset s cause = retest ((narrowDomains s).setFld RST_CAUSE_CAUSE cause) := by simp [narrowReset, hup]
  obtain ⟨hdrop, hstate, hsram⟩ := narrowDomains_spec s
  have hfades := (hdrop.setFld (f := RST_CAUSE_CAUSE) fadeFree_cause cause).next
    (.of_logs (logs_retest _) (onlyReports_retest _))
  rw [heq]
  refine ⟨hfades.up, hfades.rd, hfades.cycle, ?_, ?_, ?_, ⟨_, _, _, _, hfades.flt⟩⟩
  · rw [(logs_retest _).fld (by decide), fld_setFld_self _ _ (by simp) (by simp)]
    exact Nat.mod_eq_of_lt hc
  · rw [(logs_retest _).fld (by decide), fld_setFld_disjoint _ _ (by simp) (by simp) (by simp) (by simp) (.inl (by simp)), hstate]
  · rw [(onlyReports_retest _).sram, State.setFld_sram, hsram]

end Sys2Proof.Machine
end

section
/-! SUPPORT. Resets by width (O57). -/
namespace Sys2Proof.Machine
open Reg

/-! ### Mailboxes that were full (R391) -/

/-- The notices of some mailboxes with their senders. -/
def notices (sender : Nat → Nat) (ms : List Nat) : List (Nat × Nat) := ms.map fun m => (m, sender m)

theorem fullBoxes_eq (s : State) :
    s.fullBoxes = notices (fun m => s.fld (IRQ_MBSTAT_SENDER m)) ((List.range 512).filter s.mbFull) := rfl

/-- One mailbox is shown as aborted, with its sender. -/
def noticed (s : State) (m sender : Nat) : State := (s.setFld (IRQ_MBSTAT_SENDER m) sender).event (IRQ_MBSTAT_ABORTED m)

theorem abortNotices_cons (sender : Nat → Nat) (m : Nat) (r : List Nat) (s : State) :
    abortNotices (notices sender (m :: r)) s = abortNotices (notices sender r) (noticed s m (sender m)) := rfl

theorem onlyRegs_noticed (s : State) (m sender : Nat) : OnlyRegs [IRQ_MBSTAT m] s (noticed s m sender) :=
  ((OnlyRegs.refl _ s).setFld (by simp) _).event (by simp)

theorem onlyRegs_notices (sender : Nat → Nat) (ms : List Nat) (s : State) :
    OnlyRegs (ms.map IRQ_MBSTAT) s (abortNotices (notices sender ms) s) := by
  induction ms generalizing s with
  | nil => exact .refl _ s
  | cons m r ih =>
    rw [abortNotices_cons]
    exact ((onlyRegs_noticed s m (sender m)).mono (by simp)).trans ((ih _).mono (by simp))

theorem mbstat_inj {m k : Nat} (h : IRQ_MBSTAT m = IRQ_MBSTAT k) : m = k := by unfold IRQ_MBSTAT at h; omega

theorem mbstat_notMem {m : Nat} {ms : List Nat} (h : m ∉ ms) : IRQ_MBSTAT m ∉ ms.map IRQ_MBSTAT := fun hin => by
  obtain ⟨k, hk, heq⟩ := List.mem_map.mp hin
  exact h (mbstat_inj heq ▸ hk)

/-- What a mailbox shows that was aborted. -/
theorem noticed_shows (s : State) (m sender : Nat) :
    (noticed s m sender).fld (IRQ_MBSTAT_SENDER m) = sender % 64 ∧ (noticed s m sender).flag (IRQ_MBSTAT_ABORTED m) = true ∧
    (noticed s m sender).mbFull m = s.mbFull m := by
  refine ⟨?_, flag_event_same _ (by simp) (by simp), ?_⟩
  · rw [noticed, fld_event_disjoint _ (by simp) (by simp) (by simp) (by simp) (by simp), fld_setFld_self _ _ (by simp) (by simp)]
    rfl
  · rw [State.mbFull, State.flag, noticed, fld_event_disjoint _ (by simp) (by simp) (by simp) (by simp) (by simp),
      fld_setFld_disjoint _ _ (by simp) (by simp) (by simp) (by simp) (by simp), State.mbFull, State.flag]

theorem abortNotices_shows (sender : Nat → Nat) {ms : List Nat} {m : Nat} (hm : m ∈ ms) (s : State) :
    (abortNotices (notices sender ms) s).fld (IRQ_MBSTAT_SENDER m) = sender m % 64 ∧
    (abortNotices (notices sender ms) s).flag (IRQ_MBSTAT_ABORTED m) = true ∧
    (abortNotices (notices sender ms) s).mbFull m = s.mbFull m := by
  induction ms generalizing s with
  | nil => simp at hm
  | cons k r ih =>
    rw [abortNotices_cons]
    by_cases hr : m ∈ r
    · obtain ⟨hsender, haborted, hfull⟩ := ih hr (noticed s k (sender k))
      refine ⟨hsender, haborted, hfull.trans ?_⟩
      by_cases hk : m = k
      · rw [hk]
        exact (noticed_shows s k (sender k)).2.2
      · exact (onlyRegs_noticed s k (sender k)).flag (by simpa using fun h => hk (mbstat_inj h))
    · obtain rfl : m = k := by simpa [hr] using hm
      have honly := onlyRegs_notices sender r (noticed s m (sender m))
      obtain ⟨hsender, haborted, hfull⟩ := noticed_shows s m (sender m)
      exact ⟨(honly.fld (mbstat_notMem hr)).trans hsender, (honly.flag (mbstat_notMem hr)).trans haborted,
        (honly.flag (mbstat_notMem hr)).trans hfull⟩

/-! ### A reset of all domains (R428, R431) -/

/-- All domains are reset; straps and the reference time stand, and the cause is shown. -/
def State.wideBase (s : State) (cause : Nat) : State :=
  let t := allReset s
  (showStraps { t with
    cycle := s.cycle
    rst := { t.rst with strapBoot := s.rst.strapBoot, strapClk := s.rst.strapClk, strapMst := s.rst.strapMst, plan := wideSteps }
    flt := { t.flt with supplyOut := s.flt.supplyOut, temp := s.flt.temp, refclkBad := s.flt.refclkBad } }).setFld RST_CAUSE_CAUSE cause

theorem wideReset_eq {s : State} (hup : s.up 0 = true) (cause : Nat) :
    wideReset s cause = abortNotices s.fullBoxes (s.wideBase cause) := by
  rw [wideReset, if_neg (by simp [hup])]
  rfl

theorem onlyRegs_showStraps (s : State) : OnlyRegs [GBL_STRAP] s (showStraps s) :=
  (((OnlyRegs.refl _ s).setFld (by simp) _).setFld (by simp) _).setFld (by simp) _

/-- No register has been written but GBL_STRAP and RST_CAUSE. -/
theorem rd_wideBase (s : State) (cause : Nat) {o : Nat} (hstrap : o ≠ GBL_STRAP) (hcause : o ≠ RST_CAUSE) :
    (s.wideBase cause).rd o = resetWord o := by
  rw [State.wideBase, State.setFld, State.rd_wr_other _ _ _ _ hcause, (onlyRegs_showStraps _).2 o (by simpa using hstrap)]
  rfl

theorem up_of_resetWord {s : State} {d : Nat} (hd : d < 96) (h : ∀ w, w < 3 → s.rd (RST_PDSTAT w) = resetWord (RST_PDSTAT w)) :
    s.up d = decide (d = 0) := by
  rw [State.up, h _ (by omega)]
  exact (by decide +kernel : ∀ d, d < 96 → bit (resetWord (RST_PDSTAT (d / 32))).toNat (d % 32) = decide (d = 0)) d hd

/-- `t` is as a reset of all domains leaves `s`. -/
def WideReset (s : State) (cause : Nat) (t : State) : Prop :=
  (∀ d, d < 96 → t.up d = decide (d = 0)) ∧ t.fld RST_CAUSE_CAUSE = cause ∧ t.rst.plan = wideSteps ∧ t.cycle = s.cycle ∧
  t.rst.strapBoot = s.rst.strapBoot ∧ t.rst.strapClk = s.rst.strapClk ∧ t.rst.strapMst = s.rst.strapMst ∧
  t.img.store = s.img.store ∧ t.sram = [] ∧ t.dram.mem = [] ∧ t.sep.mem = [] ∧
  (∀ o, domOf o ≠ 0 → (∀ m, m < 512 → o ≠ IRQ_MBSTAT m) → t.rd o = resetWord o) ∧
  (∀ m, m < 512 → (s.mbFull m = false → t.rd (IRQ_MBSTAT m) = resetWord (IRQ_MBSTAT m)) ∧
    (s.mbFull m = true → t.mbFull m = false ∧ t.flag (IRQ_MBSTAT_ABORTED m) = true ∧
      t.fld (IRQ_MBSTAT_SENDER m) = s.fld (IRQ_MBSTAT_SENDER m)))

theorem WideReset.written {s t : State} {cause : Nat} (h : WideReset s cause t) : WideReset s cause t.written := h

/-- What has no registers in it of a state that has been reset. -/
theorem wideBase_rest (s : State) (cause : Nat) :
    (s.wideBase cause).rst.plan = wideSteps ∧ (s.wideBase cause).cycle = s.cycle ∧
    (s.wideBase cause).rst.strapBoot = s.rst.strapBoot ∧ (s.wideBase cause).rst.strapClk = s.rst.strapClk ∧
    (s.wideBase cause).rst.strapMst = s.rst.strapMst ∧ (s.wideBase cause).img.store = s.img.store ∧
    (s.wideBase cause).sram = [] ∧ (s.wideBase cause).dram.mem = [] ∧ (s.wideBase cause).sep.mem = [] :=
  ⟨rfl, rfl, rfl, rfl, rfl, rfl, rfl, rfl, rfl⟩

theorem mbFull_reset : ∀ m, m < 512 → State.reset.mbFull m = false := by decide +kernel

theorem OnlyRegs.beside {offs : List Nat} {u t : State} (h : OnlyRegs offs u t) :
    t.rst = u.rst ∧ t.cycle = u.cycle ∧ t.img = u.img ∧ t.sram = u.sram ∧ t.dram = u.dram ∧ t.sep = u.sep := by
  rw [h.1]
  exact ⟨rfl, rfl, rfl, rfl, rfl, rfl⟩

theorem wideReset_spec {s : State} (hup : s.up 0 = true) {cause : Nat} (hc : cause < 16) : WideReset s cause (wideReset s cause) := by
  have honly := onlyRegs_notices (fun m => s.fld (IRQ_MBSTAT_SENDER m)) ((List.range 512).filter s.mbFull) (s.wideBase cause)
  have hshows := fun m (hm : m ∈ (List.range 512).filter s.mbFull) =>
    abortNotices_shows (fun m => s.fld (IRQ_MBSTAT_SENDER m)) hm (s.wideBase cause)
  rw [wideReset_eq hup, fullBoxes_eq]
  generalize abortNotices _ (s.wideBase cause) = t at honly hshows ⊢
  obtain ⟨hplan, hcycle, hboot, hclk, hmst, hstore, hsram, hdram, hsep⟩ := wideBase_rest s cause
  obtain ⟨hrst, hcyc, himg, hsramt, hdramt, hsept⟩ := honly.beside
  have hfar {o : Nat} (ho : ∀ m, m < 512 → o ≠ IRQ_MBSTAT m) : o ∉ ((List.range 512).filter s.mbFull).map IRQ_MBSTAT := fun hin => by
    obtain ⟨m, hm, rfl⟩ := List.mem_map.mp hin
    exact ho m (List.mem_range.mp (List.mem_of_mem_filter hm)) rfl
  have hrd (o : Nat) (ho : ∀ m, m < 512 → o ≠ IRQ_MBSTAT m) (hstrap : o ≠ GBL_STRAP) (hcause : o ≠ RST_CAUSE) : t.rd o = resetWord o :=
    (honly.2 o (hfar ho)).trans (rd_wideBase s cause hstrap hcause)
  refine ⟨fun d hd => up_of_resetWord hd fun w hw => hrd _ (fun m hm => ?_) ?_ ?_, ?_, ?_, ?_, ?_, ?_, ?_, ?_, ?_, ?_, ?_, fun o ho hm => ?_,
    fun m hm => ⟨fun hempty => ?_, fun hfull => ?_⟩⟩
  · unfold RST_PDSTAT IRQ_MBSTAT; omega
  · unfold RST_PDSTAT GBL_STRAP; omega
  · unfold RST_PDSTAT RST_CAUSE; omega
  · rw [honly.fld (f := RST_CAUSE_CAUSE) (hfar fun m hm => by unfold RST_CAUSE_CAUSE RST_CAUSE IRQ_MBSTAT; simp only; omega),
      State.wideBase, fld_setFld_self _ _ (by simp) (by simp)]
    exact Nat.mod_eq_of_lt hc
  · rw [hrst]; exact hplan
  · rw [hcyc]; exact hcycle
  · rw [hrst]; exact hboot
  · rw [hrst]; exact hclk
  · rw [hrst]; exact hmst
  · rw [himg]; exact hstore
  · rw [hsramt]; exact hsram
  · rw [hdramt]; exact hdram
  · rw [hsept]; exact hsep
  · exact hrd o hm (fun h => ho (h ▸ by decide)) (fun h => ho (h ▸ by decide))
  · have hnot : m ∉ (List.range 512).filter s.mbFull := by simp [hempty]
    exact (honly.2 _ (mbstat_notMem hnot)).trans (rd_wideBase s cause (by unfold IRQ_MBSTAT GBL_STRAP; omega) (by unfold IRQ_MBSTAT RST_CAUSE; omega))
  · obtain ⟨hsender, haborted, hstill⟩ := hshows m (List.mem_filter.mpr ⟨List.mem_range.mpr hm, hfull⟩)
    refine ⟨hstill.trans ?_, haborted, hsender.trans (Nat.mod_eq_of_lt (wField_lt (s.rd (IRQ_MBSTAT m)) 5 0))⟩
    refine Eq.trans ?_ (mbFull_reset m hm)
    rw [State.mbFull, State.flag, State.fld,
      rd_wideBase s cause (by unfold IRQ_MBSTAT_FULL IRQ_MBSTAT GBL_STRAP; simp only; omega) (by unfold IRQ_MBSTAT_FULL IRQ_MBSTAT RST_CAUSE; simp only; omega)]
    rfl

/-! ### Supply loss and power-on (R423, R428, R431) -/

/-- What a supply that fell below its threshold leaves. -/
def lost (s : State) : State := { allReset s with cycle := s.cycle, rst := s.rst }

theorem supplyLoss_eq {s : State} {rail : Nat} (h : rail < 3) : supplyLoss s rail = setUp (lost s) 0 false := by
  rw [supplyLoss, if_pos h]
  rfl

theorem up_supplyLoss {s : State} {rail d : Nat} (h : rail < 3) (hd : d < 96) : (supplyLoss s rail).up d = false := by
  rw [supplyLoss_eq h, up_setUp]
  split
  next => rfl
  next hne =>
    rw [up_of_resetWord hd fun _ _ => rfl]
    exact decide_eq_false hne

theorem supplyLoss_rest (s : State) {rail : Nat} (h : rail < 3) :
    (supplyLoss s rail).img.store = s.img.store ∧ (supplyLoss s rail).sram = [] ∧ (supplyLoss s rail).dram.mem = [] := by
  rw [supplyLoss_eq h]
  exact ⟨rfl, rfl, rfl⟩

/-- What is powered on, before it shows its straps. -/
def powered (s : State) (straps : Nat) : State :=
  let t := allReset s
  { t with rst := { t.rst with strapBoot := bitsOf straps 4 3, strapClk := bitsOf straps 2 1, strapMst := bitsOf straps 0 0, plan := wideSteps } }

theorem powerOn_eq (s : State) (straps : Nat) : powerOn s straps = (showStraps (powered s straps)).setFld RST_CAUSE_CAUSE 1 := rfl

theorem showStraps_shows (s : State) :
    (showStraps s).fld GBL_STRAP_BOOT = s.rst.strapBoot % 4 ∧ (showStraps s).fld GBL_STRAP_CLK = s.rst.strapClk % 4 ∧
    (showStraps s).fld GBL_STRAP_MST = s.rst.strapMst % 2 := by
  simp [showStraps]

theorem bitsOf_straps (k : BitVec 5) :
    bitsOf k.toNat 4 3 = k.toNat / 8 ∧ bitsOf k.toNat 2 1 = k.toNat / 2 % 4 ∧ bitsOf k.toNat 0 0 = k.toNat % 2 := by
  have hk := k.isLt
  simp only [bitsOf, Nat.shiftRight_eq_div_pow]
  omega

theorem powerOn_spec (s : State) (k : BitVec 5) :
    (powerOn s k.toNat).rst.strapBoot = k.toNat / 8 ∧ (powerOn s k.toNat).rst.strapClk = k.toNat / 2 % 4 ∧
    (powerOn s k.toNat).rst.strapMst = k.toNat % 2 ∧ (powerOn s k.toNat).fld GBL_STRAP_BOOT = k.toNat / 8 ∧
    (powerOn s k.toNat).fld GBL_STRAP_CLK = k.toNat / 2 % 4 ∧ (powerOn s k.toNat).fld GBL_STRAP_MST = k.toNat % 2 ∧
    (powerOn s k.toNat).fld RST_CAUSE_CAUSE = 1 ∧ (powerOn s k.toNat).cycle = 0 ∧ (powerOn s k.toNat).img.store = s.img.store ∧
    (powerOn s k.toNat).rst.plan = wideSteps := by
  have hk := k.isLt
  obtain ⟨hboot, hclk, hmst⟩ := bitsOf_straps k
  have hstraps : (powered s k.toNat).rst.strapBoot = k.toNat / 8 ∧ (powered s k.toNat).rst.strapClk = k.toNat / 2 % 4 ∧
      (powered s k.toNat).rst.strapMst = k.toNat % 2 := ⟨hboot, hclk, hmst⟩
  have hrest : (powered s k.toNat).cycle = 0 ∧ (powered s k.toNat).img.store = s.img.store ∧ (powered s k.toNat).rst.plan = wideSteps :=
    ⟨rfl, rfl, rfl⟩
  rw [powerOn_eq]
  generalize powered s k.toNat = t at hstraps hrest ⊢
  obtain ⟨hb, hc, hm⟩ := hstraps
  obtain ⟨hsb, hsc, hsm⟩ := showStraps_shows t
  have hrst : (showStraps t).rst = t.rst := rfl
  have hkept (f : Fld) (hlo : f.lo ≤ f.hi) (hhi : f.hi < 32) (hf : f.off = GBL_STRAP) :
      ((showStraps t).setFld RST_CAUSE_CAUSE 1).fld f = (showStraps t).fld f :=
    fld_setFld_disjoint _ _ (by simp) (by simp) hlo hhi (.inl (by rw [hf]; decide))
  refine ⟨hb, hc, hm, ?_, ?_, ?_, fld_setFld_self _ _ (by simp) (by simp), hrest⟩
  · rw [hkept _ (by simp) (by simp) rfl, hsb, hb]
    omega
  · rw [hkept _ (by simp) (by simp) rfl, hsc, hc]
    omega
  · rw [hkept _ (by simp) (by simp) rfl, hsm, hm]
    omega

/-! ### The obligation -/

theorem rstCmd_wrong {s : State} {code : Nat} (h : code ≠ 0xA5C3) (op : Nat) : rstCmd s code op = s.event RST_STAT_CMDERR := if_pos h

theorem toNat_ne_resetCode {code : BitVec 16} (h : code ≠ 0xA5C3) : code.toNat ≠ 0xA5C3 := fun e => h (BitVec.eq_of_toNat_eq e)

theorem toNat_resetCode : (0xA5C3 : BitVec 16).toNat = 0xA5C3 := by decide

theorem rstCmd_device (s : State) : rstCmd s (0xA5C3 : BitVec 16).toNat 1 = wideReset s 4 := by
  rw [toNat_resetCode, rstCmd, if_neg (by simp)]

theorem rstCmd_restart (s : State) : rstCmd s (0xA5C3 : BitVec 16).toNat 2 = narrowReset s 5 := by
  rw [toNat_resetCode, rstCmd, if_neg (by simp)]

theorem wdStageEnd_last {s : State} (hrun : s.flag FLT_WDCFG_EN = true) (hlast : s.fld FLT_WDSTAT_STAGE ≠ 0) :
    wdStageEnd s = wideReset s 3 := by
  simp only [wdStageEnd, hrun, Bool.not_true, Bool.false_eq_true, if_false, if_neg hlast]

/-- Settles O57. -/
theorem resets : Obligations.Resets := by
  refine ⟨⟨fun s hup => ⟨?_, fun who hs => ?_, fun hen hstage => ?_⟩, fun who code s hs hcode => ⟨?_, ?_⟩, fun who s hs hup => ?_, fun rail s => ?_⟩,
    fun k s => ⟨_, rfl, powerOn_spec s.eventCycle k⟩⟩
  · exact ⟨_, rfl, wideReset_spec (s := s.eventCycle) hup (by decide)⟩
  · refine ⟨_, congrArg Host.Outcome.next (writeAct_served (hs.accessCycle who)), ?_⟩
    obtain ⟨cyc, hcyc⟩ := accessCycle_eq_with_cyc s who
    rw [hcyc, rstCmd_device]
    exact (wideReset_spec (s := { s with cyc := cyc }) hup (cause := 4) (by decide)).written
  · exact ⟨_, congrArg Host.Outcome.next (wdStageEnd_last (s := s.eventCycle) hen hstage), wideReset_spec (s := s.eventCycle) hup (by decide)⟩
  · exact completesIn_served rfl rfl hs fun cyc => congrArg State.written (rstCmd_wrong (toNat_ne_resetCode hcode) _)
  · exact completesIn_served rfl rfl hs fun cyc => congrArg State.written (rstCmd_wrong (toNat_ne_resetCode hcode) _)
  · refine completesIn_served rfl rfl hs fun cyc => ?_
    rw [rstCmd_restart]
    obtain ⟨hups, -, hcycle, hcause, hstate, hsram, -⟩ := narrowReset_spec (s := { s with cyc := cyc }) hup (cause := 5) (by decide)
    refine ⟨fun d hlo hhi => ?_, fun d hd => ?_, hcause, hstate, hsram, hcycle⟩
    · refine (hups d (by omega)).trans ?_
      simp [mem_narrowList, hlo, Nat.lt_succ_of_le hhi]
    · refine (hups d (by omega)).trans ?_
      have hnot : ¬ (5 ≤ d ∧ d < 96) := by omega
      simp only [List.contains_eq_mem, mem_narrowList, hnot, decide_false, Bool.not_false, Bool.and_true]
  · exact ⟨_, rfl, fun d hd => up_supplyLoss rail.isLt hd, supplyLoss_rest s.eventCycle rail.isLt⟩

end Sys2Proof.Machine
end

section
/-! SUPPORT. Mordant's fault word, its first source and the safe state (O59). -/
namespace Sys2Proof.Machine
open Reg

/-! ### Records of the journal leave Mordant's registers -/

theorem onlyRegs_putRecord (s : State) (rtype : Nat) (payload : List Nat) :
    OnlyRegs [IMG_JSTAT] { s with img := (putRecord s rtype payload).img } (putRecord s rtype payload) := by
  unfold putRecord
  exact (OnlyRegs.refl _ _).setFld (f := IMG_JSTAT_RSEQ) (by simp) _

/-- `t` is `s` but for IMG and its register IMG_JSTAT. -/
def Recorded (s t : State) : Prop := OnlyRegs [IMG_JSTAT] { s with img := t.img } t

theorem Recorded.refl (s : State) : Recorded s s := OnlyRegs.refl _ _

theorem Recorded.trans {s t u : State} (h : Recorded s t) (h' : Recorded t u) : Recorded s u := by
  obtain ⟨hrest, hregs⟩ := h
  obtain ⟨hrest', hregs'⟩ := h'
  exact ⟨by rw [hrest', hrest], fun o ho => (hregs' o ho).trans (hregs o ho)⟩

theorem recorded_journalAppend (s : State) (rtype : Nat) (payload : List Nat) : Recorded s (journalAppend s rtype payload) := by
  unfold journalAppend
  split
  · exact .refl s
  · refine Recorded.trans ?_ (onlyRegs_putRecord _ _ _)
    split
    · exact List.foldlRecOn (motive := Recorded s) _ _ (.refl s) fun t ht p _ => ht.trans (onlyRegs_putRecord t p.1 p.2)
    · exact .refl s

theorem recorded_faultRecord (s : State) : Recorded s (faultRecord s) := recorded_journalAppend _ _ _

theorem Recorded.fld {s t : State} (h : Recorded s t) {f : Fld} (hf : f.off ≠ IMG_JSTAT) : t.fld f = s.fld f :=
  OnlyRegs.fld h (by simpa using hf)

theorem Recorded.flag {s t : State} (h : Recorded s t) {f : Fld} (hf : f.off ≠ IMG_JSTAT) : t.flag f = s.flag f :=
  OnlyRegs.flag h (by simpa using hf)

theorem Recorded.flt {s t : State} (h : Recorded s t) : t.flt = s.flt := by rw [h.1]

/-! ### Entry into the safe state (R453) -/

/-- The registers of an entry into the safe state. -/
def safeShown (s : State) (cause fbit : Nat) : State :=
  (((withBlanks s.pairList (fun s => s.setFld FLT_SAFE_SAFE 1) s).setFld FLT_SAFE_EXITPEND 0).setFld FLT_SAFE_CAUSE cause).setFld
    FLT_SAFE_BIT (if cause = 1 then fbit else 0)

/-- Blanking windows are no concern of the registers, of FLT, of the time. -/
theorem withBlanks_keeps (ms : List Nat) (f : State → State) (s : State) :
    (withBlanks ms f s).flt = (f s).flt ∧ (withBlanks ms f s).cycle = (f s).cycle ∧ ∀ g, (withBlanks ms f s).fld g = (f s).fld g := by
  obtain ⟨b, hb⟩ := withBlanks_eq_with_blank ms f s
  rw [hb]
  exact ⟨rfl, rfl, fun _ => rfl⟩

theorem flt_safeShown (s : State) (cause fbit : Nat) : (safeShown s cause fbit).flt = s.flt := by
  rw [safeShown, State.setFld_flt, State.setFld_flt, State.setFld_flt, (withBlanks_keeps _ _ _).1, State.setFld_flt]

theorem cycle_safeShown (s : State) (cause fbit : Nat) : (safeShown s cause fbit).cycle = s.cycle := by
  rw [safeShown, State.setFld_cycle, State.setFld_cycle, State.setFld_cycle, (withBlanks_keeps _ _ _).2.1, State.setFld_cycle]

theorem safeShown_shows (s : State) {cause : Nat} (hc : cause < 16) (fbit : Nat) :
    (safeShown s cause fbit).safe = true ∧ (safeShown s cause fbit).fld FLT_SAFE_CAUSE = cause ∧
    (safeShown s cause fbit).flag FLT_SAFE_EXITPEND = false := by
  have hset : (withBlanks s.pairList (fun s => s.setFld FLT_SAFE_SAFE 1) s).fld FLT_SAFE_SAFE = 1 := by
    rw [(withBlanks_keeps _ _ _).2.2]
    exact fld_setFld_self s (f := FLT_SAFE_SAFE) 1 (by simp) (by simp)
  unfold safeShown
  generalize withBlanks s.pairList (fun s => s.setFld FLT_SAFE_SAFE 1) s = t at hset ⊢
  refine ⟨?_, ?_, ?_⟩
  · simp [State.safe, State.flag, hset]
  · simp [Nat.mod_eq_of_lt hc]
  · simp [State.flag]

/-- The entry falls in this cycle. -/
def entered (s : State) (f : FltState) : State := { s with flt := f, cyc := { s.cyc with safeNow := true } }

theorem fld_entered (s : State) (f : FltState) (g : Fld) : (entered s f).fld g = s.fld g := rfl

theorem flag_entered (s : State) (f : FltState) (g : Fld) : (entered s f).flag g = s.flag g := rfl

theorem safeEnter_enters {s : State} (h : s.safe = false) (cause fbit : Nat) :
    safeEnter s cause fbit = faultRecord (entered (safeShown s cause fbit) { s.flt with safeStart := s.cycle, exitOrbit := none }) := by
  have heq : safeEnter s cause fbit = faultRecord (entered (safeShown s cause fbit)
      { (safeShown s cause fbit).flt with safeStart := (safeShown s cause fbit).cycle, exitOrbit := none }) := by
    simp only [safeEnter, h, Bool.false_eq_true, if_false]
    rfl
  rw [heq, flt_safeShown, cycle_safeShown]

theorem safeEnter_shows {s : State} (h : s.safe = false) {cause : Nat} (hc : cause < 16) (fbit : Nat) :
    (safeEnter s cause fbit).safe = true ∧ (safeEnter s cause fbit).fld FLT_SAFE_CAUSE = cause ∧
    (safeEnter s cause fbit).flag FLT_SAFE_EXITPEND = false ∧
    (safeEnter s cause fbit).flt = { s.flt with safeStart := s.cycle, exitOrbit := none } := by
  obtain ⟨hsafe, hcause, hpend⟩ := safeShown_shows s hc fbit
  have hrec := recorded_faultRecord (entered (safeShown s cause fbit) { s.flt with safeStart := s.cycle, exitOrbit := none })
  rw [safeEnter_enters h]
  refine ⟨?_, ?_, ?_, hrec.flt⟩
  · rw [State.safe, hrec.flag (by decide), flag_entered]
    exact hsafe
  · rw [hrec.fld (by decide), fld_entered, hcause]
  · rw [hrec.flag (by decide), flag_entered, hpend]

/-! ### The self-fault (R452) -/

theorem selfFault_spec {s : State} (hup : s.up 2 = true) :
    (selfFault s).flag FLT_SAFE_SELF = true ∧ (selfFault s).safe = true ∧ (selfFault s).fld FLT_SAFE_CAUSE = 2 ∧
    (selfFault s).flt.status = s.flt.status := by
  have hmain : ∃ t : State, selfFault s = (t.setFld FLT_SAFE_SELF 1).setFld FLT_SAFE_CAUSE 2 ∧ t.safe = true ∧ t.flt.status = s.flt.status := by
    by_cases hsafe : s.safe = true
    · have hrec := recorded_faultRecord (s.setFld FLT_SAFE_EXITPEND 0)
      refine ⟨faultRecord (s.setFld FLT_SAFE_EXITPEND 0), ?_, ?_, ?_⟩
      · simp only [selfFault, hup, Bool.not_true, Bool.false_eq_true, if_false, if_pos hsafe]
      · rw [State.safe, hrec.flag (by decide), State.flag, fld_setFld_disjoint _ _ (by simp) (by simp) (by simp) (by simp) (by simp)]
        exact hsafe
      · rw [hrec.flt, State.setFld_flt]
    · have hout : s.safe = false := Bool.eq_false_of_not_eq_true hsafe
      obtain ⟨hin, -, -, hflt⟩ := safeEnter_shows hout (cause := 2) (by decide) 0
      refine ⟨safeEnter s 2 0, ?_, hin, by rw [hflt]⟩
      simp only [selfFault, hup, Bool.not_true, Bool.false_eq_true, if_false, if_neg hsafe]
  obtain ⟨t, heq, hsafe, hstatus⟩ := hmain
  rw [heq]
  refine ⟨?_, ?_, ?_, ?_⟩
  · simp [State.flag]
  · rw [State.safe, State.flag, fld_setFld_disjoint _ _ (by simp) (by simp) (by simp) (by simp) (by simp),
      fld_setFld_disjoint _ _ (by simp) (by simp) (by simp) (by simp) (by simp)]
    exact hsafe
  · simp
  · rw [State.setFld_flt, State.setFld_flt, hstatus]

/-! ### Writes of FLT_CTL (R451, R453, R455) -/

/-- The words of the three commands. -/
theorem enterWord_bits {code : Nat} (hc : code < 65536) (x : Bool) :
    let w := bitsWord [(31, 16, code), (1, 1, b2n x), (0, 0, 1)]
    wField w 31 16 = code ∧ w.getLsbD 2 = false ∧ w.getLsbD 0 = true ∧ w.getLsbD 1 = x := by
  have hbit (i : Nat) : (bitsWord [(31, 16, code), (1, 1, b2n x), (0, 0, 1)]).getLsbD i =
      if 0 ≤ i ∧ i ≤ 0 then Nat.testBit 1 (i - 0) else if 1 ≤ i ∧ i ≤ 1 then (b2n x).testBit (i - 1) else
      if 16 ≤ i ∧ i ≤ 31 then code.testBit (i - 16) else (0#32).getLsbD i := by
    simp (disch := decide) only [bitsWord, List.foldl, getLsbD_wSetField]
    rfl
  refine ⟨?_, hbit 2, hbit 0, (hbit 1).trans (by cases x <;> rfl)⟩
  simp [bitsWord, wField_wSetField_same, wField_wSetField_other, hc]

theorem exitWord_bits {code : Nat} (hc : code < 65536) :
    let w := bitsWord [(31, 16, code), (1, 1, 1)]
    wField w 31 16 = code ∧ w.getLsbD 2 = false ∧ w.getLsbD 0 = false ∧ w.getLsbD 1 = true := by
  have hbit (i : Nat) : (bitsWord [(31, 16, code), (1, 1, 1)]).getLsbD i =
      if 1 ≤ i ∧ i ≤ 1 then Nat.testBit 1 (i - 1) else if 16 ≤ i ∧ i ≤ 31 then code.testBit (i - 16) else (0#32).getLsbD i := by
    simp (disch := decide) only [bitsWord, List.foldl, getLsbD_wSetField]
    rfl
  refine ⟨?_, hbit 2, hbit 0, hbit 1⟩
  simp [bitsWord, wField_wSetField_same, wField_wSetField_other, hc]

/-- What forced pairs and held loops remember as the safe state is written to. -/
def State.forcedNoted (s : State) : State := if s.safe then noteHeld (noteForced s) else s

theorem fltCtl_enter (s : State) {code : Nat} (hc : code < 65536) (x : Bool) :
    fltCtl s (bitsWord [(31, 16, code), (1, 1, b2n x), (0, 0, 1)]) = safeEnterCmd s.forcedNoted code x := by
  obtain ⟨hcode, hclear, henter, hexit⟩ := enterWord_bits hc x
  simp only [fltCtl, fltCtlWrite, hcode, hclear, henter, hexit, Bool.false_eq_true, if_false, if_true]
  rfl

theorem fltCtl_exit (s : State) {code : Nat} (hc : code < 65536) :
    fltCtl s (bitsWord [(31, 16, code), (1, 1, 1)]) = safeExitCmd s.forcedNoted code := by
  obtain ⟨hcode, hclear, henter, hexit⟩ := exitWord_bits hc
  simp only [fltCtl, fltCtlWrite, hcode, hclear, henter, hexit, Bool.false_eq_true, if_false, if_true]
  rfl

theorem fltCtl_clear (s : State) : fltCtl s (bitsWord [(2, 2, 1)]) = firstClear s.forcedNoted := by
  have hbits : (bitsWord [(2, 2, 1)]).getLsbD 2 = true ∧ (bitsWord [(2, 2, 1)]).getLsbD 0 = false ∧ (bitsWord [(2, 2, 1)]).getLsbD 1 = false := by
    decide
  obtain ⟨hclear, henter, hexit⟩ := hbits
  simp only [fltCtl, fltCtlWrite, hclear, henter, hexit, Bool.false_eq_true, if_false, if_true]
  rfl

theorem forcedNoted_out {s : State} (h : s.safe = false) : s.forcedNoted = s := by simp [State.forcedNoted, h]

theorem forcedNoted_eq (s : State) : ∃ c, s.forcedNoted = { s with cvl := c } := by
  unfold State.forcedNoted
  split
  · obtain ⟨p, hp⟩ := noteForced_eq_with_pairs s
    obtain ⟨l, hl⟩ := noteHeld_eq_with_loops (noteForced s)
    exact ⟨_, by rw [hl, hp]⟩
  · exact ⟨s.cvl, rfl⟩

/-- FCLR while no line is 1 empties the first source. -/
theorem firstClear_quiet {s : State} (hself : s.flag FLT_SAFE_SELF = false) (hlines : s.cyc.lines = 0) :
    firstClear s = (s.setFld FLT_FIRST_VALID 0).setFld FLT_FIRST_OVF 0 := by
  simp [firstClear, hself, hlines]

/-! ### Clearing the fault word (R449, R483) -/

/-- Testing a shared slot changes the controllers alone. -/
theorem testShared_eq (s : State) (k sl : Nat) : testShared s k sl = { s with irq := (testShared s k sl).irq } := by
  rw [testShared]
  split <;> rfl

theorem flt_testShared (s : State) (k sl : Nat) : (testShared s k sl).flt = s.flt := by rw [testShared_eq]

theorem cyc_testShared (s : State) (k sl : Nat) : (testShared s k sl).cyc = s.cyc := by rw [testShared_eq]

theorem flt_msixRequest (s : State) (v : Nat) : (msixRequest s v).flt = s.flt := by
  unfold msixRequest
  split_ifs <;> rfl

theorem cyc_msixRequest (s : State) (v : Nat) : (msixRequest s v).cyc = s.cyc := by
  unfold msixRequest
  split_ifs <;> rfl

/-- What follows a change of a source's level is no concern of Mordant. -/
theorem edgeDev_keeps (before : Bool) (s : State) (n : Nat) : (edgeDev before s n).flt = s.flt ∧ (edgeDev before s n).cyc = s.cyc := by
  unfold edgeDev
  extract_lets now u
  have hreq : u.flt = s.flt ∧ u.cyc = s.cyc := by
    unfold u
    split
    · exact ⟨flt_msixRequest _ _, cyc_msixRequest _ _⟩
    · exact ⟨rfl, rfl⟩
  clear_value u
  split
  · exact hreq
  · split
    · exact hreq
    · rw [flt_testShared, cyc_testShared]
      exact hreq

/-- Whether a condition lasts shows in TB, REL and FLT_TLIM, and in what the monitors measure. -/
theorem lasting_congr {s t : State} (hrd : ∀ o, pathReg o = true → t.rd o = s.rd o) (hsupply : t.flt.supplyOut = s.flt.supplyOut)
    (htemp : t.flt.temp = s.flt.temp) (hrefclk : t.flt.refclkBad = s.flt.refclkBad) (b : Nat) : t.lasting b = s.lasting b := by
  have htb : t.rd TB_STAT = s.rd TB_STAT := hrd _ (by decide)
  have hrel : t.rd REL_STAT = s.rd REL_STAT := hrd _ (by decide)
  have hlim : t.rd FLT_TLIM = s.rd FLT_TLIM := hrd _ (by decide)
  have hstrap : t.flag TB_STAT_STRAPERR = s.flag TB_STAT_STRAPERR := congrArg (fun w => decide (wField w 10 10 ≠ 0)) htb
  have hfast : t.flag REL_STAT_FAST = s.flag REL_STAT_FAST := congrArg (fun w => decide (wField w 5 5 ≠ 0)) hrel
  have hstate : t.fld TB_STAT_STATE = s.fld TB_STAT_STATE := congrArg (fun w => wField w 1 0) htb
  have hhigh : t.tempHigh = s.tempHigh := by
    rw [State.tempHigh, State.fld, hlim, htemp]
    rfl
  rw [State.lasting, State.lasting, hstrap, hfast, hstate, hhigh, hsupply, hrefclk]

/-- The bit of FLT_STATUS is cleared, and what depends on its source follows. -/
def statusCleared (s : State) (b : Nat) : State :=
  withDev (256 + b) (fun s => { s with flt := { s.flt with status := s.flt.status &&& ~~~(BitVec.twoPow 64 b) } }) s

theorem statusCleared_keeps (s : State) (b : Nat) :
    (statusCleared s b).flt = { s.flt with status := s.flt.status &&& ~~~(BitVec.twoPow 64 b) } ∧ (statusCleared s b).cyc = s.cyc ∧
    ∀ k, (statusCleared s b).lasting k = s.lasting k := by
  obtain ⟨hflt, hcyc⟩ := edgeDev_keeps (s.devLevel (256 + b))
    { s with flt := { s.flt with status := s.flt.status &&& ~~~(BitVec.twoPow 64 b) } } (256 + b)
  have hfades : Fades [] { s with flt := { s.flt with status := s.flt.status &&& ~~~(BitVec.twoPow 64 b) } } (statusCleared s b) :=
    .of_logs (logs_edgeDev _ _ _) (onlyReports_edgeDev _ _ _)
  have hall : (statusCleared s b).flt = { s.flt with status := s.flt.status &&& ~~~(BitVec.twoPow 64 b) } := hflt
  exact ⟨hall, hcyc, lasting_congr hfades.rd (by rw [hall]) (by rw [hall]) (by rw [hall])⟩

/-- A bit that a W1C write names is cleared unless its line is 1. -/
def clearStep (base : Nat) (s : State) (i : Nat) : State :=
  if s.cyc.lines.getLsbD (base + i) || s.lasting (base + i) then s else statusCleared s (base + i)

theorem clearBit_getLsbD (w : BitVec 64) (k : Nat) {b : Nat} (hb : b < 64) :
    (w &&& ~~~(BitVec.twoPow 64 k)).getLsbD b = (w.getLsbD b && !decide (k = b)) := by
  rw [BitVec.getLsbD_and, BitVec.getLsbD_not, BitVec.getLsbD_twoPow, decide_eq_true hb, Bool.true_and]
  by_cases h : k = b
  · simp [h, hb]
  · simp [h]

/-- A named bit is cleared exactly where its line is 0. -/
theorem clearSteps_status (base : Nat) (l : List Nat) (s : State) {b : Nat} (hb : b < 64) :
    (l.foldl (clearStep base) s).flt.status.getLsbD b =
      (s.flt.status.getLsbD b && !(decide (∃ i ∈ l, base + i = b) && !s.cyc.lines.getLsbD b && !s.lasting b)) := by
  induction l generalizing s with
  | nil => simp
  | cons i r ih =>
    rw [List.foldl_cons, ih]
    by_cases hline : (s.cyc.lines.getLsbD (base + i) || s.lasting (base + i)) = true
    · rw [clearStep, if_pos hline]
      by_cases hib : base + i = b
      · rw [hib] at hline
        rw [Bool.and_assoc, ← Bool.not_or, hline, Bool.and_assoc, ← Bool.not_or, hline]
        simp
      · simp [hib]
    · obtain ⟨hflt, hcyc, hlasting⟩ := statusCleared_keeps s (base + i)
      rw [clearStep, if_neg hline, hcyc, hlasting, hflt, clearBit_getLsbD _ _ hb]
      by_cases hib : base + i = b
      · rw [hib, Bool.or_eq_true, not_or] at hline
        rw [Bool.eq_false_of_not_eq_true hline.1, Bool.eq_false_of_not_eq_true hline.2]
        simp [hib]
      · simp [hib]

theorem fltClear_status {s : State} (hself : s.flag FLT_SAFE_SELF = false) (hi : Bool) (m : Word) {b : Nat} (hb : b < 64) :
    (fltClear s hi m).flt.status.getLsbD b = (s.flt.status.getLsbD b &&
      !(decide (b / 32 = b2n hi) && m.getLsbD (b % 32) && !(s.cyc.lines.getLsbD b) && !(s.lasting b))) := by
  have heq : fltClear s hi m = ((List.range 32).filter fun i => m.getLsbD i && s.flt.status.getLsbD ((if hi then 32 else 0) + i)).foldl
      (clearStep (if hi then 32 else 0)) s := by
    simp only [fltClear, hself, Bool.false_eq_true, if_false]
    rfl
  rw [heq, clearSteps_status _ _ _ hb]
  cases hset : s.flt.status.getLsbD b with
  | false => simp
  | true =>
    have hmem : (∃ i ∈ (List.range 32).filter fun i => m.getLsbD i && s.flt.status.getLsbD ((if hi then 32 else 0) + i),
        (if hi then 32 else 0) + i = b) ↔ (b / 32 = b2n hi ∧ m.getLsbD (b % 32) = true) := by
      have hbase : (if hi = true then 32 else 0) = 32 * b2n hi := by cases hi <;> rfl
      rw [hbase]
      constructor
      · rintro ⟨i, hin, rfl⟩
        simp only [List.mem_filter, List.mem_range, Bool.and_eq_true] at hin
        rw [show (32 * b2n hi + i) / 32 = b2n hi by omega, show (32 * b2n hi + i) % 32 = i by omega]
        exact ⟨rfl, hin.2.1⟩
      · rintro ⟨hhalf, hbit⟩
        have hsum : 32 * b2n hi + b % 32 = b := by omega
        refine ⟨b % 32, ?_, hsum⟩
        simp only [List.mem_filter, List.mem_range, Bool.and_eq_true, hsum]
        exact ⟨by omega, hbit, hset⟩
    rw [decide_eq_decide.mpr hmem, Bool.decide_and, Bool.decide_eq_true]

/-! ### The escalation (R456) -/

theorem regs_testShared (s : State) (k sl : Nat) : (testShared s k sl).regs = s.regs := by rw [testShared_eq]

theorem rd_of_regs {s t : State} (h : t.regs = s.regs) (o : Nat) : t.rd o = s.rd o := congrArg (smGet (resetWord o) · o) h

theorem retest_keeps (s : State) : (retest s).regs = s.regs ∧ (retest s).flt = s.flt :=
  List.foldlRecOn (motive := fun t : State => t.regs = s.regs ∧ t.flt = s.flt) _ _ ⟨rfl, rfl⟩ fun t ht n _ => by
    split
    · rw [regs_testShared, flt_testShared]
      exact ht
    · exact ht

theorem lastingLines_none {s : State} (hstrap : s.flag TB_STAT_STRAPERR = false) (hfast : s.flag REL_STAT_FAST = false)
    (hsupply : s.flt.supplyOut = []) (htemp : s.tempHigh = false) (hstate : s.fld TB_STAT_STATE ≠ 3) (hclk : s.flt.refclkBad = false) :
    s.lastingLines = [] := by
  simp [State.lastingLines, State.lasting, hstrap, hfast, hsupply, htemp, hstate, hclk]

theorem lastingLines_congr {s t : State} (h : ∀ b, t.lasting b = s.lasting b) : t.lastingLines = s.lastingLines :=
  List.filter_congr fun b _ => h b

/-- The safe state ends, with no exit pending. -/
def safeOut (s : State) : State := (s.setFld FLT_SAFE_SAFE 0).setFld FLT_SAFE_EXITPEND 0

theorem safeOut_shows (s : State) :
    (safeOut s).safe = false ∧ (safeOut s).flag FLT_SAFE_EXITPEND = false ∧ (safeOut s).flt = s.flt ∧
    ∀ o, o ≠ FLT_SAFE → (safeOut s).rd o = s.rd o := by
  refine ⟨?_, ?_, by rw [safeOut, State.setFld_flt, State.setFld_flt], fun o ho => ?_⟩
  · simp [safeOut, State.safe, State.flag]
  · simp [safeOut, State.flag]
  · exact (((OnlyRegs.refl [FLT_SAFE] s).setFld (f := FLT_SAFE_SAFE) (by simp) 0).setFld (f := FLT_SAFE_EXITPEND) (by simp) 0).2 o (by simpa using ho)

/-- FLT_STATUS is 0 and no exit is under way. -/
def faultless (s : State) : State := retest { s with flt := { s.flt with status := 0, exitOrbit := none } }

theorem faultless_shows (s : State) :
    (faultless s).flt = { s.flt with status := 0, exitOrbit := none } ∧ ∀ o, (faultless s).rd o = s.rd o := by
  obtain ⟨hregs, hflt⟩ := retest_keeps { s with flt := { s.flt with status := 0, exitOrbit := none } }
  exact ⟨hflt, fun o => rd_of_regs (t := faultless s) hregs o⟩

/-- What the escalation makes of the state that its reset leaves. -/
def escalateRest (s : State) : State :=
  let s := (s.setFld FLT_SAFE_SAFE 0).setFld FLT_SAFE_EXITPEND 0
  relatch (retest { s with flt := { s.flt with status := 0, exitOrbit := none } })

theorem escalate_def (s : State) : escalate s =
    if s.safe && !(s.flag FLT_SAFE_SELF) && decide (s.fld FLT_ESCTO_MS ≠ 0) then escalateRest (narrowReset s 6) else s := rfl

theorem escalateRest_eq (s : State) : escalateRest s = relatch (faultless (safeOut s)) := rfl

theorem escalate_eq {s : State} (hsafe : s.safe = true) (hself : s.flag FLT_SAFE_SELF = false) (hms : s.fld FLT_ESCTO_MS ≠ 0) :
    escalate s = relatch (faultless (safeOut (narrowReset s 6))) := by
  rw [escalate_def, if_pos (by simp [hsafe, hself, hms]), escalateRest_eq]

/-- The state after the escalation's reset, before what lasts sets its bits again. -/
theorem escalated_shows {s t : State} (hups : ∀ e, e < 96 → t.up e = (s.up e && !narrowList.contains e))
    (hrd : ∀ o, pathReg o = true → t.rd o = s.rd o) (hcause : t.fld RST_CAUSE_CAUSE = 6)
    (hflt : ∃ st f x e, t.flt = { s.flt with status := st, firstT := f, safeStart := x, exitOrbit := e }) :
    (faultless (safeOut t)).safe = false ∧ (faultless (safeOut t)).flt.status = 0 ∧ (faultless (safeOut t)).fld RST_CAUSE_CAUSE = 6 ∧
    (∀ d, 5 ≤ d → d ≤ 95 → (faultless (safeOut t)).up d = false) ∧ (∀ b, (faultless (safeOut t)).lasting b = s.lasting b) := by
  obtain ⟨hout, -, houtf, houtrd⟩ := safeOut_shows t
  generalize safeOut t = u at hout houtf houtrd ⊢
  obtain ⟨hf, hr⟩ := faultless_shows u
  generalize faultless u = v at hf hr ⊢
  obtain ⟨st, f, x, e, hflt⟩ := hflt
  have hfld (g : Fld) : v.fld g = u.fld g := by rw [State.fld, hr, State.fld]
  refine ⟨?_, by rw [hf], ?_, fun d hlo hhi => ?_, lasting_congr (fun o ho => ?_) ?_ ?_ ?_⟩
  · rw [State.safe, State.flag, hfld]
    exact hout
  · rw [hfld, State.fld, houtrd _ (by decide)]
    exact hcause
  · refine (up_congr ((hr _).trans (houtrd _ ?_))).trans ((hups d (by omega)).trans ?_)
    · unfold RST_PDSTAT FLT_SAFE; omega
    · simp [mem_narrowList, hlo, Nat.lt_succ_of_le hhi]
  · rw [hr, houtrd _ (fun heq => by rw [heq] at ho; exact absurd ho (by decide)), hrd o ho]
  all_goals rw [hf, houtf, hflt]

theorem relatch_nothing {s : State} (h : s.lastingLines = []) : relatch s = s := by
  rw [relatch, h, List.foldl_nil]

theorem escalate_spec {s : State} (hup : s.up 4 = true) (hsafe : s.safe = true) (hself : s.flag FLT_SAFE_SELF = false)
    (hms : s.fld FLT_ESCTO_MS ≠ 0) (hnone : s.lastingLines = []) :
    (escalate s).safe = false ∧ (escalate s).flt.status = 0 ∧ (escalate s).fld RST_CAUSE_CAUSE = 6 ∧
    ∀ d, 5 ≤ d → d ≤ 95 → (escalate s).up d = false := by
  obtain ⟨hups, hrd, -, hcause, -, -, hflt⟩ := narrowReset_spec hup (cause := 6) (by decide)
  obtain ⟨hout, hstatus, hshown, hdown, hlasting⟩ := escalated_shows hups hrd hcause hflt
  rw [escalate_eq hsafe hself hms, relatch_nothing ((lastingLines_congr hlasting).trans hnone)]
  exact ⟨hout, hstatus, hshown, hdown⟩

/-! ### The commands of the safe state (R453, R455) -/

theorem enterCmd_code (s : State) (x : Bool) :
    safeEnterCmd s 0xA5C3 x = if x then (safeEnter s 3 0).event FLT_SAFE_CMDERR else safeEnter s 3 0 := if_pos rfl

theorem enterCmd_right (s : State) : safeEnterCmd s (0xA5C3 : BitVec 16).toNat false = safeEnter s 3 0 := by
  rw [toNat_resetCode, enterCmd_code, if_neg Bool.false_ne_true]

theorem enterCmd_wrong {s : State} {code : Nat} (h : code ≠ 0xA5C3) (x : Bool) : safeEnterCmd s code x = s.event FLT_SAFE_CMDERR := if_neg h

theorem exitCmd_wrong {s : State} {code : Nat} (h : code ≠ 0xA5C3) : safeExitCmd s code = s.event FLT_SAFE_CMDERR :=
  if_neg fun hgo => h hgo.1

theorem exitCmd_right {s : State} (h : s.safe = true ∧ s.flag FLT_SAFE_SELF = false ∧ s.maskedPending = false) :
    safeExitCmd s (0xA5C3 : BitVec 16).toNat =
      if s.fld TB_STAT_STATE < 2 then safeExit s none else s.setFld FLT_SAFE_EXITPEND 1 := by
  rw [toNat_resetCode, safeExitCmd, if_pos ⟨rfl, h⟩]

/-- An exit takes place at once. -/
def exitsNow (s : State) : State := { s with flt := { s.flt with exitOrbit := none } }

theorem flag_exitsNow (s : State) (g : Fld) : (exitsNow s).flag g = s.flag g := rfl

theorem safeExit_eq (s : State) : safeExit s none = exitsNow (safeOut s) := rfl

theorem safeExit_shows (s : State) : (safeExit s none).safe = false ∧ (safeExit s none).flag FLT_SAFE_EXITPEND = false := by
  obtain ⟨hout, hpend, -⟩ := safeOut_shows s
  rw [safeExit_eq, State.safe, flag_exitsNow, flag_exitsNow]
  exact ⟨hout, hpend⟩

/-- An exit that waits for the boundary. -/
theorem exitPending_shows (s : State) :
    (s.setFld FLT_SAFE_EXITPEND 1).safe = s.safe ∧ (s.setFld FLT_SAFE_EXITPEND 1).flag FLT_SAFE_EXITPEND = true ∧
    OnlyRegs [FLT_SAFE] s (s.setFld FLT_SAFE_EXITPEND 1) := by
  refine ⟨?_, ?_, (OnlyRegs.refl _ s).setFld (by simp) _⟩
  · simp [State.safe, State.flag]
  · simp [State.flag]

theorem safe_written (s : State) : s.written.safe = s.safe := rfl

theorem flt_written (s : State) : s.written.flt = s.flt := rfl

/-! ### The obligation -/

/-- Settles O59. -/
theorem faultWordAndSafeState : Obligations.FaultWordAndSafeState := by
  refine ⟨⟨?_, ?_, ?_⟩, ?_, ?_⟩
  · intro who hi m s hs
    refine ⟨fun hself => completesIn_served rfl rfl hs fun cyc => ?_, fun hself => completesIn_served rfl rfl hs fun cyc b hb => ?_⟩
    · exact congrArg State.written (if_pos hself)
    · exact fltClear_status (s := { s with cyc := cyc }) hself hi m hb
  · intro who s
    refine ⟨fun hs => completesIn_servedRead rfl rfl hs fun cyc => rfl, fun hs => completesIn_servedRead rfl rfl hs fun cyc => rfl,
      fun hs hsafe hself hlines => completesIn_servedAt rfl rfl hs ?_⟩
    obtain ⟨cyc, hcyc⟩ := accessCycle_eq_with_cyc s who
    rw [fltCtl_clear, forcedNoted_out (by rw [hcyc]; exact hsafe), firstClear_quiet (by rw [hcyc]; exact hself) hlines]
    refine ⟨?_, ?_, OnlyRegs.answer (((OnlyRegs.refl _ _).setFld (by simp) _).setFld (by simp) _) _ _ _⟩
    · rw [flag_written]
      simp [State.flag]
    · rw [flag_written]
      simp [State.flag]
  · exact fun s hup => ⟨_, rfl, selfFault_spec (s := s.eventCycle) hup⟩
  · intro who s hs
    refine ⟨fun hsafe => completesIn_served rfl rfl hs fun cyc => ?_, fun code hcode hsafe both =>
        ⟨completesIn_served rfl rfl hs fun cyc => ?_, completesIn_served rfl rfl hs fun cyc => ?_⟩,
      fun hsafe hself hmask htb => completesIn_served rfl rfl hs fun cyc => ?_,
      fun hsafe hself hmask htb => completesIn_served rfl rfl hs fun cyc => ?_⟩
    all_goals generalize hb : ({ s with cyc := cyc } : State) = b
    · have hout : b.safe = false := by rw [← hb]; exact hsafe
      have hcycle : b.cycle = s.cycle := by rw [← hb]
      rw [fltCtl_enter b (BitVec.isLt _) false, forcedNoted_out hout, enterCmd_right]
      obtain ⟨hin, hcause, hpend, hflt⟩ := safeEnter_shows hout (cause := 3) (by decide) 0
      exact ⟨hin, hcause, hpend, by rw [flt_written, hflt], by rw [flt_written, hflt]⟩
    · have hout : b.safe = false := by rw [← hb]; exact hsafe
      rw [fltCtl_enter b (BitVec.isLt _) both, forcedNoted_out hout, enterCmd_wrong (toNat_ne_resetCode hcode)]
    · have hout : b.safe = false := by rw [← hb]; exact hsafe
      rw [fltCtl_exit b (BitVec.isLt _), forcedNoted_out hout, exitCmd_wrong (toNat_ne_resetCode hcode)]
    · obtain ⟨c, hc⟩ := forcedNoted_eq b
      have hgo : b.forcedNoted.safe = true ∧ b.forcedNoted.flag FLT_SAFE_SELF = false ∧ b.forcedNoted.maskedPending = false := by
        rw [hc, ← hb]
        exact ⟨hsafe, hself, hmask⟩
      have hrun : ¬ b.forcedNoted.fld TB_STAT_STATE < 2 := by
        rw [hc, ← hb]
        exact Nat.not_lt.mpr htb
      rw [fltCtl_exit b (BitVec.isLt _), exitCmd_right hgo, if_neg hrun]
      obtain ⟨hstill, hpend, honly⟩ := exitPending_shows b.forcedNoted
      refine ⟨(safe_written _).trans (hstill.trans hgo.1), (flag_written ..).trans hpend, ?_⟩
      rw [hc] at honly ⊢
      exact honly.answer _ _ _
    · obtain ⟨c, hc⟩ := forcedNoted_eq b
      have hgo : b.forcedNoted.safe = true ∧ b.forcedNoted.flag FLT_SAFE_SELF = false ∧ b.forcedNoted.maskedPending = false := by
        rw [hc, ← hb]
        exact ⟨hsafe, hself, hmask⟩
      have hstopped : b.forcedNoted.fld TB_STAT_STATE < 2 := by
        rw [hc, ← hb]
        exact htb
      rw [fltCtl_exit b (BitVec.isLt _), exitCmd_right hgo, if_pos hstopped]
      obtain ⟨hout, hpend⟩ := safeExit_shows b.forcedNoted
      exact ⟨(safe_written _).trans hout, (flag_written ..).trans hpend⟩
  · intro s hup hsafe hself hms hstrap hfast hsupply htemp hstate hclk
    exact ⟨_, rfl, escalate_spec (s := s.eventCycle) hup hsafe hself hms (lastingLines_none hstrap hfast hsupply htemp hstate hclk)⟩

end Sys2Proof.Machine
end

section
/-! SUPPORT. Accesses of the Sepia cores to data memory where nothing faults: rights, loads, the store buffer, implicit accesses to the stack
(O45 to O49). -/
namespace Sys2Proof.Machine

/-! ### Where data stands (R337, R347) -/

/-- Bytes that a core has for itself alone (R337). -/
def ownData (c : Nat) : Nat := if fullCore c then 0x100000 else 0x20000

theorem ownData_le (c : Nat) : ownData c ≤ 0x100000 := by
  unfold ownData
  split <;> omega

/-- A core's own data memory lies at the bottom, that of its cluster from 0x200000 on. -/
theorem dmemKey_cases {c a key : Nat} (h : dmemKey c a = some key) :
    (a < ownData c ∧ key = 0x1000000 + c * 0x100000 + a) ∨
    (ownData c ≤ a ∧ 0x200000 ≤ a ∧ a < 0x400000 ∧ key = 0x5000000 + c / 8 * 0x200000 + (a - 0x200000)) := by
  change (if a < ownData c then _ else _) = _ at h
  split_ifs at h with hown hshared
  · exact .inl ⟨hown, (Option.some.inj h).symm⟩
  · exact .inr ⟨Nat.not_lt.1 hown, hshared.1, hshared.2, (Option.some.inj h).symm⟩

theorem dmemKey_lt {c a key : Nat} (h : dmemKey c a = some key) : a < 0x400000 := by
  have hown := ownData_le c
  rcases dmemKey_cases h with ⟨hlt, -⟩ | ⟨-, -, hlt, -⟩
  · exact Nat.lt_of_lt_of_le hlt (hown.trans (by omega))
  · exact hlt

theorem inDram_of_lt {a : Nat} (h : a < 0x40000000) : inDram a = false :=
  decide_eq_false fun hin => Nat.not_lt.2 hin.1 h

theorem inDram_of_key {c a key : Nat} (h : dmemKey c a = some key) : inDram a = false :=
  inDram_of_lt ((dmemKey_lt h).trans (by omega))

/-- Bytes that lie near to each other stand as near. -/
theorem dmemKey_add {c a key i : Nat} (h : dmemKey c a = some key) (hi : i < 0x100000) (hsome : (dmemKey c (a + i)).isSome = true) :
    dmemKey c (a + i) = some (key + i) := by
  obtain ⟨key', hkey'⟩ := Option.isSome_iff_exists.1 hsome
  rw [hkey']
  have hown := ownData_le c
  congr 1
  rcases dmemKey_cases h with ⟨hlt, hat⟩ | ⟨hout, hlo, hlt, hat⟩ <;>
    rcases dmemKey_cases hkey' with ⟨hlt', hat'⟩ | ⟨hout', hlo', hlt', hat'⟩ <;> omega

/-- Where all of an access has its rights, its bytes stand in a row. -/
theorem rightsOk_key {c a n key i : Nat} {sw : Word} (hrights : rightsOk c sw a n = true) (hkey : dmemKey c a = some key) (hi : i < n)
    (hn : n < 0x100000) : dmemKey c (a + i) = some (key + i) := by
  have hlt := dmemKey_lt hkey
  have hbyte := List.all_eq_true.1 hrights i (List.mem_range.2 hi)
  have hmod : (a + i) % 2 ^ 32 = a + i := Nat.mod_eq_of_lt (by omega)
  simp only [hmod, inDram_of_lt (by omega : a + i < 0x40000000), Bool.false_eq_true, if_false] at hbyte
  exact dmemKey_add hkey (by omega) hbyte

theorem dramAnswers_of_key {s : State} {c a n key : Nat} {sw : Word} (hrights : rightsOk c sw a n = true)
    (hkey : dmemKey c a = some key) (hn : n < 0x100000) : s.dramAnswers a n = true := by
  refine List.all_eq_true.2 fun i hi => ?_
  have hbyte := rightsOk_key hrights hkey (List.mem_range.1 hi) hn
  have hlt := dmemKey_lt hbyte
  rw [Nat.mod_eq_of_lt (by omega : a + i < 2 ^ 32), inDram_of_key hbyte]
  rfl

theorem dataCheck_passes {s : State} {c a n : Nat} {sw : Word} (hrights : rightsOk c sw a n = true) (hanswer : s.dramAnswers a n = true) :
    dataCheck s c sw a n = (s, true) := by
  simp [dataCheck, hrights, hanswer]

theorem dataCheck_refused {s : State} {c a n : Nat} {sw : Word} (hrights : rightsOk c sw a n = false) :
    dataCheck s c sw a n = (s, false) := by
  simp [dataCheck, hrights]

theorem dataCheck_of_key {s : State} {c a n key : Nat} {sw : Word} (hrights : rightsOk c sw a n = true)
    (hkey : dmemKey c a = some key) (hn : n < 0x100000) : dataCheck s c sw a n = (s, true) :=
  dataCheck_passes hrights (dramAnswers_of_key hrights hkey hn)

/-! ### Loads (R342) -/

theorem map_memByte_range (m : List Host.Cell) (k n : Nat) : ((List.range n).map fun i => memByte m (k + i)) = memBytes m k n := by
  induction n generalizing k with
  | zero => rfl
  | succ n ih =>
    rw [List.range_succ_eq_map, List.map_cons, List.map_map, memBytes, ← ih]
    simp only [Nat.add_zero, Function.comp_def, Nat.add_assoc, Nat.add_comm 1]

theorem forward_of_empty {x : Thread} (h : x.sb = []) (a n : Nat) : x.forward a n = none := by
  simp [Thread.forward, h]

/-- A load of core memory with an empty store buffer. -/
theorem dataRead_of_key {s : State} {c t a n key : Nat} (hbad : s.sep.bad = []) (hsb : (s.thr c t).sb = [])
    (hkey : dmemKey c a = some key) : dataRead s c t a n .none = (s, some (leNat (memBytes s.sep.mem key n))) := by
  simp only [dataRead, forward_of_empty hsb, dataFetch, inDram_of_key hkey, hkey, sepUpset, State.sepBad, hbad, map_memByte_range]
  simp

/-! ### The store buffer (R342) -/

/-- The thread with a store put into its buffer. -/
def Thread.push (x : Thread) (a n v : Nat) : Thread :=
  { x with sb := x.sb ++ [{ addr := a % 2 ^ 32, size := n, val := v % 256 ^ n }] }

theorem drainTo_of_short {c t n f : Nat} {s : State} (h : (s.thr c t).sb.length ≤ n) : drainTo c t n f s = s := by
  cases f with
  | zero => rfl
  | succ f => rw [drainTo, if_pos h]

theorem drainAll_of_empty {c t : Nat} {s : State} (h : (s.thr c t).sb = []) : drainAll s c t = s :=
  drainTo_of_short (by rw [h]; exact Nat.le_refl _)

theorem storePush_of_short {c t : Nat} {s : State} (h : (s.thr c t).sb.length ≤ 1) (a n v : Nat) :
    storePush s c t a n v = s.setThr c t ((s.thr c t).push a n v) := by
  rw [storePush, drainTo_of_short h]
  rfl

theorem IssuedFrom.sb {c t : Nat} {u v : State} (h : IssuedFrom c t u v) : (v.thr c t).sb = (u.thr c t).sb := by
  rw [h.1]
  rfl

theorem sb_setReg (x : Thread) (r : Nat) (v : Word) : (x.setReg r v).sb = x.sb := by
  unfold Thread.setReg
  split <;> rfl

theorem IssuedFrom.storePush {c t : Nat} {u v : State} (h : IssuedFrom c t u v) (hsb : (u.thr c t).sb.length ≤ 1) (a n w : Nat) :
    IssuedFrom c t (storePush u c t a n w) (storePush v c t a n w) := by
  rw [storePush_of_short hsb, storePush_of_short (by rw [h.sb]; exact hsb)]
  exact h.mapThr (f := fun x => x.push a n w) fun _ _ => rfl

/-! ### Implicit accesses to the stack (R352) -/

theorem IssuedFrom.window {c t : Nat} {u v : State} (h : IssuedFrom c t u v) (a n : Nat) :
    (v.thr c t).window a n = (u.thr c t).window a n := by
  rw [h.1]
  rfl

theorem IssuedFrom.dramAnswers {c t : Nat} {u v : State} (h : IssuedFrom c t u v) (a n : Nat) : v.dramAnswers a n = u.dramAnswers a n := by
  rw [h.2.2]
  rfl

/-- A check of the stack that passes. -/
theorem stackCheck_passes {u v : State} {c t n : Nat} {a : Word} (h : IssuedFrom c t u v) (hwindow : (u.thr c t).window a.toNat n = true)
    (hrights : rightsOk c (u.thr c t).sw a.toNat n = true) (hanswer : u.dramAnswers a.toNat n = true) :
    stackCheck v c t a n = (v, none) := by
  have hcheck : dataCheck v c (v.thr c t).sw a.toNat n = (v, true) :=
    dataCheck_passes (by rw [h.sw]; exact hrights) ((h.dramAnswers ..).trans hanswer)
  simp [stackCheck, h.window, hwindow, hcheck]

/-- Words that stand in a row, loaded with an empty store buffer. -/
theorem loadWords_of_keys {s : State} {c t : Nat} (hbad : s.sep.bad = []) (hsb : (s.thr c t).sb = []) {n key : Nat} {a : Word}
    {acc : List Word} (hkey : ∀ i < n, dmemKey c (a + BitVec.ofNat 32 (4 * i)).toNat = some (key + 4 * i)) :
    loadWords c t .none acc n a s =
      (s, some (acc ++ (List.range n).map fun i => BitVec.ofNat 32 (memWord s.sep.mem (key + 4 * i)))) := by
  induction n generalizing a key acc with
  | zero => simp [loadWords]
  | succ n ih =>
    have hfirst : dmemKey c a.toNat = some key := by simpa using hkey 0 (Nat.succ_pos n)
    rw [loadWords, dataRead_of_key hbad hsb hfirst]
    have hrest (i : Nat) (hi : i < n) : dmemKey c (a + 4 + BitVec.ofNat 32 (4 * i)).toNat = some (key + 4 + 4 * i) := by
      have hnext := hkey (i + 1) (by omega)
      have hsum : a + 4 + BitVec.ofNat 32 (4 * i) = a + BitVec.ofNat 32 (4 * (i + 1)) := by
        rw [Nat.mul_add, Nat.add_comm, BitVec.ofNat_add, ← BitVec.add_assoc]
        rfl
      rw [hsum, hnext]
      congr 1
      omega
    refine (ih hrest).trans ?_
    simp only [List.range_succ_eq_map, List.map_cons, List.map_map, Function.comp_def, Nat.mul_succ, Nat.mul_zero, Nat.add_zero,
      List.append_assoc, List.cons_append, List.nil_append, memWord, Nat.add_assoc, Nat.add_comm 4]

/-- The words of a block whose bytes have their rights stand in a row. -/
theorem wordKey_of_rights {c n key i : Nat} {sw a : Word} (hrights : rightsOk c sw a.toNat (4 * n) = true)
    (hkey : dmemKey c a.toNat = some key) (hn : n < 0x1000) (hi : i < n) :
    dmemKey c (a + BitVec.ofNat 32 (4 * i)).toNat = some (key + 4 * i) := by
  have hbyte := rightsOk_key hrights hkey (i := 4 * i) (by omega) (by omega)
  have hlt := dmemKey_lt hbyte
  rwa [BitVec.toNat_add, BitVec.toNat_ofNat, Nat.mod_eq_of_lt (by omega : 4 * i < 2 ^ 32), Nat.mod_eq_of_lt (by omega)]

/-! ### Instructions that end in a jump -/

theorem completes_jump {i : Instr} {s u v : State} {c t : Nat} {a : Word} (hq : Quiet s c t)
    (hexec : exec i s = .next (settleRes (takeTurn s c t) c t (.jump v a))) (h : IssuedFrom c t u v)
    (hdctl : u.dctlBit c (8 + t) = s.dctlBit c (8 + t)) (hbad : u.sep.bad = s.sep.bad) :
    Completes i s fun w => ThreadAt u w c t a none :=
  ⟨_, hexec, h.jumpTo (hdctl.trans hq.2) (hbad.trans hq.1) a⟩

end Sys2Proof.Machine
end

section
/-! SUPPORT. Branches, calls and returns of the Sepia cores (O46). -/
namespace Sys2Proof.Machine

/-! ### Branches (R367) -/

/-- An instruction that goes on at `a` and leaves all else. -/
theorem jump_completes {i : Instr} {s : State} {c t : Nat} {a : Word} (hq : Quiet s c t)
    (hexec : exec i s = .next (settleRes (takeTurn s c t) c t (.jump (s.issued c t) a))) :
    Completes i s fun w => ThreadAt s w c t a none :=
  completes_jump hq hexec (issuedFrom_issued c t hq.1) rfl rfl

theorem branch_completes {s : State} {c : Fin 32} {h : Fin 4} {cond d : Nat} {holds : Bool} (hq : Quiet s c h)
    (hi : Issues s c h (.br cond d)) (hholds : condHolds (flagsOf (s.thr c h).sw) cond = holds) :
    Completes (.opB c h) s fun t => ThreadAt s t c h
      (if holds then (s.thr c h).pc + BitVec.ofNat 32 (wrapN 32 (4 * sext 22 d)) else (s.thr c h).pc + 4) none := by
  have hv := issuedFrom_issued c.val h.val hq.1
  have hexec : exec (.opB c h) s = .next (settleRes (takeTurn s c h) c h (branchBody c h cond d (s.issued c h))) :=
    congrArg Host.Outcome.next (hi.issue_eq rfl)
  simp only [branchBody, hv.sw, hv.pc, hholds] at hexec
  cases holds with
  | true => exact jump_completes hq hexec
  | false => exact completes_done hq hi hexec hv rfl rfl rfl

/-! ### Calls (R369, R370) -/

/-- CALL and CALLR: the return address goes through the store buffer. -/
theorem call_completes {i : Instr} {s : State} {c t : Nat} {target : Thread → Word} (hq : Quiet s c t)
    (hexec : exec i s = .next (settleRes (takeTurn s c t) c t (callBody c t target (s.issued c t))))
    (htarget : ∀ x q, target (Thread.withQueue x q) = target x)
    (hsb : (s.thr c t).sb.length ≤ 1) (hwindow : (s.thr c t).window ((s.thr c t).use 15 - 4).toNat 4 = true)
    (hrights : rightsOk c (s.thr c t).sw ((s.thr c t).use 15 - 4).toNat 4 = true)
    (hanswer : s.dramAnswers ((s.thr c t).use 15 - 4).toNat 4 = true) :
    Completes i s fun w => ThreadAt (storePush (s.setG c t 15 ((s.thr c t).use 15 - 4)) c t ((s.thr c t).use 15 - 4).toNat 4
      ((s.thr c t).pc + 4).toNat) w c t (target (s.thr c t)) none := by
  have hv := issuedFrom_issued c t hq.1
  have htarget' : target ((s.issued c t).thr c t) = target (s.thr c t) := by rw [hv.1, htarget]
  simp only [callBody, hv.use, hv.pc, stackCheck_passes hv hwindow hrights hanswer, htarget'] at hexec
  have hsb' : ((s.setG c t 15 ((s.thr c t).use 15 - 4)).thr c t).sb.length ≤ 1 := by rwa [thr_setG, sb_setReg]
  refine completes_jump hq hexec ((hv.setG 15 _).storePush hsb' _ _ _) ?_ ?_ <;> rw [storePush_of_short hsb'] <;> rfl

/-- CALLM saves the return address and the registers of its mask. -/
theorem callm_next {s : State} {c : Fin 32} {h : Fin 4} {ra mask n : Nat} {a : Word} (hq : Quiet s c h)
    (hi : Issues s c h (.callm ra mask)) (hn : n = 4 * ((maskRegs mask).length + 1)) (ha : a = (s.thr c h).use 15 - BitVec.ofNat 32 n)
    (hwindow : (s.thr c h).window a.toNat n = true) (hrights : rightsOk c (s.thr c h).sw a.toNat n = true)
    (hanswer : (s.issued c h).dramAnswers a.toNat n = true) :
    exec (.opCallm c h) s = .next (jumpTo (pushWords c h a (((s.thr c h).pc + 4) :: (maskRegs mask).map (s.thr c h).use)
      ((s.issued c h).setG c h 15 a)) c h ((s.thr c h).use ra)) := by
  subst hn ha
  have hv := issuedFrom_issued c.val h.val hq.1
  have hexec : exec (.opCallm c h) s = .next (settleRes (takeTurn s c h) c h (callmBody c h ra mask (s.issued c h))) :=
    congrArg Host.Outcome.next (hi.issue_eq rfl)
  have huse : ((s.issued c h).thr c h).use = (s.thr c h).use := funext hv.use
  simp only [callmBody, hv.pc, huse, stackCheck_passes hv hwindow hrights ((hv.dramAnswers ..).symm.trans hanswer)] at hexec
  exact hexec

/-! ### Returns (R369, R370) -/

theorem ret_completes {s : State} {c : Fin 32} {h : Fin 4} {key : Nat} (hq : Quiet s c h) (hi : Issues s c h .ret)
    (hsb : (s.thr c h).sb = []) (hwindow : (s.thr c h).window ((s.thr c h).use 15).toNat 4 = true)
    (hrights : rightsOk c (s.thr c h).sw ((s.thr c h).use 15).toNat 4 = true) (hkey : dmemKey c ((s.thr c h).use 15).toNat = some key) :
    Completes (.opRet c h .none) s fun t => ThreadAt (s.setG c h 15 ((s.thr c h).use 15 + 4)) t c h
      (BitVec.ofNat 32 (memWord s.sep.mem key)) none := by
  have hv := issuedFrom_issued c.val h.val hq.1
  have hexec : exec (.opRet c h .none) s = .next (settleRes (takeTurn s c h) c h (retBody c h .none (s.issued c h))) :=
    congrArg Host.Outcome.next (hi.issue_eq rfl)
  have hread := dataRead_of_key (n := 4) (hv.bad.trans hq.1) (hv.sb.trans hsb) hkey
  simp only [retBody, hv.use, stackCheck_passes hv hwindow hrights (dramAnswers_of_key hrights hkey (by decide)), hread] at hexec
  rw [hv.mem] at hexec
  exact completes_jump hq hexec (hv.setG 15 _) rfl rfl

/-- Registers written one after the other. -/
def setGs (c t : Nat) (s : State) (l : List (Nat × Word)) : State := l.foldl (fun s p => s.setG c t p.1 p.2) s

theorem IssuedFrom.setGs {c t : Nat} {u v : State} (h : IssuedFrom c t u v) (l : List (Nat × Word)) :
    IssuedFrom c t (setGs c t u l) (setGs c t v l) := by
  induction l generalizing u v with
  | nil => exact h
  | cons p l ih => exact ih (h.setG p.1 p.2)

theorem onlyThread_setGs (c t : Nat) (s : State) (l : List (Nat × Word)) : OnlyThread c t s (setGs c t s l) := by
  induction l generalizing s with
  | nil => exact .refl ..
  | cons p l ih => exact ((OnlyThread.refl c t s).setThr _).trans (ih _)

theorem zip_words (rs : List Nat) (f : Nat → Word) :
    rs.zip (((List.range (rs.length + 1)).map f).drop 1) = rs.zipIdx.map fun p => (p.1, f (p.2 + 1)) := by
  refine List.ext_getElem (by simp) fun i hleft hright => ?_
  simp

/-- The registers that RETM restores, with their words from `key` on, where the return address stands. -/
def restored (mem : List Host.Cell) (key mask : Nat) : List (Nat × Word) :=
  (maskRegs mask).zipIdx.map fun p => (p.1, BitVec.ofNat 32 (memWord mem (key + 4 + 4 * p.2)))

/-- It makes no difference that each word is taken from the memory of the state in which its register is written. -/
theorem setGs_restored (c t : Nat) (s : State) (key mask : Nat) : setGs c t s (restored s.sep.mem key mask) =
    (maskRegs mask).zipIdx.foldl (fun s p => s.setG c t p.1 (BitVec.ofNat 32 (memWord s.sep.mem (key + 4 + 4 * p.2)))) s := by
  rw [restored]
  generalize (maskRegs mask).zipIdx = l
  generalize hmem : s.sep.mem = mem
  induction l generalizing s with
  | nil => rfl
  | cons p l ih =>
    simp only [setGs, List.map_cons, List.foldl_cons, hmem]
    exact ih (s.setG c t p.1 _) hmem

theorem restored_eq (mem : List Host.Cell) (key mask : Nat) : restored mem key mask =
    (maskRegs mask).zipIdx.map fun p => (p.1, BitVec.ofNat 32 (memWord mem (key + 4 * (p.2 + 1)))) := by
  simp only [restored, Nat.mul_succ, Nat.add_assoc, Nat.add_comm 4]

/-- RETM restores the registers that its mask names from the words behind the return address. -/
theorem retm_completes {s : State} {c : Fin 32} {h : Fin 4} {mask key n : Nat} (hq : Quiet s c h) (hi : Issues s c h (.retm mask))
    (hn : n = 4 * ((maskRegs mask).length + 1)) (hsb : (s.thr c h).sb = [])
    (hwindow : (s.thr c h).window ((s.thr c h).use 15).toNat n = true)
    (hrights : rightsOk c (s.thr c h).sw ((s.thr c h).use 15).toNat n = true) (hkey : dmemKey c ((s.thr c h).use 15).toNat = some key) :
    Completes (.opRetm c h .none) s fun t =>
      ThreadAt ((setGs c h s (restored s.sep.mem key mask)).setG c h 15 ((s.thr c h).use 15 + BitVec.ofNat 32 n)) t c h
        (BitVec.ofNat 32 (memWord s.sep.mem key)) none := by
  subst hn
  have hv := issuedFrom_issued c.val h.val hq.1
  have hlen : (maskRegs mask).length ≤ 16 := (List.length_filter_le _ _).trans (by simp)
  have hexec : exec (.opRetm c h .none) s = .next (settleRes (takeTurn s c h) c h (retmBody c h mask .none (s.issued c h))) :=
    congrArg Host.Outcome.next (hi.issue_eq rfl)
  have hwords := loadWords_of_keys (acc := []) (hv.bad.trans hq.1) (hv.sb.trans hsb)
    fun i hi => wordKey_of_rights hrights hkey (by omega) hi
  have hreturn (f : Nat → Word) : ((List.range ((maskRegs mask).length + 1)).map f).headD 0 = f 0 := by
    simp [List.range_succ_eq_map]
  simp only [retmBody, hv.use, stackCheck_passes hv hwindow hrights (dramAnswers_of_key hrights hkey (by omega)), hwords,
    List.nil_append, zip_words, hreturn] at hexec
  rw [hv.mem, ← restored_eq] at hexec
  have hrest := onlyThread_setGs c h s (restored s.sep.mem key mask)
  exact completes_jump hq hexec ((hv.setGs (restored s.sep.mem key mask)).setG 15 _) (congrArg (·.getLsbD (8 + h)) (hrest.rd _)) hrest.bad

/-- Settles O46: each instruction's row and where it goes on. -/
theorem sepiaFlow : Obligations.SepiaFlow := by
  intro c h s hq
  have hv := issuedFrom_issued c.val h.val hq.1
  refine ⟨fun p hp d hi => ?_, fun d hi => ?_, fun ra hi => ?_, fun hsb hwindow hrights hanswer => ⟨fun d hi => ?_, fun ra hi => ?_⟩,
    fun key hi => ret_completes hq hi, fun ra mask hi => ?_, fun mask key hi hsb hwindow hrights hkey => ?_, fun hi => ?_⟩
  · refine branch_completes hq hi ?_
    simp only [List.mem_cons, List.not_mem_nil, or_false] at hp
    rcases hp with rfl | rfl | rfl | rfl | rfl | rfl | rfl | rfl | rfl | rfl | rfl | rfl | rfl | rfl | rfl <;> rfl
  · have hexec : exec (.opJ c h) s = .next (settleRes (takeTurn s c h) c h (jumpBody c h d (s.issued c h))) :=
      congrArg Host.Outcome.next (hi.issue_eq rfl)
    rw [jumpBody, hv.pc] at hexec
    exact jump_completes hq hexec
  · have hexec : exec (.opJr c h) s = .next (settleRes (takeTurn s c h) c h (jumpRegBody c h ra (s.issued c h))) :=
      congrArg Host.Outcome.next (hi.issue_eq rfl)
    rw [jumpRegBody, hv.use] at hexec
    exact jump_completes hq hexec
  · exact call_completes (target := fun x => dispTo x.pc 26 d) hq (congrArg Host.Outcome.next (hi.issue_eq rfl)) (fun _ _ => rfl) hsb hwindow
      hrights hanswer
  · exact call_completes (target := fun x => x.use ra) hq (congrArg Host.Outcome.next (hi.issue_eq rfl)) (fun _ _ => rfl) hsb hwindow
      hrights hanswer
  · exact fun hwindow hrights hanswer => callm_next hq hi rfl rfl hwindow hrights hanswer
  · rw [← setGs_restored]
    exact retm_completes hq hi rfl hsb hwindow hrights hkey
  · have hexec : exec (.opIflush c h) s = .next (settleRes (takeTurn s c h) c h (iflushBody c h (s.issued c h))) :=
      congrArg Host.Outcome.next (hi.issue_eq rfl)
    rw [iflushBody, hv.pc] at hexec
    exact jump_completes hq hexec

end Sys2Proof.Machine
end

section
/-! SUPPORT. String instructions and repeat pairs of the Sepia cores (O49). -/
namespace Sys2Proof.Machine

theorem OnlyThread.dctlBit {c t : Nat} {s u : State} (h : OnlyThread c t s u) (d b : Nat) : u.dctlBit d b = s.dctlBit d b :=
  congrArg (·.getLsbD b) (h.rd _)

theorem onlyThread_setG (u : State) (c t r : Nat) (w : Word) : OnlyThread c t u (u.setG c t r w) := (OnlyThread.refl c t u).setThr _

theorem OnlyThread.setNzcv {c t : Nat} {s u : State} (h : OnlyThread c t s u) (f : Nzcv) : OnlyThread c t s (u.setNzcv c t f) := h.setThr _

/-! ### Elements (R375) -/

/-- The thread of core memory may access the `n` bytes at data address `a`, which stand at `key`. -/
def Reachable (s : State) (c t : Nat) (a : Word) (n key : Nat) : Prop :=
  rightsOk c (s.thr c t).sw a.toNat n = true ∧ dmemKey c a.toNat = some key

theorem IssuedFrom.elemCheck {u v : State} {c t n key : Nat} {a : Word} (h : IssuedFrom c t u v) (ha : Reachable u c t a n key)
    (hn : n < 0x100000) : elemCheck v c t a n = (v, true) :=
  dataCheck_of_key (by rw [h.sw]; exact ha.1) ha.2 hn

/-- A load of an element: what core memory holds at its key. -/
theorem IssuedFrom.dataRead {u v : State} {c t n key : Nat} {a : Word} (h : IssuedFrom c t u v) (hbad : u.sep.bad = [])
    (hsb : (u.thr c t).sb = []) (ha : Reachable u c t a n key) :
    dataRead v c t a.toNat n .none = (v, some (leNat (memBytes u.sep.mem key n))) := by
  rw [dataRead_of_key (h.bad.trans hbad) (h.sb.trans hsb) ha.2, h.mem]

/-- `n` bytes of `w` in an empty store buffer, for address `a`, and g13 behind them. -/
def putAt (u : State) (c t : Nat) (a : Word) (n w : Nat) : State :=
  (u.setThr c t { u.thr c t with sb := [{ addr := a.toNat, size := n, val := w % 256 ^ n }] }).setG c t 13 (a + BitVec.ofNat 32 n)

theorem elemPut_eq {u : State} {c t : Nat} (hsb : (u.thr c t).sb = []) (n w : Nat) (a : Word) :
    elemPut u c t n a w = putAt u c t a n w := by
  rw [elemPut, storePush_of_short (by rw [hsb]; decide), Thread.push, hsb, Nat.mod_eq_of_lt a.isLt]
  rfl

theorem onlyThread_putAt (u : State) (c t : Nat) (a : Word) (n w : Nat) : OnlyThread c t u (putAt u c t a n w) :=
  ((OnlyThread.refl c t u).setThr _).setThr _

theorem thr_putAt (u : State) (c t : Nat) (a : Word) (n w : Nat) : (putAt u c t a n w).thr c t =
    Thread.setReg { u.thr c t with sb := [{ addr := a.toNat, size := n, val := w % 256 ^ n }] } 13 (a + BitVec.ofNat 32 n) := by
  rw [putAt, thr_setG, State.thr_setThr_same]

theorem IssuedFrom.putAt {u v : State} {c t : Nat} (h : IssuedFrom c t u v) (a : Word) (n w : Nat) :
    IssuedFrom c t (putAt u c t a n w) (putAt v c t a n w) :=
  (h.mapThr (f := fun x => { x with sb := [{ addr := a.toNat, size := n, val := w % 256 ^ n }] }) fun _ _ => rfl).setG 13 _

/-- BSET's element. -/
theorem strElem_bset {u v : State} {c t sz ra rb key : Nat} {g : Nat → Word} (h : IssuedFrom c t u v) (hsz : sz ≤ 2)
    (hsb : (u.thr c t).sb = []) (h13 : Reachable u c t (g 13) (2 ^ sz) key) :
    strElem c t 1 sz ra rb g .none v = (putAt v c t (g 13) (2 ^ sz) (g ra).toNat, none) := by
  have hn : 2 ^ sz < 0x100000 := by interval_cases sz <;> decide
  have hcheck := h.elemCheck h13 hn
  simp [strElem, szBytes, hcheck, elemPut_eq (h.sb.trans hsb)]

/-- BCPY's element. -/
theorem strElem_bcpy {u v : State} {c t sz ra rb k12 k13 : Nat} {g : Nat → Word} (h : IssuedFrom c t u v) (hsz : sz ≤ 2)
    (hbad : u.sep.bad = []) (hsb : (u.thr c t).sb = []) (h12 : Reachable u c t (g 12) (2 ^ sz) k12)
    (h13 : Reachable u c t (g 13) (2 ^ sz) k13) :
    strElem c t 0 sz ra rb g .none v = (putAt (v.setG c t 12 (g 12 + BitVec.ofNat 32 (2 ^ sz))) c t (g 13) (2 ^ sz)
      (leNat (memBytes u.sep.mem k12 (2 ^ sz))), none) := by
  have hn : 2 ^ sz < 0x100000 := by interval_cases sz <;> decide
  have hsb' : ((v.setG c t 12 (g 12 + BitVec.ofNat 32 (2 ^ sz))).thr c t).sb = [] := by
    rw [thr_setG, sb_setReg]
    exact h.sb.trans hsb
  rw [← elemPut_eq hsb']
  simp [strElem, szBytes, h.elemCheck h12 hn, h.elemCheck h13 hn, h.dataRead hbad hsb h12]

/-- BFND's element. -/
theorem strElem_bfnd {u v : State} {c t sz ra rb key : Nat} {g : Nat → Word} (h : IssuedFrom c t u v) (hsz : sz ≤ 2)
    (hbad : u.sep.bad = []) (hsb : (u.thr c t).sb = []) (h13 : Reachable u c t (g 13) (2 ^ sz) key) :
    strElem c t 3 sz ra rb g .none v = (elemTest (v.setG c t 13 (g 13 + BitVec.ofNat 32 (2 ^ sz))) c t
      (decide ((leNat (memBytes u.sep.mem key (2 ^ sz)) ^^^ (g ra).toNat) &&& ((g rb).toNat % 256 ^ 2 ^ sz) = 0)), none) := by
  have hn : 2 ^ sz < 0x100000 := by interval_cases sz <;> decide
  simp [strElem, szBytes, h.elemCheck h13 hn, h.dataRead hbad hsb h13]

/-- BCMP's element. -/
theorem strElem_bcmp {u v : State} {c t sz ra rb k12 k13 : Nat} {g : Nat → Word} (h : IssuedFrom c t u v) (hsz : sz ≤ 2)
    (hbad : u.sep.bad = []) (hsb : (u.thr c t).sb = []) (h12 : Reachable u c t (g 12) (2 ^ sz) k12)
    (h13 : Reachable u c t (g 13) (2 ^ sz) k13) :
    strElem c t 2 sz ra rb g .none v = (elemTest ((v.setG c t 12 (g 12 + BitVec.ofNat 32 (2 ^ sz))).setG c t 13
      (g 13 + BitVec.ofNat 32 (2 ^ sz))) c t (decide ((leNat (memBytes u.sep.mem k13 (2 ^ sz)) ^^^
        leNat (memBytes u.sep.mem k12 (2 ^ sz))) &&& ((g rb).toNat % 256 ^ 2 ^ sz) = 0)), none) := by
  have hn : 2 ^ sz < 0x100000 := by interval_cases sz <;> decide
  simp [strElem, szBytes, h.elemCheck h12 hn, h.elemCheck h13 hn, h.dataRead hbad hsb h12, h.dataRead hbad hsb h13]

/-! ### String instructions without REPB -/

/-- A string instruction whose element faults nowhere. -/
theorem str_completes {i : Instr} {s u : State} {c t kind sz ra rb : Nat} (hq : Quiet s c t) (hi : Issues s c t (.str kind sz ra rb))
    (hexec : exec i s = .next (strRow c t kind .none s)) {v : State}
    (helem : strElem c t kind sz ra rb (s.thr c t).use .none (s.issued c t) = (v, none)) (h : IssuedFrom c t u v)
    (hdctl : u.dctlBit c (8 + t) = s.dctlBit c (8 + t)) (hpc : (u.thr c t).pc = (s.thr c t).pc)
    (hstate : (u.thr c t).state = (s.thr c t).state) : Completes i s fun w => ThreadAt u w c t ((s.thr c t).pc + 4) none := by
  have hrow : strRow c t kind .none s = settleRes (takeTurn s c t) c t (strBody c t kind sz ra rb .none (s.issued c t)) :=
    hi.issue_eq (by simp)
  have huse : ((s.issued c t).thr c t).use = (s.thr c t).use := funext (issuedFrom_issued c t hq.1).use
  refine completes_done hq hi (hexec.trans ?_) h hdctl hpc hstate
  rw [hrow]
  simp only [strBody, huse, helem]

theorem elemTest_eq {s u : State} {c t : Nat} {b : Bool} (h : (u.thr c t).sw = (s.thr c t).sw) :
    elemTest u c t b = u.setNzcv c t (testFlags (flagsOf (s.thr c t).sw) b) := by rw [elemTest, h]

/-! ### Repeat pairs (R376, R377) -/

/-- A product arrives at ML and MH. -/
def Thread.arrive (x : Thread) (m : Nat × Option Word × Option Word) : Thread := { x with ml := m.2.1.getD x.ml, mh := m.2.2.getD x.mh }

/-- Products come nearer whatever the queue holds. -/
theorem age_withQueue_comm (x : Thread) (q : List (Option Word)) : (x.withQueue q).age = x.age.withQueue q :=
  (List.foldl_hom (fun y => Thread.withQueue y q) (g₁ := Thread.arrive) (g₂ := Thread.arrive) (l := x.mul.filter fun m => decide (m.1 = 1))
    (init := { x with mul := (x.mul.map fun m => (m.1 - 1, m.2)).filter fun m => !decide (m.1 = 0) }) fun _ _ => rfl)

/-- A thread that has moved from a state in which its products had come nearer has moved from the state before. -/
theorem ThreadAt.ofAged {u w : State} {c t : Nat} {pc : Word} {old : Option (Nat × Word)}
    (h : ThreadAt (u.setThr c t (u.thr c t).age) w c t pc old) : ThreadAt u w c t pc old := by
  obtain ⟨⟨hthr, hquiet, hothers, hrest⟩, hturn⟩ := h
  rw [State.thr_setThr_same] at hthr hquiet
  obtain ⟨mul, ml, mh, hage⟩ := age_eq (u.thr c t)
  refine ⟨⟨?_, fun hmul => ?_, fun k hk => (hothers k hk).trans (smGet_smSet_other _ _ _ _ _ _ hk), hrest⟩, hturn⟩
  · rw [hthr, hage]
  · rw [age_of_noProducts hmul] at hquiet
    exact hquiet hmul

/-- A pair ends: the thread stands behind it. -/
theorem IssuedFrom.pairDone {u v : State} {c t : Nat} (h : IssuedFrom c t u v) (hbad : u.sep.bad = [])
    (hstep : u.dctlBit c (8 + t) = false) (hrun : (u.thr c t).state = .running) :
    ThreadAt u (pairDone v c t) c t ((u.thr c t).pc + 8) none := by
  obtain ⟨hrest, hthr⟩ := fetchInto_of_undamaged c t (6 - (v.thr c t).queue.length)
    ((v.thr c t).pc.toNat + 4 * (v.thr c t).queue.length)
    (s := v.setThr c t ((v.thr c t).withQueue ((v.thr c t).queue.drop 2))) (h.bad.trans hbad)
  rw [State.thr_setThr_same, withQueue_withQueue] at hthr
  have hw := h.onlyQueue (((OnlyThread.refl c t v).setThr _).trans hrest) hthr
  have haged := hw.mapThr (f := Thread.age) age_withQueue_comm
  obtain ⟨mul, ml, mh, hage⟩ := age_eq (u.thr c t)
  have hend := haged.finish hstep (by rw [State.thr_setThr_same, hage]; exact hrun) 8 none
  have hpc : (u.thr c t).age.pc = (u.thr c t).pc := by rw [hage]
  rw [State.thr_setThr_same, hpc] at hend
  exact hend.ofAged

/-- The state in which a pair of BSET has done one element and goes on. -/
def betweenElems (u : State) (c t : Nat) (a : Word) (n w : Nat) (left : Word) : State :=
  let v := (putAt u c t a n w).setG c t 11 left
  v.setThr c t { v.thr c t with mid := true, old := none }

theorem IssuedFrom.between {u v : State} {c t : Nat} (h : IssuedFrom c t u v) (a : Word) (n w : Nat) (left : Word) :
    IssuedFrom c t (betweenElems u c t a n w left) (betweenElems v c t a n w left) :=
  ((h.putAt a n w).setG 11 left).mapThr (f := fun x => { x with mid := true, old := none }) fun _ _ => rfl

/-- The thread then. -/
def Thread.between (x : Thread) (a : Word) (n w : Nat) (left : Word) : Thread :=
  { Thread.setReg (Thread.setReg { x with sb := [{ addr := a.toNat, size := n, val := w % 256 ^ n }] } 13 (a + BitVec.ofNat 32 n)) 11 left with
    mid := true, old := none }

theorem reg_between (x : Thread) (a : Word) (n w : Nat) (left : Word) (q : Nat) : (x.between a n w left).reg q =
    if q = 11 ∧ q ≠ 0 then left else if q = 13 ∧ q ≠ 0 then a + BitVec.ofNat 32 n else x.reg q := by
  have hnote (y : Thread) : ({ y with mid := true, old := none } : Thread).reg q = y.reg q := rfl
  have hbuffer (l : List SbEntry) : ({ x with sb := l } : Thread).reg q = x.reg q := rfl
  rw [Thread.between, hnote, reg_setReg, reg_setReg, hbuffer]

theorem thr_betweenElems (u : State) (c t : Nat) (a : Word) (n w : Nat) (left : Word) :
    (betweenElems u c t a n w left).thr c t = (u.thr c t).between a n w left := by
  rw [betweenElems, State.thr_setThr_same, thr_setG, thr_putAt]
  rfl

theorem onlyThread_betweenElems (u : State) (c t : Nat) (a : Word) (n w : Nat) (left : Word) :
    OnlyThread c t u (betweenElems u c t a n w left) := ((onlyThread_putAt u c t a n w).setThr _).setThr _

theorem dctlBit_betweenElems (u : State) (c t : Nat) (a : Word) (n w : Nat) (left : Word) (b : Nat) :
    (betweenElems u c t a n w left).dctlBit c b = u.dctlBit c b :=
  (onlyThread_betweenElems u c t a n w left).dctlBit c b

/-- What an instruction leaves beside its thread and the turn. -/
theorem IssuedFrom.rest {s u v : State} {c t : Nat} (h : IssuedFrom c t u v) (hu : OnlyThread c t s u) :
    v = { s with sep := { s.sep with threads := v.sep.threads, turn := smSet 0 s.sep.turn c ((t + 1) % 4) } } := by
  obtain ⟨-, -, hrest⟩ := h
  rw [hu.1] at hrest
  exact hrest

theorem reg_issuedFrom {u v : State} {c t : Nat} (h : IssuedFrom c t u v) : (v.thr c t).reg = (u.thr c t).reg := by
  rw [h.1]
  rfl

/-- A pair of BSET in mode 0 that has elements left stands between two of them. -/
theorem pairElem_goesOn {u v : State} {c t sz ra rb key : Nat} {n : Word} (h : IssuedFrom c t u v) (hsz : sz ≤ 2)
    (hsb : (u.thr c t).sb = []) (h13 : Reachable u c t ((u.thr c t).reg 13) (2 ^ sz) key) (hstep : u.dctlBit c (8 + t) = false)
    (hn : n ≠ 1) : pairElem v c t 0 1 sz ra rb n .none =
      betweenElems v c t ((u.thr c t).reg 13) (2 ^ sz) ((u.thr c t).reg ra).toNat (n - 1) := by
  have hend := stepEnd_unstepped (s := betweenElems v c t ((u.thr c t).reg 13) (2 ^ sz) ((u.thr c t).reg ra).toNat (n - 1))
    ((dctlBit_betweenElems ..).trans ((h.dctlBit c (8 + t)).trans hstep))
  have hleft : n - 1 ≠ 0 := sub_ne_zero.2 hn
  rw [← hend, pairElem, reg_issuedFrom h, strElem_bset h hsz hsb h13]
  have hno (z : Bool) : ¬(n - 1 = 0 ∨ ((0 : Nat) = 1 ∧ z = false) ∨ ((0 : Nat) = 2 ∧ z = true)) := by
    rintro (hzero | ⟨hmode, -⟩ | ⟨hmode, -⟩)
    · exact hleft hzero
    · cases hmode
    · cases hmode
  exact if_neg (hno _)

/-- A pair of BSET that has no element left is done. -/
theorem pairElem_ends {v : State} {u : State} {c t mode sz ra rb key : Nat} (h : IssuedFrom c t u v) (hsz : sz ≤ 2)
    (hsb : (u.thr c t).sb = []) (h13 : Reachable u c t ((u.thr c t).reg 13) (2 ^ sz) key) : pairElem v c t mode 1 sz ra rb 1 .none =
      pairDone ((putAt v c t ((u.thr c t).reg 13) (2 ^ sz) ((u.thr c t).reg ra).toNat).setG c t 11 0) c t := by
  rw [pairElem, reg_issuedFrom h, strElem_bset h hsz hsb h13]
  exact if_pos (.inl rfl)

theorem pc_between (x : Thread) (a : Word) (n w : Nat) (left : Word) : (x.between a n w left).pc = x.pc := by
  unfold Thread.between
  exact (pc_setReg ..).trans (pc_setReg ..)

theorem sb_between (x : Thread) (a : Word) (n w : Nat) (left : Word) :
    (x.between a n w left).sb = [{ addr := a.toNat, size := n, val := w % 256 ^ n }] := by
  unfold Thread.between
  exact (sb_setReg ..).trans (sb_setReg ..)

/-- What a thread shows between two elements of a pair. -/
theorem Thread.between_shows {x y : Thread} {a : Word} {n w : Nat} {left : Word} {q : List (Option Word)}
    (hy : y = (x.between a n w left).withQueue q) : y.mid = true ∧ y.pc = x.pc ∧ y.reg 11 = left ∧
    y.reg 13 = a + BitVec.ofNat 32 n ∧ y.sb = [{ addr := a.toNat, size := n, val := w % 256 ^ n }] := by
  subst hy
  refine ⟨rfl, pc_between x a n w left, ?_, ?_, sb_between x a n w left⟩ <;> rw [reg_withQueue, reg_between]
  · exact if_pos (by decide)
  · exact (if_neg (by decide)).trans (if_pos (by decide))

/-- A pair with elements left ends its turn between two of them. -/
theorem IssuedFrom.between_shows {u v z : State} {c t n w : Nat} {a left : Word} (h : IssuedFrom c t u v)
    (hz : z = betweenElems v c t a n w left) :
    (z.thr c t).mid = true ∧ (z.thr c t).pc = (u.thr c t).pc ∧ (z.thr c t).reg 11 = left ∧
    (z.thr c t).reg 13 = a + BitVec.ofNat 32 n ∧ (z.thr c t).sb = [{ addr := a.toNat, size := n, val := w % 256 ^ n }] ∧
    z = { u with sep := { u.sep with threads := z.sep.threads, turn := smSet 0 u.sep.turn c ((t + 1) % 4) } } := by
  subst hz
  have hbetween := h.between a n w left
  have hrest := hbetween.rest (onlyThread_betweenElems u c t a n w left)
  obtain ⟨hthr, -, -⟩ := hbetween
  rw [thr_betweenElems u] at hthr
  obtain ⟨hmid, hpc, h11, h13, hsb⟩ := Thread.between_shows hthr
  exact ⟨hmid, hpc, h11, h13, hsb, hrest⟩

/-- The state in which a REPB works on its pair: the words of the pair are fetched (R340). -/
def State.pairFetched (s : State) (c t : Nat) : State :=
  fetchInto c t (5 - (s.thr c t).queue.length) ((s.thr c t).pc.toNat + 4 * (s.thr c t).queue.length) (takeTurn s c t)

theorem issuedFrom_pairFetched {s : State} (c t : Nat) (hbad : s.sep.bad = []) : IssuedFrom c t s (s.pairFetched c t) := by
  obtain ⟨honly, hthr⟩ := fetchInto_of_undamaged c t (5 - (s.thr c t).queue.length)
    ((s.thr c t).pc.toNat + 4 * (s.thr c t).queue.length) (s := takeTurn s c t) hbad
  exact (issuedFrom_takeTurn c t s).onlyQueue honly hthr

/-- REPB reaches its pair: the word after it is a string instruction. -/
theorem repb_next {s : State} {c : Fin 32} {h : Fin 4} {mode kind sz ra rb : Nat} {w0 : Option Word} {w : Word} {rest : List (Option Word)}
    (hi : Issues s c h (.repb mode)) (hqueue : (s.thr c h).queue = w0 :: some w :: rest)
    (hdecode : sepDecode w.toNat = some (.str kind sz ra rb)) :
    exec (.opRepb c h .none) s = .next (if (s.thr c h).use 11 = 0 then pairDone (s.pairFetched c h) c h
      else pairElem (s.pairFetched c h) c h mode kind sz ra rb ((s.thr c h).use 11) .none) := by
  obtain ⟨hturn, hfront, hfree⟩ := hi
  have hexec : exec (.opRepb c h .none) s = .next (repbRow c h .none s) := rfl
  have hthr : (takeTurn s c h).thr c h = s.thr c h := rfl
  rw [hexec, repbRow, hturn, hfront, State.pairFetched]
  simp only [hfree, repbStart, hthr]
  rw [hqueue]
  simp only [hdecode]
  rfl

theorem use_of_noOld {x : Thread} (h : x.old = none) : x.use = x.reg := by
  funext r
  rw [Thread.use, h]

/-- A further element of a pair of BSET. -/
theorem repeatElement_next {s : State} {c : Fin 32} {h : Fin 4} {mode sz ra rb : Nat} {w0 w1 : Word} {rest : List (Option Word)}
    (hmid : (s.thr c h).mid = true) (hready : s.ready c h = true) (hturn : s.myTurn c h = true)
    (hqueue : (s.thr c h).queue = some w0 :: some w1 :: rest) (hdec0 : sepDecode w0.toNat = some (.repb mode))
    (hdec1 : sepDecode w1.toNat = some (.str 1 sz ra rb)) :
    exec (.repeatElement c h .none) s = .next (pairElem (takeTurn s c h) c h mode 1 sz ra rb ((s.thr c h).reg 11) .none) := by
  have hexec : exec (.repeatElement c h .none) s = .next (repeatElement s c h .none) := rfl
  rw [hexec, repeatElement, hqueue]
  simp only [hmid, hready, hturn, hdec0, hdec1]
  rfl

/-- A thread that is ready for a further element runs. -/
theorem running_of_ready {s : State} {c t : Nat} (hmid : (s.thr c t).mid = true) (hready : s.ready c t = true) :
    (s.thr c t).state = .running := by
  simp only [State.ready, hmid, if_true, Bool.and_eq_true, decide_eq_true_eq] at hready
  obtain ⟨⟨⟨-, hrun⟩, -⟩, -⟩ := hready
  exact hrun

/-- The last element of a pair of BSET. -/
theorem IssuedFrom.lastElem {u v : State} {c t n w : Nat} {a : Word} (h : IssuedFrom c t u v) (hbad : u.sep.bad = [])
    (hstep : u.dctlBit c (8 + t) = false) (hrun : (u.thr c t).state = .running) :
    ThreadAt ((Machine.putAt u c t a n w).setG c t 11 0) (Machine.pairDone ((Machine.putAt v c t a n w).setG c t 11 0) c t) c t
      ((u.thr c t).pc + 8) none := by
  have honly : OnlyThread c t u ((Machine.putAt u c t a n w).setG c t 11 0) := (onlyThread_putAt u c t a n w).setThr _
  have hpc : (((Machine.putAt u c t a n w).setG c t 11 0).thr c t).pc = (u.thr c t).pc := by
    rw [thr_setG, pc_setReg, thr_putAt, pc_setReg]
  have hstate : (((Machine.putAt u c t a n w).setG c t 11 0).thr c t).state = (u.thr c t).state := by
    rw [thr_setG, state_setReg, thr_putAt, state_setReg]
  have hend := ((h.putAt a n w).setG 11 0).pairDone (honly.bad.trans hbad)
    ((honly.dctlBit ..).trans hstep) (hstate.trans hrun)
  rwa [hpc] at hend

/-! ### The clauses of O49 -/

section
variable {s : State} {c : Fin 32} {h : Fin 4} {sz ra rb k12 k13 : Nat} (hq : Quiet s c h) (hsb : (s.thr c h).sb = []) (hsz : sz ≤ 2)
  (h13 : Reachable s c h ((s.thr c h).use 13) (2 ^ sz) k13)
include hq hsb hsz h13

theorem bset_completes (hi : Issues s c h (.str 1 sz ra rb)) : Completes (.opBset c h) s fun t =>
    ThreadAt (putAt s c h ((s.thr c h).use 13) (2 ^ sz) ((s.thr c h).use ra).toNat) t c h ((s.thr c h).pc + 4) none := by
  have hv := issuedFrom_issued c.val h.val hq.1
  refine str_completes hq hi rfl (strElem_bset hv hsz hsb h13) (hv.putAt _ _ _) ((onlyThread_putAt ..).dctlBit ..) ?_ ?_ <;>
    rw [thr_putAt]
  · exact pc_setReg ..
  · exact state_setReg ..

theorem bfnd_completes (hi : Issues s c h (.str 3 sz ra rb)) : Completes (.opBfnd c h .none) s fun t =>
    ThreadAt ((s.setG c h 13 ((s.thr c h).use 13 + BitVec.ofNat 32 (2 ^ sz))).setNzcv c h (testFlags (flagsOf (s.thr c h).sw)
      (decide ((leNat (memBytes s.sep.mem k13 (2 ^ sz)) ^^^ ((s.thr c h).use ra).toNat) &&&
        (((s.thr c h).use rb).toNat % 256 ^ 2 ^ sz) = 0)))) t c h ((s.thr c h).pc + 4) none := by
  have hv := issuedFrom_issued c.val h.val hq.1
  have helem := strElem_bfnd (ra := ra) (rb := rb) hv hsz hq.1 hsb h13
  rw [elemTest_eq (s := s) (by rw [thr_setG, sw_setReg, hv.sw])] at helem
  refine str_completes hq hi rfl helem ((hv.setG 13 _).setNzcv _) (((onlyThread_setG ..).setNzcv _).dctlBit ..) ?_ ?_ <;>
    rw [thr_setNzcv, thr_setG]
  · exact pc_setReg ..
  · exact state_setReg ..

theorem bcpy_completes (h12 : Reachable s c h ((s.thr c h).use 12) (2 ^ sz) k12) (hi : Issues s c h (.str 0 sz ra rb)) :
    Completes (.opBcpy c h .none) s fun t =>
      ThreadAt (putAt (s.setG c h 12 ((s.thr c h).use 12 + BitVec.ofNat 32 (2 ^ sz))) c h ((s.thr c h).use 13) (2 ^ sz)
        (leNat (memBytes s.sep.mem k12 (2 ^ sz)))) t c h ((s.thr c h).pc + 4) none := by
  have hv := issuedFrom_issued c.val h.val hq.1
  refine str_completes hq hi rfl (strElem_bcpy hv hsz hq.1 hsb h12 h13) ((hv.setG 12 _).putAt _ _ _)
    (((onlyThread_setG ..).trans (onlyThread_putAt ..)).dctlBit ..) ?_ ?_ <;> rw [thr_putAt]
  · rw [pc_setReg, thr_setG]
    exact pc_setReg ..
  · rw [state_setReg, thr_setG]
    exact state_setReg ..

theorem bcmp_completes (h12 : Reachable s c h ((s.thr c h).use 12) (2 ^ sz) k12) (hi : Issues s c h (.str 2 sz ra rb)) :
    Completes (.opBcmp c h .none) s fun t =>
      ThreadAt (((s.setG c h 12 ((s.thr c h).use 12 + BitVec.ofNat 32 (2 ^ sz))).setG c h 13
        ((s.thr c h).use 13 + BitVec.ofNat 32 (2 ^ sz))).setNzcv c h (testFlags (flagsOf (s.thr c h).sw)
          (decide ((leNat (memBytes s.sep.mem k13 (2 ^ sz)) ^^^ leNat (memBytes s.sep.mem k12 (2 ^ sz))) &&&
            (((s.thr c h).use rb).toNat % 256 ^ 2 ^ sz) = 0)))) t c h ((s.thr c h).pc + 4) none := by
  have hv := issuedFrom_issued c.val h.val hq.1
  have helem := strElem_bcmp (ra := ra) (rb := rb) hv hsz hq.1 hsb h12 h13
  rw [elemTest_eq (s := s) (by rw [thr_setG, sw_setReg, thr_setG, sw_setReg, hv.sw])] at helem
  refine str_completes hq hi rfl helem (((hv.setG 12 _).setG 13 _).setNzcv _)
    ((((onlyThread_setG ..).trans (onlyThread_setG ..)).setNzcv _).dctlBit ..) ?_ ?_ <;> rw [thr_setNzcv, thr_setG]
  · rw [pc_setReg, thr_setG]
    exact pc_setReg ..
  · rw [state_setReg, thr_setG]
    exact state_setReg ..

/-- A pair of BSET in mode 0 that has more than one element to do begins. -/
theorem repb_begins {mode kind : Nat} {w0 : Option Word} {w : Word} {rest : List (Option Word)} (hi : Issues s c h (.repb mode))
    (hqueue : (s.thr c h).queue = w0 :: some w :: rest) (hdecode : sepDecode w.toNat = some (.str kind sz ra rb))
    (hzero : (s.thr c h).use 11 ≠ 0) (hkind : kind = 1) (hmode : mode = 0) (hone : (s.thr c h).use 11 ≠ 1) (hold : (s.thr c h).old = none) :
    exec (.opRepb c h .none) s = .next (betweenElems (s.pairFetched c h) c h ((s.thr c h).use 13) (2 ^ sz) ((s.thr c h).use ra).toNat
      ((s.thr c h).use 11 - 1)) := by
  subst hkind hmode
  rw [repb_next hi hqueue hdecode, if_neg hzero]
  rw [use_of_noOld hold] at h13 hone ⊢
  rw [pairElem_goesOn (issuedFrom_pairFetched c h hq.1) hsz hsb h13 hq.2 hone]

/-- A further element of a pair of BSET in mode 0 that is not the last. -/
theorem repeat_goesOn {mode : Nat} {w0 w1 : Word} {rest : List (Option Word)} (hmid : (s.thr c h).mid = true)
    (hready : s.ready c h = true) (hturn : s.myTurn c h = true) (hold : (s.thr c h).old = none)
    (hqueue : (s.thr c h).queue = some w0 :: some w1 :: rest) (hdec0 : sepDecode w0.toNat = some (.repb mode))
    (hdec1 : sepDecode w1.toNat = some (.str 1 sz ra rb)) (hone : (s.thr c h).reg 11 ≠ 1) (hmode : mode = 0) :
    exec (.repeatElement c h .none) s = .next (betweenElems (takeTurn s c h) c h ((s.thr c h).reg 13) (2 ^ sz) ((s.thr c h).reg ra).toNat
      ((s.thr c h).reg 11 - 1)) := by
  subst hmode
  rw [use_of_noOld hold] at h13
  rw [repeatElement_next hmid hready hturn hqueue hdec0 hdec1, pairElem_goesOn (issuedFrom_takeTurn c h s) hsz hsb h13 hq.2 hone]

/-- The last element of a pair of BSET. -/
theorem repeat_ends {mode : Nat} {w0 w1 : Word} {rest : List (Option Word)} (hmid : (s.thr c h).mid = true)
    (hready : s.ready c h = true) (hturn : s.myTurn c h = true) (hold : (s.thr c h).old = none)
    (hqueue : (s.thr c h).queue = some w0 :: some w1 :: rest) (hdec0 : sepDecode w0.toNat = some (.repb mode))
    (hdec1 : sepDecode w1.toNat = some (.str 1 sz ra rb)) (hone : (s.thr c h).reg 11 = 1) :
    Completes (.repeatElement c h .none) s fun t =>
      ThreadAt ((putAt s c h ((s.thr c h).use 13) (2 ^ sz) ((s.thr c h).reg ra).toNat).setG c h 11 0) t c h ((s.thr c h).pc + 8) none := by
  rw [use_of_noOld hold] at h13 ⊢
  refine ⟨_, repeatElement_next hmid hready hturn hqueue hdec0 hdec1, ?_⟩
  rw [hone, pairElem_ends (issuedFrom_takeTurn c h s) hsz hsb h13]
  exact (issuedFrom_takeTurn c h s).lastElem hq.1 hq.2 (running_of_ready hmid hready)

end

/-- A pair with g11 = 0 does no element. -/
theorem repb_none {s : State} {c : Fin 32} {h : Fin 4} {mode kind sz ra rb : Nat} {w0 : Option Word} {w : Word} {rest : List (Option Word)}
    (hq : Quiet s c h) (hi : Issues s c h (.repb mode)) (hqueue : (s.thr c h).queue = w0 :: some w :: rest)
    (hdecode : sepDecode w.toNat = some (.str kind sz ra rb)) (hzero : (s.thr c h).use 11 = 0) :
    Completes (.opRepb c h .none) s fun t => ThreadAt s t c h ((s.thr c h).pc + 8) none := by
  refine ⟨_, repb_next hi hqueue hdecode, ?_⟩
  rw [if_pos hzero]
  exact (issuedFrom_pairFetched c h hq.1).pairDone hq.1 hq.2 hi.running

/-- Settles O49: each instruction's element, and where its pair stands after it. -/
theorem sepiaStrings : Obligations.SepiaStrings := by
  intro c h sz ra rb s hq hsb x n st a12 a13 put hsz hrights13 k13 hk13 v13 m
  have h13 : Reachable s c h ((s.thr c h).use 13) (2 ^ sz) k13 := ⟨hrights13, hk13⟩
  have hput : put = fun w u => putAt u c h a13 n w := rfl
  clear_value put
  subst hput
  refine ⟨bset_completes hq hsb hsz h13, bfnd_completes hq hsb hsz h13, fun k12 hk12 hrights12 =>
      ⟨bcpy_completes hq hsb hsz h13 ⟨hrights12, hk12⟩, bcmp_completes hq hsb hsz h13 ⟨hrights12, hk12⟩⟩,
    fun mode kind w0 w rest hi hqueue hdecode hfree => ⟨repb_none hq hi hqueue hdecode, fun hzero hkind hmode hone hra hold => ?_⟩,
    fun mode w0 w1 rest hmid hready hturn hold hqueue hdec0 hdec1 =>
      ⟨repeat_ends hq hsb hsz h13 hmid hready hturn hold hqueue hdec0 hdec1, fun hone hmode => ?_⟩⟩
  · exact ⟨_, repb_begins hq hsb hsz h13 hi hqueue hdecode hzero hkind hmode hone hold,
      (issuedFrom_pairFetched c h hq.1).between_shows rfl⟩
  · obtain ⟨hmid', hpc, h11, -⟩ := (issuedFrom_takeTurn c.val h.val s).between_shows (n := n) (w := ((s.thr c h).reg ra).toNat)
      (a := (s.thr c h).reg 13) (left := (s.thr c h).reg 11 - 1) rfl
    exact ⟨_, repeat_goesOn hq hsb hsz h13 hmid hready hturn hold hqueue hdec0 hdec1 hone hmode, hmid', hpc, h11⟩

end Sys2Proof.Machine
end

section
/-! SUPPORT. Special registers, events, waits, barrier and break of the Sepia cores (O48). -/
namespace Sys2Proof.Machine
open Reg

/-! ### What the body of an instruction finds as it was -/

theorem IssuedFrom.irqTo {u v : State} {c t : Nat} (h : IssuedFrom c t u v) (d k : Nat) : v.irqTo d k = u.irqTo d k := by
  rw [h.2.2]
  rfl

theorem IssuedFrom.evt {u v : State} {c t : Nat} (h : IssuedFrom c t u v) : v.evt c t = u.evt c t := by
  rw [State.evt, h.irqTo, h.1]
  rfl

theorem IssuedFrom.user {u v : State} {c t : Nat} (h : IssuedFrom c t u v) : v.user c t = decide (swPriv (u.thr c t).sw = 0) := by
  rw [State.user, h.sw]

theorem IssuedFrom.longs {u v : State} {c t : Nat} (h : IssuedFrom c t u v) : (v.thr c t).longs = (u.thr c t).longs := by
  rw [h.1]
  rfl

theorem IssuedFrom.up {u v : State} {c t : Nat} (h : IssuedFrom c t u v) (d : Nat) : v.up d = u.up d := by rw [State.up, h.rd, State.up]

theorem IssuedFrom.sreg {u v : State} {c t : Nat} (h : IssuedFrom c t u v) (k : Nat) : v.sreg c t k = u.sreg c t k := by
  unfold State.sreg
  rw [h.evt, h.1]
  rfl

/-- An instruction that faults. -/
theorem fault_next {i : Instr} {s : State} {c t vec : Nat} {a : Word} (hq : Quiet s c t)
    (hexec : exec i s = .next (settleRes (takeTurn s c t) c t (Res.fault (s.issued c t) c t vec a))) :
    exec i s = .next (trapTo (s.issued c t) c t vec (s.thr c t).pc a) := by
  rw [hexec, Res.fault, settleRes, (issuedFrom_issued c t hq.1).pc]

/-! ### Special registers (R350, R366, R380) -/

theorem putSreg_withQueue (x : Thread) (q : List (Option Word)) (k : Nat) (v : Word) :
    (x.withQueue q).putSreg k v = (x.putSreg k v).withQueue q := by
  unfold Thread.putSreg
  split <;> rfl

theorem pc_putSreg (x : Thread) (k : Nat) (v : Word) : (x.putSreg k v).pc = x.pc ∧ (x.putSreg k v).state = x.state := by
  unfold Thread.putSreg
  split <;> exact ⟨rfl, rfl⟩

section
variable {s : State} {c : Fin 32} {h : Fin 4} (hq : Quiet s c h)
include hq

theorem mfs_completes {rd k : Nat} (hi : Issues s c h (.mfs rd k)) (hread : swPriv (s.thr c h).sw ≠ 0 ∨ userReads k = true) :
    Completes (.opMfs c h) s fun t => ThreadAt (s.setG c h rd (s.sreg c h k)) t c h ((s.thr c h).pc + 4) none := by
  have hv := issuedFrom_issued c.val h.val hq.1
  have hexec : exec (.opMfs c h) s = .next (settleRes (takeTurn s c h) c h (mfsBody c h rd k (s.issued c h))) :=
    congrArg Host.Outcome.next (hi.issue_eq rfl)
  have hfree : (decide (swPriv (s.thr c h).sw = 0) && !(userReads k)) = false := by
    rcases hread with hread | hread <;> simp [hread]
  simp only [mfsBody, hv.user, hfree, hv.sreg] at hexec
  exact completes_setG hq hi hexec

theorem mfs_faults {rd k : Nat} (hi : Issues s c h (.mfs rd k)) (huser : swPriv (s.thr c h).sw = 0) (hread : userReads k = false) :
    exec (.opMfs c h) s = .next (trapTo (s.issued c h) c h 2 (s.thr c h).pc 0) := by
  have hv := issuedFrom_issued c.val h.val hq.1
  have hexec : exec (.opMfs c h) s = .next (settleRes (takeTurn s c h) c h (mfsBody c h rd k (s.issued c h))) :=
    congrArg Host.Outcome.next (hi.issue_eq rfl)
  simp only [mfsBody, hv.user, huser, hread, decide_true, Bool.not_false, Bool.and_self, if_true] at hexec
  exact fault_next hq hexec

/-- What MTS does, by its three obstacles. -/
theorem mts_next {k ra : Nat} (hi : Issues s c h (.mts k ra)) : exec (.opMts c h) s = .next (settleRes (takeTurn s c h) c h
    (if k = 0 ∧ swPriv (s.thr c h).sw = 1 ∧ 2 ≤ swPriv ((s.thr c h).use ra) then Res.fault (s.issued c h) c h 1 0
     else if (decide (swPriv (s.thr c h).sw = 0) && !(userWrites k)) = true then Res.fault (s.issued c h) c h 2 0
     else if k = 0 ∧ ((s.thr c h).use ra).getLsbD 31 = true ∧ (s.thr c h).longs ≠ [] then .wait
     else .done ((s.issued c h).setThr c h (((s.issued c h).thr c h).putSreg k ((s.thr c h).use ra))) none)) := by
  have hv := issuedFrom_issued c.val h.val hq.1
  have hexec : exec (.opMts c h) s = .next (settleRes (takeTurn s c h) c h (mtsBody c h k ra (s.issued c h))) :=
    congrArg Host.Outcome.next (hi.issue_eq rfl)
  simp only [mtsBody, hv.user, hv.sw, hv.use, hv.longs, swBit] at hexec
  exact hexec

theorem mts_completes {k ra : Nat} (hi : Issues s c h (.mts k ra))
    (hmay : (swPriv (s.thr c h).sw = 1 ∧ (k = 0 → swPriv ((s.thr c h).use ra) < 2)) ∨ swPriv (s.thr c h).sw = 3 ∨
      (swPriv (s.thr c h).sw = 0 ∧ (k = 6 ∨ k = 7)))
    (hfree : k ≠ 0 ∨ ((s.thr c h).use ra).getLsbD 31 = false ∨ (s.thr c h).longs = []) :
    Completes (.opMts c h) s fun t =>
      ThreadAt (s.setThr c h ((s.thr c h).putSreg k ((s.thr c h).use ra))) t c h ((s.thr c h).pc + 4) none := by
  have hlegal : ¬(k = 0 ∧ swPriv (s.thr c h).sw = 1 ∧ 2 ≤ swPriv ((s.thr c h).use ra)) := by
    rintro ⟨hk, hpriv, hhigh⟩
    rcases hmay with ⟨-, hlow⟩ | hesc | ⟨huser, -⟩
    · exact absurd (hlow hk) (Nat.not_lt.2 hhigh)
    · omega
    · omega
  have hright : ¬(decide (swPriv (s.thr c h).sw = 0) && !(userWrites k)) = true := by
    rcases hmay with ⟨hsup, -⟩ | hesc | ⟨-, hk⟩
    · simp [hsup]
    · simp [hesc]
    · rcases hk with rfl | rfl <;> simp [userWrites]
  have hgo : ¬(k = 0 ∧ ((s.thr c h).use ra).getLsbD 31 = true ∧ (s.thr c h).longs ≠ []) := by
    rintro ⟨hk, hbit, hlongs⟩
    rcases hfree with hne | hclear | hnone
    · exact hne hk
    · rw [hclear] at hbit
      cases hbit
    · exact hlongs hnone
  have hexec := mts_next hq hi
  rw [if_neg hlegal, if_neg hright, if_neg hgo] at hexec
  exact completes_mapThr (f := fun x => x.putSreg k ((s.thr c h).use ra)) hq hi (fun _ _ => putSreg_withQueue ..) (fun x => pc_putSreg x k _) hexec

/-- One that would set PRECISE before the long operations outstanding have retired waits. -/
theorem mts_waits {k ra : Nat} (hi : Issues s c h (.mts k ra)) (hk : k = 0)
    (hpriv : swPriv (s.thr c h).sw = 1 ∧ swPriv ((s.thr c h).use ra) < 2 ∨ swPriv (s.thr c h).sw = 3)
    (hbit : ((s.thr c h).use ra).getLsbD 31 = true) (hlongs : (s.thr c h).longs ≠ []) : exec (.opMts c h) s = .next (takeTurn s c h) := by
  have hlegal : ¬(k = 0 ∧ swPriv (s.thr c h).sw = 1 ∧ 2 ≤ swPriv ((s.thr c h).use ra)) := by omega
  have hright : ¬(decide (swPriv (s.thr c h).sw = 0) && !(userWrites k)) = true := by
    rcases hpriv with ⟨hsup, -⟩ | hesc
    · simp [hsup]
    · simp [hesc]
  rw [mts_next hq hi, if_neg hlegal, if_neg hright, if_pos ⟨hk, hbit, hlongs⟩]
  rfl

theorem mts_illegal {k ra : Nat} (hi : Issues s c h (.mts k ra)) (hpriv : swPriv (s.thr c h).sw = 1) (hk : k = 0)
    (hhigh : 2 ≤ swPriv ((s.thr c h).use ra)) : exec (.opMts c h) s = .next (trapTo (s.issued c h) c h 1 (s.thr c h).pc 0) :=
  fault_next hq (by rw [mts_next hq hi, if_pos ⟨hk, hpriv, hhigh⟩])

theorem mts_faults {k ra : Nat} (hi : Issues s c h (.mts k ra)) (huser : swPriv (s.thr c h).sw = 0) (h6 : k ≠ 6) (h7 : k ≠ 7) :
    exec (.opMts c h) s = .next (trapTo (s.issued c h) c h 2 (s.thr c h).pc 0) := by
  have hright : (decide (swPriv (s.thr c h).sw = 0) && !(userWrites k)) = true := by simp [huser, userWrites, h6, h7]
  exact fault_next hq (by rw [mts_next hq hi, if_neg (by omega), if_pos hright])

/-! ### Events and waits (R372 to R374) -/

/-- What a wait in progress leaves: the thread waits, the turn is the next thread's. -/
theorem hold_shows (w : Waiting) :
    let t := (s.issued c h).setThr c h { (s.issued c h).thr c h with wait := some w }
    (t.thr c h).wait = some w ∧ (t.thr c h).pc = (s.thr c h).pc ∧ (∀ q, (t.thr c h).reg q = (s.thr c h).reg q) ∧
    t = { s with sep := { s.sep with threads := t.sep.threads, turn := smSet 0 s.sep.turn c ((h + 1) % 4) } } := by
  have hv := issuedFrom_issued c.val h.val hq.1
  have hw := hv.mapThr (f := fun x => { x with wait := some w }) fun _ _ => rfl
  refine ⟨?_, ?_, fun q => ?_, hw.rest ((OnlyThread.refl c h s).setThr _)⟩ <;> rw [State.thr_setThr_same]
  · exact hv.pc
  · exact congrFun (reg_issuedFrom hv) q

/-- A wait that ends at once with the event bits of its mask. -/
theorem waitResult_completes {i : Instr} {k : Ins} {rd mask v : Nat} (hi : Issues s c h k)
    (hexec : exec i s = .next (settleRes (takeTurn s c h) c h (.done (waitResult (s.issued c h) c h rd mask v) none))) :
    Completes i s fun t => ThreadAt ((s.setThr c h ((s.thr c h).clearEv mask)).setG c h rd (BitVec.ofNat 32 v)) t c h
      ((s.thr c h).pc + 4) none := by
  have hv := issuedFrom_issued c.val h.val hq.1
  have hw := (hv.mapThr (f := fun x => x.clearEv mask) fun _ _ => rfl).setG rd (BitVec.ofNat 32 v)
  refine completes_done hq hi hexec hw ((((OnlyThread.refl c h s).setThr _).trans (onlyThread_setG ..)).dctlBit ..) ?_ ?_ <;>
    rw [thr_setG, State.thr_setThr_same]
  · exact pc_setReg ..
  · exact state_setReg ..

theorem wfe_next {rd mask : Nat} (hi : Issues s c h (.wfe rd mask)) : exec (.opWfe c h) s = .next (settleRes (takeTurn s c h) c h
    (if s.evt c h &&& mask ≠ 0 then .done (waitResult (s.issued c h) c h rd mask (s.evt c h &&& mask)) none
     else .hold (s.issued c h) (.wfe rd mask))) := by
  have hv := issuedFrom_issued c.val h.val hq.1
  have hexec : exec (.opWfe c h) s = .next (settleRes (takeTurn s c h) c h (wfeBody c h rd mask (s.issued c h))) :=
    congrArg Host.Outcome.next (hi.issue_eq rfl)
  simp only [wfeBody, hv.evt] at hexec
  exact hexec

theorem waitt_next {rd ra n mask : Nat} (hi : Issues s c h (.waitt rd ra n mask)) (hup : s.up 90 = true) :
    exec (.opWaitt c h) s = .next (settleRes (takeTurn s c h) c h
      (if s.reached n ((s.thr c h).use ra) then .done ((s.issued c h).setG c h rd 0) none
       else if s.evt c h &&& mask ≠ 0 then .done (waitResult (s.issued c h) c h rd mask (s.evt c h &&& mask)) none
       else .hold (s.issued c h) (.timer rd ((s.thr c h).use ra) n mask))) := by
  have hv := issuedFrom_issued c.val h.val hq.1
  have hexec : exec (.opWaitt c h) s = .next (settleRes (takeTurn s c h) c h (waittBody c h rd ra n mask (s.issued c h))) :=
    congrArg Host.Outcome.next (hi.issue_eq rfl)
  have hreached (w : Word) : (s.issued c h).reached n w = s.reached n w := by rw [State.reached, hv.rd, State.reached]
  simp only [waittBody, hv.evt, hv.up, hup, hv.use, hreached, Bool.not_true, Bool.false_eq_true, if_false] at hexec
  exact hexec

end

/-- A wait that ends moves its thread on, and takes no turn. -/
theorem finish_woken {u : State} {c t : Nat} (hrun : (u.thr c t).state = .running) (hstep : u.dctlBit c (8 + t) = false) (n : Nat) :
    ThreadWoken u (finish u c t n none) c t ((u.thr c t).pc + BitVec.ofNat 32 n) none := by
  rw [finish_eq hrun hstep]
  obtain ⟨mul, ml, mh, hage⟩ := age_eq (u.thr c t)
  refine ⟨⟨?_, fun hmul => ?_, fun k hk => smGet_smSet_other _ _ _ _ _ _ hk, rfl⟩, rfl⟩ <;> rw [State.thr_setThr_same]
  · rw [hage]
  · rw [age_of_noProducts hmul]
    exact ⟨hmul, rfl, rfl⟩

/-- A wait of a running thread that ends with a register written. -/
theorem setG_woken {s u : State} {c t rd : Nat} {v : Word} (hstep : s.dctlBit c (8 + t) = false) (hrun : (s.thr c t).state = .running)
    (honly : OnlyThread c t s u) (hpc : (u.thr c t).pc = (s.thr c t).pc) (hstate : (u.thr c t).state = (s.thr c t).state) :
    ThreadWoken (u.setG c t rd v) (finish (u.setG c t rd v) c t 4 none) c t ((s.thr c t).pc + 4) none := by
  obtain ⟨hpc', hstate'⟩ := setG_pc_state u c t rd v
  rw [← hpc, ← hpc']
  exact finish_woken (hstate'.trans (hstate.trans hrun)) (((honly.trans (onlyThread_setG ..)).dctlBit ..).trans hstep) 4

theorem wfeWake_event {s : State} {c : Fin 32} {h : Fin 4} {rd mask : Nat} (hstep : s.dctlBit c (8 + h) = false)
    (hup : s.coreUp c = true) (hrun : (s.thr c h).state = .running)
    (hirq : s.irqDue c h = false) (hwait : (s.thr c h).wait = some (.wfe rd mask)) (hev : s.evt c h &&& mask ≠ 0) :
    Completes (.wfeWake c h) s fun t =>
      ThreadWoken ((s.setThr c h ((s.thr c h).clearEv mask)).setG c h rd (BitVec.ofNat 32 (s.evt c h &&& mask))) t c h
        ((s.thr c h).pc + 4) none := by
  have hwake : wfeWake s c h = finish (waitResult s c h rd mask (s.evt c h &&& mask)) c h 4 none := by
    rw [wfeWake, hwait, hrun, hup]
    simp only [hirq, if_pos hev]
    rfl
  refine ⟨_, congrArg Host.Outcome.next hwake, setG_woken hstep hrun ((OnlyThread.refl c h s).setThr _) ?_ ?_⟩ <;>
    rw [State.thr_setThr_same] <;> rfl

theorem waittWake_count {s : State} {c : Fin 32} {h : Fin 4} {rd n mask : Nat} {target : Word} (hstep : s.dctlBit c (8 + h) = false)
    (hcore : s.coreUp c = true) (hrun : (s.thr c h).state = .running)
    (hwait : (s.thr c h).wait = some (.timer rd target n mask)) (hup : s.up 90 = true) (hreached : s.reached n target = true) :
    Completes (.waittWake c h) s fun t => ThreadWoken (s.setG c h rd 0) t c h ((s.thr c h).pc + 4) none := by
  have hwake : waittWake s c h = finish (s.setG c h rd 0) c h 4 none := by
    rw [waittWake, hwait, hrun, hcore]
    simp only [hup, hreached]
    rfl
  exact ⟨_, congrArg Host.Outcome.next hwake, setG_woken hstep hrun (.refl ..) rfl rfl⟩

/-! ### SEV (R373) -/

/-- The same change of another thread on both sides. -/
theorem IssuedFrom.setOther {u v : State} {c t d k : Nat} (h : IssuedFrom c t u v) (hk : 4 * d + k ≠ 4 * c + t) (x : Thread) :
    IssuedFrom c t (u.setThr d k x) (v.setThr d k x) := by
  obtain ⟨hthr, hothers, hrest⟩ := h
  have hsame (w : State) : (w.setThr d k x).thr c t = w.thr c t := smGet_smSet_other _ _ _ _ _ _ hk.symm
  refine ⟨by rw [hsame, hsame]; exact hthr, fun j hj => ?_, ?_⟩
  · by_cases hjk : j = 4 * d + k
    · subst hjk
      exact (smGet_smSet_same ..).trans (smGet_smSet_same ..).symm
    · exact (smGet_smSet_other _ _ _ _ _ _ hjk).trans ((hothers j hj).trans (smGet_smSet_other _ _ _ _ _ _ hjk).symm)
  · rw [hrest]
    rfl

/-- An event bit set. -/
def Thread.withEv (x : Thread) (b : Nat) : Thread := { x with ev := x.ev ||| 2 ^ b }

theorem IssuedFrom.sevSet {u v : State} {c t : Nat} (h : IssuedFrom c t u v) (b : Nat) (p : Nat × Nat) :
    IssuedFrom c t (sevSet b u p) (sevSet b v p) := by
  have hup : v.coreUp p.1 = u.coreUp p.1 := by rw [State.coreUp, h.up, State.coreUp]
  unfold Machine.sevSet
  rw [hup]
  split
  · by_cases hk : 4 * p.1 + p.2 = 4 * c + t
    · have hthr (w : State) : w.thr p.1 p.2 = w.thr c t := by rw [State.thr, State.thr, hk]
      have hset (w : State) (x : Thread) : w.setThr p.1 p.2 x = w.setThr c t x := by rw [State.setThr, State.setThr, hk]
      rw [hset, hset, hthr, hthr]
      exact h.mapThr (f := fun x => x.withEv b) fun _ _ => rfl
    · have hthr : v.thr p.1 p.2 = u.thr p.1 p.2 := h.2.1 _ hk
      rw [hthr]
      exact h.setOther hk _
  · exact h

theorem IssuedFrom.sevFold {u v : State} {c t : Nat} (h : IssuedFrom c t u v) (b : Nat) (l : List (Nat × Nat)) :
    IssuedFrom c t (l.foldl (Machine.sevSet b) u) (l.foldl (Machine.sevSet b) v) := by
  induction l generalizing u v with
  | nil => exact h
  | cons p l ih => exact ih (h.sevSet b p)

/-- Events leave all registers, and of a thread all else. -/
theorem sevSet_keeps (b : Nat) (s : State) (p : Nat × Nat) (c t : Nat) :
    (sevSet b s p).regs = s.regs ∧ ((sevSet b s p).thr c t).pc = (s.thr c t).pc ∧ ((sevSet b s p).thr c t).state = (s.thr c t).state := by
  unfold sevSet
  split
  · refine ⟨rfl, ?_⟩
    by_cases hk : 4 * c + t = 4 * p.1 + p.2
    · have hthr (w : State) : w.thr c t = w.thr p.1 p.2 := by rw [State.thr, State.thr, hk]
      rw [hthr, hthr, State.thr_setThr_same]
      exact ⟨rfl, rfl⟩
    · have hsame (x : Thread) : (s.setThr p.1 p.2 x).thr c t = s.thr c t := smGet_smSet_other _ _ _ _ _ _ hk
      rw [hsame]
      exact ⟨rfl, rfl⟩
  · exact ⟨rfl, rfl, rfl⟩

theorem sevFold_keeps (b : Nat) (l : List (Nat × Nat)) (s : State) (c t : Nat) :
    (l.foldl (sevSet b) s).regs = s.regs ∧ ((l.foldl (sevSet b) s).thr c t).pc = (s.thr c t).pc ∧
    ((l.foldl (sevSet b) s).thr c t).state = (s.thr c t).state := by
  induction l generalizing s with
  | nil => exact ⟨rfl, rfl, rfl⟩
  | cons p l ih =>
    obtain ⟨hregs, hpc, hstate⟩ := sevSet_keeps b s p c t
    obtain ⟨hregs', hpc', hstate'⟩ := ih (sevSet b s p)
    exact ⟨hregs'.trans hregs, hpc'.trans hpc, hstate'.trans hstate⟩

theorem IssuedFrom.setDctlBit {u v : State} {c t : Nat} (h : IssuedFrom c t u v) (b : Nat) (w : Bool) :
    IssuedFrom c t (setDctlBit u c b w) (setDctlBit v c b w) := by
  obtain ⟨hthr, hothers, hrest⟩ := h
  refine ⟨hthr, hothers, ?_⟩
  rw [hrest]
  rfl

section
variable {s : State} {c : Fin 32} {h : Fin 4} (hq : Quiet s c h)
include hq

theorem sev_completes {scope core thread b : Nat} (hi : Issues s c h (.sev scope core thread b)) (hsb : (s.thr c h).sb = [])
    (hmay : swPriv (s.thr c h).sw ≠ 0 ∨ scope < 2) : Completes (.opSev c h) s fun t =>
      ThreadAt ((sevTargets scope core thread).foldl (sevSet b) s) t c h ((s.thr c h).pc + 4) none := by
  have hv := issuedFrom_issued c.val h.val hq.1
  have hexec : exec (.opSev c h) s = .next (settleRes (takeTurn s c h) c h (sevBody c h scope core thread b (s.issued c h))) :=
    congrArg Host.Outcome.next (hi.issue_eq rfl)
  have hfree : (decide (swPriv (s.thr c h).sw = 0) && decide (2 ≤ scope)) = false := by
    rcases hmay with hpriv | hscope
    · simp [hpriv]
    · simp [Nat.not_le.2 hscope]
  simp only [sevBody, hv.user, hfree, drainAll_of_empty (hv.sb.trans hsb), Bool.false_eq_true, if_false] at hexec
  obtain ⟨hregs, hpc, hstate⟩ := sevFold_keeps b (sevTargets scope core thread) s c h
  refine completes_done hq hi hexec (hv.sevFold b _) ?_ hpc hstate
  rw [State.dctlBit, State.rd, hregs]
  rfl

theorem sev_faults {scope core thread b : Nat} (hi : Issues s c h (.sev scope core thread b)) (huser : swPriv (s.thr c h).sw = 0)
    (hscope : 2 ≤ scope) : exec (.opSev c h) s = .next (trapTo (s.issued c h) c h 2 (s.thr c h).pc 0) := by
  have hv := issuedFrom_issued c.val h.val hq.1
  have hexec : exec (.opSev c h) s = .next (settleRes (takeTurn s c h) c h (sevBody c h scope core thread b (s.issued c h))) :=
    congrArg Host.Outcome.next (hi.issue_eq rfl)
  simp only [sevBody, hv.user, huser, hscope, decide_true, Bool.and_self, if_true] at hexec
  exact fault_next hq hexec

/-! ### Barrier and break (R343, R359) -/

theorem barx_waits (hi : Issues s c h .barx) (hlongs : (s.thr c h).longs ≠ []) : exec (.opBarx c h) s = .next (takeTurn s c h) := by
  have hv := issuedFrom_issued c.val h.val hq.1
  have hexec : exec (.opBarx c h) s = .next (settleRes (takeTurn s c h) c h (barxBody c h (s.issued c h))) :=
    congrArg Host.Outcome.next (hi.issue_eq rfl)
  rw [barxBody, if_pos (by rw [hv.longs]; exact hlongs)] at hexec
  exact hexec

theorem barx_completes (hi : Issues s c h .barx) (hlongs : (s.thr c h).longs = []) (hsb : (s.thr c h).sb = []) :
    Completes (.opBarx c h) s fun t => ThreadAt s t c h ((s.thr c h).pc + 4) none := by
  have hv := issuedFrom_issued c.val h.val hq.1
  have hexec : exec (.opBarx c h) s = .next (settleRes (takeTurn s c h) c h (barxBody c h (s.issued c h))) :=
    congrArg Host.Outcome.next (hi.issue_eq rfl)
  rw [barxBody, if_neg (by rw [hv.longs, hlongs]; exact fun hne => hne rfl), drainAll_of_empty (hv.sb.trans hsb)] at hexec
  exact completes_done hq hi hexec hv rfl rfl rfl

theorem brk_completes (hi : Issues s c h .brk) (hbrk : s.flag (SEP_DCTL_BRKEN c) = true) : Completes (.opBrk c h) s fun t =>
    ThreadAt (setDctlBit s c h true) t c h ((s.thr c h).pc + 4) none := by
  have hv := issuedFrom_issued c.val h.val hq.1
  have hrun : ((s.issued c h).thr c h).state = .running := (congrArg Thread.state hv.1).trans hi.running
  have hexec : exec (.opBrk c h) s = .next (settleRes (takeTurn s c h) c h (brkBody c h (s.issued c h))) :=
    congrArg Host.Outcome.next (hi.issue_eq rfl)
  rw [brkBody, hv.flag, hbrk, if_pos rfl, haltRequest, List.foldl_cons, List.foldl_nil, if_pos hrun] at hexec
  refine completes_done hq hi hexec (hv.setDctlBit h true) ?_ rfl rfl
  rw [dctlBit_setDctlBit _ _ _ (by omega), if_neg (by omega)]

theorem brk_faults (hi : Issues s c h .brk) (hbrk : s.flag (SEP_DCTL_BRKEN c) = false) :
    exec (.opBrk c h) s = .next (trapTo (s.issued c h) c h 1 (s.thr c h).pc 0) := by
  have hv := issuedFrom_issued c.val h.val hq.1
  have hexec : exec (.opBrk c h) s = .next (settleRes (takeTurn s c h) c h (brkBody c h (s.issued c h))) :=
    congrArg Host.Outcome.next (hi.issue_eq rfl)
  rw [brkBody, hv.flag, hbrk, if_neg Bool.false_ne_true] at hexec
  exact fault_next hq hexec

end

/-- Settles O48: each instruction's row, and what it leaves. -/
theorem sepiaSystem : Obligations.SepiaSystem := by
  intro c h s hq x waits ev
  refine ⟨fun rd p hp hi => ?_, fun k ra hi => ⟨mts_completes hq hi, mts_waits hq hi, mts_illegal hq hi, mts_faults hq hi⟩,
    fun rd mask hi => ⟨fun hev => ?_, fun hev => ?_⟩,
    fun rd ra n mask hi hup => ⟨fun hreached => ?_, fun hreached hev => ?_, fun hreached hev => ?_⟩,
    fun hup hrun hirq => ⟨fun rd mask => wfeWake_event hq.2 hup hrun hirq, fun rd target n mask => waittWake_count hq.2 hup hrun⟩,
    fun scope core thread b hi hsb => ⟨sev_completes hq hi hsb, sev_faults hq hi⟩,
    fun hi => ⟨barx_waits hq hi, barx_completes hq hi⟩, fun hi => ⟨brk_completes hq hi, brk_faults hq hi⟩⟩
  · obtain ⟨hval, hread⟩ : s.sreg c h p.1 = p.2 ∧ (userReads p.1 = true ↔ p.1 ∈ [0, 6, 7, 8, 10]) := by
      refine ⟨?_, by rw [userReads, List.contains_iff_mem]⟩
      simp only [List.mem_cons, List.not_mem_nil, or_false] at hp
      rcases hp with rfl | rfl | rfl | rfl | rfl | rfl | rfl | rfl | rfl | rfl | rfl <;> rfl
    rw [← hval, ← hread, Bool.not_eq_true]
    exact ⟨mfs_completes hq hi, mfs_faults hq hi⟩
  · exact waitResult_completes hq hi ((wfe_next hq hi).trans (by rw [if_pos hev]))
  · exact ⟨_, (wfe_next hq hi).trans (by rw [if_neg (not_not.2 hev)]; rfl), hold_shows hq _⟩
  · exact completes_setG hq hi ((waitt_next hq hi hup).trans (by rw [if_pos hreached]))
  · exact waitResult_completes hq hi ((waitt_next hq hi hup).trans (by rw [hreached, if_neg Bool.false_ne_true, if_pos hev]))
  · exact ⟨_, (waitt_next hq hi hup).trans (by rw [hreached, if_neg Bool.false_ne_true, if_neg (not_not.2 hev)]; rfl), hold_shows hq _⟩

end Sys2Proof.Machine
end

section
/-! SUPPORT. What is reported leaves the cores as they were; what the store buffer drains (O45, O47). -/
namespace Sys2Proof.Machine

theorem onlyReports_raiseLine (s : State) (b : Nat) : OnlyReports s (raiseLine s b) := (onlyReports_tgtUse s _).trans (onlyReports_latchLine _ b)

theorem OnlyReports.sep {s t : State} (h : OnlyReports s t) : t.sep = s.sep := by rw [h.rest]

@[simp] theorem sep_raiseLine (s : State) (b : Nat) : (raiseLine s b).sep = s.sep := (onlyReports_raiseLine s b).sep
@[simp] theorem sep_uncorrected (s : State) (f : Fld) : (uncorrected s f).sep = s.sep := (onlyReports_uncorrected s f).sep
@[simp] theorem sep_errorCompletion (s : State) : (errorCompletion s).sep = s.sep := by simp [errorCompletion]
@[simp] theorem sep_testPriv (s : State) (c i : Nat) : (testPriv s c i).sep = s.sep := by
  unfold testPriv
  split <;> simp
@[simp] theorem sep_occurPriv (s : State) (c i : Nat) : (occurPriv s c i).sep = s.sep := by
  unfold occurPriv
  (repeat' split) <;> simp
@[simp] theorem sep_sepDamage (s : State) (c : Nat) : (sepDamage s c).sep = s.sep := by simp [sepDamage]
@[simp] theorem sep_threadEvent (s : State) (c t : Nat) (f : Fld) : (threadEvent s c t f).sep = s.sep := by simp [threadEvent]
@[simp] theorem sep_dramUncorr (s : State) (a : Nat) : (dramUncorr s a).sep = s.sep := by simp [dramUncorr]

theorem sep_dramStore (s : State) (a : Nat) (bs : List Nat) : (dramStore s a bs).sep = s.sep := by
  have hfold (l : List Nat) (u : State) : (l.foldl dramUncorr u).sep = u.sep := by
    induction l generalizing u with
    | nil => rfl
    | cons b l ih => exact (ih _).trans (sep_dramUncorr u b)
  exact hfold _ s

/-! ### Stores that drain (R342, R344) -/

/-- A store that drains leaves the threads, and damages nothing. -/
theorem dataStore_keeps (s : State) (c a n v : Nat) :
    (dataStore s c a n v).sep.threads = s.sep.threads ∧ (s.sep.bad = [] → (dataStore s c a n v).sep.bad = []) := by
  unfold dataStore
  split
  · split
    · rw [sep_dramStore]
      exact ⟨rfl, id⟩
    · rw [sep_errorCompletion]
      exact ⟨rfl, id⟩
  · split
    · exact ⟨rfl, fun h => by simp [sepStore, h]⟩
    · exact ⟨rfl, id⟩

theorem thr_dataStore (s : State) (c a n v d t : Nat) : (dataStore s c a n v).thr d t = s.thr d t := by
  rw [State.thr, (dataStore_keeps s c a n v).1, State.thr]

/-- The thread with another store buffer. -/
def Thread.withSb (x : Thread) (l : List SbEntry) : Thread := { x with sb := l }

/-- `u` is `s` but for what stores of thread `t` of core `c` that drained have done: of the thread its buffer alone has changed. -/
def Drained (c t : Nat) (s u : State) : Prop :=
  u.thr c t = (s.thr c t).withSb (u.thr c t).sb ∧ (s.sep.bad = [] → u.sep.bad = [])

theorem Drained.refl (c t : Nat) (s : State) : Drained c t s s := ⟨rfl, id⟩

theorem Drained.trans {c t : Nat} {s u v : State} (h : Drained c t s u) (h' : Drained c t u v) : Drained c t s v := by
  obtain ⟨hthr, hbad⟩ := h
  obtain ⟨hthr', hbad'⟩ := h'
  refine ⟨?_, hbad' ∘ hbad⟩
  rw [hthr', hthr]
  rfl

/-- One store drains, and leaves `l` in the buffer. -/
def drainInto (s : State) (c t : Nat) (l : List SbEntry) (a n v : Nat) : State :=
  dataStore (s.setThr c t ((s.thr c t).withSb l)) c a n v

theorem thr_drainInto (s : State) (c t : Nat) (l : List SbEntry) (a n v : Nat) :
    (drainInto s c t l a n v).thr c t = (s.thr c t).withSb l := by
  rw [drainInto, thr_dataStore, State.thr_setThr_same]

theorem sb_drainInto (s : State) (c t : Nat) (l : List SbEntry) (a n v : Nat) : ((drainInto s c t l a n v).thr c t).sb = l := by
  rw [thr_drainInto]
  rfl

theorem drained_drainInto (s : State) (c t : Nat) (l : List SbEntry) (a n v : Nat) : Drained c t s (drainInto s c t l a n v) := by
  refine ⟨?_, fun h => ?_⟩
  · rw [thr_drainInto]
    rfl
  · obtain ⟨-, hbad⟩ := dataStore_keeps (s.setThr c t ((s.thr c t).withSb l)) c a n v
    exact hbad h

/-- Bytes of a buffered store that drain first where it is split. -/
def SbEntry.low (e : SbEntry) : Nat := (e.addr / e.size + 1) * e.size - e.addr

/-- A buffered store that crosses a bound of its size drains in two parts (R344). -/
def SbEntry.split (e : SbEntry) : Bool := decide ((e.size = 2 ∨ e.size = 4) ∧ e.low < e.size)

theorem split_iff (e : SbEntry) : e.split = true ↔ (e.size = 2 ∨ e.size = 4) ∧ e.low < e.size := decide_eq_true_iff

/-- What is left of a split store once its lower part has drained. -/
def SbEntry.upper (e : SbEntry) : SbEntry := { addr := e.addr + e.low, size := e.size - e.low, val := e.val / 256 ^ e.low }

theorem storeDrain_empty {s : State} {c t : Nat} (h : (s.thr c t).sb = []) : storeDrain s c t = s := by
  rw [storeDrain, h]

theorem storeDrain_oldest {s : State} {c t : Nat} {e : SbEntry} {r : List SbEntry} (h : (s.thr c t).sb = e :: r) :
    storeDrain s c t = if e.split then drainInto s c t (e.upper :: r) e.addr e.low e.val else drainInto s c t r e.addr e.size e.val := by
  simp only [storeDrain, h, split_iff]
  rfl

theorem drained_storeDrain (s : State) (c t : Nat) : Drained c t s (storeDrain s c t) := by
  cases h : (s.thr c t).sb with
  | nil =>
    rw [storeDrain_empty h]
    exact .refl ..
  | cons e r =>
    rw [storeDrain_oldest h]
    split <;> exact drained_drainInto ..

theorem drained_drainTo (c t n f : Nat) (s : State) : Drained c t s (drainTo c t n f s) := by
  induction f generalizing s with
  | zero => exact .refl ..
  | succ f ih =>
    rw [drainTo]
    split
    · exact .refl ..
    · exact (drained_storeDrain s c t).trans (ih _)

/-- The upper part of a split store drains whole. -/
theorem upper_whole {e : SbEntry} (h : e.split = true) : e.upper.split = false := by
  rw [Bool.eq_false_iff, ne_eq, split_iff]
  rw [split_iff] at h
  simp only [SbEntry.upper, SbEntry.low] at h ⊢
  obtain ⟨hsize | hsize, hlow⟩ := h
  · rw [hsize] at hlow ⊢
    omega
  · rw [hsize] at hlow ⊢
    rintro ⟨hupper | hupper, hlow'⟩
    · rw [hupper] at hlow'
      omega
    · omega

/-- Steps in which a buffer drains. -/
def drainSteps : List SbEntry → Nat
  | [] => 0
  | e :: r => (if e.split then 2 else 1) + drainSteps r

theorem drainSteps_le (l : List SbEntry) : drainSteps l ≤ 2 * l.length := by
  induction l with
  | nil => exact Nat.le_refl 0
  | cons e r ih =>
    rw [drainSteps, List.length_cons]
    split <;> omega

/-- With fuel enough the buffer drains to the end. -/
theorem drainTo_empties {c t : Nat} (f : Nat) {s : State} (h : drainSteps (s.thr c t).sb ≤ f) : ((drainTo c t 0 f s).thr c t).sb = [] := by
  induction f generalizing s with
  | zero =>
    cases hsb : (s.thr c t).sb with
    | nil => exact hsb
    | cons e r =>
      rw [hsb, drainSteps] at h
      split at h <;> omega
  | succ f ih =>
    rw [drainTo]
    cases hsb : (s.thr c t).sb with
    | nil => simp [hsb]
    | cons e r =>
      rw [if_neg (by simp), storeDrain_oldest hsb]
      rw [hsb, drainSteps] at h
      refine ih ?_
      split
      · rename_i hsplit
        rw [if_pos hsplit] at h
        rw [sb_drainInto, drainSteps, upper_whole hsplit, if_neg Bool.false_ne_true]
        omega
      · rename_i hwhole
        rw [if_neg hwhole] at h
        rw [sb_drainInto]
        omega

/-- Two stores, which is what the buffer holds, drain in the steps that a drain has. -/
theorem drainAll_empties {s : State} {c t : Nat} (h : (s.thr c t).sb.length ≤ 2) : ((drainAll s c t).thr c t).sb = [] :=
  drainTo_empties 8 ((drainSteps_le _).trans (by omega))

end Sys2Proof.Machine
end

section
/-! SUPPORT. Exceptions of the Sepia cores: entry, escalation, the return (O47). -/
namespace Sys2Proof.Machine

/-! ### The status word at an entry (R349, R353) -/

/-- The status word of an exception handler: supervisor mode, interrupts off. -/
def handlerSw (w : Word) : Word := (swSetPriv w 1) &&& 0xF7FFFFFF#32

theorem getLsbD_handlerSw (w : Word) (b : Nat) : (handlerSw w).getLsbD b =
    if b = 27 then false else if 24 ≤ b ∧ b ≤ 25 then Nat.testBit 1 (b - 24) else w.getLsbD b := by
  have hmask : ∀ b < 32, (0xF7FFFFFF#32).getLsbD b = decide (b ≠ 27) := by decide
  rw [handlerSw, BitVec.getLsbD_and, swSetPriv, getLsbD_wSetField _ _ _ (by decide) (by decide)]
  by_cases hb : b < 32
  · rw [hmask b hb]
    by_cases h27 : b = 27 <;> simp [h27]
  · rw [BitVec.getLsbD_of_ge _ b (by omega), if_neg (by omega), if_neg (by omega), Bool.false_and]

theorem swPriv_handlerSw (w : Word) : swPriv (handlerSw w) = 1 := by
  refine Nat.eq_of_testBit_eq fun i => ?_
  rw [swPriv, testBit_wField, getLsbD_handlerSw]
  by_cases hi : i < 2
  · interval_cases i <;> rfl
  · rw [decide_eq_false (by omega), Bool.false_and, Nat.testBit_eq_false_of_lt ((by decide : 1 < 2 ^ 1).trans_le (Nat.pow_le_pow_right (by decide) (by omega)))]

/-! ### The checks of an entry (R355) -/

/-- Where the frame of an exception would stand. -/
def Thread.frame (x : Thread) : Nat := (x.reg 15 - 8).toNat

/-- What an entry needs, so that it does not escalate. -/
structure Enters (s : State) (c : Nat) (x : Thread) (vec : Nat) : Prop where
  window : x.window x.frame 8 = true
  rights : rightsOk c x.sw x.frame 8 = true
  answers : s.dramAnswers x.frame 8 = true
  aligned : x.frame % 4 = 0
  room : x.shadow.length < 4
  table : x.vbr.toNat % 256 = 0
  handler : (imemKey c (handlerOf x vec).toNat).isSome = true

theorem entryCheck_closed {s : State} {c t vec : Nat} (hwindow : (s.thr c t).window (s.thr c t).frame 8 = false) :
    entryCheck s c t vec = (s, 1) := by
  rw [Thread.frame] at hwindow
  simp only [entryCheck, hwindow]
  rfl

theorem entryCheck_rights {s : State} {c t vec : Nat} (hwindow : (s.thr c t).window (s.thr c t).frame 8 = true)
    (hrights : rightsOk c (s.thr c t).sw (s.thr c t).frame 8 = false) : entryCheck s c t vec = (s, 2) := by
  rw [Thread.frame] at hwindow hrights
  simp only [entryCheck, hwindow, dataCheck_refused hrights]
  rfl

theorem entryCheck_silent {s : State} {c t vec : Nat} (hwindow : (s.thr c t).window (s.thr c t).frame 8 = true)
    (hrights : rightsOk c (s.thr c t).sw (s.thr c t).frame 8 = true) (hanswer : s.dramAnswers (s.thr c t).frame 8 = false) :
    (entryCheck s c t vec).2 = 2 := by
  rw [Thread.frame] at hwindow hrights hanswer
  simp only [entryCheck, hwindow, dataCheck, hrights, hanswer]
  rfl

/-- A handler of a table that is aligned is a word. -/
theorem handler_aligned {x : Thread} (h : x.vbr.toNat % 256 = 0) (vec : Nat) : (handlerOf x vec).toNat % 4 = 0 := by
  rw [handlerOf, BitVec.toNat_add, BitVec.toNat_ofNat]
  omega

/-- A frame that can be written: what is left are its address, the shadow and the handler. -/
theorem entryCheck_framed {s : State} {c t vec : Nat} (hbad : s.sep.bad = []) (hwindow : (s.thr c t).window (s.thr c t).frame 8 = true)
    (hrights : rightsOk c (s.thr c t).sw (s.thr c t).frame 8 = true) (hanswer : s.dramAnswers (s.thr c t).frame 8 = true) :
    entryCheck s c t vec =
      if (s.thr c t).frame % 4 ≠ 0 then (s, 3)
      else if 4 ≤ (s.thr c t).shadow.length then (s, 4)
      else if (imemKey c (handlerOf (s.thr c t) vec).toNat).isNone ∨ (s.thr c t).vbr.toNat % 256 ≠ 0 then (s, 5) else (s, 0) := by
  rw [Thread.frame] at hwindow hrights hanswer
  simp only [entryCheck, hwindow, dataCheck_passes hrights hanswer, iRead_of_undamaged hbad, State.iword]
  by_cases htable : (s.thr c t).vbr.toNat % 256 = 0
  · simp only [handler_aligned htable, ne_eq, not_true_eq_false, if_false, Option.isNone_map]
    rfl
  · simp only [htable, ne_eq, not_false_eq_true, or_true, if_true]
    rfl

theorem Enters.entryCheck {s : State} {c t vec : Nat} (hbad : s.sep.bad = []) (h : Enters s c (s.thr c t) vec) :
    entryCheck s c t vec = (s, 0) := by
  rw [entryCheck_framed hbad h.window h.rights h.answers, if_neg (not_not.2 h.aligned), if_neg (Nat.not_le.2 h.room),
    if_neg (by simp [h.table, Option.isSome_iff_ne_none.1 h.handler])]

/-- Checks that find nothing have found what an entry needs. -/
theorem enters_of_entryCheck {s : State} {c t vec : Nat} (hbad : s.sep.bad = []) (h : (entryCheck s c t vec).2 = 0) :
    Enters s c (s.thr c t) vec := by
  cases hwindow : (s.thr c t).window (s.thr c t).frame 8 with
  | false => simp [entryCheck_closed hwindow] at h
  | true =>
    cases hrights : rightsOk c (s.thr c t).sw (s.thr c t).frame 8 with
    | false => simp [entryCheck_rights hwindow hrights] at h
    | true =>
      cases hanswer : s.dramAnswers (s.thr c t).frame 8 with
      | false => simp [entryCheck_silent hwindow hrights hanswer] at h
      | true =>
        rw [entryCheck_framed hbad hwindow hrights hanswer] at h
        split_ifs at h with haligned hroom hhandler
        rw [not_or, Option.isNone_iff_eq_none, ← ne_eq, ← Option.isSome_iff_ne_none, not_not] at hhandler
        exact ⟨hwindow, hrights, hanswer, not_not.1 haligned, Nat.not_le.1 hroom, hhandler.2, hhandler.1⟩

/-! ### Entry (R353) -/

/-- The thread with what an entry saves, and the status word `sw`. -/
def Thread.saved (x : Thread) (k : Cause) (sw : Word) : Thread :=
  { x with
    epc := k.ret, esw := x.sw, shadow := swPriv x.sw :: x.shadow, sw := sw,
    fcause := k.word 0, fpc := k.fpc, faddr := k.addr, wait := none, mid := false }

theorem reg_saved (x : Thread) (k : Cause) (sw : Word) (q : Nat) : (x.saved k sw).reg q = x.reg q := rfl

theorem sb_saved (x : Thread) (k : Cause) (sw : Word) : (x.saved k sw).sb = x.sb := rfl

/-- The thread with the registers of an entry: what is saved, and where its stack goes. -/
def Thread.entered (x : Thread) (k : Cause) : Thread := (x.saved k (handlerSw x.sw)).setReg 15 (x.reg 15 - 8)

theorem reg_entered (x : Thread) (k : Cause) (q : Nat) :
    (x.entered k).reg q = if q = 15 ∧ q ≠ 0 then x.reg 15 - 8 else x.reg q := by
  rw [Thread.entered, reg_setReg, reg_saved]

theorem sb_entered (x : Thread) (k : Cause) : (x.entered k).sb = x.sb := by
  rw [Thread.entered, sb_setReg, sb_saved]

/-- The state in which the frame of an exception is in the store buffer. -/
def framed (s : State) (c t : Nat) (k : Cause) : State :=
  storePush (storePush (s.setThr c t ((s.thr c t).entered k)) c t ((s.thr c t).reg 15 - 8).toNat 4 k.ret.toNat) c t
    ((s.thr c t).reg 15 - 8 + 4).toNat 4 (s.thr c t).sw.toNat

theorem enterExc_enters {s : State} {c t : Nat} {k : Cause} (hbad : s.sep.bad = []) (hpriv : swPriv (s.thr c t).sw ≠ 3)
    (h : Enters s c (s.thr c t) k.vec) : enterExc s c t k = flushTo (framed s c t k) c t (handlerOf (s.thr c t) k.vec) := by
  simp only [enterExc, hpriv, if_false, h.entryCheck hbad]
  rfl

theorem enterExc_escalated {s : State} {c t : Nat} {k : Cause} (hpriv : swPriv (s.thr c t).sw = 3) :
    enterExc s c t k = stopThread s c t := if_pos hpriv

/-- A fault in escalation stops the thread once its stores have drained. -/
theorem stopThread_shows {s : State} {c t : Nat} (h : (s.thr c t).sb.length ≤ 2) :
    ((stopThread s c t).thr c t).state = .stopped ∧ ((stopThread s c t).thr c t).sb = [] := by
  have hthr : (stopThread s c t).thr c t = { (drainAll s c t).thr c t with
      state := .stopped, longs := [], due := [], wait := none, mid := false } := by
    rw [stopThread, thr_setDctlBit, State.thr, sep_raiseLine, sep_threadEvent]
    exact State.thr_setThr_same ..
  rw [hthr]
  exact ⟨rfl, drainAll_empties h⟩

/-- What a store put into the buffer does beside the buffer: nothing to its thread. -/
theorem drained_storePush (s : State) (c t a n v : Nat) : Drained c t s (storePush s c t a n v) := by
  have hpush : storePush s c t a n v = (drainTo c t 1 8 s).setThr c t (((drainTo c t 1 8 s).thr c t).push a n v) := rfl
  refine (drained_drainTo c t 1 8 s).trans ?_
  rw [hpush]
  refine ⟨?_, id⟩
  rw [State.thr_setThr_same]
  rfl

/-- The thread at address `a`, with another queue and store buffer. -/
def Thread.placed (x : Thread) (a : Word) (sb : List SbEntry) (queue : List (Option Word)) : Thread :=
  { x with sb := sb, pc := a, queue := queue }

theorem reg_placed (x : Thread) (a : Word) (sb : List SbEntry) (queue : List (Option Word)) (q : Nat) :
    (x.placed a sb queue).reg q = x.reg q := rfl

theorem setReg_eq (x : Thread) (r : Nat) (v : Word) :
    x.setReg r v = { x with g := (x.setReg r v).g, longs := (x.setReg r v).longs } := by
  unfold Thread.setReg
  split <;> rfl

theorem placed_setReg (x : Thread) (r : Nat) (v a : Word) (sb : List SbEntry) (queue : List (Option Word)) :
    (x.setReg r v).placed a sb queue = (x.placed a sb queue).setReg r v := by
  unfold Thread.setReg
  split <;> rfl

/-- What a thread holds of its cause and of what has been saved. -/
theorem saved_shows {x : Thread} {k : Cause} {sw a : Word} {sb : List SbEntry} {queue : List (Option Word)} {r : Nat} {v : Word} :
    let y := ((x.saved k sw).placed a sb queue).setReg r v
    y.pc = a ∧ y.epc = k.ret ∧ y.esw = x.sw ∧ y.shadow = swPriv x.sw :: x.shadow ∧ y.sw = sw ∧ y.fcause = k.word 0 ∧ y.fpc = k.fpc ∧
    y.faddr = k.addr := by
  intro y
  have hy : y = ((x.saved k sw).placed a sb queue).setReg r v := rfl
  rw [setReg_eq] at hy
  rw [hy]
  exact ⟨rfl, rfl, rfl, rfl, rfl, rfl, rfl, rfl⟩

/-- The thread as an entry leaves it, at the handler. -/
theorem handling_shows {x y : Thread} {k : Cause} {sb : List SbEntry} {queue : List (Option Word)}
    (hy : y = (x.entered k).placed (handlerOf x k.vec) sb queue) :
    y.pc = x.vbr + BitVec.ofNat 32 (16 * k.vec) ∧ y.epc = k.ret ∧ y.esw = x.sw ∧ y.reg 15 = x.reg 15 - 8 ∧
    y.shadow = swPriv x.sw :: x.shadow ∧ swPriv y.sw = 1 ∧ y.sw.getLsbD 27 = false ∧
    (∀ b, b < 24 ∨ 27 < b → y.sw.getLsbD b = x.sw.getLsbD b) ∧ y.fcause = k.word 0 ∧ y.fpc = k.fpc ∧ y.faddr = k.addr ∧
    (∀ q, q ≠ 15 → y.reg q = x.reg q) := by
  have hreg (q : Nat) : y.reg q = if q = 15 ∧ q ≠ 0 then x.reg 15 - 8 else x.reg q := by rw [hy, reg_placed, reg_entered]
  rw [Thread.entered, placed_setReg] at hy
  obtain ⟨hpc, hepc, hesw, hshadow, hsw, hfcause, hfpc, hfaddr⟩ := saved_shows (x := x) (k := k) (sw := handlerSw x.sw)
    (a := handlerOf x k.vec) (sb := sb) (queue := queue) (r := 15) (v := x.reg 15 - 8)
  rw [← hy] at hpc hepc hesw hshadow hsw hfcause hfpc hfaddr
  refine ⟨hpc, hepc, hesw, (hreg 15).trans (if_pos (by decide)), hshadow, by rw [hsw, swPriv_handlerSw], ?_, fun b hb => ?_, hfcause,
    hfpc, hfaddr, fun q hq => (hreg q).trans (if_neg fun h => hq h.1)⟩ <;> rw [hsw, getLsbD_handlerSw]
  · exact if_pos rfl
  · rw [if_neg (by omega), if_neg (by omega)]

/-- A flush leaves its thread at the address. -/
theorem thr_flushTo {s : State} (hbad : s.sep.bad = []) (c t : Nat) (a : Word) :
    ∃ queue, (flushTo s c t a).thr c t = (s.thr c t).placed a (s.thr c t).sb queue :=
  ⟨_, (flushTo_of_undamaged c t a hbad).2⟩

theorem sb_placed (x : Thread) (a : Word) (sb : List SbEntry) (queue : List (Option Word)) : (x.placed a sb queue).sb = sb := rfl

theorem placed_withSb (x : Thread) (a : Word) (sb sb' : List SbEntry) (queue : List (Option Word)) :
    (x.withSb sb').placed a sb queue = x.placed a sb queue := rfl

theorem drained_framed (s : State) (c t : Nat) (k : Cause) : Drained c t (s.setThr c t ((s.thr c t).entered k)) (framed s c t k) :=
  (drained_storePush ..).trans (drained_storePush ..)

/-- An entry that does not escalate leaves its thread at the handler. -/
theorem enterExc_handling {s : State} {c t : Nat} {k : Cause} (hbad : s.sep.bad = []) (hpriv : swPriv (s.thr c t).sw ≠ 3)
    (h : Enters s c (s.thr c t) k.vec) : ∃ queue, (enterExc s c t k).thr c t =
      ((s.thr c t).entered k).placed (handlerOf (s.thr c t) k.vec) ((framed s c t k).thr c t).sb queue := by
  obtain ⟨hthr, hkept⟩ := drained_framed s c t k
  rw [State.thr_setThr_same] at hthr
  obtain ⟨queue, hflushed⟩ := thr_flushTo (hkept hbad) c t (handlerOf (s.thr c t) k.vec)
  refine ⟨queue, ?_⟩
  rw [enterExc_enters hbad hpriv h, hflushed]
  generalize ((framed s c t k).thr c t).sb = l at hthr ⊢
  rw [hthr, placed_withSb]

/-- One more store in a buffer that has room. -/
theorem storePush_shows {s : State} {c t : Nat} (h : (s.thr c t).sb.length ≤ 1) {a n v : Nat} (ha : a < 2 ^ 32) (hv : v < 256 ^ n) :
    OnlyThread c t s (storePush s c t a n v) ∧
    ((storePush s c t a n v).thr c t).sb = (s.thr c t).sb ++ [{ addr := a, size := n, val := v }] := by
  rw [storePush_of_short h]
  refine ⟨(OnlyThread.refl c t s).setThr _, ?_⟩
  rw [State.thr_setThr_same, Thread.push, Nat.mod_eq_of_lt ha, Nat.mod_eq_of_lt hv]

/-- The frame in an empty store buffer. -/
theorem framed_shows {s : State} {c t : Nat} {k : Cause} (hsb : (s.thr c t).sb = []) : OnlyThread c t s (framed s c t k) ∧
    ((framed s c t k).thr c t).sb = [{ addr := ((s.thr c t).reg 15 - 8).toNat, size := 4, val := k.ret.toNat },
      { addr := ((s.thr c t).reg 15 - 8 + 4).toNat, size := 4, val := (s.thr c t).sw.toNat }] := by
  have hentered : ((s.setThr c t ((s.thr c t).entered k)).thr c t).sb = [] := by
    rw [State.thr_setThr_same, sb_entered, hsb]
  obtain ⟨honly, hone⟩ := storePush_shows (by rw [hentered]; exact Nat.zero_le _) ((s.thr c t).reg 15 - 8).isLt (n := 4) k.ret.isLt
  rw [hentered, List.nil_append] at hone
  obtain ⟨honly', htwo⟩ := storePush_shows (by rw [hone]; exact Nat.le_refl _) ((s.thr c t).reg 15 - 8 + 4).isLt (n := 4)
    (s.thr c t).sw.isLt
  rw [hone] at htwo
  exact ⟨(((OnlyThread.refl c t s).setThr _).trans honly).trans honly', htwo⟩

/-- With an empty store buffer it changes nothing but its thread, whose buffer then holds the frame. -/
theorem enterExc_frames {s : State} {c t : Nat} {k : Cause} (hbad : s.sep.bad = []) (hpriv : swPriv (s.thr c t).sw ≠ 3)
    (h : Enters s c (s.thr c t) k.vec) (hsb : (s.thr c t).sb = []) : OnlyThread c t s (enterExc s c t k) ∧
    ((enterExc s c t k).thr c t).sb = [{ addr := ((s.thr c t).reg 15 - 8).toNat, size := 4, val := k.ret.toNat },
      { addr := ((s.thr c t).reg 15 - 8 + 4).toNat, size := 4, val := (s.thr c t).sw.toNat }] := by
  have hframe : enterExc s c t k = flushTo (framed s c t k) c t (handlerOf (s.thr c t) k.vec) := enterExc_enters hbad hpriv h
  obtain ⟨honly, hsbs⟩ := framed_shows (k := k) hsb
  obtain ⟨hrest, -⟩ := flushTo_of_undamaged c t (handlerOf (s.thr c t) k.vec) (honly.bad.trans hbad)
  obtain ⟨queue, hflushed⟩ := thr_flushTo (honly.bad.trans hbad) c t (handlerOf (s.thr c t) k.vec)
  rw [hframe]
  refine ⟨honly.trans hrest, ?_⟩
  rw [hflushed, sb_placed, hsbs]

/-! ### TRAP and interrupts -/

/-- The thread as its precise exception finds it: products have come nearer. -/
def Thread.settled (x : Thread) : Thread := { x.age with old := none }

theorem settled_eq (x : Thread) : ∃ mul ml mh, x.settled = { x with mul := mul, ml := ml, mh := mh, old := none } := by
  obtain ⟨mul, ml, mh, hage⟩ := age_eq x
  exact ⟨mul, ml, mh, by rw [Thread.settled, hage]⟩

theorem settled_shows (x : Thread) : x.settled.vbr = x.vbr ∧ x.settled.sw = x.sw ∧ x.settled.shadow = x.shadow ∧ x.settled.sb = x.sb ∧
    x.settled.splo = x.splo ∧ x.settled.sphi = x.sphi ∧ x.settled.g = x.g := by
  obtain ⟨mul, ml, mh, h⟩ := settled_eq x
  rw [h]
  exact ⟨rfl, rfl, rfl, rfl, rfl, rfl, rfl⟩

theorem reg_congr {x y : Thread} (h : y.g = x.g) (q : Nat) : y.reg q = x.reg q := by rw [Thread.reg, h, Thread.reg]

/-- An entry needs nothing of what an issue changes. -/
theorem Enters.settled {s u : State} {c vec : Nat} {x : Thread} (h : Enters s c x vec)
    (hanswer : ∀ a n, u.dramAnswers a n = s.dramAnswers a n) : Enters u c x.settled vec := by
  obtain ⟨hvbr, hsw, hshadow, -, hlo, hhi, hg⟩ := settled_shows x
  have hframe : x.settled.frame = x.frame := by rw [Thread.frame, reg_congr hg, Thread.frame]
  have hwindow (a n : Nat) : x.settled.window a n = x.window a n := by rw [Thread.window, hlo, hhi, Thread.window]
  have hhandler : handlerOf x.settled vec = handlerOf x vec := by rw [handlerOf, hvbr, handlerOf]
  exact ⟨by rw [hframe, hwindow, h.window], by rw [hframe, hsw, h.rights], by rw [hframe, hanswer, h.answers], by rw [hframe, h.aligned],
    by rw [hshadow]; exact h.room, by rw [hvbr, h.table], by rw [hhandler, h.handler]⟩

theorem Enters.congr {s u : State} {c vec : Nat} {x : Thread} (h : Enters s c x vec)
    (hanswer : ∀ a n, u.dramAnswers a n = s.dramAnswers a n) : Enters u c x vec :=
  ⟨h.window, h.rights, (hanswer ..).trans h.answers, h.aligned, h.room, h.table, h.handler⟩

/-- What changes of its thread alone leave of a state in which an instruction has been issued. -/
theorem IssuedFrom.onlyThread {u v w : State} {c t : Nat} (h : IssuedFrom c t u v) (hw : OnlyThread c t v w) :
    w = { u with sep := { u.sep with threads := w.sep.threads, turn := smSet 0 u.sep.turn c ((t + 1) % 4) } } := by
  obtain ⟨-, -, hrest⟩ := h
  obtain ⟨hwrest, -⟩ := hw
  rw [hrest] at hwrest
  exact hwrest

/-- The state in which the precise exception of an instruction enters. -/
def settledIn (v : State) (c t : Nat) : State := v.setThr c t (v.thr c t).settled

theorem trapTo_eq (v : State) (c t vec : Nat) (ret addr : Word) : trapTo v c t vec ret addr =
    stepEnd (enterExc (settledIn v c t) c t
      { vec := vec, ret := ret, fpc := (v.thr c t).pc, addr := addr, imp := false, mult := false }) c t := rfl

/-- A precise exception that does not escalate, of a thread with an empty store buffer. -/
theorem trapTo_handling {u v : State} {c t vec : Nat} {ret addr : Word} (h : IssuedFrom c t u v) (hbad : u.sep.bad = [])
    (hstep : u.dctlBit c (8 + t) = false) (hpriv : swPriv (u.thr c t).sw ≠ 3) (henters : Enters v c (v.thr c t) vec)
    (hsb : (u.thr c t).sb = []) :
    let x := u.thr c t
    let w := trapTo v c t vec ret addr
    let y := w.thr c t
    y.pc = x.vbr + BitVec.ofNat 32 (16 * vec) ∧ y.epc = ret ∧ y.esw = x.sw ∧ y.reg 15 = x.reg 15 - 8 ∧
    y.shadow = swPriv x.sw :: x.shadow ∧ swPriv y.sw = 1 ∧ y.sw.getLsbD 27 = false ∧
    (∀ b, b < 24 ∨ 27 < b → y.sw.getLsbD b = x.sw.getLsbD b) ∧ y.fcause = BitVec.ofNat 32 vec ∧ y.fpc = x.pc ∧ y.faddr = addr ∧
    y.sb = [{ addr := (x.reg 15 - 8).toNat, size := 4, val := ret.toNat },
      { addr := (x.reg 15 - 8 + 4).toNat, size := 4, val := x.sw.toNat }] ∧
    (∀ q, q ≠ 15 → y.reg q = x.reg q) ∧
    w = { u with sep := { u.sep with threads := w.sep.threads, turn := smSet 0 u.sep.turn c ((t + 1) % 4) } } := by
  intro x w y
  obtain ⟨q, hq⟩ : ∃ q, v.thr c t = x.withQueue q := ⟨_, h.1⟩
  obtain ⟨hvbr, hsw, hshadow, hsbs, -, -, hg⟩ := settled_shows (v.thr c t)
  have hthr : (settledIn v c t).thr c t = (v.thr c t).settled := State.thr_setThr_same ..
  have hin : OnlyThread c t v (settledIn v c t) := (OnlyThread.refl c t v).setThr _
  have hbad' : (settledIn v c t).sep.bad = [] := hin.bad.trans (h.bad.trans hbad)
  have hpriv' : swPriv ((settledIn v c t).thr c t).sw ≠ 3 := by rwa [hthr, hsw, h.sw]
  have henters' : Enters (settledIn v c t) c ((settledIn v c t).thr c t) vec := by
    rw [hthr]
    exact henters.settled fun a n => by rw [hin.1]; rfl
  let k : Cause := { vec := vec, ret := ret, fpc := (v.thr c t).pc, addr := addr, imp := false, mult := false }
  obtain ⟨honly, hframe⟩ := enterExc_frames (k := k) hbad' hpriv' henters' (by rw [hthr, hsbs, h.sb, hsb])
  obtain ⟨queue, hhandling⟩ := enterExc_handling (k := k) hbad' hpriv' henters'
  have hw : w = enterExc (settledIn v c t) c t k := by
    have hquiet : (enterExc (settledIn v c t) c t k).dctlBit c (8 + t) = false :=
      ((hin.trans honly).dctlBit ..).trans ((h.dctlBit ..).trans hstep)
    exact stepEnd_unstepped hquiet
  have hy : y = (enterExc (settledIn v c t) c t k).thr c t := congrArg (·.thr c t) hw
  have hreg (r : Nat) : ((settledIn v c t).thr c t).reg r = x.reg r := by rw [hthr, reg_congr hg, hq, reg_withQueue]
  have hsame : ((settledIn v c t).thr c t).vbr = x.vbr ∧ ((settledIn v c t).thr c t).sw = x.sw ∧
      ((settledIn v c t).thr c t).shadow = x.shadow := by
    rw [hthr, hvbr, hsw, hshadow, hq]
    exact ⟨rfl, rfl, rfl⟩
  obtain ⟨hvbr', hsw', hshadow'⟩ := hsame
  obtain ⟨hpc, hepc, hesw, h15, hshadowy, hprivy, h27, hbits, hfcause, hfpc, hfaddr, hregs⟩ := handling_shows (hy.trans hhandling)
  rw [hreg, hsw', ← hy] at hframe
  rw [hvbr'] at hpc
  rw [hsw'] at hesw hbits hshadowy
  rw [hshadow'] at hshadowy
  rw [hreg] at h15
  refine ⟨hpc, hepc, hesw, h15, hshadowy, hprivy, h27, hbits, ?_, hfpc.trans h.pc, hfaddr, hframe, fun r hr => (hregs r hr).trans (hreg r), ?_⟩
  · rw [hfcause]
    simp [k, Cause.word, b2n]
  · rw [hw]
    exact h.onlyThread (hin.trans honly)

/-- A free value leaves what an entry looks at. -/
theorem fresh_keeps (s : State) : (s.fresh.2.sep = s.sep ∧ ∀ c t, s.fresh.2.thr c t = s.thr c t) ∧
    ∀ a n, s.fresh.2.dramAnswers a n = s.dramAnswers a n := by
  have hfresh : s.fresh.2 = { s with freeCtr := s.freeCtr + 1 } := rfl
  rw [hfresh]
  exact ⟨⟨rfl, fun _ _ => rfl⟩, fun _ _ => rfl⟩

/-- An interrupt that is due is taken where the entry does not escalate. -/
theorem interruptEntry_handling {s : State} {c t : Nat} (hthread : s.fld (Reg.SEP_CCFG_ITHR c) = t) (hbad : s.sep.bad = [])
    (hup : s.coreUp c = true) (hrun : (s.thr c t).state = .running) (hwait : (s.thr c t).wait = none) (hhalt : s.dctlBit c t = false)
    (hdue : (s.thr c t).due = []) (hirq : s.irqDue c t = true) (henters : Enters s c (s.thr c t) 0x10) :
    let x := s.thr c t
    let y := (interruptEntry s c).thr c t
    y.pc = x.vbr + 0x100 ∧ y.epc = x.pc ∧ y.esw = x.sw ∧ y.shadow = swPriv x.sw :: x.shadow ∧ swPriv y.sw = 1 ∧
    y.sw.getLsbD 27 = false ∧ y.fcause = 0x10 ∧ y.faddr = 0 := by
  intro x y
  let k : Cause := { vec := 0x10, ret := x.pc, fpc := s.fresh.1.truncate 32, addr := 0, imp := false, mult := false }
  have hpriv : swPriv x.sw ≠ 3 := by
    simp only [State.irqDue, Bool.and_eq_true, decide_eq_true_eq] at hirq
    exact hirq.2
  have hentry : interruptEntry s c = enterExc s.fresh.2 c t k := by
    simp [interruptEntry, hthread, hup, hrun, hwait, hhalt, hdue, hirq, k, x]
  obtain ⟨⟨hsep, hthr⟩, hanswer⟩ := fresh_keeps s
  obtain ⟨queue, hhandling⟩ := enterExc_handling (s := s.fresh.2) (c := c) (t := t) (k := k) (by rw [hsep, hbad]) (by rw [hthr]; exact hpriv)
    (by rw [hthr]; exact henters.congr hanswer)
  rw [hthr] at hhandling
  have hy : y = (enterExc s.fresh.2 c t k).thr c t := congrArg (·.thr c t) hentry
  obtain ⟨hpc, hepc, hesw, -, hshadow, hprivy, h27, -, hfcause, -, hfaddr, -⟩ := handling_shows (hy.trans hhandling)
  have hvec : k.word 0 = 0x10 := by simp [k, Cause.word, b2n]
  exact ⟨hpc, hepc, hesw, hshadow, hprivy, h27, hfcause.trans hvec, hfaddr⟩

/-! ### The return (R354, R356) -/

/-- The thread that returns from escalation. -/
def Thread.leftEscalation (x : Thread) : Thread := Thread.setReg { x with sw := x.esw, shadow := [] } 15 x.xg15

theorem leftEscalation_withQueue (x : Thread) (q : List (Option Word)) :
    (x.withQueue q).leftEscalation = x.leftEscalation.withQueue q := setReg_withQueue { x with sw := x.esw, shadow := [] } q 15 x.xg15

/-- The thread that returns in supervisor mode, with the privilege `p` and status word `w` of its frame. -/
def Thread.leftHandler (rest : List Nat) (w : Word) (p : Nat) (sp : Word) (x : Thread) : Thread :=
  Thread.setReg { x with shadow := rest, sw := swSetPriv (swMask w) p } 15 sp

theorem leftHandler_withQueue (rest : List Nat) (w : Word) (p : Nat) (sp : Word) (x : Thread) (q : List (Option Word)) :
    (x.withQueue q).leftHandler rest w p sp = (x.leftHandler rest w p sp).withQueue q :=
  setReg_withQueue { x with shadow := rest, sw := swSetPriv (swMask w) p } q 15 sp

section
variable {s : State} {c : Fin 32} {h : Fin 4} (hq : Quiet s c h) (hi : Issues s c h .retx)
include hq hi

theorem retx_user {e : Upset} (huser : swPriv (s.thr c h).sw = 0) :
    exec (.opRetx c h e) s = .next (trapTo (s.issued c h) c h 2 (s.thr c h).pc 0) := by
  have hv := issuedFrom_issued c.val h.val hq.1
  have hexec : exec (.opRetx c h e) s = .next (settleRes (takeTurn s c h) c h (retxBody c h e (s.issued c h))) :=
    congrArg Host.Outcome.next (hi.issue_eq rfl)
  rw [retxBody, hv.user, if_pos (decide_eq_true huser)] at hexec
  exact fault_next hq hexec

/-- In escalation: it waits where it would set PRECISE with long operations outstanding, and else reads no memory. -/
theorem retx_escalated {e : Upset} (hpriv : swPriv (s.thr c h).sw = 3) :
    exec (.opRetx c h e) s = .next (settleRes (takeTurn s c h) c h
      (if (s.thr c h).esw.getLsbD 31 = true ∧ (s.thr c h).longs ≠ [] then .wait
       else .jump ((s.issued c h).setThr c h ((s.issued c h).thr c h).leftEscalation) (s.thr c h).epc)) := by
  have hv := issuedFrom_issued c.val h.val hq.1
  have hexec : exec (.opRetx c h e) s = .next (settleRes (takeTurn s c h) c h (retxBody c h e (s.issued c h))) :=
    congrArg Host.Outcome.next (hi.issue_eq rfl)
  rw [retxBody, hv.user, hv.sw, if_neg (by simp [hpriv]), if_pos hpriv, retxEsc] at hexec
  obtain ⟨q, hthr⟩ := thr_issued c.val h.val hq.1
  rw [hthr] at hexec ⊢
  exact hexec

/-- In supervisor mode, with a frame in core memory whose words are the return address and the status word. -/
theorem retx_supervisor {key : Nat} (huser : swPriv (s.thr c h).sw ≠ 0) (hesc : swPriv (s.thr c h).sw ≠ 3) (hsb : (s.thr c h).sb = [])
    (hwindow : (s.thr c h).window ((s.thr c h).use 15).toNat 8 = true)
    (hrights : rightsOk c (s.thr c h).sw ((s.thr c h).use 15).toNat 8 = true) (hkey : dmemKey c ((s.thr c h).use 15).toNat = some key) :
    exec (.opRetx c h .none) s = .next (settleRes (takeTurn s c h) c h
      (match (s.thr c h).shadow with
        | [] => Res.fault (s.issued c h) c h 9 0
        | p :: rest =>
          if swPriv (BitVec.ofNat 32 (memWord s.sep.mem (key + 4))) ≠ p then Res.fault (s.issued c h) c h 9 0
          else if (BitVec.ofNat 32 (memWord s.sep.mem (key + 4))).getLsbD 31 = true ∧ (s.thr c h).longs ≠ [] then .wait
          else .jump ((s.issued c h).setThr c h (((s.issued c h).thr c h).leftHandler rest
            (BitVec.ofNat 32 (memWord s.sep.mem (key + 4))) p ((s.thr c h).use 15 + 8))) (BitVec.ofNat 32 (memWord s.sep.mem key)))) := by
  have hv := issuedFrom_issued c.val h.val hq.1
  have hexec : exec (.opRetx c h .none) s = .next (settleRes (takeTurn s c h) c h (retxBody c h .none (s.issued c h))) :=
    congrArg Host.Outcome.next (hi.issue_eq rfl)
  have hcheck := stackCheck_passes hv hwindow hrights (dramAnswers_of_key hrights hkey (by decide))
  have hwords := loadWords_of_keys (acc := []) (hv.bad.trans hq.1) (hv.sb.trans hsb)
    fun i (hi : i < 2) => wordKey_of_rights (n := 2) hrights hkey (by decide) hi
  rw [hv.mem] at hwords
  rw [retxBody, hv.user, hv.sw, if_neg (by simp [huser]), if_neg hesc, retxSup] at hexec
  simp only [hv.use, hcheck, hwords] at hexec
  obtain ⟨q, hthr⟩ := thr_issued c.val h.val hq.1
  rw [hthr] at hexec ⊢
  exact hexec

theorem retx_leaves_escalation (hpriv : swPriv (s.thr c h).sw = 3)
    (hfree : (s.thr c h).esw.getLsbD 31 = false ∨ (s.thr c h).longs = []) : Completes (.opRetx c h .none) s fun t =>
      ThreadAt (s.setThr c h (s.thr c h).leftEscalation) t c h (s.thr c h).epc none := by
  have hno : ¬((s.thr c h).esw.getLsbD 31 = true ∧ (s.thr c h).longs ≠ []) := by
    rintro ⟨hbit, hlongs⟩
    rcases hfree with hclear | hnone
    · rw [hclear] at hbit
      cases hbit
    · exact hlongs hnone
  have honly : OnlyThread c h s (s.setThr c h (s.thr c h).leftEscalation) := (OnlyThread.refl c h s).setThr _
  exact completes_jump hq ((retx_escalated hq hi hpriv).trans (by rw [if_neg hno]))
    ((issuedFrom_issued c h hq.1).mapThr leftEscalation_withQueue) (honly.dctlBit ..) honly.bad

section
variable {key : Nat} (huser : swPriv (s.thr c h).sw ≠ 0) (hesc : swPriv (s.thr c h).sw ≠ 3) (hsb : (s.thr c h).sb = [])
  (hwindow : (s.thr c h).window ((s.thr c h).use 15).toNat 8 = true)
  (hrights : rightsOk c (s.thr c h).sw ((s.thr c h).use 15).toNat 8 = true) (hkey : dmemKey c ((s.thr c h).use 15).toNat = some key)
include huser hesc hsb hwindow hrights hkey

theorem retx_leaves_handler {p : Nat} {rest : List Nat} (hshadow : (s.thr c h).shadow = p :: rest)
    (hpriv : swPriv (BitVec.ofNat 32 (memWord s.sep.mem (key + 4))) = p)
    (hfree : (BitVec.ofNat 32 (memWord s.sep.mem (key + 4))).getLsbD 31 = false ∨ (s.thr c h).longs = []) :
    Completes (.opRetx c h .none) s fun t =>
      ThreadAt (s.setThr c h ((s.thr c h).leftHandler rest (BitVec.ofNat 32 (memWord s.sep.mem (key + 4))) p ((s.thr c h).use 15 + 8)))
        t c h (BitVec.ofNat 32 (memWord s.sep.mem key)) none := by
  have hno : ¬((BitVec.ofNat 32 (memWord s.sep.mem (key + 4))).getLsbD 31 = true ∧ (s.thr c h).longs ≠ []) := by
    rintro ⟨hbit, hlongs⟩
    rcases hfree with hclear | hnone
    · rw [hclear] at hbit
      cases hbit
    · exact hlongs hnone
  have hexec := retx_supervisor hq hi huser hesc hsb hwindow hrights hkey
  simp only [hshadow, ne_eq, hpriv, not_true_eq_false, if_false, if_neg hno] at hexec
  have honly : OnlyThread c h s (s.setThr c h ((s.thr c h).leftHandler rest (BitVec.ofNat 32 (memWord s.sep.mem (key + 4))) p
    ((s.thr c h).use 15 + 8))) := (OnlyThread.refl c h s).setThr _
  exact completes_jump hq hexec ((issuedFrom_issued c h hq.1).mapThr (leftHandler_withQueue rest _ p _)) (honly.dctlBit ..) honly.bad

/-- A frame whose privilege is not the shadow's is an exception. -/
theorem retx_mismatch (hpriv : ∀ p ∈ (s.thr c h).shadow.head?, swPriv (BitVec.ofNat 32 (memWord s.sep.mem (key + 4))) ≠ p) :
    exec (.opRetx c h .none) s = .next (trapTo (s.issued c h) c h 9 (s.thr c h).pc 0) := by
  have hexec := retx_supervisor hq hi huser hesc hsb hwindow hrights hkey
  refine fault_next hq (hexec.trans ?_)
  cases hshadow : (s.thr c h).shadow with
  | nil => rfl
  | cons p rest =>
    rw [hshadow] at hpriv
    simp only [if_pos (hpriv p rfl)]

end

end

/-- Settles O47: what an entry leaves, why it escalates, where a return goes. -/
theorem sepiaExceptions : Obligations.SepiaExceptions := by
  refine ⟨fun c h s hq hi => ?_, fun c h s hthread hq hup => ?_, fun c h vec s hbad => ?_, fun c h s hq hi hpriv => ⟨?_, fun hsb k => ?_⟩,
    fun c h s hq hi => ⟨retx_user hq hi, fun e hpriv hbit hlongs => ?_, retx_leaves_escalation hq hi,
      fun huser hesc hsb hwindow hrights key hkey => ⟨fun p rest => retx_leaves_handler hq hi huser hesc hsb hwindow hrights hkey,
        retx_mismatch hq hi huser hesc hsb hwindow hrights hkey⟩⟩⟩
  · intro x a hpriv hcheck hsb
    have hv := issuedFrom_issued c.val h.val hq.1
    have henters := enters_of_entryCheck (hv.bad.trans hq.1) (congrArg Prod.snd hcheck)
    have hnext : exec (.opTrap c h) s = .next (trapTo (s.issued c h) c h 0x0A (x.pc + 4) 0) := by
      have hexec : exec (.opTrap c h) s = .next (settleRes (takeTurn s c h) c h (trapBody c h (s.issued c h))) :=
        congrArg Host.Outcome.next (hi.issue_eq rfl)
      rw [trapBody, hv.pc] at hexec
      exact hexec
    obtain ⟨hpc, hepc, hesw, h15, hshadow, hprivy, h27, hbits, hfcause, hfpc, hfaddr, hframe, hregs, hrest⟩ :=
      trapTo_handling (ret := x.pc + 4) (addr := 0) hv hq.1 hq.2 hpriv henters hsb
    exact ⟨_, hnext, hpc, hepc, hesw, h15, hshadow, hprivy, h27, hbits, hfcause, hfpc, hfaddr, hframe, hregs, hrest⟩
  · intro x hrun hwait hhalt hdue hirq hcheck
    exact ⟨_, rfl, interruptEntry_handling hthread hq.1 hup hrun hwait hhalt hdue hirq
      (enters_of_entryCheck hq.1 (congrArg Prod.snd hcheck))⟩
  · intro x a
    refine ⟨fun hwindow => congrArg Prod.snd (entryCheck_closed hwindow), entryCheck_rights, fun hwindow hrights hanswer => ?_⟩
    have hframed := entryCheck_framed (vec := vec) hbad hwindow hrights hanswer
    refine ⟨fun hodd => hframed.trans (if_pos hodd), fun haligned hfull => ?_, fun haligned hroom => ⟨fun hno => ?_, fun htable hhandler => ?_⟩⟩
    · exact hframed.trans ((if_neg (not_not.2 haligned)).trans (if_pos hfull))
    · refine hframed.trans ((if_neg (not_not.2 haligned)).trans ((if_neg (Nat.not_le.2 hroom)).trans (if_pos ?_)))
      exact hno.symm.imp Option.isNone_iff_eq_none.2 id
    · exact Enters.entryCheck hbad ⟨hwindow, hrights, hanswer, haligned, hroom, htable, hhandler⟩
  · have hv := issuedFrom_issued c.val h.val hq.1
    have hexec : exec (.opTrap c h) s = .next (settleRes (takeTurn s c h) c h (trapBody c h (s.issued c h))) :=
      congrArg Host.Outcome.next (hi.issue_eq rfl)
    rw [trapBody, hv.pc] at hexec
    exact hexec
  · rw [enterExc_escalated hpriv]
    exact stopThread_shows hsb
  · rw [retx_escalated hq hi hpriv, if_pos ⟨hbit, hlongs⟩]
    rfl

end Sys2Proof.Machine
end

section
/-! SUPPORT. Reads of the register window leave the cores as they were (O45). -/
namespace Sys2Proof.Machine

@[simp] theorem sep_meetDamaged (s : State) (off : Nat) : (meetDamaged s off).sep = s.sep := by
  unfold meetDamaged
  (repeat' split) <;> simp

/-! ### Registers whose reads have an effect -/

theorem sep_pidRead (s : State) (n : Nat) : (pidRead s n).2.sep = s.sep := State.setFld_sep ..
theorem sep_sentRead (s : State) (n : Nat) : (sentRead s n).2.sep = s.sep :=
  (State.setFld_sep ..).trans (State.setFld_sep ..)
theorem sep_stampRead (s : State) : (stampRead s).2.sep = s.sep :=
  (State.wr_sep ..).trans ((State.wr_sep ..).trans (State.wr_sep ..))
theorem sep_xidRead (s : State) : (xidRead s).2.sep = s.sep := State.wr_sep ..
theorem sep_rtimeRead (s : State) : (rtimeRead s).2.sep = s.sep := State.wr_sep ..
theorem sep_snapRead (s : State) : (snapRead s).2.sep = s.sep := State.wr_sep ..
theorem sep_pageRead (s : State) : (pageRead s).2.sep = s.sep := (State.setFld_sep ..).trans (State.setFld_sep ..)
theorem sep_lastSwapRead (s : State) : (lastSwapRead s).2.sep = s.sep :=
  (State.wr_sep ..).trans ((State.wr_sep ..).trans (State.setFld_sep ..))
theorem sep_fltReadLo (s : State) : (fltReadLo s).2.sep = s.sep := State.wr_sep ..
theorem sep_fltReadTime (s : State) : (fltReadTime s).2.sep = s.sep := State.wr_sep ..
theorem sep_roCurRead (s : State) : (roCurRead s).2.sep = s.sep := by
  unfold roCurRead
  extract_lets t
  unfold t
  split <;> simp
theorem sep_tmrReadCnt (s : State) (n : Nat) : (tmrReadCnt s n).2.sep = s.sep := by
  unfold tmrReadCnt
  (repeat' split) <;> simp
theorem sep_tmrPop (s : State) (n : Nat) : (tmrPop s n).sep = s.sep := by simp [tmrPop]

theorem onlyReports_tmrEvent (s : State) (n : Nat) (f : Fld) (ien : Nat) : OnlyReports s (tmrEvent s n f ien) := by
  have hset : OnlyReports s (withDev n (fun s => s.event f) s) := ((OnlyReports.refl s).event f).trans (onlyReports_edgeDev _ _ _)
  exact .ite (hset.trans ((onlyReports_tgtUse _ n).trans (onlyReports_occurDev _ n))) hset

@[simp] theorem sep_tmrEvent (s : State) (n : Nat) (f : Fld) (ien : Nat) : (tmrEvent s n f ien).sep = s.sep :=
  (onlyReports_tmrEvent s n f ien).sep

/-- What both branches keep, a choice keeps. -/
theorem sep_ite {p : Prop} [Decidable p] {s t u : State} (ht : t.sep = s.sep) (hu : u.sep = s.sep) : (if p then t else u).sep = s.sep := by
  split
  · exact ht
  · exact hu

theorem sep_tmrStore (s : State) (n : Nat) (lo hi : Word) : (tmrStore s n lo hi).sep = s.sep := by
  have hlink (u : State) : (if u.linked n then
      let y := u.timer (n + 1)
      (u.setTimer (n + 1) { y with caps := y.caps ++ [hi] }).setFld (Reg.TMR_STAT_NUM (n + 1)) (y.caps.length + 1) else u).sep = u.sep :=
    sep_ite ((State.setFld_sep ..).trans (State.setTimer_sep ..)) rfl
  exact sep_ite ((sep_tmrEvent ..).trans ((State.setFld_sep ..).trans ((hlink _).trans (State.setTimer_sep ..)))) (State.event_sep ..)

theorem sep_tmrReadCap (s : State) (n : Nat) : (tmrReadCap s n).2.sep = s.sep := by
  unfold tmrReadCap
  split
  · split <;> simp
  · split
    · rfl
    · extract_lets t x u
      have ht : t.sep = s.sep := sep_tmrPop s n
      have hu : u.sep = s.sep := sep_ite ((State.setTimer_sep ..).trans ((sep_tmrPop t (n + 1)).trans ht)) ht
      split
      · exact hu
      · exact (sep_tmrStore ..).trans (sep_ite hu ((State.setFld_sep ..).trans hu))

theorem sep_evRead (s : State) (k : Nat) : (evRead s k).2.sep = s.sep := rfl

theorem sep_irqClaim (s : State) (c : Nat) : (irqClaim s c).2.sep = s.sep := by
  have hstack : (checkStack s c).sep = s.sep := sep_ite rfl (by simp [orderError])
  unfold irqClaim
  extract_lets t
  split
  · exact hstack
  · unfold State.setSrcOf
    split <;> exact hstack

theorem sep_imgRead (s : State) : (imgRead s).2.sep = s.sep := by
  unfold imgRead wordAccess
  dsimp only
  (repeat' split) <;> simp [State.fresh]

theorem sep_dbgRead (s : State) (c : Nat) : (dbgAccess s c none).2.sep = s.sep := by
  simp only [dbgAccess]
  split <;> rfl

theorem sep_memdRead (s : State) (c : Nat) : (memdAccess s c none .none).2.sep = s.sep := by
  unfold memdAccess
  extract_lets k t
  split
  · rfl
  · contradiction
  · dsimp only [sepUpset]
    split
    · exact sep_sepDamage ..
    · rfl

/-- What holds of all reads of an indexed family holds of the one that answers. -/
theorem onReg_forall {P : Word × State → Prop} {off base stride n : Nat} {f : Nat → Word × State} (hf : ∀ k, P (f k)) :
    ∀ r, onReg off base stride n f = some r → P r := by
  rintro r h
  obtain ⟨k, -, rfl⟩ := Option.map_eq_some_iff.1 h
  exact hf k

theorem orElse_forall {P : Word × State → Prop} {o p : Option (Word × State)} (ho : ∀ r, o = some r → P r)
    (hp : ∀ r, p = some r → P r) : ∀ r, (o <|> p) = some r → P r := by
  cases o with
  | none => simpa using hp
  | some u => simpa using ho

theorem sep_readActs {s : State} {off : Nat} : ∀ r, s.readActs off = some r → r.2.sep = s.sep := by
  unfold State.readActs
  split
  case h_3 => exact onReg_forall (P := fun r => r.2.sep = s.sep) fun k => sep_sentRead s k
  case h_4 => exact onReg_forall (P := fun r => r.2.sep = s.sep) fun k => sep_pidRead s k
  case h_7 =>
    split
    · rintro _ ⟨⟩
      exact sep_snapRead s
    · exact orElse_forall (P := fun r => r.2.sep = s.sep) (onReg_forall fun k => sep_tmrReadCnt s k)
        (orElse_forall (onReg_forall fun k => sep_tmrReadCap s k) (onReg_forall fun k => sep_evRead s k))
  case h_8 => exact orElse_forall (P := fun r => r.2.sep = s.sep) (onReg_forall fun k => sep_dbgRead s k) (onReg_forall fun k => sep_memdRead s k)
  case h_9 => exact onReg_forall (P := fun r => r.2.sep = s.sep) fun k => sep_irqClaim s k
  all_goals (repeat' split) <;> rintro _ ⟨⟩
  · exact sep_stampRead s
  · exact sep_xidRead s
  · exact sep_rtimeRead s
  · exact sep_roCurRead s
  · exact sep_pageRead s
  · exact sep_lastSwapRead s
  · exact sep_imgRead s
  · exact sep_fltReadLo s
  · exact sep_fltReadTime s

theorem sep_readReg (s : State) (off : Nat) (d : RegDef) : (readReg s off d).2.sep = s.sep := by
  unfold readReg
  split
  · exact sep_readActs _ ‹_›
  · extract_lets live r
    have hclear : (readClear s off d.rc).2.sep = s.sep := rfl
    have hecc : (eccCleared (readClear s off d.rc).2 off).sep = s.sep := by
      unfold eccCleared
      split
      · exact (sep_testPriv ..).trans hclear
      · exact hclear
    split
    · rfl
    · split
      · rfl
      · exact hecc

/-- A read of the window leaves the cores. -/
theorem sep_busRead (s : State) (off : Nat) : (busRead s off).2.2.sep = s.sep := by
  have hplain : (readPlain s (off / 4 * 4)).2.sep = s.sep := by
    unfold readPlain
    split
    · rfl
    · split
      · exact sep_readReg ..
      · rfl
  simp only [busRead]
  split
  · exact sep_errorCompletion s
  · split
    · exact sep_meetDamaged ..
    · exact hplain

end Sys2Proof.Machine
end

section
/-! SUPPORT. Loads, stores and accesses to instruction and I/O space of the Sepia cores (O45). -/
namespace Sys2Proof.Machine
open Reg

/-! ### What the body of an access finds as it was -/

theorem IssuedFrom.addrOf {u v : State} {c t : Nat} (h : IssuedFrom c t u v) (ra k : Nat) :
    (v.thr c t).addrOf ra k = (u.thr c t).addrOf ra k := by rw [Thread.addrOf, h.use, Thread.addrOf]

theorem IssuedFrom.windowFor {u v : State} {c t : Nat} (h : IssuedFrom c t u v) (ra a n : Nat) :
    (v.thr c t).windowFor ra a n = (u.thr c t).windowFor ra a n := by rw [Thread.windowFor, h.window, Thread.windowFor]

theorem IssuedFrom.dram {u v : State} {c t : Nat} (h : IssuedFrom c t u v) : v.dram = u.dram := by rw [h.2.2]

/-- The register that a load leaves readable to the next instruction (R339). -/
def State.loadOld (s : State) (c t rd : Nat) : Option (Nat × Word) :=
  if s.flag (SEP_CCFG_OPEN c) && decide (rd ≠ 0) then some (rd, (s.thr c t).reg rd) else none

theorem IssuedFrom.loadDone {u v : State} {c t : Nat} (h : IssuedFrom c t u v) (rd : Nat) (w : Word) :
    loadDone v c t rd w = .done (v.setG c t rd w) (u.loadOld c t rd) := by
  rw [Machine.loadDone, h.flag, reg_issuedFrom h, State.loadOld]

/-! ### Loads (R342, R345) -/

theorem loadRow_issues {s : State} {c t op rd ra k : Nat} {e : Upset} (h : Issues s c t (.imm op rd ra k)) :
    loadRow c t op e s = settleRes (takeTurn s c t) c t (loadBody c t op rd ra k e (s.issued c t)) := h.issue_eq (by simp)

section
variable {i : Instr} {s : State} {c t op rd ra k n : Nat} {sg : Bool} (hq : Quiet s c t) (hi : Issues s c t (.imm op rd ra k))
  (hkind : loadKind op = (n, sg)) (hexec : exec i s = .next (loadRow c t op .none s))
  (hwindow : (s.thr c t).windowFor ra ((s.thr c t).addrOf ra k).toNat n = true)
include hq hi hkind hexec hwindow

/-- A load of core memory, with an empty store buffer. -/
theorem load_core {key : Nat} (hn : n ≤ 4) (hsb : (s.thr c t).sb = []) (hkey : dmemKey c ((s.thr c t).addrOf ra k).toNat = some key)
    (hrights : rightsOk c (s.thr c t).sw ((s.thr c t).addrOf ra k).toNat n = true) : Completes i s fun w =>
      ThreadAt (s.setG c t rd (loadValue n sg (leNat (memBytes s.sep.mem key n)))) w c t ((s.thr c t).pc + 4) (s.loadOld c t rd) := by
  have hv := issuedFrom_issued c t hq.1
  have hcheck := dataCheck_of_key (s := s.issued c t) hrights hkey (by omega)
  rw [loadRow_issues hi] at hexec
  simp only [loadBody, hv.addrOf, hkind, hv.windowFor, hwindow, hv.sw, inDram_of_key hkey, hcheck, hv.dataRead hq.1 hsb ⟨hrights, hkey⟩,
    hv.loadDone] at hexec
  exact completes_setG hq hi hexec

/-- A load of the DRAM window begins. -/
theorem load_dram (hsb : (s.thr c t).sb = []) (hin : inDram ((s.thr c t).addrOf ra k).toNat = true)
    (hprecise : (s.thr c t).sw.getLsbD 31 = false) : Completes i s fun w =>
      ThreadAt (s.setThr c t ((s.thr c t).withLong rd (.load ((s.thr c t).addrOf ra k).toNat n sg
        (rightsOk c (s.thr c t).sw ((s.thr c t).addrOf ra k).toNat n)
        (leNat (memBytes s.dram.mem (((s.thr c t).addrOf ra k).toNat - 0x40000000) n))))) w c t ((s.thr c t).pc + 4) none := by
  have hv := issuedFrom_issued c t hq.1
  rw [loadRow_issues hi] at hexec
  simp only [loadBody, hv.addrOf, hkind, hv.windowFor, hwindow, hin, if_true, longLoad, longBytes, forward_of_empty (hv.sb.trans hsb), hv.sw,
    hv.dram, longStart_begins hv hprecise] at hexec
  exact completes_mapThr (f := fun x => x.withLong rd _) hq hi (fun _ _ => rfl) (fun _ => ⟨rfl, rfl⟩) hexec

theorem load_faults (hout : inDram ((s.thr c t).addrOf ra k).toNat = false)
    (hrights : rightsOk c (s.thr c t).sw ((s.thr c t).addrOf ra k).toNat n = false) :
    exec i s = .next (trapTo (s.issued c t) c t 4 (s.thr c t).pc ((s.thr c t).addrOf ra k)) := by
  have hv := issuedFrom_issued c t hq.1
  rw [loadRow_issues hi] at hexec
  simp only [loadBody, hv.addrOf, hkind, hv.windowFor, hwindow, hout, hv.sw, dataCheck_refused hrights] at hexec
  exact fault_next hq hexec

end

/-! ### Stores (R342, R344) -/

theorem store_completes {i : Instr} {s : State} {c t op rd ra k n : Nat} (hq : Quiet s c t) (hi : Issues s c t (.imm op rd ra k))
    (hexec : exec i s = .next (storeRow c t op n s)) (hwindow : (s.thr c t).windowFor ra ((s.thr c t).addrOf ra k).toNat n = true)
    (hrights : rightsOk c (s.thr c t).sw ((s.thr c t).addrOf ra k).toNat n = true)
    (hanswer : s.dramAnswers ((s.thr c t).addrOf ra k).toNat n = true) (hsb : (s.thr c t).sb.length ≤ 1) : Completes i s fun w =>
      ThreadAt (s.setThr c t ((s.thr c t).push ((s.thr c t).addrOf ra k).toNat n ((s.thr c t).use rd).toNat)) w c t
        ((s.thr c t).pc + 4) none := by
  have hv := issuedFrom_issued c t hq.1
  have hrow : storeRow c t op n s = settleRes (takeTurn s c t) c t (storeBody c t n rd ra k (s.issued c t)) := hi.issue_eq (by simp)
  have hcheck : dataCheck (s.issued c t) c (s.thr c t).sw ((s.thr c t).addrOf ra k).toNat n = (s.issued c t, true) :=
    dataCheck_passes hrights ((hv.dramAnswers ..).trans hanswer)
  rw [hrow] at hexec
  simp only [storeBody, hv.addrOf, hv.windowFor, hwindow, hv.sw, hcheck, hv.use, Bool.not_true, Bool.false_eq_true, if_false] at hexec
  rw [storePush_of_short (by rw [hv.sb]; exact hsb)] at hexec
  exact completes_mapThr (f := fun x => x.push _ n _) hq hi (fun _ _ => rfl) (fun _ => ⟨rfl, rfl⟩) hexec

theorem length_leBytes (n v : Nat) : (leBytes n v).length = n := by
  induction n generalizing v with
  | zero => rfl
  | succ n ih => rw [leBytes, List.length_cons, ih]

theorem getD_leBytes {n i : Nat} (v : Nat) (h : i < n) : (leBytes n v).getD i 0 = v / 256 ^ i % 256 := by
  induction n generalizing v i with
  | zero => omega
  | succ n ih =>
    cases i with
    | zero => simp [leBytes]
    | succ i =>
      rw [leBytes, List.getD_cons_succ, ih _ (by omega), Nat.div_div_eq_div_mul, Nat.pow_succ']

/-- A buffered store that is aligned drains whole. -/
theorem aligned_whole {e : SbEntry} (hsize : e.size ≠ 0) (haligned : e.addr % e.size = 0) : e.split = false := by
  obtain ⟨q, hq⟩ := Nat.dvd_of_mod_eq_zero haligned
  have hlow : e.low = e.size := by
    rw [SbEntry.low, hq, Nat.mul_div_cancel_left q (Nat.pos_of_ne_zero hsize), Nat.succ_mul, Nat.mul_comm q, Nat.add_sub_cancel_left]
  rw [Bool.eq_false_iff, ne_eq, split_iff, hlow]
  exact fun h => Nat.lt_irrefl _ h.2

/-- The oldest store of a buffer drains into core memory. -/
theorem storeDrain_core {s : State} {c t key : Nat} {e : SbEntry} {r : List SbEntry} (hsb : (s.thr c t).sb = e :: r)
    (hsize : e.size ≠ 0) (haligned : e.addr % e.size = 0) (hkey : dmemKey c e.addr = some key) :
    storeDrain s c t = sepStore (s.setThr c t ((s.thr c t).withSb r)) key (leBytes e.size e.val) := by
  rw [storeDrain_oldest hsb, aligned_whole hsize haligned, if_neg Bool.false_ne_true, drainInto, dataStore, inDram_of_key hkey,
    if_neg Bool.false_ne_true, hkey]

/-! ### Instruction space (R341, R347) -/

theorem accessRow_issues {s : State} {c t op rd ra k : Nat} {f : Nat → Nat → Nat → Body} (h : Issues s c t (.imm op rd ra k)) :
    accessRow c t op f s = settleRes (takeTurn s c t) c t (f rd ra k (s.issued c t)) := h.issue_eq (by simp)

theorem ldi_completes {s : State} {c : Fin 32} {h : Fin 4} {rd ra k key : Nat} (hq : Quiet s c h) (hi : Issues s c h (.imm 28 rd ra k))
    (hkey : imemKey c ((s.thr c h).addrOf ra k).toNat = some key) (haligned : ((s.thr c h).addrOf ra k).toNat % 4 = 0) :
    Completes (.opLdi c h .none) s fun t => ThreadAt (s.setG c h rd (BitVec.ofNat 32 (memWord s.sep.mem key))) t c h
      ((s.thr c h).pc + 4) (s.loadOld c h rd) := by
  have hv := issuedFrom_issued c.val h.val hq.1
  have hexec : exec (.opLdi c h .none) s = .next (settleRes (takeTurn s c h) c h (ldiBody c h rd ra k .none (s.issued c h))) :=
    congrArg Host.Outcome.next (accessRow_issues hi)
  have hword : (s.issued c h).iword c ((s.thr c h).addrOf ra k).toNat = some (BitVec.ofNat 32 (memWord s.sep.mem key)) := by
    rw [State.iword, if_neg (not_not.2 haligned), hkey, hv.mem]
    rfl
  simp only [ldiBody, hv.addrOf, hkey, haligned, if_true, sepUpset, iRead_of_undamaged (hv.bad.trans hq.1), hword, hv.loadDone] at hexec
  exact completes_setG hq hi hexec

/-- The same core memory on both sides. -/
theorem IssuedFrom.putMem {u v : State} {c t : Nat} (h : IssuedFrom c t u v) (m : List Host.Cell) :
    IssuedFrom c t { u with sep := { u.sep with mem := m } } { v with sep := { v.sep with mem := m } } := by
  obtain ⟨hthr, hothers, hrest⟩ := h
  refine ⟨hthr, hothers, ?_⟩
  rw [hrest]

theorem sti_completes {s : State} {c : Fin 32} {h : Fin 4} {rd ra k key : Nat} (hq : Quiet s c h) (hi : Issues s c h (.imm 29 rd ra k))
    (hkey : imemKey c ((s.thr c h).addrOf ra k).toNat = some key) (haligned : ((s.thr c h).addrOf ra k).toNat % 4 = 0)
    (hown : ((s.thr c h).addrOf ra k).toNat < 0x100000) (hpriv : swPriv (s.thr c h).sw ≠ 0) :
    Completes (.opSti c h) s fun t =>
      ThreadAt { s with sep := { s.sep with mem := memPutWord s.sep.mem key ((s.thr c h).use rd).toNat } } t c h ((s.thr c h).pc + 4) none := by
  have hv := issuedFrom_issued c.val h.val hq.1
  have hexec : exec (.opSti c h) s = .next (settleRes (takeTurn s c h) c h (stiBody c h rd ra k (s.issued c h))) :=
    congrArg Host.Outcome.next (accessRow_issues hi)
  have hfine : ¬(((s.thr c h).addrOf ra k).toNat % 4 ≠ 0 ∨ 0x100000 ≤ ((s.thr c h).addrOf ra k).toNat) := by omega
  simp only [stiBody, hv.addrOf, hkey, if_neg hfine, hv.user, hpriv, decide_false, Bool.false_eq_true, if_false, hv.use,
    sepStore_of_undamaged (hv.bad.trans hq.1), hv.mem] at hexec
  exact completes_done hq hi hexec (hv.putMem _) rfl rfl rfl

/-! ### I/O space (R343, R347, R357) -/

theorem thr_accessCycle (s : State) (who : Requester) (c t : Nat) : (s.accessCycle who).thr c t = s.thr c t :=
  accessCycle_congr (·.thr c t) (fun _ _ => rfl) s who

/-- An access that begins leaves a thread as ready as it was. -/
theorem issues_accessCycle {s : State} {who : Requester} {c t : Nat} {i : Ins} (h : Issues s c t i) : Issues (s.accessCycle who) c t i := by
  obtain ⟨hturn, hfront, hfree⟩ := h
  refine ⟨?_, ?_, ?_⟩
  · rw [← hturn]
    exact accessCycle_congr (·.myTurn c t) (fun _ _ => rfl) s who
  · rw [← hfront]
    exact accessCycle_congr (·.front c t) (fun _ _ => rfl) s who
  · rw [← hfree]
    exact accessCycle_congr (fun s => (s.thr c t).blocked (s.flag (SEP_CCFG_OPEN c)) i) (fun _ _ => rfl) s who

theorem quiet_accessCycle {s : State} {who : Requester} {c t : Nat} (h : Quiet s c t) : Quiet (s.accessCycle who) c t := by
  obtain ⟨hbad, hstep⟩ := h
  refine ⟨?_, ?_⟩
  · rw [← hbad]
    exact accessCycle_congr (·.sep.bad) (fun _ _ => rfl) s who
  · rw [← hstep]
    exact accessCycle_congr (·.dctlBit c (8 + t)) (fun _ _ => rfl) s who

/-- Whether an access to the window faults is a matter of what is powered alone. -/
theorem busRead_faults (s : State) (off : Nat) : (busRead s off).2.1 = s.silent (off / 4 * 4) := by
  cases hsilent : s.silent (off / 4 * 4) with
  | true => simp [busRead, hsilent]
  | false =>
    simp only [busRead, hsilent, Bool.false_eq_true, if_false]
    split <;> rfl

theorem busWrite_faults (s : State) (off : Nat) (v : Word) : (busWrite s off v).1 = s.silent (off / 4 * 4) := by
  cases hsilent : s.silent (off / 4 * 4) with
  | true => simp [busWrite, hsilent]
  | false =>
    simp only [busWrite, hsilent, Bool.false_eq_true, if_false]
    split
    · rfl
    · split <;> rfl

/-- What is silent before an access begins is so when its instruction works. -/
theorem silent_issued {s : State} {c t : Nat} (hbad : s.sep.bad = []) (who : Requester) (off : Nat) :
    ((s.accessCycle who).issued c t).silent off = (s.issued c t).silent off := by
  have hbad' : (s.accessCycle who).sep.bad = [] := (accessCycle_congr (·.sep.bad) (fun _ _ => rfl) s who).trans hbad
  have hup : (s.accessCycle who).up (domOf (mirrorOf off)) = s.up (domOf (mirrorOf off)) :=
    accessCycle_congr (·.up (domOf (mirrorOf off))) (fun _ _ => rfl) s who
  rw [State.silent, (issuedFrom_issued c t hbad').up, hup, State.silent, (issuedFrom_issued c t hbad).up]

theorem IssuedFrom.ioWord {u v : State} {c t : Nat} (h : IssuedFrom c t u v) (d i : Nat) :
    (v.thr c d).ioWord i = (u.thr c d).ioWord i := by
  by_cases hd : d = t
  · rw [hd, h.1]
    rfl
  · have hother : v.thr c d = u.thr c d := h.2.1 _ (by omega)
    rw [hother]

theorem ioPut_withQueue (i : Nat) (w : Word) (x : Thread) (q : List (Option Word)) : (x.withQueue q).ioPut i w = (x.ioPut i w).withQueue q := by
  unfold Thread.ioPut
  split <;> rfl

theorem ioPut_keeps (x : Thread) (i : Nat) (w : Word) : (x.ioPut i w).pc = x.pc ∧ (x.ioPut i w).state = x.state := by
  unfold Thread.ioPut
  split <;> exact ⟨rfl, rfl⟩

/-- A write of a word of a thread of the core (R357). -/
def putIo (s : State) (c d i : Nat) (w : Word) : State := s.setThr c d ((s.thr c d).ioPut i w)

theorem IssuedFrom.putIo {u v : State} {c t : Nat} (h : IssuedFrom c t u v) (d i : Nat) (w : Word) :
    IssuedFrom c t (putIo u c d i w) (putIo v c d i w) := by
  by_cases hd : d = t
  · subst hd
    exact h.mapThr (f := fun x => x.ioPut i w) (ioPut_withQueue i w)
  · have hother : v.thr c d = u.thr c d := h.2.1 _ (by omega)
    rw [Machine.putIo, Machine.putIo, hother]
    exact h.setOther (by omega) _

theorem putIo_keeps (s : State) (c d i t : Nat) (w : Word) :
    ((putIo s c d i w).thr c t).pc = (s.thr c t).pc ∧ ((putIo s c d i w).thr c t).state = (s.thr c t).state := by
  by_cases hd : t = d
  · subst hd
    rw [putIo, State.thr_setThr_same]
    exact ioPut_keeps ..
  · have hother : (putIo s c d i w).thr c t = s.thr c t := smGet_smSet_other _ _ _ _ _ _ (by omega)
    rw [hother]
    exact ⟨rfl, rfl⟩

theorem ioRead_own {s : State} {c a : Nat} (haligned : a % 4 = 0) (hlo : 0x4000000 ≤ a) (hhi : a < 0x4000080) :
    ioRead s c a = (s, some ((s.thr c (a % 0x80 / 0x20)).ioWord (a % 0x20 / 4))) := by
  rw [ioRead, if_neg (not_not.2 haligned), if_neg (Nat.not_lt.2 hlo), if_pos hhi]

theorem ioWrite_own {s : State} {c a : Nat} {v : Word} (haligned : a % 4 = 0) (hlo : 0x4000000 ≤ a) (hhi : a < 0x4000080) :
    ioWrite s c a v = (putIo s c (a % 0x80 / 0x20) (a % 0x20 / 4) v, false) := by
  rw [ioWrite, if_neg (not_not.2 haligned), if_neg (Nat.not_lt.2 hlo), if_pos hhi]
  rfl

theorem ioRead_window {s : State} {c a : Nat} (haligned : a % 4 = 0) (hlow : a < 0x4000000) (hfine : (busRead s a).2.1 = false) :
    ioRead s c a = ((busRead s a).2.2, some (busRead s a).1) := by
  rw [ioRead, if_neg (not_not.2 haligned), if_pos hlow]
  simp only [hfine, Bool.false_eq_true, if_false]

theorem ioWrite_window {s : State} {c a : Nat} {v : Word} (haligned : a % 4 = 0) (hlow : a < 0x4000000) (hfine : (busWrite s a v).1 = false) :
    ioWrite s c a v = ((busWrite s a v).2, false) := by
  rw [ioWrite, if_neg (not_not.2 haligned), if_pos hlow]
  simp only [hfine]

section
variable {s : State} {c t rd ra k : Nat} (hq : Quiet s c t)
include hq

/-- IN in user mode faults. -/
theorem in_user (hi : Issues s c t (.imm 30 rd ra k)) (huser : swPriv (s.thr c t).sw = 0) :
    accessRow c t 30 (inBody c t) s = trapTo (s.issued c t) c t 2 (s.thr c t).pc 0 := by
  have hv := issuedFrom_issued c t hq.1
  rw [accessRow_issues hi, inBody, hv.user, if_pos (decide_eq_true huser), Res.fault, settleRes, hv.pc]

theorem out_user (hi : Issues s c t (.imm 31 rd ra k)) (huser : swPriv (s.thr c t).sw = 0) :
    accessRow c t 31 (outBody c t) s = trapTo (s.issued c t) c t 2 (s.thr c t).pc 0 := by
  have hv := issuedFrom_issued c t hq.1
  rw [accessRow_issues hi, outBody, hv.user, if_pos (decide_eq_true huser), Res.fault, settleRes, hv.pc]

/-- IN that its address answers. -/
theorem in_answered {u : State} {w : Word} (hi : Issues s c t (.imm 30 rd ra k)) (hpriv : swPriv (s.thr c t).sw ≠ 0)
    (hsb : (s.thr c t).sb = []) (hread : ioRead (s.issued c t) c ((s.thr c t).addrOf ra k).toNat = (u, some w))
    (hrun : (u.thr c t).state = .running) : accessRow c t 30 (inBody c t) s = finish (u.setG c t rd w) c t 4 none := by
  have hv := issuedFrom_issued c t hq.1
  rw [accessRow_issues hi]
  simp only [inBody, hv.user, hpriv, decide_false, Bool.false_eq_true, if_false, hv.addrOf, drainAll_of_empty (hv.sb.trans hsb), hread,
    hrun, if_true, settleRes]

theorem out_answered {u : State} (hi : Issues s c t (.imm 31 rd ra k)) (hpriv : swPriv (s.thr c t).sw ≠ 0) (hsb : (s.thr c t).sb = [])
    (hwrite : ioWrite (s.issued c t) c ((s.thr c t).addrOf ra k).toNat ((s.thr c t).use rd) = (u, false)) :
    accessRow c t 31 (outBody c t) s = finish u c t 4 none := by
  have hv := issuedFrom_issued c t hq.1
  rw [accessRow_issues hi]
  simp only [outBody, hv.user, hpriv, decide_false, Bool.false_eq_true, if_false, hv.addrOf, hv.use, drainAll_of_empty (hv.sb.trans hsb),
    hwrite, settleRes]

theorem running_issued {i : Ins} (hi : Issues s c t i) : ((s.issued c t).thr c t).state = .running :=
  (congrArg Thread.state (issuedFrom_issued c t hq.1).1).trans hi.running

/-- IN of a word of a thread of its core (R357). -/
theorem in_own (hi : Issues s c t (.imm 30 rd ra k)) (hpriv : swPriv (s.thr c t).sw ≠ 0) (hsb : (s.thr c t).sb = []) {a : Nat}
    (ha : ((s.thr c t).addrOf ra k).toNat = a) (haligned : a % 4 = 0) (hlo : 0x4000000 ≤ a) (hhi : a < 0x4000080) :
    ThreadAt (s.setG c t rd ((s.thr c (a % 0x80 / 0x20)).ioWord (a % 0x20 / 4))) (accessRow c t 30 (inBody c t) s) c t
      ((s.thr c t).pc + 4) none := by
  have hv := issuedFrom_issued c t hq.1
  rw [in_answered hq hi hpriv hsb (by rw [ha]; exact ioRead_own haligned hlo hhi) (running_issued hq hi), hv.ioWord]
  obtain ⟨hpc, hstate⟩ := setG_pc_state s c t rd ((s.thr c (a % 0x80 / 0x20)).ioWord (a % 0x20 / 4))
  rw [← hpc]
  exact (hv.setG rd _).finish (((onlyThread_setG ..).dctlBit ..).trans hq.2) (hstate.trans hi.running) 4 none

theorem out_own (hi : Issues s c t (.imm 31 rd ra k)) (hpriv : swPriv (s.thr c t).sw ≠ 0) (hsb : (s.thr c t).sb = []) {a : Nat}
    (ha : ((s.thr c t).addrOf ra k).toNat = a) (haligned : a % 4 = 0) (hlo : 0x4000000 ≤ a) (hhi : a < 0x4000080) :
    ThreadAt (putIo s c (a % 0x80 / 0x20) (a % 0x20 / 4) ((s.thr c t).use rd)) (accessRow c t 31 (outBody c t) s) c t
      ((s.thr c t).pc + 4) none := by
  have hv := issuedFrom_issued c t hq.1
  rw [out_answered hq hi hpriv hsb (by rw [ha]; exact ioWrite_own haligned hlo hhi)]
  obtain ⟨hpc, hstate⟩ := putIo_keeps s c (a % 0x80 / 0x20) (a % 0x20 / 4) t ((s.thr c t).use rd)
  rw [← hpc]
  exact (hv.putIo _ _ _).finish ((dctlBit_setThr ..).trans hq.2) (hstate.trans hi.running) 4 none

/-- IN of a register of the window. -/
theorem in_window (hi : Issues s c t (.imm 30 rd ra k)) (hpriv : swPriv (s.thr c t).sw ≠ 0) (hsb : (s.thr c t).sb = []) {a : Nat}
    (ha : ((s.thr c t).addrOf ra k).toNat = a) (haligned : a % 4 = 0) (hlow : a < 0x4000000)
    (hfine : (busRead (s.issued c t) a).2.1 = false) : accessRow c t 30 (inBody c t) s =
      finish ((busRead (s.issued c t) a).2.2.setG c t rd (busRead (s.issued c t) a).1) c t 4 none := by
  subst ha
  refine in_answered hq hi hpriv hsb (ioRead_window haligned hlow hfine) ?_
  rw [State.thr, sep_busRead]
  exact running_issued hq hi

theorem out_window (hi : Issues s c t (.imm 31 rd ra k)) (hpriv : swPriv (s.thr c t).sw ≠ 0) (hsb : (s.thr c t).sb = []) {a : Nat}
    (ha : ((s.thr c t).addrOf ra k).toNat = a) (haligned : a % 4 = 0) (hlow : a < 0x4000000)
    (hfine : (busWrite (s.issued c t) a ((s.thr c t).use rd)).1 = false) : accessRow c t 31 (outBody c t) s =
      finish (busWrite (s.issued c t) a ((s.thr c t).use rd)).2 c t 4 none := by
  subst ha
  exact out_answered hq hi hpriv hsb (ioWrite_window haligned hlow hfine)

end

/-! ### The clauses of O45 -/

/-- IN and OUT work in the state in which their access has begun. -/
theorem completesIn_opIn {s : State} {c : Fin 32} {h : Fin 4} {P : State → State → Prop}
    (hP : P (s.accessCycle (.core c h)) (accessRow c h 30 (inBody c h) (s.accessCycle (.core c h)))) : CompletesIn (.opIn c h) s P :=
  ⟨_, rfl, hP⟩

theorem completesIn_opOut {s : State} {c : Fin 32} {h : Fin 4} {P : State → State → Prop}
    (hP : P (s.accessCycle (.core c h)) (accessRow c h 31 (outBody c h) (s.accessCycle (.core c h)))) : CompletesIn (.opOut c h) s P :=
  ⟨_, rfl, hP⟩

/-- Settles O45: each access's row, and where it reaches. -/
theorem sepiaMemory : Obligations.SepiaMemory := by
  refine ⟨⟨fun c h rd ra k s hq => ⟨fun p hp hi hwindow hsb => ?_, fun p hp hi hwindow hrights hanswer hsb => ?_,
      fun key hkey haligned => ⟨fun hi => ldi_completes hq hi hkey haligned, fun hi => sti_completes hq hi hkey haligned⟩⟩,
    fun c h e r key s hup hsb hsize haligned hkey => ?_⟩, fun c h rd ra k s hq => ⟨fun hi => ⟨fun huser => ?_, ?_, ?_⟩,
      fun hi => ⟨fun huser => ?_, ?_, ?_⟩⟩⟩
  · obtain ⟨hkind, hn, hexec⟩ : loadKind p.1 = (p.2.1, p.2.2.1) ∧ p.2.1 ≤ 4 ∧ exec p.2.2.2 s = .next (loadRow c h p.1 .none s) := by
      simp only [List.mem_cons, List.not_mem_nil, or_false] at hp
      rcases hp with rfl | rfl | rfl | rfl | rfl <;> exact ⟨rfl, by simp, rfl⟩
    exact ⟨fun key hkey => load_core hq hi hkind hexec hwindow hn hsb hkey, load_dram hq hi hkind hexec hwindow hsb,
      load_faults hq hi hkind hexec hwindow⟩
  · have hexec : exec p.2.2 s = .next (storeRow c h p.1 p.2.1 s) := by
      simp only [List.mem_cons, List.not_mem_nil, or_false] at hp
      rcases hp with rfl | rfl | rfl <;> rfl
    have hstore := store_completes hq hi hexec hwindow hrights hanswer hsb
    rw [Thread.push, Nat.mod_eq_of_lt (BitVec.isLt _)] at hstore
    exact hstore
  · have hexec : exec (.storeDrain c h) s = .next (if s.coreUp c then storeDrain s c h else s) := rfl
    rw [hup, if_pos rfl, storeDrain_core hsb hsize haligned hkey] at hexec
    refine ⟨_, hexec, fun i hi => ?_, fun b hb => ?_, State.thr_setThr_same .., rfl⟩
    · refine (memByte_memStore _ _ _ _ (by rw [length_leBytes]; exact hi)).trans ?_
      rw [getD_leBytes _ hi, Nat.mod_mod]
    · exact memByte_memStore_other _ _ _ _ (by rw [length_leBytes]; exact hb)
  · have hrow := in_user (quiet_accessCycle (who := .core c h) hq) (issues_accessCycle hi) (by rw [thr_accessCycle]; exact huser)
    rw [thr_accessCycle] at hrow
    exact completesIn_opIn hrow
  · intro hpriv hsb haligned hlo hhi
    have hrow := in_own (quiet_accessCycle (who := .core c h) hq) (issues_accessCycle hi) (by rw [thr_accessCycle]; exact hpriv)
      (by rw [thr_accessCycle]; exact hsb) (by rw [thr_accessCycle]) haligned hlo hhi
    rw [thr_accessCycle _ _ c h] at hrow
    exact completesIn_opIn hrow
  · intro hpriv hsb haligned hlow r hfine hrun
    have hrow := in_window (quiet_accessCycle (who := .core c h) hq) (issues_accessCycle hi) (by rw [thr_accessCycle]; exact hpriv)
      (by rw [thr_accessCycle]; exact hsb) (by rw [thr_accessCycle]) haligned hlow
      (by rw [busRead_faults, silent_issued hq.1, ← busRead_faults]; exact hfine)
    exact completesIn_opIn hrow
  · have hrow := out_user (quiet_accessCycle (who := .core c h) hq) (issues_accessCycle hi) (by rw [thr_accessCycle]; exact huser)
    rw [thr_accessCycle] at hrow
    exact completesIn_opOut hrow
  · intro hpriv hsb haligned hlo hhi
    have hrow := out_own (quiet_accessCycle (who := .core c h) hq) (issues_accessCycle hi) (by rw [thr_accessCycle]; exact hpriv)
      (by rw [thr_accessCycle]; exact hsb) (by rw [thr_accessCycle]) haligned hlo hhi
    rw [thr_accessCycle _ _ c h] at hrow
    exact completesIn_opOut hrow
  · intro hpriv hsb haligned hlow r hfine
    have hrow := out_window (quiet_accessCycle (who := .core c h) hq) (issues_accessCycle hi) (by rw [thr_accessCycle]; exact hpriv)
      (by rw [thr_accessCycle]; exact hsb) (by rw [thr_accessCycle]) haligned hlow
      (by rw [busWrite_faults, silent_issued hq.1, ← busWrite_faults _ _ ((s.thr c h).use rd)]; exact hfine)
    rw [thr_accessCycle _ _ c h] at hrow
    exact completesIn_opOut hrow

end Sys2Proof.Machine
end
